-- ==== Sys2Proof/Word.lean ====
section
/-! DEFINITION. The words of the module: bytes, 32- and 64-bit words, and the plainest arithmetic on them. -/

namespace Sys2Proof

/-- One byte of memory, of a tile payload or of a frame. -/
abbrev Byte := BitVec 8
/-- A binary32 or INT32 lane, a Facet scalar register (R188). -/
abbrev W32 := BitVec 32
/-- A register, a descriptor word, a Facet instruction word (R25, R62, R203). -/
abbrev W64 := BitVec 64

/-- Bits `hi:lo` of `n`, as the manual writes bit ranges (R24). -/
abbrev fld (n hi lo : Nat) : Nat := (n >>> lo) % 2 ^ (hi + 1 - lo)

/-- Bit `i` of `n`. -/
abbrev bitAt (n i : Nat) : Bool := n.testBit i

end Sys2Proof
end

