-- ==== Sys2Proof/Types.lean ====
section
/-! DEFINITION. The shapes of what commands carry: requesters, tiles, descriptors, frames and records. -/

namespace Sys2Proof

/-- Who makes a register or memory access: the partition manager firmware (a MODULE access, R789) or
software tagged with partition `p` (R790). -/
inductive Who where
  | firmware
  | part (p : Nat)
  deriving DecidableEq, Repr

/-- A tile: its header fields (R49, Table 1-2) and its payload as it travels (R42, R52, R264). -/
structure Tile where
  stream    : Nat
  index     : Nat
  rowsM1    : Nat
  rowBytesM1 : Nat
  format    : Nat
  last      : Bool
  zc        : Bool
  tent      : Bool
  layer     : Nat
  reserved  : Nat
  payload   : List Byte
  deriving DecidableEq, Repr

/-- A command descriptor of eight 64-bit words (R62, Table 1-4). -/
structure Desc where
  w0 : W64
  w1 : W64
  w2 : W64
  w3 : W64
  w4 : W64
  w5 : W64
  w6 : W64
  w7 : W64
  deriving DecidableEq, Repr

/-- What the memory array shows on one access: no error; `n` symbols in error of the first codeword, which are bytes of the 68-byte
codeword of an LPDDR5X line and bits of the 72-bit one of a Commons word (R438, R454); a command or address parity error that a retry
clears, or that persists (R936); or a parity error of the check-line cache or of the controller (Table 7-2). -/
inductive MemObs where
  | clean
  | symbols (n : Nat)
  | parityRetried
  | parityPersistent
  | checkCache
  | ctlParity
  deriving DecidableEq, Repr

/-- A Facet instruction's operand fields (R203, Table 3-3): `lo` is bits 31:0, read as IMM32 or as C and MOD. -/
structure FIns where
  d  : BitVec 5
  a  : BitVec 5
  b  : BitVec 5
  p  : BitVec 3
  pn : Bool
  i  : Bool
  lo : W32
  deriving DecidableEq, Repr

/-- A 16-byte operation record of KVOP, SCTL or VCHAN (R327). -/
structure OpRec where
  op    : Nat
  cls   : Nat
  lode  : Nat
  seq   : Nat
  arg   : Nat
  word1 : Nat
  deriving DecidableEq, Repr

/-- A memory request as it reaches a lode controller or Commons bank: requester station (`none` for a host core
with MODULE or partition tag, see `who`), partition tag, running command if any, address. -/
structure MemReq where
  station : Nat
  who     : Who
  slot    : Option Nat
  addr    : Nat
  len     : Nat
  deriving DecidableEq, Repr

/-- The header of a control frame (R563, Table 9-5). -/
structure CtlHdr where
  magic    : Nat
  verMaj   : Nat
  verMin   : Nat
  type     : Nat
  status   : Nat
  session  : Nat
  len      : Nat
  frameSeq : Nat
  ack      : Nat
  deriving DecidableEq, Repr

/-- The body of OPEN (Table 9-6). -/
structure OpenBody where
  part      : Nat
  token     : Nat
  ringAddr  : Nat
  rkey      : Nat
  ringLog2  : Nat
  clientQpn : Nat
  clientIp  : Nat
  resume    : Nat
  deriving DecidableEq, Repr

/-- The body of SUBMIT (Table 9-7): eight words. -/
structure SubmitBody where
  w0 : Nat
  w1 : Nat
  w2 : Nat
  w3 : Nat
  w4 : Nat
  w5 : Nat
  w6 : Nat
  w7 : Nat
  deriving DecidableEq, Repr

/-- The body of FW_BLOCK (R897, Table 18-5), and whether the store fails to program what the operation writes (R912). -/
structure FwBody where
  offset : Nat
  len    : Nat
  op     : Nat
  flags  : Nat
  time   : Nat
  data   : List Byte
  fails  : Bool := false
  deriving DecidableEq, Repr

/-- The body of PAIR_LEASE (R705, Table 12-8). -/
structure PairLeaseBody where
  serial   : Nat
  epoch    : Nat
  left     : Nat
  time     : Nat
  decision : Nat
  release  : Bool
  tag      : List Byte
  deriving DecidableEq, Repr

/-- The body of a control frame by type (Table 9-6). -/
inductive CtlBody where
  | none
  | openB (b : OpenBody)
  | submitB (b : SubmitBody)
  | fwB (b : FwBody)
  | reqB (req ttl : Nat)
  | queryB (item : Nat) (arg : List Byte)
  | pairLeaseB (b : PairLeaseBody)
  deriving DecidableEq, Repr

/-- A control frame as it arrives: its header and body. -/
structure CtlFrame where
  hdr  : CtlHdr
  body : CtlBody
  deriving DecidableEq, Repr

/-- A RoCEv2 response of a responder (R557, R560): READ data, acknowledgement, or a NAK. -/
inductive RdmaResp where
  | readData (psn : Nat) (bytes : List Byte)
  | ack (psn : Nat)
  | seqNak (psn : Nat)
  | accessNak (psn : Nat)
  deriving DecidableEq, Repr

/-- What a received Ethernet frame holds, by the five consumers of the classifier (Host Link chapter). -/
inductive FrameBody where
  | gptp
  | pause
  | control (dport : Nat) (f : CtlFrame)
  | fragment (id total idx dport : Nat) (f : CtlFrame)
  | roceRequest
  | roceResponse (qpn : Nat) (r : RdmaResp)
  | congestion (qpn : Nat)
  | udp (dport : Nat) (bytes : List Byte)
  | other
  deriving DecidableEq, Repr

/-- An Ethernet frame at a port's MAC: length from destination address to FCS, tag, source, check result. -/
structure EthFrame where
  len    : Nat
  tagged : Bool
  pcp    : Nat
  vlan   : Nat
  srcMac : Nat
  cbSeq  : Option Nat
  fcsOk  : Bool
  body   : FrameBody
  deriving DecidableEq, Repr

/-- A Warp frame (R648, Table 11-4): clear header, INFO, payload; `tagOk` says that its GCM tag verifies (R653). -/
structure WarpFrame where
  counter : Nat
  part    : Nat
  tileEnd : Bool
  src     : Nat
  dst     : Nat
  chan    : Nat
  info    : Nat
  payload : List Byte
  tagOk   : Bool
  deriving DecidableEq, Repr

/-- An identity record (Table 11-2). -/
structure IdentRec where
  serial  : Nat
  fabric  : Nat
  module_ : Nat
  link    : Nat
  slot    : Nat
  manager : Bool
  pair    : Bool
  verLo   : Nat
  verHi   : Nat
  launch0 : Nat
  launch1 : Nat
  nonce   : Nat
  epoch   : Nat
  deriving DecidableEq, Repr

/-- What the far end of a link sends in IDENT: its identity record and its key confirmation (R642, R798). -/
structure IdentMsg extends IdentRec where
  tag : List Byte
  deriving DecidableEq, Repr

/-- A write of CFG_START_CTL that asks for a start: who writes, and what the reads of the store will meet in that start: the areas that
show errors, by the number of `Store.failing`, and how many attempts in a row fail there (R894). -/
structure StartReq where
  who   : Who
  areas : List (Nat × Nat)
  deriving DecidableEq, Repr

/-- The content of a LEASE frame on the pair link (Table 12-2). -/
structure LeaseRec where
  serial   : Nat
  epoch    : Nat
  left     : Nat
  time     : Nat
  decision : Nat
  release  : Bool
  fibreM   : Nat
  deriving DecidableEq, Repr

/-- One outcome carried by a DECISION record (Table 12-2); `step` says that the outcomes so far are those of a step, which the
standby may run with it (R693). -/
inductive Outcome2 where
  | step
  | join (req : Nat)
  | leave (req : Nat)
  | clientOp (req kind ttl : Nat)
  | ttlExpired (req : Nat)
  | acked (session ack : Nat)
  | retainOvf (session : Nat)
  | abort (part seq : Nat) (result : Nat)
  | groupCancel (part group : Nat)
  | keypic (vd chan pic : Nat)
  | picture (vd chan firstSeq : Nat) (included : List Nat)
  deriving DecidableEq, Repr

/-- What a module of a pair has still to do in order: an outcome decided for it (R692), or a teardown that waits for a step boundary
(R812). -/
inductive PairWork where
  | decided (o : Outcome2)
  | teardown (part : Nat)
  deriving DecidableEq, Repr

/-- One LINE_READ entry (R696): tag, LINE_Q and the strobe's timestamp. -/
structure LineReadEntry where
  tag : Nat
  q   : Nat
  ts  : Nat
  deriving DecidableEq, Repr

/-- A settings record (R908, Table 18-9): FORMAT, SEQ, the values of its fields by ID and their layout versions by ID. A
field without a listed version is at the version that the image uses. -/
structure SettingsRec where
  formatMaj : Nat
  formatMin : Nat
  seq       : Nat
  fields    : List (Nat × Nat)
  vers      : List (Nat × Nat)
  deriving DecidableEq, Repr

/-- An image's container header (R895) with the outcome of its cryptographic checks (R896, checks 4 to 6). -/
structure ImageHdr where
  magic   : Nat
  format  : Nat
  kind    : Nat
  product : Nat
  fabric  : Nat
  version : Nat
  length  : Nat
  digest  : Nat
  deriving DecidableEq, Repr

end Sys2Proof

namespace Sys2Proof.Machine

open Sys2Proof

/-- A sparse table: index and value, indices rising, an index that is not listed holding the table's default. -/
abbrev Tab (α : Type) := List (Nat × α)

/-- One slot of one layer of a sequence's Bobbin, with the 64-byte lines of Commons that hold its entry (R341, R343). -/
structure BobEntry where
  seq   : Nat
  layer : Nat
  pos   : Nat
  tent  : Bool
  lines : List Nat
  deriving DecidableEq, Repr

/-- The sampler's state of one sequence (R387, R392, R414, R415). -/
structure SampSeq where
  owner    : Option Nat
  buf      : List Nat
  dmin     : Nat
  dmax     : Nat
  pin      : Bool
  pinVal   : Nat
  length   : Nat
  zero     : Nat
  clash    : Nat
  deriving DecidableEq, Repr

/-- The states of a request (R361, Table 6-1); `held` waits for the standby's journal confirmation (R574). -/
inductive ReqState where
  | held
  | prefill
  | decode
  | paused
  | expired
  | ended
  deriving DecidableEq, Repr

/-- A journaled request (R574, the journal entry) with its runtime state: `tag` is CLIENT_TAG, `highest` the highest
output index that was given a result sequence, `endSeq` the result sequence of its END, `journal` the number of the
JOURNAL record that carried it, `port` and `seq` where and under which FRAME_SEQ its SUBMIT came. -/
structure Request where
  session  : Nat
  part     : Nat
  tag      : Nat
  body     : SubmitBody
  degraded : Bool
  state    : ReqState
  highest  : Option Nat
  endSeq   : Option Nat
  journal  : Nat
  port     : Nat
  seq      : Nat
  cancelled : Bool
  /-- The last MAIN sample entry that named the request (Table 6-3), 64 bytes or none yet, and its tokens by position. -/
  entry    : List Byte
  tokens   : List (Nat × Nat)
  deriving DecidableEq, Repr

/-- A page in an image: layer, page index, entry bytes (R403). -/
structure SavedPage where
  layer : Nat
  page  : Nat
  bytes : List Byte
  deriving DecidableEq, Repr

/-- A paused conversation's image in the cold tier (R403, R404, R457 to R460): its size there and time to live in seconds; when it was
complete, and its age from before the timebase last began; the generation of its partition's key; the words of the sequence record,
the entries of its non-null pages, the tokens of its committed Bobbin positions and the last one sampled, its entry fields and its
loop settings. -/
structure Image where
  part     : Nat
  bytes    : Nat
  ttl      : Nat
  doneAt   : Nat
  aged     : Nat
  complete : Bool
  gen      : Nat
  words    : List Nat
  pages    : List SavedPage
  tokens   : List Nat
  entry    : List Byte
  loop     : SampSeq
  deriving DecidableEq, Repr

/-- An RTP packet held by a decode channel (R490 to R493). -/
structure Pkt where
  ext     : Nat
  ts      : Nat
  arrival : Nat
  marker  : Bool
  bytes   : List Byte
  deriving DecidableEq, Repr

/-- A picture the channel has completed and not yet emitted (R494, R502). -/
structure Pic where
  ts      : Nat
  arrival : Nat
  pkts    : List Pkt
  lost    : Nat
  first   : Nat
  byJitter : Bool
  /-- The tick at which it was complete, and its slices that the header firmware missed, by number (R489). -/
  at_      : Nat
  late     : List Nat
  deriving DecidableEq, Repr

/-- What a picture's packets hold for the decoder: NAL units, each with whether it is whole, and the slices that the header firmware
missed, by number (R476, R489, R495). -/
structure PicBits where
  late : List Nat
  nals : List (List Byte × Bool)
  deriving DecidableEq, Repr

/-- What the standard's decoding process makes of a slice of a picture: its first CTU in decoding order, how many of its CTUs decode
before an error or its end, and the errors that R503 lists: in entropy decoding, of a syntax element out of its range, an end before
the slice's last CTU or a run past it, a reference to a parameter set or picture that is absent. -/
structure SliceScan where
  first   : Nat
  decoded : Nat
  entropy : Bool
  range   : Bool
  short   : Bool
  past    : Bool
  absent  : Bool
  deriving DecidableEq, Repr, Inhabited

/-- What an encode channel's parameter sets and slice headers say beside the picture (R474, R475): the size, the frame rate, the level in
thirtieths (general_level_idc), pictures held, CTU rows of a slice, the period of long-term references; and what holds for every
stream: HEVC Main (profile 1) at 8 bits, CTUs of 64, deblocking and SAO on. -/
structure EncSets where
  width     : Nat
  height    : Nat
  fps       : Nat
  level     : Nat
  dpb       : Nat
  sliceRows : Nat
  ltr       : Nat
  profile   : Nat
  depth     : Nat
  ctuLog2   : Nat
  deblock   : Bool
  sao       : Bool
  deriving DecidableEq, Repr

/-- The properties of a decoded picture that its parameter sets and slice headers give. -/
inductive PicField where
  | width
  | height
  /-- Columns and rows that cropping takes at the left and the top, and what it leaves (R500). -/
  | cropLeft
  | cropTop
  | outWidth
  | outHeight
  /-- More than 8 bits a sample. -/
  | deep
  /-- IDR or IRAP picture. -/
  | irap
  /-- profile_idc, constraint_set1_flag, level_idc and chroma_format_idc of the parameter set (R472). -/
  | profile
  | constrained
  | level
  | chroma
  /-- A field picture, MBAFF, PAFF, arbitrary slice order, FMO; a field-indication stream (R473). -/
  | fieldPicture
  | mbaff
  | paff
  | aso
  | fmo
  | fieldSeq
  /-- The parameter set permits long-term references (R512). -/
  | longTerm
  /-- Log2 of the CTU size. -/
  | ctuLog2
  | intra
  /-- How many decoded pictures lie between the picture and the first picture of reference list 0. -/
  | ref0
  /-- matrix_coefficients of the VUI. -/
  | matrix
  deriving DecidableEq, Repr

/-- An open video channel (R480, Table 8-2) and its progress. `pics` counts pictures since the open, `ringPos` and
`ringPut` are the next ring slots that the VD reads and that a producer fills, `history` and `metas` the pictures decoded, in decoding
order, since the decoder last began again, and `prior` those of before, run by run, latest first; `prevRec` and `longRef` the last picture that an encode channel coded and its long-term one, as a decoder reconstructs them (R525);
`slice` the progress of the first-slice event of the picture being coded: 0 none, 1 raised, 2 granted, 3 granted as
IDR (R524); `band` the picture samples received. -/
structure VChan where
  vd       : Nat
  chan     : Nat
  encode   : Bool
  recWords : List Nat
  owner    : Nat
  priv     : Bool
  cost     : Nat
  waitIrap : Bool
  pics     : Nat
  /-- Pictures emitted when the decoder last began again at an IRAP picture (R530). -/
  base     : Nat
  ringPos  : Nat
  ringPut  : Nat
  ssrc     : Option Nat
  highest  : Option Nat
  lastDone : Option Nat
  /-- RTP timestamps of the pictures last completed, and packets dropped under R492 (R493). -/
  doneTs   : List Nat
  foreign  : Nat
  pkts     : List Pkt
  ready    : List Pic
  history  : List PicBits
  prior    : List (List PicBits)
  metas    : List Pic
  prevRec  : List Byte
  longRef  : Option (List Byte)
  qp       : Nat
  sinceIdr : Nat
  idrNext  : Bool
  slice    : Nat
  band     : List Byte
  rtpSeq   : Nat
  /-- Bits of the picture being coded so far; the tick at which the slice being gathered began, and that the header firmware missed it
  (R489, R519). -/
  bits     : Nat
  sliceAt  : Nat
  missed   : Bool
  deriving DecidableEq, Repr

/-- A retained result entry (R579, Table 9-10). -/
structure RetEntry where
  resSeq : Nat
  status : Nat
  req    : Nat
  bytes  : List Byte
  /-- The JOURNAL and DECISION records that must be confirmed before it may leave (R694). -/
  journal  : Nat
  decision : Nat
  deriving DecidableEq, Repr

/-- A response as the module sent it: type, status and body bytes, and its own FRAME_SEQ, 0 outside a session (Tables 9-5 and 9-6). -/
structure Response where
  type   : Nat
  status : Nat
  body   : List Nat
  bytes  : List Byte
  seq    : Nat
  deriving DecidableEq, Repr

/-- A control session (R564, R567, R570, R572) and its result state (R579 to R585). -/
structure Session where
  part     : Nat
  mgmt     : Bool
  verMaj   : Nat
  verMin   : Nat
  ringAddr : Nat
  rkey     : Nat
  ringLog2 : Nat
  qpn      : Nat
  clientIp : Nat
  seen     : List Nat
  answers  : Tab Response
  txSeq    : Nat
  nextRes  : Nat
  acked    : Nat
  written  : Nat
  retained : List RetEntry
  closed   : Bool
  closeStatus : Nat
  deriving DecidableEq, Repr

/-- An RDMA operation a queue pair has issued and not finished (R557, R560). -/
structure RdmaOp where
  psn   : Nat
  npkts : Nat
  read  : Bool
  addr  : Nat
  rkey  : Nat
  len   : Nat
  bytes : List Byte
  slot  : Option Nat
  deriving DecidableEq, Repr

/-- A queue pair (R555, R557, R558). `state`: 0 reset, 1 ready, 2 error. `rate` in 2^-32 of
line rate; `psn` the next packet sequence number to send, `acked` the next one to be acknowledged. -/
structure QPair where
  part    : Nat
  port    : Nat
  state   : Nat
  mtu     : Nat
  psn     : Nat
  acked   : Nat
  retries : Nat
  rate    : Nat
  rateAt  : Nat
  sentAt  : Nat
  timeout : Nat
  ops     : List RdmaOp
  deriving DecidableEq, Repr

/-- A journal write carried by JOURNAL (R574): a request or a session record, with its queue pair; a frame received and the response given
to it (R570). -/
inductive JournalWrite where
  | request (req : Nat) (r : Request)
  | free (req : Nat)
  | acked (session ack : Nat)
  | session (num : Nat) (ss : Session) (qp : Option QPair)
  | closed (num status : Nat)
  | seen (num seq : Nat)
  | answer (num seq : Nat) (r : Response)
  | teardown (part : Nat)
  deriving DecidableEq, Repr

/-- A piece of what a join copies (R715, Table 12-4): memory, a register of the LEDGER or SP, a Bobbin entry, a
sampler sequence, a video channel, a cold-tier image, a journaled request, a session with its queue pair. -/
inductive JoinItem where
  | memory (addr : Nat) (bytes : List Byte)
  | register (addr val : Nat)
  | bobbin (e : BobEntry)
  | sequence (n : Nat) (q : SampSeq)
  | channel (key : Nat) (c : VChan)
  | image (req : Nat) (im : Image)
  | request (req : Nat) (r : Request)
  | session (num : Nat) (ss : Session) (qp : Option QPair)
  deriving DecidableEq, Repr

end Sys2Proof.Machine
end

