-- ==== Sys2Proof/Syntax.lean ====
section
/-! DEFINITION. The commands of the module: one constructor per row of the table of operations and events. -/

namespace Sys2Proof

/-- One command: an operation of a client, of software, of a station or of a link, or an event on a pin or of a
timer (opcode_table.json, one constructor per row). `slot` names a tracked command of the Loom, `st` a station,
`j` a Warp link, `n` a port. -/
inductive Instr where
  -- Stream programs, stations and the Seam
  | loomSqTail (who : Who) (q tail : Nat)
  | loomSqBase (who : Who) (q base : Nat)
  | loomSqCtl (who : Who) (q val : Nat)
  | descriptorAccept (obs : MemObs)
  | dispatch (st unit : Nat)
  | tileSend (slot out : Nat)
  | tileArrive (slot inp : Nat)
  | creditReturn (slot inp : Nat)
  | loomStall (slot : Nat)
  | loomAbort (who : Who) (val : Nat)
  | eventGrant
  | completionRecordWrite (q : Nat)
  | nop (slot : Nat)
  | tload (slot : Nat)
  | tstore (slot : Nat)
  | htask (slot : Nat)
  | htaskHandover (slot : Nat)
  | hcTaskDone (who : Who) (cluster task status : Nat)
  -- Matrix
  | gemm (slot : Nat)
  | accreduce (slot : Nat)
  | convert (slot : Nat)
  -- Facet
  | facet (slot fuel : Nat)
  | facetNop (st : Nat) (f : FIns)
  | halt (st : Nat) (f : FIns)
  | br (st : Nat) (f : FIns)
  | bez (st : Nat) (f : FIns)
  | bnz (st : Nat) (f : FIns)
  | loop (st : Nat) (f : FIns)
  | sadd (st : Nat) (f : FIns)
  | ssub (st : Nat) (f : FIns)
  | smul (st : Nat) (f : FIns)
  | sand (st : Nat) (f : FIns)
  | sor (st : Nat) (f : FIns)
  | sxor (st : Nat) (f : FIns)
  | sshl (st : Nat) (f : FIns)
  | sshr (st : Nat) (f : FIns)
  | ssra (st : Nat) (f : FIns)
  | sslt (st : Nat) (f : FIns)
  | ssltu (st : Nat) (f : FIns)
  | smin (st : Nat) (f : FIns)
  | smax (st : Nat) (f : FIns)
  | movi (st : Nat) (f : FIns)
  | vadd (st : Nat) (f : FIns)
  | vsub (st : Nat) (f : FIns)
  | vmul (st : Nat) (f : FIns)
  | vfma (st : Nat) (f : FIns)
  | vmin (st : Nat) (f : FIns)
  | vmax (st : Nat) (f : FIns)
  | vabs (st : Nat) (f : FIns)
  | vneg (st : Nat) (f : FIns)
  | vdiv (st : Nat) (f : FIns)
  | vsqrt (st : Nat) (f : FIns)
  | vcvtfi (st : Nat) (f : FIns)
  | vcvtif (st : Nat) (f : FIns)
  | vmov (st : Nat) (f : FIns)
  | vsel (st : Nat) (f : FIns)
  | viadd (st : Nat) (f : FIns)
  | visub (st : Nat) (f : FIns)
  | vimul (st : Nat) (f : FIns)
  | vand (st : Nat) (f : FIns)
  | vor (st : Nat) (f : FIns)
  | vxor (st : Nat) (f : FIns)
  | vshl (st : Nat) (f : FIns)
  | vshr (st : Nat) (f : FIns)
  | vsra (st : Nat) (f : FIns)
  | vimin (st : Nat) (f : FIns)
  | vimax (st : Nat) (f : FIns)
  | vceq (st : Nat) (f : FIns)
  | vclt (st : Nat) (f : FIns)
  | vcle (st : Nat) (f : FIns)
  | vcun (st : Nat) (f : FIns)
  | viceq (st : Nat) (f : FIns)
  | viclt (st : Nat) (f : FIns)
  | pand (st : Nat) (f : FIns)
  | por (st : Nat) (f : FIns)
  | pxor (st : Nat) (f : FIns)
  | pnot (st : Nat) (f : FIns)
  | planes (st : Nat) (f : FIns)
  | exp (st : Nat) (f : FIns)
  | exp2 (st : Nat) (f : FIns)
  | log (st : Nat) (f : FIns)
  | log2 (st : Nat) (f : FIns)
  | recip (st : Nat) (f : FIns)
  | rsqrt (st : Nat) (f : FIns)
  | sigmoid (st : Nat) (f : FIns)
  | tanh (st : Nat) (f : FIns)
  | erf (st : Nat) (f : FIns)
  | geluTanh (st : Nat) (f : FIns)
  | geluErf (st : Nat) (f : FIns)
  | silu (st : Nat) (f : FIns)
  | vrsum (st : Nat) (f : FIns)
  | vrmax (st : Nat) (f : FIns)
  | vrmin (st : Nat) (f : FIns)
  | vriadd (st : Nat) (f : FIns)
  | vbcast (st : Nat) (f : FIns)
  | vext (st : Nat) (f : FIns)
  | vslide (st : Nat) (f : FIns)
  | vidx (st : Nat) (f : FIns)
  | vperm (st : Nat) (f : FIns)
  | vld (st : Nat) (f : FIns)
  | vst (st : Nat) (f : FIns)
  | vldt (st : Nat) (f : FIns)
  | vstt (st : Nat) (f : FIns)
  | twait (st : Nat) (f : FIns)
  | trel (st : Nat) (f : FIns)
  | topen (st : Nat) (f : FIns)
  | temit (st : Nat) (f : FIns)
  -- Image
  | conv (slot : Nat)
  | pool (slot : Nat)
  | argmax (slot : Nat)
  | fused (slot : Nat)
  -- Attention and the ledger
  | attn (slot : Nat)
  | attnBwd (slot : Nat)
  | kvop (slot : Nat)
  | seqOpen (part : Nat) (r : OpRec) (res : Nat)
  | seqClose (part : Nat) (r : OpRec) (res : Nat)
  | share (part : Nat) (r : OpRec) (res : Nat)
  | drop (part : Nat) (r : OpRec) (res : Nat)
  | cow (part : Nat) (r : OpRec) (res : Nat)
  | pin (part : Nat) (r : OpRec) (res : Nat)
  | unpin (part : Nat) (r : OpRec) (res : Nat)
  | resolve (part : Nat) (r : OpRec) (res : Nat)
  | tick (part : Nat) (r : OpRec) (res : Nat)
  | noevict (part : Nat) (r : OpRec) (res : Nat)
  | kvopQuery (part : Nat) (r : OpRec) (res : Nat)
  | alloc (part : Nat) (r : OpRec) (res : Nat)
  | decref (part : Nat) (r : OpRec) (res : Nat)
  | flush (seq layer : Nat)
  | ledgerClassValid (who : Who) (n val : Nat)
  -- Serving
  | sample (slot : Nat)
  | sctl (slot : Nat)
  | groupCancel (part : Nat) (r : OpRec) (res : Nat)
  | groupClear (part : Nat) (r : OpRec) (res : Nat)
  | seqReset (part : Nat) (r : OpRec) (res : Nat)
  | seqLoop (part : Nat) (r : OpRec) (res : Nat)
  | seqQuery (part : Nat) (r : OpRec) (res : Nat)
  -- Memory
  | memoryRead (req : MemReq) (obs : MemObs)
  | memoryWrite (req : MemReq) (data : List Byte) (obs : MemObs)
  | lodeScrub (unit : Nat) (obs : MemObs)
  | lodeCal (lode : Nat)
  | memRegionWrite (who : Who) (n : Nat) (limit : Bool) (val : Nat)
  | cmClearDone
  | memPartKey (who : Who) (p val : Nat)
  | retire (who : Who) (k : Nat)
  -- Video
  | vchan (slot : Nat)
  | vchanOpen (vd part : Nat) (r : OpRec) (res : Nat)
  | vchanClose (vd part : Nat) (r : OpRec) (res : Nat)
  | keypic (vd part : Nat) (r : OpRec) (res : Nat)
  | vchanQuery (vd part : Nat) (r : OpRec) (res : Nat)
  | vdec (slot : Nat)
  | venc (slot : Nat)
  | packetTake (vd chan : Nat)
  | pictureComplete (vd chan : Nat)
  | fwTimeout (vd chan : Nat)
  -- Host link
  | frameReceive (port : Nat) (f : EthFrame)
  | classify (port shuttle : Nat)
  | reassemblyTimeout (id : Nat)
  | rread (slot : Nat)
  | rwrite (slot : Nat)
  | rdmaResponse (qpn : Nat) (r : RdmaResp)
  | rdmaRetryTimeout (qpn : Nat)
  | congestionNotification (qpn : Nat)
  | rateIncrease (qpn : Nat)
  | result (slot : Nat)
  | resultRingWrite (session : Nat)
  | openSession (port : Nat) (h : CtlHdr) (b : OpenBody)
  | closeSession (port : Nat) (h : CtlHdr)
  | submit (port : Nat) (h : CtlHdr) (b : SubmitBody)
  | ack (port : Nat) (h : CtlHdr)
  | cancel (port : Nat) (h : CtlHdr) (req : Nat)
  | pause (port : Nat) (h : CtlHdr) (req ttl : Nat)
  | resume (port : Nat) (h : CtlHdr) (req : Nat)
  | ttlExpiry (req : Nat)
  | inventory (port : Nat) (h : CtlHdr)
  | attestCert (port : Nat) (h : CtlHdr) (nonce : List Byte)
  | sessionState (port : Nat) (h : CtlHdr)
  | dumpRead (port : Nat) (h : CtlHdr) (offset : Nat)
  | fwData (port : Nat) (h : CtlHdr) (b : FwBody)
  | fwVerify (port : Nat) (h : CtlHdr) (b : FwBody)
  | fwActivate (port : Nat) (h : CtlHdr) (b : FwBody)
  | fwCancel (port : Nat) (h : CtlHdr) (b : FwBody)
  | fwDiscard (port : Nat) (h : CtlHdr) (b : FwBody)
  | fwStatus (port : Nat) (h : CtlHdr) (b : FwBody)
  | eraseDone (ok : Bool)
  | pairLease (port : Nat) (h : CtlHdr) (b : PairLeaseBody)
  -- Line Port and time
  | strobe (tag : Nat) (tagValid : Bool) (edge : Nat)
  | tagAnnouncement (tag : Nat)
  | verdictWrite (part tag val : Nat)
  | trigEdge (input : Nat) (rising : Bool) (ts : Nat)
  | trigAccept (input : Nat)
  | lineTrigPop (who : Who)
  | timeSetBoundary
  | offsetResult (o : Int)
  | tbAdj (who : Who) (val : Nat)
  | tbRate (who : Who) (val : Nat)
  | tbHoldover
  -- Warp
  | linkEnable (who : Who) (j val : Nat)
  | retrain (who : Who) (j : Nat)
  | recal (who : Who) (j : Nat)
  | fecLock (j farSerial : Nat)
  | fecLockTimeout (j : Nat)
  | calibDone (j : Nat) (ok : Bool)
  | ident (j : Nat) (r : IdentMsg)
  | failedRetry (j : Nat)
  | linkLoss (j : Nat)
  | opticsSample (j rx0 rx1 : Nat)
  | data (j : Nat) (f : WarpFrame)
  | credit (j : Nat) (f : WarpFrame)
  | cmd (j : Nat) (f : WarpFrame)
  | cpl (j : Nat) (f : WarpFrame)
  | arrive (j : Nat) (f : WarpFrame) (barrier ts : Nat) (coarse pace : Bool)
  | release (j : Nat) (f : WarpFrame) (barrier : Nat) (fail : Bool)
  | warpAck (j counter : Nat)
  | warpNak (j counter : Nat)
  | keyUpdate (j : Nat) (f : WarpFrame)
  | partEpoch (j : Nat) (f : WarpFrame) (part epoch : Nat)
  | wsend (slot : Nat)
  | wrecv (slot : Nat)
  | barrier (slot : Nat)
  | barrierTimeout (id : Nat)
  | wsubmit (slot : Nat)
  -- Pair
  | lease (j : Nat) (f : WarpFrame) (r : LeaseRec)
  | journal (j : Nat) (f : WarpFrame) (num : Nat) (ws : List Machine.JournalWrite)
  | journalConfirm (j : Nat) (f : WarpFrame) (num : Nat)
  | decision (j : Nat) (f : WarpFrame) (num lagUs : Nat) (outs : List Outcome2)
  | decisionConfirm (j : Nat) (f : WarpFrame) (num : Nat)
  | pktFetch (j : Nat) (f : WarpFrame) (vd chan : Nat) (seqs : List Nat)
  | pktData (j : Nat) (f : WarpFrame) (vd chan seq : Nat) (pkt : Option Machine.Pkt)
  | joinData (j : Nat) (f : WarpFrame) (item : Machine.JoinItem)
  | joinCtl (j : Nat) (f : WarpFrame) (phase digest major : Nat)
  | swap (j : Nat) (f : WarpFrame) (epoch : Nat)
  | lineRead (j : Nat) (f : WarpFrame) (es : List LineReadEntry)
  | leaseRenewal
  | leaseExpiry
  | leaseLapse
  | releaseTakeover
  | leaseWaitTimeout
  | pairHeartbeat (who : Who)
  | swapReq (who : Who)
  | swapAt
  -- Power
  | capSet (watts : Nat)
  | capLeaseExpired
  | capLoop (pmDw : Nat)
  | phaseWindow (busy : List Nat)
  | pmStationPhase (who : Who) (k val : Nat)
  | opStepDone
  | warnAssert (coolant : Bool)
  | warnClear (coolant : Bool)
  | warnHoldExpiry (coolant : Bool)
  | droop (cycles : Nat)
  | droopClear
  | thermalSample (junction coolantC : Nat)
  | thermalTrip
  | alert
  | alertClear
  -- Sleep
  | dozeRequest (who : Who)
  | watchRequest (who : Who)
  | dormantRequest (who : Who)
  | tickW0
  | entryWindowEnd
  | wakePin (pins : Nat)
  | mctpWake
  | alarm
  | watchSample (trig coolantC : Nat)
  | wake (keyCheckOk : Bool)
  | dozeExit
  | selvageRelease (who : Who) (bits : Nat)
  -- Security
  | partitionCreate (who : Who) (p val : Nat)
  | teardown (who : Who) (p : Nat)
  | drainDone (p : Nat)
  | stragglerTimeout (p : Nat)
  | cleanDone (p : Nat)
  | gnMeasExtend (who : Who) (val : Nat)
  | gnAttestReq (who : Who) (addr : Nat)
  | certIssued
  | selftest (who : Who)
  | selftestDone (failTest : Option Nat)
  | zeroise (who : Who) (val : Nat)
  | tamper (source : Nat)
  | healthTestFail (test : Nat)
  -- Faults
  | faultReport (source cls bits : Nat)
  | safeReq (who : Who)
  | collectorFault
  | unitResetDone (st : Nat)
  | testSchedule
  | fcTestReq (who : Who) (unit : Nat)
  | testStart
  | testDone (pass : Bool)
  | fcInject (who : Who) (val : Nat)
  | fcStatus (who : Who) (k val : Nat)
  -- Debug
  | clear (who : Who) (st : Nat)
  | sampleTick
  | dbgTrcMark (who : Who) (st val : Nat)
  | dbgWdKick (who : Who) (w : Nat)
  | wdWarn (w : Nat)
  | watchdogExpiry (w : Nat)
  | dumpReq (who : Who)
  | dump
  | stopTick
  | dumpDone (bytes : Nat)
  -- Start and update
  | warmReq (r : StartReq)
  | coldReq (r : StartReq)
  | confirm (who : Who)
  | reset (cold : Bool)
  | activation
  | trialTimeout
  | startComplete
  | powerOnReset
  | vin54Loss
  -- Registers and later rows
  | registerWrite (who : Who) (addr val : Nat)
  | rcRead (who : Who) (addr : Nat)
  | lightOnBothLanes (j : Nat) (on : Bool)
  | portLinkUp (n : Nat) (up : Bool)
  | gateControlListLoad (n : Nat)
  | pendingEntryDiscard
  | clockGating (st : Nat)
  | classInitDone (n : Nat)
  | imageComplete (req : Nat)
  | traceDrain (st n : Nat)
  | waitForInterrupt
  deriving DecidableEq, Repr

end Sys2Proof
end

