-- ==== Sys2Proof/Decode.lean ====
section
/-! DEFINITION. The decoder over the table's words. -/

namespace Sys2Proof

/-- The command that the word `w` of `nbits` bits spells. The table of operations and events gives none of its rows
bits, so no word spells a command. -/
def decodeTableWord (_nbits _w : Nat) : Option Instr := none

end Sys2Proof
end

