-- ==== Sys2Proof/Config.lean ====
section
/-! DEFINITION. What the manual leaves open: free values and free functions without a body, which no proof can see
into, and the constants that an implementation fixes. -/

namespace Sys2Proof.Config

/-- The `n`-th free value of the model: the manual gives no value. -/
opaque free : Nat → Nat

/-- A byte of LPDDR5X not written since the cold start, read under key slot and epoch (R434): unspecified data. -/
opaque unwritten : (addr slot epoch : Nat) → Byte

/-- The device root key that Garnet reconstructs from the PUF of the module of a serial number and helper data (R797, Table 15-1). -/
opaque rootKey : (serial : Nat) → (helper : List Byte) → List Byte

/-- KMAC256 (SP 800-185, named and not given): key, customisation string, input, and the bits of its output. -/
opaque kmac256 : (key : List Byte) → (custom : String) → (input : List Byte) → (bits : Nat) → List Byte

/-- AES-256 key wrap (SP 800-38F, named and not given): what the wrapping key unwraps, none where its integrity check fails. -/
opaque keyUnwrap : (key wrapped : List Byte) → Option (List Byte)

/-- AES-256-XTS (named and not given) of a data unit of 64 bytes under two keys and a tweak: encryption, or decryption (R429). -/
opaque xtsEnc : (keys : List Byte) → (tweak : Nat) → (line : List Byte) → List Byte
opaque xtsDec : (keys : List Byte) → (tweak : Nat) → (line : List Byte) → List Byte

/-- A byte read of a codeword with more symbols in error than its code is sure to detect (R438, R454 give no class for it). -/
opaque misread : (addr : Nat) → (stored : Byte) → (call : Nat) → Byte

/-- A byte of a TSTORE's destination, read before the record of the TSTORE is written (R59, R60). -/
opaque early : (addr : Nat) → (stored : Byte) → (call : Nat) → Byte

/-- What the tile store of an engine shows at an offset through its window, where the model holds `known` there (R60, R122,
R123). -/
opaque storeByte : (station offset : Nat) → (known : Option Byte) → (call : Nat) → Byte

/-- The lane that VEXT extracts at an index beyond 255 (R205 gives none). -/
opaque vext : (index : W32) → (lanes : List W32) → W32

/-- SHA3-256 of a byte string, 32 bytes (FIPS 202, which the manual names and does not give). -/
opaque sha3 : List Byte → List Byte

/-- The free frame that an allocation takes among `n` free frames of a pool (the manual gives no order). -/
opaque pickFrame : (call n : Nat) → Nat

/-- The rate that the proportional-integral servo makes of the rate in force, an offset result and the sum of the
results so far (R620 gives its gains and its clamp, not its units). -/
opaque servo : (rate : Nat) → (o sum : Int) → (kp ki : Nat) → Nat

/-- How many pictures the output process of the standard has released after a decoding history, latest picture first (R495, R501; HEVC
and H.264 are named and not given), and the place in decoding order of the `n`-th of them. `codec` is word 0 of the channel record. -/
opaque released : (codec : Nat) → (history : List Machine.PicBits) → Nat
opaque place : (codec : Nat) → (history : List Machine.PicBits) → (n : Nat) → Nat

/-- A property of the latest picture of a decoding history. -/
opaque picture : (codec : Nat) → (history : List Machine.PicBits) → (field : Machine.PicField) → Nat

/-- What decoding makes of a slice of the latest picture, a NAL unit that is whole or not (R503), and whether it is a dependent slice
segment, which continues the slice before it (R504). -/
opaque decodeSlice : (codec : Nat) → (history : List Machine.PicBits) → (slice : List Byte) → (whole : Bool) → Machine.SliceScan
opaque dependent : (codec : Nat) → (history : List Machine.PicBits) → (slice : List Byte) → Bool

/-- The raster place of the `n`-th CTU of the latest picture in decoding order, which HEVC tiles part from raster order (R472). -/
opaque ctuPlace : (codec : Nat) → (history : List Machine.PicBits) → (n : Nat) → Nat

/-- An HEVC packet carries DONL or DOND fields (R478 does not say how the decoder tells). -/
opaque carriesDon : (payload : List Byte) → Bool

/-- A decode channel opened from a record is for a Main 10 stream, which the record does not say (R481). -/
opaque opensDeep : (recWords : List Nat) → Bool

/-- What a channel's reference buffer holds, of the pictures decoded or of the references of an encoder: uncompressed, or compressed for a
privileged channel (R510, R511 give no layout). -/
opaque decodedRefs : (priv : Bool) → (codec : Nat) → (history : List Machine.PicBits) → List Byte
opaque encodedRefs : (priv : Bool) → (refs : List (List Byte)) → List Byte

/-- A decoded sample of a CTU of the latest picture that decodes: plane 0 luma, 1 Cb, 2 Cr (R495). -/
opaque sample : (codec : Nat) → (history : List Machine.PicBits) → (plane row col : Nat) → Nat

/-- The motion vector of a CTU that decodes, in whole samples of luma or chroma, rows and columns: zero for an intra one (R505 gives no
rule for a vector between samples). -/
opaque ctuVector : (codec : Nat) → (history : List Machine.PicBits) → (ctu : Nat) → (chroma : Bool) → Int × Int

/-- A CTU is intra-coded; and the CTU rows of reference pictures whose samples an inter-predicted one reads: decoded pictures between, and
the row (R506). -/
opaque ctuIntra : (codec : Nat) → (history : List Machine.PicBits) → (ctu : Nat) → Bool
opaque ctuReads : (codec : Nat) → (history : List Machine.PicBits) → (ctu : Nat) → List (Nat × Nat)

/-- A picture is an IRAP picture that can be decoded, and no parameter set of it is absent. -/
opaque startsIrap : (codec : Nat) → (bits : Machine.PicBits) → Bool

/-- Errors in parameter sets leave a picture of a history, and those after it, without a picture that can be decoded (R509). -/
opaque noPicture : (codec : Nat) → (history : List Machine.PicBits) → Bool

/-- The luma of an encoder's picture, in the order of R498, reduced by a factor in each direction (R520 names no filter). -/
opaque reduceLuma : (factor w h : Nat) → (samples : List Byte) → List Byte

/-- The SATD plus lambda times the bit cost of a vector in quarter samples, rows and columns, for the 16 by 16 block at a row and a column
(R520 names the measure, and neither lambda nor the interpolation). -/
opaque subpelCost : (size : Nat × Nat) → (samples reference : List Byte) → (at_ : Nat × Nat) → (v : Int × Int) → (qp : Nat) → Nat

/-- A parameter set that the encoder writes, 0 VPS, 1 SPS, 2 PPS, and one slice of a picture, as NAL units without their two header bytes
(R474, R475): the slice from the reference pictures with the vectors found in each, the picture's samples, whether it is an IDR, its
QP, the slice's number, and whether the header firmware missed it (R489 does not say how an encoder conceals). -/
opaque paramSet : (kind : Nat) → (sets : Machine.EncSets) → List Byte
opaque sliceData : (sets : Machine.EncSets) → (refs : List (List Byte × List (Int × Int))) → (samples : List Byte) → (idr : Bool) →
  (qp slice : Nat) → (missed : Bool) → List Byte

/-- An encoded picture as a decoder reconstructs it, in the order of R498; `missed` are the slices that the firmware missed. -/
opaque reconstruct : (sets : Machine.EncSets) → (refs : List (List Byte × List (Int × Int))) → (samples : List Byte) → (idr : Bool) →
  (qp : Nat) → (missed : List Nat) → List Byte

/-- A byte of a section of a hang dump whose records the manual does not lay out (Table 17-6). -/
opaque dumpByte : (section_ offset call : Nat) → Byte

/-- The digest of a settings record that a join compares, over every field but PREFER and the management address (R686
names no function). -/
opaque settingsDigest : (fields : List (Nat × Nat)) → Nat

/-- The token at a position of a request that no SAMPLE emitted: one of its prompt, which the runtime tokenises (R361, R403). -/
opaque promptToken : (req pos : Nat) → Nat

/-- The token of a row whose procedure names none (R373): from its z values and its entry's fields alone (R375). -/
opaque unnamedToken : (zs fields : List Nat) → Nat

/-- The bytes of the cold-tier image of a paused request (R403 lists its content, not its format). -/
opaque imageBytes : (req call : Nat) → Nat

/-- An image in the cold tier's format, before encryption (R403, R457), and whether a RESUME can read an image (R460). -/
opaque imageForm : Machine.Image → List Byte
opaque imageReads : (req call : Nat) → Bool

/-- The path MTU of a client's queue pair, as a power of two above 1,024, and its retry timeout in ticks (R557 sets both per queue pair and
does not say by what). -/
opaque qpMtu : (call : Nat) → Nat
opaque qpTimeout : (call : Nat) → Nat

/-- The VLAN of the frames that a port sends, if they have one (the manual does not say). -/
opaque txVlan : (port : Nat) → Option Nat

/-- The error of a gPTP timestamp in ns, beyond its bound of 8 ns either way (R540). -/
opaque stampError : (call : Nat) → Int

/-- The strap pins as a start reads them: SLOT_ID in bits 5:0, ROLE_STRAP in bit 6 (R12, R917). -/
opaque straps : (call : Nat) → Nat

/-- An X.509 certificate of the module as Garnet signs it (R801, R802): its bytes from the attestation seed and the fields of
Table 15-2. -/
opaque certificate : (seed : List Byte) → (fields : List Nat) → (nonce : List Byte) → List Byte

/-- The last gPTP currentUtcOffset in seconds, as the module holds it at a second of its timebase (R802). -/
opaque utcOffset : (second : Nat) → Nat

/-- Version and SHA3-256 digest of the boot ROM (Table 15-3). -/
opaque bootRom : Nat × Nat

/-- What the module's enrolment left in the configuration store: PUF helper data, and the fabric-group key wrapped for it (R13, R796
name them and give no bytes). -/
opaque helperData : List Byte
opaque fgkWrapped : List Byte

/-- How many attempts in a row to read an area of the configuration store fail after power came on (R894). -/
opaque storeFails : (area call : Nat) → Nat

/-- The checks 4 to 6 of an image container (R896) under the firmware image key: the ML-DSA-44 signature, the GCM tag and the digest of the plaintext. -/
opaque imageSealOk : (key container : List Byte) → Bool

/-- The layout version at which an image of a version uses a settings field (R910 names it and gives none). -/
opaque fieldVer : (imageVersion id : Nat) → Nat

/-- The predicate bit that an immediate gives in PAND, POR or PXOR with I = 1 (the manual broadcasts 32 bits to lanes of
one bit). -/
opaque predImm : W32 → Bool

/-- The epoch, nonce and generation values Garnet draws at random (R434, R799). -/
opaque random : Nat → Nat

end Sys2Proof.Config
end

