-- ==== Sys2Proof/Machine/State.lean ====
section
/-! DEFINITION. The state of the module as plain data, the reasons a step can stop, and the state after reset. -/

namespace Sys2Proof.Machine

open Sys2Proof

/-- The reasons a step can fault. -/
inductive Fault where
  /-- Raised by a MEMORY_READ or MEMORY_WRITE of firmware whose address is of no memory of Table 7-1, in either view, and of no
  tile-store window (R122, R420, R421, R453): the manual gives such an access no target and no effect. Safe: the model stops. A
  partition's access to one lies in no region and is dropped (R426, log 17). -/
  | noSuchAddress (addr : Nat)
  deriving DecidableEq, Repr

/-- The reasons a step can be refused. -/
inductive Refusal where
  /-- Answered by the arm of exec of a command that has no meaning yet. Safe: the model stops. -/
  | notModelled (mnemonic : String)
  deriving DecidableEq, Repr

/-! ### Event arbiter and trace -/

/-- An event as its source raised it (R623, Table 10-4); `slot` names the command a COMPLETION belongs to. -/
structure Event where
  source  : Nat
  type    : Nat
  part    : Nat
  module_ : Bool
  coarse  : Bool
  ts      : Nat
  payload : Nat
  slot    : Option Nat
  deriving DecidableEq, Repr

/-- A trace record (Table 17-3), as the four words a station writes. -/
structure TraceRec where
  part : Nat
  w0   : Nat
  w1   : Nat
  w2   : Nat
  w3   : Nat
  deriving DecidableEq, Repr

/-! ### The Loom -/

/-- Where a tracked command stands on its station. -/
inductive Phase where
  /-- Accepted and checked, not yet given a unit (R91, R92). -/
  | waiting
  /-- Staged behind the running command of its unit (R93). -/
  | staged
  /-- The running command of its unit. -/
  | running
  /-- Ended early and still taking the tiles of its inputs (R939). -/
  | draining
  /-- Off its unit. -/
  | ended
  deriving DecidableEq, Repr

/-- Where the completion of a tracked command stands. -/
inductive Compl where
  /-- Its COMPLETION is not raised. -/
  | none
  /-- Its COMPLETION is raised and not granted: it has completed, in the words of R105. -/
  | raised
  /-- Granted; its record is not yet written (R111). -/
  | granted
  /-- Its record is written or not wanted, and its slot lasts as long as its descriptor is kept (R102, R108). -/
  | kept
  deriving DecidableEq, Repr

/-- One input binding of a command: the next tile index expected, the tiles in its receive window, the tiles it has
taken and how many slots of these it has released (R43 to R48); `discard` once it only drains (R939). -/
structure InBind where
  stream   : Nat
  next     : Nat
  window   : List Tile
  taken    : List Tile
  released : Nat
  lastIn   : Bool
  discard  : Bool
  deriving DecidableEq, Repr

/-- One output binding: consumers declared, tiles formed so far and those of them awaiting credits (R49, R57); `sent` the tiles
emitted, each counted once however often a replay emits it again (Table 1-7); `ceased` once the life of its stream has ended (R55). -/
structure OutBind where
  stream  : Nat
  ncons   : Nat
  formed  : Nat
  queue   : List Tile
  sent    : Nat
  ceased  : Bool
  deriving DecidableEq, Repr

/-- A tile in flight on the Seam with the partition tag of its flits (R41). -/
structure Flit where
  tag  : Nat
  tile : Tile
  deriving DecidableEq, Repr

/-- The channel from a producing command's output to one input of a consuming command: credits the producer
holds, credits on the credit network, tiles in flight (R43 to R47, R938). -/
structure Chan where
  prod    : Nat
  out     : Nat
  cons    : Nat
  inp     : Nat
  credits : Nat
  net     : Nat
  flight  : List Flit
  deriving DecidableEq, Repr

/-- A row and head of attention computed: m and l, the output row's bytes, its flags and saturated elements, and whether the row
stands at a tentative position (R310, R315, R316). -/
structure AttnRow where
  m     : Nat
  l     : Nat
  bytes : List Byte
  flags : Nat
  sat   : Nat
  tent  : Bool
  deriving DecidableEq, Repr

/-- The sequence that an ATTN reads: its first tentative position; the held positions still to enter the array, each with the handle
of its page or 0 for the Bobbin; the pages pinned; the Bobbin's entries as they were when it began; the entries that entered; and
the pages read, index and handle (R303, R317, R333). -/
structure SeqView where
  fixed  : Nat
  todo   : List (Nat × Nat)
  pinned : List Nat
  bob    : List (Nat × List Byte)
  held   : List (Nat × List Byte)
  seen   : List (Nat × Nat)
  deriving DecidableEq, Repr

/-- An ATTN beside its counters: the class and layers of its sequences, the sequence it reads, and the rows computed, in the order
of R307. -/
structure AttnRun where
  cls    : Nat
  layers : Nat
  seq    : Option SeqView
  rows   : List AttnRow
  deriving DecidableEq, Repr

/-- The counters an opcode keeps while it runs: position in a list or tile count, failures, bytes written,
flags and saturated elements gathered so far (R174, R237, R326), and two more words of its own. -/
structure Work where
  pos    : Nat
  fails  : Nat
  bytes  : Nat
  flags  : Nat
  sat    : Nat
  aux    : Nat
  aux2   : Nat
  opened : Bool
  /-- A read of it was dropped at its target and is never answered (R41, R426). -/
  lost   : Bool
  attn   : Option AttnRun
  deriving DecidableEq, Repr

/-- A live stream whose producer's slot is free already, as its consumers have completed and not all of them are granted
(R55, R102): the producer's slot and output, its partition, stream and NCONS, and that it ended with ABORTED or CMD_ERROR. -/
structure Linger where
  prod   : Nat
  out    : Nat
  part   : Nat
  stream : Nat
  ncons  : Nat
  failed : Bool
  deriving DecidableEq, Repr

/-- A completion record's parts beside the descriptor's: status, detail, EA_SEQ, timestamp and PSTATION (Table 1-7). -/
structure CplRec where
  status : Nat
  detail : Nat
  seq    : Nat
  ts     : Nat
  pst    : Nat
  deriving DecidableEq, Repr

/-- A VENC's run: its channel as it was when the command began, and as a re-run has it to itself; for each picture begun whether it is an
IDR (2 no, 3 yes); the pictures whose clash is counted; the slices that the header firmware missed, by picture and slice. A replay
goes by them, so that its output is bit-identical (R105). -/
structure VencRun where
  start   : VChan
  cur     : VChan
  decided : List Nat
  counted : Nat
  missed  : List (Nat × Nat)
  deriving DecidableEq, Repr

/-- A command that holds a tracker slot (R84). `place` is the physical station and unit (0 engine, 1 mover) it was
given; `status` what its station reached; `moved` when it last moved a tile, later by the time that does not count toward its stall
(R95); `upstream` that a producer's failing
COMPLETION was granted (R101); `replayed` that it began a replay before completing (R105); `rerun` that it runs
again after completing (R108). -/
structure Tracked where
  slot      : Nat
  queue     : Nat
  desc      : Desc
  opb       : List Byte
  phase     : Phase
  compl     : Compl
  place     : Option (Nat × Nat)
  started   : Bool
  ins       : List InBind
  outs      : List OutBind
  work      : Work
  /-- What the engine loaded from memory at dispatch: vectors, matrices, weights (R164, R282). -/
  loaded    : List (List Byte)
  status    : Option (Nat × Nat)
  abortReq  : Bool
  upstream  : Bool
  replayed  : Bool
  rerun     : Bool
  /-- Inputs in the order their waiting tiles arrived (R72). -/
  arrivals  : List Nat
  moved     : Nat
  stallSent : Bool
  tilesOut  : Nat
  record    : Option CplRec
  venc      : Option VencRun
  deriving DecidableEq, Repr

/-- A submission queue's state beside its registers: the CMD_SEQ reference (R88), round-robin use (R83) and the
PHASE bit of its completion ring (Table 1-7). -/
structure QState where
  ref   : Option Nat
  used  : Nat
  phase : Bool
  deriving DecidableEq, Repr

/-- A host task handed over and not done (R73, R74). -/
structure HTask where
  cluster : Nat
  task    : Nat
  part    : Nat
  slot    : Nat
  deriving DecidableEq, Repr

/-! ### Facet -/

/-- A loop in progress: first index of the body, END, passes left (R206). -/
structure LoopFrame where
  first : Nat
  last  : Nat
  left  : Nat
  deriving DecidableEq, Repr

/-- A bound handle: an input tile of a binding, or an output tile being written (R222, R226). -/
inductive Handle where
  | inTile (inp : Nat) (t : Tile)
  | outTile (out : Nat) (t : Tile)
  deriving DecidableEq, Repr

/-- The vector unit of a CE or DE while it runs a kernel (R188, R192, R206, R236): registers not listed hold
their start value, zero lanes, all-ones predicates, zero scalars. -/
structure FacetUnit where
  slot    : Nat
  v       : Tab (List W32)
  p       : Tab (List Bool)
  s       : Tab W32
  pc      : Nat
  loops   : List LoopFrame
  handles : Tab Handle
  kernel  : List W64
  param   : List Byte
  scratch : Tab Byte
  limit   : Nat
  retired : Nat
  lastBound : List Nat
  ended   : Bool
  /-- The bank and the parameter area that hold the kernel and its parameters (R196, R199). -/
  bank    : Nat
  deriving DecidableEq, Repr

/-! ### Ledger, sampler, serving -/

/-- A CANCEL, PAUSE or RESUME (kinds 1, 2, 3) whose CLIENT_OP event is not yet granted (R588), with the frame to
answer. -/
structure ClientOp where
  req     : Nat
  kind    : Nat
  ttl     : Nat
  port    : Nat
  session : Nat
  seq     : Nat
  deriving DecidableEq, Repr

/-- A PAUSE or RESUME in the cold tier's work (R456); `ready` once it has taken effect and may be served. -/
structure ColdJob where
  req    : Nat
  resume : Bool
  ready  : Bool
  deriving DecidableEq, Repr

/-! ### Host link -/

/-- A frame stored in a Shuttle: its length words and body (R544, Table 9-2). -/
structure ShFrame where
  frame   : EthFrame
  arrival : Nat
  deriving DecidableEq, Repr

/-- A datagram in reassembly on the management port (R568). -/
structure Reasm where
  total : Nat
  got   : List Nat
  frame : CtlFrame
  at_   : Nat
  deriving DecidableEq, Repr

/-! ### Warp and pair -/

/-- A Warp link's state beside its registers (R642, R644, R651, R654): light on both lanes and whether it was lost
since FAILED was entered; the tick the state was entered; the retry buffer as frames with their types; the failed
attempts for the frame last named by a NAK; the next counter of space 1; that a frame was dropped and not yet
redelivered; the far SERIAL read in SIGNAL, and the one whose calibration is retained; that the next training may skip
calibration; the last epoch by far SERIAL; that a KEY_UPDATE of ours is out; own launch powers; the
NONCE of each end. -/
structure Link where
  light      : Bool
  lightLost  : Bool
  enteredAt  : Nat
  retry      : List (Nat × WarpFrame)
  attempts   : Nat
  nakFor     : Nat
  ctr1       : Nat
  dropped    : Bool
  farSerial  : Nat
  calSerial  : Option Nat
  skip       : Bool
  epochs     : Tab Nat
  rekey      : Bool
  launch0    : Nat
  launch1    : Nat
  nonce      : Nat
  farNonce   : Nat
  deriving DecidableEq, Repr

/-- A WRECV's landing: slots held, credits granted and not used, the header and bytes of the tile being gathered, the
tiles landed and not yet emitted (R668). -/
structure Landing where
  slot   : Nat
  part   : Nat
  src    : Nat
  chan   : Nat
  slots  : Nat
  granted : Nat
  hdr    : Option Nat
  gather : List Byte
  tiles  : List Tile
  deriving DecidableEq, Repr

/-- Credits a sender holds for a channel of another module (R668, R670). -/
structure TxCredit where
  dest : Nat
  part : Nat
  chan : Nat
  n    : Nat
  deriving DecidableEq, Repr

/-- One arrival at a barrier (R673, R677). -/
structure Arrival where
  module_ : Nat
  ts      : Nat
  coarse  : Bool
  pace    : Bool
  deriving DecidableEq, Repr

/-- A barrier open at the manager (R674, R675). -/
structure Barrier where
  id      : Nat
  mask    : Nat
  first   : Nat
  arrived : List Arrival
  deriving DecidableEq, Repr

/-- A LINE_READ entry kept pending for its tag (R696). -/
structure PendingRead where
  tag : Nat
  q   : Nat
  at_ : Nat
  deriving DecidableEq, Repr

/-- What the module has sent or raised towards the outside, oldest first. -/
inductive Emit where
  | reply (port : Nat) (h : CtlHdr) (r : Response)
  /-- IP fragment `idx` of `total` of a datagram (R568). -/
  | part (idx total : Nat) (e : Emit)
  /-- A frame of a CB stream generated on transmit, with its sequence number, on one port (R536). -/
  | cb (port stream seq : Nat) (e : Emit)
  | rdmaWrite (qpn addr rkey psn : Nat) (bytes : List Byte)
  | rdmaRead (qpn addr rkey psn len : Nat)
  | warp (link type : Nat) (f : WarpFrame)
  | ident (link : Nat) (r : IdentRec)
  | confirm (link : Nat) (tag : List Byte)
  | pairLease (seq : Nat) (b : PairLeaseBody)
  | announce (port : Nat)
  | taskIrq (hart part : Nat)
  | wdIrq (w : Nat)
  | pair (type : Nat) (words : List Nat)
  | joinData (item : JoinItem)
  | pktData (vd chan seq : Nat) (pkt : Option Pkt)
  | journal (num : Nat) (ws : List JournalWrite)
  | decision (num : Nat) (outs : List Outcome2)
  deriving DecidableEq, Repr

/-- An output held until the standby has confirmed the records it rests on (R694). -/
structure HeldOut where
  journal  : Nat
  decision : Nat
  out      : Emit
  deriving DecidableEq, Repr

/-- The pair's state beside the PAIR registers (R689 to R719); times in reference ticks. -/
structure PairState where
  ownUntil     : Nat
  partnerUntil : Nat
  renewAt      : Nat
  heartbeat    : Bool
  lapsedHere   : Bool
  noLeaseSince : Nat
  partnerSerial : Option Nat
  lastMlease   : Option (Nat × Nat)
  mleaseSeq    : Nat
  releaseAt    : Option Nat
  higher       : Bool
  journalSent  : Nat
  journalDone  : Nat
  decisionSent : Nat
  decisionDone : Nat
  decisions    : List (Nat × List Outcome2)
  swapping     : Bool
  joinAsked    : Bool
  copied       : Bool
  dirty        : List Nat
  fetching     : List (Nat × Nat × Nat)
  copies       : List (Nat × Nat × Pkt)
  /-- DIRTY passes done in a join, and pictures of a DECISION that wait for packets: VD, channel, first, included. -/
  passes       : Nat
  waiting      : List (Nat × Nat × Nat × List Nat)
  /-- What is still to do in order; the steps submitted and not begun: queue and the index of the first descriptor; the requests of the
  last step (R693, R812). -/
  work         : List PairWork
  held         : List (Nat × Nat)
  stepReqs     : List Nat
  /-- In a join: the encode channels that have not coded an IDR picture here (R715). -/
  idrDue       : List Nat
  deriving DecidableEq, Repr

/-! ### Line Port -/

/-- A trigger input: an edge waiting out its filter, the last accepted timestamp (R610, R611). -/
structure TrigIn where
  level   : Bool
  pending : Option (Bool × Nat)
  last    : Option Nat
  deriving DecidableEq, Repr

/-- An accepted trigger edge in the FIFO (R612). -/
structure TrigEntry where
  input  : Nat
  rising : Bool
  ts     : Nat
  deriving DecidableEq, Repr

/-! ### Time, power, sleep -/

/-- The timebase (R616, R619 to R622). `rate` is RATE in 2^-32 ns per tick, `extra` what the slew adds to it in the time
set in force; `vSub` the part of V below 1 ns in units of 2^-32 ns at (n0, v0); `slew` the offset not yet slewed at
n0, in 2^-32 ns; `step` the step that the next boundary applies; `good` the run of small offset results; `lastAt` the
tick of the last result. -/
structure TimeBase where
  n        : Nat
  n0       : Nat
  v0       : Nat
  vSub     : Nat
  rate     : Nat
  extra    : Int
  slew     : Int
  step     : Nat
  newRate  : Option Nat
  integ    : Int
  good     : Nat
  lastAt   : Nat
  deriving DecidableEq, Repr

/-- The power manager's state beside the PM registers (R725 to R753); times in reference ticks. -/
structure Power where
  stepTo     : Option Nat
  stepUp     : Bool
  leaseUntil : Option Nat
  warnShelf  : Bool
  warnCool   : Bool
  holdShelf  : Option Nat
  holdCool   : Option Nat
  thermal    : Nat
  thermalAt  : Nat
  alertOn    : Bool
  alertClr   : Option Nat
  lastDown   : Nat
  lastUp     : Nat
  fitSince   : Option Nat
  droopOn    : Bool
  droopAt    : Nat
  stretched  : Nat
  windowAt   : Nat
  /-- The limit point of the cap loop (R740), and the regulator's alert time. -/
  capPoint   : Nat
  tripped    : Bool
  /-- The largest excess over the cap since it began (R742, Table 13-6). -/
  lagPeak    : Nat
  deriving DecidableEq, Repr

/-- The power states, with the stages of entry and exit (Table 14-1, R760 to R770). -/
inductive SleepState where
  | run
  | dozeWait
  | doze
  | dozeExit
  | entering (dormant : Bool)
  | window (dormant : Bool)
  | watch
  | dormant
  | waking (dormant : Bool)
  deriving DecidableEq, Repr

/-- The Thimble beside its registers (R764 to R784). -/
structure Thimble where
  state    : SleepState
  ticks    : Nat
  /-- Part of a Thimble tick passed, in units of 1 / 1,562,500 tick: a reference tick is 512 of them. -/
  sub      : Nat
  sampleAt : Nat
  w0       : Nat
  matches_ : Nat
  lastMatch : Nat
  pinLast  : Nat
  retOk    : Bool
  srOk     : Bool
  /-- The header of a dump whose region could not be written, in the retention SRAM (R876). -/
  dumpHead : List Byte
  deriving DecidableEq, Repr

/-! ### Security, faults, debug, start -/

/-- A teardown in progress (R809). -/
structure Teardown where
  part    : Nat
  started : Nat
  stage   : Nat
  deriving DecidableEq, Repr

/-- A queued certificate request (R804). -/
structure AttReq where
  part  : Nat
  nonce : List Byte
  port  : Nat
  session : Nat
  seq   : Nat
  /-- The buffer and its length, of a request that firmware made (GN_ATTEST_REQ). -/
  buf   : Option (Nat × Nat)
  deriving DecidableEq, Repr

/-- An in-service test (R835 to R838). -/
structure TestRun where
  station   : Nat
  requested : Bool
  started   : Bool
  at_       : Nat
  failed    : Bool
  deriving DecidableEq, Repr

/-- A UNIT reset in progress at a station, and whether a test follows (R822, R823, R446). -/
structure UnitReset where
  station : Nat
  test    : Bool
  deriving DecidableEq, Repr

/-- A firmware image in the configuration store with what its checks give (R895, R896). -/
structure StoreImage where
  hdr   : ImageHdr
  valid : Bool
  deriving DecidableEq, Repr

/-- The configuration store and the start engine (R883 to R912). `mark`: 0 none, 1 COPY_BEGIN, 2 FALLBACK_SAVED,
3 DONE in UPDATE_RECORD. -/
structure Store where
  startCount : Nat
  active     : Option StoreImage
  fallback   : Option StoreImage
  staging    : Tab (List Byte)
  slotA      : Option SettingsRec
  slotB      : Option SettingsRec
  settings   : Tab (List Byte)
  /-- The settings record in force (R909); every field at its default where there is none. -/
  inForce    : Option SettingsRec
  /-- PUF helper data, and the fabric-group key wrapped under the wrap key (R13, R796). -/
  helper     : List Byte
  fgkWrapped : List Byte
  /-- The areas of the store whose reads meet errors, by Table 18-3's order without the log areas, and how many attempts in a row fail
  (R894): 0 DESCRIPTOR, 1 IDENTITY, 2 PUF_HELPER, 3 SETTINGS_A, 4 SETTINGS_B, 5 ACTIVE, 6 FALLBACK, 7 STAGING. -/
  failing    : Tab Nat
  mark       : Nat
  coldAct    : Bool
  trial      : Bool
  trialAt    : Nat
  starting   : Option Bool
  startedAt  : Nat
  woke       : Bool
  powered    : Bool
  noImage    : Bool
  deriving DecidableEq, Repr

/-- The output pins of the module (Table 10-1, R750, R830, R834). -/
structure Pins where
  lineQ      : Nat
  lineAck    : Bool
  faultN     : Bool
  safeN      : Bool
  thermTripN : Bool
  lineClkOn  : Bool
  deriving DecidableEq, Repr

/-- A range of Commons being zeroed for a change of owner (R437). -/
structure Clearing where
  lo   : Nat
  hi   : Nat
  deriving DecidableEq, Repr

/-- The state of the module. -/
structure State where
  /-- Commands that wait, first in, first out. -/
  pending   : List Instr
  /-- The module's serial number and fabric-group code, fixed when it is made (R7). -/
  serial    : Nat
  fabric    : Nat
  /-- The registers of the device address map that have been written, by address; any other holds its reset value. -/
  regs      : Tab W64
  /-- LPDDR5X and Commons by interleaved or Commons address, in canonical form. -/
  mem       : List Host.Cell
  /-- The key slot and epoch under which each LPDDR5X line was last written (R429, R433). -/
  keyTag    : Tab (Nat × Nat)
  /-- Codewords that hold an uncorrectable error, lines of LPDDR5X and words of Commons, by first address (R444, R454). -/
  badLines  : List Nat
  /-- Rows with corrected errors on scrub, by lode and row, and their passes (R450). -/
  pprRows   : Tab Nat
  clearing  : List Clearing
  /-- Accesses that wait for the zeroing, in order of arrival: the request, its data where it writes, what the array shows (R437). -/
  memWaits  : List (MemReq × Option (List Byte) × MemObs)
  /-- The tick at which the scrub pass of a lode, or of Commons bank `u - 16`, began (R449). -/
  scrubAt   : Tab Nat
  /-- The data the last register or memory read returned. -/
  busData   : List Byte
  busErr    : Bool
  /-- Steps of the model's own counter of free values. -/
  free      : Nat
  tb        : TimeBase
  events    : List Event
  eaNext    : Nat
  eaLast    : Nat
  tracked   : List Tracked
  /-- Slots whose records are not yet written, in grant order (R110). -/
  recQ      : List Nat
  /-- Stations whose commands wait on a full trace buffer (R858). -/
  traceHold : List Nat
  nextSlot  : Nat
  chans     : List Chan
  lingering : List Linger
  /-- What a TSTORE stored whose record is not yet written: its slot, the address and the length of a row (R59, R60). -/
  settling  : List (Nat × Nat × Nat)
  queues    : Tab QState
  wrrAt     : Nat
  mapCe     : Tab Nat
  mapDe     : Tab Nat
  abort     : Option (Nat × Nat)
  tasks     : List HTask
  nextTask  : Tab Nat
  facets    : Tab FacetUnit
  /-- The bank that a station's next FACET takes (R196, R199). -/
  facetBank : Tab Nat
  bobbin    : List BobEntry
  /-- Flushes to be done: sequence, layer, page index (R344). -/
  flushes   : List (Nat × Nat × Nat)
  /-- Those of them that found their lode's pool empty and wait (R346). -/
  poolWaits : List (Nat × Nat × Nat)
  seqUsed   : List Nat
  /-- Page classes being initialised (R359), and the RETIRED frames of each class. -/
  classInit : List Nat
  retired   : Tab Nat
  samp      : Tab SampSeq
  cancels   : List (Nat × Nat)
  cancelled : List (Nat × Nat)
  /-- CANCELs of clients whose group is still to be marked: the request, and the first slot accepted after it (R366, R400). -/
  cancelDue : List (Nat × Nat)
  requests  : Tab Request
  nextReq   : Nat
  clientOps : List ClientOp
  /-- Operations granted that wait for a step boundary (R361, Table 6-1). -/
  duePauses : List ClientOp
  images    : Tab Image
  /-- Images of earlier pauses of requests that were paused again: they stay for their time to live (R458). -/
  oldImages : List (Nat × Image)
  /-- The cold tier's work in the order of the arbiter's grants (R456). -/
  coldQ     : List ColdJob
  /-- Requests being resumed, with their new sequence: DECODE follows once the image is restored (R406, Table 6-1). -/
  resuming  : List (Nat × Nat)
  /-- Pages of resumed sequences not yet written to frames: the sequence and the page (R406). -/
  restoring : List (Nat × SavedPage)
  coldGen   : Tab Nat
  coldBytes : Nat
  vchans    : Tab VChan
  shuttles  : Tab (List ShFrame)
  cbSeen    : Tab (List Nat)
  /-- The next sequence number of a CB stream that is generated (R536). -/
  cbNext    : Tab Nat
  /-- Tokens and last time of a flow meter, by port and filter (R536). -/
  meters    : Tab (Nat × Nat)
  qps       : Tab QPair
  sessions  : Tab Session
  nextSess  : Nat
  reasm     : Tab Reasm
  inbox     : List (Nat × CtlFrame)
  rdmaIn    : List (Nat × RdmaResp)
  /-- Congestion notification packets at the RoCEv2 engine, and the timestamps of gPTP frames at the gPTP unit, by port (R540, R558). -/
  cnpIn     : List Nat
  ptpIn     : List (Nat × Nat)
  links     : Tab Link
  landings  : List Landing
  txCredits : List TxCredit
  /-- The tick at which either end last changed a partition's Warp epoch (R660). -/
  epochAt   : Tab Nat
  barriers  : List Barrier
  waitArrive : List (Nat × Nat × Arrival)
  pair      : PairState
  heldOut   : List HeldOut
  out       : List Emit
  trigs     : Tab TrigIn
  trigFifo  : List TrigEntry
  lastEdge  : Option Nat
  /-- Verdict writes that have entered the Seam and not committed (R602 to R605): partition, tag, value. -/
  verdictQ  : List (Nat × Nat × Nat)
  linePend  : List PendingRead
  pins      : Pins
  power     : Power
  gated     : List Nat
  thimble   : Thimble
  teardowns : List Teardown
  tdFree    : Tab Nat
  attest    : List AttReq
  issued    : Nat
  tampered  : Bool
  /-- The store yields the fabric-group key (R796); SLOT_ID as the start read it (R917). -/
  keysOk    : Bool
  slotId    : Nat
  repeats   : List (Nat × Nat)
  /-- Error reports on the error pins that the collector has not yet latched (R817): source, class, error bits. -/
  reports   : List (Nat × Nat × Nat)
  test      : Option TestRun
  testNext  : Nat
  testAt    : Nat
  resets    : List UnitReset
  busyAt    : Tab Nat
  traces    : Tab (List TraceRec)
  trcDropped : Tab Nat
  wdStart   : Tab Nat
  wdKicked  : List Nat
  /-- What a watchdog did for the count that started at a tick: 1 warned, 2 expired (R863). -/
  wdMark    : Tab (Nat × Nat)
  /-- The interval of the last sample tick, and the sample ticks so far (R849). -/
  smpLast   : Nat
  smpCount  : Nat
  frozen    : Bool
  stopAt    : Option Nat
  store     : Store
  calNext   : Tab Nat
  deriving DecidableEq, Repr

/-- The timebase after reset: tick count 0, V = 0, 10 ns per tick, free running (R616, Table 10-6). -/
def TimeBase.reset : TimeBase :=
  { n := 0, n0 := 0, v0 := 0, vSub := 0, rate := 0xA00000000, extra := 0, slew := 0, step := 0, newRate := none, integ := 0,
    good := 0, lastAt := 0 }

/-- The pair after reset: no lease held, no partner (R689, Table 12-7). -/
def PairState.reset : PairState :=
  { ownUntil := 0, partnerUntil := 0, renewAt := 0, heartbeat := false, lapsedHere := false,
    noLeaseSince := 0, partnerSerial := none, lastMlease := none, mleaseSeq := 0, releaseAt := none, higher := false,
    journalSent := 0, journalDone := 0, decisionSent := 0, decisionDone := 0, decisions := [], swapping := false,
    joinAsked := false, copied := false, dirty := [], fetching := [], copies := [], passes := 0, waiting := [],
    work := [], held := [], stepReqs := [], idrDue := [] }

/-- The power manager after reset: no step, no lease, no warning (Table 13-8). -/
def Power.reset : Power :=
  { stepTo := none, stepUp := false, leaseUntil := none, warnShelf := false, warnCool := false, holdShelf := none,
    holdCool := none, thermal := 7, thermalAt := 0, alertOn := false, alertClr := none, lastDown := 0, lastUp := 0,
    fitSince := none, droopOn := false, droopAt := 0, stretched := 0, windowAt := 0, capPoint := 7, tripped := false, lagPeak := 0 }

/-- The Thimble after reset: power state RUN, nothing retained (Table 14-1). -/
def Thimble.reset : Thimble :=
  { state := .run, ticks := 0, sub := 0, sampleAt := 0, w0 := 0, matches_ := 0, lastMatch := 0, pinLast := 0,
    retOk := false, srOk := false, dumpHead := [] }

/-- The settings record of a new module (R13): every field of Table 18-9 at its default. The manual does not lay out the
values of fields that hold several: PAIR is EN in bit 0 and PREFER in bit 1, PAIR_TIMING JOIN_FINAL_MIB in 15:0, SWAP_PERIOD_H in
31:16 and PAIR_LAG_MAX in 63:32, COLD_QUOTA_GB 16 bits for each partition, DUMP the base in 47:0 and the size in 63:48 (DESIGN
CHOICE, log 31). -/
def SettingsRec.factory : SettingsRec :=
  { formatMaj := 0, formatMin := 0, seq := 0
    fields := [(1, 0), (2, 0), (3, 0), (4, 0), (5, 256 + 168 * 2 ^ 16 + 10000 * 2 ^ 32), (6, 0), (7, 0), (8, 17480), (9, 260),
      (10, 3), (11, 65536), (12, 65536), (13, 0x00E100E100E100E100E100E100E100E1), (14, 256 * 2 ^ 48), (15, 0), (16, 0)]
    vers := [] }

/-- The factory firmware image: a container header of Table 18-4, of the module's fabric group. Version and length are a DESIGN CHOICE
(log 73). -/
def StoreImage.factory : StoreImage :=
  { hdr := { magic := 0x4C414345, format := 1, kind := 1, product := 0x412D38344B53, fabric := 0, version := 0, length := 1, digest := 0 }
    valid := true }

/-- The configuration store of a new module (R13): the factory image, active and fallback, no staged image, a settings record of
defaults in slot A, the PUF's helper data; a COLD start is in progress. -/
def Store.reset : Store :=
  { startCount := 0, active := some StoreImage.factory, fallback := some StoreImage.factory,
    staging := [], slotA := some SettingsRec.factory, slotB := none, settings := [], inForce := some SettingsRec.factory,
    helper := Config.helperData, fgkWrapped := Config.fgkWrapped, failing := [], mark := 0, coldAct := false, trial := false,
    trialAt := 0, starting := some true, startedAt := 0, woke := false, powered := true, noImage := false }

/-- The output pins after reset: SAFE_N low until the start completes (R926), the other open-drain outputs released, no answer on the Line
Port (R601, R834). -/
def Pins.reset : Pins :=
  { lineQ := 0, lineAck := false, faultN := true, safeN := false, thermTripN := true, lineClkOn := true }

/-- The module right after reset: every register at its reset value, nothing pending, memory with nothing listed. -/
def State.reset : State :=
  { pending := [], serial := 0, fabric := 0, regs := [], mem := [], keyTag := [], badLines := [], pprRows := [], clearing := [],
    memWaits := [], scrubAt := [], busData := [],
    busErr := false, free := 0, tb := TimeBase.reset, events := [], eaNext := 0, eaLast := 0, tracked := [], recQ := [], traceHold := [],
    nextSlot := 0, chans := [], lingering := [], settling := [], queues := [], wrrAt := 0, mapCe := [], mapDe := [], abort := none,
    tasks := [], nextTask := [], facets := [], facetBank := [], bobbin := [], flushes := [], poolWaits := [], seqUsed := [], classInit := [], retired := [], samp := [], cancels := [],
    cancelled := [], cancelDue := [], requests := [], nextReq := 1, clientOps := [], duePauses := [], images := [], oldImages := [], coldQ := [],
    resuming := [], restoring := [], coldGen := [], coldBytes := 0, vchans := [],
    shuttles := [], cbSeen := [], cbNext := [], meters := [], qps := [], sessions := [], nextSess := 1, reasm := [], inbox := [], rdmaIn := [], cnpIn := [], ptpIn := [],
    links := [], landings := [], txCredits := [], epochAt := [], barriers := [], waitArrive := [], pair := PairState.reset,
    heldOut := [], out := [], trigs := [], trigFifo := [], lastEdge := none, verdictQ := [], linePend := [],
    pins := Pins.reset, power := Power.reset, gated := [], thimble := Thimble.reset, teardowns := [],
    tdFree := [], attest := [], issued := 0, tampered := false, keysOk := true, slotId := 63, repeats := [], reports := [],
    test := none, testNext := 0, testAt := 0, resets := [], busyAt := [], traces := [], trcDropped := [], wdStart := [], wdKicked := [], wdMark := [], smpLast := 0, smpCount := 0,
    frozen := false, stopAt := none, store := Store.reset, calNext := [] }

end Sys2Proof.Machine
end

