-- ==== Sys2Proof/Machine/RegMap.lean ====
section
/-! DEFINITION. The register map: every register of the device address map, its address, the access of its bits and
its reset value, one table per block (R25, R27 and the register tables of each chapter). -/

namespace Sys2Proof.Machine

/-- One register, or an array of up to two dimensions of them: `base + i * s1 + j * s2` for `i < n1`, `j < n2`.
The masks hold the bits of each access code of R27; the reset value is `reset + incr * index`, or the entry of
`table` where the table lists one value per index. -/
structure RegDef where
  base  : Nat
  n1    : Nat
  s1    : Nat
  n2    : Nat
  s2    : Nat
  rw    : Nat
  w1c   : Nat
  w1s   : Nat
  wo    : Nat
  rc    : Nat
  reset : Nat
  incr  : Nat
  table : List Nat
  deriving DecidableEq, Repr

/-- The registers of the hc block (R79). -/
def regDefs_hc : List RegDef := [
  ⟨0x30003400000, 2, 0x100000, 1, 0x100000, 0x0, 0x0, 0x0, 0x0, 0x0, 0x800002, 0x10000, []⟩,
  ⟨0x30003400100, 2, 0x100000, 8, 0x20, 0x1FFFFFFFFFFFC0, 0x0, 0x0, 0x0, 0x0, 0x8000000000000, 0x0, []⟩,
  ⟨0x30003400108, 2, 0x100000, 8, 0x20, 0x0, 0x0, 0x0, 0x0, 0x0, 0x0, 0x0, []⟩,
  ⟨0x30003400110, 2, 0x100000, 8, 0x20, 0xFFFF, 0x0, 0x0, 0x0, 0x0, 0x0, 0x0, []⟩,
  ⟨0x30003400118, 2, 0x100000, 8, 0x20, 0x0, 0x0, 0x0, 0x0, 0xFFFFFFFF00000000, 0x0, 0x0, []⟩,
  ⟨0x30003400200, 2, 0x100000, 1, 0x100000, 0x0, 0x0, 0x0, 0xFFFFFFFFFF, 0x0, 0x0, 0x0, []⟩]

/-- The registers of the loom block (R116). The low bits of a ring base that must be zero are not kept (DESIGN CHOICE, log 96). -/
def regDefs_loom : List RegDef := [
  ⟨0x30004300000, 1, 0x8, 1, 0x8, 0x0, 0x0, 0x0, 0x0, 0x0, 0x120002, 0x0, []⟩,
  ⟨0x30004300008, 1, 0x8, 1, 0x8, 0x1, 0x0, 0x0, 0x0, 0x0, 0x0, 0x0, []⟩,
  ⟨0x30004300010, 1, 0x8, 1, 0x8, 0x0, 0x0, 0x0, 0x0, 0x0, 0x100000, 0x0, []⟩,
  ⟨0x30004300018, 1, 0x8, 1, 0x8, 0xFFFFFF, 0x0, 0x0, 0x0, 0x0, 0x2710, 0x0, []⟩,
  ⟨0x30004300020, 1, 0x8, 1, 0x8, 0x0, 0x0, 0x0, 0x7FFFFFFFFFFFF, 0x0, 0x0, 0x0, []⟩,
  ⟨0x30004300028, 1, 0x8, 1, 0x8, 0x0, 0x0, 0x0, 0x0, 0x803FFFFFFFFFFFFF, 0x0, 0x0, []⟩,
  ⟨0x30004300030, 1, 0x8, 1, 0x8, 0x0, 0x0, 0x0, 0x0, 0x8007FFFFFFFFFFFF, 0x0, 0x0, []⟩,
  ⟨0x30004300038, 1, 0x8, 1, 0x8, 0x0, 0x0, 0x0, 0x0, 0xFFFFFFFF, 0x0, 0x0, []⟩,
  ⟨0x30004300040, 1, 0x8, 1, 0x8, 0x0, 0x0, 0x0, 0x0, 0xFFFFFFFF, 0x0, 0x0, []⟩,
  ⟨0x30004300048, 1, 0x8, 1, 0x8, 0x0, 0x0, 0x0, 0x0, 0x0, 0x0, 0x0, []⟩,
  ⟨0x30004300050, 1, 0x8, 1, 0x8, 0x0, 0x0, 0x0, 0x0, 0x0, 0x0, 0x0, []⟩,
  ⟨0x30004300100, 8, 0x8, 1, 0x8, 0x7FFFF, 0x0, 0x0, 0x0, 0x0, 0x40000, 0x0, []⟩,
  ⟨0x30004300200, 32, 0x8, 1, 0x8, 0x0, 0x0, 0x0, 0x0, 0x0, 0x0, 0x1, []⟩,
  ⟨0x30004300300, 16, 0x8, 1, 0x8, 0x0, 0x0, 0x0, 0x0, 0x0, 0x0, 0x1, []⟩,
  ⟨0x30004301000, 64, 0x40, 1, 0x40, 0xFFFFFFFFFFC0, 0x0, 0x0, 0x0, 0x0, 0x0, 0x0, []⟩,
  ⟨0x30004301008, 64, 0x40, 1, 0x40, 0x1FFF, 0x0, 0x0, 0x0, 0x0, 0x240, 0x0, []⟩,
  ⟨0x30004301010, 64, 0x40, 1, 0x40, 0xFFFF, 0x0, 0x0, 0x0, 0x0, 0x0, 0x0, []⟩,
  ⟨0x30004301018, 64, 0x40, 1, 0x40, 0x0, 0x0, 0x0, 0x0, 0x0, 0x0, 0x0, []⟩,
  ⟨0x30004301020, 64, 0x40, 1, 0x40, 0xFFFFFFFFFFE0, 0x0, 0x0, 0x0, 0x0, 0x0, 0x0, []⟩,
  ⟨0x30004301028, 64, 0x40, 1, 0x40, 0x3F, 0x0, 0x0, 0x0, 0x0, 0x8, 0x0, []⟩,
  ⟨0x30004301030, 64, 0x40, 1, 0x40, 0x0, 0x0, 0x0, 0x0, 0x0, 0x0, 0x0, []⟩,
  ⟨0x30004301038, 64, 0x40, 1, 0x40, 0xFFFF, 0x0, 0x0, 0x0, 0x0, 0x0, 0x0, []⟩]

/-- The registers of the ce block (R183). -/
def regDefs_ce : List RegDef := [
  ⟨0x30000000000, 32, 0x100000, 1, 0x100000, 0x0, 0x0, 0x0, 0x0, 0x0, 0x20000, 0x10, []⟩,
  ⟨0x30000000008, 32, 0x100000, 1, 0x100000, 0x0, 0x0, 0x0, 0x0, 0x0, 0x300C001000480, 0x0, []⟩,
  ⟨0x30000000010, 32, 0x100000, 1, 0x100000, 0x0, 0x0, 0x0, 0x0, 0x0, 0x100, 0x0, []⟩,
  ⟨0x30000000018, 32, 0x100000, 1, 0x100000, 0x0, 0x0, 0x0, 0x0, 0x0, 0x0, 0x0, []⟩,
  ⟨0x30000000020, 32, 0x100000, 1, 0x100000, 0x0, 0x0, 0x0, 0x0, 0x0, 0x0, 0x0, []⟩,
  ⟨0x30000000028, 32, 0x100000, 1, 0x100000, 0x0, 0x3F, 0x0, 0x0, 0x0, 0x0, 0x0, []⟩,
  ⟨0x30000000030, 32, 0x100000, 1, 0x100000, 0x0, 0x0, 0x0, 0x0, 0xFFFFFFFF, 0x0, 0x0, []⟩,
  ⟨0x30000000038, 32, 0x100000, 1, 0x100000, 0x0, 0x3F, 0x0, 0x0, 0x0, 0x0, 0x0, []⟩,
  ⟨0x30000000040, 32, 0x100000, 1, 0x100000, 0x0, 0x0, 0x0, 0x0, 0xFFFF, 0x0, 0x0, []⟩,
  ⟨0x30000000048, 32, 0x100000, 1, 0x100000, 0xFFFF, 0x0, 0x0, 0x0, 0x0, 0x7D1, 0x0, []⟩]

/-- The registers of the ledger block (R358). -/
def regDefs_ledger : List RegDef := [
  ⟨0x30004400000, 1, 0x8, 1, 0x8, 0x0, 0x0, 0x0, 0x0, 0x0, 0x10E0002, 0x0, []⟩,
  ⟨0x30004400008, 1, 0x8, 1, 0x8, 0x1, 0x0, 0x0, 0x0, 0x0, 0x0, 0x0, []⟩,
  ⟨0x30004400010, 1, 0x8, 1, 0x8, 0x0, 0x18, 0x0, 0x0, 0x0, 0x1, 0x0, []⟩,
  ⟨0x30004400018, 1, 0x8, 1, 0x8, 0xFFFFFFFFFFFF, 0x0, 0x0, 0x0, 0x0, 0x0, 0x0, []⟩,
  ⟨0x30004400020, 1, 0x8, 1, 0x8, 0xFFFFF7FFFF, 0x0, 0x0, 0x0, 0x0, 0x0, 0x0, []⟩,
  ⟨0x30004400028, 1, 0x8, 1, 0x8, 0x0, 0x0, 0x0, 0x0, 0xFFFFF00000, 0x0, 0x0, []⟩,
  ⟨0x30004400030, 1, 0x8, 1, 0x8, 0xFFFF000F, 0x0, 0x0, 0x0, 0x0, 0x1000004, 0x0, []⟩,
  ⟨0x30004400038, 1, 0x8, 1, 0x8, 0x1FFFFFFFFFFFFF, 0x0, 0x0, 0x0, 0x0, 0xA000000000000, 0x0, []⟩,
  ⟨0x30004400040, 1, 0x8, 1, 0x8, 0x0, 0x0, 0x0, 0x0, 0x0, 0x0, 0x0, []⟩,
  ⟨0x30004400048, 1, 0x8, 1, 0x8, 0xFFFFF, 0x0, 0x0, 0x0, 0x0, 0x0, 0x0, []⟩,
  ⟨0x30004400050, 1, 0x8, 1, 0x8, 0x0, 0x0, 0x0, 0x0, 0xFFFFFFFFFFFFFFFF, 0x0, 0x0, []⟩,
  ⟨0x30004400100, 16, 0x40, 1, 0x40, 0x3FFFFF, 0x0, 0x0, 0x0, 0x0, 0x40068018, 0x0, []⟩,
  ⟨0x30004400108, 16, 0x40, 1, 0x40, 0xFFFFFF7FFFFFFFF, 0x0, 0x0, 0x0, 0x0, 0x0, 0x0, []⟩,
  ⟨0x30004400110, 16, 0x40, 1, 0x40, 0xFFFFFFFFFFFF, 0x0, 0x0, 0x0, 0x0, 0x0, 0x0, []⟩,
  ⟨0x30004400118, 16, 0x40, 1, 0x40, 0x3FFFFFFFFFFFFFF, 0x0, 0x0, 0x0, 0x0, 0x10C0E600000000, 0x0, []⟩,
  ⟨0x30004400120, 16, 0x40, 1, 0x40, 0x0, 0x0, 0x0, 0x0, 0xFFFFFFFF00000000, 0x0, 0x0, []⟩,
  ⟨0x30004400128, 16, 0x40, 1, 0x40, 0x0, 0x0, 0x0, 0x0, 0x0, 0x0, 0x0, []⟩]

/-- The registers of the sp block (R418). -/
def regDefs_sp : List RegDef := [
  ⟨0x30003C00000, 1, 0x8, 1, 0x8, 0x0, 0x0, 0x0, 0x0, 0x0, 0x120002, 0x0, []⟩,
  ⟨0x30003C00008, 1, 0x8, 1, 0x8, 0x0, 0x0, 0x0, 0x0, 0x0, 0x0, 0x0, []⟩,
  ⟨0x30003C00010, 1, 0x8, 1, 0x8, 0x0, 0x0, 0x0, 0x0, 0xFFFFFFFFFFFF, 0x0, 0x0, []⟩,
  ⟨0x30003C00018, 1, 0x8, 1, 0x8, 0x0, 0x0, 0x0, 0x0, 0xFFFFFFFF, 0x0, 0x0, []⟩,
  ⟨0x30003C00020, 1, 0x8, 1, 0x8, 0x0, 0x0, 0x0, 0x0, 0xFFFFFFFFFFFFFFFF, 0x0, 0x0, []⟩,
  ⟨0x30003C00028, 1, 0x8, 1, 0x8, 0x0, 0x0, 0x0, 0x0, 0xFFFFFFFF, 0x0, 0x0, []⟩]

/-- The registers of the lode block (R463). -/
def regDefs_lode : List RegDef := [
  ⟨0x30002008000, 16, 0x100000, 1, 0x100000, 0x0, 0x0, 0x0, 0x0, 0x0, 0x21860, 0x1, []⟩,
  ⟨0x30002008008, 16, 0x100000, 1, 0x100000, 0x0, 0x0, 0x0, 0x0, 0x0, 0x0, 0x0, []⟩,
  ⟨0x30002008010, 16, 0x100000, 1, 0x100000, 0x0, 0x3F, 0x0, 0x0, 0x0, 0x0, 0x0, []⟩,
  ⟨0x30002008018, 16, 0x100000, 1, 0x100000, 0x0, 0x0, 0x0, 0x0, 0xFFFFFFFFFFFF, 0x0, 0x0, []⟩,
  ⟨0x30002008020, 16, 0x100000, 1, 0x100000, 0x0, 0x0, 0x0, 0x0, 0x800FFFFFFFFFFFC0, 0x0, 0x0, []⟩,
  ⟨0x30002008028, 16, 0x100000, 1, 0x100000, 0x1FF, 0x0, 0x0, 0x0, 0x0, 0x31, 0x0, []⟩,
  ⟨0x30002008030, 16, 0x100000, 1, 0x100000, 0x0, 0x0, 0x0, 0x0, 0x0, 0x0, 0x0, []⟩]

/-- The registers of the cm block (R466). -/
def regDefs_cm : List RegDef := [
  ⟨0x30003004000, 4, 0x100000, 1, 0x100000, 0x0, 0x0, 0x0, 0x0, 0x0, 0x20800, 0x1, []⟩,
  ⟨0x30003004008, 4, 0x100000, 1, 0x100000, 0x0, 0x0, 0x0, 0x0, 0x0, 0x0, 0x0, []⟩,
  ⟨0x30003004010, 4, 0x100000, 1, 0x100000, 0x0, 0x27, 0x0, 0x0, 0x0, 0x0, 0x0, []⟩,
  ⟨0x30003004018, 4, 0x100000, 1, 0x100000, 0x0, 0x0, 0x0, 0x0, 0xFFFFFFFFFFFF, 0x0, 0x0, []⟩,
  ⟨0x30003004020, 4, 0x100000, 1, 0x100000, 0x0, 0x0, 0x0, 0x0, 0x800FFFFFFFFFFFC0, 0x0, 0x0, []⟩,
  ⟨0x30003004028, 4, 0x100000, 1, 0x100000, 0x1FF, 0x0, 0x0, 0x0, 0x0, 0x79, 0x0, []⟩,
  ⟨0x30003004030, 4, 0x100000, 1, 0x100000, 0x0, 0x0, 0x0, 0x0, 0x0, 0x0, 0x0, []⟩]

/-- The registers of the mem block (R467). -/
def regDefs_mem : List RegDef := [
  ⟨0x30003008000, 1, 0x8, 1, 0x8, 0x0, 0x2, 0x0, 0x0, 0x0, 0x0, 0x0, []⟩,
  ⟨0x30003008100, 8, 0x8, 1, 0x8, 0x1F, 0x0, 0x0, 0x0, 0x0, 0x0, 0x0, []⟩,
  ⟨0x30003008200, 16, 0x8, 1, 0x8, 0x0, 0x0, 0x0, 0x8000000000000000, 0x0, 0x0, 0x0, [0x100000000, 0x0, 0x0, 0x0, 0x0, 0x0, 0x0, 0x0, 0x0, 0x0, 0x0, 0x0, 0x0, 0x0, 0x0, 0x0]⟩,
  ⟨0x30003009000, 64, 0x10, 1, 0x10, 0xFFFFFFFF000F, 0x0, 0x0, 0x0, 0x0, 0x0, 0x0, []⟩,
  ⟨0x30003009008, 64, 0x10, 1, 0x10, 0xFFFFFFFF0000, 0x0, 0x0, 0x0, 0x0, 0x0, 0x0, []⟩]

/-- The registers of the vd block (R534). -/
def regDefs_vd : List RegDef := [
  ⟨0x30003600000, 2, 0x100000, 1, 0x100000, 0x0, 0x0, 0x0, 0x0, 0x0, 0x81428000002, 0x10000, []⟩,
  ⟨0x30003600008, 2, 0x100000, 1, 0x100000, 0x0, 0x0, 0x0, 0x0, 0x0, 0x0, 0x0, []⟩,
  ⟨0x30003600010, 2, 0x100000, 1, 0x100000, 0x0, 0x0, 0x0, 0x0, 0x0, 0x7788000000000, 0x0, []⟩,
  ⟨0x30003600018, 2, 0x100000, 1, 0x100000, 0x0, 0x0, 0x0, 0x0, 0x0, 0x3BC4000000000, 0x0, []⟩,
  ⟨0x30003600020, 2, 0x100000, 1, 0x100000, 0x0, 0xF, 0x0, 0x0, 0x0, 0x0, 0x0, []⟩,
  ⟨0x30003600028, 2, 0x100000, 1, 0x100000, 0x0, 0x0, 0x0, 0x0, 0xFFFFFFFFFFFFFFFF, 0x0, 0x0, []⟩,
  ⟨0x30003600030, 2, 0x100000, 1, 0x100000, 0x0, 0x0, 0x0, 0x0, 0xFFFFFFFFFFFFFFFF, 0x0, 0x0, []⟩,
  ⟨0x30003600038, 2, 0x100000, 1, 0x100000, 0x0, 0x0, 0x0, 0x0, 0xFFFFFFFF, 0x0, 0x0, []⟩,
  ⟨0x30003600100, 2, 0x100000, 60, 0x8, 0x0, 0x0, 0x0, 0x0, 0x0, 0x0, 0x0, []⟩]

/-- The registers of the nx block (R590). -/
def regDefs_nx : List RegDef := [
  ⟨0x30003800000, 2, 0x100000, 1, 0x100000, 0x0, 0x0, 0x0, 0x0, 0x0, 0x800002, 0x10000, []⟩,
  ⟨0x30003800008, 2, 0x100000, 1, 0x100000, 0x3, 0x0, 0x0, 0x0, 0x0, 0x2, 0x0, []⟩,
  ⟨0x30003800010, 2, 0x100000, 1, 0x100000, 0x0, 0x0, 0x0, 0x0, 0x0, 0x0, 0x0, []⟩,
  ⟨0x30003800018, 2, 0x100000, 1, 0x100000, 0xFFFFFFFFFFFF, 0x0, 0x0, 0x0, 0x0, 0x0, 0x0, []⟩,
  ⟨0x30003800020, 2, 0x100000, 1, 0x100000, 0x3FFF, 0x0, 0x0, 0x0, 0x0, 0x2400, 0x0, []⟩,
  ⟨0x30003800028, 2, 0x100000, 1, 0x100000, 0x0, 0x0, 0x0, 0x0, 0xFFFFFFFFFFFFFFFF, 0x0, 0x0, []⟩,
  ⟨0x30003800030, 2, 0x100000, 1, 0x100000, 0x0, 0x0, 0x0, 0x0, 0xFFFFFFFFFFFFFFFF, 0x0, 0x0, []⟩,
  ⟨0x30003800038, 2, 0x100000, 1, 0x100000, 0x0, 0x0, 0x0, 0x0, 0xFFFFFFFFFFFFFFFF, 0x0, 0x0, []⟩,
  ⟨0x30003800040, 2, 0x100000, 1, 0x100000, 0xFFFFFFFFFFFF, 0x0, 0x0, 0x0, 0x0, 0x0, 0x0, []⟩,
  ⟨0x30003800048, 2, 0x100000, 1, 0x100000, 0xFFFF, 0x0, 0x0, 0x0, 0x0, 0x4448, 0x0, []⟩,
  ⟨0x30003800100, 2, 0x100000, 8, 0x10, 0x0, 0x0, 0x0, 0x0, 0xFFFFFFFF07FF0000, 0x0, 0x0, []⟩,
  ⟨0x30003800108, 2, 0x100000, 8, 0x10, 0x0, 0x0, 0x0, 0x0, 0x0, 0x0, 0x0, []⟩,
  ⟨0x30003800200, 2, 0x100000, 64, 0x10, 0xFFFFFFF8FF, 0x0, 0x0, 0x0, 0x0, 0x0, 0x0, []⟩,
  ⟨0x30003800208, 2, 0x100000, 64, 0x10, 0x0, 0x0, 0x0, 0x0, 0xFFFFFFFFFFFFFFFF, 0x0, 0x0, []⟩,
  ⟨0x30003800600, 2, 0x100000, 1, 0x100000, 0x1FF, 0x0, 0x0, 0x0, 0x0, 0x0, 0x0, []⟩,
  ⟨0x30003800608, 2, 0x100000, 1, 0x100000, 0x3FFFFFFF, 0x0, 0x0, 0x0, 0x0, 0x3B9ACA00, 0x0, []⟩,
  ⟨0x30003800610, 2, 0x100000, 1, 0x100000, 0xFFFFFFFFFFFFFFFF, 0x0, 0x0, 0x0, 0x0, 0x0, 0x0, []⟩,
  ⟨0x30003800800, 2, 0x100000, 256, 0x8, 0xFFFFFFFFFF, 0x0, 0x0, 0x0, 0x0, 0xFF, 0x0, []⟩,
  ⟨0x30003801000, 2, 0x100000, 64, 0x10, 0xFFFFFFFF3FFFFFFF, 0x0, 0x0, 0x0, 0x0, 0x0, 0x0, []⟩,
  ⟨0x30003801008, 2, 0x100000, 64, 0x10, 0xFFFFFFFF, 0x0, 0x0, 0x0, 0xFFFFFFFF00000000, 0x0, 0x0, []⟩,
  ⟨0x30003802000, 2, 0x100000, 64, 0x8, 0x3FFFFFFFFFFFFFFF, 0x0, 0x0, 0x0, 0x0, 0x0, 0x0, []⟩]

/-- The registers of the tb block (R634). -/
def regDefs_tb : List RegDef := [
  ⟨0x30004100000, 1, 0x8, 1, 0x8, 0x0, 0x0, 0x0, 0x0, 0x0, 0x2, 0x0, []⟩,
  ⟨0x30004100008, 1, 0x8, 1, 0x8, 0xFFFFFFFF7FFF, 0x0, 0x0, 0x0, 0x0, 0x3E85187, 0x0, []⟩,
  ⟨0x30004100010, 1, 0x8, 1, 0x8, 0x0, 0x0, 0x0, 0x0, 0x0, 0x0, 0x0, []⟩,
  ⟨0x30004100018, 1, 0x8, 1, 0x8, 0x0, 0x0, 0x0, 0x0, 0x0, 0x0, 0x0, []⟩,
  ⟨0x30004100020, 1, 0x8, 1, 0x8, 0x0, 0x0, 0x0, 0x0, 0x0, 0x0, 0x0, []⟩,
  ⟨0x30004100028, 1, 0x8, 1, 0x8, 0xFFFFFFFFFFFFFFFF, 0x0, 0x0, 0x0, 0x0, 0xA00000000, 0x0, []⟩,
  ⟨0x30004100030, 1, 0x8, 1, 0x8, 0x0, 0x0, 0x0, 0xFFFFFFFFFFFFFFFF, 0x0, 0x0, 0x0, []⟩,
  ⟨0x30004100038, 1, 0x8, 1, 0x8, 0x0, 0x0, 0x0, 0x0, 0x0, 0x0, 0x0, []⟩,
  ⟨0x30004100040, 1, 0x8, 1, 0x8, 0x0, 0x0, 0x0, 0x0, 0x0, 0x0, 0x0, []⟩,
  ⟨0x30004100048, 1, 0x8, 1, 0x8, 0x0, 0x0, 0x0, 0x0, 0x0, 0x0, 0x0, []⟩]

/-- The registers of the ea block (R635). -/
def regDefs_ea : List RegDef := [
  ⟨0x30004200000, 1, 0x8, 1, 0x8, 0x0, 0x0, 0x0, 0x0, 0x0, 0x2, 0x0, []⟩,
  ⟨0x30004200008, 1, 0x8, 1, 0x8, 0x1, 0x0, 0x0, 0x0, 0x0, 0x0, 0x0, []⟩,
  ⟨0x30004200010, 1, 0x8, 1, 0x8, 0x0, 0x2, 0x0, 0x0, 0x0, 0x0, 0x0, []⟩,
  ⟨0x30004200018, 1, 0x8, 1, 0x8, 0x0, 0x0, 0x0, 0x0, 0x0, 0x0, 0x0, []⟩,
  ⟨0x30004200020, 1, 0x8, 1, 0x8, 0x1FFFFFFFFFFFFF, 0x0, 0x0, 0x0, 0x0, 0x10000000000000, 0x0, []⟩,
  ⟨0x30004200028, 1, 0x8, 1, 0x8, 0x0, 0x0, 0x0, 0x0, 0x0, 0x0, 0x0, []⟩,
  ⟨0x30004200030, 1, 0x8, 1, 0x8, 0xFFFFFF, 0x0, 0x0, 0x0, 0x0, 0x0, 0x0, []⟩,
  ⟨0x30004200038, 1, 0x8, 1, 0x8, 0x0, 0x0, 0x0, 0x0, 0xFFFFFFFF, 0x0, 0x0, []⟩,
  ⟨0x30004200040, 1, 0x8, 1, 0x8, 0xFFFFFFFFFFFFFFFF, 0x0, 0x0, 0x0, 0x0, 0x7F, 0x0, []⟩,
  ⟨0x30004200048, 1, 0x8, 1, 0x8, 0x0, 0x0, 0x0, 0x0, 0xFFFFFFFF, 0x0, 0x0, []⟩]

/-- The registers of the line block (R636). -/
def regDefs_line : List RegDef := [
  ⟨0x30004500000, 1, 0x8, 1, 0x8, 0x0, 0x0, 0x0, 0x0, 0x0, 0x100002, 0x0, []⟩,
  ⟨0x30004500008, 1, 0x8, 1, 0x8, 0x7F, 0x0, 0x0, 0x0, 0x0, 0x0, 0x0, []⟩,
  ⟨0x30004500010, 1, 0x8, 1, 0x8, 0x0, 0x0, 0x0, 0x0, 0x0, 0x0, 0x0, []⟩,
  ⟨0x30004500018, 1, 0x8, 1, 0x8, 0xFFFF, 0x0, 0x0, 0x0, 0x0, 0x0, 0x0, []⟩,
  ⟨0x30004500020, 1, 0x8, 1, 0x8, 0x0, 0x0, 0x0, 0x0, 0xFFFFFFFFFFFFFFFF, 0x0, 0x0, []⟩,
  ⟨0x30004500028, 1, 0x8, 1, 0x8, 0x0, 0x0, 0x0, 0x0, 0x0, 0x0, 0x0, []⟩,
  ⟨0x30004500100, 16, 0x8, 1, 0x8, 0x3FFF, 0x0, 0x0, 0x0, 0x0, 0x2, 0x0, []⟩,
  ⟨0x30004500200, 1, 0x8, 1, 0x8, 0x0, 0x0, 0x0, 0x0, 0x0, 0x0, 0x0, []⟩,
  ⟨0x30004500208, 1, 0x8, 1, 0x8, 0x0, 0x0, 0x0, 0x0, 0x800000000000001F, 0x0, 0x0, []⟩,
  ⟨0x30004500210, 1, 0x8, 1, 0x8, 0x0, 0x0, 0x0, 0x0, 0xFFFFFFFFFFFF, 0x0, 0x0, []⟩,
  ⟨0x30004580000, 65536, 0x8, 1, 0x8, 0x1FFFF, 0x0, 0x0, 0x0, 0x0, 0x0, 0x0, []⟩]

/-- The registers of the wp block (R683). -/
def regDefs_wp : List RegDef := [
  ⟨0x30003A00000, 2, 0x100000, 1, 0x100000, 0x0, 0x0, 0x0, 0x0, 0x0, 0x21000002, 0x40000, []⟩,
  ⟨0x30003A00008, 2, 0x100000, 1, 0x100000, 0x7F, 0x0, 0x0, 0x0, 0x0, 0x40, 0x0, []⟩,
  ⟨0x30003A00010, 2, 0x100000, 1, 0x100000, 0x0, 0x0, 0x0, 0x0, 0x0, 0x0, 0x0, []⟩,
  ⟨0x30003A00018, 2, 0x100000, 1, 0x100000, 0x0, 0x0, 0x0, 0x0, 0x0, 0x0, 0x0, []⟩,
  ⟨0x30003A00100, 2, 0x100000, 8, 0x8, 0x1, 0x0, 0x0, 0x0, 0x0, 0x100000000, 0x0, []⟩,
  ⟨0x30003A00200, 2, 0x100000, 64, 0x8, 0xF, 0x0, 0x0, 0x0, 0x0, 0x0, 0x0, []⟩,
  ⟨0x30003A01000, 2, 0x100000, 4, 0x80, 0xFF03, 0x0, 0xC, 0x0, 0x0, 0x1E00, 0x0, []⟩,
  ⟨0x30003A01008, 2, 0x100000, 4, 0x80, 0x0, 0x0, 0x0, 0x0, 0x0, 0x0, 0x0, []⟩,
  ⟨0x30003A01010, 2, 0x100000, 4, 0x80, 0xFFFF, 0x0, 0x0, 0x0, 0x0, 0x0, 0x0, []⟩,
  ⟨0x30003A01018, 2, 0x100000, 4, 0x80, 0x0, 0x0, 0x0, 0x0, 0x0, 0x0, 0x0, []⟩,
  ⟨0x30003A01020, 2, 0x100000, 4, 0x80, 0x0, 0x0, 0x0, 0x0, 0x0, 0x0, 0x0, []⟩,
  ⟨0x30003A01028, 2, 0x100000, 4, 0x80, 0x0, 0x0, 0x0, 0x0, 0x0, 0x0, 0x0, []⟩,
  ⟨0x30003A01030, 2, 0x100000, 4, 0x80, 0x0, 0x0, 0x0, 0x0, 0x0, 0x0, 0x0, []⟩,
  ⟨0x30003A01038, 2, 0x100000, 4, 0x80, 0x0, 0x0, 0x0, 0x0, 0xFFFFFFFFFFFFFFFF, 0x0, 0x0, []⟩,
  ⟨0x30003A01040, 2, 0x100000, 4, 0x80, 0x0, 0x0, 0x0, 0x0, 0x0, 0x0, 0x0, []⟩,
  ⟨0x30003A01048, 2, 0x100000, 4, 0x80, 0x0, 0x0, 0x0, 0x0, 0x0, 0x0, 0x0, []⟩,
  ⟨0x30003A01050, 2, 0x100000, 4, 0x80, 0x0, 0x0, 0x0, 0x0, 0x0, 0x0, 0x0, []⟩,
  ⟨0x30003A01058, 2, 0x100000, 4, 0x80, 0x0, 0x0, 0x0, 0x0, 0xFFFFFFFFFFFFFFFF, 0x0, 0x0, []⟩,
  ⟨0x30003A02000, 1, 0x8, 1, 0x8, 0xFFFFFFFF, 0x0, 0x0, 0x0, 0x0, 0xF4240, 0x0, []⟩,
  ⟨0x30003A02008, 1, 0x8, 1, 0x8, 0x1FFFFFFFFFFFFF, 0x0, 0x0, 0x0, 0x0, 0xC000000000000, 0x0, []⟩,
  ⟨0x30003A02010, 1, 0x8, 1, 0x8, 0x0, 0x0, 0x0, 0x0, 0x0, 0x0, 0x0, []⟩,
  ⟨0x30003A02018, 1, 0x8, 1, 0x8, 0xFFFFF, 0x0, 0x0, 0x0, 0x0, 0x0, 0x0, []⟩,
  ⟨0x30003A03000, 64, 0x10, 1, 0x10, 0x0, 0x0, 0x0, 0x0, 0x0, 0x0, 0x0, []⟩,
  ⟨0x30003A03008, 64, 0x10, 1, 0x10, 0x0, 0x0, 0x0, 0x0, 0xFFFFFFFFFFFFFFFF, 0x0, 0x0, []⟩]

/-- The registers of the pair block (R722). -/
def regDefs_pair : List RegDef := [
  ⟨0x30003A04000, 1, 0x8, 1, 0x8, 0xFFFFFFFFFFFF03, 0x0, 0x4, 0x0, 0x0, 0xA80000010000, 0x0, []⟩,
  ⟨0x30003A04008, 1, 0x8, 1, 0x8, 0x0, 0x0, 0x0, 0x0, 0x0, 0x0, 0x0, []⟩,
  ⟨0x30003A04010, 1, 0x8, 1, 0x8, 0x0, 0x0, 0x0, 0x0, 0x0, 0x0, 0x0, []⟩,
  ⟨0x30003A04018, 1, 0x8, 1, 0x8, 0x0, 0x0, 0x0, 0xFFFFFFFFFFFFFFFF, 0x0, 0x0, 0x0, []⟩,
  ⟨0x30003A04020, 1, 0x8, 1, 0x8, 0x0, 0x0, 0x0, 0x0, 0x0, 0x0, 0x0, []⟩,
  ⟨0x30003A04028, 1, 0x8, 1, 0x8, 0x0, 0x0, 0x0, 0x0, 0xFFFFFFFF00000000, 0x0, 0x0, []⟩,
  ⟨0x30003A04030, 1, 0x8, 1, 0x8, 0xFFFFFFFF, 0x0, 0x0, 0x0, 0x0, 0x2710, 0x0, []⟩,
  ⟨0x30003A04038, 1, 0x8, 1, 0x8, 0xFFFFFFFFFFFFFFFF, 0x0, 0x0, 0x0, 0x0, 0x0, 0x0, []⟩,
  ⟨0x30003A04040, 1, 0x8, 1, 0x8, 0x0, 0x0, 0x0, 0x0, 0xFFFFFFFFFFFFFFFF, 0x0, 0x0, []⟩,
  ⟨0x30003A04048, 1, 0x8, 1, 0x8, 0x0, 0x0, 0x0, 0x0, 0xFFFFFFFF, 0x0, 0x0, []⟩]

/-- The registers of the pm block (R755). -/
def regDefs_pm : List RegDef := [
  ⟨0x30003F00000, 1, 0x8, 1, 0x8, 0x0, 0x0, 0x0, 0x0, 0x0, 0x80002, 0x0, []⟩,
  ⟨0x30003F00008, 1, 0x8, 1, 0x8, 0x0, 0x40, 0x0, 0x0, 0x0, 0x0, 0x0, []⟩,
  ⟨0x30003F00010, 1, 0x8, 1, 0x8, 0x0, 0x0, 0x0, 0x0, 0x0, 0x0, 0x0, []⟩,
  ⟨0x30003F00018, 1, 0x8, 1, 0x8, 0xFFFF00000000, 0x0, 0x0, 0x0, 0x0, 0x104000000000000, 0x0, []⟩,
  ⟨0x30003F00020, 1, 0x8, 1, 0x8, 0xFFFF0000, 0x0, 0x0, 0x0, 0x0, 0x6400C8, 0x0, []⟩,
  ⟨0x30003F00028, 1, 0x8, 1, 0x8, 0x0, 0x0, 0x0, 0x0, 0xFFFFFFFFFFFF0000, 0x0, 0x0, []⟩,
  ⟨0x30003F00030, 1, 0x8, 1, 0x8, 0x0, 0x0, 0x0, 0x0, 0xFFFF00000000, 0x0, 0x0, []⟩,
  ⟨0x30003F00038, 1, 0x8, 1, 0x8, 0x0, 0x0, 0x0, 0x0, 0xFF0000, 0x0, 0x0, []⟩,
  ⟨0x30003F00040, 1, 0x8, 1, 0x8, 0xFFF, 0x0, 0x0, 0x0, 0x0, 0x564, 0x0, []⟩,
  ⟨0x30003F00048, 1, 0x8, 1, 0x8, 0x0, 0x0, 0x0, 0x0, 0xFFFFFFFFFFFFFFFF, 0x0, 0x0, []⟩,
  ⟨0x30003F00050, 1, 0x8, 1, 0x8, 0xFFFFFFFF, 0x0, 0x0, 0x0, 0x0, 0xE69903E8, 0x0, []⟩,
  ⟨0x30003F00058, 1, 0x8, 1, 0x8, 0x0, 0x0, 0x0, 0x0, 0xFFFFFFFF, 0x0, 0x0, []⟩,
  ⟨0x30003F00100, 8, 0x8, 1, 0x8, 0x0, 0x0, 0x0, 0x0, 0x0, 0x0, 0x0, [0x82322615E, 0x9B02441F4, 0xB49262271, 0xD242802EE, 0xF8F2A836B, 0x12642D03E8, 0x15A92F8465, 0x19643204E2]⟩,
  ⟨0x30003F00200, 5, 0x10, 1, 0x10, 0xF77, 0x0, 0x0, 0x0, 0x0, 0x0, 0x0, [0x700, 0x747, 0x725, 0x736, 0x747]⟩,
  ⟨0x30003F00208, 5, 0x10, 1, 0x10, 0x0, 0x0, 0x0, 0x0, 0xFFFFFFFF00000000, 0x0, 0x0, [0x0, 0x7, 0x5, 0x6, 0x7]⟩,
  ⟨0x30003F00300, 4, 0x8, 1, 0x8, 0xFFFFFFFFFFFFFFFF, 0x0, 0x0, 0x0, 0x0, 0x0, 0x0, []⟩]

/-- The registers of the thimble block (R786). -/
def regDefs_thimble : List RegDef := [
  ⟨0x30004600000, 1, 0x8, 1, 0x8, 0x0, 0x0, 0x0, 0x0, 0x0, 0x400002, 0x0, []⟩,
  ⟨0x30004600008, 1, 0x8, 1, 0x8, 0x3, 0x0, 0x100, 0x0, 0x0, 0x0, 0x0, []⟩,
  ⟨0x30004600010, 1, 0x8, 1, 0x8, 0x0, 0x0, 0x0, 0x0, 0xFFFFF700, 0x0, 0x0, []⟩,
  ⟨0x30004600018, 1, 0x8, 1, 0x8, 0xFFFFFFFF, 0x0, 0x0, 0x0, 0x0, 0x0, 0x0, []⟩,
  ⟨0x30004600020, 1, 0x8, 1, 0x8, 0x0, 0xFF00, 0x0, 0x0, 0x0, 0x0, 0x0, []⟩,
  ⟨0x30004600028, 1, 0x8, 1, 0x8, 0xF, 0x0, 0x0, 0x0, 0x0, 0x5, 0x0, []⟩,
  ⟨0x30004600030, 1, 0x8, 1, 0x8, 0xFFFFFFFFFFFFFFFF, 0x0, 0x0, 0x0, 0x0, 0x0, 0x0, []⟩,
  ⟨0x30004600038, 1, 0x8, 1, 0x8, 0xFFFFFFFF001FFFFF, 0x0, 0x0, 0x0, 0x0, 0x28000, 0x0, []⟩,
  ⟨0x30004600040, 1, 0x8, 1, 0x8, 0xFFFF, 0x0, 0x0, 0x0, 0x0, 0x2D, 0x0, []⟩,
  ⟨0x30004600048, 1, 0x8, 1, 0x8, 0x0, 0x0, 0x0, 0x0, 0xFFFFFFFF00000000, 0x0, 0x0, []⟩,
  ⟨0x30004600050, 1, 0x8, 1, 0x8, 0xFFF, 0x0, 0x0, 0x0, 0x0, 0x0, 0x0, []⟩,
  ⟨0x30004600058, 1, 0x8, 1, 0x8, 0x0, 0x0, 0x3F00, 0x0, 0x0, 0x0, 0x0, []⟩,
  ⟨0x30004600060, 1, 0x8, 1, 0x8, 0x0, 0x0, 0x0, 0x0, 0x0, 0x0, 0x0, []⟩,
  ⟨0x30004601000, 2048, 0x10, 1, 0x10, 0xFFFFFFFFFFFF, 0x0, 0x0, 0x0, 0x0, 0x0, 0x0, []⟩,
  ⟨0x30004601008, 2048, 0x10, 1, 0x10, 0x0, 0x0, 0x0, 0x0, 0x0, 0x0, 0x0, []⟩]

/-- The registers of the gn block (R816). -/
def regDefs_gn : List RegDef := [
  ⟨0x30003D00000, 1, 0x8, 1, 0x8, 0x0, 0x0, 0x0, 0x0, 0x0, 0x7080002, 0x0, []⟩,
  ⟨0x30003D00008, 1, 0x8, 1, 0x8, 0x0, 0x0, 0x0, 0x0, 0x0, 0x0, 0x0, []⟩,
  ⟨0x30003D00010, 1, 0x8, 1, 0x8, 0x0, 0x0, 0x1, 0xFF00, 0x0, 0x0, 0x0, []⟩,
  ⟨0x30003D00018, 1, 0x8, 1, 0x8, 0x0, 0x0, 0x0, 0x0, 0x0, 0x0, 0x0, []⟩,
  ⟨0x30003D00020, 1, 0x8, 1, 0x8, 0x0, 0x0, 0x0, 0x0, 0x0, 0x0, 0x0, []⟩,
  ⟨0x30003D00028, 1, 0x8, 1, 0x8, 0x0, 0x0, 0x0, 0xFFFFFFFFFFFF, 0x0, 0x0, 0x0, []⟩,
  ⟨0x30003D00030, 1, 0x8, 1, 0x8, 0x0, 0x10, 0x0, 0x0, 0xFFFFFFFF00000000, 0x0, 0x0, []⟩,
  ⟨0x30003D00040, 8, 0x20, 4, 0x8, 0x0, 0x0, 0x0, 0x0, 0x0, 0x0, 0x0, []⟩,
  ⟨0x30003D00140, 1, 0x8, 1, 0x8, 0x0, 0x0, 0x0, 0x7FFFFFFFFFFFF, 0x0, 0x0, 0x0, []⟩,
  ⟨0x30003D08000, 1, 0x8, 1, 0x8, 0x1, 0x100, 0x0, 0x0, 0x0, 0x0, 0x0, []⟩,
  ⟨0x30003D08008, 1, 0x8, 1, 0x8, 0x0, 0x0, 0x0, 0x0, 0xFFFFFFFF, 0x0, 0x0, []⟩,
  ⟨0x30003D08100, 8, 0x40, 1, 0x40, 0x3, 0x0, 0x4, 0x0, 0x0, 0x0, 0x0, []⟩,
  ⟨0x30003D08108, 8, 0x40, 1, 0x40, 0x1FFFFFFFFFFFFFFF, 0x0, 0x0, 0x0, 0x0, 0x0, 0x0, []⟩,
  ⟨0x30003D08110, 8, 0x40, 1, 0x40, 0x0, 0x0, 0x0, 0x0, 0x0, 0x0, 0x0, []⟩,
  ⟨0x30003D08118, 8, 0x40, 1, 0x40, 0x0, 0x0, 0x0, 0xFFFFFFFFFFFFFFFF, 0x0, 0x0, 0x0, []⟩,
  ⟨0x30003D08120, 8, 0x40, 1, 0x40, 0x0, 0x0, 0x0, 0xFFFFFFFFFFFFFFFF, 0x0, 0x0, 0x0, []⟩,
  ⟨0x30003D08128, 8, 0x40, 1, 0x40, 0xFFFF, 0x0, 0x0, 0x0, 0x0, 0x0, 0x0, []⟩,
  ⟨0x30003D08130, 8, 0x40, 1, 0x40, 0x0, 0x0, 0x0, 0x0, 0x0, 0x0, 0x0, []⟩]

/-- The registers of the fc block (R842). -/
def regDefs_fc : List RegDef := [
  ⟨0x30003E00000, 1, 0x8, 1, 0x8, 0x0, 0x0, 0x0, 0x0, 0x0, 0x1000002, 0x0, []⟩,
  ⟨0x30003E00008, 1, 0x8, 1, 0x8, 0x1, 0x0, 0x2, 0x0, 0x0, 0x1, 0x0, []⟩,
  ⟨0x30003E00010, 1, 0x8, 1, 0x8, 0x0, 0x0, 0x0, 0x0, 0x0, 0x0, 0x0, []⟩,
  ⟨0x30003E00018, 1, 0x8, 1, 0x8, 0x0, 0x0, 0x0, 0x0, 0xFFFFFFFF83FF, 0x0, 0x0, []⟩,
  ⟨0x30003E00020, 1, 0x8, 1, 0x8, 0x0, 0x0, 0x0, 0x0, 0xFFFFFFFFFFFFFFFF, 0x0, 0x0, []⟩,
  ⟨0x30003E00028, 1, 0x8, 1, 0x8, 0xFFFF000F, 0x0, 0x0, 0x0, 0x0, 0xE100003, 0x0, []⟩,
  ⟨0x30003E00030, 1, 0x8, 1, 0x8, 0xFFFF01FF, 0x0, 0x0, 0x0, 0x0, 0x12C0031, 0x0, []⟩,
  ⟨0x30003E00038, 1, 0x8, 1, 0x8, 0x0, 0x0, 0x0, 0x3F, 0x0, 0x0, 0x0, []⟩,
  ⟨0x30003E00040, 1, 0x8, 1, 0x8, 0x0, 0x80, 0x0, 0x0, 0xFFFFFFFF00000000, 0x0, 0x0, []⟩,
  ⟨0x30003E00048, 1, 0x8, 1, 0x8, 0x0, 0x0, 0x0, 0x0, 0x0, 0x0, 0x0, []⟩,
  ⟨0x30003E00050, 1, 0x8, 1, 0x8, 0x0, 0x0, 0x0, 0x3FF, 0x0, 0x0, 0x0, []⟩,
  ⟨0x30003E00100, 4, 0x8, 1, 0x8, 0x0, 0xFFFFFFFFFFFFFFFF, 0x0, 0x0, 0x0, 0x0, 0x0, []⟩,
  ⟨0x30003E00200, 8, 0x8, 1, 0x8, 0xFFFFFFFFFFFFFFFF, 0x0, 0x0, 0x0, 0x0, 0x0, 0x0, [0x0, 0xAAAAAAAAAAAAAAAA, 0xAAAAAAAA00000000, 0xA000F0000000000, 0xFF0FFF000002A000, 0x0, 0x0, 0x0]⟩,
  ⟨0x30003E00300, 8, 0x8, 1, 0x8, 0x0, 0x0, 0x0, 0x0, 0x0, 0x0, 0x0, []⟩]

/-- The registers of the dbg block (R879). -/
def regDefs_dbg : List RegDef := [
  ⟨0x3000000C000, 61, 0x100000, 1, 0x100000, 0x1F, 0x0, 0x20, 0x0, 0x0, 0x0, 0x0, []⟩,
  ⟨0x3000000C008, 61, 0x100000, 8, 0x8, 0xFFFFFFFF007F, 0x0, 0x0, 0x0, 0x0, 0x0, 0x0, []⟩,
  ⟨0x3000000C048, 61, 0x100000, 8, 0x8, 0x0, 0x0, 0x0, 0x0, 0x0, 0x0, 0x0, []⟩,
  ⟨0x3000000C088, 61, 0x100000, 1, 0x100000, 0xFFFF0003, 0x0, 0x0, 0x0, 0x0, 0xFFFE0000, 0x0, []⟩,
  ⟨0x3000000C090, 61, 0x100000, 1, 0x100000, 0x0, 0x0, 0x0, 0x0, 0xFFFFFFFFFFFF0000, 0x0, 0x0, []⟩,
  ⟨0x3000000C098, 61, 0x100000, 1, 0x100000, 0x0, 0x0, 0x0, 0xFFFFFFFFFFFFFFFF, 0x0, 0x0, 0x0, []⟩]

/-- The registers of the ftdbg block (R880). -/
def regDefs_ftdbg : List RegDef := [
  ⟨0x30003E08000, 1, 0x8, 1, 0x8, 0x0, 0x0, 0x0, 0x0, 0x0, 0x2, 0x0, []⟩,
  ⟨0x30003E08008, 1, 0x8, 1, 0x8, 0xFFFFFF01, 0x0, 0x0, 0x0, 0x0, 0x3E800, 0x0, []⟩,
  ⟨0x30003E08010, 1, 0x8, 1, 0x8, 0x7, 0x0, 0x8, 0x0, 0x0, 0x3, 0x0, []⟩,
  ⟨0x30003E08018, 1, 0x8, 1, 0x8, 0xFFFFFFFFFFFF, 0x0, 0x0, 0x0, 0x0, 0x0, 0x0, []⟩,
  ⟨0x30003E08020, 1, 0x8, 1, 0x8, 0xFFFF, 0x0, 0x0, 0x0, 0x0, 0x100, 0x0, []⟩,
  ⟨0x30003E08028, 1, 0x8, 1, 0x8, 0x0, 0x9, 0x0, 0x0, 0x0, 0x0, 0x0, []⟩,
  ⟨0x30003E08030, 1, 0x8, 1, 0x8, 0x0, 0x0, 0x0, 0x0, 0x0, 0x0, 0x0, []⟩,
  ⟨0x30003E08100, 8, 0x40, 1, 0x40, 0x1FFFFFFFFFFFFF, 0x0, 0x0, 0x0, 0x0, 0xC000000000000, 0x0, []⟩,
  ⟨0x30003E08108, 8, 0x40, 1, 0x40, 0x1FFFFFFFFFFFFF, 0x0, 0x0, 0x0, 0x0, 0xA000000000000, 0x0, []⟩,
  ⟨0x30003E08110, 8, 0x40, 1, 0x40, 0x0, 0x0, 0x0, 0x0, 0x0, 0x0, 0x0, []⟩,
  ⟨0x30003E08118, 8, 0x40, 1, 0x40, 0xFFFFFF00FFFFFF, 0x0, 0x0, 0x0, 0x0, 0x0, 0x0, []⟩,
  ⟨0x30003E08120, 8, 0x40, 1, 0x40, 0x0, 0x0, 0x0, 0x0, 0xFFFFFFFF, 0x0, 0x0, []⟩,
  ⟨0x30003E08400, 64, 0x8, 1, 0x8, 0xFF1F, 0x0, 0x0, 0x0, 0x0, 0x0, 0x0, []⟩,
  ⟨0x30003E08600, 64, 0x8, 1, 0x8, 0x0, 0x0, 0x0, 0x0, 0x0, 0x0, 0x0, []⟩,
  ⟨0x30003E08800, 4, 0x10, 1, 0x10, 0xFFFFFFFFFF01, 0x0, 0x0, 0x0, 0x0, 0x10000000000, 0x0, [0x10032006401, 0x101F403E800, 0x10032006400, 0x101F403E800]⟩,
  ⟨0x30003E08808, 4, 0x10, 1, 0x10, 0x0, 0x0, 0x0, 0xFFFFFFFFFFFFFFFF, 0x0, 0x0, 0x0, []⟩,
  ⟨0x30003E08880, 1, 0x8, 1, 0x8, 0x0, 0xFF, 0x0, 0x0, 0xFF00, 0x0, 0x0, []⟩]

/-- The registers of the cfg block (R911). -/
def regDefs_cfg : List RegDef := [
  ⟨0x30004700000, 1, 0x8, 1, 0x8, 0x0, 0x0, 0x0, 0x0, 0x0, 0x800002, 0x0, []⟩,
  ⟨0x30004700008, 1, 0x8, 1, 0x8, 0x0, 0x0, 0x7, 0x0, 0x0, 0x0, 0x0, []⟩,
  ⟨0x30004700010, 1, 0x8, 1, 0x8, 0x0, 0x0, 0x0, 0x0, 0x0, 0x4, 0x0, []⟩,
  ⟨0x30004700018, 1, 0x8, 1, 0x8, 0x0, 0x0, 0x0, 0x0, 0x0, 0x0, 0x0, []⟩,
  ⟨0x30004700020, 1, 0x8, 1, 0x8, 0x0, 0x0, 0x0, 0x0, 0x0, 0x0, 0x0, []⟩,
  ⟨0x30004700028, 1, 0x8, 1, 0x8, 0x0, 0x0, 0x0, 0x0, 0x0, 0x0, 0x0, []⟩,
  ⟨0x30004700030, 1, 0x8, 1, 0x8, 0x0, 0x0, 0x0, 0x0, 0x0, 0x0, 0x0, []⟩,
  ⟨0x30004700038, 1, 0x8, 1, 0x8, 0x0, 0x0, 0x0, 0x0, 0x0, 0x0, 0x0, []⟩,
  ⟨0x30004700040, 1, 0x8, 1, 0x8, 0x0, 0x0, 0x0, 0x0, 0x0, 0x0, 0x0, []⟩,
  ⟨0x30004700048, 1, 0x8, 1, 0x8, 0x0, 0x0, 0x0, 0x0, 0x0, 0x0, 0x0, []⟩,
  ⟨0x30004700050, 1, 0x8, 1, 0x8, 0x0, 0x0, 0x0, 0x0, 0x0, 0x0, 0x0, []⟩,
  ⟨0x30004700058, 1, 0x8, 1, 0x8, 0x0, 0x0, 0x0, 0x0, 0x0, 0x0, 0x0, []⟩,
  ⟨0x30004700060, 1, 0x8, 1, 0x8, 0x0, 0x0, 0x0, 0x0, 0xFFFFFFFF, 0x0, 0x0, []⟩]

/-- The registers of the de block (R186). -/
def regDefs_de : List RegDef := [
  ⟨0x30002000000, 16, 0x100000, 1, 0x100000, 0x0, 0x0, 0x0, 0x0, 0x0, 0x20201, 0x10, []⟩,
  ⟨0x30002000008, 16, 0x100000, 1, 0x100000, 0x0, 0x0, 0x0, 0x0, 0x0, 0xE04000800140, 0x0, []⟩,
  ⟨0x30002000010, 16, 0x100000, 1, 0x100000, 0x0, 0x0, 0x0, 0x0, 0x0, 0x40100, 0x4000, []⟩,
  ⟨0x30002000018, 16, 0x100000, 1, 0x100000, 0x0, 0x0, 0x0, 0x0, 0x0, 0x0, 0x0, []⟩,
  ⟨0x30002000020, 16, 0x100000, 1, 0x100000, 0x0, 0x0, 0x0, 0x0, 0x0, 0x0, 0x0, []⟩,
  ⟨0x30002000028, 16, 0x100000, 1, 0x100000, 0x0, 0x3F, 0x0, 0x0, 0x0, 0x0, 0x0, []⟩,
  ⟨0x30002000030, 16, 0x100000, 1, 0x100000, 0x0, 0x0, 0x0, 0x0, 0xFFFFFFFF, 0x0, 0x0, []⟩,
  ⟨0x30002000038, 16, 0x100000, 1, 0x100000, 0x0, 0x3F, 0x0, 0x0, 0x0, 0x0, 0x0, []⟩,
  ⟨0x30002000040, 16, 0x100000, 1, 0x100000, 0x0, 0x0, 0x0, 0x0, 0xFFFF, 0x0, 0x0, []⟩,
  ⟨0x30002000048, 16, 0x100000, 1, 0x100000, 0xFFFF, 0x0, 0x0, 0x0, 0x0, 0x7D1, 0x0, []⟩]

/-- The registers of the nxm block (R590). -/
def regDefs_nxm : List RegDef := [
  ⟨0x30003808000, 1, 0x8, 1, 0x8, 0x0, 0x0, 0x0, 0x0, 0x0, 0x800002, 0x0, []⟩,
  ⟨0x30003808008, 1, 0x8, 1, 0x8, 0x3, 0x0, 0x0, 0x0, 0x0, 0x2, 0x0, []⟩,
  ⟨0x30003808010, 1, 0x8, 1, 0x8, 0x0, 0x0, 0x0, 0x0, 0x0, 0x0, 0x0, []⟩,
  ⟨0x30003808018, 1, 0x8, 1, 0x8, 0xFFFFFFFFFFFF, 0x0, 0x0, 0x0, 0x0, 0x0, 0x0, []⟩,
  ⟨0x30003808020, 1, 0x8, 1, 0x8, 0x3FFF, 0x0, 0x0, 0x0, 0x0, 0x2400, 0x0, []⟩,
  ⟨0x30003808028, 1, 0x8, 1, 0x8, 0x0, 0x0, 0x0, 0x0, 0xFFFFFFFFFFFFFFFF, 0x0, 0x0, []⟩,
  ⟨0x30003808030, 1, 0x8, 1, 0x8, 0x0, 0x0, 0x0, 0x0, 0xFFFFFFFFFFFFFFFF, 0x0, 0x0, []⟩,
  ⟨0x30003808038, 1, 0x8, 1, 0x8, 0x0, 0x0, 0x0, 0x0, 0xFFFFFFFFFFFFFFFF, 0x0, 0x0, []⟩]

end Sys2Proof.Machine
end

