-- ==== Sys2Proof/Machine/RegNames.lean ====
section
/-! DEFINITION. The names of the registers (their device addresses) and of their fields (high and low bit), from the
register tables of each chapter. -/

namespace Sys2Proof.Machine.A

/-! The hc block (R79). -/

abbrev hcId (i : Nat) : Nat := 0x30003400000 + i * 0x100000
abbrev hcId_major : Nat × Nat := (7, 0)
abbrev hcId_minor : Nat × Nat := (15, 8)
abbrev hcId_cluster : Nat × Nat := (16, 16)
abbrev hcId_harts : Nat × Nat := (23, 20)
abbrev hcTaskBase (i j : Nat) : Nat := 0x30003400100 + i * 0x100000 + j * 0x20
abbrev hcTaskBase_base : Nat × Nat := (47, 0)
abbrev hcTaskBase_log2Entries : Nat × Nat := (52, 48)
abbrev hcTaskTail (i j : Nat) : Nat := 0x30003400108 + i * 0x100000 + j * 0x20
abbrev hcTaskTail_tail : Nat × Nat := (15, 0)
abbrev hcTaskHead (i j : Nat) : Nat := 0x30003400110 + i * 0x100000 + j * 0x20
abbrev hcTaskHead_head : Nat × Nat := (15, 0)
abbrev hcTaskCount (i j : Nat) : Nat := 0x30003400118 + i * 0x100000 + j * 0x20
abbrev hcTaskCount_waiting : Nat × Nat := (31, 0)
abbrev hcTaskCount_done : Nat × Nat := (63, 32)
abbrev hcTaskDone (i : Nat) : Nat := 0x30003400200 + i * 0x100000
abbrev hcTaskDone_task : Nat × Nat := (31, 0)
abbrev hcTaskDone_status : Nat × Nat := (39, 32)

/-! The loom block (R116). -/

abbrev loomId : Nat := 0x30004300000
abbrev loomId_major : Nat × Nat := (7, 0)
abbrev loomId_minor : Nat × Nat := (15, 8)
abbrev loomId_trackLog2 : Nat × Nat := (20, 16)
abbrev loomCtl : Nat := 0x30004300008
abbrev loomCtl_enable : Nat × Nat := (0, 0)
abbrev loomStatus : Nat := 0x30004300010
abbrev loomStatus_tracked : Nat × Nat := (18, 0)
abbrev loomStatus_full : Nat × Nat := (19, 19)
abbrev loomStatus_idle : Nat × Nat := (20, 20)
abbrev loomStatus_abortBusy : Nat × Nat := (21, 21)
abbrev loomStallLimit : Nat := 0x30004300018
abbrev loomStallLimit_limitUs : Nat × Nat := (23, 0)
abbrev loomAbort : Nat := 0x30004300020
abbrev loomAbort_cmdSeq : Nat × Nat := (47, 0)
abbrev loomAbort_part : Nat × Nat := (50, 48)
abbrev loomAbortResult : Nat := 0x30004300028
abbrev loomAbortResult_cmdSeq : Nat × Nat := (47, 0)
abbrev loomAbortResult_part : Nat × Nat := (50, 48)
abbrev loomAbortResult_result : Nat × Nat := (53, 51)
abbrev loomAbortResult_valid : Nat × Nat := (63, 63)
abbrev loomStallSeq : Nat := 0x30004300030
abbrev loomStallSeq_cmdSeq : Nat × Nat := (47, 0)
abbrev loomStallSeq_part : Nat × Nat := (50, 48)
abbrev loomStallSeq_valid : Nat × Nat := (63, 63)
abbrev loomReplayCount : Nat := 0x30004300038
abbrev loomReplayCount_count : Nat × Nat := (31, 0)
abbrev loomTagDrop : Nat := 0x30004300040
abbrev loomTagDrop_count : Nat × Nat := (31, 0)
abbrev loomFenced : Nat := 0x30004300048
abbrev loomFenced_ce : Nat × Nat := (31, 0)
abbrev loomFenced_de : Nat × Nat := (47, 32)
abbrev loomTesting : Nat := 0x30004300050
abbrev loomTesting_ce : Nat × Nat := (31, 0)
abbrev loomTesting_de : Nat × Nat := (47, 32)
abbrev loomPartQuota (i : Nat) : Nat := 0x30004300100 + i * 0x8
abbrev loomPartQuota_quota : Nat × Nat := (18, 0)
abbrev loomPartQuota_used : Nat × Nat := (50, 32)
abbrev loomMapCe (i : Nat) : Nat := 0x30004300200 + i * 0x8
abbrev loomMapCe_phys : Nat × Nat := (4, 0)
abbrev loomMapDe (i : Nat) : Nat := 0x30004300300 + i * 0x8
abbrev loomMapDe_phys : Nat × Nat := (3, 0)
abbrev loomSqBase (i : Nat) : Nat := 0x30004301000 + i * 0x40
abbrev loomSqBase_base : Nat × Nat := (47, 0)
abbrev loomSqCtl (i : Nat) : Nat := 0x30004301008 + i * 0x40
abbrev loomSqCtl_en : Nat × Nat := (0, 0)
abbrev loomSqCtl_part : Nat × Nat := (3, 1)
abbrev loomSqCtl_log2Entries : Nat × Nat := (8, 4)
abbrev loomSqCtl_weight : Nat × Nat := (12, 9)
abbrev loomSqTail (i : Nat) : Nat := 0x30004301010 + i * 0x40
abbrev loomSqTail_tail : Nat × Nat := (15, 0)
abbrev loomSqHead (i : Nat) : Nat := 0x30004301018 + i * 0x40
abbrev loomSqHead_head : Nat × Nat := (15, 0)
abbrev loomSqHead_fetchErr : Nat × Nat := (63, 63)
abbrev loomCqBase (i : Nat) : Nat := 0x30004301020 + i * 0x40
abbrev loomCqBase_base : Nat × Nat := (47, 0)
abbrev loomCqCtl (i : Nat) : Nat := 0x30004301028 + i * 0x40
abbrev loomCqCtl_en : Nat × Nat := (0, 0)
abbrev loomCqCtl_log2Entries : Nat × Nat := (5, 1)
abbrev loomCqTail (i : Nat) : Nat := 0x30004301030 + i * 0x40
abbrev loomCqTail_tail : Nat × Nat := (15, 0)
abbrev loomCqHead (i : Nat) : Nat := 0x30004301038 + i * 0x40
abbrev loomCqHead_head : Nat × Nat := (15, 0)

/-! The ce block (R183). -/

abbrev ceId (i : Nat) : Nat := 0x30000000000 + i * 0x100000
abbrev ceId_class : Nat × Nat := (3, 0)
abbrev ceId_station : Nat × Nat := (9, 4)
abbrev ceId_major : Nat × Nat := (23, 16)
abbrev ceId_minor : Nat × Nat := (31, 24)
abbrev ceCap (i : Nat) : Nat := 0x30000000008 + i * 0x100000
abbrev ceCap_arrayDim : Nat × Nat := (7, 0)
abbrev ceCap_quadrants : Nat × Nat := (11, 8)
abbrev ceCap_storeKib : Nat × Nat := (27, 12)
abbrev ceCap_opstoreKib : Nat × Nat := (43, 28)
abbrev ceCap_lanesLog2 : Nat × Nat := (48, 44)
abbrev ceCap_zc : Nat × Nat := (49, 49)
abbrev ceStatus (i : Nat) : Nat := 0x30000000010 + i * 0x100000
abbrev ceStatus_engineBusy : Nat × Nat := (0, 0)
abbrev ceStatus_engineStaged : Nat × Nat := (1, 1)
abbrev ceStatus_moverBusy : Nat × Nat := (2, 2)
abbrev ceStatus_moverStaged : Nat × Nat := (3, 3)
abbrev ceStatus_fenced : Nat × Nat := (4, 4)
abbrev ceStatus_testing : Nat × Nat := (5, 5)
abbrev ceStatus_nlogical : Nat × Nat := (13, 8)
abbrev ceStatus_lode : Nat × Nat := (17, 14)
abbrev ceStatus_direct : Nat × Nat := (18, 18)
abbrev ceEngineCmd (i : Nat) : Nat := 0x30000000018 + i * 0x100000
abbrev ceEngineCmd_cmdSeq : Nat × Nat := (47, 0)
abbrev ceEngineCmd_part : Nat × Nat := (50, 48)
abbrev ceEngineCmd_logical : Nat × Nat := (55, 51)
abbrev ceEngineCmd_valid : Nat × Nat := (63, 63)
abbrev ceMoverCmd (i : Nat) : Nat := 0x30000000020 + i * 0x100000
abbrev ceMoverCmd_cmdSeq : Nat × Nat := (47, 0)
abbrev ceMoverCmd_part : Nat × Nat := (50, 48)
abbrev ceMoverCmd_logical : Nat × Nat := (55, 51)
abbrev ceMoverCmd_valid : Nat × Nat := (63, 63)
abbrev ceArithFlags (i : Nat) : Nat := 0x30000000028 + i * 0x100000
abbrev ceArithFlags_accOvf : Nat × Nat := (0, 0)
abbrev ceArithFlags_inexact : Nat × Nat := (1, 1)
abbrev ceArithFlags_nanOut : Nat × Nat := (2, 2)
abbrev ceArithFlags_infOut : Nat × Nat := (3, 3)
abbrev ceArithFlags_outSat : Nat × Nat := (4, 4)
abbrev ceArithFlags_fp32Ovf : Nat × Nat := (5, 5)
abbrev ceSatCount (i : Nat) : Nat := 0x30000000030 + i * 0x100000
abbrev ceSatCount_count : Nat × Nat := (31, 0)
abbrev ceErrStatus (i : Nat) : Nat := 0x30000000038 + i * 0x100000
abbrev ceErrStatus_storeCe : Nat × Nat := (0, 0)
abbrev ceErrStatus_storeUe : Nat × Nat := (1, 1)
abbrev ceErrStatus_accParity : Nat × Nat := (2, 2)
abbrev ceErrStatus_arrayResidue : Nat × Nat := (3, 3)
abbrev ceErrStatus_port : Nat × Nat := (4, 4)
abbrev ceErrStatus_facetEcc : Nat × Nat := (5, 5)
abbrev ceErrCount (i : Nat) : Nat := 0x30000000040 + i * 0x100000
abbrev ceErrCount_corrected : Nat × Nat := (15, 0)
abbrev ceScrubCtl (i : Nat) : Nat := 0x30000000048 + i * 0x100000
abbrev ceScrubCtl_en : Nat × Nat := (0, 0)
abbrev ceScrubCtl_intervalMs : Nat × Nat := (15, 1)

/-! The ledger block (R358). -/

abbrev ledgerId : Nat := 0x30004400000
abbrev ledgerId_major : Nat × Nat := (7, 0)
abbrev ledgerId_minor : Nat × Nat := (15, 8)
abbrev ledgerId_seqLog2 : Nat × Nat := (19, 16)
abbrev ledgerId_classes : Nat × Nat := (24, 20)
abbrev ledgerCtl : Nat := 0x30004400008
abbrev ledgerCtl_enable : Nat × Nat := (0, 0)
abbrev ledgerStatus : Nat := 0x30004400010
abbrev ledgerStatus_idle : Nat × Nat := (0, 0)
abbrev ledgerStatus_poolEmpty : Nat × Nat := (1, 1)
abbrev ledgerStatus_bobbinWait : Nat × Nat := (2, 2)
abbrev ledgerStatus_evictFull : Nat × Nat := (3, 3)
abbrev ledgerStatus_classErr : Nat × Nat := (4, 4)
abbrev ledgerStatus_tickBusy : Nat × Nat := (5, 5)
abbrev ledgerSeqBase : Nat := 0x30004400018
abbrev ledgerSeqBase_base : Nat × Nat := (47, 0)
abbrev ledgerBobbinCfg : Nat := 0x30004400020
abbrev ledgerBobbinCfg_firstLine : Nat × Nat := (18, 0)
abbrev ledgerBobbinCfg_lines : Nat × Nat := (39, 20)
abbrev ledgerBobbinUse : Nat := 0x30004400028
abbrev ledgerBobbinUse_inUse : Nat × Nat := (19, 0)
abbrev ledgerBobbinUse_highWater : Nat × Nat := (39, 20)
abbrev ledgerScoreCtl : Nat := 0x30004400030
abbrev ledgerScoreCtl_decayShift : Nat × Nat := (3, 0)
abbrev ledgerScoreCtl_evictMax : Nat × Nat := (31, 16)
abbrev ledgerEvictBase : Nat := 0x30004400038
abbrev ledgerEvictBase_base : Nat × Nat := (47, 0)
abbrev ledgerEvictBase_log2Entries : Nat × Nat := (52, 48)
abbrev ledgerEvictTail : Nat := 0x30004400040
abbrev ledgerEvictTail_tail : Nat × Nat := (19, 0)
abbrev ledgerEvictHead : Nat := 0x30004400048
abbrev ledgerEvictHead_head : Nat × Nat := (19, 0)
abbrev ledgerWaits : Nat := 0x30004400050
abbrev ledgerWaits_pinWait : Nat × Nat := (31, 0)
abbrev ledgerWaits_bobbinWait : Nat × Nat := (63, 32)
abbrev ledgerClass (i : Nat) : Nat := 0x30004400100 + i * 0x40
abbrev ledgerClass_valid : Nat × Nat := (0, 0)
abbrev ledgerClass_pageLog2 : Nat × Nat := (5, 1)
abbrev ledgerClass_pgPosLog2 : Nat × Nat := (8, 6)
abbrev ledgerClass_hkvM1 : Nat × Nat := (14, 9)
abbrev ledgerClass_dimCode : Nat × Nat := (16, 15)
abbrev ledgerClass_fmt : Nat × Nat := (21, 17)
abbrev ledgerClass_entryBytes : Nat × Nat := (38, 22)
abbrev ledgerPool (i : Nat) : Nat := 0x30004400108 + i * 0x40
abbrev ledgerPool_poolOffset : Nat × Nat := (34, 0)
abbrev ledgerPool_framesPerLode : Nat × Nat := (59, 36)
abbrev ledgerEntryBase (i : Nat) : Nat := 0x30004400110 + i * 0x40
abbrev ledgerEntryBase_base : Nat × Nat := (47, 0)
abbrev ledgerLoop (i : Nat) : Nat := 0x30004400118 + i * 0x40
abbrev ledgerLoop_thMin : Nat × Nat := (15, 0)
abbrev ledgerLoop_thMax : Nat × Nat := (31, 16)
abbrev ledgerLoop_high : Nat × Nat := (39, 32)
abbrev ledgerLoop_low : Nat × Nat := (47, 40)
abbrev ledgerLoop_step : Nat × Nat := (55, 48)
abbrev ledgerLoop_pin : Nat × Nat := (56, 56)
abbrev ledgerLoop_evictEn : Nat × Nat := (57, 57)
abbrev ledgerLoopState (i : Nat) : Nat := 0x30004400120 + i * 0x40
abbrev ledgerLoopState_th : Nat × Nat := (15, 0)
abbrev ledgerLoopState_clash : Nat × Nat := (63, 32)
abbrev ledgerCount (i : Nat) : Nat := 0x30004400128 + i * 0x40
abbrev ledgerCount_live : Nat × Nat := (27, 0)
abbrev ledgerCount_free : Nat × Nat := (55, 28)

/-! The sp block (R418). -/

abbrev spId : Nat := 0x30003C00000
abbrev spId_major : Nat × Nat := (7, 0)
abbrev spId_minor : Nat × Nat := (15, 8)
abbrev spId_vocabLog2 : Nat × Nat := (20, 16)
abbrev spStatus : Nat := 0x30003C00008
abbrev spStatus_busy : Nat × Nat := (0, 0)
abbrev spStatus_staged : Nat × Nat := (1, 1)
abbrev spStatus_maskWaiting : Nat × Nat := (2, 2)
abbrev spMaskWait : Nat := 0x30003C00010
abbrev spMaskWait_cycles : Nat × Nat := (47, 0)
abbrev spDropCount : Nat := 0x30003C00018
abbrev spDropCount_records : Nat × Nat := (31, 0)
abbrev spDraftStats : Nat := 0x30003C00020
abbrev spDraftStats_proposed : Nat × Nat := (31, 0)
abbrev spDraftStats_accepted : Nat × Nat := (63, 32)
abbrev spLoopClash : Nat := 0x30003C00028
abbrev spLoopClash_count : Nat × Nat := (31, 0)

/-! The lode block (R463). -/

abbrev lodeId (i : Nat) : Nat := 0x30002008000 + i * 0x100000
abbrev lodeId_lode : Nat × Nat := (3, 0)
abbrev lodeId_channels : Nat × Nat := (7, 4)
abbrev lodeId_capGib : Nat × Nat := (15, 8)
abbrev lodeId_major : Nat × Nat := (23, 16)
abbrev lodeId_minor : Nat × Nat := (31, 24)
abbrev lodeStatus (i : Nat) : Nat := 0x30002008008 + i * 0x100000
abbrev lodeStatus_ready : Nat × Nat := (0, 0)
abbrev lodeStatus_selfRefresh : Nat × Nat := (1, 1)
abbrev lodeStatus_scrubBusy : Nat × Nat := (2, 2)
abbrev lodeStatus_pprPending : Nat × Nat := (3, 3)
abbrev lodeErrStatus (i : Nat) : Nat := 0x30002008010 + i * 0x100000
abbrev lodeErrStatus_corr : Nat × Nat := (0, 0)
abbrev lodeErrStatus_uncorr : Nat × Nat := (1, 1)
abbrev lodeErrStatus_partialWrite : Nat × Nat := (2, 2)
abbrev lodeErrStatus_caParity : Nat × Nat := (3, 3)
abbrev lodeErrStatus_checkCache : Nat × Nat := (4, 4)
abbrev lodeErrStatus_ctlParity : Nat × Nat := (5, 5)
abbrev lodeErrCount (i : Nat) : Nat := 0x30002008018 + i * 0x100000
abbrev lodeErrCount_corrected : Nat × Nat := (31, 0)
abbrev lodeErrCount_uncorrected : Nat × Nat := (47, 32)
abbrev lodeErrAddr (i : Nat) : Nat := 0x30002008020 + i * 0x100000
abbrev lodeErrAddr_line : Nat × Nat := (47, 6)
abbrev lodeErrAddr_part : Nat × Nat := (50, 48)
abbrev lodeErrAddr_scrub : Nat × Nat := (51, 51)
abbrev lodeErrAddr_valid : Nat × Nat := (63, 63)
abbrev lodeScrubCtl (i : Nat) : Nat := 0x30002008028 + i * 0x100000
abbrev lodeScrubCtl_en : Nat × Nat := (0, 0)
abbrev lodeScrubCtl_periodH : Nat × Nat := (8, 1)
abbrev lodeScrubPos (i : Nat) : Nat := 0x30002008030 + i * 0x100000
abbrev lodeScrubPos_line : Nat × Nat := (28, 0)

/-! The cm block (R466). -/

abbrev cmId (i : Nat) : Nat := 0x30003004000 + i * 0x100000
abbrev cmId_major : Nat × Nat := (23, 16)
abbrev cmId_minor : Nat × Nat := (31, 24)
abbrev cmId_bank : Nat × Nat := (3, 0)
abbrev cmId_capMib : Nat × Nat := (15, 8)
abbrev cmStatus (i : Nat) : Nat := 0x30003004008 + i * 0x100000
abbrev cmStatus_ready : Nat × Nat := (0, 0)
abbrev cmStatus_scrubBusy : Nat × Nat := (2, 2)
abbrev cmErrStatus (i : Nat) : Nat := 0x30003004010 + i * 0x100000
abbrev cmErrStatus_corr : Nat × Nat := (0, 0)
abbrev cmErrStatus_uncorr : Nat × Nat := (1, 1)
abbrev cmErrStatus_partialWrite : Nat × Nat := (2, 2)
abbrev cmErrStatus_ctlParity : Nat × Nat := (5, 5)
abbrev cmErrCount (i : Nat) : Nat := 0x30003004018 + i * 0x100000
abbrev cmErrCount_corrected : Nat × Nat := (31, 0)
abbrev cmErrCount_uncorrected : Nat × Nat := (47, 32)
abbrev cmErrAddr (i : Nat) : Nat := 0x30003004020 + i * 0x100000
abbrev cmErrAddr_part : Nat × Nat := (50, 48)
abbrev cmErrAddr_scrub : Nat × Nat := (51, 51)
abbrev cmErrAddr_valid : Nat × Nat := (63, 63)
abbrev cmErrAddr_line : Nat × Nat := (47, 6)
abbrev cmScrubCtl (i : Nat) : Nat := 0x30003004028 + i * 0x100000
abbrev cmScrubCtl_en : Nat × Nat := (0, 0)
abbrev cmScrubCtl_periodS : Nat × Nat := (8, 1)
abbrev cmScrubPos (i : Nat) : Nat := 0x30003004030 + i * 0x100000
abbrev cmScrubPos_line : Nat × Nat := (16, 0)

/-! The mem block (R467). -/

abbrev memStatus : Nat := 0x30003008000
abbrev memStatus_cmClearing : Nat × Nat := (0, 0)
abbrev memStatus_regionErr : Nat × Nat := (1, 1)
abbrev memPartKey (i : Nat) : Nat := 0x30003008100 + i * 0x8
abbrev memPartKey_slot : Nat × Nat := (3, 0)
abbrev memPartKey_valid : Nat × Nat := (4, 4)
abbrev memSlot (i : Nat) : Nat := 0x30003008200 + i * 0x8
abbrev memSlot_epoch : Nat × Nat := (31, 0)
abbrev memSlot_state : Nat × Nat := (33, 32)
abbrev memSlot_retire : Nat × Nat := (63, 63)
abbrev memRegionBase (i : Nat) : Nat := 0x30003009000 + i * 0x10
abbrev memRegionBase_valid : Nat × Nat := (0, 0)
abbrev memRegionBase_owner : Nat × Nat := (3, 1)
abbrev memRegionBase_base : Nat × Nat := (47, 16)
abbrev memRegionLimit (i : Nat) : Nat := 0x30003009008 + i * 0x10
abbrev memRegionLimit_limit : Nat × Nat := (47, 16)

/-! The vd block (R534). -/

abbrev vdId (i : Nat) : Nat := 0x30003600000 + i * 0x100000
abbrev vdId_major : Nat × Nat := (7, 0)
abbrev vdId_minor : Nat × Nat := (15, 8)
abbrev vdId_unit : Nat × Nat := (16, 16)
abbrev vdId_decChannels : Nat × Nat := (29, 24)
abbrev vdId_encChannels : Nat × Nat := (37, 32)
abbrev vdId_privChannels : Nat × Nat := (43, 40)
abbrev vdStatus (i : Nat) : Nat := 0x30003600008 + i * 0x100000
abbrev vdStatus_fwReady : Nat × Nat := (0, 0)
abbrev vdStatus_decOpen : Nat × Nat := (13, 8)
abbrev vdStatus_encOpen : Nat × Nat := (20, 16)
abbrev vdStatus_privOpen : Nat × Nat := (27, 24)
abbrev vdDecLoad (i : Nat) : Nat := 0x30003600010 + i * 0x100000
abbrev vdDecLoad_used : Nat × Nat := (19, 0)
abbrev vdDecLoad_budget : Nat × Nat := (51, 32)
abbrev vdEncLoad (i : Nat) : Nat := 0x30003600018 + i * 0x100000
abbrev vdEncLoad_used : Nat × Nat := (19, 0)
abbrev vdEncLoad_budget : Nat × Nat := (51, 32)
abbrev vdErrStatus (i : Nat) : Nat := 0x30003600020 + i * 0x100000
abbrev vdErrStatus_bufCe : Nat × Nat := (0, 0)
abbrev vdErrStatus_bufUe : Nat × Nat := (1, 1)
abbrev vdErrStatus_coreParity : Nat × Nat := (2, 2)
abbrev vdErrStatus_fwTimeout : Nat × Nat := (3, 3)
abbrev vdStreamErr (i : Nat) : Nat := 0x30003600028 + i * 0x100000
abbrev vdStreamErr_syntax : Nat × Nat := (15, 0)
abbrev vdStreamErr_unsupported : Nat × Nat := (31, 16)
abbrev vdStreamErr_concealedRows : Nat × Nat := (63, 32)
abbrev vdLateDrop (i : Nat) : Nat := 0x30003600030 + i * 0x100000
abbrev vdLateDrop_packets : Nat × Nat := (31, 0)
abbrev vdLateDrop_lost : Nat × Nat := (63, 32)
abbrev vdRcClash (i : Nat) : Nat := 0x30003600038 + i * 0x100000
abbrev vdRcClash_count : Nat × Nat := (31, 0)
abbrev vdChan (i j : Nat) : Nat := 0x30003600100 + i * 0x100000 + j * 0x8
abbrev vdChan_open : Nat × Nat := (0, 0)
abbrev vdChan_priv : Nat × Nat := (1, 1)
abbrev vdChan_part : Nat × Nat := (4, 2)
abbrev vdChan_waitIrap : Nat × Nat := (5, 5)
abbrev vdChan_running : Nat × Nat := (6, 6)
abbrev vdChan_pics : Nat × Nat := (63, 32)

/-! The nx block (R590). -/

abbrev nxId (i : Nat) : Nat := 0x30003800000 + i * 0x100000
abbrev nxId_major : Nat × Nat := (7, 0)
abbrev nxId_minor : Nat × Nat := (15, 8)
abbrev nxId_port : Nat × Nat := (16, 16)
abbrev nxId_shuttles : Nat × Nat := (23, 20)
abbrev nxCtl (i : Nat) : Nat := 0x30003800008 + i * 0x100000
abbrev nxCtl_enable : Nat × Nat := (0, 0)
abbrev nxCtl_anEn : Nat × Nat := (1, 1)
abbrev nxStatus (i : Nat) : Nat := 0x30003800010 + i * 0x100000
abbrev nxStatus_linkUp : Nat × Nat := (0, 0)
abbrev nxStatus_ptpSync : Nat × Nat := (1, 1)
abbrev nxStatus_txAllowed : Nat × Nat := (2, 2)
abbrev nxMacAddr (i : Nat) : Nat := 0x30003800018 + i * 0x100000
abbrev nxMacAddr_addr : Nat × Nat := (47, 0)
abbrev nxMaxFrame (i : Nat) : Nat := 0x30003800020 + i * 0x100000
abbrev nxMaxFrame_bytes : Nat × Nat := (13, 0)
abbrev nxFecCount (i : Nat) : Nat := 0x30003800028 + i * 0x100000
abbrev nxFecCount_corrected : Nat × Nat := (31, 0)
abbrev nxFecCount_uncorrected : Nat × Nat := (63, 32)
abbrev nxRxDrop (i : Nat) : Nat := 0x30003800030 + i * 0x100000
abbrev nxRxDrop_fcs : Nat × Nat := (15, 0)
abbrev nxRxDrop_oversize : Nat × Nat := (31, 16)
abbrev nxRxDrop_pause : Nat × Nat := (47, 32)
abbrev nxRxDrop_unclassified : Nat × Nat := (63, 48)
abbrev nxRdmaDrop (i : Nat) : Nat := 0x30003800038 + i * 0x100000
abbrev nxRdmaDrop_inboundReq : Nat × Nat := (31, 0)
abbrev nxRdmaDrop_retry : Nat × Nat := (63, 32)
abbrev nxQpBase (i : Nat) : Nat := 0x30003800040 + i * 0x100000
abbrev nxQpBase_base : Nat × Nat := (47, 0)
abbrev nxCpPort (i : Nat) : Nat := 0x30003800048 + i * 0x100000
abbrev nxCpPort_udpPort : Nat × Nat := (15, 0)
abbrev nxShuttleStat (i j : Nat) : Nat := 0x30003800100 + i * 0x100000 + j * 0x10
abbrev nxShuttleStat_used : Nat × Nat := (10, 0)
abbrev nxShuttleStat_highWater : Nat × Nat := (26, 16)
abbrev nxShuttleStat_drop : Nat × Nat := (63, 32)
abbrev nxShuttlePeek (i j : Nat) : Nat := 0x30003800108 + i * 0x100000 + j * 0x10
abbrev nxShuttlePeek_len : Nat × Nat := (13, 0)
abbrev nxShuttlePeek_pcp : Nat × Nat := (16, 14)
abbrev nxShuttlePeek_valid : Nat × Nat := (63, 63)
abbrev nxFlow (i j : Nat) : Nat := 0x30003800200 + i * 0x100000 + j * 0x10
abbrev nxFlow_en : Nat × Nat := (0, 0)
abbrev nxFlow_vd : Nat × Nat := (1, 1)
abbrev nxFlow_chan : Nat × Nat := (7, 2)
abbrev nxFlow_part : Nat × Nat := (10, 8)
abbrev nxFlow_vlanEn : Nat × Nat := (11, 11)
abbrev nxFlow_vlan : Nat × Nat := (23, 12)
abbrev nxFlow_udpPort : Nat × Nat := (39, 24)
abbrev nxFlowCnt (i j : Nat) : Nat := 0x30003800208 + i * 0x100000 + j * 0x10
abbrev nxFlowCnt_delivered : Nat × Nat := (31, 0)
abbrev nxFlowCnt_ringDrop : Nat × Nat := (63, 32)
abbrev nxQbvCtl (i : Nat) : Nat := 0x30003800600 + i * 0x100000
abbrev nxQbvCtl_en : Nat × Nat := (0, 0)
abbrev nxQbvCtl_lenM1 : Nat × Nat := (8, 1)
abbrev nxQbvCtl_pending : Nat × Nat := (9, 9)
abbrev nxQbvCycle (i : Nat) : Nat := 0x30003800608 + i * 0x100000
abbrev nxQbvCycle_cycleNs : Nat × Nat := (29, 0)
abbrev nxQbvBase (i : Nat) : Nat := 0x30003800610 + i * 0x100000
abbrev nxGcl (i j : Nat) : Nat := 0x30003800800 + i * 0x100000 + j * 0x8
abbrev nxGcl_gates : Nat × Nat := (7, 0)
abbrev nxGcl_intervalNs : Nat × Nat := (39, 8)
abbrev nxFilter (i j : Nat) : Nat := 0x30003801000 + i * 0x100000 + j * 0x10
abbrev nxFilter_en : Nat × Nat := (0, 0)
abbrev nxFilter_vlan : Nat × Nat := (12, 1)
abbrev nxFilter_pcp : Nat × Nat := (15, 13)
abbrev nxFilter_maxSdu : Nat × Nat := (29, 16)
abbrev nxFilter_cirKbps : Nat × Nat := (63, 32)
abbrev nxFilterCnt (i j : Nat) : Nat := 0x30003801008 + i * 0x100000 + j * 0x10
abbrev nxFilterCnt_cbsBytes : Nat × Nat := (31, 0)
abbrev nxFilterCnt_dropped : Nat × Nat := (63, 32)
abbrev nxCbS (i j : Nat) : Nat := 0x30003802000 + i * 0x100000 + j * 0x8
abbrev nxCbS_en : Nat × Nat := (0, 0)
abbrev nxCbS_vlan : Nat × Nat := (12, 1)
abbrev nxCbS_srcMac : Nat × Nat := (60, 13)
abbrev nxCbS_gen : Nat × Nat := (61, 61)

/-! The tb block (R634). -/

abbrev tbId : Nat := 0x30004100000
abbrev tbId_major : Nat × Nat := (7, 0)
abbrev tbId_minor : Nat × Nat := (15, 8)
abbrev tbCtl : Nat := 0x30004100008
abbrev tbCtl_servoEn : Nat × Nat := (0, 0)
abbrev tbCtl_kpShift : Nat × Nat := (5, 1)
abbrev tbCtl_kiShift : Nat × Nat := (10, 6)
abbrev tbCtl_slewShift : Nat × Nat := (14, 11)
abbrev tbCtl_stepMinNs : Nat × Nat := (47, 16)
abbrev tbStatus : Nat := 0x30004100010
abbrev tbStatus_state : Nat × Nat := (1, 0)
abbrev tbStatus_synced : Nat × Nat := (2, 2)
abbrev tbStatus_coarse : Nat × Nat := (3, 3)
abbrev tbNow : Nat := 0x30004100018
abbrev tbTick : Nat := 0x30004100020
abbrev tbRate : Nat := 0x30004100028
abbrev tbAdj : Nat := 0x30004100030
abbrev tbSlewLeft : Nat := 0x30004100038
abbrev tbLastOffset : Nat := 0x30004100040
abbrev tbLastSync : Nat := 0x30004100048

/-! The ea block (R635). -/

abbrev eaId : Nat := 0x30004200000
abbrev eaId_major : Nat × Nat := (7, 0)
abbrev eaId_minor : Nat × Nat := (15, 8)
abbrev eaCtl : Nat := 0x30004200008
abbrev eaCtl_logEn : Nat × Nat := (0, 0)
abbrev eaStatus : Nat := 0x30004200010
abbrev eaStatus_logFull : Nat × Nat := (0, 0)
abbrev eaStatus_logGap : Nat × Nat := (1, 1)
abbrev eaNextSeq : Nat := 0x30004200018
abbrev eaNextSeq_seq : Nat × Nat := (31, 0)
abbrev eaLogBase : Nat := 0x30004200020
abbrev eaLogBase_base : Nat × Nat := (47, 0)
abbrev eaLogBase_log2Entries : Nat × Nat := (52, 48)
abbrev eaLogTail : Nat := 0x30004200028
abbrev eaLogTail_tail : Nat × Nat := (23, 0)
abbrev eaLogHead : Nat := 0x30004200030
abbrev eaLogHead_head : Nat × Nat := (23, 0)
abbrev eaLogLost : Nat := 0x30004200038
abbrev eaLogLost_count : Nat × Nat := (31, 0)
abbrev eaTypeMask : Nat := 0x30004200040
abbrev eaSrcStall : Nat := 0x30004200048
abbrev eaSrcStall_cycles : Nat × Nat := (31, 0)

/-! The line block (R636). -/

abbrev lineId : Nat := 0x30004500000
abbrev lineId_major : Nat × Nat := (7, 0)
abbrev lineId_minor : Nat × Nat := (15, 8)
abbrev lineId_triggers : Nat × Nat := (23, 16)
abbrev lineCtl : Nat := 0x30004500008
abbrev lineCtl_enable : Nat × Nat := (0, 0)
abbrev lineCtl_part : Nat × Nat := (3, 1)
abbrev lineCtl_clearOnRead : Nat × Nat := (4, 4)
abbrev lineCtl_tagEvents : Nat × Nat := (5, 5)
abbrev lineCtl_missEvents : Nat × Nat := (6, 6)
abbrev lineStatus : Nat := 0x30004500010
abbrev lineStatus_clkOn : Nat × Nat := (0, 0)
abbrev lineStatus_answering : Nat × Nat := (1, 1)
abbrev lineDefault : Nat := 0x30004500018
abbrev lineDefault_q : Nat × Nat := (15, 0)
abbrev lineStat : Nat := 0x30004500020
abbrev lineStat_reads : Nat × Nat := (31, 0)
abbrev lineStat_misses : Nat × Nat := (47, 32)
abbrev lineStat_badStrobe : Nat × Nat := (55, 48)
abbrev lineStat_early : Nat × Nat := (63, 56)
abbrev lineLast : Nat := 0x30004500028
abbrev lineLast_tag : Nat × Nat := (15, 0)
abbrev lineLast_q : Nat × Nat := (31, 16)
abbrev lineLast_ack : Nat × Nat := (32, 32)
abbrev lineTrigCfg (i : Nat) : Nat := 0x30004500100 + i * 0x8
abbrev lineTrigCfg_en : Nat × Nat := (0, 0)
abbrev lineTrigCfg_edge : Nat × Nat := (2, 1)
abbrev lineTrigCfg_eventEn : Nat × Nat := (3, 3)
abbrev lineTrigCfg_filterNs : Nat × Nat := (13, 4)
abbrev lineTrigTs : Nat := 0x30004500200
abbrev lineTrigPop : Nat := 0x30004500208
abbrev lineTrigPop_input : Nat × Nat := (3, 0)
abbrev lineTrigPop_rising : Nat × Nat := (4, 4)
abbrev lineTrigPop_valid : Nat × Nat := (63, 63)
abbrev lineTrigStat : Nat := 0x30004500210
abbrev lineTrigStat_glitch : Nat × Nat := (15, 0)
abbrev lineTrigStat_overflow : Nat × Nat := (31, 16)
abbrev lineTrigStat_eventDrop : Nat × Nat := (47, 32)
abbrev lineVerdict (i : Nat) : Nat := 0x30004580000 + i * 0x8
abbrev lineVerdict_q : Nat × Nat := (15, 0)
abbrev lineVerdict_valid : Nat × Nat := (16, 16)
abbrev lineVerdict_read : Nat × Nat := (17, 17)

/-! The wp block (R683). -/

abbrev wpId (i : Nat) : Nat := 0x30003A00000 + i * 0x100000
abbrev wpId_major : Nat × Nat := (7, 0)
abbrev wpId_minor : Nat × Nat := (15, 8)
abbrev wpId_firstLink : Nat × Nat := (18, 16)
abbrev wpId_protoMax : Nat × Nat := (31, 24)
abbrev wpCtl (i : Nat) : Nat := 0x30003A00008 + i * 0x100000
abbrev wpCtl_moduleId : Nat × Nat := (5, 0)
abbrev wpCtl_planEnforce : Nat × Nat := (6, 6)
abbrev wpStatus (i : Nat) : Nat := 0x30003A00010 + i * 0x100000
abbrev wpStatus_role : Nat × Nat := (0, 0)
abbrev wpStatus_pace : Nat × Nat := (1, 1)
abbrev wpStatus_barrierWait : Nat × Nat := (2, 2)
abbrev wpStatus_managerRoute : Nat × Nat := (3, 3)
abbrev wpLanding (i : Nat) : Nat := 0x30003A00018 + i * 0x100000
abbrev wpLanding_used : Nat × Nat := (6, 0)
abbrev wpPart (i j : Nat) : Nat := 0x30003A00100 + i * 0x100000 + j * 0x8
abbrev wpPart_en : Nat × Nat := (0, 0)
abbrev wpPart_inflight : Nat × Nat := (31, 16)
abbrev wpPart_epoch : Nat × Nat := (63, 32)
abbrev wpRoute (i j : Nat) : Nat := 0x30003A00200 + i * 0x100000 + j * 0x8
abbrev wpRoute_link : Nat × Nat := (2, 0)
abbrev wpRoute_valid : Nat × Nat := (3, 3)
abbrev wpLinkCtl (i j : Nat) : Nat := 0x30003A01000 + i * 0x100000 + j * 0x80
abbrev wpLinkCtl_en : Nat × Nat := (0, 0)
abbrev wpLinkCtl_pair : Nat × Nat := (1, 1)
abbrev wpLinkCtl_retrain : Nat × Nat := (2, 2)
abbrev wpLinkCtl_recal : Nat × Nat := (3, 3)
abbrev wpLinkCtl_lossMax : Nat × Nat := (15, 8)
abbrev wpLinkStatus (i j : Nat) : Nat := 0x30003A01008 + i * 0x100000 + j * 0x80
abbrev wpLinkStatus_state : Nat × Nat := (2, 0)
abbrev wpLinkStatus_cause : Nat × Nat := (6, 3)
abbrev wpLinkStatus_verMaj : Nat × Nat := (15, 8)
abbrev wpLinkStatus_verMin : Nat × Nat := (23, 16)
abbrev wpLinkStatus_miswired : Nat × Nat := (24, 24)
abbrev wpLinkStatus_lossHigh : Nat × Nat := (25, 25)
abbrev wpLinkStatus_calSkipped : Nat × Nat := (26, 26)
abbrev wpPlan (i j : Nat) : Nat := 0x30003A01010 + i * 0x100000 + j * 0x80
abbrev wpPlan_valid : Nat × Nat := (0, 0)
abbrev wpPlan_farModule : Nat × Nat := (6, 1)
abbrev wpPlan_farLink : Nat × Nat := (9, 7)
abbrev wpPlan_farSlot : Nat × Nat := (15, 10)
abbrev wpFarId (i j : Nat) : Nat := 0x30003A01018 + i * 0x100000 + j * 0x80
abbrev wpFarInfo (i j : Nat) : Nat := 0x30003A01020 + i * 0x100000 + j * 0x80
abbrev wpFarInfo_module : Nat × Nat := (5, 0)
abbrev wpFarInfo_link : Nat × Nat := (8, 6)
abbrev wpFarInfo_slot : Nat × Nat := (14, 9)
abbrev wpFarInfo_role : Nat × Nat := (15, 15)
abbrev wpFarInfo_fabric : Nat × Nat := (39, 16)
abbrev wpOptics (i j : Nat) : Nat := 0x30003A01028 + i * 0x100000 + j * 0x80
abbrev wpOptics_rx0 : Nat × Nat := (15, 0)
abbrev wpOptics_rx1 : Nat × Nat := (31, 16)
abbrev wpOptics_tx0 : Nat × Nat := (47, 32)
abbrev wpOptics_tx1 : Nat × Nat := (63, 48)
abbrev wpLoss (i j : Nat) : Nat := 0x30003A01030 + i * 0x100000 + j * 0x80
abbrev wpLoss_farTx0 : Nat × Nat := (15, 0)
abbrev wpLoss_farTx1 : Nat × Nat := (31, 16)
abbrev wpLoss_loss0 : Nat × Nat := (39, 32)
abbrev wpLoss_loss1 : Nat × Nat := (47, 40)
abbrev wpFec (i j : Nat) : Nat := 0x30003A01038 + i * 0x100000 + j * 0x80
abbrev wpFec_corrected : Nat × Nat := (31, 0)
abbrev wpFec_uncorrected : Nat × Nat := (63, 32)
abbrev wpCrypt (i j : Nat) : Nat := 0x30003A01040 + i * 0x100000 + j * 0x80
abbrev wpCrypt_epoch : Nat × Nat := (31, 0)
abbrev wpTxCtr (i j : Nat) : Nat := 0x30003A01048 + i * 0x100000 + j * 0x80
abbrev wpRxCtr (i j : Nat) : Nat := 0x30003A01050 + i * 0x100000 + j * 0x80
abbrev wpDrop (i j : Nat) : Nat := 0x30003A01058 + i * 0x100000 + j * 0x80
abbrev wpDrop_authFail : Nat × Nat := (15, 0)
abbrev wpDrop_teardownDrop : Nat × Nat := (31, 16)
abbrev wpDrop_retry : Nat × Nat := (63, 32)
abbrev wpBarrierCtl : Nat := 0x30003A02000
abbrev wpBarrierCtl_timeoutUs : Nat × Nat := (31, 0)
abbrev wpRcqBase : Nat := 0x30003A02008
abbrev wpRcqBase_base : Nat × Nat := (47, 0)
abbrev wpRcqBase_log2Entries : Nat × Nat := (52, 48)
abbrev wpRcqTail : Nat := 0x30003A02010
abbrev wpRcqTail_tail : Nat × Nat := (19, 0)
abbrev wpRcqHead : Nat := 0x30003A02018
abbrev wpRcqHead_head : Nat × Nat := (19, 0)
abbrev wpSkew (i : Nat) : Nat := 0x30003A03000 + i * 0x10
abbrev wpSkew_lastNs : Nat × Nat := (31, 0)
abbrev wpSkew_pace : Nat × Nat := (32, 32)
abbrev wpSkew_coarse : Nat × Nat := (33, 33)
abbrev wpSkewMax (i : Nat) : Nat := 0x30003A03008 + i * 0x10
abbrev wpSkewMax_maxNs : Nat × Nat := (31, 0)
abbrev wpSkewMax_paceCount : Nat × Nat := (63, 32)

/-! The pair block (R722). -/

abbrev pairCtl : Nat := 0x30003A04000
abbrev pairCtl_en : Nat × Nat := (0, 0)
abbrev pairCtl_preferActive : Nat × Nat := (1, 1)
abbrev pairCtl_swapReq : Nat × Nat := (2, 2)
abbrev pairCtl_joinFinalMib : Nat × Nat := (39, 8)
abbrev pairCtl_swapPeriodH : Nat × Nat := (55, 40)
abbrev pairStatus : Nat := 0x30003A04008
abbrev pairStatus_state : Nat × Nat := (2, 0)
abbrev pairStatus_leaseHeld : Nat × Nat := (3, 3)
abbrev pairStatus_degraded : Nat × Nat := (4, 4)
abbrev pairStatus_joinPhase : Nat × Nat := (10, 8)
abbrev pairStatus_cause : Nat × Nat := (15, 12)
abbrev pairEpoch : Nat := 0x30003A04010
abbrev pairEpoch_epoch : Nat × Nat := (31, 0)
abbrev pairHeartbeat : Nat := 0x30003A04018
abbrev pairLeaseLeft : Nat := 0x30003A04020
abbrev pairLeaseLeft_ticks : Nat × Nat := (31, 0)
abbrev pairLag : Nat := 0x30003A04028
abbrev pairLag_lagUs : Nat × Nat := (31, 0)
abbrev pairLag_highWaterUs : Nat × Nat := (63, 32)
abbrev pairLagMax : Nat := 0x30003A04030
abbrev pairLagMax_us : Nat × Nat := (31, 0)
abbrev pairSwapAt : Nat := 0x30003A04038
abbrev pairCounts : Nat := 0x30003A04040
abbrev pairCounts_takeovers : Nat × Nat := (15, 0)
abbrev pairCounts_swaps : Nat × Nat := (31, 16)
abbrev pairCounts_renewMiss : Nat × Nat := (63, 32)
abbrev pairMleaseDrop : Nat := 0x30003A04048
abbrev pairMleaseDrop_count : Nat × Nat := (31, 0)

/-! The pm block (R755). -/

abbrev pmId : Nat := 0x30003F00000
abbrev pmId_major : Nat × Nat := (7, 0)
abbrev pmId_minor : Nat × Nat := (15, 8)
abbrev pmId_points : Nat × Nat := (19, 16)
abbrev pmStatus : Nat := 0x30003F00008
abbrev pmStatus_capLag : Nat × Nat := (0, 0)
abbrev pmStatus_lease : Nat × Nat := (1, 1)
abbrev pmStatus_shelfWarn : Nat × Nat := (2, 2)
abbrev pmStatus_coolantWarn : Nat × Nat := (3, 3)
abbrev pmStatus_alert : Nat × Nat := (4, 4)
abbrev pmStatus_coolantHot : Nat × Nat := (5, 5)
abbrev pmStatus_capFloor : Nat × Nat := (6, 6)
abbrev pmStatus_stretching : Nat × Nat := (7, 7)
abbrev pmStatus_lld : Nat × Nat := (9, 8)
abbrev pmStatus_cause : Nat × Nat := (23, 16)
abbrev pmOp : Nat := 0x30003F00010
abbrev pmOp_current : Nat × Nat := (2, 0)
abbrev pmOp_requested : Nat × Nat := (6, 4)
abbrev pmOp_granted : Nat × Nat := (10, 8)
abbrev pmOp_stepping : Nat × Nat := (11, 11)
abbrev pmCap : Nat := 0x30003F00018
abbrev pmCap_leaseW : Nat × Nat := (15, 0)
abbrev pmCap_leaseLeftMs : Nat × Nat := (31, 16)
abbrev pmCap_swCapW : Nat × Nat := (47, 32)
abbrev pmCap_fallbackW : Nat × Nat := (63, 48)
abbrev pmSlope : Nat := 0x30003F00020
abbrev pmSlope_downWPerMs : Nat × Nat := (15, 0)
abbrev pmSlope_upWPerMs : Nat × Nat := (31, 16)
abbrev pmCapLag : Nat := 0x30003F00028
abbrev pmCapLag_lagW : Nat × Nat := (15, 0)
abbrev pmCapLag_maxLagW : Nat × Nat := (31, 16)
abbrev pmCapLag_count : Nat × Nat := (63, 32)
abbrev pmPower : Nat := 0x30003F00030
abbrev pmPower_pmDw : Nat × Nat := (15, 0)
abbrev pmPower_vinMv : Nat × Nat := (31, 16)
abbrev pmPower_peakDw : Nat × Nat := (47, 32)
abbrev pmThermal : Nat := 0x30003F00038
abbrev pmThermal_junctionC : Nat × Nat := (7, 0)
abbrev pmThermal_coolantC : Nat × Nat := (15, 8)
abbrev pmThermal_junctionMaxC : Nat × Nat := (23, 16)
abbrev pmThermCtl : Nat := 0x30003F00040
abbrev pmThermCtl_throttleC : Nat × Nat := (7, 0)
abbrev pmThermCtl_hystC : Nat × Nat := (11, 8)
abbrev pmDroop : Nat := 0x30003F00048
abbrev pmDroop_events : Nat × Nat := (31, 0)
abbrev pmDroop_stretched : Nat × Nat := (63, 32)
abbrev pmLoopCtl : Nat := 0x30003F00050
abbrev pmLoopCtl_windowUs : Nat × Nat := (15, 0)
abbrev pmLoopCtl_low : Nat × Nat := (23, 16)
abbrev pmLoopCtl_high : Nat × Nat := (31, 24)
abbrev pmAlertCount : Nat := 0x30003F00058
abbrev pmAlertCount_count : Nat × Nat := (31, 0)
abbrev pmOpTable (i : Nat) : Nat := 0x30003F00100 + i * 0x8
abbrev pmOpTable_freqMhz : Nat × Nat := (11, 0)
abbrev pmOpTable_mv : Nat × Nat := (23, 12)
abbrev pmOpTable_budgetDw : Nat × Nat := (39, 24)
abbrev pmPhase (i : Nat) : Nat := 0x30003F00200 + i * 0x10
abbrev pmPhase_pref : Nat × Nat := (2, 0)
abbrev pmPhase_floor : Nat × Nat := (6, 4)
abbrev pmPhase_ceil : Nat × Nat := (10, 8)
abbrev pmPhase_pin : Nat × Nat := (11, 11)
abbrev pmPhaseState (i : Nat) : Nat := 0x30003F00208 + i * 0x10
abbrev pmPhaseState_value : Nat × Nat := (2, 0)
abbrev pmPhaseState_stations : Nat × Nat := (14, 8)
abbrev pmPhaseState_clash : Nat × Nat := (63, 32)
abbrev pmStationPhase (i : Nat) : Nat := 0x30003F00300 + i * 0x8

/-! The thimble block (R786). -/

abbrev thimbleId : Nat := 0x30004600000
abbrev thimbleId_major : Nat × Nat := (7, 0)
abbrev thimbleId_minor : Nat × Nat := (15, 8)
abbrev thimbleId_retKib : Nat × Nat := (23, 16)
abbrev thimbleSleepCtl : Nat := 0x30004600008
abbrev thimbleSleepCtl_target : Nat × Nat := (1, 0)
abbrev thimbleSleepCtl_req : Nat × Nat := (8, 8)
abbrev thimbleSleepStatus : Nat := 0x30004600010
abbrev thimbleSleepStatus_state : Nat × Nat := (2, 0)
abbrev thimbleSleepStatus_result : Nat × Nat := (10, 8)
abbrev thimbleSleepStatus_cause : Nat × Nat := (15, 12)
abbrev thimbleSleepStatus_wakeSrc : Nat × Nat := (31, 16)
abbrev thimbleWakeCfg : Nat := 0x30004600018
abbrev thimbleWakeCfg_pin : Nat × Nat := (31, 0)
abbrev thimbleWakeStatus : Nat := 0x30004600020
abbrev thimbleWakeStatus_level : Nat × Nat := (7, 0)
abbrev thimbleWakeStatus_fired : Nat × Nat := (15, 8)
abbrev thimbleWakeCtl : Nat := 0x30004600028
abbrev thimbleWakeCtl_netEn : Nat × Nat := (0, 0)
abbrev thimbleWakeCtl_trigEn : Nat × Nat := (1, 1)
abbrev thimbleWakeCtl_mctpEn : Nat × Nat := (2, 2)
abbrev thimbleWakeCtl_alarmEn : Nat × Nat := (3, 3)
abbrev thimbleAlarm : Nat := 0x30004600030
abbrev thimbleWatchCtl : Nat := 0x30004600038
abbrev thimbleWatchCtl_period : Nat × Nat := (15, 0)
abbrev thimbleWatchCtl_matchCount : Nat × Nat := (19, 16)
abbrev thimbleWatchCtl_coolEn : Nat × Nat := (20, 20)
abbrev thimbleWatchCtl_trigMask : Nat × Nat := (47, 32)
abbrev thimbleWatchCtl_trigPol : Nat × Nat := (63, 48)
abbrev thimbleWatchCool : Nat := 0x30004600040
abbrev thimbleWatchCool_hiC : Nat × Nat := (7, 0)
abbrev thimbleWatchCool_loC : Nat × Nat := (15, 8)
abbrev thimbleWatchLast : Nat := 0x30004600048
abbrev thimbleWatchLast_trig : Nat × Nat := (15, 0)
abbrev thimbleWatchLast_coolantC : Nat × Nat := (23, 16)
abbrev thimbleWatchLast_samples : Nat × Nat := (63, 32)
abbrev thimbleRestoreCtl : Nat := 0x30004600050
abbrev thimbleRestoreCtl_count : Nat × Nat := (11, 0)
abbrev thimbleSelvage : Nat := 0x30004600058
abbrev thimbleSelvage_held : Nat × Nat := (5, 0)
abbrev thimbleSelvage_release : Nat × Nat := (13, 8)
abbrev thimbleTicks : Nat := 0x30004600060
abbrev thimbleTicks_count : Nat × Nat := (47, 0)
abbrev thimbleRestoreAddr (i : Nat) : Nat := 0x30004601000 + i * 0x10
abbrev thimbleRestoreAddr_addr : Nat × Nat := (47, 0)
abbrev thimbleRestoreVal (i : Nat) : Nat := 0x30004601008 + i * 0x10

/-! The gn block (R816). -/

abbrev gnId : Nat := 0x30003D00000
abbrev gnId_major : Nat × Nat := (7, 0)
abbrev gnId_minor : Nat × Nat := (15, 8)
abbrev gnId_parts : Nat × Nat := (19, 16)
abbrev gnId_slots : Nat × Nat := (24, 20)
abbrev gnId_fipsLevel : Nat × Nat := (27, 25)
abbrev gnStatus : Nat := 0x30003D00008
abbrev gnStatus_state : Nat × Nat := (2, 0)
abbrev gnStatus_approved : Nat × Nat := (3, 3)
abbrev gnStatus_rootRetained : Nat × Nat := (4, 4)
abbrev gnStatus_tampered : Nat × Nat := (5, 5)
abbrev gnStatus_factoryMode : Nat × Nat := (6, 6)
abbrev gnStatus_failTest : Nat × Nat := (15, 8)
abbrev gnCtl : Nat := 0x30003D00010
abbrev gnCtl_selftest : Nat × Nat := (0, 0)
abbrev gnCtl_zeroise : Nat × Nat := (15, 8)
abbrev gnSelftest : Nat := 0x30003D00018
abbrev gnSelftest_pass : Nat × Nat := (8, 0)
abbrev gnSelftest_runs : Nat × Nat := (31, 16)
abbrev gnTamper : Nat := 0x30003D00020
abbrev gnTamper_source : Nat × Nat := (3, 0)
abbrev gnTamper_count : Nat × Nat := (47, 32)
abbrev gnAttestReq : Nat := 0x30003D00028
abbrev gnAttestReq_addr : Nat × Nat := (47, 0)
abbrev gnAttestStatus : Nat := 0x30003D00030
abbrev gnAttestStatus_queued : Nat × Nat := (3, 0)
abbrev gnAttestStatus_overflow : Nat × Nat := (4, 4)
abbrev gnAttestStatus_issued : Nat × Nat := (63, 32)
abbrev gnMeas (i j : Nat) : Nat := 0x30003D00040 + i * 0x20 + j * 0x8
abbrev gnMeasExtend : Nat := 0x30003D00140
abbrev gnMeasExtend_addr : Nat × Nat := (47, 0)
abbrev gnMeasExtend_part : Nat × Nat := (50, 48)
abbrev gnPartCfg : Nat := 0x30003D08000
abbrev gnPartCfg_mode : Nat × Nat := (0, 0)
abbrev gnPartCfg_err : Nat × Nat := (8, 8)
abbrev gnTeardownDrop : Nat := 0x30003D08008
abbrev gnTeardownDrop_count : Nat × Nat := (31, 0)
abbrev gnPartCtl (i : Nat) : Nat := 0x30003D08100 + i * 0x40
abbrev gnPartCtl_valid : Nat × Nat := (0, 0)
abbrev gnPartCtl_confidential : Nat × Nat := (1, 1)
abbrev gnPartCtl_teardown : Nat × Nat := (2, 2)
abbrev gnPartCtl_state : Nat × Nat := (5, 3)
abbrev gnPartCtl_fencedStragglers : Nat × Nat := (6, 6)
abbrev gnPartStations (i : Nat) : Nat := 0x30003D08108 + i * 0x40
abbrev gnPartStations_stations : Nat × Nat := (60, 0)
abbrev gnPartInflight (i : Nat) : Nat := 0x30003D08110 + i * 0x40
abbrev gnPartInflight_memory : Nat × Nat := (15, 0)
abbrev gnPartInflight_seam : Nat × Nat := (31, 16)
abbrev gnPartInflight_warp : Nat × Nat := (47, 32)
abbrev gnPartTokenLo (i : Nat) : Nat := 0x30003D08118 + i * 0x40
abbrev gnPartTokenHi (i : Nat) : Nat := 0x30003D08120 + i * 0x40
abbrev gnPartHarts (i : Nat) : Nat := 0x30003D08128 + i * 0x40
abbrev gnPartHarts_harts : Nat × Nat := (15, 0)
abbrev gnPartTdTime (i : Nat) : Nat := 0x30003D08130 + i * 0x40
abbrev gnPartTdTime_drainNs : Nat × Nat := (31, 0)

/-! The fc block (R842). -/

abbrev fcId : Nat := 0x30003E00000
abbrev fcId_major : Nat × Nat := (7, 0)
abbrev fcId_minor : Nat × Nat := (15, 8)
abbrev fcId_sources : Nat × Nat := (24, 16)
abbrev fcCtl : Nat := 0x30003E00008
abbrev fcCtl_dumpOnSafe : Nat × Nat := (0, 0)
abbrev fcCtl_safeReq : Nat × Nat := (1, 1)
abbrev fcSummary : Nat := 0x30003E00010
abbrev fcSummary_safe : Nat × Nat := (0, 0)
abbrev fcSummary_safeCause : Nat × Nat := (3, 1)
abbrev fcSummary_degraded : Nat × Nat := (4, 4)
abbrev fcSummary_testBusy : Nat × Nat := (5, 5)
abbrev fcSummary_faultNLow : Nat × Nat := (6, 6)
abbrev fcSummary_safeSrc : Nat × Nat := (15, 8)
abbrev fcFirst : Nat := 0x30003E00018
abbrev fcFirst_source : Nat × Nat := (7, 0)
abbrev fcFirst_level : Nat × Nat := (9, 8)
abbrev fcFirst_valid : Nat × Nat := (15, 15)
abbrev fcFirst_eaSeq : Nat × Nat := (47, 16)
abbrev fcCount : Nat := 0x30003E00020
abbrev fcCount_logged : Nat × Nat := (31, 0)
abbrev fcCount_contained : Nat × Nat := (47, 32)
abbrev fcCount_fenced : Nat × Nat := (63, 48)
abbrev fcRepeat : Nat := 0x30003E00028
abbrev fcRepeat_max : Nat × Nat := (3, 0)
abbrev fcRepeat_windowS : Nat × Nat := (31, 16)
abbrev fcTestCtl : Nat := 0x30003E00030
abbrev fcTestCtl_en : Nat × Nat := (0, 0)
abbrev fcTestCtl_periodH : Nat × Nat := (8, 1)
abbrev fcTestCtl_lodeCalS : Nat × Nat := (31, 16)
abbrev fcTestReq : Nat := 0x30003E00038
abbrev fcTestReq_unit : Nat × Nat := (5, 0)
abbrev fcTestStatus : Nat := 0x30003E00040
abbrev fcTestStatus_busy : Nat × Nat := (0, 0)
abbrev fcTestStatus_unit : Nat × Nat := (6, 1)
abbrev fcTestStatus_refused : Nat × Nat := (7, 7)
abbrev fcTestStatus_lastUnit : Nat × Nat := (13, 8)
abbrev fcTestStatus_lastResult : Nat × Nat := (15, 14)
abbrev fcTestStatus_tests : Nat × Nat := (63, 32)
abbrev fcRetired : Nat := 0x30003E00048
abbrev fcRetired_ce : Nat × Nat := (31, 0)
abbrev fcRetired_de : Nat × Nat := (47, 32)
abbrev fcInject : Nat := 0x30003E00050
abbrev fcInject_source : Nat × Nat := (7, 0)
abbrev fcInject_class : Nat × Nat := (9, 8)
abbrev fcStatus (i : Nat) : Nat := 0x30003E00100 + i * 0x8
abbrev fcSev (i : Nat) : Nat := 0x30003E00200 + i * 0x8
abbrev fcLevel (i : Nat) : Nat := 0x30003E00300 + i * 0x8

/-! The dbg block (R879). -/

abbrev dbgCntCtl (i : Nat) : Nat := 0x3000000C000 + i * 0x100000
abbrev dbgCntCtl_en : Nat × Nat := (0, 0)
abbrev dbgCntCtl_sampleEn : Nat × Nat := (1, 1)
abbrev dbgCntCtl_part : Nat × Nat := (4, 2)
abbrev dbgCntCtl_clear : Nat × Nat := (5, 5)
abbrev dbgCntSel (i j : Nat) : Nat := 0x3000000C008 + i * 0x100000 + j * 0x8
abbrev dbgCntSel_event : Nat × Nat := (4, 0)
abbrev dbgCntSel_filter : Nat × Nat := (6, 5)
abbrev dbgCntSel_layerId : Nat × Nat := (31, 16)
abbrev dbgCntSel_opId : Nat × Nat := (47, 32)
abbrev dbgCnt (i j : Nat) : Nat := 0x3000000C048 + i * 0x100000 + j * 0x8
abbrev dbgCnt_value : Nat × Nat := (47, 0)
abbrev dbgTrcCtl (i : Nat) : Nat := 0x3000000C088 + i * 0x100000
abbrev dbgTrcCtl_en : Nat × Nat := (0, 0)
abbrev dbgTrcCtl_mode : Nat × Nat := (1, 1)
abbrev dbgTrcCtl_types : Nat × Nat := (31, 16)
abbrev dbgTrcStatus (i : Nat) : Nat := 0x3000000C090 + i * 0x100000
abbrev dbgTrcStatus_fill : Nat × Nat := (8, 0)
abbrev dbgTrcStatus_dropped : Nat × Nat := (31, 16)
abbrev dbgTrcStatus_stall : Nat × Nat := (63, 32)
abbrev dbgTrcMark (i : Nat) : Nat := 0x3000000C098 + i * 0x100000

/-! The ftdbg block (R880). -/

abbrev dbgId : Nat := 0x30003E08000
abbrev dbgId_major : Nat × Nat := (7, 0)
abbrev dbgId_minor : Nat × Nat := (15, 8)
abbrev dbgSmpCtl : Nat := 0x30003E08008
abbrev dbgSmpCtl_en : Nat × Nat := (0, 0)
abbrev dbgSmpCtl_intervalUs : Nat × Nat := (31, 8)
abbrev dbgDumpCtl : Nat := 0x30003E08010
abbrev dbgDumpCtl_dumpSram : Nat × Nat := (0, 0)
abbrev dbgDumpCtl_autoWarm : Nat × Nat := (1, 1)
abbrev dbgDumpCtl_overwrite : Nat × Nat := (2, 2)
abbrev dbgDumpCtl_req : Nat × Nat := (3, 3)
abbrev dbgDumpBase : Nat := 0x30003E08018
abbrev dbgDumpBase_base : Nat × Nat := (47, 0)
abbrev dbgDumpSize : Nat := 0x30003E08020
abbrev dbgDumpSize_mib : Nat × Nat := (15, 0)
abbrev dbgDumpStatus : Nat := 0x30003E08028
abbrev dbgDumpStatus_valid : Nat × Nat := (0, 0)
abbrev dbgDumpStatus_busy : Nat × Nat := (1, 1)
abbrev dbgDumpStatus_truncated : Nat × Nat := (2, 2)
abbrev dbgDumpStatus_skipped : Nat × Nat := (3, 3)
abbrev dbgDumpStatus_headerOnly : Nat × Nat := (4, 4)
abbrev dbgDumpStatus_trigger : Nat × Nat := (9, 8)
abbrev dbgDumpStatus_kib : Nat × Nat := (63, 32)
abbrev dbgStopTick : Nat := 0x30003E08030
abbrev dbgTrcBase (i : Nat) : Nat := 0x30003E08100 + i * 0x40
abbrev dbgTrcBase_base : Nat × Nat := (47, 0)
abbrev dbgTrcBase_log2Entries : Nat × Nat := (52, 48)
abbrev dbgSmpBase (i : Nat) : Nat := 0x30003E08108 + i * 0x40
abbrev dbgSmpBase_base : Nat × Nat := (47, 0)
abbrev dbgSmpBase_log2Entries : Nat × Nat := (52, 48)
abbrev dbgRingTail (i : Nat) : Nat := 0x30003E08110 + i * 0x40
abbrev dbgRingTail_trc : Nat × Nat := (23, 0)
abbrev dbgRingTail_smp : Nat × Nat := (55, 32)
abbrev dbgRingHead (i : Nat) : Nat := 0x30003E08118 + i * 0x40
abbrev dbgRingHead_trc : Nat × Nat := (23, 0)
abbrev dbgRingHead_smp : Nat × Nat := (55, 32)
abbrev dbgRingLost (i : Nat) : Nat := 0x30003E08120 + i * 0x40
abbrev dbgRingLost_smp : Nat × Nat := (31, 0)
abbrev dbgGcntSel (i : Nat) : Nat := 0x30003E08400 + i * 0x8
abbrev dbgGcntSel_event : Nat × Nat := (4, 0)
abbrev dbgGcntSel_index : Nat × Nat := (15, 8)
abbrev dbgGcnt (i : Nat) : Nat := 0x30003E08600 + i * 0x8
abbrev dbgGcnt_value : Nat × Nat := (47, 0)
abbrev dbgWdCtl (i : Nat) : Nat := 0x30003E08800 + i * 0x10
abbrev dbgWdCtl_en : Nat × Nat := (0, 0)
abbrev dbgWdCtl_timeoutMs : Nat × Nat := (23, 8)
abbrev dbgWdCtl_warnMs : Nat × Nat := (39, 24)
abbrev dbgWdCtl_kickMask : Nat × Nat := (47, 40)
abbrev dbgWdKick (i : Nat) : Nat := 0x30003E08808 + i * 0x10
abbrev dbgWdStatus : Nat := 0x30003E08880
abbrev dbgWdStatus_expired : Nat × Nat := (3, 0)
abbrev dbgWdStatus_warned : Nat × Nat := (7, 4)
abbrev dbgWdStatus_late : Nat × Nat := (15, 8)

/-! The cfg block (R911). -/

abbrev cfgId : Nat := 0x30004700000
abbrev cfgId_major : Nat × Nat := (7, 0)
abbrev cfgId_minor : Nat × Nat := (15, 8)
abbrev cfgId_storeMib : Nat × Nat := (31, 16)
abbrev cfgStartCtl : Nat := 0x30004700008
abbrev cfgStartCtl_warmReq : Nat × Nat := (0, 0)
abbrev cfgStartCtl_coldReq : Nat × Nat := (1, 1)
abbrev cfgStartCtl_confirm : Nat × Nat := (2, 2)
abbrev cfgStartStatus : Nat := 0x30004700010
abbrev cfgStartStatus_ready : Nat × Nat := (0, 0)
abbrev cfgStartStatus_kind : Nat × Nat := (1, 1)
abbrev cfgStartStatus_cause : Nat × Nat := (5, 2)
abbrev cfgStartStatus_image : Nat × Nat := (6, 6)
abbrev cfgStartStatus_trial : Nat × Nat := (7, 7)
abbrev cfgStartStatus_rolledBack : Nat × Nat := (8, 8)
abbrev cfgStartStatus_stageRejected : Nat × Nat := (9, 9)
abbrev cfgStartStatus_activationLost : Nat × Nat := (10, 10)
abbrev cfgStartStatus_startCount : Nat × Nat := (63, 32)
abbrev cfgStartSkip : Nat := 0x30004700018
abbrev cfgStartSkip_steps : Nat × Nat := (4, 0)
abbrev cfgStartTime : Nat := 0x30004700020
abbrev cfgStartTime_ms : Nat × Nat := (31, 0)
abbrev cfgStartTime_copyMs : Nat × Nat := (63, 32)
abbrev cfgImage : Nat := 0x30004700028
abbrev cfgImage_active : Nat × Nat := (31, 0)
abbrev cfgImage_fallback : Nat × Nat := (63, 32)
abbrev cfgStageStatus : Nat := 0x30004700030
abbrev cfgStageStatus_state : Nat × Nat := (2, 0)
abbrev cfgStageStatus_result : Nat × Nat := (15, 8)
abbrev cfgStageStatus_blocks : Nat × Nat := (29, 16)
abbrev cfgStageImage : Nat := 0x30004700038
abbrev cfgStageImage_version : Nat × Nat := (31, 0)
abbrev cfgStageImage_length : Nat × Nat := (63, 32)
abbrev cfgActivateAt : Nat := 0x30004700040
abbrev cfgTrialLeft : Nat := 0x30004700048
abbrev cfgTrialLeft_ms : Nat × Nat := (31, 0)
abbrev cfgSettingsStatus : Nat := 0x30004700050
abbrev cfgSettingsStatus_slot : Nat × Nat := (0, 0)
abbrev cfgSettingsStatus_formatMaj : Nat × Nat := (15, 8)
abbrev cfgSettingsStatus_formatMin : Nat × Nat := (23, 16)
abbrev cfgSettingsStatus_allReset : Nat × Nat := (24, 24)
abbrev cfgSettingsStatus_newer : Nat × Nat := (25, 25)
abbrev cfgSettingsStatus_seq : Nat × Nat := (63, 32)
abbrev cfgSettingsReset : Nat := 0x30004700058
abbrev cfgStoreErr : Nat := 0x30004700060
abbrev cfgStoreErr_readRetry : Nat × Nat := (15, 0)
abbrev cfgStoreErr_programFail : Nat × Nat := (31, 16)
abbrev cfgStoreErr_dev0Fail : Nat × Nat := (32, 32)
abbrev cfgStoreErr_dev1Fail : Nat × Nat := (33, 33)

end Sys2Proof.Machine.A
end

