-- ==== Sys2Proof/Machine/Ops.lean ====
section
/-! DEFINITION. The named operations over registers, memory, events, traces, counters and partitions that every
command's meaning is built from. -/

namespace Sys2Proof

/-! ### Bit fields -/

/-- `n` with bits `hi:lo` replaced by `v`. -/
def setFld (n hi lo v : Nat) : Nat :=
  n - (fld n hi lo <<< lo) + ((v % 2 ^ (hi + 1 - lo)) <<< lo)

/-- The little-endian number of a byte list. -/
def leNat : List Byte → Nat
  | [] => 0
  | b :: r => b.toNat + 256 * leNat r

/-- The `k` little-endian bytes of a number. -/
def leBytes (k n : Nat) : List Byte := (List.range k).map fun i => BitVec.ofNat 8 (n / 256 ^ i)

/-- A quotient rounded up. -/
def ceilDiv (a b : Nat) : Nat := (a + b - 1) / b

/-- A number no greater than the largest of `w` bits: a counter that saturates. -/
def satTo (w n : Nat) : Nat := min n (2 ^ w - 1)

/-! ### Descriptors (R62, Table 1-4) -/

def Desc.opcode (d : Desc) : Nat := fld d.w0.toNat 7 0
def Desc.part (d : Desc) : Nat := fld d.w0.toNat 10 8
def Desc.cls (d : Desc) : Nat := fld d.w0.toNat 15 12
def Desc.lstation (d : Desc) : Nat := fld d.w0.toNat 23 16
def Desc.extOpb (d : Desc) : Bool := bitAt d.w0.toNat 24
def Desc.quiet (d : Desc) : Bool := bitAt d.w0.toNat 25
def Desc.layerId (d : Desc) : Nat := fld d.w0.toNat 47 32
def Desc.opId (d : Desc) : Nat := fld d.w0.toNat 63 48
def Desc.cmdSeq (d : Desc) : Nat := fld d.w1.toNat 47 0
def Desc.group (d : Desc) : Nat := fld d.w1.toNat 63 48
def Desc.inStream (d : Desc) (i : Nat) : Nat := fld d.w2.toNat (16 * i + 15) (16 * i)
def Desc.outStream (d : Desc) (i : Nat) : Nat := fld d.w3.toNat (16 * i + 15) (16 * i)
def Desc.ncons (d : Desc) (i : Nat) : Nat := fld d.w3.toNat (35 + 4 * i) (32 + 4 * i)
def Desc.opbAddr (d : Desc) : Nat := fld d.w4.toNat 47 0
def Desc.opbLen (d : Desc) : Nat := fld d.w5.toNat 11 0
/-- Words 4 to 7 as one number: the inline operand block. -/
def Desc.inlineOpb (d : Desc) : Nat :=
  d.w4.toNat + d.w5.toNat * 2 ^ 64 + d.w6.toNat * 2 ^ 128 + d.w7.toNat * 2 ^ 192

/-- The descriptor that 64 bytes of memory hold. -/
def Desc.ofBytes (bs : List Byte) : Desc :=
  let w (i : Nat) : W64 := BitVec.ofNat 64 (leNat ((bs.drop (8 * i)).take 8))
  { w0 := w 0, w1 := w 1, w2 := w 2, w3 := w 3, w4 := w 4, w5 := w 5, w6 := w 6, w7 := w 7 }

/-- Firmware, or software of partition `p`. -/
def Who.isPart (w : Who) (p : Nat) : Bool := match w with | .firmware => false | .part q => p == q

/-- The module firmware. -/
def Who.isFw (w : Who) : Bool := match w with | .firmware => true | .part _ => false

end Sys2Proof

namespace Sys2Proof.Machine

open Sys2Proof

/-- The outcome of a command that has an effect. -/
abbrev Out := Host.Outcome State Fault Refusal

/-! ### Tables -/

/-- The entry of a table at an index. -/
def tget {α : Type} : Tab α → Nat → Option α
  | [], _ => none
  | (i, a) :: r, k => if i = k then some a else tget r k

/-- A table with the entry at an index replaced or added, indices rising. -/
def tset {α : Type} : Tab α → Nat → α → Tab α
  | [], k, v => [(k, v)]
  | (i, a) :: r, k, v => if k < i then (k, v) :: (i, a) :: r else if k = i then (k, v) :: r else (i, a) :: tset r k v

/-- A table without the entry at an index. -/
def tdel {α : Type} : Tab α → Nat → Tab α
  | [], _ => []
  | (i, a) :: r, k => if i = k then tdel r k else (i, a) :: tdel r k

/-- The entry of a table, or a default. -/
def tgetD {α : Type} (t : Tab α) (k : Nat) (d : α) : α := (tget t k).getD d

/-! ### The register file -/

/-- The index of an address in a register array, if it lies there. -/
def RegDef.hit (d : RegDef) (a : Nat) : Option (Nat × Nat) :=
  if a < d.base then none
  else
    let o := a - d.base
    let i := o / d.s1
    let q := o % d.s1
    if i < d.n1 ∧ q % d.s2 = 0 ∧ q / d.s2 < d.n2 then some (i, q / d.s2) else none

/-- The index that a reset value depends on: the inner one of two dimensions. -/
def RegDef.index (d : RegDef) (ij : Nat × Nat) : Nat := if d.n2 = 1 then ij.1 else ij.2

/-- The register of a list of definitions that an address names, with its indices. -/
def findIn : List RegDef → Nat → Option (RegDef × Nat × Nat)
  | [], _ => none
  | d :: r, a =>
    match d.hit a with
    | some ij => some (d, ij)
    | none => findIn r a

/-- The definitions of the block that an address lies in: a station's control window, or a top-level block. -/
def defsAt (a : Nat) : List RegDef :=
  if a < 0x030000000000 then []
  else
    let w := (a - 0x030000000000) / 0x100000
    let o := (a - 0x030000000000) % 0x100000
    if w ≤ 60 ∧ 0xC000 ≤ o then regDefs_dbg
    else if w < 32 then regDefs_ce
    else if w < 48 then (if 0x8000 ≤ o then regDefs_lode else regDefs_de)
    else if w < 52 then (if 0x8000 ≤ o then regDefs_mem else regDefs_cm)
    else if w < 54 then regDefs_hc
    else if w < 56 then regDefs_vd
    else if w < 58 then (if 0x8000 ≤ o ∧ w = 56 then regDefs_nxm else regDefs_nx)
    else if w < 60 then (if 0x4000 ≤ o ∧ w = 58 then regDefs_pair else regDefs_wp)
    else if w = 60 then regDefs_sp
    else if w = 61 then regDefs_gn
    else if w = 62 then (if 0x8000 ≤ o then regDefs_ftdbg else regDefs_fc)
    else if w = 63 then regDefs_pm
    else if w = 65 then regDefs_tb
    else if w = 66 then regDefs_ea
    else if w = 67 then regDefs_loom
    else if w = 68 then regDefs_ledger
    else if w = 69 then regDefs_line
    else if w = 70 then regDefs_thimble
    else if w = 71 then regDefs_cfg
    else []

/-- The register at an address: its definition and indices. The module-wide Warp registers of WP1 are those of WP0
(R683). -/
def findReg (a : Nat) : Option (RegDef × Nat × Nat) := findIn (defsAt a) a

/-- The address that holds a register's value: WP1's copies of the module-wide set act on WP0's (R683), and NX1's copies
of the CB streams on NX0's (R591). -/
def homeAddr (a : Nat) : Nat :=
  let b := 0x030003B00000
  if 0x030003902000 ≤ a ∧ a < 0x030003902200 then a - 0x100000 else
  if a = b + 0x8 ∨ (b + 0x100 ≤ a ∧ a < b + 0x140) ∨ (b + 0x200 ≤ a ∧ a < b + 0x400) then a - 0x100000 else a

/-- The reset value of the register at an address; zero where there is none. -/
def regReset (a : Nat) : Nat :=
  match findReg a with
  | none => 0
  | some (d, ij) => d.table.getD (d.index ij) (d.reset + d.incr * d.index ij)

/-- The value a register holds. -/
def State.reg (s : State) (a : Nat) : Nat :=
  match tget s.regs (homeAddr a) with
  | some v => v.toNat
  | none => regReset (homeAddr a)

/-- A register set to a value, whatever its access code: what hardware does. -/
def State.setReg (s : State) (a v : Nat) : State := { s with regs := tset s.regs (homeAddr a) (BitVec.ofNat 64 v) }

/-- A field of a register. -/
def State.fget (s : State) (a : Nat) (f : Nat × Nat) : Nat := fld (s.reg a) f.1 f.2

/-- A one-bit field of a register, as a truth value. -/
def State.flag (s : State) (a : Nat) (f : Nat × Nat) : Bool := s.fget a f != 0

/-- A field of a register set by hardware. -/
def State.fset (s : State) (a : Nat) (f : Nat × Nat) (v : Nat) : State := s.setReg a (setFld (s.reg a) f.1 f.2 v)

/-- A counter field raised by `n`, saturating. -/
def State.bump (s : State) (a : Nat) (f : Nat × Nat) (n : Nat) : State :=
  s.fset a f (satTo (f.1 + 1 - f.2) (s.fget a f + n))

/-- A field raised to `v` where it is lower: a high-water mark. -/
def State.raiseTo (s : State) (a : Nat) (f : Nat × Nat) (v : Nat) : State :=
  if s.fget a f < v then s.fset a f v else s

/-- A LOG2_ENTRIES field that acts as `d` outside `lo` to `hi`. -/
def log2In (v lo hi d : Nat) : Nat := if lo ≤ v ∧ v ≤ hi then v else d

/-! ### Free values -/

/-- The next free value. -/
def State.freeVal (s : State) : Nat := Config.free s.free

/-- The state after a free value has been used. -/
def State.tickFree (s : State) : State := { s with free := s.free + 1 }

/-! ### The timebase -/

/-- The slew fraction's shift (Table 10-6). -/
def slewShift (s : State) : Nat := log2In (s.fget A.tbCtl A.tbCtl_slewShift) 4 12 10

/-- The rate in force in the time set: RATE and what the slew in progress adds to it (R616, R620). -/
def effRate (s : State) : Nat := ((s.tb.rate : Int) + s.tb.extra).toNat

/-- V in units of 2^-32 ns at tick `n`: V0 + (N - N0) * RATE (R616). -/
def vAt (s : State) (n : Nat) : Nat := s.tb.v0 * 2 ^ 32 + s.tb.vSub + (n - s.tb.n0) * effRate s

/-- The timebase value in ns (R616). -/
def now (s : State) : Nat := vAt s s.tb.n / 2 ^ 32 % 2 ^ 64

/-- Whether timestamps carry COARSE (R622). -/
def coarse (s : State) : Bool := s.flag A.tbStatus A.tbStatus_coarse

/-- Reference ticks in a microsecond and a millisecond: the reference clock runs at 100 MHz (R615). -/
abbrev tUs : Nat := 100
abbrev tMs : Nat := 100000
abbrev tSec : Nat := 100000000

/-! ### Module states that every block sees -/

/-- The safe state (R830). -/
def safe (s : State) : Bool := s.flag A.fcSummary A.fcSummary_safe

/-- The die domains outside the Thimble run: the module has power, no thermal trip has turned the core regulators off
(R750), and it is not in WATCH, DORMANT or a wake in progress (Table 14-1). -/
def dieOn (s : State) : Bool :=
  s.store.powered && !s.power.tripped &&
    (match s.thimble.state with
      | .watch | .dormant | .waking _ => false
      | _ => true)

/-- The module runs as one of a configured pair (R684, R689). -/
def paired (s : State) : Bool :=
  s.flag A.pairCtl A.pairCtl_en && s.fget A.pairStatus A.pairStatus_cause != 1

/-- The module may emit: it holds the lease, or no pair is configured (R606, R697, R702). -/
def mayEmit (s : State) : Bool := !paired s || s.flag A.pairStatus A.pairStatus_leaseHeld

/-- The pair state (Table 12-7). -/
def pairSt (s : State) : Nat := s.fget A.pairStatus A.pairStatus_state

/-- A field of the settings record in force, or its default (R909, R910, Table 18-9). -/
def setting (s : State) (id dflt : Nat) : Nat :=
  match s.store.inForce with
  | none => dflt
  | some r => ((r.fields.find? fun f => f.1 == id).map Prod.snd).getD dflt

/-- The answer of a register or memory read. -/
def State.answer (s : State) (v : Nat) : State := { s with busData := leBytes 8 v, busErr := false }

/-! ### Partitions (R788 to R793) -/

/-- Partition `p` is valid. -/
def partValid (s : State) (p : Nat) : Bool := p < 8 && s.flag (A.gnPartCtl p) A.gnPartCtl_valid

/-- The partition is confidential. -/
def confidential (s : State) (p : Nat) : Bool := partValid s p && s.flag (A.gnPartCtl p) A.gnPartCtl_confidential

/-- The partition owns the station: for a CE or DE the logical engine of that number (R791). -/
def ownsStation (s : State) (p st : Nat) : Bool := p < 8 && (s.reg (A.gnPartStations p)).testBit st

/-- A partition is being torn down (R809). -/
def stopping (s : State) (p : Nat) : Bool := s.teardowns.any fun t => t.part == p

/-! ### Device addresses (R419 to R426, R453) -/

abbrev lpddrTop : Nat := 0x006000000000
abbrev commonsBase : Nat := 0x020000000000
abbrev commonsSize : Nat := 0x2000000

/-- The address in the interleaved view or Commons of a memory address in any view (R420, R421). -/
def canon (a : Nat) : Option Nat :=
  if a < lpddrTop then some a
  else if 0x010000000000 ≤ a ∧ a < 0x010000000000 + 16 * 0x600000000 then
    let n := (a - 0x010000000000) / 0x600000000
    let o := (a - 0x010000000000) % 0x600000000
    some (((o >>> 12) * 16 + n) * 4096 + o % 4096)
  else if commonsBase ≤ a ∧ a < commonsBase + commonsSize then some a
  else none

/-- The lode of an interleaved address, and the lode-local offset (R420). -/
def lodeOf (a : Nat) : Nat × Nat := ((a >>> 12) % 16, (((a >>> 12) / 16) <<< 12) + a % 4096)

/-- The station of the lode or Commons bank that serves a canonical address (R420, R453). -/
def memStation (a : Nat) : Nat :=
  if a < lpddrTop then 32 + (lodeOf a).1 else 48 + ((a - commonsBase) >>> 12) % 4

/-- Region `n` is valid and covers the canonical address (R424). -/
def regionHas (s : State) (a n : Nat) : Bool :=
  let b := s.reg (A.memRegionBase n)
  b.testBit 0 && (fld b 47 16) * 65536 ≤ a && a < s.fget (A.memRegionLimit n) A.memRegionLimit_limit * 65536

/-- The owner of a canonical address: that of the lowest-numbered valid region, or none for module memory
(R425, R426). -/
def ownerAt (s : State) (a : Nat) : Option Nat :=
  ((List.range 64).find? (regionHas s a)).map fun n => s.fget (A.memRegionBase n) A.memRegionBase_owner

/-- Partition `p` may reach every byte of a range (R425): checked at each 4 KiB piece, the finest step at which the
owner can change in any view. -/
def ownsRange (s : State) (p a n : Nat) : Bool :=
  n == 0 || (List.range ((a + n - 1) / 4096 + 1 - a / 4096)).all fun k =>
    match canon (max a ((a / 4096 + k) * 4096)) with
    | some c => ownerAt s c == some p
    | none => false

/-! ### Memory (R429 to R445) -/

/-- What a byte of memory that is not listed holds: Commons zero, LPDDR5X nothing (R434, R437). -/
def memDefault (a : Nat) : Option Byte := if a < lpddrTop then none else some 0

/-- The byte stored at a canonical address, if one is listed. -/
def cellGet : List Host.Cell → Nat → Option Byte
  | [], _ => none
  | (i, b) :: r, k => if i = k then some b else if k < i then none else cellGet r k

/-- The list with the byte at an address replaced, added, or removed where it is what an unlisted one holds. -/
def cellSet : List Host.Cell → Nat → Byte → List Host.Cell
  | [], k, v => if memDefault k = some v then [] else [(k, v)]
  | (i, b) :: r, k, v =>
    if k < i then (if memDefault k = some v then (i, b) :: r else (k, v) :: (i, b) :: r)
    else if k = i then (if memDefault k = some v then r else (k, v) :: r)
    else (i, b) :: cellSet r k v

/-- The key slot of a partition's memory, slot 0 for module memory (R429, R431). -/
def keySlot (s : State) (o : Option Nat) : Nat :=
  match o with
  | none => 0
  | some p => if s.flag (A.memPartKey p) A.memPartKey_valid then s.fget (A.memPartKey p) A.memPartKey_slot else 0

/-- The slot and epoch under which a canonical LPDDR5X address is read and written now (R429). -/
def keyAt (s : State) (a : Nat) : Nat × Nat :=
  let k := keySlot s (ownerAt s a)
  (k, s.fget (A.memSlot k) A.memSlot_epoch)

/-- The `k` big-endian bytes of a number, as contexts of key derivations hold integers (R795). -/
def beBytes (k n : Nat) : List Byte := (leBytes k n).reverse

/-- The KMAC-based key derivation of SP 800-108r1: the parent key is the key, the label the customisation string, the context the
input (R795). -/
def kdf (parent : List Byte) (label : String) (context : List Byte) (bits : Nat) : List Byte :=
  Config.kmac256 parent label context bits

/-- The device root key (R797, Table 15-1). -/
def rootKey (s : State) : List Byte := Config.rootKey s.serial s.store.helper

/-- The two AES-256-XTS keys of a key slot at an epoch (R430, Table 15-1). -/
def memKey (s : State) (k : Nat × Nat) : List Byte := kdf (rootKey s) "SK48 MEM" (beBytes 1 k.1 ++ beBytes 4 k.2) 512

/-- The plaintext under which line `l` of LPDDR5X was written last, under key slot and epoch `t`. -/
def linePlain (s : State) (l : Nat) (t : Nat × Nat) : List Byte :=
  (List.range 64).map fun i => (cellGet s.mem (64 * l + i)).getD (Config.unwritten (64 * l + i) t.1 t.2)

/-- What line `l`, encrypted as it was written under `t`, decrypts to under `k`: the data unit is the line, the tweak its address
divided by 64 (R429, R433). -/
def wrongLine (s : State) (l : Nat) (t k : Nat × Nat) : List Byte :=
  Config.xtsDec (memKey s k) l (Config.xtsEnc (memKey s t) l (linePlain s l t))

/-- The byte that a read of a canonical address returns when nothing is in error (R429, R433, R434). -/
def byteAt (s : State) (a : Nat) : Byte :=
  if a < lpddrTop then
    let k := keyAt s a
    match cellGet s.mem a, tget s.keyTag (a / 64) with
    | some b, none => b
    | none, none => Config.unwritten a k.1 k.2
    | c, some t => if t = k then c.getD (Config.unwritten a k.1 k.2) else (wrongLine s (a / 64) t k).getD (a % 64) 0
  else (cellGet s.mem a).getD 0

/-- The bytes of a range, in any view; an address of no memory reads as zero. -/
def readBytes (s : State) (a n : Nat) : List Byte :=
  (List.range n).map fun i => match canon (a + i) with | some c => byteAt s c | none => 0

/-- The bytes of a codeword: a line of LPDDR5X (R438), a word of Commons (R454). -/
def codeBytes (c : Nat) : Nat := if c < lpddrTop then 64 else 8

/-- The first address of the codeword of a canonical address. -/
def codeword (c : Nat) : Nat := c - c % codeBytes c

/-- The codewords that a range touches, each with its first address in the view that names it. -/
def codewords (a n : Nat) : List (Nat × Nat) :=
  if n = 0 then []
  else ((List.range ((a + n - 1) / 8 + 1 - a / 8)).filterMap fun k =>
    let v := (a / 8 + k) * 8
    (canon v).map fun c => (v - c % codeBytes c, codeword c)).dedup

/-- Some codeword of the range holds an uncorrectable error (R444). -/
def badRange (s : State) (a n : Nat) : Bool := (codewords a n).any fun v => s.badLines.contains v.2

/-- The first codeword with an uncorrectable error in a range. -/
def firstBad (s : State) (a n : Nat) : Option Nat := ((codewords a n).find? fun v => s.badLines.contains v.2).map Prod.snd

/-- A byte stored at a canonical address, with nothing else. -/
def State.pokeRaw (s : State) (a : Nat) (b : Byte) : State := { s with mem := cellSet s.mem a b }

/-- A list of bytes stored from a canonical address on. -/
def State.pokeAll (s : State) (a : Nat) : List Byte → State
  | [] => s
  | b :: r => (s.pokeRaw a b).pokeAll (a + 1) r

/-- A 4 KiB piece marked as written, while a join copies memory (R715, phases COPY and DIRTY). -/
def State.markDirty (s : State) (a : Nat) : State :=
  let ph := s.fget A.pairStatus A.pairStatus_joinPhase
  if s.pair.joinAsked ∧ (ph = 1 ∨ ph = 2) ∧ ¬ s.pair.dirty.contains (a / 4096) then
    { s with pair := { s.pair with dirty := s.pair.dirty ++ [a / 4096] } }
  else s

/-- A piece of one codeword written at a canonical address (R440, R454): a whole one replaces the data and the code; a part of
one is read, merged and written, and is discarded where the codeword holds an uncorrectable error (Table 7-2). -/
def State.writeLine (s : State) (a : Nat) (bs : List Byte) : State :=
  let l := a / 64
  let s := s.markDirty a
  if bs.length = codeBytes a then
    let s := { s with badLines := s.badLines.filter (· != codeword a) }
    let s := if a < lpddrTop then { s with keyTag := tset s.keyTag l (keyAt s a) } else s
    s.pokeAll a bs
  else if s.badLines.contains (codeword a) then s
  else if a < lpddrTop then
    let k := keyAt s a
    if tget s.keyTag l = some k ∨ tget s.keyTag l = none then
      ({ s with keyTag := tset s.keyTag l k }).pokeAll a bs
    else
      let old := (List.range 64).map fun i => byteAt s (l * 64 + i)
      (({ s with keyTag := tset s.keyTag l k }).pokeAll (l * 64) old).pokeAll a bs
  else s.pokeAll a bs

/-- Bytes written from an address on, in any view, codeword by codeword. `fuel` bounds the number of pieces. -/
def State.writeFuel (s : State) (a : Nat) (bs : List Byte) : Nat → State
  | 0 => s
  | f + 1 =>
    if bs.isEmpty then s
    else
      let n := match canon a with | some c => codeBytes c - c % codeBytes c | none => 64 - a % 64
      let s := match canon a with | some c => s.writeLine c (bs.take n) | none => s
      s.writeFuel (a + n) (bs.drop n) f

/-- Bytes written from an address on. -/
def State.writeBytes (s : State) (a : Nat) (bs : List Byte) : State := s.writeFuel a bs (bs.length + 1)

/-- Bytes stored whose values the manual leaves open: what a store changes, field by field. -/
def State.storeFree (s : State) (a : Nat) (bs : List Byte) : State :=
  let t := s.writeBytes a bs
  { s with mem := t.mem, keyTag := t.keyTag, badLines := t.badLines, pair := t.pair }

/-- Part of a range of Commons is being zeroed, and accesses to it wait (R437). -/
def clearingAt (s : State) (a n : Nat) : Bool :=
  match canon a with
  | some c => s.clearing.any fun r => decide (c < r.hi ∧ r.lo < c + n)
  | none => false

/-- A byte that a TSTORE stored whose completion record is not yet written (R59). -/
def unsettled (s : State) (a : Nat) : Bool :=
  (canon a).isSome && s.settling.any fun r => (List.range r.2.2).any fun i => canon (r.2.1 + i) == canon a

/-- The bytes of a range as a reader gets them that does not wait for the record of the TSTORE that stores there: values of which
the manual promises nothing (R59, R60). -/
def softBytes (s : State) (a n : Nat) : List Byte :=
  (readBytes s a n).mapIdx fun i b => if unsettled s (a + i) then Config.early (a + i) b s.free else b

/-- A little-endian 64-bit word of memory. -/
def word64 (s : State) (a : Nat) : Nat := leNat (readBytes s a 8)

/-- The canonical form of memory: addresses strictly rising, none listed with what an unlisted one holds. -/
def Memory.wf : List Host.Cell → Bool
  | [] => true
  | [(a, b)] => memDefault a != some b
  | (a, b) :: (a', b') :: r => decide (a < a') && memDefault a != some b && Memory.wf ((a', b') :: r)

/-! ### Events (R623 to R633) -/

/-- The source number of top-level block `k` (Table 10-4). -/
abbrev topSrc (k : Nat) : Nat := 64 + k
abbrev srcTb : Nat := 65
abbrev srcLoom : Nat := 67
abbrev srcLine : Nat := 69
abbrev srcThimble : Nat := 70

/-- An event of a partition raised by a source, with the timestamp its source takes (R623). -/
def State.raiseP (s : State) (src ty p payload : Nat) (slot : Option Nat) : State :=
  { s with events := s.events ++ [{ source := src, type := ty, part := p, module_ := false, coarse := coarse s,
                                    ts := now s, payload := payload, slot := slot }] }

/-- An event of a partition with a timestamp of its own: a trigger's, an edge's (R610, R617). -/
def State.raiseAt (s : State) (src ty p payload ts : Nat) : State :=
  { s with events := s.events ++ [{ source := src, type := ty, part := p, module_ := false, coarse := coarse s,
                                    ts := ts, payload := payload, slot := none }] }

/-- A module event raised by a source (R631). -/
def State.raiseM (s : State) (src ty payload : Nat) : State :=
  { s with events := s.events ++ [{ source := src, type := ty, part := 0, module_ := true, coarse := coarse s,
                                    ts := now s, payload := payload, slot := none }] }

/-! ### Error reports (R817, R818) -/

/-- An error pin raised toward the fault collector: source, class (1 corrected, 2 uncorrected-contained, 3 fatal) and
the unit's error bits. -/
def State.pinReport (s : State) (src cls bits : Nat) : State := { s with reports := s.reports ++ [(src, cls, bits)] }

/-- The data-path source of a station, or the Seam router source of its mesh row (Table 16-1, R940). -/
def dataSource (st : Nat) : Nat :=
  if st < 32 then st else if st < 48 then 64 + (st - 32) else if st = 54 ∨ st = 55 then 118 + (st - 54)
  else 140 + st / 8

/-- Bits `hi:lo` of word `w` of an operand block, words counted from 4 as in the inline form. -/
def opw (opb : List Byte) (w hi lo : Nat) : Nat := fld (leNat ((opb.drop (8 * (w - 4))).take 8)) hi lo

/-! ### Tracked commands -/

/-- The tracked command in a slot. -/
def State.cmd? (s : State) (slot : Nat) : Option Tracked := s.tracked.find? fun t => t.slot == slot

/-- A tracked command replaced. -/
def State.setCmd (s : State) (t : Tracked) : State :=
  { s with tracked := s.tracked.map fun u => if u.slot == t.slot then t else u }

/-- A tracked command changed by a function. -/
def State.updCmd (s : State) (slot : Nat) (f : Tracked → Tracked) : State :=
  { s with tracked := s.tracked.map fun u => if u.slot == slot then f u else u }

/-- Partition and operand block of a tracked command. -/
def Tracked.part (t : Tracked) : Nat := t.desc.part
def Tracked.op (t : Tracked) : Nat := t.desc.opcode

/-- The physical station a command was given; 63 names none (Table 1-7). -/
def Tracked.station (t : Tracked) : Nat := match t.place with | some (st, _) => st | none => 63

/-! ### Counters and traces (R844 to R859) -/

/-- The partition whose commands a counter block counts: for a CE or DE the owner of the logical engine mapped there,
elsewhere DBG_CNT_CTL.PART (R184, R845). Logical engines of two partitions never share an engine (R792). -/
def blockPart (s : State) (st : Nat) : Option Nat :=
  if st < 48 then
    ((List.range (if st < 32 then 32 else 16)).filter fun l =>
      if st < 32 then tgetD s.mapCe l l == st else tgetD s.mapDe l l + 32 == st).findSome? fun l =>
        (List.range 8).find? fun p => partValid s p && ownsStation s p (if st < 32 then l else 32 + l)
  else some (s.fget (A.dbgCntCtl st) A.dbgCntCtl_part)

/-- A station's counters raised for one event caused by a command (R844, R846, R847); a re-run shows in none (R108). -/
def State.count (s : State) (st ev n : Nat) (t : Tracked) : State :=
  if t.rerun = false ∧ st ≤ 60 ∧ s.flag (A.dbgCntCtl st) A.dbgCntCtl_en ∧ blockPart s st = some t.part ∧ confidential s t.part = false then
    (List.range 8).foldl (fun s i =>
      let sel := s.reg (A.dbgCntSel st i)
      let f := fld sel 6 5
      if fld sel 4 0 = ev ∧ (f.testBit 0 = true → fld sel 31 16 = t.desc.layerId) ∧
          (f.testBit 1 = true → fld sel 47 32 = t.desc.opId)
      then s.fset (A.dbgCnt st i) A.dbgCnt_value ((s.fget (A.dbgCnt st i) A.dbgCnt_value + n) % 2 ^ 48)
      else s) s
  else s

/-- The global counters raised for one event and index; traffic of a confidential partition is not counted
(R851, R852). -/
def State.gcount (s : State) (ev idx n : Nat) (p : Option Nat) : State :=
  if (match p with | some p => confidential s p | none => false) then s
  else (List.range 64).foldl (fun s i =>
    let sel := s.reg (A.dbgGcntSel i)
    if fld sel 4 0 = ev ∧ (ev = 5 ∨ fld sel 15 8 = idx)
    then s.fset (A.dbgGcnt i) A.dbgGcnt_value ((s.fget (A.dbgGcnt i) A.dbgGcnt_value + n) % 2 ^ 48)
    else s) s

/-- The mesh links of the dimension-order route between two stations, as router × 4 + direction (R39, R937,
Table 17-2): 0 east, 1 west, 2 north, 3 south. `fuel` bounds the hops. -/
def route (a b : Nat) : Nat → List Nat
  | 0 => []
  | f + 1 =>
    if a % 8 < b % 8 then (a * 4 + 0) :: route (a + 1) b f
    else if b % 8 < a % 8 then (a * 4 + 1) :: route (a - 1) b f
    else if b / 8 < a / 8 then (a * 4 + 2) :: route (a - 8) b f
    else if a / 8 < b / 8 then (a * 4 + 3) :: route (a + 8) b f
    else []

/-- `n` flits counted on each of a list of mesh links (Table 17-2, SEAM_FLITS; R852). -/
def State.linkFlits (s : State) (links : List Nat) (n : Nat) (p : Option Nat) : State :=
  if links.isEmpty ∨ p.any (confidential s) then s
  else (List.range 64).foldl (fun s i =>
    let sel := s.reg (A.dbgGcntSel i)
    if fld sel 4 0 = 1 ∧ links.contains (fld sel 15 8)
    then s.fset (A.dbgGcnt i) A.dbgGcnt_value ((s.fget (A.dbgGcnt i) A.dbgGcnt_value + n) % 2 ^ 48)
    else s) s

/-- The parts of a range that lie in different pieces of 4 KiB, the grain at which lodes and banks interleave (R420, R453). -/
def pieces (a n : Nat) : List (Nat × Nat) :=
  if n = 0 then []
  else (List.range ((a + n - 1) / 4096 + 1 - a / 4096)).map fun k =>
    let lo := max a ((a / 4096 + k) * 4096)
    (lo, min (a + n) ((a / 4096 + k + 1) * 4096) - lo)

/-- A trace record put into a station's buffer of 256: in drop-and-mark mode a record that finds it full is dropped
and counted, and the next one carries MARK; in native mode 192 records hold the station (R858, R859). -/
def State.tracePut (s : State) (st : Nat) (r : TraceRec) : State :=
  let buf := tgetD s.traces st []
  let native := s.fget (A.dbgTrcCtl st) A.dbgTrcCtl_mode = 0
  let dropped := tgetD s.trcDropped st 0
  if ¬ native ∧ 256 ≤ buf.length then
    ({ s with trcDropped := tset s.trcDropped st (dropped + 1) }).bump (A.dbgTrcStatus st) A.dbgTrcStatus_dropped 1
  else
    let r := if dropped = 0 then r
      else { r with w1 := setFld r.w1 12 12 1, w2 := setFld r.w2 63 48 (min dropped 0xFFFF) }
    let s := { s with traces := tset s.traces st (buf ++ [r]), trcDropped := tdel s.trcDropped st }
    if native ∧ 192 ≤ buf.length + 1 ∧ ¬ s.traceHold.contains st then { s with traceHold := s.traceHold ++ [st] } else s

/-- A trace record of a happening of a command at a station (R853, Tables 17-3 and 17-4); of a re-run there is the REPLAY record
alone, written as it begins (R108). -/
def State.trace (s : State) (st ty data : Nat) (t : Tracked) : State :=
  let ctl := s.reg (A.dbgTrcCtl st)
  if t.rerun = false ∧ st ≤ 60 ∧ ctl.testBit 0 ∧ ctl.testBit (16 + ty) ∧ blockPart s st = some t.part ∧ confidential s t.part = false then
    s.tracePut st
      { part := t.part
        w0 := now s
        w1 := ty + t.part * 2 ^ 8 + (if coarse s then 2 ^ 11 else 0) + st * 2 ^ 13 + t.desc.layerId * 2 ^ 32 +
          t.desc.opId * 2 ^ 48
        w2 := t.desc.cmdSeq
        w3 := data }
  else s

/-! ### Waking from DOZE (R761, R762) -/

/-- An enabled wake source fires: DOZE begins its exit, an entry to DOZE in progress is abandoned, and an exit records it (R762, R779).
`bit` is the source's bit of WAKE_SRC (Table 14-8). -/
def State.dozeWake (s : State) (bit : Nat) : State :=
  let mark (s : State) : State := s.setReg A.thimbleSleepStatus (s.reg A.thimbleSleepStatus ||| 2 ^ (16 + bit))
  match s.thimble.state with
  | .doze => mark { s with thimble := { s.thimble with state := .dozeExit } }
  | .dozeExit => mark s
  | .dozeWait =>
    let s := mark { s with thimble := { s.thimble with state := .run } }
    (s.fset A.thimbleSleepStatus A.thimbleSleepStatus_result 3).fset A.thimbleSleepCtl A.thimbleSleepCtl_req 0
  | _ => s

/-! ### Outputs -/

/-- Something sent or raised towards the outside. -/
def State.emit (s : State) (e : Emit) : State := { s with out := s.out ++ [e] }

/-- The state answered, with no fault and no refusal. -/
def ok (s : State) : Out := .next s

/-! ### The array clock (R723) -/

/-- The operating point in force, and its array clock in MHz. -/
def opNow (s : State) : Nat := s.fget A.pmOp A.pmOp_current
def arrayMhz (s : State) : Nat := s.fget (A.pmOpTable (opNow s)) A.pmOpTable_freqMhz

/-- What a running SAMPLE has waited for a mask so far added to SP_MASK_WAIT, in cycles of the array clock (R379; that clock is a DESIGN
CHOICE, log 65); the count goes on from now. `work.fails` holds the tick after the one it starts from, 0 with no wait. -/
def State.countMaskWait (s : State) (t : Tracked) : State :=
  if t.work.fails = 0 then s
  else
    (s.bump A.spMaskWait A.spMaskWait_cycles ((s.tb.n + 1 - t.work.fails) * arrayMhz s / 100)).updCmd t.slot fun u =>
      { u with work := { u.work with fails := s.tb.n + 1 } }

/-- The waits for masks counted up to a change of the array clock (R725). -/
def State.countMaskWaits (s : State) : State :=
  (s.tracked.filter fun t => t.op == 0x60 && t.phase == .running).foldl State.countMaskWait s

end Sys2Proof.Machine
end

