-- ==== Sys2Proof/Machine/Tiles.lean ====
section
/-! DEFINITION. Tiles and their payloads: rows, element sizes, tile headers as bytes, zero compression
(R49 to R53, R129 to R132, R264 to R267). -/

namespace Sys2Proof.Machine

open Sys2Proof

/-- The rows, and the bytes of a row, of a tile (Table 1-2). -/
def tileRows (t : Tile) : Nat := t.rowsM1 + 1
def tileRowBytes (t : Tile) : Nat := t.rowBytesM1 + 1

/-- The bytes of a unit of a row: an element, or for the MX formats a block (R53, R132); INT4 packs two per byte. -/
def unitBytes (fmt : Nat) : Nat :=
  match fmt with
  | 0x05 | 0x06 | 0x0A => 33
  | 0x07 | 0x08 => 25
  | 0x09 => 17
  | 0x0B | 0x0C => 2
  | 0x0D | 0x0E => 4
  | 0x0F => 16
  | _ => 1

/-- A format is one of the MX formats. -/
def isMx (fmt : Nat) : Bool := decide (0x05 ≤ fmt ∧ fmt ≤ 0x0A)

/-- Elements in a row of `n` bytes. -/
def elemsIn (fmt n : Nat) : Nat :=
  if isMx fmt then 32 * (n / unitBytes fmt) else if fmt = 0x02 then 2 * n else n / unitBytes fmt

/-- Bytes that `k` elements take in a row: MX elements in whole blocks. -/
def bytesFor (fmt k : Nat) : Nat :=
  if isMx fmt then (k + 31) / 32 * unitBytes fmt else if fmt = 0x02 then (k + 1) / 2 else k * unitBytes fmt

/-- The largest number of elements that fits a row of 256 bytes. -/
def maxElems (fmt : Nat) : Nat := elemsIn fmt 256

/-- A row length is a whole number of elements (R53). -/
def wholeRow (fmt n : Nat) : Bool := n % unitBytes fmt == 0

/-- Formats of zero compression (R267). -/
def zcFormat (fmt : Nat) : Bool := fmt == 0x00 || fmt == 0x01 || fmt == 0x03 || fmt == 0x04 || fmt == 0x0B || fmt == 0x0C

/-- The elements of a payload, each `b` bytes. -/
def chunks (b : Nat) (bs : List Byte) : Nat → List (List Byte)
  | 0 => []
  | n + 1 => bs.take b :: chunks b (bs.drop b) n

/-- The ZC payload of `e` elements of `b` bytes (Table 4-4, R265). -/
def zcPack (b e : Nat) (bs : List Byte) : List Byte :=
  let els := chunks b bs e
  let kept := els.filter fun x => x.any (· != 0)
  let mask := (List.range (8 * ((e + 63) / 64))).map fun k =>
    BitVec.ofNat 8 ((List.range 8).foldl (fun m i =>
      m + (if (els.getD (8 * k + i) []).any (· != 0) then 2 ^ i else 0)) 0)
  leBytes 4 kept.length ++ leBytes 4 0 ++ mask ++ kept.flatten

/-- The plain payload of a ZC one: masked elements from the store, the others zero. -/
def zcFill (b : Nat) : List Bool → List Byte → List Byte
  | [], _ => []
  | true :: r, st => (st.take b ++ List.replicate (b - (st.take b).length) 0) ++ zcFill b r (st.drop b)
  | false :: r, st => List.replicate b 0 ++ zcFill b r st

/-- The payload of a tile in plain form (R52, R264). -/
def expand (t : Tile) : List Byte :=
  let n := tileRows t * tileRowBytes t
  if t.zc then
    let b := unitBytes t.format
    let e := n / b
    let m := 8 * ((e + 63) / 64)
    let mask := (t.payload.drop 8).take m
    zcFill b ((List.range e).map fun k => (mask.getD (k / 8) 0).toNat.testBit (k % 8)) (t.payload.drop (8 + m))
  else t.payload ++ List.replicate (n - t.payload.length) 0 |>.take n

/-- A tile in ZC form where it was asked for and takes fewer flits (R266). -/
def zcTile (asked : Bool) (t : Tile) : Tile :=
  if asked ∧ zcFormat t.format then
    let b := unitBytes t.format
    let p := zcPack b (tileRows t * tileRowBytes t / b) t.payload
    if (p.length + 63) / 64 < (tileRows t * tileRowBytes t + 63) / 64 then { t with zc := true, payload := p } else t
  else t

/-- A plain tile from its format, rows and bytes per row; its stream, index and layer are set when it is formed. -/
def mkTile (fmt rows rowBytes : Nat) (last : Bool) (payload : List Byte) : Tile :=
  { stream := 0, index := 0, rowsM1 := rows - 1, rowBytesM1 := rowBytes - 1, format := fmt, last := last, zc := false,
    tent := false, layer := 0, reserved := 0, payload := payload }

/-- Row `j` of a tile, in plain form. -/
def rowOf (t : Tile) (j : Nat) : List Byte := ((expand t).drop (j * tileRowBytes t)).take (tileRowBytes t)

/-- The tile header as a number (Table 1-2). -/
def tileHeader (t : Tile) : Nat :=
  t.stream + t.index * 2 ^ 16 + t.rowsM1 * 2 ^ 48 + t.rowBytesM1 * 2 ^ 55 + t.format * 2 ^ 63 +
    (if t.last then 2 ^ 68 else 0) + (if t.zc then 2 ^ 69 else 0) + (if t.tent then 2 ^ 70 else 0) +
    t.layer * 2 ^ 71 + t.reserved * 2 ^ 87

/-- The tile that a 128-bit header and a payload make (Table 1-2). -/
def tileOf (h : Nat) (payload : List Byte) : Tile :=
  { stream := fld h 15 0, index := fld h 47 16, rowsM1 := fld h 54 48, rowBytesM1 := fld h 62 55,
    format := fld h 67 63, last := h.testBit 68, zc := h.testBit 69, tent := h.testBit 70, layer := fld h 86 71,
    reserved := fld h 127 87, payload := payload }

/-- The flits of a tile: a header and its payload in 64-byte pieces (R42). -/
def tileFlits (t : Tile) : Nat := 1 + (t.payload.length + 63) / 64

/-- Two tiles have the same rows, row length and format. -/
def sameShape (a b : Tile) : Bool :=
  a.rowsM1 == b.rowsM1 && a.rowBytesM1 == b.rowBytesM1 && a.format == b.format

end Sys2Proof.Machine
end

