-- ==== Sys2Proof/Machine/Flags.lean ====
section
/-! DEFINITION. Numbers and flags: the element formats, binary32 arithmetic with its flags, the transcendental units, and
the conversion to output formats (Tables 2-4, 2-9 and 2-10, R127 to R133, R157 to R159, R212 to R221). -/

namespace Sys2Proof.Machine

open Sys2Proof

/-! ### Flag bits: those of the flag words (R174, R237) -/

abbrev fAccOvf : Nat := 0x1
abbrev fInexact : Nat := 0x2
abbrev fNanOut : Nat := 0x4
abbrev fInfOut : Nat := 0x8
abbrev fOutSat : Nat := 0x10
abbrev fOf : Nat := 0x20
abbrev fNv : Nat := 0x40
abbrev fDz : Nat := 0x80
abbrev fUf : Nat := 0x100
abbrev fNx : Nat := 0x200

/-! ### Values -/

/-- A floating-point value: NaN, signalling or not; an infinity; or ±m × 2^e. -/
inductive Fv where
  | nan (sig : Bool)
  | inf (neg : Bool)
  | fin (neg : Bool) (m : Nat) (e : Int)
  deriving DecidableEq, Repr

/-- The special codes of a format: IEEE ones, the one NaN of E4M3, or none (Table 2-4). -/
inductive Specials where
  | ieee
  | e4m3
  | none
  deriving DecidableEq, Repr

/-- The two's complement number of `w` bits. -/
def sext (w n : Nat) : Int := if n.testBit (w - 1) then (n : Int) - 2 ^ w else n

/-- The `w` bits of an integer. -/
def bitsOf (w : Nat) (v : Int) : Nat := (v % (2 ^ w : Int)).toNat

/-- An integer times a power of two. -/
def Fv.ofInt (v : Int) (e : Int) : Fv := .fin (v < 0) v.natAbs e

/-- A code with a sign, `eb` exponent bits and `mb` mantissa bits. -/
def fdec (eb mb bias : Nat) (sp : Specials) (n : Nat) : Fv :=
  let s := n.testBit (eb + mb)
  let x := fld n (eb + mb - 1) mb
  let m := n % 2 ^ mb
  let top := 2 ^ eb - 1
  if sp = .ieee ∧ x = top then (if m = 0 then .inf s else .nan (!m.testBit (mb - 1)))
  else if sp = .e4m3 ∧ x = top ∧ m = 2 ^ mb - 1 then .nan false
  else if x = 0 then .fin s m (1 - (bias : Int) - mb)
  else .fin s (m + 2 ^ mb) ((x : Int) - bias - mb)

/-- The value of an element code, for the MX formats before the block scale (Table 2-4, R131). -/
def elemVal (fmt n : Nat) : Fv :=
  match fmt with
  | 0x00 => .ofInt (sext 8 n) 0
  | 0x01 => .fin false n 0
  | 0x02 => .ofInt (sext 4 n) 0
  | 0x03 | 0x05 => fdec 4 3 7 .e4m3 n
  | 0x04 | 0x06 => fdec 5 2 15 .ieee n
  | 0x07 => fdec 3 2 3 .none n
  | 0x08 => fdec 2 3 1 .none n
  | 0x09 => fdec 2 1 1 .none n
  | 0x0A => .ofInt (sext 8 n) (-6)
  | 0x0B => fdec 8 7 127 .ieee n
  | 0x0C => fdec 5 10 15 .ieee n
  | 0x0D => fdec 8 23 127 .ieee n
  | _ => .ofInt (sext 32 n) 0

/-- The bits of an element. -/
def elemBits (fmt : Nat) : Nat :=
  match fmt with
  | 0x02 | 0x09 => 4
  | 0x07 | 0x08 => 6
  | 0x0B | 0x0C => 16
  | 0x0D | 0x0E => 32
  | 0x0F => 128
  | _ => 8

/-- The codes of `n` elements of `w` bits packed from bit 0 on (R129, R130). -/
def unpackCodes (w n : Nat) (bs : List Byte) : List Nat :=
  let x := leNat bs
  (List.range n).map fun i => x / 2 ^ (w * i) % 2 ^ w

/-- Codes of `w` bits packed from bit 0 on, in whole bytes. -/
def packCodes (w : Nat) (cs : List Nat) : List Byte :=
  leBytes ((w * cs.length + 7) / 8) ((cs.mapIdx fun i c => c % 2 ^ w * 2 ^ (w * i)).sum)

/-- A value times 2^k. -/
def Fv.scale (k : Int) : Fv → Fv
  | .fin s m e => .fin s m (e + k)
  | v => v

/-- The blocks of an MX row: scale byte and the 32 element values before the scale (R131, R132). -/
def mxBlocks (fmt : Nat) (row : List Byte) : List (Nat × List Fv) :=
  (chunks (unitBytes fmt) row (row.length / unitBytes fmt)).map fun b =>
    ((b.headD 0).toNat, (unpackCodes (elemBits fmt) 32 (b.drop 1)).map (elemVal fmt))

/-- The values of a row's elements, with the block scales applied. -/
def rowVals (fmt : Nat) (row : List Byte) : List Fv :=
  if isMx fmt then (mxBlocks fmt row).flatMap fun b =>
    if b.1 = 0xFF then List.replicate 32 (.nan false) else b.2.map (Fv.scale ((b.1 : Int) - 127))
  else (unpackCodes (elemBits fmt) (elemsIn fmt row.length) row).map (elemVal fmt)

/-! ### Rounding -/

/-- The number of bits of a number. -/
def bitLen (m : Nat) : Nat := if m = 0 then 0 else Nat.log2 m + 1

/-- (m + a sticky fraction) × 2^e rounded to nearest even at `p` bits and no finer than 2^q: the result M × 2^q' and
whether it is inexact. -/
def roundTo (p : Nat) (q : Int) (m : Nat) (e : Int) (sticky : Bool) : Nat × Int × Bool :=
  let q' := max q (e + bitLen m - p)
  if q' ≤ e then (m * 2 ^ (e - q').toNat, q', sticky)
  else
    let d := (q' - e).toNat
    let hi := m / 2 ^ d
    let r := m % 2 ^ d
    let h := 2 ^ (d - 1)
    let up := decide (h < r) || (r == h && (sticky || hi % 2 == 1))
    (if up then hi + 1 else hi, q', r != 0 || sticky)

/-- Rounding to a format of `p` significant bits with least unit 2^q: the code without its sign, whatever its size. -/
def roundCode (p : Nat) (q : Int) (m : Nat) (e : Int) (sticky : Bool) : Nat × Bool :=
  let (r, q', x) := roundTo p q m e sticky
  ((q' - q).toNat * 2 ^ (p - 1) + r, x)

abbrev f32Nan : Nat := 0x7FC00000
abbrev f32Inf : Nat := 0x7F800000

/-- The sign bit of a binary32. -/
abbrev f32Neg (neg : Bool) : Nat := if neg then 0x80000000 else 0

/-- A finite value rounded once to binary32, with the flags of IEEE 754 default handling, tininess after rounding
(R212). -/
def f32Round (neg : Bool) (m : Nat) (e : Int) (sticky : Bool) : Nat × Nat :=
  if m = 0 ∧ sticky = false then (f32Neg neg, 0)
  else
    let (c, x) := roundCode 24 (-149) m e sticky
    if f32Inf ≤ c then (f32Neg neg + f32Inf, fOf + fNx)
    else
      let (r, q, _) := roundTo 24 (-100000) m e sticky
      let tiny := decide (q + bitLen r < -125)
      (f32Neg neg + c, if x then (if tiny then fUf + fNx else fNx) else 0)

/-- A value as binary32, rounded to nearest even. -/
def Fv.toF32 : Fv → Nat × Nat
  | .nan _ => (f32Nan, 0)
  | .inf s => (f32Neg s + f32Inf, 0)
  | .fin s m e => f32Round s m e false

/-- The value of a binary32. -/
def f32Val (n : Nat) : Fv := elemVal 0x0D n

def Fv.isNan : Fv → Bool
  | .nan _ => true
  | _ => false

/-- NV for a signalling operand (R214). -/
def Fv.nv : Fv → Nat
  | .nan true => fNv
  | _ => 0

/-! ### Binary32 operations (R212 to R217) -/

/-- A signed sum of finite values: magnitude with sign, at the smaller exponent. -/
def finSum (s1 : Bool) (m1 : Nat) (e1 : Int) (s2 : Bool) (m2 : Nat) (e2 : Int) : Fv :=
  let e := min e1 e2
  let a : Int := m1 * 2 ^ (e1 - e).toNat
  let b : Int := m2 * 2 ^ (e2 - e).toNat
  let v : Int := (if s1 then -a else a) + (if s2 then -b else b)
  if v = 0 then .fin (s1 && s2) 0 e else .fin (decide (v < 0)) v.natAbs e

def f32Add (x y : Nat) : Nat × Nat :=
  match f32Val x, f32Val y with
  | .nan a, v => (f32Nan, (Fv.nan a).nv ||| v.nv)
  | u, .nan b => (f32Nan, u.nv ||| (Fv.nan b).nv)
  | .inf a, .inf b => if a = b then (f32Neg a + f32Inf, 0) else (f32Nan, fNv)
  | .inf a, _ => (f32Neg a + f32Inf, 0)
  | _, .inf b => (f32Neg b + f32Inf, 0)
  | .fin s1 m1 e1, .fin s2 m2 e2 => (finSum s1 m1 e1 s2 m2 e2).toF32

/-- The sign flipped. -/
def f32Flip (x : Nat) : Nat := if x.testBit 31 then x - 0x80000000 else x + 0x80000000

def f32Sub (x y : Nat) : Nat × Nat :=
  if (f32Val y).isNan then f32Add x y else f32Add x (f32Flip y)

/-- A product of two values, exact: NaN where an infinity meets a zero. -/
def Fv.mul : Fv → Fv → Fv
  | .nan a, .nan b => .nan (a || b)
  | .nan a, _ => .nan a
  | _, .nan b => .nan b
  | .inf a, .inf b => .inf (a != b)
  | .inf a, .fin s m _ => if m = 0 then .nan true else .inf (a != s)
  | .fin s m _, .inf b => if m = 0 then .nan true else .inf (s != b)
  | .fin s1 m1 e1, .fin s2 m2 e2 => .fin (s1 != s2) (m1 * m2) (e1 + e2)

def f32Mul (x y : Nat) : Nat × Nat :=
  let v := (f32Val x).mul (f32Val y)
  (v.toF32.1, v.nv ||| v.toF32.2 ||| (f32Val x).nv ||| (f32Val y).nv)

/-- x × y + z with one rounding; an infinity times a zero gives NV whatever the addend (R212). -/
def f32Fma (x y z : Nat) : Nat × Nat :=
  let nv := (f32Val x).nv ||| (f32Val y).nv ||| (f32Val z).nv
  let p := (f32Val x).mul (f32Val y)
  match p, f32Val z with
  | .nan a, _ => (f32Nan, (Fv.nan a).nv ||| nv)
  | _, .nan _ => (f32Nan, nv)
  | .inf a, .inf b => if a = b then (f32Neg a + f32Inf, 0) else (f32Nan, fNv)
  | .inf a, _ => (f32Neg a + f32Inf, 0)
  | _, .inf b => (f32Neg b + f32Inf, 0)
  | .fin s1 m1 e1, .fin s2 m2 e2 => (finSum s1 m1 e1 s2 m2 e2).toF32

def f32Div (x y : Nat) : Nat × Nat :=
  let nv := (f32Val x).nv ||| (f32Val y).nv
  match f32Val x, f32Val y with
  | .nan _, _ => (f32Nan, nv)
  | _, .nan _ => (f32Nan, nv)
  | .inf _, .inf _ => (f32Nan, fNv)
  | .inf a, .fin s _ _ => (f32Neg (a != s) + f32Inf, 0)
  | .fin s _ _, .inf b => (f32Neg (s != b), 0)
  | .fin s1 m1 e1, .fin s2 m2 e2 =>
    if m2 = 0 then (if m1 = 0 then (f32Nan, fNv) else (f32Neg (s1 != s2) + f32Inf, fDz))
    else
      let n := m1 * 2 ^ 64
      f32Round (s1 != s2) (n / m2) (e1 - e2 - 64) (n % m2 != 0)

/-- The integer square root, `k` base-4 digits deep. -/
def isqrt : Nat → Nat → Nat
  | 0, _ => 0
  | k + 1, n =>
    let r := 2 * isqrt k (n / 4)
    if (r + 1) * (r + 1) ≤ n then r + 1 else r

/-- The integer square root. -/
def nsqrt (n : Nat) : Nat := isqrt (bitLen n / 2 + 1) n

def f32Sqrt (x : Nat) : Nat × Nat :=
  match f32Val x with
  | .nan a => (f32Nan, (Fv.nan a).nv)
  | .inf s => if s then (f32Nan, fNv) else (f32Inf, 0)
  | .fin s m e =>
    if m = 0 then (f32Neg s, 0)
    else if s then (f32Nan, fNv)
    else
      let (m, e) := if e % 2 = 0 then (m, e) else (2 * m, e - 1)
      let n := m * 2 ^ 64
      let r := nsqrt n
      f32Round false r (e / 2 - 32) (r * r != n)

/-- An order of the non-NaN binary32 codes in which −0 lies below +0 (R215). -/
def f32Key (x : Nat) : Int := if x.testBit 31 then -((x % 2 ^ 31 : Nat) : Int) - 1 else x

/-- The value order of the non-NaN codes, −0 equal to +0. -/
def f32Ord (x : Nat) : Int := if x.testBit 31 then -((x % 2 ^ 31 : Nat) : Int) else x

def f32MinMax (less : Bool) (x y : Nat) : Nat × Nat :=
  if (f32Val x).isNan ∨ (f32Val y).isNan then (f32Nan, (f32Val x).nv ||| (f32Val y).nv)
  else if (f32Key x ≤ f32Key y) = (less = true) then (x, 0) else (y, 0)

def f32Min (x y : Nat) : Nat × Nat := f32MinMax true x y
def f32Max (x y : Nat) : Nat × Nat := f32MinMax false x y

/-- VABS and VNEG change the sign; a NaN gives the canonical one (R214). -/
def f32Abs (x : Nat) : Nat × Nat :=
  if (f32Val x).isNan then (f32Nan, (f32Val x).nv) else (x % 2 ^ 31, 0)
def f32NegOp (x : Nat) : Nat × Nat :=
  if (f32Val x).isNan then (f32Nan, (f32Val x).nv) else (f32Flip x, 0)

/-- A magnitude times 2^e as an integer, rounded by a mode: 0 nearest even, 1 toward zero, 2 toward −∞, 3 toward +∞;
and whether it is inexact. -/
def toIntMode (mode : Nat) (neg : Bool) (m : Nat) (e : Int) : Int × Bool :=
  if 0 ≤ e then
    let v : Int := m * 2 ^ e.toNat
    (if neg then -v else v, false)
  else
    let d := (-e).toNat
    let hi := m / 2 ^ d
    let r := m % 2 ^ d
    let h := 2 ^ (d - 1)
    let up : Bool := match mode with
      | 0 => decide (h < r) || (r == h && hi % 2 == 1)
      | 1 => false
      | 2 => neg && r != 0
      | _ => !neg && r != 0
    let v : Int := if up then hi + 1 else hi
    (if neg then -v else v, r != 0)

/-- VCVTFI: binary32 to INT32 (R205, R217). -/
def f32ToInt (mode x : Nat) : Nat × Nat :=
  match f32Val x with
  | .nan _ => (0, fNv)
  | .inf s => (if s then 0x80000000 else 0x7FFFFFFF, fNv)
  | .fin s m e =>
    let (v, inx) := toIntMode mode s m e
    if v < -2 ^ 31 then (0x80000000, fNv)
    else if 2 ^ 31 - 1 < v then (0x7FFFFFFF, fNv)
    else (bitsOf 32 v, if inx then fNx else 0)

/-- VCVTIF: INT32 to binary32, nearest even. -/
def f32OfInt (v : Int) : Nat × Nat := (Fv.ofInt v 0).toF32

/-! ### Compares (R216) -/

def f32Cmp (quiet : Bool) (f : Int → Int → Bool) (x y : Nat) : Bool × Nat :=
  if (f32Val x).isNan ∨ (f32Val y).isNan then
    (false, if quiet then (f32Val x).nv ||| (f32Val y).nv else fNv)
  else (f (f32Ord x) (f32Ord y), 0)

def f32Un (x y : Nat) : Bool × Nat :=
  ((f32Val x).isNan || (f32Val y).isNan, (f32Val x).nv ||| (f32Val y).nv)

/-! ### Transcendental units (R219, R220): fixed-point sums of the functions' series, rounded once -/

/-- The fraction bits of the working precision: far beyond what the hardest binary32 input needs. -/
abbrev fxN : Nat := 320

/-- The number one. -/
abbrev fxOne : Int := 2 ^ fxN

def fxMul (a b : Int) : Int := a * b / fxOne

/-- Σ t_k for k from `n` on, where t_{n} = `t` and t_{k+1} = t_k × y / (k + 1). -/
def expSum (y : Int) : Nat → Nat → Int → Int
  | 0, _, _ => 0
  | f + 1, n, t => t + expSum y f (n + 1) (fxMul t y / (n + 1))

/-- A number squared `k` times. -/
def sqTimes : Nat → Int → Int
  | 0, a => a
  | k + 1, a => sqTimes k (fxMul a a)

/-- e^x for |x| up to about 400. -/
def fxExp (x : Int) : Int := sqTimes 9 (expSum (x / 512) 80 0 fxOne)

/-- Σ t^(2k+1) / (2k+1) from `k` on, `p` being t^(2k+1) and `q` t². -/
def atanhSum (q : Int) : Nat → Nat → Int → Int
  | 0, _, _ => 0
  | f + 1, k, p => p / (2 * k + 1) + atanhSum q f (k + 1) (fxMul p q)

/-- ln 2 = 2 artanh(1/3). -/
def fxLn2 : Int := 2 * atanhSum (fxOne / 9) 110 0 (fxOne / 3)

/-- ln(m × 2^e) for m > 0. -/
def fxLn (m : Nat) (e : Int) : Int :=
  let l := bitLen m
  -- f = m / 2^l lies in [1/2, 1); it is doubled where it is below 3/4
  let (f, k) := if 4 * m < 3 * 2 ^ l then ((m * 2 ^ (fxN + 1) / 2 ^ l : Nat), e + l - 1)
    else ((m * 2 ^ fxN / 2 ^ l : Nat), e + l)
  let t := ((f : Int) - fxOne) * fxOne / ((f : Int) + fxOne)
  2 * atanhSum (fxMul t t) 90 0 t + k * fxLn2

/-- artan(1/n) by its series, alternating. -/
def atanSum (n2 : Nat) : Nat → Nat → Int → Int
  | 0, _, _ => 0
  | f + 1, k, p => p / (2 * k + 1) - atanSum n2 f (k + 1) (p / n2)

/-- π = 16 artan(1/5) − 4 artan(1/239). -/
def fxPi : Int := 16 * atanSum 25 80 0 (fxOne / 5) - 4 * atanSum 57121 30 0 (fxOne / 239)

/-- Σ (−1)^k x^(2k+1) / (k! (2k+1)) from `k` on, `p` being x^(2k+1) / k!. -/
def erfSum (q : Int) : Nat → Nat → Int → Int
  | 0, _, _ => 0
  | f + 1, k, p => p / (2 * k + 1) - erfSum q f (k + 1) (fxMul p q / (k + 1))

/-- erf x for 0 ≤ x < 6. -/
def fxErf (x : Int) : Int :=
  2 * erfSum (fxMul x x) 260 0 x * fxOne / (nsqrt (fxPi * fxOne).toNat : Nat)

/-- A fixed-point magnitude, an approximation that is not exact, rounded to binary32 with no flags but OF and UF of
Table 3-6. -/
def fxRound (neg : Bool) (v : Nat) (k : Int) : Nat × Nat :=
  let r := (f32Round neg v (k - fxN) true).1
  (r, if r % 2 ^ 31 = f32Inf then fOf else if r % 2 ^ 31 = 0 then fUf else 0)

/-- A binary32 value as fixed point: exact, as every binary32 is a multiple of 2^-149. -/
def fxOf (neg : Bool) (m : Nat) (e : Int) : Int :=
  let v : Int := m * 2 ^ (e + fxN).toNat
  if neg then -v else v

/-- The magnitude m × 2^e is at least `n`. -/
def finGe (m : Nat) (e : Int) (n : Nat) : Bool :=
  if 0 ≤ e then decide (n ≤ m * 2 ^ e.toNat) else decide (n * 2 ^ (-e).toNat ≤ m)

def f32Exp (x : Nat) : Nat × Nat :=
  match f32Val x with
  | .nan a => (f32Nan, (Fv.nan a).nv)
  | .inf s => (if s then 0 else f32Inf, 0)
  | .fin s m e =>
    if m = 0 then (0x3F800000, 0)
    else if finGe m e 200 then (if s then (0, fUf) else (f32Inf, fOf))
    else fxRound false (fxExp (fxOf s m e)).toNat 0

def f32Exp2 (x : Nat) : Nat × Nat :=
  match f32Val x with
  | .nan a => (f32Nan, (Fv.nan a).nv)
  | .inf s => (if s then 0 else f32Inf, 0)
  | .fin s m e =>
    if s = false ∧ finGe m e 128 then (f32Inf, fOf)
    else if s ∧ finGe m e 150 then (0, fUf)
    else
      let v := fxOf s m e
      let k := v / fxOne
      let f := v % fxOne
      if f = 0 then f32Round false 1 k false else fxRound false (fxExp (fxMul f fxLn2)).toNat k

/-- ln x, or log2 x. -/
def f32LogOp (base2 : Bool) (x : Nat) : Nat × Nat :=
  match f32Val x with
  | .nan a => (f32Nan, (Fv.nan a).nv)
  | .inf s => if s then (f32Nan, fNv) else (f32Inf, 0)
  | .fin s m e =>
    if m = 0 then (0x80000000 + f32Inf, fDz)
    else if s then (f32Nan, fNv)
    else
      let l := bitLen m - 1
      if m = 2 ^ l ∧ (base2 ∨ e + l = 0) then ((Fv.ofInt (e + l) 0).toF32.1, 0)
      else
        let v := if base2 then fxLn m e * fxOne / fxLn2 else fxLn m e
        ((fxRound (v < 0) v.natAbs 0).1, 0)

def f32Recip (x : Nat) : Nat × Nat :=
  match f32Val x with
  | .nan a => (f32Nan, (Fv.nan a).nv)
  | .inf s => (f32Neg s, 0)
  | .fin s m e =>
    if m = 0 then (f32Neg s + f32Inf, fDz)
    else
      let r := (f32Round s (2 ^ 64 / m) (-e - 64) (2 ^ 64 % m != 0)).1
      (r, if r % 2 ^ 31 = f32Inf then fOf else 0)

def f32Rsqrt (x : Nat) : Nat × Nat :=
  match f32Val x with
  | .nan a => (f32Nan, (Fv.nan a).nv)
  | .inf s => if s then (f32Nan, fNv) else (0, 0)
  | .fin s m e =>
    if m = 0 then (f32Neg s + f32Inf, fDz)
    else if s then (f32Nan, fNv)
    else
      let (m, e) := if e % 2 = 0 then (m, e) else (2 * m, e - 1)
      let n := 2 ^ 160 / m
      let r := nsqrt n
      ((f32Round false r (-(e / 2) - 80) (r * r * m != 2 ^ 160)).1, 0)

/-- 1 / (1 + e^-x) as fixed point, for |x| < 200. -/
def fxSigmoid (x : Int) : Int :=
  if 0 ≤ x then fxOne * fxOne / (fxOne + fxExp (-x)) else fxExp x * fxOne / (fxOne + fxExp x)

def f32Sigmoid (x : Nat) : Nat × Nat :=
  match f32Val x with
  | .nan a => (f32Nan, (Fv.nan a).nv)
  | .inf s => (if s then 0 else 0x3F800000, 0)
  | .fin s m e =>
    if m = 0 then (0x3F000000, 0)
    else if finGe m e 200 then (if s then (0, fUf) else (0x3F800000, 0))
    else fxRound false (fxSigmoid (fxOf s m e)).toNat 0

/-- An odd function that tends to ±1: its value for finite arguments below a bound. -/
def f32Odd (f : Int → Int) (bound x : Nat) : Nat × Nat :=
  match f32Val x with
  | .nan a => (f32Nan, (Fv.nan a).nv)
  | .inf s => (f32Neg s + 0x3F800000, 0)
  | .fin s m e =>
    if m = 0 then (f32Neg s, 0)
    else if finGe m e bound then (f32Neg s + 0x3F800000, 0)
    else ((fxRound s (f (fxOf false m e)).toNat 0).1, 0)

/-- tanh x = (e^2x − 1) / (e^2x + 1). -/
def fxTanh (x : Int) : Int :=
  let y := fxExp (2 * x)
  (y - fxOne) * fxOne / (y + fxOne)

def f32Tanh (x : Nat) : Nat × Nat := f32Odd fxTanh 20 x
def f32Erf (x : Nat) : Nat × Nat := f32Odd fxErf 6 x

/-- SILU, GELU_ERF and GELU_TANH: the sequences of R221. -/
def f32Silu (x : Nat) : Nat × Nat :=
  let (t, f1) := f32Sigmoid x
  let (r, f2) := f32Mul x t
  (r, f1 ||| f2)

def f32GeluErf (x : Nat) : Nat × Nat :=
  let (a, f1) := f32Mul x 0x3F3504F3
  let (t, f2) := f32Erf a
  let (y, f3) := f32Mul x 0x3F000000
  let (r, f4) := f32Fma y t y
  (r, f1 ||| f2 ||| f3 ||| f4)

def f32GeluTanh (x : Nat) : Nat × Nat :=
  let (u, f1) := f32Mul x x
  let (p, f2) := f32Mul u 0x3D372713
  let (q, f3) := f32Fma p x x
  let (a, f4) := f32Mul q 0x3F4C422A
  let (t, f5) := f32Tanh a
  let (y, f6) := f32Mul x 0x3F000000
  let (r, f7) := f32Fma y t y
  (r, f1 ||| f2 ||| f3 ||| f4 ||| f5 ||| f6 ||| f7)

/-! ### Sums in the canonical order (R146, R218) -/

/-- Neighbours of a level paired by an operation; an absent entry leaves its partner unchanged. -/
def pairUp (f : Nat → Nat → Nat × Nat) : List (Option Nat) → List (Option Nat) × Nat
  | a :: b :: r =>
    let (l, fl) := pairUp f r
    match a, b with
    | some x, some y => let (z, g) := f x y; (some z :: l, g ||| fl)
    | some x, none => (some x :: l, fl)
    | none, y => (y :: l, fl)
  | l => (l, 0)

/-- The binary tree over a list: `fuel` levels. -/
def tree (f : Nat → Nat → Nat × Nat) : Nat → List (Option Nat) → Option Nat × Nat
  | 0, l => (l.head?.join, 0)
  | n + 1, l =>
    if l.length ≤ 1 then (l.head?.join, 0)
    else
      let (l', fl) := pairUp f l
      let (r, g) := tree f n l'
      (r, fl ||| g)

/-! ### Activations (Table 2-9) -/

def activation (act p0 p1 x : Nat) : Nat × Nat :=
  match act with
  | 1 => if (f32Val x).isNan then (f32Nan, (f32Val x).nv) else if x.testBit 31 then (0, 0) else (x, 0)
  | 2 =>
    let (y, f) := f32Max x p0
    let (z, g) := f32Min y p1
    (z, f ||| g)
  | 3 => if (f32Val x).isNan ∨ f32Ord x < 0 then f32Mul x p0 else (x, 0)
  | 4 => f32GeluTanh x
  | 5 => f32GeluErf x
  | 6 => f32Silu x
  | 7 => f32Sigmoid x
  | 8 => f32Tanh x
  | _ => (x, 0)

/-! ### Output conversion (R158, R159, Table 2-10) -/

/-- An integer saturated to a signed or unsigned target: its bits and OUT_SAT. -/
def satInt (fmt : Nat) (v : Int) : Nat × Nat :=
  let (lo, hi, w) : Int × Int × Nat := match fmt with
    | 0x00 => (-128, 127, 8)
    | 0x01 => (0, 255, 8)
    | 0x02 => (-8, 7, 4)
    | _ => (-2 ^ 31, 2 ^ 31 - 1, 32)
  if v < lo then (bitsOf w lo, fOutSat) else if hi < v then (bitsOf w hi, fOutSat) else (bitsOf w v, 0)

/-- A floating-point target: significant bits, log2 of the least unit, exponent and mantissa bits, the largest finite code
and the code of an infinity or NaN where it has one. -/
structure Target where
  p      : Nat
  q      : Int
  w      : Nat
  maxFin : Nat
  inf    : Option Nat
  nan    : Nat
  deriving DecidableEq, Repr

/-- The floating-point targets; the MX element formats have no infinity and no NaN. E5M2 output saturates (Table 2-10). -/
def targetOf (fmt : Nat) : Option Target :=
  match fmt with
  | 0x03 | 0x05 => some { p := 4, q := -9, w := 8, maxFin := 0x7E, inf := none, nan := 0x7F }
  | 0x04 | 0x06 => some { p := 3, q := -16, w := 8, maxFin := 0x7B, inf := none, nan := 0x7F }
  | 0x07 => some { p := 3, q := -4, w := 6, maxFin := 0x1F, inf := none, nan := 0 }
  | 0x08 => some { p := 4, q := -3, w := 6, maxFin := 0x1F, inf := none, nan := 0 }
  | 0x09 => some { p := 2, q := -1, w := 4, maxFin := 0x7, inf := none, nan := 0 }
  | 0x0B => some { p := 8, q := -133, w := 16, maxFin := 0x7F7F, inf := some 0x7F80, nan := 0x7FC0 }
  | 0x0C => some { p := 11, q := -24, w := 16, maxFin := 0x7BFF, inf := some 0x7C00, nan := 0x7E00 }
  | 0x0D => some { p := 24, q := -149, w := 32, maxFin := 0x7F7FFFFF, inf := some f32Inf, nan := f32Nan }
  | _ => none

/-- A value as an element of a target format: its code, and NAN_OUT, INF_OUT or OUT_SAT (Table 2-10). -/
def outElem (fmt : Nat) (v : Fv) : Nat × Nat :=
  match targetOf fmt with
  | some t =>
    let sg (s : Bool) : Nat := if s then 2 ^ (t.w - 1) else 0
    let big (s : Bool) : Nat × Nat := match t.inf with
      | some i => (sg s + i, fInfOut)
      | none => (sg s + t.maxFin, fOutSat)
    match v with
    | .nan _ => (t.nan, fNanOut)
    | .inf s => big s
    | .fin s m e =>
      let c := (roundCode t.p t.q m e false).1
      if t.maxFin < c then big s else (sg s + c, 0)
  | none =>
    if fmt = 0x0A then
      -- MXINT8: symmetric, in units of 2^-6
      match v with
      | .nan _ => (0, fNanOut)
      | .inf s => (bitsOf 8 (if s then -127 else 127), fOutSat)
      | .fin s m e =>
        let i := (toIntMode 0 s m (e + 6)).1
        if 127 < i then (127, fOutSat) else if i < -127 then (bitsOf 8 (-127), fOutSat) else (bitsOf 8 i, 0)
    else
      match v with
      | .nan _ => (0, fOutSat)
      | .inf s => satInt fmt (if s then -2 ^ 40 else 2 ^ 40)
      | .fin s m e => satInt fmt (toIntMode 0 s m e).1

/-- The exponent of the largest normal of an MX element format (R159). -/
def mxEmax (fmt : Nat) : Int :=
  match fmt with
  | 0x05 => 8
  | 0x06 => 15
  | 0x07 => 4
  | 0x08 => 2
  | 0x09 => 2
  | _ => 0

/-- What a conversion stores, its flags and its count of saturated elements. -/
structure OutRow where
  bytes : List Byte
  flags : Nat
  sat   : Nat
  deriving DecidableEq, Repr

/-- The count of saturated elements among codes with flags. -/
def satCount (l : List (Nat × Nat)) : Nat := (l.filter fun c => c.2.testBit 4).length

def orFlags (l : List (Nat × Nat)) : Nat := l.foldl (fun a c => a ||| c.2) 0

/-- One MX block of up to 32 binary32 values, completed with +0 (R159). -/
def mxBlockOut (fmt : Nat) (xs : List Nat) : OutRow :=
  let vs := (xs ++ List.replicate (32 - xs.length) 0).map f32Val
  if vs.any Fv.isNan then
    { bytes := 0xFF :: packCodes (elemBits fmt) (List.replicate 32 0), flags := fNanOut, sat := 0 }
  else
    let logs : List Int := vs.filterMap fun v => match v with
      | .fin _ m e => if m = 0 then none else some (e + bitLen m - 1)
      | _ => none
    let scale : Nat := match logs with
      | [] => if vs.any fun v => match v with | .inf _ => true | _ => false then 254 else 0
      | l :: r => (min 254 (max 0 (r.foldl max l - mxEmax fmt + 127))).toNat
    let cs := vs.map fun v => outElem fmt (v.scale (127 - (scale : Int)))
    { bytes := BitVec.ofNat 8 scale :: packCodes (elemBits fmt) (cs.map Prod.fst), flags := orFlags cs, sat := satCount cs }

/-- The MX blocks of a list of values, 32 at a time. `fuel` bounds the blocks. -/
def mxRowOut (fmt : Nat) : List Nat → Nat → OutRow
  | _, 0 => { bytes := [], flags := 0, sat := 0 }
  | [], _ => { bytes := [], flags := 0, sat := 0 }
  | x :: r, f + 1 =>
    let b := mxBlockOut fmt ((x :: r).take 32)
    let t := mxRowOut fmt ((x :: r).drop 32) f
    { bytes := b.bytes ++ t.bytes, flags := b.flags ||| t.flags, sat := b.sat + t.sat }

/-- A row of binary32 values in an output format. -/
def rowOut (fmt : Nat) (xs : List Nat) : OutRow :=
  if isMx fmt then mxRowOut fmt xs xs.length
  else
    let cs := xs.map fun x => outElem fmt (f32Val x)
    { bytes := packCodes (elemBits fmt) (cs.map Prod.fst), flags := orFlags cs, sat := satCount cs }

end Sys2Proof.Machine
end

