-- ==== Sys2Proof/Machine/Operands.lean ====
section
/-! DEFINITION. The operand forms of the opcodes: classes, bindings, the defined bits of an inline operand block, and
the checks that acceptance makes of a descriptor (Tables 1-4, 1-5 and 1-9, R63 to R66, R86, R115). -/

namespace Sys2Proof.Machine

open Sys2Proof

/-! ### Detail codes (Table 1-9) -/

namespace Det
abbrev none : Nat := 0
abbrev badOpcode : Nat := 0x1
abbrev reservedNonzero : Nat := 0x2
abbrev badClass : Nat := 0x3
abbrev badStation : Nat := 0x4
abbrev partMismatch : Nat := 0x5
abbrev stationNotOwned : Nat := 0x6
abbrev dupProducer : Nat := 0x7
abbrev tooManyConsumers : Nat := 0x8
abbrev seqOrder : Nat := 0x9
abbrev dupSeq : Nat := 0xA
abbrev addrFault : Nat := 0xB
abbrev opbLength : Nat := 0xC
abbrev tileFormat : Nat := 0xD
abbrev tileIndexOvf : Nat := 0xE
abbrev nconsZero : Nat := 0xF
abbrev upstream : Nat := 0x10
abbrev faultContained : Nat := 0x11
abbrev binding : Nat := 0x12
abbrev operandRange : Nat := 0x13
abbrev zcUnsupported : Nat := 0x107
abbrev mxGeometry : Nat := 0x105
abbrev accInShape : Nat := 0x108
end Det

/-! ### Status codes (Table 1-8) -/

namespace St
abbrev done : Nat := 0
abbrev abortLate : Nat := 1
abbrev aborted : Nat := 2
abbrev fencedReplaced : Nat := 3
abbrev cmdError : Nat := 4
abbrev partTorndown : Nat := 5
abbrev droppedCancelled : Nat := 6
end St

/-! ### Stations (Table 1-1) -/

/-- The first station and the number of stations of a class. -/
def classStations (c : Nat) : Option (Nat × Nat) :=
  match c with
  | 0 => some (0, 32)
  | 1 => some (32, 16)
  | 2 => some (48, 4)
  | 3 => some (52, 2)
  | 4 => some (54, 2)
  | 5 => some (56, 2)
  | 6 => some (58, 2)
  | 7 => some (60, 1)
  | _ => none

/-- The logical station a descriptor names, as the station number its class and index give (R30, R791). -/
def Tracked.logical (t : Tracked) : Nat :=
  match classStations t.desc.cls with | some (b, _) => b + t.desc.lstation | none => 63

/-- The station that carries a logical station: the map's for a CE or DE, itself elsewhere (R33, R34). -/
def physical (s : State) (l : Nat) : Nat :=
  if l < 32 then tgetD s.mapCe l l
  else if l < 48 then 32 + tgetD s.mapDe (l - 32) (l - 32)
  else l

/-! ### Opcodes (Table 1-5) -/

/-- The operand form of an opcode: the classes that execute it, the inputs and outputs it requires and has, the
defined bits of an inline operand block, whether the block may be external, and the least OPB_LEN. -/
structure OpInfo where
  classes : List Nat
  inMin   : Nat
  inMax   : Nat
  outMin  : Nat
  outMax  : Nat
  mask    : Nat
  ext     : Bool
  minLen  : Nat
  deriving DecidableEq, Repr

/-- The operand forms, by opcode; none where the opcode is reserved. -/
def opInfo (op : Nat) : Option OpInfo :=
  match op with
  | 0x00 => some ⟨[0, 1, 2, 3, 4, 5, 6, 7], 0, 0, 0, 0, 0, false, 32⟩
  | 0x01 => some ⟨[0, 1, 2], 0, 0, 1, 1, 0x7fffffffffffffffff0000001fffffffff7fffffffffffffff, false, 32⟩
  | 0x02 => some ⟨[0, 1, 2], 1, 1, 0, 0, 0xffffffff0000000000000000ffffffff0000ffffffffffff, false, 32⟩
  | 0x10 => some ⟨[0, 1], 2, 3, 1, 1, 0xffff3fffffffffffffffffffffffff000003ff1fffffffffffffffffffffff, true, 32⟩
  | 0x11 => some ⟨[0, 1], 2, 2, 1, 1, 0xffff3fffffffffffffffffffffffff000003ff1fffffffffffffffffffffff, true, 32⟩
  | 0x12 => some ⟨[0, 1], 1, 1, 1, 1, 0xffff3fffffffffffffffffffffffff000003ff1fffffffffffffffffffffff, true, 32⟩
  | 0x30 => some ⟨[0, 1], 0, 4, 0, 2, 0xffffffffffffffffffffffffffffffff07ffffffffffffff0fffffffffffffff, true, 32⟩
  | 0x40 => some ⟨[0], 2, 2, 1, 1, 0xffffffffffffffff000003ff1fffffffffffffffffffffffffffffffffffffff, true, 32⟩
  | 0x41 => some ⟨[0], 1, 1, 1, 1, 0xffffffffffff00000000000000ffffffffffffffffffffffffffffffffff, true, 32⟩
  | 0x42 => some ⟨[0], 1, 1, 1, 2, 0x1f0000ffffffffffff, true, 32⟩
  | 0x43 => some ⟨[0], 1, 1, 1, 1, 0, true, 32⟩
  | 0x50 => some ⟨[0, 1], 1, 4, 1, 2, 0xffffffffffffffffffffffffffffffffffffffffffff00001fffffffffff, true, 32⟩
  | 0x51 => some ⟨[0], 4, 4, 2, 2, 0xffffffffffffffffffffffffffffffffffffffffffff00001fffffffffff, true, 32⟩
  | 0x52 => some ⟨[2], 0, 1, 0, 1, 0xffff0000ffffffffffff0000ffffffffffff, false, 32⟩
  | 0x60 => some ⟨[7], 1, 2, 1, 2, 0xffffffffffff000000000003ffff001fffffffffffff3fffffffffffffff, false, 32⟩
  | 0x61 => some ⟨[7], 0, 1, 0, 0, 0xffff0000ffffffffffff0000ffffffffffff, false, 32⟩
  | 0x68 => some ⟨[4], 0, 1, 0, 0, 0xffff0000ffffffffffff0000ffffffffffff, false, 32⟩
  | 0x69 => some ⟨[4], 0, 0, 1, 2, 0x7ffff003f, false, 32⟩
  | 0x6A => some ⟨[4], 1, 1, 1, 2, 0xffff001f, false, 32⟩
  | 0x70 => some ⟨[3], 0, 2, 0, 2, 0xffffffffffffffffffffffffffffffffffffffff0000ffff, false, 32⟩
  | 0x78 => some ⟨[5], 0, 0, 1, 1, 0x7fffffffffffffffffffffffffffffffff3fffffff, false, 32⟩
  | 0x79 => some ⟨[5], 1, 1, 0, 0, 0xffffffffffffffffffffffff000003ff, false, 32⟩
  | 0x7A => some ⟨[5], 1, 1, 0, 0, 0, false, 32⟩
  | 0x7C => some ⟨[6], 1, 1, 0, 0, 0xffff003f, false, 32⟩
  | 0x7D => some ⟨[6], 0, 0, 1, 1, 0x3fffff003f, false, 32⟩
  | 0x7E => some ⟨[6], 0, 1, 0, 0, 0xffffffffffffffff000000000000ffff, false, 32⟩
  | 0x7F => some ⟨[6], 1, 1, 0, 0, 0xf3f, false, 32⟩
  | _ => none

/-- How many inputs, or outputs, of the first `n` are used. -/
def usedCount (f : Nat → Nat) (n : Nat) : Nat := ((List.range n).filter fun i => f i != 0).length

/-- The used ones of the first `n` come first (R64). -/
def packed (f : Nat → Nat) (n : Nat) : Bool :=
  (List.range n).all fun i => f i == 0 || (List.range i).all fun j => f j != 0

/-- Every bit of `n` lies in the mask. -/
def within (n mask : Nat) : Bool := n &&& mask == n

/-- The bits of a descriptor that Table 1-4 reserves are zero (R62, R115). -/
def reservedZero (d : Desc) : Bool :=
  fld d.w0.toNat 11 11 == 0 && fld d.w0.toNat 31 26 == 0 && fld d.w3.toNat 63 40 == 0 &&
    (!d.extOpb || (fld d.w4.toNat 63 48 == 0 && fld d.w5.toNat 63 12 == 0 && d.w6.toNat == 0 && d.w7.toNat == 0 &&
      fld d.opbAddr 4 0 == 0))

/-- ATTN binds IN0, with APPEND = 1 IN1 and IN2 and perhaps the order stream IN3, and OUT1 exactly with SAVE_STATS
(R304, R64; DEDUCED, log 59). -/
def attnBound (w0 ni no : Nat) : Bool :=
  (if w0.testBit 42 then ni == 3 || ni == 4 else ni == 1) && no == (if w0.testBit 43 then 2 else 1)

/-- The bindings of an opcode depend on its operand block, which the Loom then reads at acceptance where it is external (R166,
R304). -/
def blockBound (op : Nat) : Bool := op == 0x10 || op == 0x50

/-- The bindings that an operand block asks for: ATTN's, and IN2 of a GEMM bound exactly when ACC_IN_EN is 1 (R166). -/
def bindingCheck (op : Nat) (opb : List Byte) (ni no : Nat) : Option Nat :=
  if op = 0x50 ∧ ¬ attnBound (opw opb 4 63 0) ni no then some Det.binding
  else if op = 0x10 ∧ (opw opb 5 18 18 == 1) != decide (3 ≤ ni) then some Det.accInShape
  else none

/-- The first failing check of a descriptor that needs no stream or queue state, as a detail code (R31, R63 to R67, R115, R166).
The manual gives no order among the checks: reserved fields come first, then opcode, class, station, bindings, consumers and the
operand block, and then the checks of `stateCheck` (DESIGN CHOICE, log 97). An external block of an opcode whose chapter has its
block inline is a non-zero field that must be zero (DEDUCED, log 97). -/
def formCheck (d : Desc) : Option Nat :=
  if ¬ reservedZero d then some Det.reservedNonzero
  else
    match opInfo d.opcode with
    | none => some Det.badOpcode
    | some o =>
      match classStations d.cls with
      | none => some Det.badClass
      | some (_, n) =>
        let ni := usedCount d.inStream 4
        let no := usedCount d.outStream 2
        if d.cls ∉ o.classes then some Det.badClass
        else if n ≤ d.lstation then some Det.badStation
        else if ¬ packed d.inStream 4 ∨ ¬ packed d.outStream 2 then some Det.binding
        else if ni < o.inMin ∨ o.inMax < ni ∨ no < o.outMin ∨ o.outMax < no then some Det.binding
        else if (List.range 2).any (fun i => (d.outStream i != 0) != (d.ncons i != 0)) then some Det.nconsZero
        else if (List.range 2).any (fun i => 8 < d.ncons i) then some Det.tooManyConsumers
        else if d.extOpb ∧ ¬ o.ext then some Det.reservedNonzero
        else if ¬ d.extOpb ∧ d.opcode ≠ 0x43 ∧ ¬ within d.inlineOpb o.mask then some Det.reservedNonzero
        else if ¬ d.extOpb ∧ d.opcode = 0x43 then some Det.opbLength
        else if d.extOpb ∧ d.opbLen < o.minLen then some Det.opbLength
        else if d.opcode = 0x01 ∧ (fld d.w6.toNat 31 0 = 0 ∨ 0x10 ≤ fld d.w5.toNat 36 32) then some Det.operandRange
        else if d.opcode = 0x70 ∧ (fld d.w5.toNat 63 48 = 0 ∨ fld d.w6.toNat 63 48 = 0 ∨
            fld d.w5.toNat 5 0 ≠ 0 ∨ fld d.w6.toNat 5 0 ≠ 0) then some Det.operandRange
        else if d.opcode = 0x78 ∧ (fld d.w6.toNat 31 0 = 0 ∨ 0x10 ≤ fld d.w4.toNat 29 25 ∨
            ¬ wholeRow (fld d.w4.toNat 29 25) (fld d.w4.toNat 24 17 + 1)) then some Det.operandRange
        else if ¬ d.extOpb then bindingCheck d.opcode (leBytes 32 d.inlineOpb) ni no
        else none

/-- The unit of a station that executes an opcode: 0 the engine or the station's one unit, 1 the mover of a CE or DE;
on a VD, 0 the control unit and 1 + c the channel c of a VDEC, 41 + c of a VENC (R118, R119, R483). -/
def unitOf (t : Tracked) : Nat :=
  if t.desc.cls ≤ 1 ∧ (t.op = 0x01 ∨ t.op = 0x02) then 1
  else if t.op = 0x69 ∧ fld t.desc.w4.toNat 5 0 < 40 then 1 + fld t.desc.w4.toNat 5 0
  else if t.op = 0x6A ∧ fld t.desc.w4.toNat 4 0 < 20 then 41 + fld t.desc.w4.toNat 4 0
  else 0

end Sys2Proof.Machine
end

