-- ==== Sys2Proof/Machine/MemOps.lean ====
section
/-! DEFINITION. The errors of lodes and Commons banks as their registers and pins show them, and the stores that the module's own
units make (R440 to R447, Table 7-2). -/

namespace Sys2Proof.Machine

open Sys2Proof

/-! ### Errors of memory and stores (R440, Table 7-2) -/

/-- The error registers of the lode or Commons bank that serves a canonical address: status, count, address. -/
def errRegs (c : Nat) : Nat × Nat × Nat :=
  if c < lpddrTop then
    let n := (lodeOf c).1; (A.lodeErrStatus n, A.lodeErrCount n, A.lodeErrAddr n)
  else let m := memStation c - 48; (A.cmErrStatus m, A.cmErrCount m, A.cmErrAddr m)

/-- The fault source of the lode or bank of a canonical address (Table 16-1). -/
def memSource (c : Nat) : Nat := if c < lpddrTop then 96 + (lodeOf c).1 else 112 + (memStation c - 48)

/-- Bytes a command or the module stores: a partial write to a codeword with an uncorrectable error is discarded and
reported (Table 7-2). -/
def State.storeBytes (s : State) (a : Nat) (bs : List Byte) : State :=
  let bad := (codewords a bs.length).filter fun v =>
    s.badLines.contains v.2 && (decide (v.1 < a) || decide (a + bs.length < v.1 + codeBytes v.2))
  let s := bad.foldl (fun (s : State) (v : Nat × Nat) =>
    let (st, _, _) := errRegs v.2
    (s.setReg st (s.reg st ||| 4)).pinReport (memSource v.2) 2 4) s
  s.writeBytes a bs

/-! ### Errors counted (R443 to R445, R936) -/

/-- An uncorrectable line read: counted, its address recorded where no record stands, the error pin raised (R445,
Table 7-5). `part` is the requester's partition, none for scrub. -/
def State.logUncorrected (s : State) (c : Nat) (part : Option Nat) : State :=
  let (st, cnt, ad) := errRegs c
  let s := s.setReg st (s.reg st ||| 2)
  let s := s.bump cnt A.lodeErrCount_uncorrected 1
  let s := if (s.reg ad).testBit 63 then s
    else s.setReg ad ((c / 64) * 64 + part.getD 0 * 2 ^ 48 + (if part.isNone then 2 ^ 51 else 0) + 2 ^ 63)
  s.pinReport (memSource c) 2 2

/-- A corrected error counted: CORR, the count, the error pin (R443, R465, R936). -/
def State.logCorrected (s : State) (c : Nat) : State :=
  let (st, cnt, _) := errRegs c
  ((s.setReg st (s.reg st ||| 1)).bump cnt A.lodeErrCount_corrected 1).pinReport (memSource c) 1 1

/-- A fatal source of a lode or bank: bit 3, 4 or 5 of its error status (Table 7-2, R465, R936). A bank has bit 5 alone. -/
def State.memFatal (s : State) (c bit : Nat) : State :=
  let (st, _, _) := errRegs c
  let bit := if c < lpddrTop then bit else 5
  (s.setReg st (s.reg st ||| 2 ^ bit)).pinReport (memSource c) 3 (2 ^ bit)

/-- A codeword found to hold an uncorrectable error stays so (R444). -/
def State.markBad (s : State) (c : Nat) : State :=
  if s.badLines.contains (codeword c) then s else { s with badLines := s.badLines ++ [codeword c] }

/-! ### What the array shows (R438, R442, R454, R936) -/

/-- What a codeword's code makes of `n` symbols in error. -/
inductive Ecc where
  | clean
  | corrected
  | detected
  /-- The manual gives no class: more symbols than the code is sure to detect. -/
  | unsaid
  deriving DecidableEq, Repr

/-- The class of `n` symbols in error of the codeword of a canonical address: one byte of an LPDDR5X codeword is corrected, two or three
detected; one bit of a Commons codeword is corrected, two detected (R438, R454, Table 7-2). -/
def eccClass (c n : Nat) : Ecc :=
  if n = 0 then .clean else if n = 1 then .corrected
  else if n ≤ (if c < lpddrTop then 3 else 2) then .detected else .unsaid

/-- How an access goes on after what the array showed of its first codeword. -/
inductive Seen where
  /-- It is served. -/
  | data
  /-- It is served with wrong data in that codeword. -/
  | wrong
  /-- The codeword is uncorrectable. -/
  | bad
  /-- The controller abandons it after a fatal error. -/
  | lost
  deriving DecidableEq, Repr

/-- The controller's answer to what the array shows on an access whose first codeword lies at a canonical address (Table 7-2, R443,
R444, R936). Where the manual gives no class, a free value chooses one (DESIGN CHOICE, log 100). -/
def State.observe (s : State) (c : Nat) (obs : MemObs) : State × Seen :=
  match obs with
  | .clean => (s, .data)
  | .symbols n =>
    match eccClass c n with
    | .clean => (s, .data)
    | .corrected => (s.logCorrected c, .data)
    | .detected => (s.markBad c, .bad)
    | .unsaid =>
      let v := s.freeVal % 3
      let s := s.tickFree
      if v = 0 then (s.markBad c, .bad) else if v = 1 then (s.logCorrected c, .wrong) else (s, .wrong)
  | .parityRetried => (if c < lpddrTop then s.logCorrected c else s, .data)
  | .parityPersistent => if c < lpddrTop then (s.memFatal c 3, .lost) else (s, .data)
  | .checkCache => if c < lpddrTop then (s.memFatal c 4, .lost) else (s, .data)
  | .ctlParity => (s.memFatal c 5, .lost)

/-- The bytes of a range with those of one codeword misread. -/
def misreadBytes (s : State) (c a n : Nat) : List Byte :=
  (readBytes s a n).mapIdx fun i b =>
    match canon (a + i) with
    | some x => if codeword x = codeword c then Config.misread x b s.free else b
    | none => b

/-- A codeword written back as it was misread. -/
def State.storeMisread (s : State) (c : Nat) : State :=
  s.writeBytes (codeword c) (misreadBytes s c (codeword c) (codeBytes c))

end Sys2Proof.Machine
end

