-- ==== Sys2Proof/Machine/PageOps.lean ====
section
/-! DEFINITION. Page classes, frames, page handles and ledger entries, and the pins that engines hold (R292 to R300, R333 to R335). -/

namespace Sys2Proof.Machine

open Sys2Proof

/-! ### Classes (R292 to R295) -/

def clsValid (s : State) (n : Nat) : Bool := n < 16 && s.flag (A.ledgerClass n) A.ledgerClass_valid
def pageBytes (s : State) (n : Nat) : Nat := 2 ^ s.fget (A.ledgerClass n) A.ledgerClass_pageLog2
def pgPos (s : State) (n : Nat) : Nat := 2 ^ s.fget (A.ledgerClass n) A.ledgerClass_pgPosLog2
def clsHkv (s : State) (n : Nat) : Nat := s.fget (A.ledgerClass n) A.ledgerClass_hkvM1 + 1
def clsDim (s : State) (n : Nat) : Nat := 64 * 2 ^ s.fget (A.ledgerClass n) A.ledgerClass_dimCode
def clsFmt (s : State) (n : Nat) : Nat := s.fget (A.ledgerClass n) A.ledgerClass_fmt
def perLode (s : State) (n : Nat) : Nat := s.fget (A.ledgerPool n) A.ledgerPool_framesPerLode

/-- ENTRY_BYTES of KV heads, head dimension and format (R293). -/
def entryBytesOf (hkv dim fmt : Nat) : Nat := (2 * hkv * dim * (if fmt = 0x0B ∨ fmt = 0x0C then 2 else 1) + 63) / 64 * 64

def entryBytes (s : State) (n : Nat) : Nat := entryBytesOf (clsHkv s n) (clsDim s n) (clsFmt s n)

/-- The address of a frame's bytes: in its lode's view, at the pool's offset (R295). -/
def frameAddr (s : State) (n f : Nat) : Nat :=
  let k := perLode s n
  0x010000000000 + (f / k) * 0x600000000 + s.fget (A.ledgerPool n) A.ledgerPool_poolOffset + (f % k) * pageBytes s n

/-! ### Entries and handles (R296 to R300) -/

/-- A page ledger entry (Table 5-1). -/
structure PageEntry where
  ref     : Nat
  pins    : Nat
  owner   : Nat
  live    : Nat
  noEvict : Bool
  gen     : Nat
  score   : Nat
  deriving DecidableEq, Repr

/-- The states of Table 5-1. -/
abbrev pgFree : Nat := 0
abbrev pgLive : Nat := 1
abbrev pgRetired : Nat := 2

def PageEntry.ofWord (w : Nat) : PageEntry :=
  { ref := fld w 19 0, pins := fld w 31 20, owner := fld w 34 32, live := fld w 36 35, noEvict := w.testBit 37,
    gen := fld w 45 38, score := fld w 61 46 }

def PageEntry.word (e : PageEntry) : Nat :=
  e.ref + e.pins * 2 ^ 20 + e.owner * 2 ^ 32 + e.live * 2 ^ 35 + (if e.noEvict then 2 ^ 37 else 0) + e.gen * 2 ^ 38 +
    e.score * 2 ^ 46

def entryAddr (s : State) (n f : Nat) : Nat := s.fget (A.ledgerEntryBase n) A.ledgerEntryBase_base / 8 * 8 + 8 * f

def pageEntry (s : State) (n f : Nat) : PageEntry := PageEntry.ofWord (word64 s (entryAddr s n f))

/-- The RETIRED frames of a class. -/
def retiredOf (s : State) (n : Nat) : Nat := (tget s.retired n).getD 0

/-- An entry written, with the class's counts of LIVE and FREE frames (LEDGER_COUNT_n) and of RETIRED ones. -/
def State.setEntry (s : State) (n f : Nat) (e : PageEntry) : State :=
  let old := (pageEntry s n f).live
  let c := A.ledgerCount n
  let live := s.fget c A.ledgerCount_live - (if old = pgLive then 1 else 0) + (if e.live = pgLive then 1 else 0)
  let free := s.fget c A.ledgerCount_free - (if old = pgFree then 1 else 0) + (if e.live = pgFree then 1 else 0)
  let gone := retiredOf s n - (if old = pgRetired then 1 else 0) + (if e.live = pgRetired then 1 else 0)
  let s := ((s.storeBytes (entryAddr s n f) (leBytes 8 e.word)).fset c A.ledgerCount_live live).fset c A.ledgerCount_free free
  { s with retired := tset s.retired n gone }

/-- The handle of a frame with a generation (R296). -/
def mkHandle (n f gen : Nat) : Nat := f + n * 2 ^ 28 + gen * 2 ^ 32

def hFrame (h : Nat) : Nat := fld h 27 0
def hClass (h : Nat) : Nat := fld h 31 28
def hGen (h : Nat) : Nat := fld h 39 32

/-- A handle names a frame of a valid class with the entry's generation. -/
def handleMatches (s : State) (h : Nat) : Bool :=
  h != 0 && fld h 63 40 == 0 && clsValid s (hClass h) && decide (hFrame h < 16 * perLode s (hClass h)) &&
    (pageEntry s (hClass h) (hFrame h)).gen == hGen h

/-- A page's entry replaced. -/
def State.updPage (s : State) (h : Nat) (f : PageEntry → PageEntry) : State :=
  s.setEntry (hClass h) (hFrame h) (f (pageEntry s (hClass h) (hFrame h)))

/-- One reference fewer: at zero the page is RETIRED while pinned, else FREE (Table 5-2). -/
def PageEntry.drop (e : PageEntry) : PageEntry :=
  if e.ref ≤ 1 then { e with ref := 0, live := if e.pins = 0 then pgFree else pgRetired } else { e with ref := e.ref - 1 }

/-- One pin fewer: a RETIRED page without pins is FREE (Table 5-2). -/
def PageEntry.unpin (e : PageEntry) : PageEntry :=
  { e with pins := e.pins - 1, live := if e.live = pgRetired ∧ e.pins ≤ 1 then pgFree else e.live }

/-- A page pinned by an engine; nothing where the handle no longer names a LIVE page (R300, R333). -/
def State.pinPage (s : State) (h : Nat) : State :=
  if handleMatches s h ∧ (pageEntry s (hClass h) (hFrame h)).live = pgLive then
    s.updPage h fun e => { e with pins := e.pins + 1 }
  else s

/-- A page that an engine holds pinned unpinned (R333). -/
def State.unpinPage (s : State) (h : Nat) : State :=
  if handleMatches s h ∧ (pageEntry s (hClass h) (hFrame h)).pins ≠ 0 then s.updPage h PageEntry.unpin else s

/-- A page that an engine has read takes its score as it is unpinned (R333, R349). -/
def State.scorePage (s : State) (h score : Nat) : State :=
  if handleMatches s h ∧ (pageEntry s (hClass h) (hFrame h)).pins ≠ 0 then
    s.updPage h fun e => { e with score := satTo 16 (e.score + score) }.unpin
  else s

/-- The pages that a command's engine holds pinned. -/
def Tracked.pinned (t : Tracked) : List Nat := ((t.work.attn.bind fun a => a.seq).map SeqView.pinned).getD []

/-- A command that stops reading unpins the pages its engine holds (R333, R356). -/
def State.unpinAll (s : State) (t : Tracked) : State :=
  if t.pinned.isEmpty then s
  else (t.pinned.foldl State.unpinPage s).updCmd t.slot fun u => 
    { u with work := { u.work with attn := u.work.attn.map fun a => { a with seq := none } } }

end Sys2Proof.Machine
end

