-- ==== Sys2Proof/Machine/LoomOps.lean ====
section
/-! DEFINITION. The Loom's shared operations: streams and channels, taking and forming tiles, ending a command,
raising its COMPLETION, the drain, replay and containment. -/

namespace Sys2Proof.Machine

open Sys2Proof

/-! ### Streams and channels (R43 to R48, R55, R90) -/

/-- The command's COMPLETION has been granted. -/
def Tracked.granted (t : Tracked) : Bool := t.compl == .granted || t.compl == .kept

/-- The command has completed: its COMPLETION is raised (R105). -/
def Tracked.completed (t : Tracked) : Bool := t.compl != .none

/-- The channels of an output, and the channel of an input. -/
def outChans (s : State) (slot out : Nat) : List Chan := s.chans.filter fun c => c.prod == slot && c.out == out
def inChan? (s : State) (slot inp : Nat) : Option Chan := s.chans.find? fun c => c.cons == slot && c.inp == inp

/-- A channel replaced by a function of itself. -/
def State.updChan (s : State) (prod out cons inp : Nat) (f : Chan → Chan) : State :=
  { s with chans := s.chans.map fun c =>
      if c.prod == prod && c.out == out && c.cons == cons && c.inp == inp then f c else c }

/-- The life of a stream ends here: every consumer its producer declares has received LAST, or the COMPLETIONs of the producer
(`granted`) and of its accepted consumers are all granted (R55). -/
def streamEnds (s : State) (prod out ncons : Nat) (granted : Bool) : Bool :=
  let cs := outChans s prod out
  let got (c : Chan) : Bool := match s.cmd? c.cons with
    | none => true
    | some u => ((u.ins[c.inp]?).map InBind.lastIn).getD true
  let gr (c : Chan) : Bool := match s.cmd? c.cons with | none => true | some u => u.granted
  (cs.length == ncons && cs.all got) || (granted && cs.all gr)

/-- An output's stream is live: its life has not ended, and does not end here (R55). -/
def streamLive (s : State) (t : Tracked) (out : Nat) : Bool :=
  match t.outs[out]? with
  | none => false
  | some o => !o.ceased && !streamEnds s t.slot out o.ncons t.granted

/-- The outputs of a command whose streams' life ends here marked: it does not begin again with a replay (R55). -/
def State.latchLife (s : State) (slot : Nat) : State :=
  match s.cmd? slot with
  | none => s
  | some t => s.updCmd slot fun u =>
      { u with outs := u.outs.mapIdx fun j (o : OutBind) => { o with ceased := o.ceased || streamEnds s slot j o.ncons t.granted } }

/-- A command ended with ABORTED or CMD_ERROR, by its granted record (R101). -/
def Tracked.failed (t : Tracked) : Bool :=
  match t.record with
  | some r => r.status == St.aborted || r.status == St.cmdError
  | none => false

/-- The output of a tracked command that a live stream comes from, as a lingering one names it. -/
def Tracked.source (t : Tracked) (out : Nat) : Linger :=
  { prod := t.slot, out := out, part := t.part, stream := ((t.outs[out]?).map OutBind.stream).getD 0,
    ncons := ((t.outs[out]?).map OutBind.ncons).getD 0, failed := t.failed }

/-- The producer of a stream live in a partition: a tracked one, or one whose slot is free already. -/
def sourceOf (s : State) (p stream : Nat) : Option Linger :=
  (s.tracked.findSome? fun t =>
    if t.part == p then
      ((List.range t.outs.length).find? fun o =>
        ((t.outs[o]?).map OutBind.stream) == some stream && streamLive s t o).map t.source
    else none).or
  (s.lingering.find? fun l => l.part == p && l.stream == stream && !streamEnds s l.prod l.out l.ncons true)

/-- The inputs that wait for a producer of a stream: of commands of the partition not yet ended. -/
def waitingConsumers (s : State) (p stream : Nat) : List (Nat × Nat) :=
  s.tracked.flatMap fun t =>
    if t.part == p && t.compl == .none then
      (List.range t.ins.length).filterMap fun i =>
        if ((t.ins[i]?).map InBind.stream) == some stream && (inChan? s t.slot i).isNone then some (t.slot, i) else none
    else []

/-- A command is eligible: each input has its producer, each output all its consumers (R91). -/
def eligible (s : State) (t : Tracked) : Bool :=
  ((List.range t.ins.length).all fun i => (inChan? s t.slot i).isSome) &&
  ((List.range t.outs.length).all fun o =>
    (outChans s t.slot o).length == ((t.outs[o]?).map OutBind.ncons).getD 0)

/-- The slots of an input's receive window in use: tiles waiting and tiles taken and not released (R43). -/
def InBind.held (b : InBind) : Nat := b.window.length + (b.taken.length - b.released)

/-- The consumer of a channel takes tiles, or will: it has not left its unit for good. -/
def takesTiles (s : State) (c : Chan) : Bool := match s.cmd? c.cons with | none => false | some u => u.phase != .ended

/-- The credits that a consumer grants on an input when its window opens: one for each free slot (R43). -/
def State.openWindows (s : State) (slot : Nat) : State :=
  { s with chans := s.chans.map fun c => if c.cons == slot then { c with credits := 4, net := 0 } else c }

/-- Credits returned on an input: `n` slots released, their credits on the credit network (R45, R938). -/
def State.release (s : State) (slot inp n : Nat) : State :=
  { s with chans := s.chans.map fun c => if c.cons == slot && c.inp == inp then { c with net := c.net + n } else c }

/-! ### Slots -/

/-- Whether the Loom still keeps a completed command's descriptor: some consumer of its outputs has not completed
(R102). -/
def descKept (s : State) (t : Tracked) : Bool :=
  (List.range t.outs.length).any fun o =>
    (outChans s t.slot o).any fun c => match s.cmd? c.cons with | none => false | some u => !u.completed

/-- Tracker slots freed whose record is written and whose descriptor is no longer kept (R108). Their streams that are still
live linger (R55); a channel stays while either end is tracked, so that a replay finds a producer that is no longer
kept (R103). -/
def State.sweep (s : State) : State :=
  let gone (t : Tracked) : Bool := t.compl == .kept && t.phase == .ended && !descKept s t
  let live := (s.tracked.filter gone).flatMap fun t => ((List.range t.outs.length).filter (streamLive s t)).map t.source
  let s' := { s with tracked := s.tracked.filter fun t => !gone t }
  { s' with
    chans := s.chans.filter fun c => (s'.cmd? c.prod).isSome || (s'.cmd? c.cons).isSome
    lingering := (s.lingering ++ live).filter fun l => !streamEnds s' l.prod l.out l.ncons true }

/-! ### Units -/

/-- The running, or staged, command of a unit. -/
def unitCmd (s : State) (st unit : Nat) (ph : Phase → Bool) : Option Tracked :=
  s.tracked.find? fun t => t.place == some (st, unit) && ph t.phase

def Phase.onUnit (p : Phase) : Bool := p == .running || p == .draining

/-- A unit becomes the running unit of a command: its stall time starts, its windows open, START is traced
(R43, R95, Table 17-4). -/
def State.startRun (s : State) (slot : Nat) : State :=
  let s := s.updCmd slot fun t => { t with phase := .running, started := true, moved := s.tb.n, stallSent := false }
  let s := s.openWindows slot
  match s.cmd? slot with | some t => s.trace t.station 2 0 t | none => s

/-- The staged command of a unit runs once the unit is free (R93). -/
def State.promote (s : State) (st unit : Nat) : State :=
  match unitCmd s st unit Phase.onUnit with
  | some _ => s
  | none => match unitCmd s st unit (· == .staged) with | some t => s.startRun t.slot | none => s

/-! ### Video channels (R480) -/

/-- The key of a channel of a VD: decode channels 0 to 39, then encode channels 40 to 59, as VD_CHAN_c numbers them. -/
def chanKey (vd chan : Nat) (encode : Bool) : Nat := vd * 64 + (if encode then 40 + chan else chan)

/-- The open channel of a VD by number and direction, where the VD has it. -/
def vchan? (s : State) (vd chan : Nat) (encode : Bool) : Option VChan :=
  if chan < (if encode then 20 else 40) then tget s.vchans (chanKey vd chan encode) else none

def State.setChan (s : State) (c : VChan) : State := { s with vchans := tset s.vchans (chanKey c.vd c.chan c.encode) c }

/-- Word 0 of a channel's record for the decoding process, which a privileged channel does not change (R511). -/
def plainCodec (codec : Nat) : Nat := if codec.testBit 2 then codec - 4 else codec
def VChan.codec (c : VChan) : Nat := c.recWords.getD 0 0

/-- The channel that a VDEC or VENC names, where it is the command's partition's. -/
def Tracked.chan? (s : State) (t : Tracked) : Option VChan :=
  let vd := t.logical - 54
  let c := if t.op = 0x69 then vchan? s vd (fld t.desc.w4.toNat 5 0) false
    else if t.op = 0x6A then vchan? s vd (fld t.desc.w4.toNat 4 0) true else none
  c.filter fun c => c.owner == t.part

/-- A decode channel has no picture to emit or to decode (R494, R501). -/
def VChan.dry (c : VChan) : Bool :=
  c.ready.isEmpty && (c.waitIrap || decide (Config.released (plainCodec c.codec) c.history.reverse ≤ c.pics - c.base))

/-! ### Time that does not count toward a stall (R95) -/

/-- A VDEC that waits for packets, or a VENC that waits for the first tile of a picture, none of whose tiles awaits credits (R486). -/
def videoWait (s : State) (t : Tracked) : Bool :=
  t.outs.all (fun o => o.queue.isEmpty) &&
    ((t.op == 0x69 && (match t.chan? s with | some c => c.dry | none => false)) ||
      (t.op == 0x6A && t.work.aux == 0 && t.ins.all fun b => b.window.isEmpty))

/-- Reference ticks passed: the tick count rises, and the stall time of a command that is held by its trace buffer or waits on the
outside stands still (R95, R486, R858). -/
def State.passTicks (s : State) (k : Nat) : State :=
  { s with
    tb := { s.tb with n := s.tb.n + k }
    tracked := s.tracked.map fun (t : Tracked) =>
      if t.phase.onUnit && (s.traceHold.contains t.station || videoWait s t) then { t with moved := t.moved + k } else t }

/-! ### Accesses of commands to memory (R39, R41, R121, R425, R426) -/

/-- Bytes of the device clusters' own accesses counted at the global counters, each at the lode or bank that serves it
(Table 17-2). -/
def State.countMem (s : State) (rd : Bool) (a n : Nat) (p : Option Nat) : State :=
  (pieces a n).foldl (fun s r => match canon r.1 with
    | some c => if c < lpddrTop then s.gcount (if rd then 2 else 3) (lodeOf c).1 r.2 p else s.gcount 4 (memStation c - 48) r.2 p
    | none => s) s

/-- A DE reaches its own lode by its direct path, past its local port (R187, R451, Table 2-1). -/
def directPath (st a : Nat) : Bool := decide (32 ≤ st ∧ st < 48) && (canon a).map memStation == some st

/-- The flits of an access between a station and the lodes and banks that serve it, on the mesh links of the dimension-order route
(R39): one flit of request and the data. A request of one flit, and none in answer to a write, are a DESIGN CHOICE (log 109). -/
def State.memLinks (s : State) (rd : Bool) (st a n : Nat) (p : Option Nat) : State :=
  (pieces a n).foldl (fun s r => match canon r.1 with
    | some c =>
      let m := memStation c
      if directPath st r.1 then s
      else if rd then (s.linkFlits (route st m 16) 1 p).linkFlits (route m st 16) ((r.2 + 63) / 64) p
      else s.linkFlits (route st m 16) (1 + (r.2 + 63) / 64) p
    | none => s) s

/-- The bytes of a range that do not come by the direct path of a DE. -/
def portBytes (st a n : Nat) : Nat := (((pieces a n).filter fun r => !directPath st r.1).map Prod.snd).sum

/-- Memory responses of `n` bytes received by a command's station: counted, with their flits at its local port and on the Seam (R39,
R121, Tables 17-1 and 17-2). -/
def State.memIn (s : State) (t : Tracked) (a n : Nat) : State :=
  (((s.count t.station 10 n t).countMem true a n (some t.part)).count t.station 8 ((portBytes t.station a n + 63) / 64) t).memLinks
    true t.station a n (some t.part)

/-- Memory responses of a kernel or its parameters, which use the local port whatever lode they come from (R197). -/
def State.kernelIn (s : State) (t : Tracked) (a n : Nat) : State :=
  (((s.count t.station 10 n t).countMem true a n (some t.part)).count t.station 8 ((n + 63) / 64) t).memLinks
    true t.station a n (some t.part)

/-- Memory writes of `n` bytes sent by a command's station: counted, with the flits of their data at its local port and on the Seam. -/
def State.memOut (s : State) (t : Tracked) (a n : Nat) : State :=
  (((s.count t.station 11 n t).countMem false a n (some t.part)).count t.station 9 ((portBytes t.station a n + 63) / 64) t).memLinks
    false t.station a n (some t.part)

/-- `n` flits dropped for their partition tag at a station: counted, and the error pin raised, except for a partition in teardown,
whose drops count in GN_TEARDOWN_DROP (R41, R811). The manual names neither the source nor the class of that report: the
station's data path, or its row's router, reports it uncorrected-contained as PORT, as R940 has it for a tile out of order
(DESIGN CHOICE, log 17); a CE or DE sets PORT in its error status (R183, R186). -/
def State.tagDrop (s : State) (st p n : Nat) : State :=
  if stopping s p ∨ s.tb.n < tgetD s.tdFree p 0 then s.bump A.gnTeardownDrop A.gnTeardownDrop_count n
  else
    let s := if st < 48 then s.setReg (A.ceErrStatus st) (s.reg (A.ceErrStatus st) ||| 0x10) else s
    ((s.bump A.loomTagDrop A.loomTagDrop_count n).gcount 6 st n none).pinReport (dataSource st) 2 0x10

/-- The station that serves an address of a command, its own where there is no memory. -/
def memTarget (t : Tracked) (a : Nat) : Nat := match canon a with | some c => memStation c | none => t.station

/-- A command's store: checked at its target against the region table in force, and dropped flit by flit where the partition does not
own it (R41, R425, R426). One to bytes that are being zeroed waits there (R437). -/
def State.storeOwned (s : State) (t : Tracked) (a : Nat) (bs : List Byte) : State :=
  if clearingAt s a bs.length then
    { s with memWaits := s.memWaits ++ [(MemReq.mk t.station (.part t.part) (some t.slot) a bs.length, some bs, .clean)] }
  else if ownsRange s t.part a bs.length then (s.storeBytes a bs).memOut t a bs.length
  else s.tagDrop (memTarget t a) t.part (1 + (bs.length + 63) / 64)

/-! ### The end of a command -/

/-- Flags and saturated elements of a command ORed and added to its engine's registers (R174, R237). -/
def State.reportFlags (s : State) (st flags sat : Nat) : State :=
  if st < 48 then
    let s := s.setReg (A.ceArithFlags st) (s.reg (A.ceArithFlags st) ||| flags)
    s.bump (A.ceSatCount st) A.ceSatCount_count sat
  else s

/-- Where an opcode's operand block holds FLAG_ADDR, as a word counted from 4 (R174, R237). -/
def flagWordAt (op : Nat) : Option Nat :=
  match op with
  | 0x10 | 0x11 | 0x40 => some 12
  | 0x30 => some 8
  | 0x41 | 0x50 | 0x51 => some 7
  | 0x43 => some 5
  | _ => none

/-- What an engine reports of a command that ends, whatever its status: the flag word at FLAG_ADDR, and its registers
(R174, R237, R238). A command that was never dispatched, and a re-run (R108), report nothing (DEDUCED, log 50); nor is a FLAG_ADDR
used whose check at dispatch refused it (R942). -/
def State.reportEnd (s : State) (t : Tracked) : State :=
  if (t.started ∨ t.phase = .staged) ∧ ¬ t.rerun ∧ 0x10 ≤ t.op ∧ t.op < 0x52 then
    let s := s.reportFlags t.station (t.work.flags % 64) t.work.sat
    match flagWordAt t.op with
    | none => s
    | some w =>
      let a := opw t.opb w 47 0
      if a = 0 ∨ (t.status = some (St.cmdError, Det.addrFault) ∧ ownsRange s t.part a 8 = false) then s
      else s.storeOwned t a (leBytes 8 (t.work.flags % 1024 + satTo 32 t.work.sat * 2 ^ 32))
  else s

/-- The source of a command's COMPLETION: its station, or the Loom for a command that never started on one (R632), and for one that
waits for a station to be replayed on (DESIGN CHOICE, log 110). -/
def Tracked.cplSource (t : Tracked) : Nat := if t.started && t.place.isSome then t.station else srcLoom

/-! ### Cancelled groups at the sampler (R366, R386, R399, R400) -/

/-- The main sequence and the group of a request, as its last sample entry names them (Table 6-3). -/
def Request.seqId (r : Request) : Option Nat := if r.entry.isEmpty then none else some (fld (leNat (r.entry.take 8)) 13 0)
def Request.group (r : Request) : Nat := fld (leNat (r.entry.take 8)) 51 36

/-- A group marked cancelled at the sampler, with the SP's report (R399). -/
def State.markGroup (s : State) (part group : Nat) : State :=
  if group = 0 ∨ s.cancels.contains (part, group) then s
  else { s with cancels := s.cancels ++ [(part, group)] }.raiseP 60 0x0010 part group none

/-- A CANCEL of a client is in its turn at the sampler: every SAMPLE and SCTL accepted before it has completed (R366). -/
def cancelTurn (s : State) (mark : Nat) : Bool :=
  !(s.tracked.any fun t => (t.op == 0x60 || t.op == 0x61) && t.compl == .none && decide (t.slot < mark))

/-- A CANCEL of a client takes effect at the sampler, once an entry has named its request's group. -/
def State.applyCancel (s : State) (d : Nat × Nat) : State :=
  let gone : State := { s with cancelDue := s.cancelDue.erase d }
  match tget s.requests d.1 with
  | none => gone
  | some r => if r.entry.isEmpty ∨ ¬ cancelTurn s d.2 then s else gone.markGroup r.part r.group

/-- The CANCELs of clients in their turn (R366). -/
def State.applyCancels (s : State) : State := s.cancelDue.foldl State.applyCancel s

/-- A COMPLETION raised (R632); a re-run raises none (R108). One of the SP lets a CANCEL after it take its turn. -/
def State.raiseCompletion (s : State) (t : Tracked) : State :=
  let st := (t.status.getD (0, 0)).1
  if t.rerun then s
  else
    let src := t.cplSource
    let s := s.updCmd t.slot fun u => { u with compl := .raised }
    let s := s.raiseP src 0x0001 t.part (t.desc.cmdSeq + st * 2 ^ 48) (some t.slot)
    if t.op = 0x60 ∨ t.op = 0x61 then s.applyCancels else s

/-- An input has stopped for a command that ended early: its LAST has arrived, or its producer's COMPLETION is
granted, or it has no producer (R939). -/
def inputStopped (s : State) (t : Tracked) (i : Nat) : Bool :=
  match t.ins[i]?, inChan? s t.slot i with
  | some b, some c => b.lastIn || (match s.cmd? c.prod with | none => true | some u => u.granted)
  | _, _ => true

/-- A command that has ended leaves its unit and raises its COMPLETION once the tiles it emitted have left and every input has
stopped; before that it writes what its engine reports (R174, R238, R939). -/
def State.checkDrain (s : State) (slot : Nat) : State :=
  match s.cmd? slot with
  | none => s
  | some t =>
    if t.phase == .draining && t.outs.all (fun o => o.queue.isEmpty) && (List.range t.ins.length).all (inputStopped s t) then
      let s := if t.compl == .none then s.reportEnd t else s
      let s := s.updCmd slot fun u => { u with phase := .ended }
      let s := if t.station < 48 then { s with busyAt := tset s.busyAt t.station s.tb.n } else s
      let s := if t.compl == .none then s.raiseCompletion t else s
      let s := match t.place with | some (st, u) => s.promote st u | none => s
      s.sweep
    else s

/-- Every draining command looked at again: after a grant or an arrival. -/
def State.checkDrains (s : State) : State :=
  (s.tracked.filter fun t => t.phase == .draining).foldl (fun s t => s.checkDrain t.slot) s

/-- The tiles of an ended command's windows discarded and their credits returned (R939). -/
def State.discardInputs (s : State) (t : Tracked) : State :=
  let s := (List.range t.ins.length).foldl (fun s i =>
    s.release t.slot i (((t.ins[i]?).map InBind.held).getD 0)) s
  s.updCmd t.slot fun u =>
    { u with arrivals := [], ins := u.ins.map fun b => { b with window := [], taken := [], released := 0, discard := true } }

/-- A host task handed over and not done is withdrawn: WAITING falls, and a later HC_TASK_DONE for it has no effect
(R77). -/
def State.withdrawTask (s : State) (slot : Nat) : State :=
  match s.tasks.find? fun k => k.slot == slot with
  | none => s
  | some k =>
    let a := A.hcTaskCount (k.cluster % 2) (k.part % 8)
    ({ s with tasks := s.tasks.filter fun k => k.slot != slot }).fset a A.hcTaskCount_waiting
      (s.fget a A.hcTaskCount_waiting - 1)

/-- The tiles a command has emitted stand when it ends with this status: only an abort by request or by containment stops those
that still await credits (R99, R104, R238). -/
def tilesStand (status detail : Nat) : Bool := status != St.aborted || detail == Det.upstream

/-- A command ends with a status and detail: it emits no further tile, and what its inputs still bring is taken and discarded
(R939). One that never ran is completed by the Loom at once, and its windows open to the drain (R632); one that was staged, or waits to
be replayed, reports what its engine gathered of it (R174). One that has ended and
still has tiles to send loses them to an abort that comes before its COMPLETION (R99). -/
def State.finish (s : State) (slot status detail : Nat) : State :=
  match s.cmd? slot with
  | none => s
  | some t =>
    let stop (u : Tracked) : Tracked :=
      { u with status := some (status, detail)
               outs := if tilesStand status detail then u.outs else u.outs.map fun o => { o with queue := [] } }
    if t.phase == .ended then s
    else if t.phase == .draining then
      if tilesStand status detail || t.compl != .none || t.outs.all (fun o => o.queue.isEmpty) then s
      else (s.updCmd slot stop).checkDrain slot
    else
      let wasOn := t.phase == .running
      let s := s.updCmd slot stop
      let s := if wasOn then s else s.openWindows slot
      let s := { (s.withdrawTask slot).unpinAll t with
        facets := s.facets.filter fun x => x.2.slot != slot
        landings := s.landings.filter fun l => l.slot != slot }
      let s := s.discardInputs t
      let s := s.updCmd slot fun u => { u with phase := .draining }
      let s := match s.cmd? slot with
        | some u => if wasOn then s else (s.reportEnd { u with phase := t.phase }).raiseCompletion u
        | none => s
      let s := match t.place with
        | some (st, u) => if wasOn then s else (s.updCmd slot fun v => { v with place := none }).promote st u
        | none => s
      s.checkDrain slot

/-- The producer of an input ended with ABORTED or CMD_ERROR, and its COMPLETION is granted. -/
def failedInput (s : State) (slot inp : Nat) : Bool :=
  match inChan? s slot inp with
  | none => false
  | some c => (match s.cmd? c.prod with | some u => u.failed | none => true)

/-- A consumer of a failed producer that has consumed the tiles it received from it ends with ABORTED, detail UPSTREAM
(R101): one that never ran at once, a running one when its station finds no tile to go on with. -/
def State.upstreamEnd (s : State) (slot : Nat) : State :=
  match s.cmd? slot with
  | none => s
  | some t =>
    let empty := (List.range t.ins.length).all fun i =>
      !failedInput s slot i ||
        ((match inChan? s slot i with | some c => c.flight.isEmpty | none => true) &&
          (match t.ins[i]? with | some b => b.window.isEmpty | none => true))
    if t.upstream ∧ t.status = none ∧ empty then s.finish slot St.aborted Det.upstream else s

/-- LOOM_ABORT_RESULT written, and ABORT_BUSY back to 0 (R96). -/
def State.abortResult (s : State) (part seq result : Nat) : State :=
  { s with abort := none }.setReg A.loomAbortResult (seq + part * 2 ^ 48 + result * 2 ^ 51 + 2 ^ 63)

/-- A command that has ended completes once the tiles it emitted have left. -/
def State.settle (s : State) (slot : Nat) : State := s.checkDrain slot

/-- A command's status reached: it ends, and completes once its formed tiles have left. A status reached before stands. -/
def State.reach (s : State) (slot status detail : Nat) : State := s.finish slot status detail

/-! ### Forming tiles -/

/-- A tile as an output emits it: STREAM_ID, TILE_INDEX and LAYER_ID from the command (R49). -/
def stampTile (t : Tracked) (o : OutBind) (x : Tile) : Tile :=
  { x with stream := o.stream, index := o.formed, layer := t.desc.layerId, reserved := 0 }

/-- One tile formed on an output, unless the command has ended. A tile of index 2^32 - 1 without LAST ends it (R58). -/
def State.formTile (s : State) (slot out : Nat) (x : Tile) : State :=
  match s.cmd? slot with
  | none => s
  | some t =>
    match t.outs[out]? with
    | none => s
    | some o =>
      if t.status.isSome then s
      else if o.formed = 2 ^ 32 - 1 ∧ x.last = false then s.finish slot St.cmdError Det.tileIndexOvf
      else
        let x := stampTile t o x
        s.updCmd slot fun u =>
          { u with outs := u.outs.mapIdx fun j p =>
              if j = out then { p with formed := p.formed + 1, queue := p.queue ++ [x] } else p }

/-- The output tiles that a kernel writes (R226). -/
def FacetUnit.outHandles (u : FacetUnit) : Nat :=
  (u.handles.filter fun h => match h.2 with | .outTile _ _ => true | .inTile _ _ => false).length

/-- The tiles of a command that await credits. -/
def Tracked.queued (t : Tracked) : Nat := (t.outs.map fun o => o.queue.length).sum

/-- The tiles that await credits where a command runs: of both units of a CE or DE, which share the station's output staging (R122,
Table 2-2); elsewhere of the command (DESIGN CHOICE, log 111). -/
def staged (s : State) (t : Tracked) : Nat :=
  if t.station < 48 then ((s.tracked.filter fun u => u.station == t.station).map Tracked.queued).sum else t.queued

/-- Output staging has room for one more tile of a command: fewer than 4 tiles await credits there or are being written by a kernel
(R226, Table 2-2). -/
def roomFor (s : State) (t : Tracked) : Bool :=
  decide (staged s t + (if t.station < 48 then ((tget s.facets t.station).map FacetUnit.outHandles).getD 0 else 0) < 4)

/-- The head tile of an input's window taken: it moves to the tiles taken, its slot still held. -/
def State.takeTile (s : State) (slot inp : Nat) : State :=
  s.updCmd slot fun u =>
    { u with
        moved := s.tb.n, stallSent := false, arrivals := u.arrivals.erase inp
        ins := u.ins.mapIdx fun j b =>
          if j = inp then
            match b.window with
            | [] => b
            | x :: r => { b with window := r, taken := b.taken ++ [x] }
          else b }

/-- Slots of taken tiles of an input released up to a count, and their credits returned (R45). -/
def State.releaseTo (s : State) (slot inp n : Nat) : State :=
  match s.cmd? slot with
  | none => s
  | some t =>
    match t.ins[inp]? with
    | none => s
    | some b =>
      let n := min n b.taken.length
      if n ≤ b.released then s
      else
        let s := s.updCmd slot fun u =>
          { u with ins := u.ins.mapIdx fun j c => if j = inp then { c with released := n } else c }
        s.release slot inp (n - b.released)

/-- Running commands go on: the die is not frozen and, outside the time before a stop tick, not in the safe state
(Table 16-4, R868, R869). -/
def cmdsGoOn (s : State) : Bool := !s.frozen && (!safe s || s.stopAt.isSome)

/-- The running command in a slot, when it executes the opcode and nothing holds it: not ended, no status reached, no
trace hold (R858), the die not stopped and its partition not stopping (R809). -/
def runningCmd (s : State) (slot op : Nat) : Option Tracked :=
  match s.cmd? slot with
  | none => none
  | some t =>
    if t.phase == .running ∧ t.op = op ∧ t.status = none ∧ ¬ s.traceHold.contains t.station ∧ cmdsGoOn s ∧ ¬ stopping s t.part
    then some t else none

/-! ### Ownership of the station and replay (R35, R36, R103 to R108, R792) -/

/-- A physical engine is out: fenced, retired or under test. -/
def engineOut (s : State) (st : Nat) : Bool :=
  let bit := if st < 32 then st else st
  (s.reg A.loomFenced).testBit bit || (s.reg A.loomTesting).testBit bit || (s.reg A.fcRetired).testBit bit

/-- The partition that owns a logical engine. -/
def engineOwner (s : State) (l : Nat) : Option Nat := (List.range 8).find? fun p => partValid s p && ownsStation s p l

/-- The logical engines (as station numbers) mapped to a physical one. -/
def logicalsOn (s : State) (st : Nat) : List Nat :=
  if st < 32 then (List.range 32).filter fun l => physical s l == st
  else if st < 48 then ((List.range 16).map (32 + ·)).filter fun l => physical s l == st
  else []

/-- The in-service engine of the class that takes a logical engine: of those that carry no logical engine of another
partition, the one with the fewest mapped to it, the lowest number on a tie (R36, R792). -/
def pickEngine (s : State) (l : Nat) : Option Nat :=
  let base := if l < 32 then 0 else 32
  let n := if l < 32 then 32 else 16
  let own := engineOwner s l
  let cands := ((List.range n).map (base + ·)).filter fun st =>
    !engineOut s st && (logicalsOn s st).all fun m => engineOwner s m == own || engineOwner s m == none
  cands.foldl (fun best st =>
    match best with
    | none => some st
    | some b => if (logicalsOn s st).length < (logicalsOn s b).length then some st else best) none

/-- A logical engine mapped to a physical one, in the Loom's map and its registers (R35, Table 1-19). -/
def State.mapTo (s : State) (l st : Nat) : State :=
  let s := if l < 32 then { s with mapCe := tset s.mapCe l st } else { s with mapDe := tset s.mapDe (l - 32) (st - 32) }
  if l < 32 then s.setReg (A.loomMapCe l) st else s.setReg (A.loomMapDe (l - 32)) (st - 32)

/-- The logical engines of an engine that goes out mapped elsewhere where R36 and R792 leave one to choose. -/
def State.remapFrom (s : State) (st : Nat) : State :=
  (logicalsOn s st).foldl (fun s l => match pickEngine s l with | some e => s.mapTo l e | none => s) s

/-- The logical engine of an engine that returns mapped to it again; other logical engines left on an out engine get
a place too (R35). -/
def State.remapBack (s : State) (st : Nat) : State :=
  let s := s.mapTo st st
  ((List.range 48).filter fun l => engineOut s (physical s l)).foldl
    (fun s l => match pickEngine s l with | some e => s.mapTo l e | none => s) s

/-- The producers, as slots, of a command's inputs. -/
def producersOf (s : State) (slot : Nat) : List Nat := (s.chans.filter fun c => c.cons == slot).map Chan.prod

/-- The replay set grown upstream from a list of slots: `fuel` rounds of adding every producer (R103). -/
def growSet (s : State) : List Nat → Nat → List Nat
  | l, 0 => l
  | l, f + 1 => growSet s (l ++ ((l.flatMap (producersOf s)).eraseDups.filter fun p => !l.contains p)) f

/-- The replay set of the commands that were running or staged (R103). -/
def replaySet (s : State) (starts : List Nat) : List Nat := growSet s starts.eraseDups s.tracked.length

/-- The opcodes whose output comes from Ethernet, Warp or a video decoder (R104). -/
def outsideSource (t : Tracked) : Bool := t.op == 0x78 || t.op == 0x7D || t.op == 0x69

/-- A replay set cannot be replayed: it is too large, takes input from outside, or reaches a producer whose
descriptor the Loom no longer keeps (R104). -/
def unreplayable (s : State) (l : List Nat) : Bool :=
  decide (64 < l.length) || l.any fun x => match s.cmd? x with | none => true | some t => outsideSource t

/-- The counters that a command runs again with: none, but what a list command or a SAMPLE has applied to the ledger, the
sampler or the video unit is not applied again, so that its output is bit-identical (R105; DEDUCED, log 61). -/
def keptWork (u : Tracked) : Work :=
  let z : Work := { pos := 0, fails := 0, bytes := 0, flags := 0, sat := 0, aux := 0, aux2 := 0, opened := false, lost := false, attn := none }
  match u.op with
  | 0x52 | 0x61 | 0x68 => u.work
  | 0x60 => { z with aux := u.work.aux, opened := u.work.opened }
  | _ => z

/-- The video channel of a VENC that runs again (R105): of one that has not completed, the channel goes back to where the command
began, but for requests for an IDR that still stand; a completed one keeps the channel of its beginning to itself. -/
def State.rewindVenc (s : State) (slot : Nat) : State :=
  match s.cmd? slot with
  | none => s
  | some t =>
    match t.venc with
    | none => s
    | some v =>
      if t.completed then s.updCmd slot fun u => { u with venc := some { v with cur := v.start } }
      else
        match t.chan? s with
        | none => s
        | some c =>
          let v := if 2 ≤ c.slice ∧ v.decided.length = t.work.pos then { v with decided := v.decided ++ [c.slice] } else v
          (s.setChan { v.start with idrNext := c.idrNext, slice := if c.slice = 1 ∧ v.decided.isEmpty then 1 else 0 }).updCmd slot
            fun u => { u with venc := some v }

/-- A command set back to its first tile to run again (R103): a completed one as a re-run (R108), another as
replayed (R105); each counts (R107). `hold` are the slots that run again with it. Toward any other consumer that has not left its unit
it holds a credit for each free slot; toward one that has, none (DESIGN CHOICE, log 108). -/
def State.rewind (s : State) (hold : List Nat) (slot : Nat) : State :=
  let s := (match s.cmd? slot with | some t => s.unpinAll t | none => s).rewindVenc slot
  let s := s.updCmd slot fun u =>
    { u with
        phase := .waiting, place := none, status := none
        rerun := u.completed, replayed := u.replayed || !u.completed
        work := keptWork u, loaded := if u.op = 0x60 then u.loaded else [], arrivals := []
        ins := u.ins.map fun b =>
          { b with next := 0, window := [], taken := [], released := 0, lastIn := false, discard := false }
        outs := u.outs.map fun o => { o with formed := 0, queue := [] } }
  let s := { s with
    chans := s.chans.map fun (c : Chan) =>
      if c.prod == slot && !hold.contains c.cons then
        let heldN := match s.cmd? c.cons with
          | none => 4
          | some u => if u.phase.onUnit then ((u.ins[c.inp]?).map InBind.held).getD 4 else 4
        { c with credits := 4 - heldN, net := 0, flight := [] }
      else if c.prod == slot || c.cons == slot then { c with credits := 0, net := 0, flight := [] }
      else c
    facets := s.facets.filter fun x => x.2.slot != slot }
  (s.withdrawTask slot).bump A.loomReplayCount A.loomReplayCount_count 1

/-- A list of commands contained: each that has not completed ends with ABORTED, detail FAULT_CONTAINED (R104). -/
def State.contain (s : State) (l : List Nat) : State :=
  l.foldl (fun s x => match s.cmd? x with
    | some t => if t.completed then s else s.finish x St.aborted Det.faultContained
    | none => s) s

/-- A command runs or is staged, in the words of R103: one that ended without an error and still has tiles to send or to take runs
until its COMPLETION is raised (R105), a re-run until it has left its unit. One that ended early and drains its inputs goes on draining (DESIGN CHOICE, log 95). -/
def Tracked.inHand (t : Tracked) : Bool :=
  t.phase == .running || t.phase == .staged ||
    (t.phase == .draining && (t.compl == .none || t.rerun) && (t.status.map Prod.fst) == some St.done)

/-- The running and staged commands of a station, as slots. -/
def cmdsOn (s : State) (st : Nat) : List Nat :=
  (s.tracked.filter fun t => t.inHand && t.place.map Prod.fst == some st).map Tracked.slot

/-- REPLAY traced at the station that a command came from, each time that it runs again (R108, Table 17-4). -/
def State.traceReplay (s : State) (slot : Nat) : State :=
  match s.cmd? slot with
  | some t => s.trace t.station 10 t.station { t with rerun := false }
  | none => s

/-- An engine goes out: its logical engines are mapped elsewhere, and the commands running or staged on it are replayed with
their replay set, or contained where that cannot be replayed (R103, R104) or no engine of the partition's is left
(R792). A member that an abort has stopped stops again at once (R99). -/
def State.moveAway (s : State) (st : Nat) : State :=
  let starts := cmdsOn s st
  let l := replaySet s starts
  let s' := s.remapFrom st
  let stuck := starts.any fun x => match s.cmd? x with | none => false | some t => engineOut s' (physical s' t.logical)
  if starts.isEmpty then s'
  else if unreplayable s l ∨ stuck then s'.contain l
  else
    let s := l.foldl (fun s x => s.rewind l x) ((l.foldl State.traceReplay s).remapFrom st)
    l.foldl (fun s x => match s.cmd? x with
      | some t => if t.abortReq then s.finish x St.aborted Det.none else s
      | none => s) s

/-! ### Memory errors at a requester (R443 to R447) -/

/-- An engine fenced: its bit set, the logical engines on it mapped elsewhere, its commands moved, a UNIT reset begun
(R822). `test` says that an in-service test follows the reset; the fence of R446 takes none. -/
def State.fenceEngine (s : State) (st : Nat) (test : Bool) : State :=
  let s := s.setReg A.loomFenced (s.reg A.loomFenced ||| 2 ^ st)
  let s := (s.fset (A.ceStatus st) A.ceStatus_fenced 1).moveAway st
  { s with resets := s.resets ++ [{ station := st, test := test }] }

/-- A command's read meets an uncorrectable line: it ends with ABORTED, detail FAULT_CONTAINED; a CE or DE is fenced
and given a UNIT reset without a test, and the command's replay set is treated as unreplayable (R446, R447). -/
def State.readFault (s : State) (slot a n : Nat) : State :=
  match s.cmd? slot with
  | none => s
  | some t =>
    let s := s.logUncorrected ((firstBad s a n).getD 0) (some t.part)
    if t.station < 48 then
      let s := s.contain (replaySet s [slot])
      s.fenceEngine t.station false
    else s.finish slot St.aborted Det.faultContained

/-- Reads of rows that a change of the region table has taken from the command's partition: their flits are dropped at the target (R41,
R425, R426), once, and the command waits for responses that never come (DEDUCED, log 34). -/
def State.readDropped (s : State) (t : Tracked) (rows : List Nat) (len : Nat) : State :=
  if t.work.lost then s
  else
    let s := (rows.filter fun a => !ownsRange s t.part a len).foldl (fun (s : State) a =>
      s.tagDrop (memTarget t a) t.part 1) s
    s.updCmd t.slot fun u => { u with work := { u.work with lost := true } }

end Sys2Proof.Machine
end

