-- ==== Sys2Proof/Machine/EngineOps.lean ====
section
/-! DEFINITION. The arithmetic of the arrays: operand pairs, exact lanes, the canonical order, the epilogue, LoRA, and the
shapes of operand and output tiles (R134 to R164, R168 to R173). -/

namespace Sys2Proof.Machine

open Sys2Proof

/-! ### Detail codes (Table 2-13) -/

namespace Mx
abbrev fmtPair : Nat := 0x100
abbrev dim : Nat := 0x101
abbrev storeOvf : Nat := 0x102
abbrev accLanes : Nat := 0x103
abbrev epilogue : Nat := 0x104
abbrev mxGeometry : Nat := 0x105
abbrev lora : Nat := 0x106
abbrev zcUnsupported : Nat := 0x107
abbrev accInShape : Nat := 0x108
abbrev reduceOrder : Nat := 0x109
abbrev tileShape : Nat := 0x10A
abbrev zcFormat : Nat := 0x145
end Mx

/-! ### Operand pairs (Table 2-5) -/

/-- The families of operand pairs. -/
inductive Family where
  | int
  | fp8
  | mx
  | b16
  deriving DecidableEq, Repr

def isInt8 (f : Nat) : Bool := f == 0x00 || f == 0x01 || f == 0x02

/-- The family of a pair of formats; none where the arrays do not accept it (R134). -/
def pairOf (a b : Nat) : Option Family :=
  if isInt8 a ∧ isInt8 b then some .int
  else if (a = 3 ∨ a = 4) ∧ (b = 3 ∨ b = 4) then some .fp8
  else if isMx a ∧ isMx b then some .mx
  else if (a = 0x0B ∧ b = 0x0B) ∨ (a = 0x0C ∧ b = 0x0C) then some .b16
  else none

/-- The exponent of which every element of a format is a multiple (Tables 2-6 and 2-7). -/
def elemExp (f : Nat) : Int :=
  match f with
  | 0x03 | 0x05 => -9
  | 0x04 | 0x06 => -16
  | 0x07 => -4
  | 0x08 => -3
  | 0x09 => -1
  | 0x0A => -6
  | _ => 0

/-- L of the lanes of a pair: MX_ANCHOR for an MX pair (R138, R139). A 16-bit pair, which Table 2-5 lets an EXACT96 input of CONVERT name
and for which no rule gives L, has L = 0 (DESIGN CHOICE, log 113). -/
def laneExp (a b : Nat) (anchor : Int) : Int :=
  if isMx a then anchor else elemExp a + elemExp b

/-- Bits of K and of N in a block of the array, by rate class (R124). -/
def blockOf (a b : Nat) : Nat × Nat :=
  let narrow (f : Nat) : Bool := f == 0x02 || f == 0x07 || f == 0x08 || f == 0x09
  if a = 0x0B ∨ a = 0x0C then (32, 32) else if narrow a && narrow b then (128, 64) else (64, 64)

/-- The array cycles of `r` rows against `kt` × `n` of the resident operand (R125). -/
def arrayCycles (a b r kt n q : Nat) : Nat :=
  let (bk, bn) := blockOf a b
  r * (((kt + bk - 1) / bk * ((n + bn - 1) / bn) + q - 1) / q)

/-! ### Lanes (R135 to R146) -/

/-- An accumulator lane: v exactly and the sticky flags in the order of EXACT96 bits 100:96; or, for a 16-bit pair, the
binary32 sum, none before the first chunk, in `x`. -/
structure Lane where
  v  : Int
  fl : Nat
  x  : Option Nat
  deriving DecidableEq, Repr

abbrev lNan : Nat := 1
abbrev lPinf : Nat := 2
abbrev lNinf : Nat := 4
abbrev lOvf : Nat := 8
abbrev lInx : Nat := 16

/-- A row of operand elements: blocks of a scale byte and element values; a format without scales has the scale 1. -/
abbrev OpRow := List (Nat × List Fv)

def elemRow (fmt : Nat) (row : List Byte) : OpRow :=
  if isMx fmt then mxBlocks fmt row else [(127, rowVals fmt row)]

/-- The largest magnitude of v (R135). -/
abbrev vMax : Int := 2 ^ 95 - 1

/-- A term limited to ±(2^95 − 1), with ACC_OVF (R137). -/
def clampTerm (t : Int) : Int × Nat :=
  if vMax < t then (vMax, lOvf) else if t < -vMax then (-vMax, lOvf) else (t, 0)

/-- The sum of the products of two lists in units of 2^u, and the special flags (R136, R142). -/
def sumProducts (u : Int) : List Fv → List Fv → Int × Nat
  | a :: as, b :: bs =>
    let (t, f) := sumProducts u as bs
    match a.mul b with
    | .nan _ => (t, f ||| lNan)
    | .inf s => (t, f ||| (if s then lNinf else lPinf))
    | .fin s m e =>
      let p : Int := m * 2 ^ (e - u).toNat
      (if s then t - p else t + p, f)
  | _, _ => (0, 0)

/-- The term of one pair of blocks at a lane exponent `l`, `u` being the sum of the element exponents (R137, R140). The manual does
not give the number v of a lane whose products hold a NaN or an infinity, which a spilled lane shows beside its flags: it takes no
part of such a product, and none of a block of scale 0xFF (DESIGN CHOICE, log 48). -/
def blockTerm (u l : Int) (a b : Nat × List Fv) : Int × Nat :=
  if a.1 = 0xFF ∨ b.1 = 0xFF then (0, lNan)
  else
    let (t, f) := sumProducts u a.2 b.2
    let sh := u + ((a.1 : Int) - 127) + ((b.1 : Int) - 127) - l
    let (t, i) : Int × Nat := if 0 ≤ sh then (t * 2 ^ sh.toNat, 0)
      else
        let d : Int := 2 ^ (-sh).toNat
        (t / d, if t % d = 0 then 0 else lInx)
    let (t, o) := clampTerm t
    (t, f ||| i ||| o)

/-- An exact lane after the terms of two rows of blocks. -/
def exactDot (u l : Int) : Lane → OpRow → OpRow → Lane
  | ln, a :: as, b :: bs =>
    let (t, f) := blockTerm u l a b
    exactDot u l { ln with v := ln.v + t, fl := ln.fl ||| f } as bs
  | ln, _, _ => ln

/-- Products in binary32 (R145). -/
def b16Products : List Nat → List Nat → List Nat × Nat
  | a :: as, b :: bs =>
    let (p, f) := f32Mul a b
    let (l, g) := b16Products as bs
    (p :: l, f ||| g)
  | _, _ => ([], 0)

/-- Chunks of 32 products added in ascending order to an accumulator (R146). `fuel` bounds the chunks. -/
def b16Chunks : Nat → Option Nat → List Nat → Option Nat × Nat
  | 0, acc, _ => (acc, 0)
  | _, acc, [] => (acc, 0)
  | n + 1, acc, ps =>
    let (c, f) := tree f32Add 5 ((ps.take 32).map some)
    let (acc', g) := match acc, c with
      | some x, some y => let (z, h) := f32Add x y; (some z, h)
      | none, c => (c, 0)
      | a, none => (a, 0)
    let (r, h) := b16Chunks n acc' (ps.drop 32)
    (r, f ||| g ||| h)

/-- The binary32 codes of a row of 16-bit elements. -/
def b16Codes (r : OpRow) : List Nat := r.flatMap fun b => b.2.map fun v => v.toF32.1

/-- The pair of a command: family, formats, lane exponent. -/
structure Pair where
  fam : Family
  a   : Nat
  b   : Nat
  l   : Int
  deriving DecidableEq, Repr

/-- A lane that holds no term yet. -/
def Lane.zero : Lane := { v := 0, fl := 0, x := none }

/-- A lane after the products of two rows, and FP32_OVF where a binary32 step overflowed. -/
def Pair.dot (p : Pair) (ln : Lane) (a b : OpRow) : Lane × Nat :=
  match p.fam with
  | .b16 =>
    let (ps, f) := b16Products (b16Codes a) (b16Codes b)
    let (x, g) := b16Chunks (ps.length / 32 + 1) ln.x ps
    ({ ln with x := x }, (f ||| g) &&& fOf)
  | _ => (exactDot (elemExp p.a + elemExp p.b) p.l ln a b, 0)

/-- A lane as it is read out: v saturated (R137). -/
def Lane.read (ln : Lane) : Lane :=
  let (v, o) := clampTerm ln.v
  { ln with v := v, fl := ln.fl ||| o }

/-- The flags of the flag word that a lane read out holds (R174). -/
def Lane.flags (ln : Lane) : Nat :=
  (if ln.fl &&& lOvf ≠ 0 then fAccOvf else 0) + (if ln.fl &&& lInx ≠ 0 then fInexact else 0)

/-- What a lane reads out as (R143), as a value. -/
def Lane.value (l : Int) (ln : Lane) : Fv :=
  if ln.fl &&& lNan ≠ 0 ∨ (ln.fl &&& lPinf ≠ 0 ∧ ln.fl &&& lNinf ≠ 0) then .nan false
  else if ln.fl &&& lPinf ≠ 0 then .inf false
  else if ln.fl &&& lNinf ≠ 0 then .inf true
  else .ofInt ln.v l

/-- A lane rounded once to binary32, with the flags it reports (R143, R150). -/
def Pair.readOut (p : Pair) (ln : Lane) : Nat × Nat :=
  match p.fam with
  | .b16 => (ln.x.getD 0, 0)
  | _ =>
    let r := ln.read
    let (x, f) := (r.value p.l).toF32
    (x, r.flags ||| (f &&& fOf))

/-- A lane in EXACT96 (R144). -/
def Lane.pack (ln : Lane) : List Byte := leBytes 16 (bitsOf 96 ln.v + ln.fl % 32 * 2 ^ 96)

/-- The lane of an EXACT96 element: its v is a term (R136, R173). -/
def Lane.unpack (n : Nat) : Lane :=
  let (v, o) := clampTerm (sext 96 (n % 2 ^ 96))
  { v := v, fl := fld n 100 96 ||| o, x := none }

/-- The lane that an ACC_IN element, or a partial, starts. -/
def Pair.start (p : Pair) (el : List Byte) : Lane :=
  match p.fam with
  | .b16 => { v := 0, fl := 0, x := some (leNat el) }
  | _ => Lane.unpack (leNat el)

/-- Format and width in lanes of a tile of unrounded lanes (R155, R172). -/
def Pair.laneFmt (p : Pair) : Nat := if p.fam = .b16 then 0x0D else 0x0F
def Pair.laneWidth (p : Pair) : Nat := if p.fam = .b16 then 64 else 16

/-! ### The epilogue (R150 to R159) -/

/-- The epilogue fields of an operand block: those of GEMM words 1 to 3. -/
structure Epi where
  out    : Nat
  mode   : Nat
  scMode : Nat
  act    : Nat
  bias   : Bool
  zc     : Bool
  p0     : Nat
  p1     : Nat
  scale  : Nat
  shift  : Nat
  zp     : Nat
  deriving DecidableEq, Repr

/-- The epilogue of an operand block whose GEMM word 1 is its word `w`, words counted from 4. -/
def Epi.of (opb : List Byte) (w : Nat) : Epi :=
  { out := opw opb w 14 10, mode := opw opb w 16 15, scMode := opw opb w 21 20, act := opw opb w 25 22,
    bias := opw opb w 19 19 == 1, zc := opw opb w 28 28 == 1, p0 := opw opb (w + 1) 31 0, p1 := opw opb (w + 1) 63 32,
    scale := opw opb (w + 2) 31 0, shift := opw opb (w + 2) 37 32, zp := opw opb (w + 2) 55 40 }

/-- The epilogue breaks R154, R155 or R156. -/
def Epi.bad (e : Epi) (f : Family) : Bool :=
  decide (e.mode = 3 ∨ e.scMode = 3 ∨ 0x10 ≤ e.out ∨ 9 ≤ e.act) ||
  (e.mode == 0 && e.out == 0x0F) ||
  (e.mode == 1 && !(f == .int && (e.act == 0 || e.act == 2) && (isInt8 e.out || e.out == 0x0E))) ||
  (e.mode == 2 && !(e.out == (if f = .b16 then 0x0D else 0x0F) && !e.bias && e.scMode == 0 && e.act == 0))

/-- The vectors that the epilogue reads: their lengths in bytes for `n` columns. -/
def Epi.biasBytes (e : Epi) (n : Nat) : Nat := if e.bias then 4 * n else 0
def Epi.scaleBytes (e : Epi) (n : Nat) : Nat := if e.scMode = 2 then n * (if e.mode = 1 then 8 else 4) else 0

/-- The `k`-byte entry `i` of a vector. -/
def entry (k : Nat) (v : List Byte) (i : Nat) : Nat := leNat ((v.drop (k * i)).take k)

/-- The float path up to the output conversion, for column `n` (R152). -/
def Epi.float (e : Epi) (bias scale : List Byte) (n x : Nat) : Nat × Nat :=
  let (x, f1) := if e.scMode = 1 then f32Mul x e.scale else if e.scMode = 2 then f32Mul x (entry 4 scale n) else (x, 0)
  let (x, f2) := if e.bias then f32Add x (entry 4 bias n) else (x, 0)
  let (x, f3) := activation e.act e.p0 e.p1 x
  (x, (f1 ||| f2 ||| f3) &&& fOf)

/-- The integer path, for column `n` (R153): the output code and OUT_SAT. -/
def Epi.integer (e : Epi) (bias scale : List Byte) (n : Nat) (v : Int) : Nat × Nat :=
  let t := if e.bias then v + sext 32 (entry 4 bias n) else v
  let (m, sh) : Int × Nat := match e.scMode with
    | 1 => (sext 32 e.scale, e.shift)
    | 2 => (sext 32 (entry 8 scale n % 2 ^ 32), fld (entry 8 scale n) 37 32)
    | _ => (1, 0)
  let y := (toIntMode 0 (decide (t * m < 0)) (t * m).natAbs (-(sh : Int))).1 + sext 16 e.zp
  let y := if e.act = 2 then min (max y (sext 32 e.p0)) (sext 32 e.p1) else y
  satInt e.out y

/-- An FP32 value written: NAN_OUT or INF_OUT (R155). -/
def f32OutFlags (x : Nat) : Nat :=
  match f32Val x with
  | .nan _ => fNanOut
  | .inf _ => fInfOut
  | _ => 0

/-- One row of lanes, from column `n0` on, through the epilogue: bytes, flags, saturated elements. -/
def Epi.row (e : Epi) (p : Pair) (bias scale : List Byte) (n0 : Nat) (lanes : List Lane) : OutRow :=
  match e.mode with
  | 0 =>
    let xs := lanes.mapIdx fun i ln =>
      let (x, f) := p.readOut ln
      let (y, g) := e.float bias scale (n0 + i) x
      (y, f ||| g)
    let o := rowOut e.out (xs.map Prod.fst)
    { o with flags := o.flags ||| orFlags xs }
  | 1 =>
    let cs := lanes.mapIdx fun i ln =>
      let (c, f) := e.integer bias scale (n0 + i) ln.read.v
      (c, f ||| ln.read.flags)
    { bytes := packCodes (elemBits e.out) (cs.map Prod.fst), flags := orFlags cs, sat := satCount cs }
  | _ =>
    let cs := lanes.map fun ln =>
      match p.fam with
      | .b16 => (leBytes 4 (ln.x.getD 0), f32OutFlags (ln.x.getD 0))
      | _ =>
        let r := ln.read
        let g := match r.value p.l with
          | .nan _ => fNanOut
          | .inf _ => fInfOut
          | _ => 0
        (r.pack, r.flags ||| g)
    { bytes := cs.flatMap Prod.fst, flags := cs.foldl (fun a c => a ||| c.2) 0, sat := 0 }

/-- Rows joined into one payload. -/
def joinRows (rs : List OutRow) : OutRow :=
  { bytes := rs.flatMap OutRow.bytes, flags := rs.foldl (fun a r => a ||| r.flags) 0, sat := (rs.map OutRow.sat).sum }

/-! ### Operand and output tiles (R168 to R173) -/

/-- The operand store, the accumulator lanes and the quadrants of a class (Table 2-1). -/
def storeBytesOf (cls : Nat) : Nat := if cls = 1 then 2 ^ 20 else 3 * 2 ^ 20
def lanesOf (cls : Nat) : Nat := if cls = 1 then 16384 else 65536
def quadsOf (cls : Nat) : Nat := if cls = 1 then 1 else 4

/-- The elements of a row of `n` bytes as a K-slice of an operand of which `left` columns are still to come: those the row holds,
but for a half-filled last byte of INT4 (R53, R129). -/
def sliceElems (fmt left n : Nat) : Nat :=
  let k := elemsIn fmt n
  if fmt = 0x02 ∧ k = left + 1 then left else k

/-- The elements of a row of each tile of an operand's first block of rows, `left` columns of it to come. -/
def sliceSizes : Nat → List Tile → List Nat
  | _, [] => []
  | left, t :: r =>
    let n := sliceElems t.format left (tileRowBytes t)
    if left = 0 then [] else n :: sliceSizes (left - n) r

/-- The number of K-slices whose elements make up K; none where they do not yet. -/
def slicesOf (k : Nat) : List Nat → Option Nat
  | [] => none
  | n :: r => if n = k then some 1 else if k < n then none else (slicesOf (k - n) r).map (· + 1)

/-- A tile that arrives as tile `i` of an operand of `dim` rows and `k` columns agrees with the dimensions and with the
K-slices of the operand received first, whose tiles have `sizes` elements per row (R168, R169, Table 2-12). -/
def sliceOk (fmt dim k : Nat) (b16 : Bool) (sizes : List Nat) (i : Nat) (x : Tile) : Bool :=
  let blocks := ceilDiv dim 128
  decide (x.format = fmt) &&
  match slicesOf k sizes with
  | none =>
    let n := sliceElems fmt (k - sizes.sum) (tileRowBytes x)
    let sum := sizes.sum + n
    decide (tileRows x = min 128 dim ∧ sum ≤ k) && (x.last == decide (sum = k ∧ blocks = 1)) &&
      (match sizes with
        | [] => true
        | p :: r => r.all (· == p) && decide (n = p ∨ sum = k) && (!b16 || p % 32 == 0))
  | some t =>
    decide (tileRows x = min 128 (dim - 128 * (i / t)) ∧ (sizes[i % t]?).map (bytesFor fmt) = some (tileRowBytes x)) &&
      (x.last == decide (i + 1 = blocks * t))

/-- The tiles of one operand, taken or waiting, agree with its dimensions and with each other (R169, R178). -/
def tilesAgree (fmt dim k : Nat) (b16 : Bool) (ts : List Tile) : Bool :=
  let sizes := sliceSizes k ts
  (List.range ts.length).all fun i => match ts[i]? with
    | some x => sliceOk fmt dim k b16 (sizes.take i) i x
    | none => true

/-- The row `i` of block `blk` of an operand of `k` columns: its slices' elements, for a format without scales as one block. -/
def operandRow (fmt k : Nat) (tiles : List Tile) (t blk i : Nat) : OpRow :=
  let bs := (List.range t).flatMap fun k =>
    match tiles[blk * t + k]? with
    | some x => elemRow fmt (rowOf x i)
    | none => []
  if isMx fmt then bs else [(127, (bs.flatMap Prod.snd).take k)]

/-- Elements of an output row of the widest N-block (R172). -/
def outWidth (fmt : Nat) : Nat := maxElems fmt

/-- An output tile formed from rows, LAST on the final one, ZC where asked and smaller (R172, R266). -/
def outTile (e : Epi) (rows : List OutRow) (last : Bool) : Tile :=
  let o := joinRows rows
  zcTile e.zc (mkTile e.out rows.length (o.bytes.length / rows.length) last o.bytes)

/-- The flags and saturated elements of output rows added to a command's, with its work at the next output tile. -/
def State.gather (s : State) (slot pos : Nat) (flags sat : Nat) : State :=
  s.updCmd slot fun u =>
    { u with work := { u.work with pos := pos, flags := u.work.flags ||| flags, sat := u.work.sat + sat } }

/-! ### Loading at dispatch (R164, R942) -/

/-- Ranges that a command must own, and of which some are loaded: the first one not owned ends it with ADDR_FAULT, a line
that cannot be read with FAULT_CONTAINED; else the loaded ones are read. The loads wait while bytes of them are being zeroed (R437). -/
def State.openRanges (s : State) (slot : Nat) (own load : List (Nat × Nat)) (f : State → List (List Byte) → State) : State :=
  match s.cmd? slot with
  | none => s
  | some t =>
    if own.any fun r => !ownsRange s t.part r.1 r.2 then s.finish slot St.cmdError Det.addrFault
    else if load.any fun r => clearingAt s r.1 r.2 then s
    else
      match load.find? fun r => badRange s r.1 r.2 with
      | some r => s.readFault slot r.1 r.2
      | none =>
        let vs := load.map fun r => softBytes s r.1 r.2
        let s := load.foldl (fun s r => if t.op = 0x30 then s.kernelIn t r.1 r.2 else s.memIn t r.1 r.2) s
        f s vs

/-- A command opened: its checks passed, its vectors loaded. -/
def State.engineOpened (s : State) (slot : Nat) (vs : List (List Byte)) : State :=
  s.updCmd slot fun u => { u with loaded := vs, work := { u.work with opened := true } }

end Sys2Proof.Machine
end

