-- ==== Sys2Proof/Machine/Lists.lean ====
section
/-! DEFINITION. The commands that apply a list of operation records in order: what KVOP, SCTL and VCHAN share
(R326 to R328, R413, R527). -/

namespace Sys2Proof.Machine

open Sys2Proof

/-- An operation record of 16 bytes (R327). -/
def opRecOf (bs : List Byte) : OpRec :=
  let w := leNat (bs.take 8)
  { op := fld w 7 0, cls := fld w 11 8, lode := fld w 15 12, seq := fld w 29 16, arg := fld w 63 32,
    word1 := leNat ((bs.drop 8).take 8) }

/-- The 8-byte result of an operation: STATUS in bits 7:0, a handle in bits 47:8 (R327). -/
def resultWord (status handle : Nat) : Nat := status % 256 + (handle % 2 ^ 40) * 256

/-- One operation applied and its result written at `res` (R328). The function answers the state, the result word and
whether the operation failed. -/
def applyOp (f : State → Nat → OpRec → State × Nat × Bool) (part : Nat) (r : OpRec) (res : Nat) (s : State) :
    State × Bool :=
  let (s, w, bad) := f s part r
  (s.storeBytes res (leBytes 8 w), bad)

/-- The row of one operation that stands alone: applied for a partition, its result written. -/
def opRow (f : State → Nat → OpRec → State × Nat × Bool) (part : Nat) (r : OpRec) (res : Nat) (s : State) : Out :=
  ok (applyOp f part r res s).1

/-- A failed operation: nothing changed (R328). -/
def opFail (s : State) (status : Nat) : State × Nat × Bool := (s, resultWord status 0, true)

/-- An operation that succeeds, with a handle in its result. -/
def opOk (s : State) (handle : Nat) : State × Nat × Bool := (s, resultWord 0 handle, false)

/-- One step of a list command: the checks of its lists before any operation, the tiles of its order stream, then one
operation record after another, where the memory that an operation reads holds no uncorrectable error (R444, R447); OUT0, where it is bound, carries the count of failed ones (R326). `det` is the
detail code of a bad list, `f` applies one record, and `reads` names what it reads. The order stream is taken whole before the first operation
(DEDUCED, log 33). -/
def listStep (op det : Nat) (f : State → Nat → OpRec → State × Nat × Bool) (reads : State → OpRec → List (Nat × Nat)) (slot : Nat)
    (s : State) : Out :=
  match runningCmd s slot op with
  | none => ok s
  | some t =>
    let ops := opw t.opb 4 47 0
    let res := opw t.opb 5 47 0
    let n := opw t.opb 6 15 0 + 1
    if t.work.opened = false then
      if ops % 16 = 0 ∧ res % 8 = 0 ∧ ownsRange s t.part ops (16 * n) ∧ ownsRange s t.part res (8 * n) then
        ok (s.updCmd slot fun u => { u with work := { u.work with opened := true } })
      else ok (s.finish slot St.cmdError det)
    else
      match (t.ins[0]?).bind fun b => b.window.head? with
      | some _ => ok ((s.takeTile slot 0).releaseTo slot 0 (2 ^ 32))
      | none =>
        if ¬ t.ins.all (fun b => b.lastIn) then ok (s.upstreamEnd slot)
        else if t.work.pos < n then
          let a := ops + 16 * t.work.pos
          if clearingAt s a 16 ∨ clearingAt s (res + 8 * t.work.pos) 8 then ok s
          else if ¬ ownsRange s t.part a 16 then ok (s.readDropped t [a] 16)
          else if badRange s a 16 then ok (s.readFault slot a 16)
          else match (reads s (opRecOf (softBytes s a 16))).find? fun r => badRange s r.1 r.2 with
          | some r => ok (s.readFault slot r.1 r.2)
          | none =>
            let (s, w, bad) := f (s.memIn t a 16) t.part (opRecOf (softBytes s a 16))
            let s := s.storeOwned t (res + 8 * t.work.pos) (leBytes 8 w)
            let s := s.updCmd slot fun u =>
              { u with
                  work := { u.work with pos := u.work.pos + 1, fails := if bad then u.work.fails + 1 else u.work.fails } }
            ok (if t.work.pos + 1 = n ∧ t.outs.isEmpty then s.reach slot St.done Det.none else s)
        else
          ok ((s.formTile slot 0 (mkTile 0x01 1 8 true (leBytes 4 t.work.fails ++ leBytes 4 0))).reach slot St.done Det.none)

end Sys2Proof.Machine
end

