-- ==== Sys2Proof/Machine/LedgerOps.lean ====
section
/-! DEFINITION. The page ledger: classes, frames, entries, sequence records, the Bobbin, and the operations over them
(Attention and the KV Page Ledger). -/

namespace Sys2Proof.Machine

open Sys2Proof

/-! ### Statuses (R331) -/

namespace Lg
abbrev stale : Nat := 1
abbrev notOwner : Nat := 2
abbrev noFrame : Nat := 3
abbrev refOvf : Nat := 4
abbrev pinOvf : Nat := 5
abbrev badSeq : Nat := 6
abbrev badIndex : Nat := 7
abbrev badArg : Nat := 8
abbrev underflow : Nat := 9
end Lg

/-- The ledger takes operations: enabled, and no class is being initialised (Table 5-11, R359). -/
def ledgerOn (s : State) : Bool := s.flag A.ledgerCtl A.ledgerCtl_enable && s.classInit.isEmpty && !s.frozen

/-- Nothing goes on in the ledger: no class is being initialised, no flush to be done (Table 5-12). Its other operations are whole
in one step. -/
def ledgerQuiet (s : State) : Bool := s.classInit.isEmpty && s.flushes.isEmpty

/-! ### Pages of a sequence (R298 to R300) -/

/-- What refuses an operation on a page named by handle: STALE where the handle's GEN is not the entry's or the entry is FREE or
RETIRED, or NOT_OWNER (R300, R331). R300 excepts no operation, so an UNPIN too (log 46). -/
def pageRefused (s : State) (part h : Nat) : Option Nat :=
  if ¬ handleMatches s h then some Lg.stale
  else
    let e := pageEntry s (hClass h) (hFrame h)
    if e.live ≠ pgLive then some Lg.stale
    else if e.owner = part then none
    else some Lg.notOwner

/-- A reference of a list dropped; a null handle holds none. -/
def State.dropRef (s : State) (h : Nat) : State :=
  if handleMatches s h ∧ (pageEntry s (hClass h) (hFrame h)).live = pgLive then s.updPage h PageEntry.drop else s

/-- The free frames of a class in a lode. -/
def freeFrames (s : State) (n lode : Nat) : List Nat :=
  ((List.range (perLode s n)).map (lode * perLode s n + ·)).filter fun f => (pageEntry s n f).live == pgFree

/-- A frame taken from a lode's pool for a partition (Table 5-2); which of the free ones is not said: a free choice.
Answers the handle. -/
def State.takeFrameOf (s : State) (n lode part : Nat) : Option (State × Nat) :=
  match freeFrames s n lode with
  | [] => none
  | fs =>
    let f := fs.getD (Config.pickFrame s.free fs.length % fs.length) (fs.headD 0)
    let g := (pageEntry s n f).gen
    let gen := if g = 255 then 1 else g + 1
    let e : PageEntry := { ref := 1, pins := 0, owner := part, live := pgLive, noEvict := false, gen := gen, score := 0 }
    some ({ s with free := s.free + 1 }.setEntry n f e, mkHandle n f gen)

/-! ### Sequence records (R301 to R303) -/

/-- A sequence record's fields (Table 5-3). -/
structure SeqRec where
  cls       : Nat
  home      : Nat
  owner     : Nat
  layers    : Nat
  committed : Nat
  tent      : Nat
  length    : Nat
  cap       : Nat
  list      : Nat
  deriving DecidableEq, Repr

def seqAddr (s : State) (q : Nat) : Nat := s.fget A.ledgerSeqBase A.ledgerSeqBase_base / 32 * 32 + 32 * q

def SeqRec.ofWords (w0 w1 w2 : Nat) : SeqRec :=
  { cls := fld w0 4 1, home := fld w0 8 5, owner := fld w0 11 9, layers := fld w0 19 12 + 1, committed := fld w0 25 20,
    tent := fld w0 30 26, length := fld w1 31 0, cap := fld w1 63 32, list := fld w2 47 0 }

/-- The record of a sequence, if it is valid. -/
def seqRec (s : State) (q : Nat) : Option SeqRec :=
  let a := seqAddr s q
  if (word64 s a).testBit 0 then some (SeqRec.ofWords (word64 s a) (word64 s (a + 8)) (word64 s (a + 16))) else none

/-- A record written, VALID. -/
def State.setSeq (s : State) (q : Nat) (r : SeqRec) : State :=
  let w0 := 1 + r.cls * 2 + r.home * 2 ^ 5 + r.owner * 2 ^ 9 + (r.layers - 1) * 2 ^ 12 + r.committed * 2 ^ 20 + r.tent * 2 ^ 26
  s.storeBytes (seqAddr s q) (leBytes 8 w0 ++ leBytes 8 (r.length + r.cap * 2 ^ 32) ++ leBytes 8 r.list ++ leBytes 8 0)

/-- The address of a list slot; slot k × LAYERS + l holds page k of layer l (R302). -/
def slotAddr (r : SeqRec) (slot : Nat) : Nat := r.list + 8 * slot

/-- The handle in a list slot. -/
def slotHandle (s : State) (r : SeqRec) (slot : Nat) : Nat := word64 s (slotAddr r slot)

/-- A handle written into a list slot. -/
def State.setSlot (s : State) (r : SeqRec) (slot h : Nat) : State := s.storeBytes (slotAddr r slot) (leBytes 8 h)

/-- What refuses an operation that names a sequence: BAD_SEQ, or NOT_OWNER (R331); else its record. -/
def onSeq (s : State) (part q : Nat) (f : SeqRec → State × Nat × Bool) : State × Nat × Bool :=
  match seqRec s q with
  | none => opFail s Lg.badSeq
  | some r => if r.owner = part then f r else opFail s Lg.notOwner

/-! ### The Bobbin (R341 to R348) -/

/-- The lines of the Bobbin area that no entry holds: those that LEDGER_BOBBIN_CFG sets, of the lines that Commons has (R341). -/
def freeLineList (s : State) : List Nat :=
  let held := s.bobbin.flatMap BobEntry.lines
  ((List.range (s.fget A.ledgerBobbinCfg A.ledgerBobbinCfg_lines)).map
    (s.fget A.ledgerBobbinCfg A.ledgerBobbinCfg_firstLine + ·)).filter fun l => decide (l < commonsSize / 64) && !held.contains l

/-- `n` lines of a list of free ones; which ones is not said: a free choice (DESIGN CHOICE, log 99). -/
def pickLines (seed : Nat) : Nat → List Nat → List Nat
  | 0, _ => []
  | _, [] => []
  | n + 1, l :: ls =>
    let x := (l :: ls).getD (Config.pickFrame seed (ls.length + 1) % (ls.length + 1)) l
    x :: pickLines (seed + 1) n ((l :: ls).erase x)

/-- The address of a line of Commons. -/
def lineAddr (l : Nat) : Nat := commonsBase + 64 * l

/-- The bytes of a Bobbin entry, in its lines. -/
def bobBytes (s : State) (b : BobEntry) : List Byte := b.lines.flatMap fun l => readBytes s (lineAddr l) 64

/-- An entry's bytes stored in its lines. -/
def State.storeLines (s : State) : List Nat → List Byte → State
  | [], _ => s
  | l :: ls, bs => (s.storeBytes (lineAddr l) (bs.take 64)).storeLines ls (bs.drop 64)

/-- LEDGER_BOBBIN_USE after a change of the Bobbin. -/
def State.bobbinUse (s : State) : State :=
  let n := (s.bobbin.map fun b => b.lines.length).sum
  (s.fset A.ledgerBobbinUse A.ledgerBobbinUse_inUse n).raiseTo A.ledgerBobbinUse A.ledgerBobbinUse_highWater n

/-- The Bobbin without the entries that satisfy a test. -/
def State.freeLines (s : State) (f : BobEntry → Bool) : State :=
  ({ s with bobbin := s.bobbin.filter fun b => !f b }).bobbinUse

/-- The Bobbin entry of a position in a layer. -/
def bobEntry (s : State) (q layer pos : Nat) : Option BobEntry :=
  s.bobbin.find? fun b => b.seq == q && b.layer == layer && b.pos == pos

/-- The entry bytes of a held position: from the Bobbin, or from its page; none where its page is null (R303). -/
def heldEntry (s : State) (q : Nat) (r : SeqRec) (layer pos : Nat) : Option (List Byte) :=
  match bobEntry s q layer pos with
  | some b => some (bobBytes s b)
  | none =>
    let k := pgPos s r.cls
    let h := slotHandle s r (pos / k * r.layers + layer)
    if h = 0 then none
    else some (readBytes s (frameAddr s r.cls (hFrame h) + (pos % k) * entryBytes s r.cls) (entryBytes s r.cls))

/-- A record with LENGTH advanced by a page, and COMMITTED lowered, for each page that is flushed in every layer (R344).
`fuel` bounds the pages. -/
def advancedRec (s : State) (q : Nat) : SeqRec → Nat → SeqRec
  | r, 0 => r
  | r, fuel + 1 =>
    let k := pgPos s r.cls
    let page := r.length / k
    let done (l : Nat) : Bool :=
      slotHandle s r (page * r.layers + l) != 0 && !(s.flushes.contains (q, l, page)) &&
        !(s.bobbin.any fun b => b.seq == q && b.layer == l && decide (b.pos < r.length + k))
    if k ≤ r.committed ∧ (List.range r.layers).all done then
      advancedRec s q { r with length := r.length + k, committed := r.committed - k } fuel
    else r

/-- The record of a sequence advanced. -/
def State.advanceSeq (s : State) (q fuel : Nat) : State :=
  match seqRec s q with
  | none => s
  | some r => s.setSeq q (advancedRec s q r fuel)

/-- A record with LENGTH advanced over the pages of a resumed sequence that stand in every layer (R344, R406). `fuel` bounds the
pages. -/
def restoredRec (s : State) (q : Nat) : SeqRec → Nat → SeqRec
  | r, 0 => r
  | r, fuel + 1 =>
    let k := pgPos s r.cls
    let page := r.length / k
    if decide (page < r.cap) && (List.range r.layers).all fun l =>
        slotHandle s r (page * r.layers + l) != 0 && !(s.flushes.contains (q, l, page)) then
      restoredRec s q { r with length := r.length + k } fuel
    else r

/-- A resumed request whose image is restored decodes on (R406, Table 6-1). -/
def State.resumed (s : State) (q : Nat) : State :=
  if s.restoring.any (fun x => x.1 == q) then s
  else
    let reqs := (s.resuming.filter fun x => x.2 == q).map Prod.fst
    { s with resuming := s.resuming.filter fun x => x.2 != q
             requests := s.requests.map fun (x : Nat × Request) =>
               if reqs.contains x.1 ∧ x.2.state = .paused then (x.1, { x.2 with state := .decode }) else x }

/-- Flushes no longer to be done. -/
def State.dropFlushes (s : State) (f : Nat × Nat × Nat → Bool) : State :=
  { s with
      flushes := s.flushes.filter fun x => !f x, poolWaits := s.poolWaits.filter fun x => !f x
      restoring := s.restoring.filter fun x => !f (x.1, x.2.layer, x.2.page) }

/-- One flush: a frame of the home lode, the page's entries, its handle in the list, the lines freed; a page that the slot
held is decremented (R344, R347). With no free frame it waits, with POOL_EMPTY (R346). A page of a resumed sequence takes its bytes
from the image (R406). -/
def State.flushPage (s : State) (q layer page : Nat) : State :=
  match seqRec s q with
  | none => s.dropFlushes fun f => f == (q, layer, page)
  | some r =>
    let k := pgPos s r.cls
    match s.takeFrameOf r.cls r.home r.owner with
    | none => if s.poolWaits.contains (q, layer, page) then s else { s with poolWaits := s.poolWaits ++ [(q, layer, page)] }
    | some (s', h) =>
      let slot := page * r.layers + layer
      let saved := s.restoring.find? fun x => x.1 == q && x.2.layer == layer && x.2.page == page
      let bytes := match saved with
        | some x => x.2.bytes
        | none => (List.range k).flatMap fun i =>
          (heldEntry s q r layer (page * k + i)).getD (List.replicate (entryBytes s r.cls) 0)
      let old := slotHandle s r slot
      let s := s'.storeBytes (frameAddr s r.cls (hFrame h)) bytes
      let s := (if old = 0 then s else s.dropRef old).setSlot r slot h
      let s := s.freeLines fun b => b.seq == q && b.layer == layer && b.pos / k == page
      let s := s.dropFlushes fun f => f == (q, layer, page)
      if saved.isSome then (s.setSeq q (restoredRec s q r r.cap)).resumed q else s.advanceSeq q 64

/-! ### Operations (R326 to R340, R350 to R353) -/

/-- SEQ_OPEN: a record from an image (Table 5-6); one that is valid refuses it, another partition's with NOT_OWNER (R331). -/
def lopSeqOpen (s : State) (part : Nat) (r : OpRec) : State × Nat × Bool :=
  match seqRec s r.seq with
  | some q => opFail s (if q.owner = part then Lg.badSeq else Lg.notOwner)
  | none =>
    let a := r.word1
    let im := SeqRec.ofWords (word64 s a) (word64 s (a + 8)) (word64 s (a + 16))
    if a % 8 ≠ 0 ∨ ¬ ownsRange s part a 32 ∨ ¬ clsValid s im.cls ∨ im.list % 8 ≠ 0 ∨
        ¬ ownsRange s part im.list (8 * im.cap * im.layers) then opFail s Lg.badArg
    else
      let im := { im with owner := part, committed := 0, tent := 0, length := 0 }
      let s := s.storeBytes im.list (List.replicate (8 * im.cap * im.layers) 0)
      let s := { s with seqUsed := if s.seqUsed.contains r.seq then s.seqUsed else s.seqUsed ++ [r.seq] }
      opOk (s.setSeq r.seq im) 0

/-- A sequence's pages decremented, its lines freed, its record made invalid (SEQ_CLOSE). -/
def State.closeSeq (s : State) (q : Nat) (r : SeqRec) : State :=
  let s := (List.range (r.cap * r.layers)).foldl (fun s i => s.dropRef (slotHandle s r i)) s
  let s := s.freeLines fun b => b.seq == q
  let s := { s.dropFlushes fun f => f.1 == q with
    seqUsed := s.seqUsed.filter (· != q), resuming := s.resuming.filter fun x => x.2 != q }
  s.storeBytes (seqAddr s q) (leBytes 8 (word64 s (seqAddr s q) / 2 * 2))

def lopSeqClose (s : State) (part : Nat) (r : OpRec) : State × Nat × Bool :=
  onSeq s part r.seq fun q => opOk (s.closeSeq r.seq q) 0

/-- SHARE: the pages of a prefix held by another sequence too; a page that is not LIVE refuses it (Table 5-2). -/
def lopShare (s : State) (part : Nat) (r : OpRec) : State × Nat × Bool :=
  onSeq s part r.seq fun t =>
    let src := fld r.arg 13 0
    let k := fld r.arg 31 14
    onSeq s part src fun o =>
      let n := k * t.layers
      let hs := (List.range n).map (slotHandle s o)
      if t.length + t.committed + t.tent ≠ 0 ∨ t.cls ≠ o.cls ∨ t.layers ≠ o.layers then opFail s Lg.badSeq
      else if o.length < k * pgPos s o.cls ∨ t.cap < k then opFail s Lg.badIndex
      else if hs.any fun h => h != 0 && (pageRefused s part h).isSome then opFail s Lg.stale
      else if hs.any fun h => h != 0 && decide (1048575 ≤ (pageEntry s (hClass h) (hFrame h)).ref) then opFail s Lg.refOvf
      else
        let s := (List.range n).foldl (fun s i =>
          let h := slotHandle s o i
          let s := s.dropRef (slotHandle s t i)
          let s := if h = 0 then s else s.updPage h fun e => { e with ref := e.ref + 1 }
          s.setSlot t i h) s
        opOk (s.setSeq r.seq { t with length := k * pgPos s t.cls }) 0

/-- The slot that DROP or COW names, and its handle: BAD_INDEX from the bound `top` on, STALE where the slot is null (DEDUCED,
log 47), and the refusal of R300 where its page is no longer the one the handle names. -/
def onSlot (s : State) (part : Nat) (r : OpRec) (top : SeqRec → Nat) (f : SeqRec → Nat → State × Nat × Bool) : State × Nat × Bool :=
  onSeq s part r.seq fun q =>
    if top q ≤ r.arg then opFail s Lg.badIndex
    else
      match pageRefused s part (slotHandle s q r.arg) with
      | some st => opFail s st
      | none => f q (slotHandle s q r.arg)

/-- DROP: slots at or above LENGTH ÷ PG_POS × LAYERS are refused (Table 5-6). -/
def lopDrop (s : State) (part : Nat) (r : OpRec) : State × Nat × Bool :=
  onSlot s part r (fun q => q.length / pgPos s q.cls * q.layers) fun q h => opOk ((s.dropRef h).setSlot q r.arg 0) 0

/-- COW: the page itself where no other holds or reads it; else a copy in a frame of the same lode (R336 to R339). Any slot of the list
may be named, those that a flush filled beyond LENGTH too. -/
def lopCow (s : State) (part : Nat) (r : OpRec) : State × Nat × Bool :=
  onSlot s part r (fun q => q.cap * q.layers) fun q h =>
    let e := pageEntry s (hClass h) (hFrame h)
    if e.ref = 1 ∧ e.pins = 0 then opOk s h
    else
      match s.takeFrameOf q.cls (hFrame h / perLode s q.cls) part with
      | none => opFail s Lg.noFrame
      | some (s, n) =>
        let bytes := readBytes s (frameAddr s q.cls (hFrame h)) (pgPos s q.cls * entryBytes s q.cls)
        let s := s.storeBytes (frameAddr s q.cls (hFrame n)) bytes
        opOk ((s.setSlot q r.arg n).dropRef h) n

/-- An operation on a page named by its handle. -/
def onPage (s : State) (part : Nat) (r : OpRec) (f : PageEntry → State × Nat × Bool) : State × Nat × Bool :=
  match pageRefused s part r.word1 with
  | some st => opFail s st
  | none => f (pageEntry s (hClass r.word1) (hFrame r.word1))

def lopPin (s : State) (part : Nat) (r : OpRec) : State × Nat × Bool :=
  onPage s part r fun e =>
    if 4095 ≤ e.pins then opFail s Lg.pinOvf else opOk (s.updPage r.word1 fun e => { e with pins := e.pins + 1 }) 0

def lopUnpin (s : State) (part : Nat) (r : OpRec) : State × Nat × Bool :=
  onPage s part r fun e => if e.pins = 0 then opFail s Lg.underflow else opOk (s.updPage r.word1 PageEntry.unpin) 0

/-- RESOLVE: the first `a` tentative positions become committed, the rest are discarded, and complete pages are flushed
(R348). -/
def lopResolve (s : State) (part : Nat) (r : OpRec) : State × Nat × Bool :=
  onSeq s part r.seq fun q =>
    let a := r.arg
    if q.tent < a then opFail s Lg.badArg
    else
      let base := q.length + q.committed
      let s := s.freeLines fun b => b.seq == r.seq && decide (base + a ≤ b.pos)
      let s := { s with bobbin := s.bobbin.map fun (b : BobEntry) =>
        if b.seq == r.seq && decide (b.pos < base + a) then { b with tent := false } else b }
      let q := { q with committed := q.committed + a, tent := 0 }
      let s := s.setSeq r.seq q
      let k := pgPos s q.cls
      let pages := (List.range (q.committed / k)).map (q.length / k + ·)
      let due := pages.flatMap fun p => (List.range q.layers).filterMap fun l =>
        if s.bobbin.any (fun b => b.seq == r.seq && b.layer == l && b.pos / k == p) && !(s.flushes.contains (r.seq, l, p))
        then some (r.seq, l, p) else none
      opOk ({ s with flushes := s.flushes ++ due }.advanceSeq r.seq 64) 0

/-- The eviction ring is full (R353). -/
def ringFull (s : State) : Bool :=
  let n := 2 ^ log2In (s.fget A.ledgerEvictBase A.ledgerEvictBase_log2Entries) 6 20 6
  (s.reg A.ledgerEvictTail + 1) % n == s.reg A.ledgerEvictHead % n

/-- One page listed for eviction (R352). -/
def State.listPage (s : State) (n f : Nat) (e : PageEntry) : State :=
  let size := 2 ^ log2In (s.fget A.ledgerEvictBase A.ledgerEvictBase_log2Entries) 6 20 6
  let t := s.reg A.ledgerEvictTail % size
  let s := s.storeBytes (s.fget A.ledgerEvictBase A.ledgerEvictBase_base / 8 * 8 + 8 * t)
    (leBytes 8 (mkHandle n f e.gen + e.score * 2 ^ 40))
  s.setReg A.ledgerEvictTail ((t + 1) % size)

/-- The threshold loop of a class (R351, R360): its new threshold and whether it met a bound. -/
def nextTh (lo hi step th p high low : Nat) (pin : Bool) : Nat × Bool :=
  let hi := max lo hi
  let th := min hi (max lo th)
  if pin then (lo, false)
  else if high ≤ p then (if hi < th + step then (hi, true) else (th + step, false))
  else if p < low then (if th < lo + step then (lo, true) else (th - step, false))
  else (th, false)

/-- A tick of one class: decay, threshold, listing (R350 to R353). `stop` says that the ring was found full. -/
def State.tickClass (s : State) (n : Nat) : State :=
  if ¬ clsValid s n then s
  else
    let frames := 16 * perLode s n
    let sh := s.fget A.ledgerScoreCtl A.ledgerScoreCtl_decayShift
    let s := (List.range frames).foldl (fun s f =>
      let e := pageEntry s n f
      if e.live = pgLive ∧ sh ≠ 0 then s.setEntry n f { e with score := e.score - e.score / 2 ^ sh } else s) s
    let p := 256 * s.fget (A.ledgerCount n) A.ledgerCount_live / frames
    let g := A.ledgerLoop n
    let high := s.fget g A.ledgerLoop_high
    let (th, clash) := nextTh (s.fget g A.ledgerLoop_thMin) (s.fget g A.ledgerLoop_thMax) (s.fget g A.ledgerLoop_step)
      (s.fget (A.ledgerLoopState n) A.ledgerLoopState_th) p high (s.fget g A.ledgerLoop_low) (s.flag g A.ledgerLoop_pin)
    let s := s.fset (A.ledgerLoopState n) A.ledgerLoopState_th th
    let s := if clash then s.bump (A.ledgerLoopState n) A.ledgerLoopState_clash 1 else s
    if s.flag g A.ledgerLoop_evictEn ∧ high ≤ p then
      let due := ((List.range frames).filter fun f =>
        let e := pageEntry s n f
        e.live == pgLive && decide (e.score < th) && !e.noEvict).take (s.fget A.ledgerScoreCtl A.ledgerScoreCtl_evictMax)
      due.foldl (fun s f =>
        if s.flag A.ledgerStatus A.ledgerStatus_evictFull then s
        else if ringFull s then s.fset A.ledgerStatus A.ledgerStatus_evictFull 1
        else s.listPage n f (pageEntry s n f)) s
    else s

/-- TICK: every valid class (R350 to R354). A ring found full stops this tick's listing; the flag it sets from earlier
ticks does not. -/
def lopTick (s : State) (_part : Nat) (_r : OpRec) : State × Nat × Bool :=
  let old := s.fget A.ledgerStatus A.ledgerStatus_evictFull
  let s := (List.range 16).foldl State.tickClass (s.fset A.ledgerStatus A.ledgerStatus_evictFull 0)
  opOk (if old = 0 then s else s.fset A.ledgerStatus A.ledgerStatus_evictFull 1) 0

def lopNoevict (s : State) (part : Nat) (r : OpRec) : State × Nat × Bool :=
  onPage s part r fun _ => opOk (s.updPage r.word1 fun e => { e with noEvict := r.arg.testBit 0 }) 0

def lopQuery (s : State) (part : Nat) (r : OpRec) : State × Nat × Bool :=
  onPage s part r fun e => (s, e.word, false)

def lopAlloc (s : State) (part : Nat) (r : OpRec) : State × Nat × Bool :=
  if ¬ clsValid s r.cls then opFail s Lg.badArg
  else
    match s.takeFrameOf r.cls r.lode part with
    | none => opFail s Lg.noFrame
    | some (s, h) => opOk s h

def lopDecref (s : State) (part : Nat) (r : OpRec) : State × Nat × Bool :=
  onPage s part r fun e =>
    if e.ref = 0 then opFail s Lg.underflow else opOk (s.updPage r.word1 PageEntry.drop) 0

/-- One record of a KVOP list (Table 5-6). -/
def lop (s : State) (part : Nat) (r : OpRec) : State × Nat × Bool :=
  match r.op with
  | 0x01 => lopSeqOpen s part r
  | 0x02 => lopSeqClose s part r
  | 0x03 => lopShare s part r
  | 0x04 => lopDrop s part r
  | 0x05 => lopCow s part r
  | 0x06 => lopPin s part r
  | 0x07 => lopUnpin s part r
  | 0x08 => lopResolve s part r
  | 0x09 => lopTick s part r
  | 0x0A => lopNoevict s part r
  | 0x0B => lopQuery s part r
  | 0x0C => lopAlloc s part r
  | 0x0D => lopDecref s part r
  | _ => opFail s Lg.badArg

/-- The words of memory that an operation of the ledger reads: sequence records, list slots, page entries, those of every valid class for
TICK and of the pool for ALLOC, the page that COW copies (R444). -/
def lopReads (s : State) (r : OpRec) : List (Nat × Nat) :=
  let seqWords (q : Nat) : Nat × Nat := (seqAddr s q, 32)
  let slots (q n : Nat) : List (Nat × Nat) := match seqRec s q with | some o => [(o.list, 8 * n)] | none => []
  let entry (h : Nat) : List (Nat × Nat) := if clsValid s (hClass h) then [(entryAddr s (hClass h) (hFrame h), 8)] else []
  match r.op with
  | 0x01 => [seqWords r.seq, (r.word1, 32)]
  | 0x02 => seqWords r.seq :: slots r.seq (((seqRec s r.seq).map fun o => o.cap * o.layers).getD 0)
  | 0x03 =>
    let src := fld r.arg 13 0
    [seqWords r.seq, seqWords src] ++ slots src (fld r.arg 31 14 * ((seqRec s src).map SeqRec.layers).getD 0)
  | 0x04 | 0x05 =>
    seqWords r.seq ::
      match seqRec s r.seq with
      | none => []
      | some o =>
        let h := slotHandle s o r.arg
        (slotAddr o r.arg, 8) :: entry h ++
          (if r.op = 0x05 ∧ h ≠ 0 then [(frameAddr s o.cls (hFrame h), pgPos s o.cls * entryBytes s o.cls)] else [])
  | 0x08 => [seqWords r.seq]
  | 0x06 | 0x07 | 0x0A | 0x0B | 0x0D => entry r.word1
  | 0x09 => ((List.range 16).filter (clsValid s)).map fun n => (entryAddr s n 0, 8 * (16 * perLode s n))
  | 0x0C => if clsValid s r.cls then [(entryAddr s r.cls (r.lode * perLode s r.cls), 8 * perLode s r.cls)] else []
  | _ => []

/-- Teardown of a partition: its records invalid, its pages without references in every class, one whose VALID is 0 too, its lines free
(R356). -/
def State.ledgerTeardown (s : State) (p : Nat) : State :=
  let mine := s.seqUsed.filter fun q => ((seqRec s q).map SeqRec.owner) == some p
  let s := mine.foldl (fun s q => s.storeBytes (seqAddr s q) (leBytes 8 (word64 s (seqAddr s q) / 2 * 2))) s
  let s := s.freeLines fun b => mine.contains b.seq
  let s := { s.dropFlushes fun f => mine.contains f.1 with seqUsed := s.seqUsed.filter fun q => !mine.contains q }
  (List.range 16).foldl (fun s n =>
    (List.range (16 * perLode s n)).foldl (fun s f =>
      let e := pageEntry s n f
      if e.live = pgLive ∧ e.owner = p then
        s.setEntry n f { e with ref := 0, live := if e.pins = 0 then pgFree else pgRetired }
      else s) s) s

end Sys2Proof.Machine
end

