-- ==== Sys2Proof/Machine/AttnOps.lean ====
section
/-! DEFINITION. The computation of attention: sequence lists, chunks, masks, the running softmax, statistics, page scores
and the backward pass (R306 to R316, R321 to R325, R349). -/

namespace Sys2Proof.Machine

open Sys2Proof

/-! ### Detail codes (Table 5-9) -/

namespace At
abbrev shape : Nat := 0x160
abbrev fmt : Nat := 0x161
abbrev seqState : Nat := 0x162
abbrev kvRange : Nat := 0x163
abbrev listOvf : Nat := 0x164
abbrev tentOrder : Nat := 0x165
abbrev statsShape : Nat := 0x166
end At

/-! ### Operand block (Table 5-4) -/

/-- The fields of an ATTN operand block. -/
structure AttnCfg where
  nseq   : Nat
  hq     : Nat
  hkv    : Nat
  qFmt   : Nat
  pFmt   : Nat
  out    : Nat
  causal : Bool
  append : Bool
  stats  : Bool
  score  : Bool
  addr   : Nat
  layer  : Nat
  scale  : Nat
  window : Nat
  deriving DecidableEq, Repr

def AttnCfg.of (opb : List Byte) : AttnCfg :=
  { nseq := opw opb 4 11 0 + 1, hq := opw opb 4 19 12 + 1, hkv := opw opb 4 25 20 + 1, qFmt := opw opb 4 30 26
    pFmt := opw opb 4 35 31, out := opw opb 4 40 36, causal := opw opb 4 41 41 == 1, append := opw opb 4 42 42 == 1
    stats := opw opb 4 43 43 == 1, score := opw opb 4 44 44 == 1, addr := opw opb 5 47 0, layer := opw opb 5 63 48
    scale := opw opb 6 31 0, window := opw opb 6 63 32 }

/-- The KV head that query head `h` reads. -/
def AttnCfg.kvHead (c : AttnCfg) (h : Nat) : Nat := h / (c.hq / c.hkv)

/-- A sequence-list entry (R306). -/
structure SeqEnt where
  seq  : Nat
  rows : Nat
  pos0 : Nat
  tent : Nat
  deriving DecidableEq, Repr

def seqEnts (n : Nat) (bs : List Byte) : List SeqEnt :=
  (List.range n).map fun i =>
    let w0 := entry 8 bs (2 * i)
    let w1 := entry 8 bs (2 * i + 1)
    { seq := fld w0 13 0, rows := fld w0 31 16 + 1, pos0 := fld w0 63 32, tent := fld w1 15 0 }

/-- Every other bit of an entry is zero. -/
def seqEntReserved (n : Nat) (bs : List Byte) : Bool :=
  (List.range n).all fun i => fld (entry 8 bs (2 * i)) 15 14 == 0 && fld (entry 8 bs (2 * i + 1)) 63 16 == 0

/-- The sequence of a flat query row, its place in the list and the row in it. -/
def rowOwner : List SeqEnt → Nat → Nat → Option (SeqEnt × Nat × Nat)
  | [], _, _ => none
  | e :: r, i, k => if k < e.rows then some (e, i, k) else rowOwner r (i + 1) (k - e.rows)

def totalRows (es : List SeqEnt) : Nat := (es.map SeqEnt.rows).sum

/-! ### Streams (R307, R308; DESIGN CHOICE, log 58) -/

/-- Stream rows of `n` bytes that one tile holds. -/
def rowsPerTile (n : Nat) : Nat := if n ≤ 256 then 128 else 128 * 256 / n

/-- A tile of a stream of `total` rows of `n` bytes that arrives when `have_` rows are taken: it holds every row that fits
(R307). -/
def streamTileOk (fmt n total have_ : Nat) (x : Tile) : Bool :=
  let bytes := tileRows x * tileRowBytes x
  let k := bytes / n
  decide (x.format = fmt ∧ bytes % n = 0 ∧ 0 < k ∧ k = min (rowsPerTile n) (total - have_)) &&
    (x.last == decide (have_ + k = total)) && (decide (256 < n) || decide (tileRowBytes x = n))

/-- The bytes of the tiles of a stream, and its row `i` of `n` bytes. -/
def streamBytes (ts : List Tile) : List Byte := ts.flatMap expand
def streamRow (ts : List Tile) (n i : Nat) : List Byte := ((streamBytes ts).drop (i * n)).take n

/-- The rows taken of a stream. -/
def rowsTaken (n : Nat) (ts : List Tile) : Nat := ((ts.map fun x => tileRows x * tileRowBytes x).sum) / n

/-- A tile of output rows of `n` bytes each. -/
def streamTile (fmt n : Nat) (rows : List (List Byte)) (last tent : Bool) : Tile :=
  let w := min n 256
  { mkTile fmt (rows.length * n / w) w last rows.flatten with tent := tent }

/-! ### Keys and values -/

/-- An entry's key, or value, of a KV head (R293). -/
def kvSlice (fmt dim hkv : Nat) (value : Bool) (g : Nat) (bs : List Byte) : List Fv :=
  let n := dim * unitBytes fmt
  let off := (if value then hkv else 0) * n + g * n
  rowVals fmt ((bs.drop off).take n)

/-- The held positions of a layer below a limit: each with the handle of its page, or 0 where the Bobbin holds it. Positions below LENGTH
are those of the pages, whatever the Bobbin still holds of them (R303); one from LENGTH on that has left the Bobbin has been flushed
(R344). -/
def heldPlaces (s : State) (q : Nat) (r : SeqRec) (layer limit : Nat) : List (Nat × Nat) :=
  (List.range limit).filterMap fun p =>
    if r.length ≤ p ∧ (bobEntry s q layer p).isSome then some (p, 0)
    else
      let h := slotHandle s r (p / pgPos s r.cls * r.layers + layer)
      if h = 0 then none else some (p, h)

/-- Chunks of 128. `fuel` bounds them. -/
def chunksOf {α : Type} : Nat → List α → List (List α)
  | 0, _ => []
  | _, [] => []
  | n + 1, l => l.take 128 :: chunksOf n (l.drop 128)

/-- A position is masked for a query row at position `q` (R313). -/
def AttnCfg.masked (c : AttnCfg) (q p : Nat) : Bool :=
  (c.causal && decide (q < p)) || (c.window != 0 && decide (p + c.window ≤ q))

/-! ### The running softmax (R310, R311) -/

abbrev f32NegInf : Nat := 0xFF800000

/-- The pair of a format with the K and V format. -/
def attnPair (a b : Nat) : Option Pair :=
  match pairOf a b with
  | some .fp8 => some { fam := .fp8, a := a, b := b, l := laneExp a b 0 }
  | some .b16 => some { fam := .b16, a := a, b := b, l := 0 }
  | _ => none

/-- A sum of products read out to binary32, and its flags. -/
def Pair.sum (p : Pair) (a b : List Fv) : Nat × Nat :=
  let (ln, f) := p.dot Lane.zero [(127, a)] [(127, b)]
  let (x, g) := p.readOut ln
  (x, f ||| g)

/-- m, l, O and the flags gathered. -/
structure Soft where
  m  : Nat
  l  : Nat
  o  : List Nat
  fl : Nat
  deriving DecidableEq, Repr

/-- The scores of a chunk for one row: masked positions have −∞. -/
def chunkScores (c : AttnCfg) (p : Pair) (q : List Fv) (pos : Nat) (ks : List (Nat × List Fv)) : List (Nat × Nat) :=
  ks.map fun k =>
    if c.masked pos k.1 then (f32NegInf, 0)
    else
      let (x, f) := p.sum q k.2
      let (y, g) := f32Mul x c.scale
      (y, f ||| (g &&& fOf))

/-- One chunk: positions with their keys and values (R310). -/
def softStep (c : AttnCfg) (qk pv : Pair) (q : List Fv) (pos : Nat) (st : Soft) (kv : List (Nat × List Fv × List Fv)) : Soft :=
  let ss := chunkScores c qk q pos (kv.map fun x => (x.1, x.2.1))
  let fl := st.fl ||| orFlags ss
  let mn := ss.foldl (fun a x => (f32Max a x.1).1) st.m
  if mn = f32NegInf then { st with fl := fl }
  else
    let (dm, f0) := f32Sub st.m mn
    let a := (f32Exp dm).1
    let ds := ss.map fun x => f32Sub x.1 mn
    let ps := ds.map fun x => (f32Exp x.1).1
    let (la, f1) := f32Mul st.l a
    let (sum, f2) := tree f32Add 8 (ps.map some)
    let (l, f3) := f32Add la (sum.getD 0)
    let pe := ps.map fun x => elemVal c.pFmt (outElem c.pFmt (f32Val x)).1
    let os := st.o.mapIdx fun i x =>
      let (oa, g1) := f32Mul x a
      let (r, g2) := pv.sum pe (kv.map fun y => y.2.2.getD i (.fin false 0 0))
      let (y, g3) := f32Add oa r
      (y, g2 ||| ((g1 ||| g3) &&& fOf))
    { m := mn, l := l, o := os.map Prod.fst, fl := fl ||| ((f0 ||| orFlags ds ||| f1 ||| f2 ||| f3) &&& fOf) ||| orFlags os }

/-- The statistics and sums of one row and head over every chunk. -/
def softRow (c : AttnCfg) (qk pv : Pair) (dim : Nat) (q : List Fv) (pos : Nat) (chs : List (List (Nat × List Fv × List Fv))) :
    Soft :=
  chs.foldl (softStep c qk pv q pos) { m := f32NegInf, l := 0, o := List.replicate dim 0, fl := 0 }

/-- The output of a row: O / l converted, or +0 where l is +0 (R310). -/
def Soft.out (st : Soft) (fmt : Nat) : OutRow :=
  if st.l = 0 then { bytes := List.replicate (st.o.length * unitBytes fmt) 0, flags := st.fl, sat := 0 }
  else
    let xs := st.o.map fun x => f32Div x st.l
    let o := rowOut fmt (xs.map Prod.fst)
    { o with flags := o.flags ||| st.fl ||| (orFlags xs &&& fOf) }

/-! ### Page scores (R349; DEDUCED, log 59) -/

/-- p ÷ l of one row, head and position with the row's final m and l. -/
def massOf (c : AttnCfg) (qk : Pair) (q : List Fv) (pos : Nat) (st : Soft) (k : Nat × List Fv) : Nat :=
  if st.l = 0 then 0
  else
    match chunkScores c qk q pos [k] with
    | [x] => (f32Div (f32Exp (f32Sub x.1 st.m).1).1 st.l).1
    | _ => 0

/-- round_half_even(256 × w) of a sum of masses over `n` rows and heads. -/
def scoreOf (masses : List Nat) (n : Nat) : Nat :=
  let w := (f32Div (masses.foldl (fun a x => (f32Add a x).1) 0) (f32OfInt n).1).1
  match f32Val w with
  | .fin false m e => (toIntMode 0 false m (e + 8)).1.toNat
  | _ => 0

/-! ### The backward pass (R324) -/

/-- Products summed in the canonical order of R146. -/
def canonical (ps : List Nat) : Nat × Nat :=
  let (x, f) := b16Chunks (ps.length / 32 + 1) none ps
  (x.getD 0, f)

/-- Blocks of 128 products, each summed in the canonical order, added in ascending order, and the final sum times a scale
where there is one. -/
def blockSum (ps : List Nat) (scale : Option Nat) : Nat × Nat :=
  let bs := (chunksOf (ps.length / 128 + 1) ps).map canonical
  let (x, f) := match bs with
    | [] => (0, 0)
    | b :: r => r.foldl (fun a y => let (z, g) := f32Add a.1 y.1; (z, a.2 ||| y.2 ||| g)) b
  match scale with
  | none => (x, f &&& fOf)
  | some k => let (y, g) := f32Mul x k; (y, (f ||| g) &&& fOf)

end Sys2Proof.Machine
end

