-- ==== Sys2Proof/Machine/ImageOps.lean ====
section
/-! DEFINITION. Feature maps, convolution, pooling and argmax of one pixel, and the operand blocks of the image opcodes
(Convolution, Pooling and Image Operators). -/

namespace Sys2Proof.Machine

open Sys2Proof

/-! ### Detail codes (Table 4-7) -/

namespace Im
abbrev filter : Nat := 0x140
abbrev pad : Nat := 0x141
abbrev groups : Nat := 0x142
abbrev imageDim : Nat := 0x143
abbrev format : Nat := 0x144
abbrev fuseLayers : Nat := 0x146
abbrev fuseChain : Nat := 0x147
abbrev fuseRegion : Nat := 0x148
end Im

/-! ### Raster maps (R246 to R249) -/

/-- A map's dimensions and format. -/
structure MapDim where
  w   : Nat
  h   : Nat
  c   : Nat
  fmt : Nat
  deriving DecidableEq, Repr

/-- Channels of a full slice, slices of a pixel, segments of a row, tiles of a row, and tiles of the map. -/
def MapDim.sc (d : MapDim) : Nat := min (maxElems d.fmt) d.c
def MapDim.slices (d : MapDim) : Nat := ceilDiv d.c d.sc
def MapDim.segs (d : MapDim) : Nat := ceilDiv d.w 128
def MapDim.rowTiles (d : MapDim) : Nat := d.segs * d.slices
def MapDim.tiles (d : MapDim) : Nat := d.h * d.rowTiles

/-- Channels of slice `k`, and bytes of a pixel in it; bytes of all slices of a pixel. -/
def MapDim.sliceLen (d : MapDim) (k : Nat) : Nat := min d.sc (d.c - k * d.sc)
def MapDim.sliceBytes (d : MapDim) (k : Nat) : Nat := bytesFor d.fmt (d.sliceLen k)
def MapDim.pixelBytes (d : MapDim) : Nat := ((List.range d.slices).map d.sliceBytes).sum

/-- Pixels of segment `g`. -/
def MapDim.segLen (d : MapDim) (g : Nat) : Nat := min 128 (d.w - 128 * g)

/-- Tile `i` of a map has the shape that R246 to R248 give it. A LAST bit that comes early or is missing breaks it too, though R249 names
only row count, row length and format (DESIGN CHOICE, log 115). -/
def MapDim.tileOk (d : MapDim) (i : Nat) (x : Tile) : Bool :=
  let g := i % d.rowTiles / d.slices
  let k := i % d.slices
  decide (x.format = d.fmt ∧ tileRows x = d.segLen g ∧ tileRowBytes x = d.sliceBytes k) &&
    (x.last == decide (i + 1 = d.tiles))

/-- The bytes of pixel (y, x) of a map that arrived as raster tiles: its slices in order. -/
def MapDim.pixel (d : MapDim) (ts : List Tile) (y x : Nat) : List Byte :=
  (List.range d.slices).flatMap fun k =>
    match ts[(y * d.segs + x / 128) * d.slices + k]? with
    | some t => rowOf t (x % 128)
    | none => []

/-- The pixels of a part of a map: a position outside the map has none. -/
abbrev PixelAt := Int → Int → Option (List Byte)

def MapDim.at (d : MapDim) (ts : List Tile) : PixelAt := fun y x =>
  if 0 ≤ y ∧ y < d.h ∧ 0 ≤ x ∧ x < d.w then some (d.pixel ts y.toNat x.toNat) else none

/-! ### Layer blocks (Tables 4-1 and 4-5) -/

/-- The geometry that CONV and POOL share. -/
structure Geo where
  inp  : MapDim
  cout : Nat
  fw   : Nat
  fh   : Nat
  sw   : Nat
  sh   : Nat
  dw   : Nat
  dh   : Nat
  pl   : Nat
  pr   : Nat
  pt   : Nat
  pb   : Nat
  deriving DecidableEq, Repr

/-- The geometry of a block; `fmt` is the format of the input map, `pool` that Cout is Cin and the dilation 1. -/
def Geo.of (blk : List Byte) (fmt : Nat) (pool : Bool) : Geo :=
  let cin := opw blk 4 47 32 + 1
  { inp := { w := opw blk 4 15 0 + 1, h := opw blk 4 31 16 + 1, c := cin, fmt := fmt }
    cout := if pool then cin else opw blk 4 63 48 + 1
    fw := opw blk 5 3 0 + 1, fh := opw blk 5 7 4 + 1, sw := opw blk 5 10 8 + 1, sh := opw blk 5 13 11 + 1
    dw := if pool then 1 else opw blk 5 16 14 + 1, dh := if pool then 1 else opw blk 5 19 17 + 1
    pl := opw blk 5 26 20, pr := opw blk 5 33 27, pt := opw blk 5 40 34, pb := opw blk 5 47 41 }

/-- An output dimension; 0 where R252 gives less than 1. -/
def outDim (n p f d s : Nat) : Nat := if n + p < (f - 1) * d + 1 then 0 else (n + p - (f - 1) * d - 1) / s + 1

def Geo.wo (g : Geo) : Nat := outDim g.inp.w (g.pl + g.pr) g.fw g.dw g.sw
def Geo.ho (g : Geo) : Nat := outDim g.inp.h (g.pt + g.pb) g.fh g.dh g.sh

/-- The checks of Table 4-3 on a geometry. -/
def Geo.check (g : Geo) : Option Nat :=
  if 15 < g.fw ∨ 15 < g.fh then some Im.filter
  else if (g.fw - 1) * g.dw < g.pl ∨ (g.fw - 1) * g.dw < g.pr ∨ (g.fh - 1) * g.dh < g.pt ∨ (g.fh - 1) * g.dh < g.pb then
    some Im.pad
  else if g.wo < 1 ∨ g.ho < 1 then some Im.imageDim
  else none

/-- A CONV layer. -/
structure ConvCfg where
  geo    : Geo
  groups : Nat
  pr     : Pair
  e      : Epi
  pad    : Nat
  deriving DecidableEq, Repr

def convAnchor (blk : List Byte) : Int := sext 10 (opw blk 6 41 32)

def ConvCfg.of (blk : List Byte) : Option ConvCfg :=
  let a := opw blk 6 4 0
  let b := opw blk 6 9 5
  (pairOf a b).map fun f =>
    { geo := Geo.of blk a false, groups := opw blk 5 63 48 + 1
      pr := { fam := f, a := a, b := b, l := laneExp a b (convAnchor blk) }
      e := Epi.of blk 6, pad := opw blk 11 15 0 % 2 ^ elemBits a }

def ConvCfg.cing (c : ConvCfg) : Nat := c.geo.inp.c / c.groups
def ConvCfg.ng (c : ConvCfg) : Nat := c.geo.cout / c.groups
def ConvCfg.kg (c : ConvCfg) : Nat := c.geo.fh * c.geo.fw * c.cing

/-- The output map. -/
def ConvCfg.out (c : ConvCfg) : MapDim := { w := c.geo.wo, h := c.geo.ho, c := c.geo.cout, fmt := c.e.out }

/-- The bits of a CONV block that Table 4-1 leaves reserved, and its fields that must be zero, are zero. -/
def convReserved (blk : List Byte) : Bool :=
  within (opw blk 6 63 0) (0x3ff * 2 ^ 32 + 0x13f9ffff) && opw blk 8 39 38 == 0 && opw blk 8 63 56 == 0 && opw blk 9 63 48 == 0 &&
    opw blk 10 63 48 == 0 && opw blk 11 63 16 == 0 && opw blk 12 63 48 == 0

/-- The checks of Table 4-3 that need no memory and no store. -/
def convCheck (blk : List Byte) (last : Bool) : Option Nat :=
  match ConvCfg.of blk with
  | none => some (if convReserved blk then Mx.fmtPair else Det.reservedNonzero)
  | some c =>
    if ¬ convReserved blk ∨ (c.pr.fam ≠ .mx ∧ convAnchor blk ≠ 0) ∨ (¬ last ∧ c.e.zc) then some Det.reservedNonzero
    else
      match c.geo.check with
      | some d => some d
      | none =>
        if c.geo.inp.c % c.groups ≠ 0 ∨ c.geo.cout % c.groups ≠ 0 ∨ (c.pr.fam = .mx ∧ c.cing % 32 ≠ 0) then some Im.groups
        else if c.e.bad c.pr.fam then some Mx.epilogue
        else if c.e.zc ∧ ¬ zcFormat c.e.out then some Mx.zcFormat
        else none

/-- A POOL layer. -/
structure PoolCfg where
  geo   : Geo
  avg   : Bool
  cpad  : Bool
  zc    : Bool
  deriving DecidableEq, Repr

def PoolCfg.of (blk : List Byte) : PoolCfg :=
  { geo := Geo.of blk (opw blk 6 4 0) true, avg := opw blk 6 5 5 == 1, cpad := opw blk 6 6 6 == 1, zc := opw blk 6 7 7 == 1 }

def PoolCfg.out (p : PoolCfg) : MapDim := { w := p.geo.wo, h := p.geo.ho, c := p.geo.cout, fmt := p.geo.inp.fmt }

/-- The formats of POOL and ARGMAX (R270). -/
def poolFormat (f : Nat) : Bool := zcFormat f || f == 0x0D || f == 0x0E

def poolReserved (blk : List Byte) : Bool :=
  opw blk 4 63 48 == 0 && opw blk 5 19 14 == 0 && opw blk 5 63 48 == 0 && opw blk 6 63 8 == 0 && opw blk 7 63 48 == 0

def poolCheck (blk : List Byte) (last : Bool) : Option Nat :=
  let p := PoolCfg.of blk
  if ¬ poolReserved blk ∨ (¬ last ∧ p.zc) then some Det.reservedNonzero
  else if ¬ poolFormat p.geo.inp.fmt then some Im.format
  else
    match p.geo.check with
    | some d => some d
    | none => if p.zc ∧ ¬ zcFormat p.geo.inp.fmt then some Mx.zcFormat else none

/-! ### One output pixel of CONV (R253, R255) -/

/-- The elements of group `g` of a pixel; a position outside the map holds PAD_BITS, or zero for MX (R253). -/
def ConvCfg.groupOf (c : ConvCfg) (g : Nat) (px : Option (List Byte)) : OpRow :=
  let n := c.cing
  match px with
  | some b =>
    if isMx c.pr.a then ((mxBlocks c.pr.a b).drop (g * n / 32)).take (n / 32)
    else [(127, ((rowVals c.pr.a b).drop (g * n)).take n)]
  | none =>
    if isMx c.pr.a then List.replicate (n / 32) (127, List.replicate 32 (.fin false 0 0))
    else [(127, List.replicate n (elemVal c.pr.a c.pad))]

/-- The im2col row of output pixel (y, x) for group `g`: the taps in ascending k. -/
def ConvCfg.patch (c : ConvCfg) (at_ : PixelAt) (g y x : Nat) : OpRow :=
  let r := (List.range c.geo.fh).flatMap fun fy => (List.range c.geo.fw).flatMap fun fx =>
    c.groupOf g (at_ ((y * c.geo.sh + fy * c.geo.dh : Nat) - (c.geo.pt : Int)) ((x * c.geo.sw + fx * c.geo.dw : Nat) - (c.geo.pl : Int)))
  if isMx c.pr.a then r else [(127, r.flatMap Prod.snd)]

/-- Output channels `n0` to `n0 + cnt - 1` of output pixel (y, x), `w` being the weight rows. -/
def ConvCfg.pixel (c : ConvCfg) (w : Nat → OpRow) (bias scale : List Byte) (at_ : PixelAt) (y x n0 cnt : Nat) : OutRow :=
  let patches := (List.range c.groups).map fun g => if n0 / c.ng ≤ g ∧ g ≤ (n0 + cnt - 1) / c.ng then c.patch at_ g y x else []
  let ls := (List.range cnt).map fun i => c.pr.dot Lane.zero (patches.getD ((n0 + i) / c.ng) []) (w (n0 + i))
  let o := c.e.row c.pr bias scale n0 (ls.map Prod.fst)
  { o with flags := o.flags ||| ls.foldl (fun a l => a ||| l.2) 0 }

/-- The array cycles of `p` output pixels (R260, R261). -/
def ConvCfg.cycles (c : ConvCfg) (p : Nat) : Nat :=
  let (bk, bn) := blockOf c.pr.a c.pr.b
  if c.groups = c.geo.inp.c ∧ c.groups = c.geo.cout then
    ceilDiv (p * c.geo.inp.c * c.geo.fh * c.geo.fw) (if bk = 64 then 128 else if bk = 128 then 256 else 32)
  else p * ceilDiv (c.groups * ceilDiv c.kg bk * ceilDiv c.ng bn) 4

/-! ### One output pixel of POOL (R271 to R273) -/

/-- A place in an order of the codes of a format: −0 below +0 where `signed` (R271), equal where not (R277). -/
def codeKey (fmt n : Nat) (signed : Bool) : Int :=
  match elemVal fmt n with
  | .fin s m e =>
    if isInt8 fmt ∨ fmt = 0x0E then (if s then -(m : Int) else m)
    else if signed then f32Key (Fv.fin s m e).toF32.1 else f32Ord (Fv.fin s m e).toF32.1
  | v => if signed then f32Key v.toF32.1 else f32Ord v.toF32.1

/-- s ÷ n rounded half to even (R272). -/
def divEven (s : Int) (n : Nat) : Int :=
  let q := s / n
  let r := s % n
  if (n : Int) < 2 * r ∨ ((n : Int) = 2 * r ∧ q % 2 = 1) then q + 1 else q

/-- The maximum of a window's codes, first on a tie: the code and its flags (R271). -/
def poolMax (fmt : Nat) (cs : List Nat) : Nat × Nat :=
  if cs.any fun c => (elemVal fmt c).isNan then (((targetOf fmt).map Target.nan).getD 0, fNanOut)
  else
    let m := cs.foldl (fun b c => if codeKey fmt b true < codeKey fmt c true then c else b) (cs.headD 0)
    (m, match elemVal fmt m with | .inf _ => fInfOut | _ => 0)

/-- The average of a window's codes, `n` counted elements (R272, R273). -/
def poolAvg (fmt n : Nat) (cs : List Nat) : Nat × Nat :=
  if isInt8 fmt ∨ fmt = 0x0E then
    (bitsOf (elemBits fmt) (divEven ((cs.map fun c => codeKey fmt c false).sum) n), 0)
  else
    match cs.map fun c => (elemVal fmt c).toF32.1 with
    | [] => (0, 0)
    | x :: r =>
      let (s, f) := r.foldl (fun a y => let (z, g) := f32Add a.1 y; (z, a.2 ||| g)) (x, 0)
      let (q, g) := f32Div s (f32OfInt n).1
      let (c, h) := outElem fmt (f32Val q)
      (c, h ||| ((f ||| g) &&& fOf))

/-- Channels `n0` to `n0 + cnt - 1` of output pixel (y, x). -/
def PoolCfg.pixel (p : PoolCfg) (at_ : PixelAt) (y x n0 cnt : Nat) : OutRow :=
  let g := p.geo
  let fmt := g.inp.fmt
  let win := (List.range g.fh).flatMap fun fy => (List.range g.fw).filterMap fun fx =>
    (at_ ((y * g.sh + fy : Nat) - (g.pt : Int)) ((x * g.sw + fx : Nat) - (g.pl : Int))).map fun b =>
      unpackCodes (elemBits fmt) g.inp.c b
  let n := if p.cpad then g.fh * g.fw else win.length
  let cs := (List.range cnt).map fun i =>
    let col := win.map fun px => px.getD (n0 + i) 0
    if p.avg then poolAvg fmt n col else poolMax fmt col
  { bytes := packCodes (elemBits fmt) (cs.map Prod.fst), flags := orFlags cs, sat := satCount cs }

/-- The cycles of `n` output pixels (R274). -/
def PoolCfg.cycles (p : PoolCfg) (n : Nat) : Nat := ceilDiv (n * p.geo.cout * p.geo.fh * p.geo.fw) 256

/-! ### ARGMAX of one pixel (R277) -/

/-- The winning channel among codes from channel `i` on, given the best so far. -/
def argBest (fmt : Nat) : List Nat → Nat → Nat × Nat → Nat × Nat
  | [], _, b => b
  | c :: r, i, b =>
    let bn := (elemVal fmt b.2).isNan
    let better : Bool := !bn && ((elemVal fmt c).isNan || decide (codeKey fmt b.2 false < codeKey fmt c false))
    argBest fmt r (i + 1) (if better then (i, c) else b)

/-- Channel and code of the winner. -/
def argmaxOf (fmt : Nat) (cs : List Nat) : Nat × Nat := argBest fmt (cs.drop 1) 1 (0, cs.headD 0)

end Sys2Proof.Machine
end

