-- ==== Sys2Proof/Machine/Attention.lean ====
section
/-! DEFINITION. The commands ATTN and ATTN_BWD (R304 to R325, R333, R334, R342 to R349). -/

namespace Sys2Proof.Machine

open Sys2Proof

/-! ### ATTN: opening (R304 to R312, R320) -/

/-- The sequence list of an open ATTN, and the class of its sequences as it was when it opened. -/
def attnEnts (t : Tracked) (c : AttnCfg) : List SeqEnt := seqEnts c.nseq (t.loaded[0]?.getD [])

def attnCls (t : Tracked) : Nat := (t.work.attn.map AttnRun.cls).getD 0

/-- Class and layers of the first sequence of a list. -/
def attnFirst (s : State) (es : List SeqEnt) : Nat × Nat :=
  match es.head?.bind fun e => seqRec s e.seq with
  | some r => (r.cls, r.layers)
  | none => (0, 0)

/-- What refuses one sequence of a list against the class and layers of the first (Table 5-5, R309). -/
def seqRefused (s : State) (t : Tracked) (c : AttnCfg) (cls layers : Nat) (e : SeqEnt) : Option Nat :=
  match seqRec s e.seq with
  | none => some At.seqState
  | some r =>
    let held := r.length + r.committed + r.tent
    let comm := min e.tent e.rows
    if r.owner ≠ t.part ∨ r.cls ≠ cls ∨ r.layers ≠ layers ∨ r.layers ≤ c.layer then some At.seqState
    else if c.hkv ≠ clsHkv s r.cls then some At.shape
    else if e.rows < e.tent ∨ (c.append ∧ ((r.tent ≠ 0 ∧ 0 < comm) ∨ 16 < r.tent + (e.rows - comm))) then some At.tentOrder
    else if (if c.append then e.pos0 ≠ held else held < e.pos0 + e.rows) then some At.kvRange
    else if c.append ∧ r.cap < (r.length + r.committed + comm) / pgPos s r.cls then some At.listOvf
    else none

/-- The checks of an ATTN that its block alone decides, and of the formats (Table 5-5, R312). -/
def attnCheck (s : State) (t : Tracked) (c : AttnCfg) : Option Nat :=
  let w := leNat (t.opb.take 32)
  if ¬ within w (((opInfo 0x50).map OpInfo.mask).getD 0) then some Det.reservedNonzero
  else if ¬ attnBound (leNat (t.opb.take 8)) t.ins.length t.outs.length then some Det.binding
  else if c.hq % c.hkv ≠ 0 then some At.shape
  else if ¬ (c.out = 0x03 ∨ c.out = 0x0B ∨ c.out = 0x0C ∨ c.out = 0x0D) then some At.fmt
  else if (attnPair c.qFmt c.qFmt).isNone ∨ (attnPair c.pFmt c.pFmt).isNone then some Mx.fmtPair
  else if ¬ ownsRange s t.part c.addr (16 * c.nseq) then some Det.addrFault
  else if ¬ flagOwned s t 7 then some Det.addrFault
  else none
where
  /-- FLAG_ADDR is zero or owned. -/
  flagOwned (s : State) (t : Tracked) (w : Nat) : Bool :=
    opw t.opb w 47 0 == 0 || ownsRange s t.part (opw t.opb w 47 0) 8

/-- The checks that need the sequence list. A re-run finds the record as its first run left it and is not checked
again. -/
def attnListCheck (s : State) (t : Tracked) (c : AttnCfg) (bs : List Byte) : Option Nat :=
  let es := seqEnts c.nseq bs
  let (cls, layers) := attnFirst s es
  if ¬ seqEntReserved c.nseq bs then some Det.reservedNonzero
  else if t.rerun then none
  else if ¬ (es.map SeqEnt.seq).Nodup then some At.seqState
  else
    match es.findSome? (seqRefused s t c cls layers) with
    | some d => some d
    | none =>
      if (attnPair c.qFmt (clsFmt s cls)).isNone ∨ (attnPair c.pFmt (clsFmt s cls)).isNone then some Mx.fmtPair else none

/-- An ATTN opens once its order stream is taken: its checks, then its list. -/
def State.attnOpen (s : State) (slot : Nat) (t : Tracked) (c : AttnCfg) : State :=
  match t.ins[3]? with
  | some b =>
    if b.window ≠ [] then (s.takeTile slot 3).releaseTo slot 3 (2 ^ 32)
    else if b.lastIn then go s slot t c
    else s.upstreamEnd slot
  | none => go s slot t c
where
  /-- The opening itself: a record of a sequence that cannot be read ends it as R446 has it. -/
  go (s : State) (slot : Nat) (t : Tracked) (c : AttnCfg) : State :=
    match attnCheck s t c with
    | some d => s.finish slot St.cmdError d
    | none =>
      s.openRanges slot [] [(c.addr, 16 * c.nseq)] fun s vs =>
        match (seqEnts c.nseq (vs[0]?.getD [])).find? fun e => badRange s (seqAddr s e.seq) 32 with
        | some e => s.readFault slot (seqAddr s e.seq) 32
        | none =>
        match attnListCheck s t c (vs[0]?.getD []) with
        | some d => s.finish slot St.cmdError d
        | none =>
          let (cls, layers) := attnFirst s (seqEnts c.nseq (vs[0]?.getD []))
          (s.engineOpened slot vs).updCmd slot fun u =>
            { u with work := { u.work with attn := some { cls := cls, layers := layers, seq := none, rows := [] } } }

/-! ### ATTN: appending (R341 to R344) -/

/-- A wait of an engine on the ledger counted once, at its beginning (R334, R342): `why` is 1 for lines of the Bobbin and 2 for a
pin, and stands in `work.fails` while it lasts. -/
def State.ledgerWait (s : State) (slot : Nat) (t : Tracked) (why : Nat) : State :=
  if t.work.fails = why then s
  else
    (s.bump A.ledgerWaits (if why = 1 then A.ledgerWaits_bobbinWait else A.ledgerWaits_pinWait) 1).updCmd slot fun u =>
      { u with work := { u.work with fails := why } }

/-- A wait ended. -/
def State.ledgerGo (s : State) (slot : Nat) : State :=
  s.updCmd slot fun u => { u with work := { u.work with fails := 0 } }

/-- The entry of a position: keys, then values, padded with zero bytes (R293). -/
def entryOf (s : State) (cls : Nat) (k v : List Byte) : List Byte :=
  let n := entryBytes s cls
  k ++ v ++ List.replicate (n - (k.length + v.length)) 0

/-- The lines free for a position's entry: those its position holds already among them. -/
def State.withoutEntry (s : State) (q layer pos : Nat) : State :=
  { s with bobbin := s.bobbin.filter fun (b : BobEntry) => !(b.seq == q && b.layer == layer && b.pos == pos) }

/-- The row `i` of the new keys and values written into the Bobbin: it takes its lines and its bytes go there; and a flush begun
where it completes a page of committed positions (R341, R343, R344). -/
def State.appendRow (s : State) (slot : Nat) (t : Tracked) (c : AttnCfg) (e : SeqEnt) (k : Nat) (bytes : List Byte) : State :=
  let pos := e.pos0 + k
  let k' := pgPos s (attnCls t)
  let s := s.withoutEntry e.seq c.layer pos
  let n := ceilDiv bytes.length 64
  let ls := pickLines s.free n (freeLineList s)
  let ent := BobEntry.mk e.seq c.layer pos (decide (e.tent ≤ k)) ls
  let s := ({ s with free := s.free + n, bobbin := s.bobbin ++ [ent] }.bobbinUse).storeLines ls bytes
  let page := pos / k'
  let s := if k < e.tent ∧ (pos + 1) % k' = 0 ∧ ¬ s.flushes.contains (e.seq, c.layer, page) then
    { s with flushes := s.flushes ++ [(e.seq, c.layer, page)] } else s
  (s.updCmd slot fun u => { u with work := { u.work with aux := t.work.aux + 1 } }).ledgerGo slot

/-- The next row appended, or the wait for lines, for a flush of the sequence or for the ledger (R342, R346). -/
def State.attnAppend (s : State) (slot : Nat) (t : Tracked) (c : AttnCfg) (e : SeqEnt) (k n : Nat) : State :=
  let kt := (t.ins[1]?).map InBind.taken |>.getD []
  let vt := (t.ins[2]?).map InBind.taken |>.getD []
  let bytes := entryOf s (attnCls t) (streamRow kt n t.work.aux) (streamRow vt n t.work.aux)
  if ¬ ledgerOn s ∨ s.flushes.any (fun f => f.1 == e.seq) then s
  else if (freeLineList (s.withoutEntry e.seq c.layer (e.pos0 + k))).length < ceilDiv bytes.length 64 then s.ledgerWait slot t 1
  else s.appendRow slot t c e k bytes

/-! ### ATTN: reading a sequence (R303, R317, R333, R334, R349) -/

/-- The number of positions that a sequence's rows may see. -/
def attnLimit (c : AttnCfg) (r : SeqRec) (e : SeqEnt) : Nat :=
  if c.append then e.pos0 + e.rows else r.length + r.committed + r.tent

/-- The view changed of the sequence that an ATTN reads. -/
def State.updSeq (s : State) (slot : Nat) (f : SeqView → SeqView) : State :=
  s.updCmd slot fun u =>
    { u with work := { u.work with attn := u.work.attn.map fun a => { a with seq := a.seq.map f } } }

/-- What the engine reads as a sequence begins: its record, a list slot of each page, its Bobbin lines. -/
def attnReads (s : State) (c : AttnCfg) (e : SeqEnt) : List (Nat × Nat) :=
  (seqAddr s e.seq, 32) ::
    match seqRec s e.seq with
    | none => []
    | some r =>
      ((List.range (ceilDiv (attnLimit c r e) (pgPos s r.cls))).map fun k => (slotAddr r (k * r.layers + c.layer), 8)) ++
        ((s.bobbin.filter fun b => b.seq == e.seq && b.layer == c.layer).flatMap BobEntry.lines).map fun l => (lineAddr l, 64)

/-- A sequence begins: its list and the state of its Bobbin are read, and every page of it pinned in the same operation (R303, R317,
R333); or an uncorrectable error in them is met (R446). The engine waits while a page has 4,095 pins (R334). A page that is no
longer LIVE under its handle is skipped, as a null handle is (R300; DESIGN CHOICE, log 59). A sequence with no record has no held
position. -/
def State.attnBegin (s : State) (slot : Nat) (t : Tracked) (c : AttnCfg) (e : SeqEnt) : State :=
  let todo := match seqRec s e.seq with | none => [] | some r => heldPlaces s e.seq r c.layer (attnLimit c r e)
  let hs := (todo.map Prod.snd).eraseDups.filter (· != 0)
  let entries := (hs.filter fun h => clsValid s (hClass h)).map fun h => (entryAddr s (hClass h) (hFrame h), 8)
  let entry (h : Nat) : PageEntry := pageEntry s (hClass h) (hFrame h)
  let live := hs.filter fun h => handleMatches s h && (entry h).live == pgLive
  if ¬ ledgerOn s then s
  else
    match (attnReads s c e ++ entries).find? fun r => badRange s r.1 r.2 with
    | some r => s.readFault slot r.1 r.2
    | none =>
      if live.any fun h => decide (4095 ≤ (entry h).pins) then s.ledgerWait slot t 2
      else
        let v : SeqView :=
          { fixed := match seqRec s e.seq with
              | none => 0
              | some r => if c.append then e.pos0 + e.tent else r.length + r.committed
            todo := todo.filter fun x => x.2 == 0 || live.contains x.2, pinned := live
            bob := (todo.filter fun x => x.2 == 0).filterMap fun x =>
              (bobEntry s e.seq c.layer x.1).map fun b => (x.1, bobBytes s b)
            held := [], seen := [] }
        ((live.foldl State.pinPage s).updCmd slot fun u =>
          { u with work := { u.work with attn := u.work.attn.map fun a => { a with seq := some v } } }).ledgerGo slot

/-- The bytes of a page. -/
def pageRange (s : State) (cls h : Nat) : Nat × Nat := (frameAddr s cls (hFrame h), pgPos s cls * entryBytes s cls)

/-- The entry of a held position, from its page or from the Bobbin as the engine read it. -/
def SeqView.entry (s : State) (cls : Nat) (v : SeqView) (x : Nat × Nat) : List Byte :=
  if x.2 = 0 then ((v.bob.find? fun b => b.1 == x.1).map Prod.snd).getD []
  else readBytes s (frameAddr s cls (hFrame x.2) + x.1 % pgPos s cls * entryBytes s cls) (entryBytes s cls)

/-- The next chunk of 128 held positions enters the array: its entries are read (R310). Bytes read are counted page by page. -/
def State.attnChunk (s : State) (slot : Nat) (t : Tracked) (v : SeqView) : State :=
  let cls := attnCls t
  let ch := v.todo.take 128
  let rest := v.todo.drop 128
  let hs := (ch.map Prod.snd).eraseDups.filter (· != 0)
  match (hs.map (pageRange s cls)).find? fun r => badRange s r.1 r.2 with
  | some r => s.readFault slot r.1 r.2
  | none =>
    let es := ch.map fun x => (x.1, v.entry s cls x)
    let s := hs.foldl (fun s h => s.memIn t (pageRange s cls h).1 ((ch.filter fun x => x.2 == h).length * entryBytes s cls)) s
    s.updSeq slot fun v =>
      { v with todo := rest, held := v.held ++ es
               seen := (v.seen ++ (ch.filter fun x => x.2 != 0).map fun x => (x.1 / pgPos s cls, x.2)).eraseDups }

/-- The chunks of a sequence for one KV head: positions with keys and values. -/
def attnChunks (s : State) (cls : Nat) (c : AttnCfg) (held : List (Nat × List Byte)) (g : Nat) :
    List (List (Nat × List Fv × List Fv)) :=
  let fmt := clsFmt s cls
  let dim := clsDim s cls
  let l := held.map fun x => (x.1, kvSlice fmt dim c.hkv false g x.2, kvSlice fmt dim c.hkv true g x.2)
  chunksOf (l.length / 128 + 1) l

/-- The values of query row `flat`, head `h`. -/
def attnQuery (s : State) (t : Tracked) (c : AttnCfg) (flat h : Nat) : List Fv :=
  let qs := (t.ins[0]?).map InBind.taken |>.getD []
  rowVals c.qFmt (streamRow qs (clsDim s (attnCls t) * unitBytes c.qFmt) (flat * c.hq + h))

/-- One query row and head over the entries of its sequence: its softmax state. -/
def attnSoft (s : State) (t : Tracked) (c : AttnCfg) (e : SeqEnt) (held : List (Nat × List Byte)) (flat k h : Nat) : Soft :=
  let cls := attnCls t
  match attnPair c.qFmt (clsFmt s cls), attnPair c.pFmt (clsFmt s cls) with
  | some qk, some pv =>
    softRow c qk pv (clsDim s cls) (attnQuery s t c flat h) (e.pos0 + k) (attnChunks s cls c held (c.kvHead h))
  | _, _ => { m := f32NegInf, l := 0, o := List.replicate (clsDim s cls) 0, fl := 0 }

/-- A row of the output and of the statistics (R310, R315, R316). -/
def attnRow (s : State) (t : Tracked) (c : AttnCfg) (e : SeqEnt) (v : SeqView) (base k h : Nat) : AttnRow :=
  let x := attnSoft s t c e v.held (base + k) k h
  let o := x.out c.out
  { m := x.m, l := x.l, bytes := o.bytes, flags := o.flags, sat := o.sat, tent := decide (v.fixed ≤ e.pos0 + k) }

/-- The score that a sequence's rows add to a page (R349). -/
def pageScore (s : State) (t : Tracked) (c : AttnCfg) (e : SeqEnt) (v : SeqView) (base page : Nat) : Nat :=
  let cls := attnCls t
  match attnPair c.qFmt (clsFmt s cls) with
  | none => 0
  | some qk =>
    let rows := (List.range e.rows).flatMap fun i => (List.range c.hq).map fun h =>
      (attnQuery s t c (base + i) h, e.pos0 + i, h, attnSoft s t c e v.held (base + i) i h)
    let mine := v.held.filter fun x => x.1 / pgPos s cls == page && (v.bob.all fun b => b.1 != x.1)
    scoreOf (mine.flatMap fun x => rows.map fun r =>
      massOf c qk r.1 r.2.1 r.2.2.2 (x.1, kvSlice (clsFmt s cls) (clsDim s cls) c.hkv false (c.kvHead r.2.2.1) x.2))
      (e.rows * c.hq)

/-- The array cycles of a sequence (R318). -/
def attnCycles (s : State) (t : Tracked) (c : AttnCfg) (e : SeqEnt) (held : Nat) : Nat :=
  let cls := attnCls t
  let fmt := clsFmt s cls
  let dim := clsDim s cls
  let rr := e.rows * (c.hq / c.hkv)
  let q := quadsOf t.desc.cls
  ((chunksOf (held / 128 + 1) (List.range held)).map fun ch =>
    c.hkv * (arrayCycles c.qFmt fmt rr dim ch.length q + arrayCycles c.pFmt fmt rr ch.length dim q)).sum

/-- Every entry of a sequence has entered: its rows are computed, its cycles counted, and each page it read takes its score as it is
unpinned (R318, R333, R349). `base` is the first of its query rows. -/
def State.attnSeqDone (s : State) (slot : Nat) (t : Tracked) (c : AttnCfg) (e : SeqEnt) (base : Nat) (v : SeqView) : State :=
  let rows := (List.range e.rows).flatMap fun k => (List.range c.hq).map fun h => attnRow s t c e v base k h
  let adds := v.pinned.map fun h => (h, match c.score, v.seen.find? fun p => p.2 == h with
    | true, some p => pageScore s t c e v base p.1
    | _, _ => 0)
  let s := s.count t.station 3 (attnCycles s t c e v.held.length) t
  let s := adds.foldl (fun s a => s.scorePage a.1 a.2) s
  s.updCmd slot fun u =>
    { u with work := { u.work with attn := u.work.attn.map fun a => { a with seq := none, rows := a.rows ++ rows } } }

/-- One step of the reading of a sequence: a chunk read, or the rows computed. -/
def State.attnRead (s : State) (slot : Nat) (t : Tracked) (c : AttnCfg) (e : SeqEnt) (base : Nat) (v : SeqView) : State :=
  if v.todo ≠ [] then s.attnChunk slot t v
  else s.attnSeqDone slot t c e base v

/-! ### ATTN: forming output (R310 to R316) -/

/-- The rows computed so far. -/
def attnRows (t : Tracked) : List AttnRow := (t.work.attn.map AttnRun.rows).getD []

/-- One tile of output rows formed: stream rows `pos` to `pos + k − 1`. -/
def State.attnForm (s : State) (slot : Nat) (t : Tracked) (c : AttnCfg) (total k : Nat) : State :=
  let pos := t.work.pos
  let rows := ((attnRows t).drop pos).take k
  let n := clsDim s (attnCls t) * unitBytes c.out
  let tile := streamTile c.out n (rows.map AttnRow.bytes) (decide (pos + k = total)) (rows.any AttnRow.tent)
  let fl := rows.foldl (fun a r => a ||| r.flags) 0
  ((s.gather slot (pos + k) fl (rows.map AttnRow.sat).sum).formTile slot 0 tile)

/-- The statistics of the heads of one row of OUT1: 32 heads of a query row, or those that are left of them (R315). -/
def statRow (t : Tracked) (c : AttnCfg) (i : Nat) : List AttnRow :=
  let per := ceilDiv c.hq 32
  let h0 := 32 * (i % per)
  ((attnRows t).drop (i / per * c.hq + h0)).take (min 32 (c.hq - h0))

/-- The rows of OUT1 that the next tile holds: rows of one length alone share a tile, so that a short row stands in a tile of its
own (R315; DESIGN CHOICE, log 58). -/
def statRows (c : AttnCfg) (rowsN i : Nat) : Nat :=
  let per := ceilDiv c.hq 32
  let left := rowsN * per - i
  if c.hq % 32 = 0 ∨ per = 1 then min 128 left
  else if i % per + 1 = per then 1
  else per - 1 - i % per

/-- One tile of statistics formed. -/
def State.attnStats (s : State) (slot : Nat) (t : Tracked) (c : AttnCfg) (rowsN k : Nat) : State :=
  let pos := t.work.aux2
  let rows := (List.range k).map fun i => statRow t c (pos + i)
  let bytes := rows.map fun r => r.flatMap fun x => leBytes 4 x.m ++ leBytes 4 x.l
  let n := (bytes.headD []).length
  let tile := streamTile 0x0D n bytes (decide (pos + k = rowsN * ceilDiv c.hq 32)) (rows.any fun r => r.any AttnRow.tent)
  (s.updCmd slot fun u => { u with work := { u.work with aux2 := pos + k } }).formTile slot 1 tile

/-! ### ATTN: one step -/

/-- A waiting tile of an input taken, or the command ended by its shape. -/
def State.attnTake (s : State) (slot : Nat) (t : Tracked) (inp fmt n total : Nat) : State :=
  match t.ins[inp]? with
  | none => s
  | some b =>
    match b.window.head? with
    | none => s.upstreamEnd slot
    | some x =>
      if x.zc ∧ t.desc.cls = 1 then s.finish slot St.cmdError Mx.zcUnsupported
      else if streamTileOk fmt n total (rowsTaken n b.taken) x then
        (s.takeTile slot inp).releaseTo slot inp (b.taken.length + 1)
      else s.finish slot St.cmdError Mx.tileShape

/-- The sequence whose rows come next after `fl` query rows, where its query rows are taken and its new rows appended. -/
def attnNext (es : List SeqEnt) (fl taken appended : Nat) : Option (SeqEnt × Nat) :=
  match rowOwner es 0 fl with
  | none => none
  | some o => if fl - o.2.2 + o.1.rows ≤ min taken appended then some (o.1, fl - o.2.2) else none

/-- One step of an open ATTN: an output tile whose rows are computed, else a step of the sequence it reads, else the next sequence
begun, else the next appended row, else a tile taken. -/
def State.attnStep (s : State) (slot : Nat) (t : Tracked) (c : AttnCfg) : State :=
  let es := attnEnts t c
  let cls := attnCls t
  let dim := clsDim s cls
  let rowsN := totalRows es
  let total := rowsN * c.hq
  let per := ceilDiv c.hq 32
  let qn := dim * unitBytes c.qFmt
  let kn := c.hkv * dim * unitBytes (clsFmt s cls)
  let taken (i n : Nat) : Nat := (t.ins[i]?.map fun b => rowsTaken n b.taken).getD 0
  let appended := if c.append ∧ ¬ t.rerun then t.work.aux else rowsN
  let have_ := (attnRows t).length
  let k0 := min (rowsPerTile (dim * unitBytes c.out)) (total - t.work.pos)
  let k1 := if c.stats ∧ t.work.aux2 < rowsN * per then statRows c rowsN t.work.aux2 else 0
  let ready0 := decide (0 < k0 ∧ t.work.pos + k0 ≤ have_)
  let ready1 := decide (0 < k1 ∧ ceilDiv (t.work.aux2 + k1) per * c.hq ≤ have_)
  let nextRow : Option (SeqEnt × Nat × Nat) :=
    if appended < rowsN ∧ appended < taken 1 kn ∧ appended < taken 2 kn then rowOwner es 0 appended else none
  let want (i n tot : Nat) : Bool := decide (taken i n < tot) && (t.ins[i]?.any fun b => b.window ≠ [])
  if ready0 ∧ roomFor s t then s.attnForm slot t c total k0
  else if ready1 ∧ roomFor s t then s.attnStats slot t c rowsN k1
  else
    match t.work.attn.bind AttnRun.seq, rowOwner es 0 (have_ / c.hq), attnNext es (have_ / c.hq) (taken 0 qn / c.hq) appended, nextRow with
    | some v, some o, _, _ => s.attnRead slot t c o.1 (have_ / c.hq) v
    | _, _, some o, _ => s.attnBegin slot t c o.1
    | _, _, none, some o => s.attnAppend slot t c o.1 o.2.2 kn
    | _, _, none, none =>
      if want 0 qn total then s.attnTake slot t 0 c.qFmt qn total
      else if c.append ∧ want 1 kn rowsN then s.attnTake slot t 1 (clsFmt s cls) kn rowsN
      else if c.append ∧ want 2 kn rowsN then s.attnTake slot t 2 (clsFmt s cls) kn rowsN
      else if k0 = 0 ∧ k1 = 0 ∧ t.ins.all (fun b => b.lastIn) then s.reach slot St.done Det.none
      else if ready0 ∨ ready1 then s
      else s.upstreamEnd slot

/-- An ATTN opens, appends a row, takes a tile or forms one. -/
def execAttn (slot : Nat) (s : State) : Out :=
  match runningCmd s slot 0x50 with
  | none => ok s
  | some t =>
    let c := AttnCfg.of t.opb
    ok (if t.work.opened then s.attnStep slot t c else s.attnOpen slot t c)

/-- The record of a sequence after an append to its last layer completed (R343, R344, R347). -/
def State.attnCommitSeq (s : State) (e : SeqEnt) : State :=
  match seqRec s e.seq with
  | none => s
  | some r =>
    let n := min e.tent e.rows
    s.setSeq e.seq
      (advancedRec s e.seq { r with committed := r.committed + n, tent := r.tent + (e.rows - n) } (e.rows + 64))

/-- The DONE or FENCED_REPLACED completion of an ATTN that appended to the last layer changes the records. -/
def State.attnCommit (s : State) (t : Tracked) : State :=
  let c := AttnCfg.of t.opb
  let layers := (t.work.attn.map AttnRun.layers).getD 0
  if t.op = 0x50 ∧ c.append ∧ t.work.opened ∧ c.layer + 1 = layers then (attnEnts t c).foldl State.attnCommitSeq s else s

/-! ### ATTN_BWD (R321 to R325) -/

/-- The rows and statistics address of an ATTN_BWD block (R322). -/
def bwdRows (opb : List Byte) : Nat := opw opb 5 63 48 + 1
def bwdStats (opb : List Byte) : Nat := opw opb 5 47 0

def bwdCheck (s : State) (t : Tracked) (c : AttnCfg) : Option Nat :=
  if opw t.opb 4 11 0 ≠ 0 ∨ c.append ∨ c.stats ∨ c.score ∨ opw t.opb 4 63 45 ≠ 0 ∨ opw t.opb 7 63 48 ≠ 0 then
    some Det.reservedNonzero
  else if c.hq % c.hkv ≠ 0 then some At.shape
  else if ¬ ((c.qFmt = 0x0B ∨ c.qFmt = 0x0C) ∧ c.pFmt = c.qFmt ∧ (c.out = 0x0B ∨ c.out = 0x0C)) then some At.fmt
  else if ¬ ownsRange s t.part (bwdStats t.opb) (12 * bwdRows t.opb * c.hq) then some At.statsShape
  else if opw t.opb 7 47 0 ≠ 0 ∧ ¬ ownsRange s t.part (opw t.opb 7 47 0) 8 then some Det.addrFault
  else none

/-- The head dimension that the bytes of Q give; none where they give none of 64, 128 and 256 (DEDUCED, log 60). -/
def bwdDim (t : Tracked) (c : AttnCfg) : Option Nat :=
  let qb := ((t.ins[0]?).map fun b => (streamBytes b.taken).length).getD 0
  [64, 128, 256].find? fun d => decide (bwdRows t.opb * c.hq * d * 2 = qb)

/-- The positions that the bytes of K give for a head dimension. -/
def bwdPos (t : Tracked) (c : AttnCfg) (d : Nat) : Option Nat :=
  let kb := ((t.ins[1]?).map fun b => (streamBytes b.taken).length).getD 0
  let n := c.hkv * d * 2
  if kb % n = 0 ∧ kb ≠ 0 then some (kb / n) else none

/-- The row of an input: query row or position `i`, head `h` of `heads`, as values. -/
def bwdRow (t : Tracked) (fmt d heads inp i h : Nat) : List Fv :=
  rowVals fmt (streamRow ((t.ins[inp]?).map InBind.taken |>.getD []) (d * 2) (i * heads + h))

/-- The statistics m, l and D of a query row and head. -/
def bwdStat (t : Tracked) (c : AttnCfg) (i h : Nat) : Nat × Nat × Nat :=
  let v := t.loaded[0]?.getD []
  let k := 3 * (i * c.hq + h)
  (entry 4 v k, entry 4 v (k + 1), entry 4 v (k + 2))

/-- p and ds of a query row, head and position, with flags (R324). -/
def bwdPair (t : Tracked) (c : AttnCfg) (p : Pair) (d i h j : Nat) : Nat × Nat × Nat :=
  let st := bwdStat t c i h
  if c.masked i j then
    let dp := p.sum (bwdRow t c.qFmt d c.hq 3 i h) (bwdRow t c.qFmt d c.hkv 2 j (c.kvHead h))
    let (a, f1) := f32Sub dp.1 st.2.2
    let (ds, f2) := f32Mul 0 a
    (0, ds, dp.2 ||| ((f1 ||| f2) &&& fOf))
  else
    let (x, f0) := p.sum (bwdRow t c.qFmt d c.hq 0 i h) (bwdRow t c.qFmt d c.hkv 1 j (c.kvHead h))
    let (sc, f1) := f32Mul x c.scale
    let (dm, f6) := f32Sub sc st.1
    let (e, f2) := f32Exp dm
    let (pr, f3) := f32Div e st.2.1
    let dp := p.sum (bwdRow t c.qFmt d c.hq 3 i h) (bwdRow t c.qFmt d c.hkv 2 j (c.kvHead h))
    let (a, f4) := f32Sub dp.1 st.2.2
    let (ds, f5) := f32Mul pr a
    (pr, ds, f0 ||| dp.2 ||| ((f1 ||| f2 ||| f3 ||| f4 ||| f5 ||| f6) &&& fOf))

/-- The binary32 code of an element of a row. -/
def codeAt (r : List Fv) (x : Nat) : Nat := ((r[x]?.map fun v => v.toF32.1).getD 0)

/-- A row of dQ (R324). -/
def bwdQRow (t : Tracked) (c : AttnCfg) (p : Pair) (d n i h : Nat) : OutRow :=
  let g := c.kvHead h
  let dss := (List.range n).map fun j => ((bwdPair t c p d i h j).2, bwdRow t c.qFmt d c.hkv 1 j g)
  let xs := (List.range d).map fun x =>
    let ps := dss.map fun y => f32Mul y.1.1 (codeAt y.2 x)
    let (v, f) := blockSum (ps.map Prod.fst) (some c.scale)
    (v, f ||| (orFlags ps &&& fOf))
  let o := rowOut c.out (xs.map Prod.fst)
  { o with flags := o.flags ||| orFlags xs ||| dss.foldl (fun a y => a ||| y.1.2) 0 }

/-- A row of dK (`value` false) or dV of a position and KV head: the query rows and heads of that KV head in the order of
R307 (R324; DEDUCED, log 60). -/
def bwdKRow (t : Tracked) (c : AttnCfg) (p : Pair) (d : Nat) (value : Bool) (j g : Nat) : OutRow :=
  let k := c.hq / c.hkv
  let rs := (List.range (bwdRows t.opb)).flatMap fun i => (List.range k).map fun h =>
    (bwdPair t c p d i (g * k + h) j, bwdRow t c.qFmt d c.hq (if value then 3 else 0) i (g * k + h))
  let xs := (List.range d).map fun x =>
    let ps := rs.map fun y => f32Mul (if value then y.1.1 else y.1.2.1) (codeAt y.2 x)
    let (v, f) := blockSum (ps.map Prod.fst) (if value then none else some c.scale)
    (v, f ||| (orFlags ps &&& fOf))
  let o := rowOut c.out (xs.map Prod.fst)
  { o with flags := o.flags ||| orFlags xs }

/-- The tiles of OUT1 of a backward pass in order: first position, positions, whether dV, first stream row and rows of the
tile (R321). -/
def bwdTiles (n hkv per : Nat) : List (Nat × Bool × Nat × Nat) :=
  (List.range (ceilDiv n 128)).flatMap fun ch =>
    let rows := min 128 (n - 128 * ch) * hkv
    [false, true].flatMap fun v => (List.range (ceilDiv rows per)).map fun k => (128 * ch, v, k * per, min per (rows - k * per))

/-- The whole streams taken, the next tile of dQ, else of dK or dV. -/
def State.bwdForm (s : State) (slot : Nat) (t : Tracked) (c : AttnCfg) (p : Pair) (d n : Nat) : State :=
  let per := rowsPerTile (d * 2)
  let total := bwdRows t.opb * c.hq
  let k0 := min per (total - t.work.pos)
  let tiles := bwdTiles n c.hkv per
  if 0 < k0 then
    let rows := (List.range k0).map fun i => bwdQRow t c p d n ((t.work.pos + i) / c.hq) ((t.work.pos + i) % c.hq)
    let o := joinRows rows
    (s.gather slot (t.work.pos + k0) o.flags o.sat).formTile slot 0
      (streamTile c.out (d * 2) (rows.map OutRow.bytes) (decide (t.work.pos + k0 = total)) false)
  else
    match tiles[t.work.aux2]? with
    | none => s.reach slot St.done Det.none
    | some (j0, v, k, m) =>
      let rows := (List.range m).map fun i => bwdKRow t c p d v (j0 + (k + i) / c.hkv) ((k + i) % c.hkv)
      let o := joinRows rows
      let s := s.updCmd slot fun u => { u with work := { u.work with aux2 := t.work.aux2 + 1 } }
      (s.gather slot t.work.pos o.flags o.sat).formTile slot 1
        (streamTile c.out (d * 2) (rows.map OutRow.bytes) (decide (t.work.aux2 + 1 = tiles.length)) false)

/-- One step of an open ATTN_BWD: a waiting tile taken, else, with every stream whole, an output tile. -/
def State.bwdStep (s : State) (slot : Nat) (t : Tracked) (c : AttnCfg) : State :=
  match (List.range 4).find? fun i => t.ins[i]?.any fun b => b.window ≠ [] with
  | some i =>
    match t.ins[i]? with
    | none => s
    | some b =>
      match b.window.head? with
      | none => s
      | some x =>
        let n := tileRows x * tileRowBytes x
        if x.format ≠ c.qFmt then s.finish slot St.cmdError Mx.tileShape
        else if 2 ^ 20 < (streamBytes b.taken).length + n then s.finish slot St.cmdError Mx.storeOvf
        else (s.takeTile slot i).releaseTo slot i (b.taken.length + 1)
  | none =>
    if ¬ t.ins.all (fun b => b.lastIn) then s.upstreamEnd slot
    else
      let len (i : Nat) : Nat := ((t.ins[i]?).map fun b => (streamBytes b.taken).length).getD 0
      match bwdDim t c, attnPair c.qFmt c.pFmt with
      | some d, some p =>
        match bwdPos t c d with
        | some n =>
          if len 2 ≠ len 1 ∨ len 3 ≠ len 0 then s.finish slot St.cmdError Mx.tileShape
          else if roomFor s t then s.bwdForm slot t c p d n
          else s
        | none => s.finish slot St.cmdError Mx.tileShape
      | _, _ => s.finish slot St.cmdError Mx.tileShape

/-- An ATTN_BWD opens, takes a tile or forms one. -/
def execAttnBwd (slot : Nat) (s : State) : Out :=
  match runningCmd s slot 0x51 with
  | none => ok s
  | some t =>
    let c := AttnCfg.of t.opb
    if t.work.opened then ok (s.bwdStep slot t c)
    else
      match bwdCheck s t c with
      | some d => ok (s.finish slot St.cmdError d)
      | none =>
        ok (s.openRanges slot [] [(bwdStats t.opb, 12 * bwdRows t.opb * c.hq)] fun s vs => s.engineOpened slot vs)

end Sys2Proof.Machine
end

