-- ==== Sys2Proof/Machine/Loom.lean ====
section
/-! DEFINITION. The commands of the Loom and the Seam: doorbells, acceptance, dispatch, tiles and credits, stalls,
aborts, and the opcodes NOP, TLOAD, TSTORE and HTASK (Stream Programs, Stations and the Seam). -/

namespace Sys2Proof.Machine

open Sys2Proof

/-! ### Submission queues (R80 to R90) -/

/-- Software may write the doorbell and ring head of a queue: firmware any, a partition its own host-core queues
(R945). -/
def mayUseQueue (s : State) (who : Who) (q : Nat) : Bool :=
  match who with
  | .firmware => decide (q < 64)
  | .part p => decide (q < 32) && s.fget (A.loomSqCtl q) A.loomSqCtl_part == p

/-- The submission ring's size. -/
def sqLog2 (s : State) (q : Nat) : Nat := log2In (s.fget (A.loomSqCtl q) A.loomSqCtl_log2Entries) 4 16 4
def cqLog2 (s : State) (q : Nat) : Nat := log2In (s.fget (A.loomCqCtl q) A.loomCqCtl_log2Entries) 4 16 4

/-- A submission queue is empty: HEAD is at TAIL, an index into the ring (R82; DEDUCED, log 96). -/
def sqEmpty (s : State) (q : Nat) : Bool :=
  s.fget (A.loomSqHead q) A.loomSqHead_head == s.fget (A.loomSqTail q) A.loomSqTail_tail % 2 ^ sqLog2 s q

/-- The submission queue's state beside its registers. -/
def qstate (s : State) (q : Nat) : QState := tgetD s.queues q { ref := none, used := 0, phase := true }

/-- LOOM_SQ_BASE written by firmware: the queue's CMD_SEQ reference is cleared (R81, R88). Bits 5:0 must be zero and are not kept,
as bits 4:0 of LOOM_CQ_BASE (DESIGN CHOICE, log 96). -/
def execLoomSqBase (who : Who) (q base : Nat) (s : State) : Out :=
  if who.isFw ∧ q < 64 then
    let s := s.fset (A.loomSqBase q) A.loomSqBase_base (base / 64 * 64)
    ok { s with queues := tset s.queues q { qstate s q with ref := none } }
  else ok s

/-- LOOM_SQ_CTL written by firmware; a write of 0 to EN clears FETCH_ERR (R81, R946). -/
def execLoomSqCtl (who : Who) (q val : Nat) (s : State) : Out :=
  if who.isFw ∧ q < 64 then
    let s := s.fset (A.loomSqCtl q) (12, 0) val
    ok (if val.testBit 0 then s else s.fset (A.loomSqHead q) A.loomSqHead_fetchErr 0)
  else ok s

/-- Tracker slots held for a partition's queues (R85, R86). -/
def quotaUsed (s : State) (p : Nat) : Nat :=
  (s.tracked.filter fun t => s.fget (A.loomSqCtl t.queue) A.loomSqCtl_part == p).length

/-- The module's work is stopped: the safe state or a hang dump's stop (Table 16-4, R869). -/
def halted (s : State) : Bool := s.frozen || s.flag A.fcSummary A.fcSummary_safe

/-- The Loom may fetch from a queue: enabled, not empty, no fetch error, a slot and quota free, its partition not
stopping, the module awake, the step that the descriptor begins not held back (R83, R85, R693, R761, R809, R946). -/
def queueReady (s : State) (q : Nat) : Bool :=
  let p := s.fget (A.loomSqCtl q) A.loomSqCtl_part
  s.flag A.loomCtl A.loomCtl_enable && s.flag (A.loomSqCtl q) A.loomSqCtl_en &&
    !sqEmpty s q && !s.pair.held.contains (q, s.fget (A.loomSqHead q) A.loomSqHead_head) &&
    !s.flag (A.loomSqHead q) A.loomSqHead_fetchErr && decide (s.tracked.length < 262144) &&
    decide (quotaUsed s p < s.fget (A.loomPartQuota p) A.loomPartQuota_quota) && !stopping s p && !halted s &&
    s.thimble.state == .run

/-- The queue the weighted round robin serves next, and how many turns it has then taken (R83): a queue takes its
WEIGHT turns in a row, then the next ready one (DESIGN CHOICE, log 12). -/
def pickQueue (s : State) : Option (Nat × Nat) :=
  let q := s.wrrAt
  let w := max 1 (s.fget (A.loomSqCtl q) A.loomSqCtl_weight)
  if queueReady s q ∧ (qstate s q).used < w then some (q, (qstate s q).used + 1)
  else (((List.range 64).map fun i => (q + 1 + i) % 64).find? (queueReady s)).map fun n => (n, 1)

/-- The check of a descriptor against its queue, its partition and the streams that are live, as a detail code
(R87 to R90, R115), in the order that log 97 gives. Two outputs of one command with the same stream ID are two producers of it
(DEDUCED, log 97). -/
def stateCheck (s : State) (q : Nat) (d : Desc) : Option Nat :=
  let p := d.part
  let l := match classStations d.cls with | some (b, _) => b + d.lstation | none => 63
  let ins := (List.range 4).map d.inStream |>.filter (· != 0)
  let outs := (List.range 2).filter fun o => d.outStream o != 0
  if p ≠ s.fget (A.loomSqCtl q) A.loomSqCtl_part then some Det.partMismatch
  else if ¬ (partValid s p ∧ ownsStation s p l) then some Det.stationNotOwned
  else if (match (qstate s q).ref with | some r => decide (d.cmdSeq ≤ r) | none => false) then some Det.seqOrder
  else if s.tracked.any (fun t => t.part == p && t.desc.cmdSeq == d.cmdSeq) then some Det.dupSeq
  else if outs.any (fun o => (sourceOf s p (d.outStream o)).isSome) ∨
      (d.outStream 0 ≠ 0 ∧ d.outStream 0 = d.outStream 1) then some Det.dupProducer
  else if outs.any (fun o => decide (d.ncons o < (waitingConsumers s p (d.outStream o)).length)) then
    some Det.tooManyConsumers
  else if ins.any (fun i =>
      let own := (ins.filter (· == i)).length
      match sourceOf s p i with
      | some u => decide (u.ncons < (outChans s u.prod u.out).length + own)
      | none => decide (8 < (waitingConsumers s p i).length + own)) then some Det.tooManyConsumers
  else if d.extOpb ∧ (¬ ownsRange s p d.opbAddr d.opbLen ∨ (blockBound d.opcode && badRange s d.opbAddr d.opbLen)) then
    some Det.addrFault
  else if d.extOpb then bindingCheck d.opcode (softBytes s d.opbAddr d.opbLen) (usedCount d.inStream 4) (usedCount d.outStream 2)
  else none

/-- A tracked command as acceptance makes it, bound to nothing yet. -/
def newCmd (s : State) (q : Nat) (d : Desc) : Tracked :=
  { slot := s.nextSlot, queue := q, desc := d, opb := leBytes 32 d.inlineOpb, phase := .waiting, compl := .none,
    place := none, started := false
    ins := ((List.range 4).map d.inStream |>.filter (· != 0)).map fun i =>
      { stream := i, next := 0, window := [], taken := [], released := 0, lastIn := false, discard := false }
    outs := ((List.range 2).filter fun o => d.outStream o != 0).map fun o =>
      { stream := d.outStream o, ncons := d.ncons o, formed := 0, queue := [], sent := 0, ceased := false }
    work := { pos := 0, fails := 0, bytes := 0, flags := 0, sat := 0, aux := 0, aux2 := 0, opened := false, lost := false, attn := none }
    loaded := [], status := none, abortReq := false, upstream := false, replayed := false, rerun := false,
    arrivals := [], moved := s.tb.n, stallSent := false, tilesOut := 0, record := none, venc := none }

/-- A new command joined to the streams it names: to live producers, and to consumers that wait (R90). One whose producer's
failing COMPLETION is granted already has received no tile and ends (R101). -/
def State.joinStreams (s : State) (t : Tracked) : State :=
  let mk (prod out cons inp : Nat) : Chan :=
    { prod := prod, out := out, cons := cons, inp := inp, credits := 0, net := 0, flight := [] }
  let ups := (List.range t.ins.length).filterMap fun i =>
    match t.ins[i]? with
    | some b => (sourceOf s t.part b.stream).bind fun u => if u.prod = t.slot then none else some (u, mk u.prod u.out t.slot i)
    | none => none
  let downs := (List.range t.outs.length).flatMap fun o =>
    match t.outs[o]? with
    | some b => (waitingConsumers s t.part b.stream).map fun (c, i) => mk t.slot o c i
    | none => []
  let s := { s with chans := s.chans ++ ups.map Prod.snd ++ downs }
  if ups.any fun u => u.1.failed then (s.updCmd t.slot fun u => { u with upstream := true }).upstreamEnd t.slot else s

/-- A submission queue has had one descriptor fetched: HEAD advances past it and the round robin counts its turn
(R82, R83). -/
def State.fetched (s : State) (q used : Nat) : State :=
  let s := s.fset (A.loomSqHead q) A.loomSqHead_head ((s.fget (A.loomSqHead q) A.loomSqHead_head + 1) % 2 ^ sqLog2 s q)
  let s := { s with wrrAt := q, queues := tset s.queues q { qstate s q with used := used } }
  { s with queues := s.queues.map fun x => if x.1 = q then x else (x.1, { x.2 with used := 0 }) }

/-- The address of a submission queue's next descriptor (R82). -/
def headAddr (s : State) (q : Nat) : Nat := s.reg (A.loomSqBase q) + 64 * s.fget (A.loomSqHead q) A.loomSqHead_head

/-- A fetched descriptor is checked and given a tracker slot, or a CMD_ERROR completion, and HEAD advances past it (R82 to R90). An
operand block that it reads for the check and finds uncorrectable is logged (R115, R445). -/
def State.acceptDesc (s : State) (q used : Nat) (d : Desc) : State :=
  let s := s.fetched q used
  let t := newCmd s q d
  let s := { s with nextSlot := s.nextSlot + 1 }
  match (formCheck d).or (stateCheck s q d) with
  | some det =>
    let s := if det = Det.addrFault ∧ ownsRange s d.part d.opbAddr d.opbLen then
      s.logUncorrected ((firstBad s d.opbAddr d.opbLen).getD 0) (some d.part) else s
    let t := { t with ins := [], outs := [], phase := .ended, status := some (St.cmdError, det) }
    { s with tracked := s.tracked ++ [t] }.raiseCompletion t
  | none =>
    let s := { s with
      tracked := s.tracked ++ [t]
      queues := tset s.queues q { qstate s q with ref := some d.cmdSeq } }
    s.joinStreams t

/-- The Loom fetches one descriptor and accepts it. An entry that cannot be read sets FETCH_ERR and stays (R946); the queue's partition
is the requester (R445). `obs` is what the memory shows on the fetch. -/
def execDescriptorAccept (obs : MemObs) (s : State) : Out :=
  match pickQueue s with
  | none => ok s
  | some (q, used) =>
    let a := headAddr s q
    let unread (s : State) : State := s.fset (A.loomSqHead q) A.loomSqHead_fetchErr 1
    match canon a with
    | none => ok (unread s)
    | some c =>
      if clearingAt s a 64 then ok s
      else
        let (s, seen) := s.observe c obs
        if seen = .lost then ok (unread s)
        else if badRange s a 64 then
          ok ((unread s).logUncorrected ((firstBad s a 64).getD c) (some (s.fget (A.loomSqCtl q) A.loomSqCtl_part)))
        else
          let d := Desc.ofBytes (if seen = .wrong then misreadBytes s c a 64 else softBytes s a 64)
          if d.extOpb ∧ blockBound d.opcode ∧ clearingAt s d.opbAddr d.opbLen then ok s
          else ok (s.acceptDesc q used d)

/-! ### Dispatch (R91 to R94) -/

/-- Landing slots held at a WP (WP_LANDING.USED). -/
def landingUsed (s : State) (st : Nat) : Nat :=
  ((s.landings.filter fun l => ((s.cmd? l.slot).map Tracked.station) == some st).map Landing.slots).sum

/-- As many landing slots are free at its WP as a WRECV needs (R668). -/
def landingFree (s : State) (st : Nat) (t : Tracked) : Bool :=
  t.op != 0x7D || decide (landingUsed s st + fld t.desc.w4.toNat 37 32 + 1 ≤ 64)

/-- A station takes no new command: a CE or DE that is out, or another station in its UNIT reset (R106, R823). -/
def stationShut (s : State) (st : Nat) : Bool :=
  if st < 48 then engineOut s st else s.resets.any fun r => r.station == st

/-- The sampler runs its commands in acceptance order (R366). -/
def samplerTurn (s : State) (t : Tracked) : Bool :=
  t.desc.cls != 7 || s.tracked.all fun u =>
    u.desc.cls != 7 || u.phase != .waiting || u.status != none || decide (t.slot ≤ u.slot)

/-- The Loom gives a free unit of a station the first eligible command of a logical station mapped there, in
acceptance order: it runs, or is staged behind the running one with its operand block loaded (R92, R93). An external
operand block that its partition does not own, whose read is dropped (R41, R425), or that cannot be read (R445) ends it with
ADDR_FAULT (R115). The read waits while bytes of the block are being zeroed (R437). -/
def execDispatch (st unit : Nat) (s : State) : Out :=
  if ¬ s.flag A.loomCtl A.loomCtl_enable ∨ halted s ∨ stationShut s st ∨ s.thimble.state ≠ .run then ok s
  else
    match s.tracked.find? fun t =>
        t.phase == .waiting && (t.compl == .none || t.rerun) && t.status == none && physical s t.logical == st &&
          unitOf t == unit && eligible s t && samplerTurn s t && !stopping s t.part && landingFree s st t with
    | none => ok s
    | some t =>
      let busy := (unitCmd s st unit Phase.onUnit).isSome
      if busy ∧ (unitCmd s st unit (· == .staged)).isSome then ok s
      else if t.desc.extOpb ∧ clearingAt s t.desc.opbAddr t.desc.opbLen then ok s
      else
        let a := t.desc.opbAddr
        let n := t.desc.opbLen
        let s := { s with gated := s.gated.filter (· != st) }
        let owned := ownsRange s t.part a n
        let lost := t.desc.extOpb && (!owned || badRange s a n)
        let s := s.updCmd t.slot fun u =>
          { u with place := some (st, unit), phase := .staged, started := u.started || lost
                   opb := if lost then [] else if u.desc.extOpb then softBytes s a n else u.opb }
        let t' := { t with place := some (st, unit) }
        let s := s.trace st 1 t.logical t'
        if lost then
          let s := if owned then s.logUncorrected ((firstBad s a n).getD 0) (some t.part) else s.tagDrop (memTarget t' a) t.part 1
          ok (s.finish t.slot St.cmdError Det.addrFault)
        else ok (if busy then s else s.startRun t.slot)

/-! ### Tiles and credits (R42 to R50) -/

/-- The producer of a stream sends its next formed tile to every consumer, spending one credit for each (R44, R46). A consumer that has
left its unit takes no more tiles: a replayed producer spends no credit on it and sends it nothing (DESIGN CHOICE, log 108). -/
def execTileSend (slot out : Nat) (s : State) : Out :=
  match s.cmd? slot with
  | none => ok s
  | some t =>
    match t.outs[out]? with
    | none => ok s
    | some o =>
      let cs := (outChans s slot out).filter (takesTiles s)
      match o.queue with
      | [] => ok s
      | x :: r =>
        if t.phase.onUnit ∧ (outChans s slot out).length = o.ncons ∧ cs.all (fun c => decide (0 < c.credits)) ∧
            ¬ s.traceHold.contains t.station ∧ ¬ s.frozen ∧ ¬ stopping s t.part then
          let s := { s with chans := s.chans.map fun (c : Chan) =>
            if c.prod == slot && c.out == out && takesTiles s c then
              { c with credits := c.credits - 1, flight := c.flight ++ [Flit.mk t.part x] } else c }
          let s := s.updCmd slot fun (u : Tracked) =>
            { u with
                tilesOut := if u.rerun ∨ x.index < o.sent then u.tilesOut else u.tilesOut + 1, moved := s.tb.n, stallSent := false
                outs := u.outs.mapIdx fun j p => if j = out then { p with queue := r, sent := max p.sent (x.index + 1) } else p }
          let dests := (cs.filterMap fun c => (s.cmd? c.cons).map Tracked.station).filter fun d => d != t.station
          let links := ((dests.flatMap fun d => route t.station d 16).eraseDups)
          let s := s.linkFlits links (tileFlits x) (some t.part)
          let s := s.count t.station 7 1 t
          let s := if dests.isEmpty then s else s.count t.station 9 (tileFlits x) t
          let s := if x.index = 0 then s.trace t.station 5 (out + x.index * 2 ^ 32) t else s
          let s := if x.last then s.trace t.station 6 (out + x.index * 2 ^ 32) t else s
          ok (s.settle slot)
        else ok s

/-- A tile of an input's channel taken off the Seam. -/
def State.popFlight (s : State) (slot inp : Nat) (credit : Bool) : State :=
  { s with chans := s.chans.map fun (c : Chan) =>
      if c.cons == slot && c.inp == inp then
        { c with flight := c.flight.drop 1, net := if credit then c.net + 1 else c.net } else c }

/-- A tile index gap at a station: reported, and the command contained where the station is not fenced (R48, R940). -/
def State.indexGap (s : State) (t : Tracked) : State :=
  let st := t.station
  if st < 48 then
    (s.setReg (A.ceErrStatus st) (s.reg (A.ceErrStatus st) ||| 0x10)).pinReport (dataSource st) 2 0x10
  else if st = 54 ∨ st = 55 then s.pinReport (dataSource st) 2 0
  else (s.pinReport (140 + st / 8) 2 0).finish t.slot St.aborted Det.faultContained

/-- A receiving station takes the next tile of an input: it accepts the expected index, drops a lower one, reports a
higher one, and refuses a malformed header or row (R41, R48, R50, R53, R176), an MX row of a GEMM by Table 2-12 (R177). A command that has ended discards it and
returns its credit (R939); so is the credit of every dropped tile, whose slot stays free (DEDUCED, log 17). -/
def execTileArrive (slot inp : Nat) (s : State) : Out :=
  match s.cmd? slot, inChan? s slot inp with
  | some t, some c =>
    match t.ins[inp]?, c.flight with
    | some b, f :: _ =>
      if s.frozen then ok s
      else
        let x := f.tile
        let bad (det : Nat) : Out := ok (((s.popFlight slot inp true).updCmd slot fun u =>
          { u with ins := u.ins.mapIdx fun j b =>
              if j = inp then { b with next := x.index + 1, lastIn := b.lastIn || x.last } else b }).finish slot St.cmdError det)
        if f.tag ≠ t.part then ok ((s.popFlight slot inp true).tagDrop t.station f.tag (tileFlits x))
        else if x.index < b.next then ok (s.popFlight slot inp true)
        else if b.next < x.index then ok ((s.popFlight slot inp true).indexGap t)
        else if b.discard then
          let s := s.popFlight slot inp true
          let s := s.updCmd slot fun u =>
            { u with ins := u.ins.mapIdx fun j b =>
                if j = inp then { b with next := x.index + 1, lastIn := b.lastIn || x.last } else b }
          ok ((s.checkDrain slot).latchLife c.prod)
        else if x.reserved ≠ 0 ∨ 0x10 ≤ x.format then bad Det.tileFormat
        else if ¬ wholeRow x.format (tileRowBytes x) then
          bad (if t.op = 0x10 ∧ isMx x.format then Det.mxGeometry else Det.tileFormat)
        else if x.zc ∧ t.desc.cls = 1 then bad Det.zcUnsupported
        else
          let s := s.popFlight slot inp false
          let s := s.updCmd slot fun u =>
            { u with
                moved := s.tb.n, stallSent := false, arrivals := u.arrivals ++ [inp]
                ins := u.ins.mapIdx fun j b =>
                  if j = inp then { b with next := b.next + 1, window := b.window ++ [x], lastIn := x.last } else b }
          let s := s.count t.station 6 1 t
          let far := match s.cmd? c.prod with | some u => u.station != t.station | none => true
          let s := if far then s.count t.station 8 (tileFlits x) t else s
          let s := if x.index = 0 then s.trace t.station 3 (inp + x.index * 2 ^ 32) t else s
          ok (if x.last then (s.trace t.station 4 (inp + x.index * 2 ^ 32) t).latchLife c.prod else s)
    | _, _ => ok s
  | _, _ => ok s

/-- One credit reaches the producer's station over the credit network (R45, R938). -/
def execCreditReturn (slot inp : Nat) (s : State) : Out :=
  ok { s with chans := s.chans.map fun (c : Chan) =>
    if c.cons == slot && c.inp == inp && decide (0 < c.net) then { c with net := c.net - 1, credits := c.credits + 1 }
    else c }

/-! ### Stalls and aborts (R95 to R100) -/

/-- The stall time of a command that runs, or has run and still drains, reaches LOOM_STALL_LIMIT: recorded, and one LOOM_STALL event
raised (R95). One that never ran has no stall time. -/
def execLoomStall (slot : Nat) (s : State) : Out :=
  match s.cmd? slot with
  | none => ok s
  | some t =>
    let lim := s.fget A.loomStallLimit A.loomStallLimit_limitUs
    if t.phase.onUnit ∧ t.place.isSome ∧ lim ≠ 0 ∧ t.moved + lim * tUs ≤ s.tb.n ∧ t.stallSent = false then
      let s := s.setReg A.loomStallSeq (t.desc.cmdSeq + t.part * 2 ^ 48 + 2 ^ 63)
      let s := s.raiseP srcLoom 0x0003 t.part t.desc.cmdSeq none
      ok (s.updCmd slot fun u => { u with stallSent := true })
    else ok s

/-- LOOM_ABORT written while no abort is in progress: ABORT_BUSY becomes 1 and ABORT_REQ is raised at once (R96,
R632). A partition may name only itself (R945); a write for a partition in teardown has no effect (R810). -/
def execLoomAbort (who : Who) (val : Nat) (s : State) : Out :=
  let seq := fld val 47 0
  let p := fld val 50 48
  if (who.isFw ∨ who.isPart p) ∧ s.abort = none ∧ ¬ stopping s p then
    ok ({ s with abort := some (p, seq) }.raiseP srcLoom 0x0002 p seq none)
  else ok s

/-! ### NOP, TLOAD and TSTORE (R67 to R70) -/

/-- A dispatched NOP completes with DONE (R67). -/
def execNop (slot : Nat) (s : State) : Out :=
  match runningCmd s slot 0x00 with
  | none => ok s
  | some _ => ok (s.reach slot St.done Det.none)

/-- The rows of tile `i` of a TLOAD: their addresses and their length in bytes (R68). -/
def tloadRows (t : Tracked) (i : Nat) : List Nat × Nat :=
  let n := opw t.opb 6 31 0
  let rows := if i + 1 = n then opw t.opb 7 6 0 + 1 else opw t.opb 4 54 48 + 1
  ((List.range rows).map fun j => opw t.opb 4 47 0 + i * opw t.opb 6 63 32 + j * opw t.opb 5 31 0,
    opw t.opb 4 62 55 + 1)

/-- Every row that a TLOAD reads lies in its partition's regions (R70): the set of its rows (DEDUCED, log 13). -/
def tloadOwned (s : State) (t : Tracked) : Bool :=
  (List.range (opw t.opb 6 31 0)).all fun i => (tloadRows t i).1.all fun a => ownsRange s t.part a (tloadRows t i).2

/-- A TLOAD forms its next tile from memory, or ends: ADDR_FAULT before any byte where its range leaves its partition,
FAULT_CONTAINED on an uncorrectable line, DONE after its last tile (R68, R70, R446). Every read is checked against the region table in
force (R425): one that is dropped is never answered. Bytes being zeroed are waited for (R437). -/
def execTload (slot : Nat) (s : State) : Out :=
  match runningCmd s slot 0x01 with
  | none => ok s
  | some t =>
    let i := t.work.pos
    let n := opw t.opb 6 31 0
    let (rows, len) := tloadRows t i
    if i = 0 ∧ ¬ tloadOwned s t then ok (s.finish slot St.cmdError Det.addrFault)
    else if ¬ roomFor s t ∨ rows.any (fun a => clearingAt s a len) then ok s
    else if i ≠ 0 ∧ ¬ rows.all (fun a => ownsRange s t.part a len) then
      ok (s.readDropped t rows len)
    else
      match rows.find? fun a => badRange s a len with
      | some a => ok (s.readFault slot a len)
      | none =>
        let x := mkTile (opw t.opb 5 36 32) rows.length len (i + 1 == n) (rows.flatMap fun a => softBytes s a len)
        let s := rows.foldl (fun s a => s.memIn t a len) s
        let s := s.updCmd slot fun u => { u with work := { u.work with pos := i + 1 } }
        let s := s.formTile slot 0 x
        ok (if i + 1 = n then s.reach slot St.done Det.none else s.settle slot)

/-- An address lies in the verdict window of the LINE block (Table 10-8). -/
def inVerdicts (a : Nat) : Bool := decide (0x30004580000 ≤ a ∧ a < 0x30004580000 + 65536 * 8)

/-- The verdict writes of a row: its 8-byte words in ascending address order, as tag and value (R602). -/
def rowVerdicts (a : Nat) (bs : List Byte) : List (Nat × Nat) :=
  (List.range (bs.length / 8)).map fun k =>
    ((a + 8 * k - 0x30004580000) / 8, leNat ((bs.drop (8 * k)).take 8))

/-- A row may be stored by partition `p`: in its regions, or in the verdict window where it owns the window and the row
is whole 8-byte writes (R70, R602). -/
def rowStorable (s : State) (p a n : Nat) : Bool :=
  if inVerdicts a then inVerdicts (a + n - 1) && n % 8 == 0 && a % 8 == 0 && s.fget A.lineCtl A.lineCtl_part == p
  else ownsRange s p a n

/-- A TSTORE writes its next tile: rows at their pitches, expanded (R69). A tile whose rows leave the partition's
regions is not written and ends the command with ADDR_FAULT (R70). It completes after its LAST tile. -/
def execTstore (slot : Nat) (s : State) : Out :=
  match runningCmd s slot 0x02 with
  | none => ok s
  | some t =>
    match (t.ins[0]?).bind fun b => b.window.head? with
    | none => ok (s.upstreamEnd slot)
    | some x =>
      let i := t.work.pos
      let n := tileRowBytes x
      let rows := (List.range (tileRows x)).map fun j =>
        (opw t.opb 4 47 0 + i * opw t.opb 6 63 32 + j * opw t.opb 5 31 0, rowOf x j)
      if rows.any (fun r => clearingAt s r.1 n) then ok s
      else
      let s := s.takeTile slot 0
      if rows.all (fun r => rowStorable s t.part r.1 n) then
        let s := rows.foldl (fun s r =>
          if inVerdicts r.1 then
            { s with verdictQ := s.verdictQ ++ (rowVerdicts r.1 r.2).map fun v => (t.part, v.1, v.2) }
          else { (s.storeBytes r.1 r.2).memOut t r.1 n with settling := s.settling ++ [(slot, r.1, n)] }) s
        let s := s.updCmd slot fun u => { u with work := { u.work with pos := i + 1 } }
        let s := s.releaseTo slot 0 (i + 1)
        ok (if x.last then s.reach slot St.done Det.none else s)
      else ok (s.finish slot St.cmdError Det.addrFault)

/-! ### Host tasks (R71 to R78) -/

/-- The states of an HTASK, kept in its work word: input phase, handed over, output phase. -/
abbrev htIn : Nat := 0
abbrev htGiven : Nat := 1
abbrev htOut : Nat := 2

/-- Every bound input of a command has delivered its LAST tile and the command has taken it. -/
def Tracked.inputsDone (t : Tracked) : Bool := t.ins.all fun b => b.lastIn && b.window.isEmpty

/-- A tile record: the tile's own header, the payload expanded, zeros to a multiple of 64 bytes (R72). -/
def tileRecord (x : Tile) : List Byte :=
  let p := expand x
  let n := 16 + p.length
  leBytes 16 (tileHeader x) ++ p ++ List.replicate ((n + 63) / 64 * 64 - n) 0

/-- An HTASK in its input phase writes the tile that arrived first as a tile record (R72); in its output phase it
reads the next record of OUT_BUF and emits it (R75). Ranges outside its partition end it before any tile moves. -/
def execHtask (slot : Nat) (s : State) : Out :=
  match runningCmd s slot 0x70 with
  | none => ok s
  | some t =>
    let inBuf := opw t.opb 5 47 0
    let inLen := opw t.opb 5 63 48 * 1024
    let outBuf := opw t.opb 6 47 0
    let outLen := opw t.opb 6 63 48 * 1024
    if t.work.opened = false then
      if ownsRange s t.part inBuf inLen ∧ ownsRange s t.part outBuf outLen then
        ok (s.updCmd slot fun u => { u with work := { u.work with opened := true } })
      else ok (s.finish slot St.cmdError Det.addrFault)
    else if t.work.aux2 = htIn then
      match t.arrivals with
      | [] => ok (s.upstreamEnd slot)
      | i :: _ =>
        match (t.ins[i]?).bind fun b => b.window.head? with
        | none => ok s
        | some x =>
          let r := tileRecord x
          let a := inBuf + t.work.pos
          if inLen < t.work.pos + r.length then ok (s.finish slot St.cmdError 0x01F0)
          else if clearingAt s a r.length then ok s
          else
            let s := (s.takeTile slot i).storeOwned t a r
            let s := s.updCmd slot fun u =>
              { u with work := { u.work with pos := u.work.pos + r.length, aux := u.work.aux + 1 } }
            ok (s.releaseTo slot i (((t.ins[i]?).map fun b => b.taken.length + 1).getD 0))
    else if t.work.aux2 = htOut ∧ roomFor s t then
      let err := ok (s.finish slot St.cmdError 0x01F1)
      let a := outBuf + t.work.pos
      if outLen < t.work.pos + 64 then err
      else if clearingAt s a 64 then ok s
      else if ¬ ownsRange s t.part a 64 then ok (s.readDropped t [a] 64)
      else if badRange s a 64 then ok (s.readFault slot a 64)
      else
        let x := tileOf (leNat (softBytes s a 16)) []
        let n := tileRows x * tileRowBytes x
        let size := (16 + n + 63) / 64 * 64
        let o := x.stream - 1
        if outLen < t.work.pos + size then err
        else if x.stream = 0 ∨ t.outs.length ≤ o ∨ x.zc ∨ x.reserved ≠ 0 ∨ 0x10 ≤ x.format ∨ t.work.flags.testBit o then err
        else if clearingAt s a size then ok s
        else if ¬ ownsRange s t.part a size then ok (s.readDropped t [a] size)
        else if badRange s a size then ok (s.readFault slot a size)
        else
          let s := (s.memIn t a size).updCmd slot fun u =>
            { u with work := { u.work with pos := u.work.pos + size
                                           flags := if x.last then u.work.flags ||| 2 ^ o else u.work.flags } }
          let s := s.formTile slot o { x with payload := softBytes s (a + 16) n }
          let fl := if x.last then t.work.flags ||| 2 ^ o else t.work.flags
          ok (if (List.range t.outs.length).all (fun k => fl.testBit k) then s.reach slot St.done Det.none
              else s.settle slot)
    else ok s

/-- The task ring of a partition on a cluster: base, log2 of its entries (Table 1-25). -/
def taskRing (s : State) (c p : Nat) : Nat × Nat :=
  (s.fget (A.hcTaskBase c p) A.hcTaskBase_base / 64 * 64,
    log2In (s.fget (A.hcTaskBase c p) A.hcTaskBase_log2Entries) 6 16 6)

/-- The harts of a cluster that a partition holds (R790). -/
def clusterHarts (s : State) (c p : Nat) : List Nat :=
  ((List.range 8).map (8 * c + ·)).filter fun h => (s.fget (A.gnPartHarts p) A.gnPartHarts_harts).testBit h

/-- The HC station hands a task over once its inputs are complete and the ring has room: a task record, TAIL advanced,
the task interrupt on each of the partition's harts of the cluster when the ring was empty (R73). The record's store is checked
like every other (R41, R425). A full ring waits. With no output bound, the handler's status alone
ends the command. -/
def execHtaskHandover (slot : Nat) (s : State) : Out :=
  match runningCmd s slot 0x70 with
  | none => ok s
  | some t =>
    let c := t.station - 52
    let p := t.part
    let (base, lg) := taskRing s c p
    let tail := s.fget (A.hcTaskTail c p) A.hcTaskTail_tail
    let head := s.fget (A.hcTaskHead c p) A.hcTaskHead_head
    if t.work.opened ∧ t.work.aux2 = htIn ∧ t.inputsDone ∧ (tail + 1) % 2 ^ lg ≠ head then
      let k := tgetD s.nextTask c 0
      let w0 := t.desc.cmdSeq + p * 2 ^ 48
      let w1 := opw t.opb 4 15 0 + t.desc.opId * 2 ^ 16 + t.desc.layerId * 2 ^ 32
      let w2 := opw t.opb 4 63 32 + k * 2 ^ 32
      let w4 := t.work.pos % 2 ^ 32 + t.work.aux * 2 ^ 32
      let rec_ := [w0, w1, w2, opw t.opb 5 47 0, w4, opw t.opb 6 47 0, opw t.opb 6 63 48, 0].flatMap (leBytes 8)
      let s := s.storeOwned t (base + 64 * tail) rec_
      let s := s.fset (A.hcTaskTail c p) A.hcTaskTail_tail ((tail + 1) % 2 ^ lg)
      let s := s.fset (A.hcTaskCount c p) A.hcTaskCount_waiting (s.fget (A.hcTaskCount c p) A.hcTaskCount_waiting + 1)
      let s := { s with nextTask := tset s.nextTask c ((k + 1) % 2 ^ 32)
                        tasks := s.tasks ++ [HTask.mk c k p slot] }
      let s := s.updCmd slot fun (u : Tracked) =>
        { u with work := { u.work with aux2 := htGiven, pos := 0, flags := 0 } }
      ok (if tail = head then (clusterHarts s c p).foldl (fun s h => s.emit (.taskIrq h p)) s else s)
    else ok s

/-- HC_TASK_DONE written: status 0 starts the output phase, another fails the command with HTASK_FAIL; a task not
waiting, or of another partition, is left alone (R74). -/
def execHcTaskDone (who : Who) (cluster task status : Nat) (s : State) : Out :=
  match s.tasks.find? fun k => k.cluster == cluster && k.task == task % 2 ^ 32 && (who.isFw || who.isPart k.part) with
  | none => ok s
  | some k =>
    let s := s.bump (A.hcTaskCount cluster k.part) A.hcTaskCount_done 1
    let s := s.withdrawTask k.slot
    if status % 256 = 0 then
      let s := s.updCmd k.slot fun u => { u with work := { u.work with aux2 := htOut } }
      ok (match s.cmd? k.slot with
        | some t => if t.outs.isEmpty then s.reach k.slot St.done Det.none else s
        | none => s)
    else ok (s.finish k.slot St.cmdError 0x01F2)

end Sys2Proof.Machine
end

