-- ==== Sys2Proof/Machine/Keys.lean ====
section
/-! DEFINITION. The key hierarchy (R642, R650, R705, R795 to R798, Table 15-1); the root key and the memory keys stand in Ops. -/

namespace Sys2Proof.Machine

open Sys2Proof

/-! ### From the device root key -/

/-- The cold-tier key of a partition at a generation (R457): an image opens under the key of the generation that it was written at. -/
def coldKey (s : State) (p gen : Nat) : List Byte := kdf (rootKey s) "SK48 COLD" (beBytes 1 p ++ beBytes 4 gen) 512

/-- The key that wraps the fabric-group key (R796). -/
def wrapKey (s : State) : List Byte := kdf (rootKey s) "SK48 WRAP" [] 256

/-- The seed of the attestation key pair (R802). -/
def attestSeed (s : State) : List Byte := kdf (rootKey s) "SK48 ATTEST" [] 256

/-- The fabric-group key as the module unwraps it (R796). A store in which it does not unwrap ends a start (`State.keysOk`). -/
def fgk (s : State) : List Byte := (Config.keyUnwrap (wrapKey s) s.store.fgkWrapped).getD []

/-! ### From the fabric-group key -/

/-- The key of firmware images (R895). -/
def fwKey (s : State) : List Byte := kdf (fgk s) "SK48 FW" [] 256

/-- Two things of the ends of a link or a pair, that of the lower SERIAL first. -/
def lowerFirst (a b : Nat) (x y : List Byte) : List Byte := if a ≤ b then x ++ y else y ++ x

/-- The key of a link between two SERIALs with their NONCEs at a link epoch (R642). -/
def linkKey (s : State) (a b na nb epoch : Nat) : List Byte :=
  kdf (fgk s) "SK48 LINK" (lowerFirst a b (beBytes 8 a) (beBytes 8 b) ++ lowerFirst a b (beBytes 16 na) (beBytes 16 nb) ++
    beBytes 4 epoch) 256

/-- The key of the direction in which a SERIAL sends, and the subkeys under it of the module and of a partition at an EPOCH_p (R650). -/
def dirKey (link : List Byte) (sender : Nat) : List Byte := kdf link "SK48 DIR" (beBytes 8 sender) 256
def modSubkey (dir : List Byte) : List Byte := kdf dir "SK48 MOD" [] 256
def partSubkey (dir : List Byte) (p epoch : Nat) : List Byte := kdf dir "SK48 PART" (beBytes 1 p ++ beBytes 4 epoch) 256

/-- The lease key of a pair (R705). -/
def leaseKey (s : State) (a b : Nat) : List Byte := kdf (fgk s) "SK48 LEASE" (lowerFirst a b (beBytes 8 a) (beBytes 8 b)) 256

/-! ### Identity records and key confirmation (R642, R798) -/

/-- The bytes of an identity record: the fields of Table 11-2 in their order, big-endian, each in whole bytes; the table gives no layout
(DESIGN CHOICE, log 106). -/
def identBytes (r : IdentRec) : List Byte :=
  let b (x : Bool) : Nat := if x then 1 else 0
  beBytes 8 r.serial ++ beBytes 3 r.fabric ++ beBytes 1 r.module_ ++ beBytes 1 r.link ++ beBytes 1 r.slot ++ beBytes 1 (b r.manager) ++
    beBytes 1 (b r.pair) ++ beBytes 1 r.verLo ++ beBytes 1 r.verHi ++ beBytes 2 r.launch0 ++ beBytes 2 r.launch1 ++
    beBytes 16 r.nonce ++ beBytes 4 r.epoch

/-- The new link epoch of two ends (R642). -/
def newEpoch (own far : IdentRec) : Nat := (max own.epoch far.epoch + 1) % 2 ^ 32

/-- The key confirmation that one end sends to the other (R798). -/
def keyConfirm (s : State) (sender other : IdentRec) : List Byte :=
  Config.kmac256 (linkKey s sender.serial other.serial sender.nonce other.nonce (newEpoch sender other)) "SK48 CONFIRM"
    (beBytes 8 sender.serial ++ lowerFirst sender.serial other.serial (identBytes sender) (identBytes other)) 256

/-! ### PAIR_LEASE (R705, Table 12-8) -/

/-- The header's bytes 0 to 31 (Table 9-5). -/
def ctlBytes (h : CtlHdr) : List Byte :=
  leBytes 2 h.magic ++ leBytes 1 h.verMaj ++ leBytes 1 h.verMin ++ leBytes 2 h.type ++ leBytes 2 h.status ++ leBytes 4 h.session ++
    leBytes 4 h.len ++ leBytes 8 h.frameSeq ++ leBytes 8 h.ack

/-- The body's bytes 0 to 63. -/
def leaseBytes (b : PairLeaseBody) : List Byte :=
  leBytes 8 b.serial ++ leBytes 4 b.epoch ++ leBytes 4 b.left ++ leBytes 8 b.time ++ leBytes 8 b.decision ++
    leBytes 32 (if b.release then 1 else 0)

/-- The header of a PAIR_LEASE of a sequence number. -/
def leaseHdr (seq : Nat) : CtlHdr :=
  { magic := 0x4352, verMaj := 2, verMin := 1, type := 0x20, status := 0, session := 0, len := 96, frameSeq := seq, ack := 0 }

/-- TAG of a PAIR_LEASE between this module and a partner. -/
def leaseTag (s : State) (partner : Nat) (h : CtlHdr) (b : PairLeaseBody) : List Byte :=
  Config.kmac256 (leaseKey s s.serial partner) "SK48 MLEASE" (ctlBytes h ++ leaseBytes b) 256

end Sys2Proof.Machine
end

