-- ==== Sys2Proof/Machine/WarpOps.lean ====
section
/-! DEFINITION. Warp frames and links: routes, sending with the retry buffer, acceptance, the loss of a link
(Warp Links and Manager-Worker Operation). -/

namespace Sys2Proof.Machine

open Sys2Proof

/-! ### Links -/

/-- The registers of link `j`: those of WP j / 4 and its local link j mod 4 (R637, R683). -/
def lkCtl (j : Nat) : Nat := A.wpLinkCtl (j / 4) (j % 4)
def lkStatus (j : Nat) : Nat := A.wpLinkStatus (j / 4) (j % 4)
def lkDrop (j : Nat) : Nat := A.wpDrop (j / 4) (j % 4)
def lkTx (j : Nat) : Nat := A.wpTxCtr (j / 4) (j % 4)
def lkRx (j : Nat) : Nat := A.wpRxCtr (j / 4) (j % 4)

/-- A link that has not run. -/
def Link.new : Link :=
  { light := false, lightLost := false, enteredAt := 0, retry := [], attempts := 0, nakFor := 0, ctr1 := 1,
    dropped := false, farSerial := 0, calSerial := none, skip := false, epochs := [], rekey := false, launch0 := 0,
    launch1 := 0, nonce := 0, farNonce := 0 }

def link (s : State) (j : Nat) : Link := tgetD s.links j Link.new

def State.setLink (s : State) (j : Nat) (l : Link) : State := { s with links := tset s.links j l }

/-- The link states of Table 11-1. -/
abbrev lkDown : Nat := 0
abbrev lkSignal : Nat := 1
abbrev lkCalib : Nat := 2
abbrev lkIdent : Nat := 3
abbrev lkUp : Nat := 4
abbrev lkFailed : Nat := 5

def linkState (s : State) (j : Nat) : Nat := s.fget (lkStatus j) A.wpLinkStatus_state

/-- A link enters a state, with a cause (0 for none). Entering DOWN clears RETRAIN. -/
def State.linkTo (s : State) (j st cause : Nat) : State :=
  let s := (s.fset (lkStatus j) A.wpLinkStatus_state st).fset (lkStatus j) A.wpLinkStatus_cause cause
  let s := s.setLink j { link s j with enteredAt := s.tb.n, lightLost := false }
  if st = lkDown then s.fset (lkCtl j) A.wpLinkCtl_retrain 0 else s

/-- The lasers of a link are off while EN is 0 and while the Selvage holds OPTICS (R932). -/
def laserOn (s : State) (j : Nat) : Bool :=
  s.flag (lkCtl j) A.wpLinkCtl_en && !(s.fget A.thimbleSelvage A.thimbleSelvage_held).testBit 5 && dieOn s

/-- A link in DOWN with EN = 1 and light on both lanes goes to SIGNAL (Table 11-1). -/
def State.linkTry (s : State) (j : Nat) : State :=
  if linkState s j = lkDown ∧ laserOn s j ∧ (link s j).light then s.linkTo j lkSignal 0 else s

/-! ### Routes (R661, R662) -/

def moduleId (s : State) : Nat := s.fget (A.wpCtl 0) A.wpCtl_moduleId
def isManager (s : State) : Bool := s.flag (A.wpStatus 0) A.wpStatus_role

/-- The link toward a module, where its route is valid; a pair link is in no route (R661). -/
def routeTo (s : State) (m : Nat) : Option Nat :=
  let j := s.fget (A.wpRoute 0 m) A.wpRoute_link
  if m < 64 ∧ s.flag (A.wpRoute 0 m) A.wpRoute_valid ∧ ¬ s.flag (lkCtl j) A.wpLinkCtl_pair then some j else none

/-- The pair link: the one with PAIR = 1 (R685). -/
def pairLink (s : State) : Option Nat := (List.range 8).find? fun j => s.flag (lkCtl j) A.wpLinkCtl_pair

/-! ### Identity (R640 to R642, Table 11-2) -/

/-- This end's identity record on a link. -/
def ownIdent (s : State) (j : Nat) : IdentRec :=
  let l := link s j
  { serial := s.serial, fabric := s.fabric, module_ := moduleId s, link := j, slot := s.slotId, manager := isManager s
    pair := s.flag (lkCtl j) A.wpLinkCtl_pair, verLo := 0x20, verHi := 0x21, launch0 := l.launch0, launch1 := l.launch1
    nonce := l.nonce, epoch := tgetD l.epochs l.farSerial 0 }

/-- A link enters IDENT: a fresh NONCE, and the identity record sent (R640, R799). -/
def State.toIdent (s : State) (j : Nat) : State :=
  let s := s.linkTo j lkIdent 0
  let s := (s.setLink j { link s j with nonce := Config.random s.free % 2 ^ 128 }).tickFree
  s.emit (.ident j (ownIdent s j))

/-- The key under which a link's sender encrypts a frame: the subkey of PART for DATA, CREDIT, CMD and CPL, the module subkey for the rest
(R650). That a frame's tag verifies under it comes with the frame. -/
def frameKey (s : State) (j sender type part : Nat) : List Byte :=
  let l := link s j
  let d := dirKey (linkKey s s.serial l.farSerial l.nonce l.farNonce (s.fget (A.wpCrypt (j / 4) (j % 4)) A.wpCrypt_epoch)) sender
  if 1 ≤ type ∧ type ≤ 4 then partSubkey d part (s.fget (A.wpPart 0 part) A.wpPart_epoch) else modSubkey d

/-! ### Sending (R648 to R654) -/

/-- The bytes that a frame takes on a link: header, payload and tag (R648, R649); they count as WARP_TX_BYTES (Table 17-2; DESIGN
CHOICE, log 22), those of a frame of types 1 to 4 as traffic of its partition. -/
def warpBytes (f : WarpFrame) : Nat := 48 + f.payload.length
def State.warpOut (s : State) (j type : Nat) (f : WarpFrame) : State :=
  (s.gcount 8 j (warpBytes f) (if 1 ≤ type ∧ type ≤ 4 then some f.part else none)).emit (.warp j type f)

/-- A frame given the next counter of a link, put into its retry buffer and sent. -/
def State.putFrame (s : State) (j type : Nat) (f : WarpFrame) : State :=
  let f := { f with counter := s.reg (lkTx j), tagOk := true }
  let l := link s j
  ((s.setReg (lkTx j) (s.reg (lkTx j) + 1)).setLink j { l with retry := l.retry ++ [(type, f)] }).warpOut j type f

/-- A counter of the link that reaches 2^48, in either counter space, starts the exchange of KEY_UPDATE (R651), though not in the safe
state (Table 16-4). -/
def State.rekeyAt (s : State) (j n : Nat) : State :=
  if 2 ^ 48 ≤ n ∧ (link s j).rekey = false ∧ ¬ safe s then
    (s.setLink j { link s j with rekey := true }).putFrame j 0x09
      { counter := 0, part := 0, tileEnd := false, src := moduleId s, dst := moduleId s, chan := 0, info := 0,
        payload := [], tagOk := true }
  else s

/-- A frame sent on a link that is UP: it takes the next counter, and stays in the retry buffer until acknowledged. In the
safe state only ACK and NAK leave (Table 16-4). -/
def State.sendOn (s : State) (j type : Nat) (f : WarpFrame) : State :=
  if linkState s j = lkUp ∧ ¬ safe s then (s.putFrame j type f).rekeyAt j (s.reg (lkTx j) + 1) else s

/-- A frame of this module toward another (R661); where no valid route leads there, nothing is sent. -/
def State.sendTo (s : State) (dst type part chan info : Nat) (tileEnd : Bool) (payload : List Byte) : State :=
  match routeTo s dst with
  | some j => s.sendOn j type
      { counter := 0, part := part, tileEnd := tileEnd, src := moduleId s, dst := dst, chan := chan, info := info,
        payload := payload, tagOk := true }
  | none => s

/-- A pair frame (Table 12-2) sent on the pair link: a frame with its counter, and its content (the table names the
content and gives no layout: DESIGN CHOICE, log 29). -/
def State.pairSend (s : State) (type : Nat) (e : Emit) : State :=
  match pairLink s with
  | none => s
  | some j =>
    if linkState s j = lkUp ∧ ¬ safe s then
      (s.sendOn j type
        { counter := 0, part := 0, tileEnd := false, src := moduleId s, dst := moduleId s, chan := 0, info := 0,
          payload := [], tagOk := true }).emit e
    else s

/-- A frame of counter space 1, ACK or NAK, naming a counter (R649, R653, R654). -/
def State.sendCtl (s : State) (j type named : Nat) : State :=
  let l := link s j
  let f : WarpFrame := { counter := l.ctr1, part := 0, tileEnd := false, src := moduleId s, dst := moduleId s, chan := 0,
                         info := named, payload := [], tagOk := true }
  ((s.setLink j { l with ctr1 := l.ctr1 + 1 }).warpOut j type f).rekeyAt j (l.ctr1 + 1)

/-- The retry buffer of a link has room for `n` more frames (R654). -/
def retryRoom (s : State) (j n : Nat) : Bool := decide ((link s j).retry.length + n ≤ 256)

/-- A link takes `n` frames now: UP, room in its retry buffer (R654), and not in the safe state, where only ACK and NAK leave
(Table 16-4). -/
def linkTakes (s : State) (j n : Nat) : Bool := linkState s j == lkUp && retryRoom s j n && !safe s

/-- Frames arrive on a link: it is UP and the die runs. After a freeze point a frame is neither taken nor acknowledged (R872). -/
def linkHears (s : State) (j : Nat) : Bool := decide (j < 8) && dieOn s && !s.frozen && linkState s j == lkUp

/-! ### The loss of a link (R657) -/

/-- Link `j` carries the frames of a Warp command. -/
def routesOver (s : State) (t : Tracked) (j : Nat) : Bool :=
  match t.op with
  | 0x7C | 0x7D | 0x7F => routeTo s (opw t.opb 4 5 0) == some j
  | 0x7E =>
    if isManager s then (List.range 64).any fun m => (opw t.opb 5 63 0).testBit m && m != 0 && routeTo s m == some j
    else routeTo s 0 == some j
  | _ => false

/-- A link leaves UP: the frames of its retry buffer are lost, every Warp command whose frames route over it ends with
WARP_LINK, and its error pin reports uncorrected-contained (R657). -/
def State.loseLink (s : State) (j : Nat) : State :=
  let slots := (s.tracked.filter fun t => t.phase == .running && t.status.isNone && routesOver s t j).map Tracked.slot
  let s := s.setLink j { link s j with retry := [], attempts := 0, dropped := false, skip := true, rekey := false }
  let s := slots.foldl (fun s x => s.finish x St.cmdError 0x01E1) s
  s.pinReport (126 + j) 2 0

/-! ### Acceptance (R653, R655, R660) -/

/-- A frame of counter space 0 that a receiver does not accept: dropped, counted, and answered with NAK. A frame of a
partition whose epoch changed within 1 ms is dropped in silence. -/
def State.refuseFrame (s : State) (j : Nat) (f : WarpFrame) (secret : Bool) : State :=
  let young := secret && (match tget s.epochAt f.part with | some t => decide (s.tb.n < t + tMs) | none => false)
  if f.tagOk = false ∧ young then s.bump (lkDrop j) A.wpDrop_teardownDrop 1
  else
    let s := if f.tagOk then s else s.bump (lkDrop j) A.wpDrop_authFail 1
    (s.setLink j { link s j with dropped := true }).sendCtl j 0x08 (s.reg (lkRx j))

/-- A receiver takes a frame (R653): the next expected counter, and a tag that verifies. The frame is acknowledged
(DESIGN CHOICE, log 22: one ACK a frame); one that a retry delivered is reported and counted as corrected (R655). -/
def State.takeFrame (s : State) (j : Nat) : State :=
  let n := s.reg (lkRx j)
  let l := link s j
  let s := if l.dropped then
      ((s.setLink j { l with dropped := false }).bump (lkDrop j) A.wpDrop_retry 1).pinReport (126 + j) 1 0
    else s
  ((s.setReg (lkRx j) (n + 1)).sendCtl j 0x07 n).rekeyAt j (n + 1)

/-- The link of a frame is UP, the frame is the next one and its tag verifies. -/
def acceptable (s : State) (j : Nat) (f : WarpFrame) : Bool :=
  decide (j < 8) && f.counter == s.reg (lkRx j) && f.tagOk

/-- The link on which a frame for another module goes on is UP and cannot take it now: the frame waits (R654, R662). -/
def onwardFull (s : State) (f : WarpFrame) : Bool :=
  f.dst != moduleId s && (match routeTo s f.dst with | some k => linkState s k == lkUp && !linkTakes s k 1 | none => false)

/-- What happens to a frame of counter space 0 (R653, R662): nothing on a link that is not UP, after a freeze point, or while the next
link of its way is full; refused; delivered here; or forwarded toward its module, re-encrypted with the counter of the next link. `here`
is what the module does with a frame of its own. -/
def onFrame (s : State) (j type : Nat) (f : WarpFrame) (secret : Bool) (here : State → State) : State :=
  if ¬ linkHears s j then s
  else if ¬ acceptable s j f then s.refuseFrame j f secret
  else if onwardFull s f then s
  else
    let s := s.takeFrame j
    if f.dst = moduleId s then here s
    else
      match routeTo s f.dst with
      | some k => s.sendOn k type f
      | none => s.bump (lkDrop j) A.wpDrop_authFail 1

/-- The frames of a partition sent and not acknowledged, and its tiles in landing slots (WP_PART_p.INFLIGHT, R659). -/
def inflight (s : State) (p : Nat) : Nat :=
  ((List.range 8).map fun j =>
    ((link s j).retry.filter fun x => decide (1 ≤ x.1 ∧ x.1 ≤ 4) && x.2.part == p).length).sum +
  ((s.landings.filter fun l => l.part == p).map fun l => l.tiles.length).sum

end Sys2Proof.Machine
end

