-- ==== Sys2Proof/Machine/HostOps.lean ====
section
/-! DEFINITION. The shared operations of the host link: answers, sessions, the acceptance journal, retained results,
queue pairs (Host Link, Control Protocol and Exactly-Once Delivery; Active and Standby Pairs). -/

namespace Sys2Proof.Machine

open Sys2Proof

/-! ### Status codes (Tables 9-8 and 18-6) -/

namespace Cs
abbrev ok : Nat := 0
abbrev busy : Nat := 1
abbrev badFrame : Nat := 2
abbrev unsupported : Nat := 3
abbrev notOwner : Nat := 4
abbrev unknownReq : Nat := 5
abbrev badToken : Nat := 6
abbrev expired : Nat := 7
abbrev coldFull : Nat := 8
abbrev coldWorn : Nat := 9
abbrev imageLost : Nat := 10
abbrev failedFault : Nat := 11
abbrev failedTorndown : Nat := 12
abbrev retainOvf : Nat := 13
abbrev noSession : Nat := 14
abbrev mgmtOnly : Nat := 15
abbrev noDump : Nat := 25
end Cs

/-! ### The pair's records (R574, R692, R694) -/

/-- The module sends its partner the records that keep it in step: it is ACTIVE (R690), or in SOLO with a join in phase
CHANNELS, whose partner already holds the copied state (DEDUCED, log 37). -/
def mirrors (s : State) : Bool :=
  paired s && (pairSt s == 4 || (pairSt s == 5 && s.fget A.pairStatus A.pairStatus_joinPhase == 4))

/-- Journal writes mirrored to the standby, as one numbered JOURNAL record (R574). -/
def State.mirror (s : State) (ws : List JournalWrite) : State :=
  if mirrors s then
    let n := s.pair.journalSent + 1
    { s with pair := { s.pair with journalSent := n } }.pairSend 0x11 (.journal n ws)
  else s

/-- Outcomes sent to the standby, as one numbered DECISION record (R692): a record for each (DESIGN CHOICE, log 30). -/
def State.recordDecision (s : State) (outs : List Outcome2) : State :=
  if mirrors s then
    let n := s.pair.decisionSent + 1
    { s with pair := { s.pair with decisionSent := n, decisions := s.pair.decisions ++ [(n, outs)] } }.pairSend 0x13
      (.decision n outs)
  else s

/-- A pair that receives records: standing by, or joining in phase CHANNELS. -/
def follows (s : State) : Bool :=
  paired s && (pairSt s == 3 || (pairSt s == 2 && s.fget A.pairStatus A.pairStatus_joinPhase == 4))

/-- The standby has confirmed every record up to the given numbers; only an active waits for it (R690, R694). -/
def confirmed (s : State) (j d : Nat) : Bool :=
  !(paired s && pairSt s == 4) || (decide (j ≤ s.pair.journalDone) && decide (d ≤ s.pair.decisionDone))

/-- The CB stream that the frames of a 25G port belong to, where it is generated and replicated: the lowest enabled one of their VLAN, with
null identification or the port's address as its source (R536; what identifies a sent frame is a DESIGN CHOICE, log 39). -/
def genStream (s : State) (port : Nat) : Option Nat :=
  (List.range 64).find? fun k =>
    let a := A.nxCbS 0 k
    s.flag a A.nxCbS_en && s.flag a A.nxCbS_gen && (s.fget a A.nxCbS_srcMac == 0 || s.fget a A.nxCbS_srcMac == s.reg (A.nxMacAddr port)) &&
      Config.txVlan port == some (s.fget a A.nxCbS_vlan)

/-- The bytes of a response's body. -/
def Response.len (r : Response) : Nat := 8 * r.body.length + r.bytes.length

/-- The IP fragments of a control datagram on the management port, whose IP MTU is 1,500 bytes: UDP header, frame header and body in pieces
of 1,480 (R568; IPv4, DESIGN CHOICE, log 42). -/
def ipParts : Emit → Nat
  | .reply _ _ r => ceilDiv (40 + r.len) 1480
  | _ => 1

/-- A RoCEv2 packet is marked ECN-capable, and nothing else that leaves is (R558). -/
def Emit.ecn : Emit → Bool
  | .rdmaWrite _ _ _ _ _ | .rdmaRead _ _ _ _ _ => true
  | .part _ _ e | .cb _ _ _ e => e.ecn
  | _ => false

/-- What goes out where something is sent on a port: on the management port, port 2, the fragments of its datagram (R568); on a 25G port a
frame of a generated stream on both, with its sequence number (R536). -/
def leaves (s : State) (port : Nat) (e : Emit) : List Emit :=
  if port = 2 then
    if ipParts e ≤ 1 then [e] else (List.range (ipParts e)).map fun i => Emit.part i (ipParts e) e
  else
    match genStream s port with
    | none => [e]
    | some k => [Emit.cb 0 k (tgetD s.cbNext k 0) e, Emit.cb 1 k (tgetD s.cbNext k 0) e]

/-- Something leaves on an Ethernet port: only from the lease holder (R541, R697), and in the safe state only from the
management port (Table 16-4). The stream it belongs to counts it (R536). -/
def State.transmit (s : State) (port : Nat) (e : Emit) : State :=
  if mayEmit s ∧ (port = 2 ∨ ¬ safe s) then
    { s with
        out := s.out ++ leaves s port e
        cbNext := match (if port = 2 then none else genStream s port) with
          | none => s.cbNext
          | some k => tset s.cbNext k ((tgetD s.cbNext k 0 + 1) % 2 ^ 16) }
  else s

/-- The header of a response of the module: the session's version, its FRAME_SEQ, and in ACK the highest one received (Table 9-5). Outside
a session it carries version 2.1 and zeros (DESIGN CHOICE, log 42). -/
def respHdr (s : State) (sid : Nat) (r : Response) : CtlHdr :=
  let h : CtlHdr := { magic := 0x4352, verMaj := 2, verMin := 1, type := r.type, status := r.status, session := sid, len := r.len,
                      frameSeq := r.seq, ack := 0 }
  match tget s.sessions sid with
  | none => h
  | some ss => { h with verMaj := ss.verMaj, verMin := ss.verMin, ack := ss.seen.foldl max 0 }

/-- A control frame of the module leaves; a REPLY of the active waits until the standby has confirmed the records sent
so far (R694). -/
def State.reply (s : State) (port sid : Nat) (r : Response) : State :=
  let e := Emit.reply port (respHdr s sid r) r
  if r.type = 0x0D ∧ ¬ confirmed s s.pair.journalSent s.pair.decisionSent then
    { s with heldOut := s.heldOut ++ [HeldOut.mk s.pair.journalSent s.pair.decisionSent e] }
  else s.transmit port e

/-- The held outputs whose records are confirmed leave, in order (R694). -/
def State.releaseHeld (s : State) : State :=
  let go := s.heldOut.filter fun h => confirmed s h.journal h.decision
  let s := { s with heldOut := s.heldOut.filter fun h => !confirmed s h.journal h.decision }
  go.foldl (fun s h => match h.out with
    | .reply port _ _ => s.transmit port h.out
    | e => s.transmit 0 e) s

/-! ### Sessions (R563 to R572) -/

/-- A response without a body, or with a list of words. -/
def mkResp (type status : Nat) (body : List Nat) : Response := { type := type, status := status, body := body, bytes := [], seq := 0 }

/-- The refusal of a frame: REJECT with CLIENT_TAG for a SUBMIT, REPLY for another (Table 9-6). -/
def refusal (type status tag : Nat) : Response :=
  if type = 0x04 then mkResp 0x06 status [tag] else mkResp 0x0D status []

/-- The answer to a frame of a session: numbered, kept with the frame's FRAME_SEQ, here and in the standby's journal, and sent (R563,
R570). -/
def State.respond (s : State) (port sid seq : Nat) (r : Response) : State :=
  match tget s.sessions sid with
  | none => s.reply port sid r
  | some ss =>
    let r := { r with seq := ss.txSeq + 1 }
    let ss := { ss with txSeq := ss.txSeq + 1, answers := tset ss.answers seq r }
    (State.mirror { s with sessions := tset s.sessions sid ss } [.answer sid seq r]).reply port sid r

/-- The lowest of a list of numbers. -/
def lowest (l : List Nat) : Nat := l.foldl min (l.headD 0)

/-- A FRAME_SEQ is new to a session's window of the 64 highest values: above it, or in it and not seen (R570). -/
def seqFresh (seen : List Nat) (seq : Nat) : Bool :=
  !seen.contains seq && (decide (seen.length < 64) || decide (lowest seen < seq))

/-- A window with one more FRAME_SEQ: the 64 highest stay. -/
def seqPut (seen : List Nat) (seq : Nat) : List Nat :=
  if seen.length < 64 then seen ++ [seq] else (seen.erase (lowest seen)) ++ [seq]

/-- The module answers control frames: started, its die on, not a standby, and not in the safe state except for a QUERY
on the management port (R697, R712, Table 16-4). -/
def listening (s : State) (port type : Nat) : Bool :=
  s.store.starting.isNone && !s.store.noImage && dieOn s && !s.frozen && mayEmit s && (!safe s || (port == 2 && type == 0x0C))

/-- The requests of a session whose END or failure is acknowledged leave the journal (R578). -/
def State.freeAcked (s : State) (sid a : Nat) : State :=
  { s with requests := s.requests.filter fun (x : Nat × Request) =>
      !(x.2.session == sid && (match x.2.endSeq with | some e => decide (e ≤ a) | none => false)) }

/-- A session's acknowledged result sequence raised: the retained entries up to it freed (R582), and the requests that it ends. -/
def State.raiseAck (s : State) (sid a : Nat) : State :=
  match tget s.sessions sid with
  | none => s
  | some ss =>
    let a := max ss.acked a
    State.freeAcked { s with
      sessions := tset s.sessions sid
        { ss with acked := a, written := max ss.written a, retained := ss.retained.filter fun e => decide (a < e.resSeq) } } sid a

/-- Results acknowledged up to `n` by a client, of those that have a sequence: freed, here and at the standby (R582). -/
def State.ackTo (s : State) (sid n : Nat) : State :=
  match tget s.sessions sid with
  | none => s
  | some ss =>
    let a := min n (ss.nextRes - 1)
    if a ≤ ss.acked then s else (s.raiseAck sid a).mirror [.acked sid (max ss.acked a)]

/-- A frame of a session, by its header (R564, R565, R567, R570): refused when the session is unknown or closed, when
the frame is malformed or of another version, or when its type came after the chosen version; discarded on a port of
the other type; answered again when its FRAME_SEQ is not new. The ACK of every frame of the session is taken, of a closed one too (R582),
and `act` handles a new frame. -/
def onSession (s : State) (port : Nat) (h : CtlHdr) (minMaj minMin tag : Nat) (act : Session → State → State) : State :=
  if ¬ listening s port h.type then s
  else
    match tget s.sessions h.session with
    | none => s.reply port h.session (refusal h.type Cs.noSession tag)
    | some ss =>
      if ss.mgmt ≠ (port == 2) then s
      else if ss.closed then
        (s.ackTo h.session h.ack).reply port h.session
          (refusal h.type (if ss.closeStatus = 0 then Cs.noSession else ss.closeStatus) tag)
      else if ¬ seqFresh ss.seen h.frameSeq then
        let s := s.ackTo h.session h.ack
        match tget ss.answers h.frameSeq with
        | some r => s.reply port h.session r
        | none => s
      else
        let s := { s with sessions := tset s.sessions h.session { ss with seen := seqPut ss.seen h.frameSeq } }
        let s := (s.mirror [.seen h.session h.frameSeq]).ackTo h.session h.ack
        if h.magic ≠ 0x4352 ∨ 8192 < h.len ∨ h.status ≠ 0 ∨ h.verMaj ≠ ss.verMaj ∨ h.verMin ≠ ss.verMin then
          s.respond port h.session h.frameSeq (refusal h.type Cs.badFrame tag)
        else if ss.verMaj < minMaj ∨ (ss.verMaj = minMaj ∧ ss.verMin < minMin) then
          s.respond port h.session h.frameSeq (refusal h.type Cs.unsupported tag)
        else
          match tget s.sessions h.session with
          | none => s
          | some ss => act ss s

/-- A control frame taken out of the endpoint's inbox, where the classifier put it. -/
def State.takeInbox (s : State) (port : Nat) (h : CtlHdr) : State :=
  match s.inbox.find? fun x => x.1 == port && x.2.hdr == h with
  | some x => { s with inbox := s.inbox.erase x }
  | none => s

/-! ### Requests (R361, R574 to R578) -/

/-- Entries of the acceptance journal in use: requests and session records share the ring. -/
def journalUsed (s : State) : Nat :=
  (s.requests.filter fun r => r.2.state != .expired).length + s.sessions.length

/-- The journal has no room for one more entry (R577). -/
def journalFull (s : State) : Bool := decide (setting s 11 65536 ≤ journalUsed s)

/-- A request changed by a function. -/
def State.updReq (s : State) (req : Nat) (f : Request → Request) : State :=
  match tget s.requests req with
  | some r => { s with requests := tset s.requests req (f r) }
  | none => s

/-- ACCEPT for a request (Table 9-6): CLIENT_TAG, request sequence, DEGRADED. -/
def acceptResp (req : Nat) (r : Request) : Response := mkResp 0x05 Cs.ok [r.tag, req, if r.degraded then 1 else 0]

/-- A request is accepted: ACCEPT leaves, and it enters PREFILL (R361, R574). -/
def State.acceptReq (s : State) (req : Nat) : State :=
  match tget s.requests req with
  | none => s
  | some r =>
    (s.updReq req fun r => { r with state := .prefill }).respond r.port r.session r.seq (acceptResp req r)

/-! ### Images (R403 to R405, R457 to R461) -/

/-- The cold-tier quota of a partition in bytes; the settings field holds 16 bits of GB for each (DESIGN CHOICE,
log 31). -/
def coldQuota (s : State) (p : Nat) : Nat :=
  (match s.store.inForce with
    | none => 225
    | some _ => fld (setting s 13 0x00E100E100E100E100E100E100E100E1) (16 * p + 15) (16 * p)) * 1000000000

/-- The cold-tier bytes that a partition's images, or all images, take. -/
def coldUsed (s : State) (p : Option Nat) : Nat :=
  (((s.images ++ s.oldImages).filter fun (i : Nat × Image) => match p with | some p => i.2.part == p | none => true).map
    fun i => i.2.bytes).sum

/-! ### Results (R579 to R585) -/

/-- Every request of a session cancelled and the session closed with RETAIN_OVF (R585). -/
def State.overflow (s : State) (sid : Nat) : State :=
  match tget s.sessions sid with
  | none => s
  | some ss =>
    { s with
        sessions := tset s.sessions sid { ss with closed := true, closeStatus := Cs.retainOvf }
        requests := s.requests.map fun (x : Nat × Request) =>
          if x.2.session == sid then (x.1, { x.2 with cancelled := true }) else x }.recordDecision [.retainOvf sid]

/-- A record given the session's next result sequence and retained (R579, Table 9-10). A standby overflows as the active decides, and one
that lags keeps no entry acknowledged already (R585). -/
def State.retain (s : State) (sid req status : Nat) (rec_ : List Byte) : State :=
  match tget s.sessions sid with
  | none => s
  | some ss =>
    let e : RetEntry :=
      { resSeq := ss.nextRes, status := status, req := req
        bytes := leBytes 8 ss.nextRes ++ leBytes 2 status ++ List.replicate 6 0 ++ (rec_ ++ List.replicate 32 0).take 32 ++
          List.replicate 16 0
        journal := s.pair.journalSent, decision := s.pair.decisionSent }
    if ss.nextRes ≤ ss.acked then
      State.freeAcked { s with sessions := tset s.sessions sid { ss with nextRes := ss.nextRes + 1 } } sid ss.acked
    else
      let s := { s with sessions := tset s.sessions sid { ss with nextRes := ss.nextRes + 1, retained := ss.retained ++ [e] } }
      if setting s 12 65536 < ss.retained.length + 1 ∧ ¬ ss.closed ∧ ¬ follows s then s.overflow sid else s

/-- A request ends with one failure entry that carries END (R583). -/
def State.failReq (s : State) (req status : Nat) : State :=
  match tget s.requests req with
  | none => s
  | some r =>
    if r.endSeq.isSome ∨ r.state = .ended then s
    else
      let n := ((tget s.sessions r.session).map Session.nextRes).getD 0
      (s.updReq req fun r => { r with state := .ended, endSeq := some n }).retain r.session req status (leBytes 8 req)

/-! ### Ports (R536, R542, R590) -/

/-- The registers of a port: KR0 and KR1 of NX0 and NX1, and port 2, the management MAC at 0x8000 of NX0. -/
def portBase (port : Nat) : Nat := if port = 2 then 0x30003808000 else 0x30003800000 + port * 0x100000

/-- The port receives and transmits: enabled, its link up, the die on and not frozen. -/
def portOn (s : State) (port : Nat) : Bool :=
  decide (port < 3) && s.flag (portBase port + 0x8) A.nxCtl_enable && s.flag (portBase port + 0x10) A.nxStatus_linkUp &&
    dieOn s && !s.frozen

/-- The largest frame of a port: NX_MAX_FRAME, and 1,518 on the management port (Table 9-1). -/
def maxFrame (s : State) (port : Nat) : Nat :=
  let n := s.fget (portBase port + 0x20) A.nxMaxFrame_bytes
  let n := if 1518 ≤ n ∧ n ≤ 9216 then n else 9216
  if port = 2 then min n 1518 else n

/-! ### Certificates (R804) -/

/-- A certificate asked for: queued, up to 8; one beyond is answered with BUSY and sets OVERFLOW (R804). -/
def State.askCert (s : State) (r : AttReq) : State :=
  if 8 ≤ s.attest.length then
    (s.fset A.gnAttestStatus A.gnAttestStatus_overflow 1).respond r.port r.session r.seq (mkResp 0x0D Cs.busy [])
  else { s with attest := s.attest ++ [r] }

/-! ### Queue pairs (R555 to R562) -/

/-- The packets that `n` bytes take at a path MTU. -/
def pktsOf (mtu n : Nat) : Nat := max 1 ((n + mtu - 1) / mtu)

/-- A READ whose bytes have all come. -/
def RdmaOp.full (o : RdmaOp) : Bool := o.read && decide (o.len ≤ o.bytes.length)

/-- What leaves for an operation from packet `start` on: WRITE packets, or one READ request for the bytes missing. -/
def opEmits (qpn mtu : Nat) (o : RdmaOp) (start : Nat) : List Emit :=
  if o.full then []
  else if o.read then
    let got := o.bytes.length
    [.rdmaRead qpn (o.addr + got) o.rkey ((o.psn + got / mtu) % 2 ^ 24) (o.len - got)]
  else (List.range o.npkts).filterMap fun k =>
    if o.psn + k < start then none
    else some (.rdmaWrite qpn (o.addr + k * mtu) o.rkey ((o.psn + k) % 2 ^ 24) ((o.bytes.drop (k * mtu)).take mtu))

/-- A queue pair issues an operation (R557, R560): it takes the next packet sequence numbers, and its packets leave
where this module transmits (R562, R697). -/
def State.issue (s : State) (qpn : Nat) (read : Bool) (addr rkey len : Nat) (bytes : List Byte) (slot : Option Nat) :
    State :=
  match tget s.qps qpn with
  | none => s
  | some q =>
    let n := pktsOf q.mtu len
    let o : RdmaOp := { psn := q.psn, npkts := n, read := read, addr := addr, rkey := rkey, len := len, bytes := bytes,
                        slot := slot }
    let q' := { q with psn := q.psn + n, ops := q.ops ++ [o], sentAt := if q.ops.isEmpty then s.tb.n else q.sentAt }
    (opEmits qpn q.mtu o 0).foldl (fun s e => s.transmit q.port e) { s with qps := tset s.qps qpn q' }

/-- The operations of a queue pair not yet answered, sent again from packet `start`: go-back-N (R557, R562). -/
def State.resend (s : State) (qpn start : Nat) : State :=
  match tget s.qps qpn with
  | none => s
  | some q =>
    let es := q.ops.flatMap fun o => opEmits qpn q.mtu o start
    let s := { s with qps := tset s.qps qpn { q with sentAt := s.tb.n } }
    (es.foldl (fun s e => s.transmit q.port e) s).bump (A.nxRdmaDrop q.port) A.nxRdmaDrop_retry es.length

/-- A queue pair enters the error state: its running commands end with REMOTE_FAIL (R557). -/
def State.qpError (s : State) (qpn : Nat) : State :=
  match tget s.qps qpn with
  | none => s
  | some q =>
    let slots := (s.tracked.filter fun t => t.phase == .running && t.status.isNone && (t.op == 0x78 || t.op == 0x79) &&
      opw t.opb 4 9 0 == qpn).map Tracked.slot
    let s := { s with qps := tset s.qps qpn { q with state := 2, ops := [] } }
    slots.foldl (fun s x => s.finish x St.cmdError 0x01C1) s

/-- RWRITE commands whose tiles have all been written and acknowledged complete (R560). -/
def State.settleWrites (s : State) (qpn : Nat) : State :=
  let open_ := (((tget s.qps qpn).map QPair.ops).getD []).filterMap RdmaOp.slot
  let done := (s.tracked.filter fun t => t.op == 0x79 && t.phase == .running && t.status.isNone && t.work.aux == 1 &&
    opw t.opb 4 9 0 == qpn && !open_.contains t.slot).map Tracked.slot
  done.foldl (fun s x => s.reach x St.done Det.none) s

end Sys2Proof.Machine
end

