-- ==== Sys2Proof/Machine/Serving.lean ====
section
/-! DEFINITION. The sampler's state and the operations of SCTL: group marks, sequences, the draft-length loop (R387 to
R393, R399 to R402, R413 to R416). -/

namespace Sys2Proof.Machine

open Sys2Proof

/-! ### Sequences at the sampler -/

/-- The state of a sequence that nothing has reset: unowned and empty (R415, R416). -/
def SampSeq.empty : SampSeq :=
  { owner := none, buf := [], dmin := 0, dmax := 0, pin := false, pinVal := 0, length := 0, zero := 0, clash := 0 }

def sampSeq (s : State) (q : Nat) : SampSeq := tgetD s.samp q SampSeq.empty

def State.setSamp (s : State) (q : Nat) (x : SampSeq) : State := { s with samp := tset s.samp q x }

/-- A group is marked cancelled at the sampler (R399, R400). -/
def groupMarked (s : State) (p g : Nat) : Bool := s.cancels.contains (p, g)

/-! ### SCTL operations (Table 6-7) -/

abbrev opNotOwner : Nat := 2
abbrev opBadSeq : Nat := 6
abbrev opBadArg : Nat := 8

/-- GROUP_CANCEL: the mark, and the SP's report to the arbiter (R399). -/
def sopGroupCancel (s : State) (part : Nat) (r : OpRec) : State × Nat × Bool :=
  let g := r.arg % 65536
  if g = 0 then opFail s opBadArg
  else
    let s := if groupMarked s part g then s else { s with cancels := s.cancels ++ [(part, g)] }
    opOk (s.raiseP 60 0x0010 part g none) 0

/-- GROUP_CLEAR: the mark removed, at the sampler and at the arbiter (R402). -/
def sopGroupClear (s : State) (part : Nat) (r : OpRec) : State × Nat × Bool :=
  let k := (part, r.arg % 65536)
  opOk { s with cancels := s.cancels.filter (· != k), cancelled := s.cancelled.filter (· != k) } 0

/-- SEQ_RESET: on a sequence that is unowned or the caller's (R415). -/
def sopSeqReset (s : State) (part : Nat) (r : OpRec) : State × Nat × Bool :=
  match (sampSeq s r.seq).owner with
  | some p => if p = part then opOk (s.setSamp r.seq { SampSeq.empty with owner := some part }) 0 else opFail s opNotOwner
  | none => opOk (s.setSamp r.seq { SampSeq.empty with owner := some part }) 0

/-- An operation on a sequence of the caller's: BAD_SEQ where nothing owns it (DEDUCED, log 62). -/
def onSamp (s : State) (part q : Nat) (f : SampSeq → State × Nat × Bool) : State × Nat × Bool :=
  match (sampSeq s q).owner with
  | none => opFail s opBadSeq
  | some p => if p = part then f (sampSeq s q) else opFail s opNotOwner

/-- SEQ_LOOP: a floor above the ceiling acts as ceiling = floor. -/
def sopSeqLoop (s : State) (part : Nat) (r : OpRec) : State × Nat × Bool :=
  onSamp s part r.seq fun x =>
    let lo := fld r.word1 4 0
    let hi := fld r.word1 12 8
    let pin := r.word1.testBit 16
    let pv := fld r.word1 24 20
    if 16 < lo ∨ 16 < hi ∨ 16 < pv then opFail s opBadArg
    else
      let hi := max lo hi
      opOk (s.setSamp r.seq { x with dmin := lo, dmax := hi, pin := pin, pinVal := pv,
                                     length := if pin then pv else hi, zero := 0 }) 0

/-- SEQ_QUERY. -/
def sopSeqQuery (s : State) (part : Nat) (r : OpRec) : State × Nat × Bool :=
  onSamp s part r.seq fun x =>
    (s, x.length * 2 ^ 8 + x.buf.length * 2 ^ 16 + x.zero * 2 ^ 21 + x.clash * 2 ^ 32, false)

/-- One record of an SCTL list. -/
def sop (s : State) (part : Nat) (r : OpRec) : State × Nat × Bool :=
  match r.op with
  | 0x01 => sopGroupCancel s part r
  | 0x02 => sopGroupClear s part r
  | 0x03 => sopSeqReset s part r
  | 0x04 => sopSeqLoop s part r
  | 0x05 => sopSeqQuery s part r
  | _ => opFail s opBadArg

/-- Teardown of a partition at the sampler (R416). -/
def State.samplerTeardown (s : State) (p : Nat) : State :=
  { s with
      cancels := s.cancels.filter fun k => k.1 != p
      cancelled := s.cancelled.filter fun k => k.1 != p
      cancelDue := s.cancelDue.filter fun d => (tget s.requests d.1).map Request.part != some p
      samp := s.samp.filter fun x => x.2.owner != some p }

/-! ### The draft-length loop (R392) -/

/-- The loop after a MAIN entry of `d` drafts with `a` accepted: the sequence's new state, and whether it clashed. -/
def SampSeq.loop (x : SampSeq) (d a : Nat) : SampSeq × Bool :=
  let fit (n : Nat) : Nat := min (max n x.dmin) x.dmax
  if x.pin then ({ x with length := x.pinVal }, false)
  else if d = 0 then
    if x.zero + 1 = 64 then ({ x with length := fit 1, zero := 0 }, false)
    else ({ x with length := fit 0, zero := x.zero + 1 }, false)
  else if a = d then
    if x.dmax < d + 1 then ({ x with length := fit x.dmax, clash := satTo 32 (x.clash + 1) }, true)
    else ({ x with length := fit (d + 1) }, false)
  else if a = 0 then ({ x with length := fit x.dmin }, false)
  else if 2 * a < d then
    if a + 1 < x.dmin then ({ x with length := fit x.dmin, clash := satTo 32 (x.clash + 1) }, true)
    else ({ x with length := fit (a + 1) }, false)
  else ({ x with length := fit d }, false)

/-! ### The rows -/

/-- An SCTL applies its operations one at a time (R413). -/
def execSctl (slot : Nat) (s : State) : Out := listStep 0x61 0x0184 sop (fun _ _ => []) slot s

def execGroupCancel (part : Nat) (r : OpRec) (res : Nat) (s : State) : Out := opRow sopGroupCancel part r res s
def execGroupClear (part : Nat) (r : OpRec) (res : Nat) (s : State) : Out := opRow sopGroupClear part r res s
def execSeqReset (part : Nat) (r : OpRec) (res : Nat) (s : State) : Out := opRow sopSeqReset part r res s
def execSeqLoop (part : Nat) (r : OpRec) (res : Nat) (s : State) : Out := opRow sopSeqLoop part r res s
def execSeqQuery (part : Nat) (r : OpRec) (res : Nat) (s : State) : Out := opRow sopSeqQuery part r res s

end Sys2Proof.Machine
end

