-- ==== Sys2Proof/Machine/PauseOps.lean ====
section
/-! DEFINITION. Pausing, resuming and cancelling requests, and the images of the cold tier (R361, R399 to R409, R455 to R461). -/

namespace Sys2Proof.Machine

open Sys2Proof

/-! ### Requests and their sequences -/

/-- The token at a position of a request (R403). -/
def Request.tokenAt (r : Request) (req pos : Nat) : Nat := (tget r.tokens pos).getD (Config.promptToken req pos)

/-- An ATTN or a SAMPLE names a main sequence in its list. -/
def namesSeq (s : State) (t : Tracked) (q : Nat) : Bool :=
  if t.op = 0x50 then
    (List.range (opw t.opb 4 11 0 + 1)).any fun i => fld (word64 s (opw t.opb 5 47 0 + 16 * i)) 13 0 == q
  else if t.op = 0x60 then
    (List.range (opw t.opb 4 61 48 + 1)).any fun i =>
      let w := word64 s (opw t.opb 4 47 0 + 64 * i)
      fld w 13 0 == q && !w.testBit 14
  else false

/-- A step of a sequence is in progress: an ATTN or SAMPLE that names it has no granted COMPLETION, or its tentative positions are
not resolved (Table 6-1; DEDUCED, log 32). -/
def stepOpen (s : State) (q : Nat) : Bool :=
  s.tracked.any (fun t => !t.granted && namesSeq s t q) || (match seqRec s q with | some r => decide (0 < r.tent) | none => false)

/-! ### Images (R403 to R405, R457 to R461) -/

/-- The time that an image has lived, in ns on the timebase: a timebase that a COLD start begins anew adds to what went before
(R404, R409). -/
def Image.age (im : Image) (s : State) : Nat := im.aged + (now s - im.doneAt)

/-- The time to live of an image has passed. -/
def Image.due (im : Image) (s : State) : Bool := im.complete && decide (im.ttl * 10 ^ 9 ≤ im.age s)

/-- The images of a request freed. -/
def State.freeImage (s : State) (req : Nat) : State :=
  { s with images := tdel s.images req, oldImages := s.oldImages.filter fun x => x.1 != req }

/-- A request's image put in place; one of an earlier pause stays beside it for its time to live (R458). -/
def State.keepImage (s : State) (req : Nat) (im : Image) : State :=
  { s with images := tset s.images req im
           oldImages := match tget s.images req with | some old => s.oldImages ++ [(req, old)] | none => s.oldImages }

/-- A partition's cold-tier generation (R457). -/
def genOf (s : State) (p : Nat) : Nat := (tget s.coldGen p).getD 0

/-- What the cold tier holds of an image: its bytes in units of 64, each encrypted under the key of the partition and the generation that
wrote it (R457); their numbers are the tweaks (DESIGN CHOICE, log 32). -/
def coldContent (s : State) (im : Image) : List (List Byte) :=
  let bs := Config.imageForm im
  (List.range (ceilDiv bs.length 64)).map fun i => Config.xtsEnc (coldKey s im.part im.gen) i ((bs.drop (64 * i)).take 64)

/-- The content of an image (R403): the entries of the non-null pages in page order, the tokens of the committed Bobbin positions
and the last one sampled, the entry fields and the loop settings. -/
def pauseImage (s : State) (req : Nat) (r : Request) (ttl n : Nat) : Image :=
  let base : Image :=
    { part := r.part, bytes := n, ttl := ttl, doneAt := 0, aged := 0, complete := false, gen := genOf s r.part,
      words := [], pages := [], tokens := [], entry := r.entry, loop := SampSeq.empty }
  match r.seqId with
  | none => base
  | some q =>
    match seqRec s q with
    | none => { base with loop := sampSeq s q }
    | some c =>
      let k := pgPos s c.cls
      let a := seqAddr s q
      { base with
          loop := { sampSeq s q with buf := [] }
          words := [word64 s a, word64 s (a + 8), word64 s (a + 16)]
          pages := (List.range (c.length / k)).flatMap fun p => (List.range c.layers).filterMap fun l =>
            let h := slotHandle s c (p * c.layers + l)
            if h = 0 then none
            else some { layer := l, page := p, bytes := readBytes s (frameAddr s c.cls (hFrame h)) (k * entryBytes s c.cls) }
          tokens := (List.range (c.committed + 1)).map fun i => r.tokenAt req (c.length + i) }

/-- What a PAUSE reads in memory: the sequence's record and page list, and the pages of its image. -/
def pauseReads (s : State) (r : Request) : List (Nat × Nat) :=
  match r.seqId with
  | none => []
  | some q =>
    (seqAddr s q, 32) ::
      match seqRec s q with
      | none => []
      | some c =>
        let k := pgPos s c.cls
        (c.list, 8 * (c.length / k * c.layers)) ::
          ((List.range (c.length / k * c.layers)).map (slotHandle s c)).filterMap fun h =>
            if h = 0 then none else some (frameAddr s c.cls (hFrame h), k * entryBytes s c.cls)

/-- The lode with the fewest open sequences of a class, the lowest on a tie (R363). -/
def homeFor (s : State) (cls : Nat) : Nat :=
  let open_ (n : Nat) : Nat := (s.seqUsed.filter fun q => (seqRec s q).any fun r => r.cls == cls && r.home == n).length
  (List.range 16).foldl (fun b n => if open_ n < open_ b then n else b) 0

/-- The sequence that a resume of a partition opens: the lowest that is not in use and that no other partition owns at the sampler
(R415; the runtime's choice: DESIGN CHOICE, log 32). -/
def freshSeq (s : State) (part : Nat) : Option Nat :=
  (List.range 16384).find? fun q =>
    (seqRec s q).isNone && (match (sampSeq s q).owner with | none => true | some p => p == part)

/-- The pages of an image as the resumed sequence takes them: in order, without the positions of null ones (R406, R408). -/
def Image.restored (im : Image) (layers : Nat) : List SavedPage :=
  let of (l : Nat) : List SavedPage := (im.pages.filter fun p => p.layer == l).mapIdx fun i p => { p with page := i }
  ((List.range layers).flatMap of).mergeSort fun a b => decide (a.page ≤ b.page)

/-- The pages that the resumed sequence has in every layer. -/
def Image.whole (im : Image) (layers : Nat) : Nat :=
  ((List.range layers).map fun l => (im.pages.filter fun p => p.layer == l).length).min?.getD 0

/-- An image restored (R405 to R408) in a new sequence `q` of the same class, layers and page list, empty; the saved pages of each layer,
in order, private, to be written by the ledger as frames are there; its sampler state with the loop settings; its tail tokens at the
positions they have now. The request decodes on once the pages are written. The restore ATTNs that carry the entries are the
runtime's, and their effect alone is shown (DESIGN CHOICE, log 32). -/
def State.restoreImage (s : State) (req q : Nat) : State :=
  match tget s.images req, tget s.requests req with
  | some im, some r =>
    match im.words with
    | [w0, w1, w2] =>
      let old := SeqRec.ofWords w0 w1 w2
      let c := { old with home := homeFor s old.cls, owner := r.part, committed := 0, tent := 0, length := 0 }
      let ps := im.restored c.layers
      let n := im.whole c.layers * pgPos s c.cls
      let s := (s.storeBytes c.list (List.replicate (8 * c.cap * c.layers) 0)).setSeq q c
      let s := { s with
        seqUsed := if s.seqUsed.contains q then s.seqUsed else s.seqUsed ++ [q]
        resuming := s.resuming ++ [(req, q)]
        restoring := s.restoring ++ ps.map fun p => (q, p)
        flushes := s.flushes ++ ps.map fun (p : SavedPage) => (q, p.layer, p.page) }
      let s := s.setSamp q { im.loop with owner := some r.part, buf := [], zero := 0, clash := 0
                                          length := if im.loop.pin then im.loop.pinVal else im.loop.dmax }
      let w := leNat (im.entry.take 8)
      (s.updReq req fun r =>
        { r with entry := leBytes 8 (w / 2 ^ 14 * 2 ^ 14 + q) ++ im.entry.drop 8
                 tokens := im.tokens.mapIdx fun i t => (n + i, t) }).resumed q
    | _ => s.updReq req fun r => { r with state := .decode }
  | _, _ => s

/-- The resumes at the front of the cold tier's work that may be served, in order, each as a sequence is there for it (R456). `fuel`
bounds them. -/
def State.serveCold : Nat → State → State
  | 0, s => s
  | n + 1, s =>
    match s.coldQ with
    | j :: r =>
      if j.resume ∧ j.ready then
        match freshSeq s (((tget s.requests j.req).map Request.part).getD 0) with
        | some q => State.serveCold n ({ s with coldQ := r }.restoreImage j.req q)
        | none => s
      else s
    | [] => s

/-- The cold tier serves what it can. -/
def State.runCold (s : State) : State := s.serveCold s.coldQ.length

/-- A PAUSE or RESUME takes its place in the cold tier's work as the arbiter grants it (R456). -/
def State.joinCold (s : State) (req kind : Nat) : State :=
  if kind = 2 ∨ kind = 3 then { s with coldQ := s.coldQ ++ [{ req := req, resume := kind == 3, ready := false }] } else s

/-- The place of a PAUSE or RESUME that takes effect may be served; one that is refused leaves it. -/
def State.coldReady (s : State) (req : Nat) (resume : Bool) : State :=
  let j : ColdJob := { req := req, resume := resume, ready := false }
  if s.coldQ.contains j then { s with coldQ := s.coldQ.replace j { j with ready := true } }
  else { s with coldQ := s.coldQ ++ [{ j with ready := true }] }
def State.leaveCold (s : State) (req kind : Nat) : State :=
  { s with coldQ := s.coldQ.erase { req := req, resume := kind == 3, ready := false } }.runCold

/-- The last byte and the index record of the image at the front of the cold tier's work are programmed (R404, R456, R459): the image
exists and its time to live starts; the runtime closes the sequence and resets it at the sampler (R403), and the request is PAUSED
(Table 6-1). -/
def State.completeImage (s : State) (req : Nat) (im : Image) : State :=
  let s := { s with
    images := tset s.images req { im with complete := true, doneAt := now s, aged := 0 }
    coldBytes := s.coldBytes + im.bytes, coldQ := s.coldQ.drop 1 }
  let q := fld (leNat (im.entry.take 8)) 13 0
  let s := if im.words.isEmpty then s
    else match seqRec s q with
      | some r => if r.owner = im.part then s.closeSeq q r else s
      | none => s
  let s := if im.entry.isEmpty then s else s.setSamp q { SampSeq.empty with owner := some im.part }
  (s.updReq req fun r => if r.state = .decode then { r with state := .paused } else r).runCold

/-! ### Operations of clients (R361, R403 to R406, R458 to R461) -/

/-- A PAUSE reads its image: the state with the image written to the cold tier, in its turn (R403, R458, R461). The image has the size
its content takes, which the manual does not state: a free value. A read that meets an uncorrectable error is recorded, and fails the
request (R445, R448; the REPLY's status is a DESIGN CHOICE, log 32). -/
def State.pause (s : State) (req : Nat) (r : Request) (ttl : Nat) : State × Nat :=
  if ttl < 1 ∨ 604800 < ttl then (s.leaveCold req 2, Cs.badFrame)
  else if 5000 * 10 ^ 12 ≤ s.coldBytes then (s.leaveCold req 2, Cs.coldWorn)
  else
    let n := Config.imageBytes req s.free
    if coldQuota s r.part < coldUsed s (some r.part) + n ∨ 1800 * 10 ^ 9 < coldUsed s none + n then (s.leaveCold req 2, Cs.coldFull)
    else
      match (pauseReads s r).find? fun x => badRange s x.1 x.2 with
      | some x =>
        (((s.logUncorrected ((firstBad s x.1 x.2).getD 0) (some r.part)).failReq req Cs.failedFault).leaveCold req 2, Cs.failedFault)
      | none =>
        (({ s with free := s.free + 1 }.keepImage req (pauseImage s req r ttl n)).coldReady req false, Cs.ok)

/-- A RESUME ordered before the expiry: an image that cannot be read, or is of an earlier generation of the partition, is lost (R405, R457,
R460); which can be read is a free value. -/
def State.resume (s : State) (req : Nat) (r : Request) : State × Nat :=
  match tget s.images req with
  | none => (s.leaveCold req 3, Cs.imageLost)
  | some im =>
    if Config.imageReads req s.free ∧ im.gen = genOf s r.part then (({ s with free := s.free + 1 }.coldReady req true).runCold, Cs.ok)
    else (({ s with free := s.free + 1 }.freeImage req).leaveCold req 3, Cs.imageLost)

/-- A CANCEL, PAUSE or RESUME takes effect (R361, R403 to R406, R458 to R461): the state, and the status of its
REPLY. A PAUSE or RESUME in a state for which Table 6-1 has no row is refused with BAD_FRAME (DESIGN CHOICE, log 32). A CANCEL of a
request that runs marks its group at the sampler after the commands accepted before it (R366). -/
def State.clientOp (s : State) (req kind ttl : Nat) : State × Nat :=
  match tget s.requests req with
  | none => (s.leaveCold req kind, Cs.unknownReq)
  | some r =>
    match kind, r.state with
    | 1, .paused => ({ s.freeImage req with requests := tdel s.requests req }, Cs.ok)
    | 1, .ended | 1, .expired => (s, Cs.ok)
    | 1, _ =>
      ({ s.updReq req fun r => { r with cancelled := true } with cancelDue := s.cancelDue ++ [(req, s.nextSlot)] }.applyCancels, Cs.ok)
    | 2, .decode => s.pause req r ttl
    | 3, .expired => (s.leaveCold req 3, Cs.expired)
    | 3, .paused => s.resume req r
    | _, _ => (s.leaveCold req kind, Cs.badFrame)

/-- A PAUSE waits for the step boundary of its sequence (Table 6-1); an operation on a request whose image is being written or restored
waits until it is (R456, R588). -/
def opHeld (s : State) (req kind : Nat) : Bool :=
  (kind == 2 && (match (tget s.requests req).bind Request.seqId with | some q => stepOpen s q | none => false)) ||
    s.coldQ.any (fun j => j.req == req && j.ready) || s.resuming.any fun x => x.1 == req

/-- The image of a request whose time to live ends first, in the time left. -/
def nextDue (s : State) (req : Nat) : Option Image :=
  let all := ((s.oldImages.filter fun x => x.1 == req).map Prod.snd) ++ (tget s.images req).toList
  all.foldl (fun (b : Option Image) im =>
    match b with
    | some c => if im.ttl * 10 ^ 9 + c.age s < c.ttl * 10 ^ 9 + im.age s then some im else b
    | none => some im) none

/-- The time to live of an image passes: it is freed, and, where it is a paused request's, the request expires (Table 6-1, R404). The
image of a RESUME that waits for the cold tier, or is being restored, stays until that is done (R405, R456). -/
def State.expire (s : State) (req : Nat) : State :=
  match nextDue s req with
  | none => s
  | some im =>
    if s.oldImages.contains (req, im) then { s with oldImages := s.oldImages.erase (req, im) }
    else if s.coldQ.any (fun j => j.req == req && j.resume) ∨ s.resuming.any fun x => x.1 == req then s
    else
      State.updReq { s with images := tdel s.images req } req fun r => if r.state = .paused then { r with state := .expired } else r

/-- Every image whose time to live has passed freed (R409, R773). -/
def State.freeDue (s : State) : State :=
  let s := { s with oldImages := s.oldImages.filter fun x => !x.2.due s }
  ((s.images.filter fun (x : Nat × Image) => x.2.due s).map Prod.fst).foldl State.expire s

/-- The images as a COLD start begins the timebase anew: the time they lived stays with them (R404, R409). -/
def State.ageImages (s : State) : State :=
  let old (im : Image) : Image := { im with aged := im.age s, doneAt := 0 }
  { s with images := s.images.map fun (x : Nat × Image) => (x.1, old x.2)
           oldImages := s.oldImages.map fun (x : Nat × Image) => (x.1, old x.2) }

end Sys2Proof.Machine
end

