-- ==== Sys2Proof/Machine/Time.lean ====
section
/-! DEFINITION. The timebase: time sets, offset results, rate and holdover (Line Port, Timebase and Event Order). -/

namespace Sys2Proof.Machine

open Sys2Proof

/-- RATE clamped to 500 ppm either side of 10 ns (R619, Table 10-6). -/
def clampRate (r : Nat) : Nat := min (0xA00000000 + 21474836) (max (0xA00000000 - 21474836) r)

/-- What a slew still to be worked off adds to each tick of the next 1,024: RATE's fraction, or less where less is
left (R619, R620; the last part DESIGN CHOICE, log 14). -/
def slewPart (rate shift : Nat) (slew : Int) : Int :=
  let m : Int := (rate / 2 ^ shift : Nat)
  if 1024 * m ≤ slew then m else if slew ≤ -(1024 * m) then -m else Int.tdiv slew 1024

/-- The offset not yet slewed at the tick now, in 2^-32 ns (TB_SLEW_LEFT). -/
def slewLeft (s : State) : Int := s.tb.slew - s.tb.extra * (s.tb.n - s.tb.n0 : Nat)

/-- A new time set in force at the tick now: V continues, a pending step and a pending rate are applied, the slew goes
on (R616, R619, R620). -/
def State.newTimeSet (s : State) : State :=
  let v := vAt s s.tb.n + s.tb.step * 2 ^ 32
  let left := slewLeft s
  let rate := s.tb.newRate.getD s.tb.rate
  let tb := { s.tb with n0 := s.tb.n, v0 := v / 2 ^ 32 % 2 ^ 64, vSub := v % 2 ^ 32, rate := rate
                        extra := slewPart rate (slewShift s) left, slew := left, step := 0, newRate := none }
  { s with tb := tb }.setReg A.tbRate rate

/-- The next tick that is a multiple of 1,024 arrives and a new time set takes force there (R616). -/
def execTimeSetBoundary (s : State) : Out :=
  if dieOn s then ok ((s.passTicks (1024 - s.tb.n % 1024)).newTimeSet) else ok s

/-- A number as a 64-bit two's complement. -/
def toS64 (i : Int) : Nat := (i % (2 ^ 64 : Int)).toNat

/-- The integer that 64 bits in two's complement hold. -/
def ofS64 (n : Nat) : Int := if n % 2 ^ 64 < 2 ^ 63 then (n % 2 ^ 64 : Nat) else (n % 2 ^ 64 : Nat) - (2 ^ 64 : Int)

/-- STATE and SYNCED of TB_STATUS. -/
def State.setTbState (s : State) (st : Nat) : State :=
  (s.fset A.tbStatus A.tbStatus_state st).fset A.tbStatus A.tbStatus_synced (if st = 2 then 1 else 0)

/-- The timebase's state after an offset result (Table 10-3): results are counted in TRACKING only. -/
def State.tbResult (s : State) (o : Int) : State :=
  let good := if o.natAbs < 100 then s.tb.good + 1 else 0
  match s.fget A.tbStatus A.tbStatus_state with
  | 1 =>
    if good = 8 then
      ({ s with tb := { s.tb with good := 0 } }.setTbState 2).raiseM srcTb 0x0202 0
    else { s with tb := { s.tb with good := good } }
  | 2 => if 1000 ≤ o.natAbs then { s with tb := { s.tb with good := 0 } }.setTbState 1 else s
  | 0 => ({ s with tb := { s.tb with good := 0 } }.fset A.tbStatus A.tbStatus_coarse 0).setTbState 1
  | _ => { s with tb := { s.tb with good := 0 } }.setTbState 1

/-- An offset result applied: a step forward at the next time-set boundary, or a slew, and the servo's rate
(R620). -/
def State.applyOffset (s : State) (o : Int) : State :=
  let ctl := s.reg A.tbCtl
  let min := fld ctl 47 16
  let s :=
    if (min : Int) ≤ o then
      { s with tb := { s.tb with step := s.tb.step + o.toNat } }.raiseM srcTb 0x0200 o.toNat
    else { s with tb := { s.tb with slew := s.tb.slew + o * 2 ^ 32 } }
  let s :=
    if ctl.testBit 0 then
      let sum := s.tb.integ + o
      let r := clampRate (Config.servo s.tb.rate o sum (fld ctl 5 1) (fld ctl 10 6))
      { s with tb := { s.tb with integ := sum, newRate := some r } }
    else s
  let s := s.setReg A.tbLastOffset (toS64 o)
  let s := s.setReg A.tbLastSync (now s)
  { s with tb := { s.tb with lastAt := s.tb.n } }.tbResult o

/-- The 802.1AS unit hands over an offset result (R620); a standby takes none from its own ports (R698). -/
def execOffsetResult (o : Int) (s : State) : Out :=
  let s := { s with ptpIn := [] }
  if dieOn s ∧ ¬ (paired s ∧ pairSt s = 3) then ok (s.applyOffset o) else ok s

/-- TB_ADJ written by firmware: its signed value is an offset result (R620, R634). -/
def execTbAdj (who : Who) (val : Nat) (s : State) : Out :=
  if who.isFw ∧ dieOn s then ok (s.applyOffset (ofS64 val)) else ok s

/-- TB_RATE written by firmware with the servo off: clamped, and in force from the next time-set boundary (R634). -/
def execTbRate (who : Who) (val : Nat) (s : State) : Out :=
  if who.isFw ∧ ¬ s.flag A.tbCtl A.tbCtl_servoEn then
    let r := clampRate (val % 2 ^ 64)
    ok ({ s with tb := { s.tb with newRate := some r } }.setReg A.tbRate r)
  else ok s

/-- Three seconds pass without an offset result in TRACKING or LOCKED: HOLDOVER, the rate held (Table 10-3). -/
def execTbHoldover (s : State) : Out :=
  let st := s.fget A.tbStatus A.tbStatus_state
  if (st = 1 ∨ st = 2) ∧ s.tb.lastAt + 3 * tSec ≤ s.tb.n ∧ dieOn s then
    ok ((s.setTbState 3).raiseM srcTb 0x0201 0)
  else ok s

end Sys2Proof.Machine
end

