-- ==== Sys2Proof/Machine/VideoDec.lean ====
section
/-! DEFINITION. Decoding a picture: NAL units from packets, slices, the CTUs that decode, concealment of the others, and the rows
reported (R472 to R478, R503 to R508). -/

namespace Sys2Proof.Machine

open Sys2Proof

/-! ### NAL units (R476 to R478) -/

/-- The number that big-endian bytes make. -/
def beNat (bs : List Byte) : Nat := leNat bs.reverse

/-- NAL units as they come out of packets: the number of the last packet, the fragments of a unit gathered, the units done. -/
structure Depack where
  last : Option Nat
  cur  : Option (List Byte)
  out  : List (List Byte × Bool)

/-- The unit whose fragments are gathered ends, whole or not. -/
def Depack.flush (d : Depack) (whole : Bool) : Depack :=
  match d.cur with
  | none => d
  | some c => { d with cur := none, out := d.out ++ [(c, whole)] }

/-- The units of an aggregation packet, each behind its 16-bit size. `fuel` bounds them. -/
def aggregated : Nat → List Byte → List (List Byte)
  | 0, _ => []
  | f + 1, bs =>
    let n := beNat (bs.take 2)
    if bs.length < 2 ∨ n = 0 then [] else (bs.drop 2).take n :: aggregated f (bs.drop (2 + n))

/-- A fragment of a unit: it begins one with its header `hdr`, or continues it, and may end it. A fragment of which no beginning is held
is of no use. -/
def Depack.fragment (d : Depack) (hdr : List Byte) (flags : Nat) (bs : List Byte) : Depack :=
  let d := if flags.testBit 7 then { d.flush false with cur := some (hdr ++ bs) } else { d with cur := d.cur.map (· ++ bs) }
  if flags.testBit 6 then d.flush true else d

/-- One packet of RFC 6184 or RFC 7798 (R476, which names them; PRESUMED, log 103): a single NAL unit, an aggregation packet, or a
fragmentation unit. A gap in the sequence numbers cuts the unit whose fragments were gathered. -/
def Depack.packet (h264 : Bool) (d : Depack) (k : Pkt) : Depack :=
  let d := if d.last.any fun l => l + 1 != k.ext then d.flush false else d
  let d := { d with last := some k.ext }
  let b (i : Nat) : Nat := (k.bytes.getD i 0).toNat
  let add (d : Depack) (us : List (List Byte)) : Depack :=
    let d := d.flush false
    { d with out := d.out ++ us.map fun u => (u, true) }
  if h264 then
    if fld (b 0) 4 0 = 24 then add d (aggregated k.bytes.length (k.bytes.drop 1))
    else if fld (b 0) 4 0 = 28 then
      d.fragment [BitVec.ofNat 8 (b 0 / 32 * 32 + b 1 % 32)] (b 1) (k.bytes.drop 2)
    else add d [k.bytes]
  else if fld (b 0) 6 1 = 48 then add d (aggregated k.bytes.length (k.bytes.drop 2))
  else if fld (b 0) 6 1 = 49 then
    d.fragment [BitVec.ofNat 8 (b 0 / 128 * 128 + b 2 % 64 * 2 + b 0 % 2), BitVec.ofNat 8 (b 1)] (b 2) (k.bytes.drop 3)
  else add d [k.bytes]

/-- The packets of a picture in the order of their sequence numbers. -/
def byExt (ks : List Pkt) : List Pkt := ks.mergeSort fun a b => decide (a.ext ≤ b.ext)

/-- What a picture's packets hold for the decoder. -/
def picBits (h264 : Bool) (p : Pic) : PicBits :=
  { late := p.late
    nals := (((byExt p.pkts).foldl (Depack.packet h264) { last := none, cur := none, out := [] }).flush false).out }

/-- A NAL unit holds slice data: a coded slice of H.264, or a slice segment of HEVC (PRESUMED, log 103). -/
def holdsSlice (h264 : Bool) (n : List Byte) : Bool :=
  let b := (n.headD 0).toNat
  if h264 then fld b 4 0 == 1 || fld b 4 0 == 5 else decide (fld b 6 1 < 32)

/-! ### Slices and CTUs (R472, R473, R489, R503, R504, R512) -/

/-- The codec of a channel: word 0 of its record. -/
def codecH264 (codec : Nat) : Bool := codec.testBit 1

/-- A property of the latest picture of a history, whether the channel is privileged or not (R511). -/
def picField (codec : Nat) (h : List PicBits) (f : PicField) : Nat := Config.picture (plainCodec codec) h f

/-- An error that the decoder detects in a slice (R503). -/
def SliceScan.error (x : SliceScan) : Bool := x.entropy || x.range || x.short || x.past || x.absent

/-- The slice data of a picture one NAL unit after another: first CTU in decoding order, CTUs that decode, error. After an error in a
slice, and after a unit cut by lost packets, the rest of the slice is discarded: decoding resumes at the next NAL unit that begins a
slice, which a dependent slice segment does not (R504). A unit whose header the firmware missed is in error whole (R489). -/
def runSlices (codec : Nat) (h : List PicBits) (late : List Nat) : Nat → Bool → List (List Byte × Bool) → List (Nat × Nat × Bool)
  | _, _, [] => []
  | i, bad, n :: r =>
    let x := Config.decodeSlice (plainCodec codec) h n.1 n.2
    let follows := !codecH264 codec && Config.dependent (plainCodec codec) h n.1
    if follows && bad then runSlices codec h late (i + 1) true r
    else if late.contains i then (x.first, 0, false) :: runSlices codec h late (i + 1) true r
    else (x.first, x.decoded, x.error) :: runSlices codec h late (i + 1) (x.error || !n.2) r

/-- The slice data of a picture's NAL units. -/
def sliceNals (codec : Nat) (p : PicBits) : List (List Byte × Bool) := p.nals.filter fun n => holdsSlice (codecH264 codec) n.1

/-- The slices of the latest picture of a history. -/
def sliceRuns (codec : Nat) (h : List PicBits) : List (Nat × Nat × Bool) :=
  match h with
  | [] => []
  | p :: _ => runSlices codec h p.late 0 false (sliceNals codec p)

/-- Slices in which a syntax error was found (R503, VD_STREAM_ERR). -/
def syntaxErrors (codec : Nat) (h : List PicBits) : Nat := ((sliceRuns codec h).filter fun r => r.2.2).length

/-- The latest picture is of a profile and level that the decoder accepts, at 4:2:0: HEVC Main, Main 10 and Main Still Picture up to level
5.1 in either tier; H.264 Constrained Baseline, Main and High up to level 5.2 (R472; the codes of the standards are PRESUMED, log 103). -/
def accepted (codec : Nat) (h : List PicBits) : Bool :=
  let f := picField codec h
  f .chroma == 1 &&
    if codecH264 codec then
      ((f .profile == 66 && f .constrained == 1) || f .profile == 77 || f .profile == 100) && decide (f .level ≤ 52)
    else decide (1 ≤ f .profile ∧ f .profile ≤ 3 ∧ f .level ≤ 153)

/-- The latest picture uses what the decoder does not support, and is not decoded (R472, R473, R512). -/
def unsupported (codec : Nat) (h : List PicBits) : Bool :=
  let f := picField codec h
  !accepted codec h ||
    (if codecH264 codec then [PicField.fieldPicture, .mbaff, .paff, .aso, .fmo].any fun x => f x != 0 else f .fieldSeq != 0) ||
    (codec.testBit 2 && f .longTerm != 0)

/-- A CTU of the latest picture, by its raster place, decodes. -/
def ctuDecoded (codec : Nat) (h : List PicBits) (ctu : Nat) : Bool :=
  !unsupported codec h && (sliceRuns codec h).any fun r =>
    (List.range r.2.1).any fun i => Config.ctuPlace (plainCodec codec) h (r.1 + i) == ctu

/-- CTU columns and rows of the latest picture, and the size of a CTU. -/
def ctuSize (codec : Nat) (h : List PicBits) : Nat := 2 ^ picField codec h .ctuLog2
def ctuCols (codec : Nat) (h : List PicBits) : Nat := ceilDiv (picField codec h .width) (ctuSize codec h)
def ctuRows (codec : Nat) (h : List PicBits) : Nat := ceilDiv (picField codec h .height) (ctuSize codec h)

/-! ### Concealment (R505) -/

/-- The vector that a concealed CTU takes: that of the nearest CTU above it in its column that decodes, or zero. -/
def borrowedVector (codec : Nat) (h : List PicBits) (ctu : Nat) (chroma : Bool) : Int × Int :=
  let cols := ctuCols codec h
  match ((List.range (ctu / max 1 cols)).map fun k => ctu - cols * (k + 1)).find? (ctuDecoded codec h) with
  | some c => Config.ctuVector (plainCodec codec) h c chroma
  | none => (0, 0)

/-- A coordinate moved by a vector and held inside a picture, as the standards pad reference pictures (PRESUMED, log 103). -/
def movedTo (size x : Nat) (d : Int) : Nat := min (size - 1) ((x : Int) + d).toNat

/-- A sample of the latest picture, before cropping: decoded, or copied with the borrowed vector from the first picture of reference list
0, from the picture decoded last for an intra picture, or mid-grey where no picture was decoded (R505). Where the decoder began again,
the picture decoded last is of the run before. `fuel` bounds the pictures. -/
def sampleAt (codec : Nat) (deep : Bool) : Nat → List PicBits → List (List PicBits) → (plane row col : Nat) → Nat
  | 0, _, _, _, _, _ => if deep then 512 else 128
  | _, [], [], _, _, _ => if deep then 512 else 128
  | f + 1, [], run :: before, plane, row, col => sampleAt codec deep f run before plane row col
  | f + 1, p :: older, prior, plane, row, col =>
    let h := p :: older
    let sub := if plane = 0 then 1 else 2
    let size := ctuSize codec h
    let ctu := row * sub / size * ctuCols codec h + col * sub / size
    if ctuDecoded codec h ctu then Config.sample (plainCodec codec) h plane row col
    else
      let back := if picField codec h .intra ≠ 0 then 0 else picField codec h .ref0
      let v := borrowedVector codec h ctu (plane != 0)
      sampleAt codec deep f (older.drop back) prior plane (movedTo (ceilDiv (picField codec h .height) sub) row v.1)
        (movedTo (ceilDiv (picField codec h .width) sub) col v.2)

/-! ### Reported rows (R506) -/

/-- The rows of its references that a CTU of the latest picture reads: none where it, or the whole picture, is intra-coded. -/
def rowsRead (codec : Nat) (h : List PicBits) (ctu : Nat) : List (Nat × Nat) :=
  if picField codec h .intra ≠ 0 ∨ picField codec h .irap ≠ 0 ∨ Config.ctuIntra (plainCodec codec) h ctu then []
  else Config.ctuReads (plainCodec codec) h ctu

/-- CTU row `r` of the latest picture is reported: it holds a concealed CTU, or an inter-predicted CTU of it reads samples of a reported
row of its reference. -/
def rowReported (codec : Nat) : Nat → List PicBits → Nat → Bool
  | 0, _, _ => false
  | _, [], _ => false
  | f + 1, p :: older, r =>
    let h := p :: older
    let cols := ctuCols codec h
    (List.range cols).any fun i =>
      let ctu := r * cols + i
      !ctuDecoded codec h ctu || (rowsRead codec h ctu).any fun x => rowReported codec f (older.drop x.1) x.2

/-- ROW_MAP: bit r for each reported CTU row (Table 8-5). -/
def rowMap (codec : Nat) (h : List PicBits) : Nat :=
  ((List.range (min 256 (ctuRows codec h))).map fun r => if rowReported codec (h.length + 1) h r then 2 ^ r else 0).sum

end Sys2Proof.Machine
end

