-- ==== Sys2Proof/Machine/VideoOps.lean ====
section
/-! DEFINITION. Video channels and their pictures: channel records, packet rings, pictures as tiles, encoded packets
(Video Decode and Encode). -/

namespace Sys2Proof.Machine

open Sys2Proof

/-! ### Channels (R470, R480) -/

/-- Bits `hi:lo` of word `w` of a channel's record. -/
def VChan.wd (c : VChan) (w hi lo : Nat) : Nat := fld (c.recWords.getD w 0) hi lo

def VChan.width (c : VChan) : Nat := c.wd 0 14 3 + 1
def VChan.height (c : VChan) : Nat := c.wd 0 26 15 + 1
def VChan.fps (c : VChan) : Nat := c.wd 0 33 27

/-- The cost of a stream in CTU-equivalents per second (R470). -/
def ctuCost (w h f : Nat) : Nat := (w + 63) / 64 * ((h + 63) / 64) * f

/-- The open channels of a VD that satisfy a test. -/
def chansOf (s : State) (vd : Nat) (f : VChan → Bool) : List VChan :=
  (s.vchans.map Prod.snd).filter fun c => c.vd == vd && f c

/-- A tracked command is a VDEC or VENC of a channel. -/
def chanCmd (c : VChan) (t : Tracked) : Bool :=
  t.op == (if c.encode then 0x6A else 0x69) && t.logical == 54 + c.vd && unitOf t == (if c.encode then 41 else 1) + c.chan

/-- A channel has a tracked VDEC or VENC (R529), and one runs (Table 8-9). -/
def chanBusy (s : State) (c : VChan) : Bool := s.tracked.any (chanCmd c)
def chanRuns (s : State) (c : VChan) : Bool := s.tracked.any fun t => t.phase == .running && chanCmd c t

/-! ### The packet ring (R490 to R494) -/

def ringAddr (c : VChan) : Nat := c.wd 3 47 0
def ringSlots (c : VChan) : Nat := 2 ^ c.wd 3 52 48

/-- The extended sequence number of a 16-bit one, nearest to the highest seen. -/
def extendSeq (highest : Option Nat) (q : Nat) : Nat :=
  match highest with
  | none => 2 ^ 16 + q
  | some h =>
    let d := (q + 2 ^ 16 - h % 2 ^ 16) % 2 ^ 16
    if d < 2 ^ 15 then h + d else h + d - 2 ^ 16

/-- The payload of an RTP packet: CSRC list, header extension and padding removed (R492). -/
def rtpPayload (bs : List Byte) : List Byte :=
  let b0 := (bs.headD 0).toNat
  let off := 12 + 4 * fld b0 3 0
  let off := if b0.testBit 4 then off + 4 + 4 * beNat ((bs.drop (off + 2)).take 2) else off
  let pad := if b0.testBit 5 then (bs.getLastD 0).toNat else 0
  (bs.take (bs.length - pad)).drop off

/-- A payload of a kind that the decoder drops: interleaved modes of H.264, PACI of HEVC and what carries DONL or DOND (R477, R478). -/
def badPayload (h264 : Bool) (p : List Byte) : Bool :=
  let b := (p.headD 0).toNat
  if h264 then fld b 4 0 == 25 || fld b 4 0 == 26 || fld b 4 0 == 27 || fld b 4 0 == 29
  else fld b 6 1 == 50 || Config.carriesDon p

/-- A packet joins a decode channel (R492, R493): dropped and counted for its version, payload type or SSRC, which no register shows
(DESIGN CHOICE, log 117); for its kind; for being more than 64 behind; or for a picture already complete, by its sequence number or its
timestamp. -/
def State.addPacket (s : State) (c : VChan) (arrival : Nat) (bs : List Byte) : State :=
  let b1 := (bs.getD 1 0).toNat
  let ssrc := beNat ((bs.drop 8).take 4)
  let want : Bool := match c.ssrc with | some x => x == ssrc | none => true
  if fld (bs.headD 0).toNat 7 6 ≠ 2 ∨ fld b1 6 0 ≠ c.wd 4 38 32 ∨ ¬ want then s.setChan { c with foreign := c.foreign + 1 }
  else
    let p := rtpPayload bs
    let ext := extendSeq c.highest (beNat ((bs.drop 2).take 2))
    let high := max ext (c.highest.getD ext)
    let ts := beNat ((bs.drop 4).take 4)
    let old : Bool := (match c.lastDone with | some d => decide (ext ≤ d) | none => false) || c.doneTs.contains ts
    if badPayload ((c.wd 0 1 1) == 1) p then s.bump (A.vdStreamErr c.vd) A.vdStreamErr_unsupported 1
    else if ext + 64 < high ∨ old then s.bump (A.vdLateDrop c.vd) A.vdLateDrop_packets 1
    else if c.pkts.any (fun k => k.ext == ext) then s
    else
      let k : Pkt := { ext := ext, ts := ts, arrival := arrival, marker := b1.testBit 7, bytes := p }
      s.setChan { c with ssrc := some ssrc, highest := some high, pkts := c.pkts ++ [k] }

/-- The packet of a decode channel with the lowest extended sequence number. -/
def firstPkt (c : VChan) : Option Pkt :=
  c.pkts.foldl (fun b k => match b with | none => some k | some m => if k.ext < m.ext then some k else some m) none

/-- Every sequence number between two is held. -/
def unbroken (c : VChan) (lo hi : Nat) : Bool :=
  (List.range (hi + 1 - lo)).all fun i => c.pkts.any fun k => k.ext == lo + i

/-- The last extended sequence number of the next picture, when it is complete, and whether the jitter window and not
its marker completed it (R494). -/
def pictureEnd (s : State) (c : VChan) : Option (Nat × Bool) :=
  match firstPkt c with
  | none => none
  | some f =>
    let same := c.pkts.filter fun k => k.ts == f.ts
    let start := match c.lastDone with | some d => d + 1 | none => f.ext
    match same.find? fun k => k.marker && unbroken c start k.ext with
    | some m => some (m.ext, false)
    | none =>
      let first := (same.map Pkt.arrival).foldl min f.arrival
      if first + c.wd 4 55 40 * 1000 ≤ now s then some ((same.map Pkt.ext).foldl max 0, true) else none

/-- A picture of given packets leaves the ring side of its channel: it waits to be decoded, and the sequence numbers
missing in it count as lost. -/
def State.closePicture (s : State) (c : VChan) (last : Nat) (jitter : Bool) (included : List Pkt) : State :=
  let start := match c.lastDone with | some d => d + 1 | none => lowest (included.map Pkt.ext)
  let lost := (last + 1 - start) - included.length
  let head := included.headD { ext := 0, ts := 0, arrival := 0, marker := false, bytes := [] }
  let pic : Pic := { ts := head.ts, arrival := (included.map Pkt.arrival).foldl min head.arrival, pkts := included,
                     lost := lost, first := lowest (included.map Pkt.ext), byJitter := jitter, at_ := s.tb.n, late := [] }
  (s.setChan { c with lastDone := some last, doneTs := (head.ts :: c.doneTs).take 64, pkts := c.pkts.filter fun k => decide (last < k.ext), ready := c.ready ++ [pic] }).bump
    (A.vdLateDrop c.vd) A.vdLateDrop_lost lost

/-! ### Pictures as tiles (R498 to R502) -/

/-- A sample reduced to 8 bits (R498). -/
def to8 (deep : Bool) (v : Nat) : Nat := if deep then min ((v + 2) / 4) 255 else min v 255

/-- The FP16 pattern of an integer below 2^11, which is exact (R498). -/
def fp16OfNat (n : Nat) : Nat :=
  if n = 0 then 0 else let e := Nat.log2 n; (15 + e) * 2 ^ 10 + (n * 2 ^ 10 / 2 ^ e) % 2 ^ 10

/-- The tiles of a plane picture in the order of R498: rows, bytes per row, and where tile `k` lies: its band, luma or
chroma, and its first byte. `size` is the bytes of a sample. -/
def planeShape (w h size k : Nat) : Nat × Nat × Nat × Bool × Nat :=
  let strips := (w * size + 255) / 256
  let b := k / (2 * strips)
  let r := k % (2 * strips)
  let luma := decide (r < strips)
  let col := (r % strips) * 256
  let rows := min 64 (h - 64 * b)
  (if luma then rows else (rows + 1) / 2, min 256 (w * size - col), b, luma, col)

/-- The number of tiles of a plane picture. -/
def planeTiles (w h size : Nat) : Nat := (h + 63) / 64 * (2 * ((w * size + 255) / 256))

/-- A byte of a plane picture at a byte column and a row of the luma or of the interleaved chroma plane. -/
def planeByte (smp : Nat → Nat → Nat → Nat) (deep : Bool) (size : Nat) (luma : Bool) (row col : Nat) : Byte :=
  let i := col / size
  let v := if luma then smp 0 row i else smp (1 + i % 2) row (i / 2)
  if size = 1 then BitVec.ofNat 8 (to8 deep v) else BitVec.ofNat 8 (fp16OfNat v / 256 ^ (col % 2))

/-- A value clipped to 0 to 255, after the shift of R499. -/
def clip8 (x : Int) : Byte := BitVec.ofNat 8 (max 0 (min 255 (x / 256))).toNat

/-- The R, G, B bytes of a pixel (R499). -/
def rgbOf (m601 : Bool) (y cb cr : Nat) : List Byte :=
  let y : Int := (y : Int) - 16
  let u : Int := (cb : Int) - 128
  let v : Int := (cr : Int) - 128
  if m601 then [clip8 (298 * y + 409 * v + 128), clip8 (298 * y - 100 * u - 208 * v + 128), clip8 (298 * y + 516 * u + 128)]
  else [clip8 (298 * y + 459 * v + 128), clip8 (298 * y - 55 * u - 136 * v + 128), clip8 (298 * y + 541 * u + 128)]

/-- A decoded picture, as the latest of a history of a codec; `prior` are the runs before the decoder last began again. -/
structure PicRef where
  codec   : Nat
  history : List PicBits
  prior   : List (List PicBits)

def PicRef.get (p : PicRef) (field : PicField) : Nat := picField p.codec p.history field

/-- The pictures that concealment may go back through. -/
def PicRef.depth (p : PicRef) : Nat := p.history.length + p.prior.length + (p.prior.map List.length).sum + 1

/-- A sample of a picture after cropping: plane 0 luma, 1 Cb, 2 Cr (R500, R505). -/
def PicRef.sample (p : PicRef) (plane row col : Nat) : Nat :=
  let sub := if plane = 0 then 1 else 2
  sampleAt p.codec (p.get .deep != 0) p.depth p.history p.prior plane (row + p.get .cropTop / sub) (col + p.get .cropLeft / sub)

/-- Some row of a range, counted after cropping, overlaps a CTU row reported concealed (R507). -/
def PicRef.reported (p : PicRef) (row n : Nat) : Bool :=
  let h := ctuSize p.codec p.history
  let lo := (row + p.get .cropTop) / h
  let hi := (row + n - 1 + p.get .cropTop) / h
  (List.range (hi + 1 - lo)).any fun i => rowReported p.codec (p.history.length + 1) p.history (lo + i)

/-- The number of tiles of a picture in an output mode. -/
def PicRef.tiles (p : PicRef) (mode : Nat) : Nat :=
  if mode ≤ 1 then planeTiles (p.get .outWidth) (p.get .outHeight) (if mode = 0 then 1 else 2)
  else p.get .outHeight * ((p.get .outWidth + 127) / 128)

/-- Tile `k` of a picture in an output mode (R498 to R500, R507). -/
def PicRef.tile (p : PicRef) (mode k : Nat) (last : Bool) : Tile :=
  let smp := p.sample
  let deep := p.get .deep != 0
  let w := p.get .outWidth
  if mode ≤ 1 then
    let size := if mode = 0 then 1 else 2
    let (rows, bytes, band, luma, col) := planeShape w (p.get .outHeight) size k
    let top := band * (if luma then 64 else 32)
    let payload := (List.range rows).flatMap fun r => (List.range bytes).map fun c =>
      planeByte smp deep size luma (top + r) (col + c)
    { mkTile (if mode = 0 then 0x01 else 0x0C) rows bytes last payload with
        tent := p.reported (64 * band) (min 64 (p.get .outHeight - 64 * band)) }
  else
    let segs := (w + 127) / 128
    let y := k / segs
    let x0 := (k % segs) * 128
    let n := min 128 (w - x0)
    let m601 := mode == 3 || (mode == 4 && (p.get .matrix == 5 || p.get .matrix == 6))
    let payload := (List.range n).flatMap fun i =>
      rgbOf m601 (to8 deep (smp 0 y (x0 + i))) (to8 deep (smp 1 (y / 2) ((x0 + i) / 2))) (to8 deep (smp 2 (y / 2) ((x0 + i) / 2)))
    { mkTile 0x01 n 3 last payload with tent := p.reported y 1 }

/-- The record of a decoded picture (Table 8-5). -/
def PicRef.record (p : PicRef) (num : Nat) (m : Pic) (last : Bool) : Tile :=
  let bit (b : Bool) (i : Nat) : Nat := if b then 2 ^ i else 0
  let rows := rowMap p.codec p.history
  let w2 := bit (p.get .irap != 0) 0 + bit (rows != 0) 1 + bit (unsupported p.codec p.history) 2 +
    bit (syntaxErrors p.codec p.history != 0) 3 + bit (m.lost != 0) 4 + bit (!m.late.isEmpty) 5 + (p.get .ctuLog2 % 8) * 2 ^ 8 +
    (ctuRows p.codec p.history % 256) * 2 ^ 16
  let w3 := m.pkts.length % 2 ^ 16 + (m.lost % 2 ^ 16) * 2 ^ 16 + (m.first % 2 ^ 32) * 2 ^ 32
  mkTile 0x01 1 64 last (leBytes 8 (m.ts + (num % 2 ^ 32) * 2 ^ 32) ++ leBytes 8 m.arrival ++ leBytes 8 w2 ++ leBytes 8 w3 ++
    leBytes 32 rows)

/-! ### Encoded packets (R516 to R519) -/

/-- An RTP packet of an encode channel (R476, R518). -/
def rtpPacket (c : VChan) (seq ts : Nat) (marker : Bool) (payload : List Byte) : List Byte :=
  [0x80, BitVec.ofNat 8 (c.wd 4 38 32 + (if marker then 128 else 0))] ++ beBytes 2 seq ++ beBytes 4 ts ++
    beBytes 4 (c.wd 4 31 0) ++ payload

/-- A packet as OUT0 carries it (R516). -/
def packetWord (bs : List Byte) (endSlice endPic : Bool) : List Byte :=
  leBytes 8 (bs.length + (if endSlice then 2 ^ 16 else 0) + (if endPic then 2 ^ 17 else 0)) ++ bs ++
    List.replicate ((8 - bs.length % 8) % 8) 0

/-- Packets gathered into tiles of whole packets, each of at most 32 KiB (R516): greedy, in order. -/
def packTiles : List (List Byte) → List Byte → List (List Byte)
  | [], cur => if cur.isEmpty then [] else [cur]
  | p :: r, cur =>
    if cur.isEmpty ∨ cur.length + p.length ≤ 32768 then packTiles r (cur ++ p) else cur :: packTiles r p

/-- The tile of 256-byte rows that a list of bytes fills, padded with zeros. -/
def rowTile (last : Bool) (bs : List Byte) : Tile :=
  let rows := max 1 ((bs.length + 255) / 256)
  mkTile 0x01 rows 256 last (bs ++ List.replicate (rows * 256 - bs.length) 0)

/-- The QP of the next picture, and whether the rate control clashed with its bounds (R521, R522). -/
def nextQp (c : VChan) (idr : Bool) (bits : Nat) : Nat × Bool :=
  let qmin := c.wd 6 5 0
  let qmax := max qmin (c.wd 6 13 8)
  if c.wd 6 24 24 = 1 then (c.wd 6 21 16, false)
  else
    let t := c.wd 5 31 0 * 1000 * (if idr then 4 else 1)
    let b := bits * c.fps
    let want : Int := if 2 * t < b then c.qp + 2 else if 5 * t < 4 * b then c.qp + 1
      else if 5 * b < 4 * t then (c.qp : Int) - 1 else c.qp
    let qp := min (max want qmin) qmax
    (qp.toNat, qp != want)

end Sys2Proof.Machine
end

