-- ==== Sys2Proof/Machine/PairOps.lean ====
section
/-! DEFINITION. The shared operations of a pair: taking, holding and leaving the lease, LEASE frames, falling out of step,
joining (Active and Standby Pairs). -/

namespace Sys2Proof.Machine

open Sys2Proof

/-- The lease in reference ticks (R701), its renewal interval (R703) and the guard of a takeover (R707). -/
abbrev leaseTicks : Nat := 200000
abbrev renewTicks : Nat := 50000
abbrev guardTicks : Nat := 10000

/-- The pair state, with DEGRADED (Table 12-7). -/
def State.pairTo (s : State) (st : Nat) : State :=
  (s.fset A.pairStatus A.pairStatus_state st).fset A.pairStatus A.pairStatus_degraded (if st = 5 then 1 else 0)

/-- STATE of a partition. -/
def partState (s : State) (p : Nat) : Nat := s.fget (A.gnPartCtl p) A.gnPartCtl_state

/-- Step 1 of a teardown, the stop (R809): the partition's queue pairs go to the error state; what its commands become is decided at
step 4 (R810). -/
def State.beginTeardown (s : State) (p : Nat) : State :=
  if partValid s p = false ∨ partState s p ≠ 1 then s
  else
    let a := A.gnPartCtl p
    let s := ((s.fset a A.gnPartCtl_teardown 1).fset a A.gnPartCtl_state 2).fset a A.gnPartCtl_fencedStragglers 0
    { s with
      teardowns := s.teardowns ++ [Teardown.mk p s.tb.n 0]
      qps := s.qps.map fun (x : Nat × QPair) => if x.2.part = p then (x.1, { x.2 with state := 2, ops := [] }) else x }

/-- The teardowns among what a module of a pair has still to do. -/
def tearsOf (ws : List PairWork) : List Nat := ws.filterMap fun w => match w with | .teardown p => some p | .decided _ => none

/-- A module of a pair that no longer answers: LINE_ACK at 0 and LINE_Q at the default, where the Selvage does not hold the group (R606). -/
def State.lineStill (s : State) : State :=
  if ¬ paired s ∨ (s.fget A.thimbleSelvage A.thimbleSelvage_held).testBit 0 then s
  else { s with pins := { s.pins with lineQ := s.fget A.lineDefault A.lineDefault_q, lineAck := false } }

/-- A join that ends before its module stands by: the state that it copied is discarded (Table 12-1); memory and images keep what was
written (log 38). -/
def State.dropJoin (s : State) : State :=
  if s.fget A.pairStatus A.pairStatus_joinPhase = 0 then s
  else { s with requests := [], sessions := s.sessions.filter fun (x : Nat × Session) => x.2.mgmt, qps := [], samp := [], bobbin := [], vchans := [] }

/-- A module that leaves for WAITING counts its time without LEASE from there. Nothing waits for a step or a record any more. -/
def State.toWaiting (s : State) : State :=
  let s := ((tearsOf s.pair.work).foldl State.beginTeardown s).lineStill
  { (s.pairTo 1).fset A.pairStatus A.pairStatus_leaseHeld 0 with
    pair := { s.pair with noLeaseSince := s.tb.n, releaseAt := none, swapping := false, joinAsked := false, work := [], held := [], idrDue := [] } }

/-- CAUSE of PAIR_STATUS, and PAIR_OUT_OF_STEP where asked (Tables 12-6, 12-7). -/
def State.outOfStep (s : State) (cause : Nat) : State :=
  (s.fset A.pairStatus A.pairStatus_cause cause).raiseM 58 0x0644 cause

/-- A standby leaves STANDBY for WAITING (Table 12-1). -/
def State.leaveStandby (s : State) (cause : Nat) : State :=
  if paired s ∧ pairSt s = 3 then s.toWaiting.outOfStep cause else s

/-- Requests that waited for a confirmation that will not come are accepted with DEGRADED (R575). -/
def State.acceptHeld (s : State) (upTo : Option Nat) : State :=
  let due := (s.requests.filter fun (x : Nat × Request) =>
    x.2.state == .held && (match upTo with | some n => decide (x.2.journal ≤ n) | none => true)).map Prod.fst
  due.foldl (fun s r =>
    (if upTo.isNone then s.updReq r fun q => { q with degraded := true } else s).acceptReq r) s

/-! ### Records at the standby (R574, R692, R699) -/

/-- A session record of the active's journal, or of a join (R572, R574): one that is opened again keeps its results here as it does there,
and its queue pair follows the same numbers (R562). -/
def State.takeSession (s : State) (num : Nat) (ss : Session) (qp : Option QPair) : State :=
  let ss := match tget s.sessions num with
    | some old => { ss with nextRes := max ss.nextRes old.nextRes, acked := max ss.acked old.acked, retained := old.retained }
    | none => ss
  { s with
      sessions := tset s.sessions num { ss with written := ss.acked }, nextSess := max s.nextSess (num + 1)
      qps := match qp with | some q => tset s.qps ss.qpn q | none => s.qps }

/-- One journal write applied to the standby's journal (R574). -/
def State.applyWrite (s : State) : JournalWrite → State
  | .request req r => { s with requests := tset s.requests req { r with state := .prefill, journal := 0 }, nextReq := max s.nextReq (req + 1) }
  | .free req => { s with requests := tdel s.requests req }
  | .acked session n => s.raiseAck session n
  | .session num ss qp => s.takeSession num ss qp
  | .answer num seq r =>
    match tget s.sessions num with
    | some ss => { s with sessions := tset s.sessions num { ss with answers := tset ss.answers seq r, txSeq := max ss.txSeq r.seq } }
    | none => s
  | .closed num status =>
    match tget s.sessions num with
    | some ss => { s with sessions := tset s.sessions num { ss with closed := true, closeStatus := status } }
    | none => s
  | .seen num seq =>
    match tget s.sessions num with
    | some ss => { s with sessions := tset s.sessions num { ss with seen := seqPut ss.seen seq } }
    | none => s
  | .teardown p => { s with pair := { s.pair with work := s.pair.work ++ [.teardown p] } }

/-- A picture of a DECISION whose packets are all held closes as the active closed it (R494, R699). -/
def State.closeNamed (s : State) (vd chan : Nat) (seqs : List Nat) : State :=
  match vchan? s vd chan false with
  | none => s
  | some c => s.closePicture c (seqs.foldl max 0) true (c.pkts.filter fun k => seqs.contains k.ext)

/-- The included packets of a picture that a channel lacks. -/
def lackedPkts (s : State) (vd chan : Nat) (seqs : List Nat) : List Nat :=
  match vchan? s vd chan false with
  | none => []
  | some c => seqs.filter fun q => !(c.pkts.any fun k => k.ext == q)

/-- An abort's outcome of a DECISION: the command ends with ABORTED where the result says so (R99, R633), and an abort that
waits here has its result. -/
def State.abortNamed (s : State) (part seq result : Nat) : State :=
  let s := if s.abort = some (part, seq) then s.abortResult part seq result else s
  match s.tracked.find? fun t => t.part == part && t.desc.cmdSeq == seq with
  | some t => if result = 2 then s.finish t.slot St.aborted Det.none else s
  | none => s

/-- One outcome applied by the standby as the active decided it (R692). -/
def State.applyOutcome (s : State) : Outcome2 → State
  | .step => s
  | .join req => { s with pair := { s.pair with stepReqs := s.pair.stepReqs.filter (· ≠ req) ++ [req] } }
  | .leave req => { s with pair := { s.pair with stepReqs := s.pair.stepReqs.filter (· ≠ req) } }
  | .clientOp req kind ttl => (s.clientOp req kind ttl).1
  | .ttlExpired req => s.expire req
  | .acked session n => s.ackTo session n
  | .retainOvf session => s.overflow session
  | .abort part seq result => s.abortNamed part seq result
  | .groupCancel part group => { s with cancelled := s.cancelled ++ [(part, group)] }
  | .keypic vd chan _ =>
    match vchan? s vd chan true with
    | some c => s.setChan { c with idrNext := true }
    | none => s
  | .picture vd chan first seqs =>
    let need := lackedPkts s vd chan seqs
    if need.isEmpty then s.closeNamed vd chan seqs
    else
      { s with pair := { s.pair with
          fetching := s.pair.fetching ++ need.map fun q => (vd, chan, q)
          waiting := s.pair.waiting ++ [(vd, chan, first, seqs)] } }.pairSend 0x15 (.pair 0x15 ([vd, chan] ++ need))

/-! ### Steps (R692, R693, R717, R812) -/

/-- The module acts in a pair's steps: it holds the lease, or it follows the holder. -/
def inStep (s : State) : Bool := paired s && (pairSt s == 4 || pairSt s == 5 || follows s)

/-- A step is in progress: a command has no granted COMPLETION (DEDUCED, log 105). -/
def stepBusy (s : State) : Bool := s.tracked.any fun t => !t.granted

/-- An outcome that waits: an operation of a client, for the step boundary or for its request's image (Table 6-1, R456). -/
def outcomeWaits (s : State) : Outcome2 → Bool
  | .clientOp req kind _ => opHeld s req kind
  | _ => false

/-- The requests of a step: each that is in prefill, or in decode with no image being written (DESIGN CHOICE, log 105). -/
def stepRequests (s : State) : List Nat :=
  (s.requests.filter fun (x : Nat × Request) =>
    x.2.state == .prefill || (x.2.state == .decode && !s.coldQ.any fun j => j.req == x.1 && j.ready)).map Prod.fst

/-- The DECISION of a step that begins: the requests that join and leave it. -/
def State.decideStep (s : State) : State :=
  let new := stepRequests s
  let old := s.pair.stepReqs
  { s with pair := { s.pair with stepReqs := new } }.recordDecision
    (((new.filter fun r => !old.contains r).map Outcome2.join) ++ ((old.filter fun r => !new.contains r).map Outcome2.leave) ++ [Outcome2.step])

/-- The next thing that a module of a pair does, if it is due. Outcomes and teardowns keep their order among the steps; a step that was
submitted begins with its DECISION, or where the module decides itself and neither a swap nor a teardown holds it back. -/
def State.pairNext (s : State) : Option State :=
  match s.pair.work, s.pair.held with
  | .teardown p :: r, _ =>
    if stepBusy s then none else some (({ s with pair := { s.pair with work := r } }.mirror [.teardown p]).beginTeardown p)
  | .decided .step :: _, [] => none
  | .decided .step :: r, _ :: h => some { s with pair := { s.pair with work := r, held := h } }
  | .decided o :: r, _ => if outcomeWaits s o then none else some ({ s with pair := { s.pair with work := r } }.applyOutcome o)
  | [], _ :: h => if follows s ∨ s.pair.swapping then none else some { s with pair := { s.pair with held := h } }.decideStep
  | [], [] => none

/-- All that is due, in its order; each thing done shortens what is left. -/
def State.runPairFor : Nat → State → State
  | 0, s => s
  | n + 1, s => match s.pairNext with | some t => t.runPairFor n | none => s
def State.runPair (s : State) : State := s.runPairFor (s.pair.work.length + s.pair.held.length)

/-! ### Operations of clients in their order (R456, R588, Table 6-1) -/

/-- A client's operation takes effect and is answered (R588). -/
def State.doClientOp (s : State) (o : ClientOp) : State :=
  let (s, st) := s.clientOp o.req o.kind o.ttl
  (s.recordDecision [.clientOp o.req o.kind o.ttl]).respond o.port o.session o.seq (mkResp 0x0D st [])

/-- The operations granted and waiting, those of one request in their order, as far as they can take effect now; and what the cold tier
can serve. -/
def State.runDue (s : State) : State :=
  let s := s.runCold
  (s.duePauses.foldl (fun (a : State × List ClientOp) o =>
    if opHeld a.1 o.req o.kind ∨ a.2.any (fun x => x.req == o.req) then (a.1, a.2 ++ [o])
    else ({ a.1 with duePauses := a.1.duePauses.erase o }.doClientOp o, a.2)) (s, [])).1

/-- LOOM_SQ_TAIL written: the doorbell (R82), which submits a step where the module is in a pair (log 105). In DOZE it also wakes the
module (R761). -/
def execLoomSqTail (who : Who) (q tail : Nat) (s : State) : Out :=
  if mayUseQueue s who q then
    let old := s.fget (A.loomSqTail q) A.loomSqTail_tail % 2 ^ sqLog2 s q
    let s := s.fset (A.loomSqTail q) A.loomSqTail_tail tail
    let s := if inStep s ∧ tail % 2 ^ 16 % 2 ^ sqLog2 s q ≠ old then
        { s with pair := { s.pair with held := s.pair.held ++ [(q, old)] } }.runPair
      else s
    ok (s.dozeWake 12)
  else ok s

/-- An active whose partner leaves STANDBY goes to SOLO: what waited for the standby leaves (Table 12-1, R690). -/
def State.toSolo (s : State) (cause : Nat) : State :=
  let s := (s.pairTo 5).outOfStep cause
  let s := { s with pair := { s.pair with joinAsked := false, swapping := false } }.fset A.pairStatus A.pairStatus_joinPhase 0
  (s.acceptHeld none).releaseHeld.runPair

/-- What the pair does when its link leaves UP (Table 12-1). -/
def State.pairLinkLost (s : State) (j : Nat) : State :=
  if paired s ∧ pairLink s = some j then
    match pairSt s with
    | 2 => s.dropJoin.toWaiting
    | 3 => s.leaveStandby 4
    | 4 => s.toSolo 4
    | 5 => { s with pair := { s.pair with joinAsked := false } }.fset A.pairStatus A.pairStatus_joinPhase 0
    | _ => s
  else s

/-- The content of a LEASE at the tick now: epoch, remaining lease, V, last DECISION, RELEASE (Table 12-2). -/
def leaseWords (s : State) (rel : Bool) : List Nat :=
  [s.reg A.pairEpoch, s.pair.ownUntil - s.tb.n, now s, s.pair.decisionSent, if rel then 1 else 0]

/-- LEASE on the pair link and PAIR_LEASE from the management port (R704, R705). -/
def State.sendLease (s : State) (rel : Bool) : State :=
  let n := s.pair.mleaseSeq + 1
  let b : PairLeaseBody :=
    { serial := s.serial, epoch := s.reg A.pairEpoch, left := s.pair.ownUntil - s.tb.n, time := now s,
      decision := s.pair.decisionSent, release := rel, tag := [] }
  let b := { b with tag := leaseTag s (s.pair.partnerSerial.getD 0) (leaseHdr n) b }
  let s := s.pairSend 0x10 (.pair 0x10 (leaseWords s rel))
  { s with pair := { s.pair with mleaseSeq := n } }.emit (.pairLease n b)

/-- The lease taken at the next epoch, with what the new holder does in the output gap (R709, R711): the announcement on
both ports, transmission enabled, result rings resumed at the acknowledged sequence, and RDMA packets not acknowledged
sent again (R562); requests that still wait for a confirmation are accepted (R575). `cause` 0 expiry, 1 swap, 2 RELEASE. -/
def State.takeLease (s : State) (epoch st cause : Nat) : State :=
  let s := s.setReg A.pairEpoch (epoch % 2 ^ 32)
  let s := (s.pairTo st).fset A.pairStatus A.pairStatus_leaseHeld 1
  let s := { s with
    pair := { s.pair with ownUntil := s.tb.n + leaseTicks, renewAt := s.tb.n + renewTicks, releaseAt := none,
                          higher := false, lapsedHere := false, joinAsked := false }
    sessions := s.sessions.map fun (x : Nat × Session) => (x.1, { x.2 with written := x.2.acked }) }
  let s := s.fset A.pairStatus A.pairStatus_joinPhase 0
  let s := s.bump A.pairCounts (if cause = 1 then A.pairCounts_swaps else A.pairCounts_takeovers) 1
  let s := s.raiseM 58 0x0640 (epoch % 2 ^ 32 + cause * 2 ^ 32)
  let s := ((s.emit (.announce 0)).emit (.announce 1)).acceptHeld none
  ((s.qps.filter fun (x : Nat × QPair) => x.2.state == 1).foldl (fun s x => s.resend x.1 x.2.acked) s).runPair

/-- On entering the safe state the holder stops emitting and sends LEASE with RELEASE on both paths (R708). -/
def State.releaseLease (s : State) : State :=
  if paired s ∧ s.flag A.pairStatus A.pairStatus_leaseHeld then
    (s.sendLease true).lineStill.fset A.pairStatus A.pairStatus_leaseHeld 0
  else s

/-! ### Receiving a lease (R698, R706 to R709) -/

/-- The digest of this module's settings that a join compares: every field but the management address, and of field 4
only EN (R686). -/
def settingsDigest (s : State) : Nat :=
  Config.settingsDigest (((((s.store.inForce.map SettingsRec.fields).getD []).filter fun f => f.1 != 7).map fun f =>
    if f.1 = 4 then (4, f.2 % 2) else f))

/-- The major version of the active image (R905). -/
def imageMajor (s : State) : Nat := ((s.store.active.map fun i => fld i.hdr.version 31 24)).getD 0

/-- JOIN_CTL of a phase, with the settings digest and the image's major version. -/
def State.sendJoinCtl (s : State) (phase : Nat) : State :=
  s.pairSend 0x18 (.pair 0x18 [phase, settingsDigest s, imageMajor s])

/-- A LEASE of an epoch, of the partner of a serial number, received on the pair link or, accepted under R706, on the
management port. -/
def State.gotLease (s : State) (serial epoch : Nat) (release : Bool) (viaLink : Bool) (o : Int) : State :=
  if ¬ paired s ∨ s.store.starting.isSome then s
  else
    let own := s.reg A.pairEpoch
    let holds := pairSt s == 4 || pairSt s == 5
    if holds ∧ (epoch < own ∨ (epoch = own ∧ serial < s.serial)) then s
    else
      let s := if own < epoch then (s.setReg A.pairEpoch (epoch % 2 ^ 32)).raiseM 58 0x0645 (epoch % 2 ^ 32) else s
      let s := if holds then { s.toWaiting with pair := { s.toWaiting.pair with higher := true } } else s
      let s := if pairSt s = 0 then s.toWaiting else s
      let s := { s with pair := { s.pair with
        partnerUntil := s.tb.n + leaseTicks, noLeaseSince := s.tb.n,
        releaseAt := if release ∧ pairSt s = 3 then some (s.tb.n + guardTicks) else s.pair.releaseAt } }
      if viaLink ∧ pairSt s = 3 then s.applyOffset o
      else if viaLink ∧ pairSt s = 1 ∧ ¬ release then
        ((s.pairTo 2).fset A.pairStatus A.pairStatus_joinPhase 0).sendJoinCtl 0
      else s

/-- PAIR_LEASE received (R706): accepted only on the management port, from the partner's serial, with a tag that
verifies, above the last one accepted; every other is dropped and counted. -/
def State.gotPairLease (s : State) (port : Nat) (h : CtlHdr) (b : PairLeaseBody) : State :=
  let above := match s.pair.lastMlease with
    | none => true
    | some (e, q) => decide (e < b.epoch) || (b.epoch == e && decide (q < h.frameSeq))
  if (port == 2) && (s.pair.partnerSerial == some b.serial) && (b.tag == leaseTag s b.serial h b) && above then
    ({ s with pair := { s.pair with lastMlease := some (b.epoch, h.frameSeq) } }).gotLease b.serial b.epoch b.release false 0
  else s.bump A.pairMleaseDrop A.pairMleaseDrop_count 1

/-! ### Roles swapped (R717 to R719) -/

/-- A swap completes once the standby has confirmed every record: SWAP at epoch + 1, and the old active stands by. -/
def State.trySwap (s : State) : State :=
  if s.pair.swapping ∧ pairSt s = 4 ∧ s.pair.decisionSent ≤ s.pair.decisionDone then
    let e := s.reg A.pairEpoch + 1
    let s := (s.setReg A.pairEpoch (e % 2 ^ 32)).pairSend 0x19 (.pair 0x19 [e])
    let s := (s.lineStill.pairTo 3).fset A.pairStatus A.pairStatus_leaseHeld 0
    let s := (s.fset A.pairCtl A.pairCtl_swapReq 0).bump A.pairCounts A.pairCounts_swaps 1
    { s with pair := { s.pair with swapping := false, partnerUntil := s.tb.n + leaseTicks, releaseAt := none } }
  else s

/-- A swap begins, or is refused with NOT_IN_STEP where the pair is not in ACTIVE and STANDBY (R718). -/
def State.beginSwap (s : State) : State :=
  if pairSt s = 4 ∧ paired s then
    ({ s with pair := { s.pair with swapping := true } }.fset A.pairCtl A.pairCtl_swapReq 1).trySwap
  else (s.fset A.pairStatus A.pairStatus_cause 7).fset A.pairCtl A.pairCtl_swapReq 0

/-! ### Joining (R715) -/

/-- JOIN_DATA of one item. -/
def State.sendItem (s : State) (i : JoinItem) : State := s.pairSend 0x17 (.joinData i)

/-- The 64-byte lines of memory with a listed byte that satisfy a test, as join items. -/
def memItems (s : State) (f : Nat → Bool) : List JoinItem :=
  (((s.mem.map fun c => c.1 / 64).eraseDups).filter f).map fun l => JoinItem.memory (l * 64) (readBytes s (l * 64) 64)

/-- A register of the LEDGER or the SP. -/
def joinReg (a : Nat) : Bool :=
  decide ((0x30004400000 ≤ a ∧ a < 0x30004500000) ∨ (0x30003C00000 ≤ a ∧ a < 0x30003D00000))

/-- LEDGER, SP and VD channel state, journal and sessions as join items (R691, Table 12-4). -/
def stateItems (s : State) : List JoinItem :=
  ((s.regs.filter fun r => joinReg r.1).map fun r => JoinItem.register r.1 r.2.toNat) ++ s.bobbin.map JoinItem.bobbin ++
    s.samp.map (fun x => JoinItem.sequence x.1 x.2) ++ s.vchans.map (fun x => JoinItem.channel x.1 x.2) ++
    (s.oldImages ++ s.images).map (fun x => JoinItem.image x.1 x.2) ++ s.requests.map (fun x => JoinItem.request x.1 x.2) ++
    s.sessions.map (fun x => JoinItem.session x.1 x.2 (if x.2.mgmt then none else tget s.qps x.2.qpn))

/-- The dirty pieces copied, as one pass. -/
def State.copyDirty (s : State) : State :=
  let ps := s.pair.dirty
  let s := { s with pair := { s.pair with dirty := [], passes := s.pair.passes + 1 } }
  (memItems s fun l => ps.contains (l / 64)).foldl State.sendItem s

/-- The dirty data is within JOIN_FINAL_MIB, or 8 passes are done. -/
def lastPass (s : State) : Bool :=
  decide (s.pair.dirty.length * 4096 ≤ s.fget A.pairCtl A.pairCtl_joinFinalMib * 2 ^ 20 ∨ 8 ≤ s.pair.passes)

/-- A join phase begun at the serving side. -/
def State.joinPhase (s : State) (k : Nat) : State := (s.fset A.pairStatus A.pairStatus_joinPhase k).sendJoinCtl k

/-- The serving side takes a JOIN_CTL of its partner, which has received all of a phase (Table 12-4; who tells whom that
a phase ends is DESIGN CHOICE, log 38). Phase 0 asks for a join: one that differs in settings or in image major is
refused; from a partner thought in step it says that it left STANDBY. Phase 5 says that the join is complete. -/
def State.serveJoin (s : State) (phase digest major : Nat) : State :=
  let s := if phase = 0 ∧ pairSt s = 4 then s.toSolo 4 else s
  if pairSt s ≠ 5 then s
  else
    let at_ := s.fget A.pairStatus A.pairStatus_joinPhase
    if phase = 0 then
      if digest ≠ settingsDigest s ∨ major ≠ imageMajor s then
        ({ s with pair := { s.pair with joinAsked := false } }.fset A.pairStatus A.pairStatus_cause 2).sendJoinCtl 6
      else
        let s := { s with pair := { s.pair with joinAsked := true, dirty := [], passes := 0 } }
        let s := (memItems s fun _ => true).foldl State.sendItem s
        ((s.oldImages ++ s.images).foldl (fun s x => s.sendItem (.image x.1 x.2)) s).joinPhase 1
    else if ¬ s.pair.joinAsked ∨ phase < at_ then s
    else if phase ≤ 2 then
      if lastPass s then
        if s.tracked.isEmpty then
          let s := s.copyDirty
          let s := { s with pair := { s.pair with stepReqs := [] } }
          ((stateItems s).foldl State.sendItem s).joinPhase 3
        else s.joinPhase 2
      else s.copyDirty.joinPhase 2
    else if phase = 3 then
      let s := (s.vchans.filter fun (x : Nat × VChan) => x.2.encode).foldl
        (fun s x => s.raiseP (54 + x.2.vd) 0x0020 x.2.owner x.2.chan none) s
      s.joinPhase 4
    else if phase = 5 then
      { s.pairTo 4 with pair := { s.pair with
          joinAsked := false, journalDone := s.pair.journalSent, decisionDone := s.pair.decisionSent, decisions := [] } }
    else s

/-- Every open decode channel has passed an IRAP picture here, and every encode channel an IDR picture (Table 12-4). -/
def channelsReady (s : State) : Bool :=
  s.vchans.all fun (x : Nat × VChan) => if x.2.encode then !s.pair.idrDue.contains x.1 else !x.2.waitIrap

/-- The joining side takes a JOIN_CTL: it follows the phases and answers each; in CHANNELS it waits for its
channels, and then stands by, with PAIR_IN_STEP (Table 12-1). Phase 6 refuses the join, with CAUSE = SETTINGS. -/
def State.followJoin (s : State) (phase : Nat) : State :=
  if phase = 6 then (s.toWaiting).fset A.pairStatus A.pairStatus_cause 2
  else
    let s := s.fset A.pairStatus A.pairStatus_joinPhase phase
    let s := if phase = 3 then { s with pair := { s.pair with stepReqs := [] } } else s
    if phase < 4 then s.sendJoinCtl phase
    else if channelsReady s then
      let s := (s.pairTo 3).raiseM 58 0x0643 (s.pair.partnerSerial.getD 0)
      { s with pair := { s.pair with copied := true } }.sendJoinCtl 5
    else s

/-- An image copied in a join: written to this module's cold tier, under its own key and with the wear of the write (R457, R461); one that
is there already stays as it is. The image of a later pause comes after those of earlier ones (R458). -/
def State.takeImage (s : State) (req : Nat) (im : Image) : State :=
  let im := { im with gen := genOf s im.part }
  let same (x : Image) : Bool := { x with complete := im.complete, doneAt := im.doneAt, aged := im.aged } == im
  if s.oldImages.any fun x => x.1 == req && same x.2 then s
  else if (tget s.images req).any same then { s with images := tset s.images req im }
  else { s with coldBytes := s.coldBytes + im.bytes }.keepImage req im

/-- JOIN_DATA written by the joining side. -/
def State.takeItem (s : State) : JoinItem → State
  | .memory a bs => s.writeBytes a bs
  | .register a v => if joinReg a then s.setReg a v else s
  | .bobbin e =>
    { s with bobbin := (s.bobbin.filter fun (x : BobEntry) => !(x.seq == e.seq && x.layer == e.layer && x.pos == e.pos)) ++ [e] }
  | .sequence n q => { s with samp := tset s.samp n q }
  | .channel k c =>
    { s with
        vchans := tset s.vchans k { c with waitIrap := !c.encode }
        pair := if c.encode then { s.pair with idrDue := s.pair.idrDue.filter (· != k) ++ [k] } else s.pair }
  | .image r im => s.takeImage r im
  | .request r q => { s with requests := tset s.requests r q, nextReq := max s.nextReq (r + 1) }
  | .session n ss qp => { s with sessions := tdel s.sessions n }.takeSession n ss qp

end Sys2Proof.Machine
end

