-- ==== Sys2Proof/Machine/FaultOps.lean ====
section
/-! DEFINITION. The fault collector's shared operations: sources, levels, reactions, fencing, the safe state, the start of a
hang dump (Fault Collection, Fencing and In-Service Test; R866 to R870). -/

namespace Sys2Proof.Machine

open Sys2Proof

/-! ### Sources (Table 16-1) -/

/-- The physical engine of a source. -/
def srcEngine (src : Nat) : Option Nat :=
  if src < 32 then some src
  else if src < 64 then some (src - 32)
  else if src < 80 then some (src - 32)
  else if src < 96 then some (src - 48)
  else none

/-- The station that a source names; none for the links, the routers and the blocks (R824). -/
def srcStation (src : Nat) : Option Nat :=
  match srcEngine src with
  | some e => some e
  | none =>
    if 112 ≤ src ∧ src < 116 then some (48 + (src - 112))
    else if src = 116 ∨ src = 117 then some (52 + (src - 116))
    else if 118 ≤ src ∧ src < 122 then some (54 + src % 2)
    else if 122 ≤ src ∧ src < 126 then some (56 + src % 2)
    else if src = 134 ∨ src = 135 then some (58 + (src - 134))
    else if src = 136 then some 60
    else none

/-- The source takes its level from FC_SEV (Table 16-1). -/
def severitySource (src : Nat) : Bool :=
  decide ((32 ≤ src ∧ src < 64) ∨ (80 ≤ src ∧ src < 96) ∨ src = 116 ∨ src = 117 ∨ src = 120 ∨ src = 121 ∨ src = 124 ∨
    src = 125 ∨ (134 ≤ src ∧ src ≤ 136) ∨ (148 ≤ src ∧ src ≤ 159))

/-- The level of a classified report: 0 LOG, 1 CONTAIN, 2 FENCE, 3 FATAL (Table 16-3; R533 is latched as CONTAIN, DEDUCED, log 78). None where
the table gives none. -/
def classLevel (src cls : Nat) : Option Nat :=
  let pick (a b c : Option Nat) : Option Nat := if cls = 1 then a else if cls = 2 then b else if cls = 3 then c else none
  if src < 32 ∨ (64 ≤ src ∧ src < 80) then pick (some 0) (some 2) none
  else if 96 ≤ src ∧ src < 116 then pick (some 0) (some 0) (some 3)
  else if src = 118 ∨ src = 119 then pick (some 0) (some 1) none
  else if src = 122 ∨ src = 123 ∨ (126 ≤ src ∧ src < 134) then pick (some 0) (some 0) none
  else if 137 ≤ src ∧ src ≤ 139 then pick none none (some 3)
  else if 140 ≤ src ∧ src < 148 then pick (some 0) (some 0) (some 3)
  else none

/-- The level of a report (R820, R821). -/
def reportLevel (s : State) (src cls : Nat) : Option Nat :=
  if severitySource src then some (fld (s.reg (A.fcSev (src / 32))) (2 * (src % 32) + 1) (2 * (src % 32)))
  else classLevel src cls

/-! ### FAULT_N and DEGRADED (R829, R834) -/

/-- The Selvage holds a group of pads (Table 14-5). -/
def heldGroup (s : State) (i : Nat) : Bool := (s.fget A.thimbleSelvage A.thimbleSelvage_held).testBit i

/-- FAULT_N and DEGRADED after a change of what they show. -/
def State.faultSummary (s : State) : State :=
  let high := (List.range 8).any fun k => (List.range 32).any fun i => decide (2 ≤ fld (s.reg (A.fcLevel k)) (2 * i + 1) (2 * i))
  let low := high || s.reg A.fcRetired != 0 || safe s
  let deg := s.reg A.loomFenced != 0 || s.reg A.fcRetired != 0
  let s := s.fset A.fcSummary A.fcSummary_faultNLow (if low then 1 else 0)
  { s.fset A.fcSummary A.fcSummary_degraded (if deg then 1 else 0) with
    pins := { s.pins with faultN := if heldGroup s 1 then s.pins.faultN else !low } }

/-! ### The stop of a hang dump (R866 to R870) -/

/-- A dump trigger: the stop tick chosen 200 ticks on, or, where TB itself is the fatal source, the die stopped at once
(R868, R870). One while a dump runs is ignored (R867). A DOZE first begins its exit. -/
def State.triggerDump (s : State) (trig src : Nat) : State :=
  if s.frozen ∨ s.stopAt.isSome then s
  else
    let s := if s.thimble.state = .doze then
      { s with thimble := { s.thimble with state := .dozeExit } } else s
    let s := s.fset A.dbgDumpStatus A.dbgDumpStatus_trigger trig
    let n := if src = 149 then s.tb.n else s.tb.n + 200
    { s with stopAt := some n }.setReg A.dbgStopTick n

/-! ### The safe state (R830 to R833) -/

/-- SAFE, its cause and source, SAFE_N low, the Line Port's outputs at their default (R830, Table 16-4). -/
def State.safeOutputs (s : State) (cause src : Nat) : State :=
  let s := ((s.fset A.fcSummary A.fcSummary_safe 1).fset A.fcSummary A.fcSummary_safeCause cause).fset
    A.fcSummary A.fcSummary_safeSrc src
  let q := if heldGroup s 0 then 0 else s.fget A.lineDefault A.lineDefault_q
  { s with pins := { s.pins with safeN := heldGroup s 1 && s.pins.safeN, lineQ := q, lineAck := false } }

/-- The safe state entered: the lease released, the outputs, OP0 granted, and the global stop where it is asked (R830,
R831, R866). `trig` is the dump trigger. -/
def State.enterSafe (s : State) (cause src trig : Nat) : State :=
  if safe s = true then (if trig = 1 then s else s.triggerDump trig src)
  else
    let s := s.releaseLease.safeOutputs cause src
    let s := ((s.raiseM 62 0x0306 (cause + src * 256)).fset A.pmOp A.pmOp_granted 0).faultSummary
    if s.flag A.fcCtl A.fcCtl_dumpOnSafe = true ∨ trig ≠ 1 then s.triggerDump trig src else s

/-! ### Reactions (R820 to R825) -/

/-- CONTAIN of a station: its running and staged commands end (Table 16-2). -/
def State.containStation (s : State) (st : Nat) : State := s.contain (cmdsOn s st)

/-- An uncorrectable error of a VD's data path: every running VDEC and VENC of it ends, one that still has tiles to send among them (R105,
R533). -/
def State.containVideo (s : State) (st : Nat) : State :=
  s.contain ((s.tracked.filter fun t => t.inHand && t.phase != .staged && t.place.map Prod.fst == some st &&
    (t.op == 0x69 || t.op == 0x6A)).map Tracked.slot)

/-- An engine retired: FC_RETIRED and RETIRE with its reason, 1 a test failure, 2 repeats (R825). -/
def State.retireEngine (s : State) (st reason : Nat) : State :=
  let s := s.setReg A.fcRetired (s.reg A.fcRetired ||| 2 ^ st)
  (s.raiseM 62 0x0303 (st + reason * 256)).faultSummary

/-- The FENCE reports of an engine within FC_REPEAT.WINDOW_S. -/
def repeatsOf (s : State) (st : Nat) : Nat :=
  (s.repeats.filter fun r => r.1 == st && decide (s.tb.n ≤ r.2 + s.fget A.fcRepeat A.fcRepeat_windowS * tSec)).length

/-- FENCE of an engine (R822, R825, R828): one that is out already has no further reaction, and its test fails. -/
def State.fenceReport (s : State) (src st : Nat) : State :=
  let out := engineOut s st
  let s := { s with repeats := s.repeats ++ [(st, s.tb.n)] }
  if out then s
  else
    let s := s.raiseM 62 0x0301 (src + st * 256)
    let m := s.fget A.fcRepeat A.fcRepeat_max
    if m ≠ 0 ∧ m ≤ repeatsOf s st then (s.fenceEngine st false).retireEngine st 2
    else (s.fenceEngine st true).faultSummary

/-- FENCE of another station (R823): its commands end and it gets a UNIT reset. -/
def State.fenceStation (s : State) (src st : Nat) : State :=
  if s.resets.any fun r => r.station == st then s
  else
    let s := (s.raiseM 62 0x0301 (src + st * 256)).containStation st
    { s with resets := s.resets ++ [{ station := st, test := false }] }

/-- A report latched: status, level, counts, first record, FAULT event, FAULT_N (R817, R820, Tables 16-6 and 16-8). -/
def State.latchReport (s : State) (src cls bits level : Nat) : State :=
  let s := s.setReg (A.fcStatus (src / 64)) (s.reg (A.fcStatus (src / 64)) ||| 2 ^ (src % 64))
  let f := (2 * (src % 32) + 1, 2 * (src % 32))
  let s := s.raiseTo (A.fcLevel (src / 32)) f level
  let s := match level with
    | 0 => s.bump A.fcCount A.fcCount_logged 1
    | 1 => s.bump A.fcCount A.fcCount_contained 1
    | 2 => s.bump A.fcCount A.fcCount_fenced 1
    | _ => s
  let s := if 1 ≤ level ∧ ¬ s.flag A.fcFirst A.fcFirst_valid then s.setReg A.fcFirst (src + level * 256 + 2 ^ 15) else s
  (s.raiseM 62 0x0300 (src + level * 256 + cls * 1024 + bits % 65536 * 65536)).faultSummary

/-- A report of an engine under test makes the test fail (R828). -/
def State.failTest (s : State) (src : Nat) : State :=
  { s with test := s.test.map fun (t : TestRun) =>
      if srcEngine src = some t.station ∧ t.started then { t with failed := true } else t }

/-- What the collector does with a report (R820 to R828): latched, and its level's reaction. A report that the tables give
no level has no effect (DESIGN CHOICE, log 68). -/
def State.reportFault (s : State) (src cls bits : Nat) : State :=
  match reportLevel s src cls with
  | none => s
  | some level =>
    let s := (s.latchReport src cls bits level).failTest src
    let s := if 1 ≤ level ∨ 2 ≤ cls then s.leaveStandby 5 else s
    if safe s then s
    else
      match level, srcStation src with
      | 0, _ => s
      | 1, some st => if severitySource src then s.containStation st else s.containVideo st
      | 2, some st => if st < 48 then s.fenceReport src st else s.fenceStation src st
      | _, _ => s.enterSafe 1 src 1

end Sys2Proof.Machine
end

