-- ==== Sys2Proof/Machine/Faults.lean ====
section
/-! DEFINITION. The commands of the fault collector: reports, the safe state, UNIT resets, in-service tests (Fault
Collection, Fencing and In-Service Test). -/

namespace Sys2Proof.Machine

open Sys2Proof

/-! ### Reports -/

/-- The collector runs: the die domains are on and the die is not stopped (Table 14-1, R869). -/
def collectorOn (s : State) : Bool := dieOn s && !s.frozen

/-- The sticky error bits of a unit that reports (R818), and an engine's count of corrected ECC errors (Table 2-19). A report from one
of the model's own error pins has set them. -/
def State.stickyBits (s : State) (src cls bits : Nat) : State :=
  let or (s : State) (a m : Nat) : State := s.setReg a (s.reg a ||| (bits % m))
  match srcEngine src with
  | some e =>
    let s := or s (A.ceErrStatus e) 64
    if cls = 1 ∧ (bits.testBit 0 ∨ bits.testBit 5) then s.bump (A.ceErrCount e) A.ceErrCount_corrected 1 else s
  | none =>
    if 96 ≤ src ∧ src < 112 then or s (A.lodeErrStatus (src - 96)) 64
    else if 112 ≤ src ∧ src < 116 then or s (A.cmErrStatus (src - 112)) 64
    else if 118 ≤ src ∧ src < 120 then or s (A.vdErrStatus (src - 118)) 8
    else s

/-- The collector latches an error report and applies its level's reaction (R817 to R828). -/
def execFaultReport (source cls bits : Nat) (s : State) : Out :=
  if ¬ collectorOn s then ok s
  else
    let own := s.reports.contains (source, cls, bits)
    let s := { s with reports := s.reports.erase (source, cls, bits) }
    let s := if own then s else s.stickyBits source cls bits
    if source = 160 then ok (s.enterSafe 2 160 1)
    else ok (s.reportFault source cls bits)

/-- FC_CTL.SAFE_REQ written 1 by firmware (R830). -/
def execSafeReq (who : Who) (s : State) : Out :=
  if who.isFw ∧ collectorOn s then ok ((s.fset A.fcCtl A.fcCtl_safeReq 1).enterSafe 3 0 1) else ok s

/-- The direct path drives SAFE_N (R832). -/
def execCollectorFault (s : State) : Out := if collectorOn s then ok (s.enterSafe 2 160 1) else ok s

/-- FC_INJECT written by firmware in factory mode (R840). -/
def execFcInject (who : Who) (val : Nat) (s : State) : Out :=
  if who.isFw ∧ s.flag A.gnStatus A.gnStatus_factoryMode ∧ collectorOn s then
    let src := fld val 7 0
    ok (if src = 160 then s.enterSafe 2 160 1 else s.reportFault src (fld val 9 8) 0)
  else ok s

/-- FC_STATUS_k written by firmware: the bits written 1 are cleared, with their levels (R843). -/
def execFcStatus (who : Who) (k val : Nat) (s : State) : Out :=
  if ¬ (who.isFw ∧ k < 4) then ok s
  else
    let gone := (List.range 64).filter fun i => (s.reg (A.fcStatus k) &&& val).testBit i
    let s := s.setReg (A.fcStatus k) (s.reg (A.fcStatus k) - (s.reg (A.fcStatus k) &&& val % 2 ^ 64))
    let s := gone.foldl (fun s i =>
      let n := 64 * k + i
      s.fset (A.fcLevel (n / 32)) (2 * (n % 32) + 1, 2 * (n % 32)) 0) s
    ok s.faultSummary

/-! ### UNIT resets and re-admission (R822, R823, R446) -/

/-- An engine is readmitted: its fence and test bits fall, its logical engine comes back (R35, R822). -/
def State.readmit (s : State) (st : Nat) : State :=
  let clear (s : State) (a : Nat) : State := s.setReg a (s.reg a - (s.reg a &&& 2 ^ st))
  let s := clear (clear s A.loomFenced) A.loomTesting
  let s := (s.fset (A.ceStatus st) A.ceStatus_fenced 0).fset (A.ceStatus st) A.ceStatus_testing 0
  ((s.remapBack st).raiseM 62 0x0302 st).faultSummary

/-- An in-service test begins: BUSY, UNIT, TEST_START (Tables 16-6 and 16-8). -/
def State.beginTest (s : State) (st : Nat) (requested : Bool) : State :=
  let s := { s with test := some { station := st, requested := requested, started := true, at_ := s.tb.n, failed := false } }
  let s := s.setReg A.loomTesting (s.reg A.loomTesting ||| 2 ^ st)
  let s := s.fset (A.ceStatus st) A.ceStatus_testing 1
  let s := ((s.fset A.fcTestStatus A.fcTestStatus_busy 1).fset A.fcTestStatus A.fcTestStatus_unit st).fset
    A.fcSummary A.fcSummary_testBusy 1
  s.raiseM 62 0x0304 (st + if requested then 256 else 0)

/-- The data path of a station that is no engine after its UNIT reset: its queues and buffers empty, control registers and
ownership kept (R823). -/
def State.resetDataPath (s : State) (st : Nat) : State :=
  if st = 60 then
    { s with samp := s.samp.map fun (x : Nat × SampSeq) =>
        (x.1, { x.2 with buf := [], dmin := 0, dmax := 0, pin := false, pinVal := 0, length := 0, zero := 0, clash := 0 }) }
  else if st = 54 ∨ st = 55 then
    { s with vchans := s.vchans.map fun (x : Nat × VChan) =>
        if x.2.vd = st - 54 then (x.1, { x.2 with pkts := [], ready := [], waitIrap := !x.2.encode, idrNext := x.2.encode, band := [], slice := 0, bits := 0 })
        else x }
  else if st = 56 ∨ st = 57 then
    let port := st - 56
    { s with
        shuttles := s.shuttles.map fun x => if x.1 / 8 = port then (x.1, []) else x
        inbox := s.inbox.filter fun x => x.1 != port
        rdmaIn := s.rdmaIn.filter fun x => x.1 != port
        cnpIn := s.cnpIn.filter (· != port)
        ptpIn := s.ptpIn.filter fun x => x.1 != port }
  else if st = 58 ∨ st = 59 then
    { s with landings := s.landings.filter fun l => ((s.cmd? l.slot).map Tracked.station) != some st }
  else s

/-- A station's UNIT reset completes: an engine is readmitted, tested, or stays retired; another station is readmitted
(R822, R823). One engine is tested at a time: a reset that a test follows completes when no test runs. -/
def execUnitResetDone (st : Nat) (s : State) : Out :=
  match s.resets.find? fun r => r.station == st with
  | none => ok s
  | some r =>
    if r.test ∧ s.test.isSome then ok s
    else
      let s := { s with resets := s.resets.filter fun r => r.station != st }
      if 48 ≤ st then ok ((s.resetDataPath st).raiseM 62 0x0302 st)
      else if (s.reg A.fcRetired).testBit st then ok s.faultSummary
      else if r.test then ok (s.beginTest st false)
      else ok (s.readmit st)

/-! ### In-service tests (R835 to R838) -/

/-- The in-service engines of a class other than one. -/
def othersIn (s : State) (st : Nat) : Nat :=
  let base := if st < 32 then 0 else 32
  let n := if st < 32 then 32 else 16
  (((List.range n).map (base + ·)).filter fun e => e != st && !engineOut s e).length

/-- The engine's partition has no other engine of the class to take its logical engines (R792), and it has held a command
within the last 1 ms. -/
def engineNeeded (s : State) (st : Nat) : Bool :=
  let s' := s.setReg A.loomTesting (s.reg A.loomTesting ||| 2 ^ st)
  let held := !(cmdsOn s st).isEmpty || (match tget s.busyAt st with | some n => decide (s.tb.n < n + tMs) | none => false)
  held && (logicalsOn s st).any fun l => (engineOwner s l).isSome && (pickEngine s' l).isNone

/-- The collector passes over an engine (R837). -/
def passOver (s : State) (st : Nat) : Bool := decide (othersIn s st < 2) || engineNeeded s st

/-- A test of an engine requested: the Loom stops dispatching to it (R836). -/
def State.askTest (s : State) (st : Nat) (requested : Bool) : State :=
  let s := { s with test := some { station := st, requested := requested, started := false, at_ := s.tb.n, failed := false } }
  s.setReg A.loomTesting (s.reg A.loomTesting ||| 2 ^ st)

/-- The time between two engines' tests: 48 of them in PERIOD_H hours. -/
def testGap (s : State) : Nat :=
  let h := s.fget A.fcTestCtl A.fcTestCtl_periodH
  min 168 (max 1 h) * 3600 * tSec / 48

/-- The periodic test timer selects the next engine (R837). `testNext` is the next engine in order and, times 64, one more
than an engine that was passed over and is tried after the next one's test (DESIGN CHOICE for more than one, log 69). -/
def execTestSchedule (s : State) : Out :=
  if ¬ (s.flag A.fcTestCtl A.fcTestCtl_en ∧ s.test.isNone ∧ collectorOn s ∧ safe s = false ∧ s.testAt ≤ s.tb.n ∧
      s.thimble.state = .run) then ok s
  else
    let e := s.testNext % 64
    let r := s.testNext / 64
    let at_ := s.tb.n + testGap s
    let able (x : Nat) : Bool := !engineOut s x && !passOver s x
    if r ≠ 0 ∧ able (r - 1) then ok { s.askTest (r - 1) false with testNext := e, testAt := at_ }
    else
      let next := (e + 1) % 48
      if engineOut s e then ok { s with testNext := next + r * 64, testAt := at_ }
      else if able e then ok { s.askTest e false with testNext := next + r * 64, testAt := at_ }
      else if able next then ok { s.askTest next false with testNext := (next + 1) % 48 + (e + 1) * 64, testAt := at_ }
      else ok { s with testNext := next + (e + 1) * 64, testAt := at_ }

/-- FC_TEST_REQ written by firmware (R838). -/
def execFcTestReq (who : Who) (unit : Nat) (s : State) : Out :=
  if ¬ (who.isFw ∧ collectorOn s) then ok s
  else if s.test.isSome ∨ 48 ≤ unit ∨ (s.reg A.loomFenced).testBit unit ∨ (s.reg A.fcRetired).testBit unit then
    ok (s.fset A.fcTestStatus A.fcTestStatus_refused 1)
  else ok (s.askTest unit true)

/-- An output tile is in progress on an engine: its kernel holds an output handle. Every other command forms an output tile within one
step (DEDUCED, log 107). -/
def tileOpen (s : State) (st : Nat) : Bool :=
  match tget s.facets st with
  | some u => u.handles.any fun h => match h.2 with | .outTile _ _ => true | .inTile _ _ => false
  | none => false

/-- The engine's output tile completes: its commands move away by replay, and the test begins (R106, R836). -/
def execTestStart (s : State) : Out :=
  match s.test with
  | none => ok s
  | some t =>
    if t.started ∨ ¬ collectorOn s ∨ safe s ∨ tileOpen s t.station then ok s
    else ok ((s.moveAway t.station).beginTest t.station t.requested)

/-- A test completes: the engine is readmitted, or retired (R822, R825, R828). -/
def execTestDone (pass : Bool) (s : State) : Out :=
  match s.test with
  | none => ok s
  | some t =>
    if ¬ t.started ∨ ¬ collectorOn s then ok s
    else
      let good := pass && !t.failed
      let st := t.station
      let s := { s with test := none }
      let a := A.fcTestStatus
      let s := ((s.fset a A.fcTestStatus_busy 0).fset a A.fcTestStatus_lastUnit st).fset a A.fcTestStatus_lastResult
        (if good then 1 else 2)
      let s := (s.bump a A.fcTestStatus_tests 1).fset A.fcSummary A.fcSummary_testBusy 0
      let s := s.raiseM 62 0x0305 (st + (if good then 256 else 512))
      if good then ok (s.readmit st)
      else
        let s := s.setReg A.loomTesting (s.reg A.loomTesting - (s.reg A.loomTesting &&& 2 ^ st))
        let s := s.setReg A.loomFenced (s.reg A.loomFenced ||| 2 ^ st)
        let s := (s.fset (A.ceStatus st) A.ceStatus_fenced 1).fset (A.ceStatus st) A.ceStatus_testing 0
        ok (s.retireEngine st 1)

end Sys2Proof.Machine
end

