-- ==== Sys2Proof/Machine/Power.lean ====
section
/-! DEFINITION. The power manager: phases, operating points, caps, droop, thermal limits (Operating Points, Capping and
Thermal Limits). -/

namespace Sys2Proof.Machine

open Sys2Proof

/-- The power manager runs: in every state of Table 14-1 with the die on. -/
def pmOn (s : State) : Bool := dieOn s && !s.power.tripped

/-! ### Operating points (Table 13-1) -/

/-- Full-load power of a point in 0.1 W, and its array clock in MHz. -/
def pmBudget (s : State) (k : Nat) : Nat := s.fget (A.pmOpTable k) A.pmOpTable_budgetDw
def pmFreq (s : State) (k : Nat) : Nat := s.fget (A.pmOpTable k) A.pmOpTable_freqMhz

/-! ### Phases (R727 to R730, R756) -/

/-- The phase code of a station; a code above 4 acts as IDLE. -/
def phaseOf (s : State) (st : Nat) : Nat :=
  let c := fld (s.reg (A.pmStationPhase (st / 16))) (4 * (st % 16) + 2) (4 * (st % 16))
  if 4 < c then 0 else c

/-- The stations that declare a phase. -/
def phaseStations (s : State) (n : Nat) : List Nat := (List.range 61).filter fun st => phaseOf s st == n

/-- FLOOR, CEIL and the preferred point of a phase (R729). -/
def phaseFloor (s : State) (n : Nat) : Nat := s.fget (A.pmPhase n) A.pmPhase_floor
def phaseCeil (s : State) (n : Nat) : Nat := max (phaseFloor s n) (s.fget (A.pmPhase n) A.pmPhase_ceil)
def phasePref (s : State) (n : Nat) : Nat := min (phaseCeil s n) (max (phaseFloor s n) (s.fget (A.pmPhase n) A.pmPhase_pref))

/-- A CE or DE declares the phase. -/
def phaseHasEngine (s : State) (n : Nat) : Bool := (phaseStations s n).any fun st => decide (st < 48)

/-- The loop value of a phase; of one with no CE or DE in it, PREF (R729). -/
def phaseValue (s : State) (n : Nat) : Nat :=
  if phaseHasEngine s n then s.fget (A.pmPhaseState n) A.pmPhaseState_value else phasePref s n

/-- The requested point (R730). -/
def pmRequested (s : State) : Nat :=
  ((List.range 5).filter fun n => !(phaseStations s n).isEmpty).foldl (fun a n => max a (phaseValue s n)) 0

/-! ### Caps (R736 to R738) -/

/-- A warning is asserted, or in its hold. -/
def warned (s : State) : Bool :=
  s.power.warnShelf || s.power.warnCool || s.power.holdShelf.isSome || s.power.holdCool.isSome

/-- The caps that apply, each with its CAUSE bit; none below 210 W (R736). -/
def capSources (s : State) : List (Nat × Nat) :=
  let fb := s.fget A.pmCap A.pmCap_fallbackW
  let sw := s.fget A.pmCap A.pmCap_swCapW
  let lease := if s.power.leaseUntil.isSome then [(s.fget A.pmCap A.pmCap_leaseW, 0)] else [(fb, 1)]
  let l := lease ++ (if warned s then [(fb, 2)] else []) ++ (if sw = 0 then [] else [(sw, 3)])
  l.map fun x => (max 210 x.1, x.2)

/-- The effective cap in watts. -/
def effCap (s : State) : Nat := (capSources s).foldl (fun a x => min a x.1) 65535

/-! ### The granted point (R731, R732) -/

/-- The clock is stretched for more than 1 % of the cycles of the last 1 ms. -/
def stretchedMuch (s : State) : Bool :=
  decide (s.tb.n < s.power.droopAt + tMs) && decide (pmFreq s (opNow s) * 10 < s.power.stretched)

/-- The granted point: the lowest of the requested point and the limits. In the safe state it is OP0 (Table 16-4). -/
def pmGranted (s : State) : Nat :=
  if safe s ∨ s.power.alertOn then 0 else min (pmRequested s) (min s.power.thermal s.power.capPoint)

/-- The limits that hold the point down (PM_STATUS.CAUSE). -/
def pmCause (s : State) : Nat :=
  let r := pmRequested s
  let cap := if s.power.capPoint < r then
      ((capSources s).filter fun x => x.1 == effCap s).foldl (fun a x => a ||| 2 ^ x.2) 0 else 0
  cap + (if s.power.thermal < r then 16 else 0) + (if s.power.alertOn ∧ 0 < r then 32 else 0) +
    (if stretchedMuch s then 64 else 0)

/-- The slope of R741: a step down begins no earlier after the last one, or after the cap change that began the descent;
a step up likewise with PM_SLOPE.UP_W_PER_MS. -/
def mayStepDown (s : State) (k : Nat) : Bool :=
  decide (s.power.lastDown + (pmBudget s k - pmBudget s (k - 1)) * tMs / 2000 ≤ s.tb.n)
def upSlope (s : State) : Nat :=
  let u := s.fget A.pmSlope A.pmSlope_upWPerMs
  if 10 ≤ u ∧ u ≤ 200 then u else 100
def mayStepUp (s : State) (k : Nat) : Bool :=
  decide (s.power.lastUp + (pmBudget s (k + 1) - pmBudget s k) * tMs / (10 * upSlope s) ≤ s.tb.n)

/-- A step of one point begins. -/
def State.beginStep (s : State) (up : Bool) : State :=
  let k := opNow s
  let p := s.power
  let s := s.fset A.pmOp A.pmOp_stepping 1
  if up then { s with power := { p with stepTo := some (k + 1), stepUp := true, lastUp := s.tb.n } }
  else { s with power := { p with stepTo := some (k - 1), stepUp := false, lastDown := s.tb.n } }

/-- Requested and granted points, CAUSE and PACE (which only a limit of Table 13-3 sets) brought up to date, and a step toward the granted point begun where none
is in progress and the slope allows it (R725, R726, R731, R732). -/
def State.pmAim (s : State) : State :=
  if ¬ pmOn s then s
  else
    let g := pmGranted s
    let r := pmRequested s
    let s := (s.fset A.pmOp A.pmOp_requested r).fset A.pmOp A.pmOp_granted g
    let s := s.fset A.pmStatus A.pmStatus_cause (pmCause s)
    let limited := decide (min s.power.thermal s.power.capPoint < r) || (s.power.alertOn && decide (0 < r))
    let s := s.fset (A.wpStatus 0) A.wpStatus_pace (if limited ∨ stretchedMuch s then 1 else 0)
    let k := opNow s
    if s.power.stepTo.isSome ∨ s.power.alertOn ∨ s.thimble.state ≠ .run then s
    else if g < k then (if mayStepDown s k then s.beginStep false else s)
    else if k < g then (if mayStepUp s k then s.beginStep true else s)
    else s

/-- OP_CHANGE (Table 13-6). -/
def State.opChange (s : State) (k : Nat) : State :=
  let s := s.countMaskWaits.fset A.pmOp A.pmOp_current k
  s.raiseM 63 0x0400 (k + s.fget A.pmOp A.pmOp_requested * 256 + s.fget A.pmStatus A.pmStatus_cause * 65536)

/-! ### The excess over the cap (R742) -/

/-- CAP_LAG and its registers after a change of Pm or of the cap; its end gives the largest excess since it began (Table 13-6). -/
def State.pmLag (s : State) : State :=
  let pm := s.fget A.pmPower A.pmPower_pmDw
  let lag := (pm - 10 * effCap s) / 10
  let exceeds := decide (10 * effCap s < pm)
  let was := s.flag A.pmStatus A.pmStatus_capLag
  let s := (s.fset A.pmCapLag A.pmCapLag_lagW lag).raiseTo A.pmCapLag A.pmCapLag_maxLagW lag
  let s := s.fset A.pmStatus A.pmStatus_capLag (if exceeds then 1 else 0)
  let p := s.power
  let s := if exceeds then { s with power := { p with lagPeak := if was then max p.lagPeak lag else lag } } else s
  if exceeds ∧ ¬ was then (s.bump A.pmCapLag A.pmCapLag_count 1).raiseM 63 0x0401 lag
  else if was ∧ ¬ exceeds then s.raiseM 63 0x0402 s.power.lagPeak
  else s

/-- A change of the sources of the cap: a lower cap begins a descent (R741), the excess is looked at again. `old` is the
effective cap before it. -/
def State.capMoved (s : State) (old : Nat) : State :=
  let p := s.power
  let s := if effCap s < old ∧ ¬ s.flag A.pmStatus A.pmStatus_capLag then { s with power := { p with lastDown := s.tb.n } } else s
  s.pmLag.pmAim

/-- CAP_SET accepted: the lease cap, and 10 s of lease (R737). The Thimble takes it in every state (R777). -/
def execCapSet (watts : Nat) (s : State) : Out :=
  let old := effCap s
  let w := watts % 65536
  let p := s.power
  let s := { s with power := { p with leaseUntil := some (s.tb.n + 10 * tSec) } }
  let s := (s.fset A.pmCap A.pmCap_leaseW w).fset A.pmStatus A.pmStatus_lease 1
  let s := if w < 210 then s.fset A.pmStatus A.pmStatus_capFloor 1 else s
  ok ((s.raiseM 63 0x0403 w).capMoved old)

/-- The lease runs out (R737). -/
def execCapLeaseExpired (s : State) : Out :=
  match s.power.leaseUntil with
  | none => ok s
  | some u =>
    if s.tb.n < u then ok s
    else
      let old := effCap s
      let p := s.power
      let s := { s with power := { p with leaseUntil := none } }
      ok (((s.fset A.pmStatus A.pmStatus_lease 0).raiseM 63 0x0404 0).capMoved old)

/-- A warning signal low for 10 µs (R736, R739). -/
def execWarnAssert (coolant : Bool) (s : State) : Out :=
  let p := s.power
  if (if coolant then p.warnCool else p.warnShelf) then ok s
  else
    let old := effCap s
    let s := { s with power := if coolant then { p with warnCool := true, holdCool := none }
      else { p with warnShelf := true, holdShelf := none } }
    let s := s.fset A.pmStatus (if coolant then A.pmStatus_coolantWarn else A.pmStatus_shelfWarn) 1
    ok ((s.raiseM 63 0x0405 (if coolant then 2 else 1)).capMoved old)

/-- A warning signal deasserts: its 1 s hold begins (R736). -/
def execWarnClear (coolant : Bool) (s : State) : Out :=
  let p := s.power
  if ¬ (if coolant then p.warnCool else p.warnShelf) then ok s
  else
    let h := s.tb.n + tSec
    let s := { s with power := if coolant then { p with warnCool := false, holdCool := some h }
      else { p with warnShelf := false, holdShelf := some h } }
    ok (s.raiseM 63 0x0406 (if coolant then 2 else 1))

/-- The hold ends (R736). -/
def execWarnHoldExpiry (coolant : Bool) (s : State) : Out :=
  let p := s.power
  match (if coolant then p.holdCool else p.holdShelf) with
  | none => ok s
  | some h =>
    if s.tb.n < h then ok s
    else
      let old := effCap s
      let s := { s with power := if coolant then { p with holdCool := none } else { p with holdShelf := none } }
      ok ((s.fset A.pmStatus (if coolant then A.pmStatus_coolantWarn else A.pmStatus_shelfWarn) 0).capMoved old)

/-- The cap loop with the mean of the input power over the last 100 µs, in 0.1 W (R740 to R742). -/
def execCapLoop (pmDw : Nat) (s : State) : Out :=
  if ¬ pmOn s then ok s
  else
    let s := (s.fset A.pmPower A.pmPower_pmDw (satTo 16 pmDw)).raiseTo A.pmPower A.pmPower_peakDw (satTo 16 pmDw)
    let s := s.pmLag
    let cap := 10 * effCap s
    let k := opNow s
    let p := s.power
    let fits := decide (k < 7 ∧ pmDw ≤ cap ∧ pmBudget s (k + 1) - pmBudget s k ≤ cap - pmDw)
    let since := if fits then some (p.fitSince.getD s.tb.n) else none
    let p := { p with fitSince := since }
    let p :=
      if cap < pmDw then { p with capPoint := if mayStepDown s k then k - 1 else min p.capPoint k }
      else match since with
        | some t => if t + 10 * tMs ≤ s.tb.n then { p with capPoint := max p.capPoint (k + 1) } else p
        | none => p
    ok { s with power := p }.pmAim

/-! ### Phase loops (R727, R728) -/

/-- The loop value of a phase at the end of a window, and whether it clashed. -/
def capLoopNext (s : State) (n busy : Nat) : Nat × Bool :=
  let v := s.fget (A.pmPhaseState n) A.pmPhaseState_value
  let lo := phaseFloor s n
  let hi := phaseCeil s n
  if s.flag (A.pmPhase n) A.pmPhase_pin then (phasePref s n, false)
  else if busy < s.fget A.pmLoopCtl A.pmLoopCtl_low then (if v < lo + 1 then (lo, true) else (v - 1, false))
  else if s.fget A.pmLoopCtl A.pmLoopCtl_high ≤ busy then (if hi < v + 1 then (hi, true) else (v + 1, false))
  else (v, false)

/-- The end of a loop window: `busy` gives the busy fraction of each phase's engines in 1/256 (R728, R729). -/
def execPhaseWindow (busy : List Nat) (s : State) : Out :=
  let w := max 100 (s.fget A.pmLoopCtl A.pmLoopCtl_windowUs)
  if ¬ pmOn s ∨ s.tb.n < s.power.windowAt + w * tUs then ok s
  else
    let p := s.power
    let s := { s with power := { p with windowAt := s.tb.n } }
    let s := (List.range 5).foldl (fun s n =>
      if phaseHasEngine s n then
        let (v, clash) := capLoopNext s n (busy.getD n 0)
        let s := s.fset (A.pmPhaseState n) A.pmPhaseState_value v
        if clash then (s.bump (A.pmPhaseState n) A.pmPhaseState_clash 1).raiseM 63 0x040B (n + v * 256) else s
      else s.fset (A.pmPhaseState n) A.pmPhaseState_value (phasePref s n)) s
    ok s.pmAim

/-- PM_STATION_PHASE_k written by firmware or a serving runtime: the loop of a phase that its first station enters starts
at PREF (R727, R728). -/
def execPmStationPhase (_who : Who) (k val : Nat) (s : State) : Out :=
  if ¬ (k < 4 ∧ pmOn s) then ok s
  else
    let mask := (List.range 16).foldl (fun a i => a + 7 * 2 ^ (4 * i)) 0
    let before := (List.range 5).map fun n => (phaseStations s n).isEmpty
    let s := s.setReg (A.pmStationPhase k) (val % 2 ^ 64 &&& mask)
    let s := (List.range 5).foldl (fun s n =>
      let sts := phaseStations s n
      let s := s.fset (A.pmPhaseState n) A.pmPhaseState_stations sts.length
      if before.getD n false ∧ ¬ sts.isEmpty then s.fset (A.pmPhaseState n) A.pmPhaseState_value (phasePref s n) else s) s
    ok s.pmAim

/-- A step completes its relock and clock switch, which waits while droop is not clear (R725, R746). -/
def execOpStepDone (s : State) : Out :=
  match s.power.stepTo with
  | none => ok s
  | some k =>
    if s.power.droopOn ∨ ¬ pmOn s then ok s
    else
      let p := s.power
      let s := { s with power := { p with stepTo := none } }
      ok ((s.fset A.pmOp A.pmOp_stepping 0).opChange k).pmAim

/-! ### Droop (R745, R746) -/

/-- Supply falls below the droop threshold: `cycles` are stretched. At most one event per ms. -/
def execDroop (cycles : Nat) (s : State) : Out :=
  if ¬ pmOn s then ok s
  else
    let p := s.power
    let fresh := decide (p.droopAt + tMs ≤ s.tb.n ∨ p.stretched = 0)
    let total := if fresh then cycles else p.stretched + cycles
    let s := (s.bump A.pmDroop A.pmDroop_events 1).bump A.pmDroop A.pmDroop_stretched cycles
    let s := (s.fset A.pmStatus A.pmStatus_stretching 1)
    let s := { s with power := { p with droopOn := true, droopAt := if fresh then s.tb.n else p.droopAt, stretched := total } }
    ok (if fresh then s.raiseM 63 0x040A total else s).pmAim

/-- 256 cycles pass without droop (R746). -/
def execDroopClear (s : State) : Out :=
  let p := s.power
  ok ({ s with power := { p with droopOn := false } }.fset A.pmStatus A.pmStatus_stretching 0).pmAim

/-! ### Thermal limits and the last lines of defence (R748 to R753) -/

/-- THROTTLE_C and HYST_C as they act. -/
def throttleC (s : State) : Nat :=
  let t := s.fget A.pmThermCtl A.pmThermCtl_throttleC
  if 85 ≤ t ∧ t ≤ 105 then t else 100
def hystC (s : State) : Nat := max 1 (s.fget A.pmThermCtl A.pmThermCtl_hystC)

/-- The junction sensors report their highest reading, and the coolant inlet's (R748, R749). -/
def execThermalSample (junction coolantC : Nat) (s : State) : Out :=
  if ¬ pmOn s then ok s
  else
    let j := satTo 8 junction
    let c := satTo 8 coolantC
    let s := (s.fset A.pmThermal A.pmThermal_junctionC j).fset A.pmThermal A.pmThermal_coolantC c
    let s := s.raiseTo A.pmThermal A.pmThermal_junctionMaxC j
    let hot := s.flag A.pmStatus A.pmStatus_coolantHot
    let s := s.fset A.pmStatus A.pmStatus_coolantHot (if 45 < c then 1 else 0)
    let s := if 45 < c ∧ ¬ hot then s.raiseM 63 0x040C c else s
    let p := s.power
    let due := decide (p.thermalAt + tMs ≤ s.tb.n) || p.thermal == 7
    let t := if throttleC s < j ∧ due then p.thermal - 1
      else if j < throttleC s - hystC s ∧ due then min 7 (p.thermal + 1) else p.thermal
    if t = p.thermal then ok s
    else ok ({ s with power := { p with thermal := t, thermalAt := s.tb.n } }.raiseM 63 0x0409 (j + t * 256)).pmAim

/-- The selection of the last lines of defence; 0 acts as BOTH. -/
def lld (s : State) : Nat :=
  let l := s.fget A.pmStatus A.pmStatus_lld
  if l = 0 then 3 else l

/-- A junction at 110 °C with the trip armed: THERM_TRIP_N low, the core off, the safe state (R750). -/
def execThermalTrip (s : State) : Out :=
  if (lld s).testBit 0 = false ∨ ¬ pmOn s then ok s
  else
    let s := s.reportFault 139 3 0
    let p := s.power
    ok { s with power := { p with tripped := true }, pins := { s.pins with thermTripN := false } }

/-- The core regulator's alert: OP0 at once where it is armed; else the regulator's own shutdown reports (R751, R753). -/
def execAlert (s : State) : Out :=
  if ¬ pmOn s then ok s
  else if (lld s).testBit 1 = false then ok (s.reportFault 138 3 0)
  else
    let p := s.power
    let s := { s with power := { p with alertOn := true, alertClr := some s.tb.n, stepTo := none } }
    let s := ((s.bump A.pmAlertCount A.pmAlertCount_count 1).fset A.pmStatus A.pmStatus_alert 1).fset A.pmOp A.pmOp_stepping 0
    let s := s.raiseM 63 0x0407 0
    let s := if opNow s = 0 then s else s.opChange 0
    ok s.pmAim

/-- The alert has been clear for 10 ms (R752). -/
def execAlertClear (s : State) : Out :=
  match s.power.alertClr with
  | none => ok s
  | some t =>
    if s.tb.n < t + 10 * tMs ∨ ¬ pmOn s then ok s
    else
      let p := s.power
      let s := { s with power := { p with alertOn := false, alertClr := none } }
      ok ((s.fset A.pmStatus A.pmStatus_alert 0).raiseM 63 0x0408 0).pmAim

end Sys2Proof.Machine
end

