-- ==== Sys2Proof/Machine/StartOps.lean ====
section
/-! DEFINITION. A start: what the die loses, what the Thimble and the store keep, the choice of image and of settings
(Start-Up, Configuration Store and Firmware Update; R434, R435, R764 to R769). -/

namespace Sys2Proof.Machine

open Sys2Proof

/-! ### What the die holds -/

/-- The block of the device address map that a register lies in, and its offset there. -/
def regBlock (a : Nat) : Nat × Nat := ((a - 0x030000000000) / 0x100000, (a - 0x030000000000) % 0x100000)

/-- Registers that no start resets: those of the Thimble and of CFG, the fused part of GN_TAMPER, and the straps that
WP_STATUS shows. -/
def keptCold (a : Nat) : Bool :=
  let b := regBlock a
  b.1 == 70 || b.1 == 71 || a == A.gnTamper || a == A.wpStatus 0 || a == A.wpStatus 1

/-- Registers that a WARM start and a wake find again: those of `keptCold`; MEM_PART_KEY_p, the key slots and the region table;
PM_PHASE_n and PM_CAP (Table 14-4); the retired engines (R825); the held dump (R877). -/
def keptWarm (a : Nat) : Bool :=
  let b := regBlock a
  keptCold a || (b.1 == 48 && decide (0x8100 ≤ b.2 ∧ b.2 < 0xC000)) ||
    (b.1 == 63 && decide (0x200 ≤ b.2 ∧ b.2 < 0x250 ∧ b.2 % 16 = 0)) || a == A.pmCap || a == A.fcRetired ||
    (b.1 == 62 && decide (0x8010 ≤ b.2 ∧ b.2 ≤ 0x8030))

/-- A Warp link without power: light, launch powers and the last link epochs stay; the calibration where it is
retained. -/
def Link.unpowered (l : Link) (warm : Bool) : Link :=
  { Link.new with
      light := l.light, launch0 := l.launch0, launch1 := l.launch1, skip := warm
      calSerial := if warm then l.calSerial else none
      farSerial := if warm then l.farSerial else 0
      epochs := if warm then l.epochs else [] }

/-- The host queue pairs that a WARM start takes up again, their commands gone (R562). -/
def QPair.orphan (q : QPair) : QPair := { q with ops := q.ops.map fun o => { o with slot := none } }

/-- Commands, streams, events and every queue on the die are lost, with the Loom's maps and references (R34, R88, R767). -/
def State.loseLoom (s : State) : State :=
  { s with
      events := [], eaNext := 0, eaLast := 0, tracked := [], recQ := [], traceHold := [], chans := [], queues := [], wrrAt := 0
      mapCe := [], mapDe := [], abort := none, tasks := [], nextTask := [], facets := [], facetBank := [], lingering := [], settling := []
      flushes := [], poolWaits := [], classInit := [], retired := []
      cancels := [], cancelled := [], cancelDue := [], clientOps := [], duePauses := [], coldQ := [], resuming := [], restoring := [], resets := [], test := none, reports := [], repeats := []
      teardowns := [], tdFree := [], attest := [], verdictQ := [], linePend := [], clearing := [], memWaits := [] }

/-- The on-die SRAM that R767 names: Bobbin lines, sampler, video units, Shuttles, meters, Warp landings, barriers,
triggers, trace buffers; Commons reads as zero. -/
def State.loseSram (s : State) : State :=
  { s with
      bobbin := [], samp := [], vchans := [], shuttles := [], cbSeen := [], meters := [], reasm := [], inbox := [], rdmaIn := [], cnpIn := [], ptpIn := [], cbNext := []
      landings := [], txCredits := [], epochAt := [], barriers := [], waitArrive := [], heldOut := [], trigFifo := []
      lastEdge := none, traces := [], trcDropped := [], wdKicked := [], gated := [], busyAt := []
      trigs := s.trigs.map fun (x : Nat × TrigIn) => (x.1, { x.2 with pending := none, last := none })
      mem := s.mem.filter fun c => decide (c.1 < lpddrTop)
      badLines := s.badLines.filter fun l => decide (l < lpddrTop) }

/-- The state of the die lost: registers to their reset values but those kept, and all that is held beside them. What
LPDDR5X, the Thimble and the store hold stays; a cold-tier image not complete is lost (R459). -/
def State.loseDie (s : State) (warm : Bool) : State :=
  let regs := s.regs.filter fun r => if warm then keptWarm r.1 else keptCold r.1
  let s := s.loseLoom.loseSram
  { s with
      regs := regs
      links := s.links.map fun (x : Nat × Link) => (x.1, x.2.unpowered warm)
      pair := { PairState.reset with noLeaseSince := s.tb.n }
      images := s.images.filter fun x => x.2.complete
      frozen := false, stopAt := none
      calNext := (List.range 16).map fun i => (i, s.tb.n)
      scrubAt := (List.range 20).map fun i => (i, s.tb.n)
      testNext := 0, testAt := s.tb.n
      wdStart := (List.range 4).map fun w => (w, s.tb.n) }

/-- LPDDR5X after training and memory BIST: no line written, the recorded rows repaired (R434, R450, steps 5 to 7); and what lay in it
is gone: journal, sessions, ledger structures (R889). -/
def State.forgetMemory (s : State) : State :=
  { s with mem := [], keyTag := [], badLines := [], pprRows := [], sessions := [], requests := [], qps := [], seqUsed := [] }

/-- Garnet sets every key slot's epoch to a fresh random value (R434, R799). -/
def State.drawEpochs (s : State) : State :=
  (List.range 16).foldl (fun (s : State) k =>
    (s.fset (A.memSlot k) A.memSlot_epoch (Config.random s.free % 2 ^ 32)).tickFree) s

/-! ### The staged image (R895, R896) -/

/-- The bytes of a staging target, its blocks in order. -/
def stageBytes (t : Tab (List Byte)) : List Byte := t.flatMap Prod.snd

/-- The header of a container. -/
def ImageHdr.ofBytes (bs : List Byte) : ImageHdr :=
  let w (o n : Nat) : Nat := leNat ((bs.drop o).take n)
  { magic := w 0 4, format := w 4 2, kind := w 6 2, product := w 8 8, fabric := w 16 4, version := w 20 4, length := w 24 4, digest := w 56 32 }

/-- The header of the staged image, where its first block is written. -/
def stagedHdr (s : State) : Option ImageHdr :=
  match tget s.store.staging 0 with
  | some b => if 28 ≤ b.length then some (ImageHdr.ofBytes b) else none
  | none => none

/-- The status that verification of a container gives, 0 where it verifies (R896). -/
def imageStatus (s : State) (bs : List Byte) : Nat :=
  let h := ImageHdr.ofBytes bs
  if h.magic ≠ 0x4C414345 ∨ h.format ≠ 1 ∨ h.kind ≠ 1 ∨ h.length < 1 ∨ 33550336 < h.length then 22
  else if h.product ≠ 0x412D38344B53 then 20
  else if h.fabric ≠ s.fabric then 21
  else if Config.imageSealOk (fwKey s) bs then 0 else 22

/-- The staged image as the store's image. -/
def stagedImage (s : State) : StoreImage :=
  let bs := stageBytes s.store.staging
  { hdr := ImageHdr.ofBytes bs, valid := imageStatus s bs == 0 }

/-! ### Reading the store (R894) -/

/-- An area of the store can be read: of a read and its three retries, one succeeds. -/
def areaReads (s : State) (a : Nat) : Bool := decide (tgetD s.store.failing a 0 ≤ 3)

/-- The boot ROM reads areas of the store: their retries are counted, and a device of which an area cannot be read is reported (Table
18-11; which reads make a device unreadable is DEDUCED, log 102). FALLBACK and STAGING lie in device 1. -/
def State.readAreas (s : State) (as : List Nat) : State :=
  let bad (dev1 : Bool) : Nat := if as.any fun a => decide (6 ≤ a) == dev1 && !areaReads s a then 1 else 0
  let s := s.bump A.cfgStoreErr A.cfgStoreErr_readRetry (as.map fun a => min 3 (tgetD s.store.failing a 0)).sum
  (s.fset A.cfgStoreErr A.cfgStoreErr_dev0Fail (bad false)).fset A.cfgStoreErr A.cfgStoreErr_dev1Fail (bad true)

/-- The areas that a start reads: the manufacture areas (the helper data where the root key is reconstructed, R797), the settings, ACTIVE,
FALLBACK where it may be booted or copied, STAGING where an activation or a copy is due. -/
def areasRead (s : State) (cold act : Bool) : List Nat :=
  let st := s.store
  let copy := act || st.mark == 1 || st.mark == 2
  let fb := st.trial || copy || !(areaReads s 5 && st.active.any StoreImage.valid)
  [0, 1] ++ (if cold then [2] else []) ++ [3, 4, 5] ++ (if fb then [6] else []) ++ (if copy then [7] else [])

/-- The manufacture areas that a start needs can be read. -/
def manufactureReads (s : State) (cold : Bool) : Bool := areaReads s 0 && areaReads s 1 && (!cold || areaReads s 2)

/-! ### Settings (R909, R910) -/

/-- The slot used at a start: of the two with a record that can be read, the one with the higher SEQ. -/
def settingsSlot (s : State) : Option (Nat × SettingsRec) :=
  match (if areaReads s 3 then s.store.slotA else none), (if areaReads s 4 then s.store.slotB else none) with
  | some a, some b => if a.seq < b.seq then some (1, b) else some (0, a)
  | some a, none => some (0, a)
  | none, some b => some (1, b)
  | none, none => none

/-- A field of a record is kept by an image: it stands at the layout version that the image uses (R910). -/
def fieldKept (r : SettingsRec) (version id : Nat) : Bool :=
  r.fields.any (fun f => f.1 == id) &&
    (match r.vers.find? (fun v => v.1 == id) with | none => true | some v => v.2 == Config.fieldVer version id)

/-- The settings record in force from a start on, with what CFG reports of it (R909, R910). -/
def State.loadSettings (s : State) : State :=
  let ver := ((s.store.active.map fun i => i.hdr.version)).getD 0
  match settingsSlot s with
  | none =>
    let s := (s.setReg A.cfgSettingsReset 0x1FFFE).setReg A.cfgSettingsStatus (2 ^ 24)
    { s with store := { s.store with inForce := none } }
  | some (slot, r) =>
    let keep := r.fields.filter fun f => decide (1 ≤ f.1 ∧ f.1 ≤ 16) && fieldKept r ver f.1
    let lost := (List.range 17).foldl (fun a i => if i ≠ 0 ∧ ¬ fieldKept r ver i then a + 2 ^ i else a) 0
    let newer := r.fields.any fun f => f.1 == 0 || decide (16 < f.1)
    let s := (s.setReg A.cfgSettingsReset lost).setReg A.cfgSettingsStatus
      (slot + r.formatMaj % 256 * 2 ^ 8 + r.formatMin % 256 * 2 ^ 16 + (if newer then 2 ^ 25 else 0) + r.seq % 2 ^ 32 * 2 ^ 32)
    { s with store := { s.store with inForce := some { r with fields := keep } } }

/-- The registers whose reset value comes from the settings (R738, Tables 12-7, 13-8, 17-9), and a pair configuration
that breaks R684. FALLBACK_W outside 210 to 650 W acts as 260 W. The bits of PAIR, PAIR_TIMING and DUMP are the model's (DESIGN CHOICE,
log 31). -/
def State.applySettings (s : State) : State :=
  let fb := setting s 9 260
  let fb := if 210 ≤ fb ∧ fb ≤ 650 then fb else 260
  let lld := setting s 10 3
  let pt := setting s 5 (256 + 168 * 2 ^ 16 + 10000 * 2 ^ 32)
  let dump := setting s 14 (256 * 2 ^ 48)
  let s := (s.fset A.pmCap A.pmCap_fallbackW fb).fset A.pmStatus A.pmStatus_lld (if lld % 4 = 0 then 3 else lld % 4)
  let s := (s.fset A.pairCtl A.pairCtl_en (setting s 4 0)).fset A.pairCtl A.pairCtl_preferActive (setting s 4 0 / 2)
  let s := (s.fset A.pairCtl A.pairCtl_joinFinalMib (fld pt 15 0)).fset A.pairCtl A.pairCtl_swapPeriodH (fld pt 31 16)
  let s := s.fset A.pairLagMax A.pairLagMax_us (fld pt 63 32)
  let s := ((s.setReg (A.nxMacAddr 0) (fld (setting s 6 0) 47 0)).setReg (A.nxMacAddr 1) (fld (setting s 6 0) 95 48))
  let s := if s.flag A.dbgDumpStatus A.dbgDumpStatus_valid then s
    else (s.fset A.dbgDumpBase A.dbgDumpBase_base (fld dump 47 16 * 65536)).fset A.dbgDumpSize A.dbgDumpSize_mib (fld dump 63 48)
  if s.flag A.pairCtl A.pairCtl_en ∧ ¬ (isManager s ∧ setting s 1 0 = 0 ∧ setting s 2 0 = 0) then
    s.fset A.pairStatus A.pairStatus_cause 1
  else s

/-- The IP address of a 25G port, from the settings record, which the modules of a pair share (R541; the layout of field 6 is a DESIGN
CHOICE, log 31). -/
def portIp (s : State) (port : Nat) : Nat := fld (setting s 6 0) (223 + 128 * port) (96 + 128 * port)

/-! ### The choice of image (R902, R903, R906) -/

/-- The state of the image staging area (Table 18-7). -/
def stageState (s : State) : Nat := s.fget A.cfgStageStatus A.cfgStageStatus_state

/-- The staging area begins to be erased. -/
def State.stageErase (s : State) : State := s.fset A.cfgStageStatus A.cfgStageStatus_state 5

/-- A start's flag in CFG_START_STATUS set. -/
def State.startFlag (s : State) (f : Nat × Nat) : State := s.fset A.cfgStartStatus f 1

/-- The store's images after the boot ROM's choice (Table 18-8). `act` says that an activation is due. A copy begun is
marked COPY_BEGIN and ends with the start; an interrupted one goes on (R903). An image that cannot be read fails verification, and a
manufacture area that cannot be read leaves no image (R894). -/
def State.chooseImage (s : State) (cold act : Bool) : State :=
  let okOf (a : Nat) (i : Option StoreImage) : Bool := areaReads s a && i.any StoreImage.valid
  let st := s.store
  if ¬ s.keysOk ∨ ¬ manufactureReads s cold then { s with store := { st with noImage := true } }
  else if st.mark = 1 ∨ st.mark = 2 then { s with store := { st with trial := true } }.startFlag A.cfgStartStatus_trial
  else if act ∧ okOf 7 (some (stagedImage s)) then
    { s with store := { st with mark := 1, trial := true } }.startFlag A.cfgStartStatus_trial
  else
    let s := if act then s.stageErase.startFlag A.cfgStartStatus_stageRejected else s
    if ¬ okOf 5 st.active then
      if okOf 6 st.fallback then { s with store := { st with trial := false } }.startFlag A.cfgStartStatus_image
      else { s with store := { st with trial := false, noImage := true } }
    else if st.trial then
      { s with store := { st with trial := false, active := st.fallback } }.startFlag A.cfgStartStatus_rolledBack
    else s

/-- The update copy ends: FALLBACK holds the image that was active, ACTIVE the staged one, and staging begins to be erased
(R902). -/
def State.finishCopy (s : State) : State :=
  let st := s.store
  if st.mark = 1 ∨ st.mark = 2 then
    let fb := if st.mark = 1 then st.active else st.fallback
    { s with store := { st with fallback := fb, active := some (stagedImage s), mark := 3 } }.stageErase
  else s

/-- The image versions in CFG_IMAGE. -/
def State.showImages (s : State) : State :=
  let v (i : Option StoreImage) : Nat := ((i.map fun x => x.hdr.version)).getD 0
  s.setReg A.cfgImage (v s.store.active % 2 ^ 32 + v s.store.fallback % 2 ^ 32 * 2 ^ 32)

/-! ### Beginning a start (R882 to R885) -/

/-- Garnet at a start (Table 15-6): the tests run; a tampered module stays ZEROISED, and only a COLD start leaves ERROR and
ZEROISED. -/
def State.gnStart (s : State) (cold : Bool) (old : Nat) : State :=
  let tam := if s.tampered then 1 else 0
  let st := if s.tampered then 4 else if ¬ cold ∧ (old = 3 ∨ old = 4) then old else 1
  let s := if cold then
      s.setReg A.gnTamper (s.fget A.gnTamper A.gnTamper_source % 2 + s.fget A.gnTamper A.gnTamper_count * 2 ^ 32)
    else s
  { (((s.fset A.gnStatus A.gnStatus_state st).fset A.gnStatus A.gnStatus_tampered tam).fset A.gnStatus
      A.gnStatus_rootRetained (if cold then 0 else 1)) with issued := 0 }

/-- The timebase at a start: V = 0 in FREE after a COLD start; after a WARM start, or a wake, V as the Thimble carried it, with
COARSE until the first offset result (R888, Table 10-3). -/
def State.tbStart (s : State) (cold : Bool) : State :=
  if cold then { s with tb := TimeBase.reset }
  else
    let v := vAt s s.tb.n
    { s with tb := { TimeBase.reset with n := s.tb.n, n0 := s.tb.n, v0 := v / 2 ^ 32 % 2 ^ 64, vSub := v % 2 ^ 32,
                                         lastAt := s.tb.n } }.fset A.tbStatus A.tbStatus_coarse 1

/-- The power manager at a start: at OP0, the warning pins as they are; the cap lease is retained by the Thimble
(Table 14-4), and lost with its power. -/
def State.pmStart (s : State) (cold : Bool) : State :=
  let p := s.power
  let n := s.tb.n
  { s with power := { Power.reset with
      warnShelf := p.warnShelf, warnCool := p.warnCool, leaseUntil := if cold then none else p.leaseUntil
      lastDown := n, lastUp := n, droopAt := n, windowAt := n, thermalAt := n } }.fset A.pmStatus A.pmStatus_lease
    (if cold ∨ p.leaseUntil.isNone then 0 else 1)

/-- The Thimble at a start: RUN, no request; without power it loses all. -/
def State.thimbleStart (s : State) (por : Bool) : State :=
  if por then
    { s with thimble := Thimble.reset, regs := s.regs.filter fun r => (regBlock r.1).1 != 70 }
  else
    let s := { s with thimble := { s.thimble with state := .run } }
    (s.fset A.thimbleSleepCtl A.thimbleSleepCtl_req 0).fset A.thimbleSleepStatus A.thimbleSleepStatus_state 0

/-- CFG at the beginning of a start: READY 0, kind, cause and count; the steps that a WARM start skips (R887). A COLD start
loses a schedule (R904). -/
def State.cfgStart (s : State) (cold act : Bool) (cause : Nat) : State :=
  let n := (s.store.startCount + 1) % 2 ^ 32
  let lost := cold && !act && stageState s == 4
  let s := { s with store := { s.store with startCount := n, starting := some cold, startedAt := s.tb.n, noImage := false,
                                            woke := false } }
  let s := s.setReg A.cfgStartStatus ((if cold then 0 else 2) + cause * 4 + (if lost then 2 ^ 10 else 0) + n * 2 ^ 32)
  let s := s.setReg A.cfgStartSkip (if cold then 0 else 15)
  let s := if lost then s.fset A.cfgStageStatus A.cfgStageStatus_state 3 else s
  if lost ∨ act then s.setReg A.cfgActivateAt 0 else s

/-- The cause and kind of a start: a WARM start without retained state, or after an interrupted self-refresh, is COLD, with
CAUSE 8 (R884). -/
def startKind (s : State) (cold : Bool) (cause : Nat) : Bool × Nat :=
  if ¬ cold ∧ ¬ (s.thimble.retOk ∧ s.thimble.srOk) then (true, 8) else (cold, cause)

/-- A start of a kind and cause, up to where its steps run (R882 to R885): the straps are read, which the tray sets (a free value: DESIGN
CHOICE, log 25), and select the role (R12, R917). SAFE_N is low from the POR release of a COLD start on; a WARM start releases it (R926,
Table 16-4; the second is DEDUCED, log 71), unless the Selvage holds it. -/
def State.runStart (s : State) (cold0 : Bool) (cause0 : Nat) : State :=
  let (cold, cause) := startKind s cold0 cause0
  let act := cause0 == 5
  let straps := Config.straps s.free
  let gn := s.fget A.gnStatus A.gnStatus_state
  let q := s.qps
  let s := if cold then { s.ageImages with tb := TimeBase.reset } else s
  let s := (s.loseDie (!cold)).tbStart cold
  let s := if cold then (s.forgetMemory.setReg A.fcRetired 0) else { s with qps := q.map fun x => (x.1, x.2.orphan) }
  let low := if heldGroup s 1 ∧ cause ≠ 1 then s.pins.safeN else !cold
  let s := { s with pins := { Pins.reset with thermTripN := s.pins.thermTripN || cause == 1, safeN := low }, slotId := straps % 64 }.tickFree
  let s := s.fset (A.wpStatus 0) A.wpStatus_role (1 - straps / 64 % 2)
  let s := ((s.pmStart cold).thimbleStart (cause == 1)).cfgStart cold act cause
  let s := s.readAreas (areasRead s cold act)
  let s := ((s.gnStart cold gn).chooseImage cold act).loadSettings.applySettings
  if s.store.noImage then { s with pins := { s.pins with safeN := false, faultN := false } } else s

/-- A start request: ignored while a start runs or a dump is written (R883); a thermal trip is left only by a POR
(R750). -/
def startIgnored (s : State) : Bool :=
  s.store.starting.isSome || s.flag A.dbgDumpStatus A.dbgDumpStatus_busy || s.power.tripped || !s.store.powered

def State.beginStart (s : State) (cold : Bool) (cause : Nat) : State := if startIgnored s then s else s.runStart cold cause

/-- The errors that the reads of the store meet after power came on: free (R894). -/
def storeErrors (s : State) : Tab Nat := (List.range 8).map fun a => (a, Config.storeFails a s.free)

/-- A start request that is not ignored, with what the store's reads show in it: the areas that fail, and how many attempts (R894). -/
def State.beginStartOn (s : State) (areas : List (Nat × Nat)) (cold : Bool) (cause : Nat) : State :=
  if startIgnored s then s else { s with store := { s.store with failing := areas } }.runStart cold cause

end Sys2Proof.Machine
end

