-- ==== Sys2Proof/Machine/Start.lean ====
section
/-! DEFINITION. The causes of a start, its completion, and power (Start-Up, Configuration Store and Firmware Update; R918 to
R921). -/

namespace Sys2Proof.Machine

open Sys2Proof

/-- A register write of the module firmware reaches its block: the die runs and is not frozen. -/
def fwWrites (who : Who) (s : State) : Bool := who.isFw && dieOn s && !s.frozen

/-- CFG_START_CTL.WARM_REQ and COLD_REQ written (Table 18-2). -/
def execWarmReq (r : StartReq) (s : State) : Out := ok (if fwWrites r.who s then s.beginStartOn r.areas false 3 else s)
def execColdReq (r : StartReq) (s : State) : Out := ok (if fwWrites r.who s then s.beginStartOn r.areas true 2 else s)

/-- CFG_START_CTL.CONFIRM written: the trial is confirmed (R907). -/
def execConfirm (who : Who) (s : State) : Out :=
  if fwWrites who s ∧ s.store.trial = true then
    ok ({ s with store := { s.store with trial := false } }.fset A.cfgStartStatus A.cfgStartStatus_trial 0)
  else ok s

/-- A tray-management RESET message, which the Thimble takes in every power state (Table 18-2). -/
def execReset (cold : Bool) (s : State) : Out := ok (s.beginStart cold 6)

/-- The timebase has reached T of a schedule. -/
def activationDue (s : State) : Bool := stageState s == 4 && decide (s.reg A.cfgActivateAt ≤ now s)

/-- The activation start (R902, R904): not in a dump, in WATCH or in DORMANT, whose ends begin it. -/
def execActivation (s : State) : Out :=
  if activationDue s ∧ dieOn s ∧ ¬ s.frozen ∧ s.stopAt = none then ok (s.beginStart s.store.coldAct 5) else ok s

/-- 120 s pass after a trial start without a confirmation (R907). -/
def execTrialTimeout (s : State) : Out :=
  if s.store.trial = true ∧ s.store.trialAt + 120 * tSec ≤ s.tb.n ∧ dieOn s then ok (s.beginStart false 9) else ok s

/-- The engines that stay retired over a WARM start keep their place out of the Loom's map (R825, step 8). -/
def State.keepRetired (s : State) : State :=
  ((List.range 48).filter fun st => (s.reg A.fcRetired).testBit st).foldl (fun s st =>
    ((s.setReg A.loomFenced (s.reg A.loomFenced ||| 2 ^ st)).fset (A.ceStatus st) A.ceStatus_fenced 1).remapFrom st) s

/-- The lodes train, or leave self-refresh, and serve, and so do the Commons banks; rows that wait for repair show (R450). -/
def State.lodesReady (s : State) : State :=
  let s := (List.range 16).foldl (fun s n =>
    let p := s.pprRows.any fun x => x.1 / 2 ^ 24 == n && decide (3 ≤ x.2 / 2)
    (s.fset (A.lodeStatus n) A.lodeStatus_ready 1).fset (A.lodeStatus n) A.lodeStatus_pprPending (if p then 1 else 0)) s
  let s := (List.range 4).foldl (fun s m => s.fset (A.cmStatus m) A.cmStatus_ready 1) s
  { s with thimble := { s.thimble with retOk := true, srOk := true } }

/-- What a started module takes up again: result rings and queue pairs go on
from what is acknowledged (R562, R584), a request whose confirmation will not come is accepted (R575), watchdogs count from here, and a pair's member waits, or, preferring ACTIVE, first
listens for a lease (Table 12-1). -/
def State.serveAgain (s : State) : State :=
  let s := { s with
    sessions := s.sessions.map fun (x : Nat × Session) => (x.1, { x.2 with written := x.2.acked })
    wdStart := (List.range 4).map fun w => (w, s.tb.n)
    pair := { s.pair with noLeaseSince := s.tb.n } }
  let s := (s.qps.filter fun (x : Nat × QPair) => x.2.state == 1).foldl (fun s x => s.resend x.1 x.2.acked) s
  if paired s then (if s.flag A.pairCtl A.pairCtl_preferActive then s else s.toWaiting) else s.acceptHeld none

/-- The start's steps end: images whose time to live has passed are freed before anything is served (R409). A module without an image is
held; one whose Garnet is not OPERATIONAL ends its start without READY (R814). A COLD start has drawn every epoch anew (R434), and with READY SAFE_N
rises (R926). -/
def execStartComplete (s : State) : Out :=
  if s.store.starting = none then ok s
  else
    let took := (s.tb.n - s.store.startedAt) / tMs
    let cold := s.store.starting = some true
    let copied := s.store.mark = 1 ∨ s.store.mark = 2
    let s := { s with store := { s.store with starting := none } }.freeDue
    if s.store.noImage then ok s
    else
      let cp := if copied then s.freeVal % 2 ^ 32 else 0
      let s := if copied then s.tickFree else s
      let s := (s.finishCopy.showImages).setReg A.cfgStartTime (satTo 32 took + cp * 2 ^ 32)
      let s := { s with store := { s.store with trialAt := s.store.startedAt } }
      if s.fget A.gnStatus A.gnStatus_state ≠ 2 then ok s
      else
        let s := if cold then s.drawEpochs else s
        let s := if safe s ∨ heldGroup s 1 then s else { s with pins := { s.pins with safeN := true } }
        ok ((s.lodesReady.keepRetired.faultSummary.serveAgain.startFlag A.cfgStartStatus_ready).pmAim)

/-- VIN_54 rises through the lockout threshold: power, and a COLD start (R882, R918). A removal of VIN_54 long enough to
leave a thermal trip (R920) is taken to have gone before (log 71). What the reads of the store meet is a free value (R894, log 102). -/
def execPowerOnReset (s : State) : Out :=
  ok ({ s with store := { s.store with powered := true, failing := storeErrors s } }.tickFree.runStart true 1)

/-- The copy that a loss of power interrupts has reached an unknown mark of UPDATE_RECORD (R903). -/
def State.cutCopy (s : State) : State :=
  let st := s.store
  if st.starting.isSome ∧ st.mark = 1 then
    let k := s.freeVal % 4
    let s := s.tickFree
    if k = 0 then { s with store := { st with mark := 0, trial := false } }
    else if k = 1 then s
    else if k = 2 then { s with store := { st with mark := 2, fallback := st.active } }
    else s.finishCopy
  else s

/-- VIN_54 leaves the operating range: the input switch opens and the module is without power (R919); its open-drain outputs are
released (R925). -/
def execVin54Loss (s : State) : Out :=
  let s := s.cutCopy
  ok { s with store := { s.store with powered := false }
              pins := { s.pins with thermTripN := true, faultN := true, safeN := true } }

end Sys2Proof.Machine
end

