-- ==== Sys2Proof/Machine/Debug.lean ====
section
/-! DEFINITION. Counters, trace, watchdogs and the hang dump (Counters, Trace and Hang Dumps). -/

namespace Sys2Proof.Machine

open Sys2Proof

/-- The debug blocks run: the die is on and not stopped. -/
def ftOn (s : State) : Bool := dieOn s && !s.frozen

/-! ### Counters (R845, R847, R849, R850) -/

/-- Software may write a station's counter block: firmware, and for a CE or DE the partition it counts for (R845). -/
def ownsBlock (s : State) (who : Who) (st : Nat) : Bool :=
  decide (st ≤ 60) && (match who with | .firmware => true | .part p => decide (st < 48) && blockPart s st == some p)

/-- A block's eight counters set to zero. -/
def State.zeroCounters (s : State) (st : Nat) : State := (List.range 8).foldl (fun s i => s.setReg (A.dbgCnt st i) 0) s

/-- DBG_CNT_CTL.CLEAR written 1 (R847). -/
def execClear (who : Who) (st : Nat) (s : State) : Out :=
  if ownsBlock s who st ∧ ftOn s = true then ok (s.zeroCounters st) else ok s

/-- The sampling interval in ns. -/
def smpInterval (s : State) : Nat := max 10 (s.fget A.dbgSmpCtl A.dbgSmpCtl_intervalUs) * 1000

/-- A ring of FT: base, entries as a power of two; base 0 is no ring (R860; DESIGN CHOICE, log 74). -/
def trcRing (s : State) (p : Nat) : Nat × Nat :=
  (s.fget (A.dbgTrcBase p) A.dbgTrcBase_base / 32 * 32, 2 ^ log2In (s.fget (A.dbgTrcBase p) A.dbgTrcBase_log2Entries) 8 24 8)
def smpRing (s : State) (p : Nat) : Nat × Nat :=
  (s.fget (A.dbgSmpBase p) A.dbgSmpBase_base / 128 * 128, 2 ^ log2In (s.fget (A.dbgSmpBase p) A.dbgSmpBase_log2Entries) 6 20 6)

/-- The sample record of a block (R849). -/
def sampleBytes (s : State) (st p : Nat) : List Byte :=
  leBytes 8 (now s) ++
    leBytes 8 (st + p * 2 ^ 8 + (if coarse s then 2 ^ 11 else 0) + s.smpCount % 2 ^ 32 * 2 ^ 32) ++
    ((List.range 8).flatMap fun i => leBytes 8 (s.reg (A.dbgCnt st i))) ++ List.replicate 48 0

/-- One block's sample written into the ring of its PART, or dropped and counted (R849, R850). -/
def State.sampleBlock (s : State) (st : Nat) : State :=
  match blockPart s st with
  | none => s
  | some p =>
    let (base, size) := smpRing s p
    if s.flag (A.dbgCntCtl st) A.dbgCntCtl_sampleEn = false ∨ confidential s p = true ∨ base = 0 then s
    else
      let tail := s.fget (A.dbgRingTail p) A.dbgRingTail_smp
      let next := (tail + 1) % size
      if next = s.fget (A.dbgRingHead p) A.dbgRingHead_smp % size then s.bump (A.dbgRingLost p) A.dbgRingLost_smp 1
      else (s.writeBytes (base + 128 * tail) (sampleBytes s st p)).fset (A.dbgRingTail p) A.dbgRingTail_smp next

/-- The tick at which V reaches a multiple of the interval: every enabled block is taken (R849). -/
def execSampleTick (s : State) : Out :=
  let i := smpInterval s
  let k := now s / i
  let prev := vAt s (s.tb.n - 1) / 2 ^ 32 / i
  if s.flag A.dbgSmpCtl A.dbgSmpCtl_en ∧ ftOn s ∧ prev < k ∧ s.smpLast ≠ k then
    let s := (List.range 61).foldl State.sampleBlock s
    ok { s with smpLast := k, smpCount := s.smpCount + 1 }
  else ok s

/-! ### Trace (R854 to R858) -/

/-- DBG_TRC_MARK written by the block's owner: a MARKER record at once, whatever TYPES says (R856). -/
def execDbgTrcMark (who : Who) (st val : Nat) (s : State) : Out :=
  match blockPart s st with
  | none => ok s
  | some p =>
    if ownsBlock s who st ∧ ftOn s = true ∧ s.flag (A.dbgTrcCtl st) A.dbgTrcCtl_en = true ∧ confidential s p = false then
      ok (s.tracePut st
        { part := p, w0 := now s, w1 := 11 + p * 2 ^ 8 + (if coarse s then 2 ^ 11 else 0) + st * 2 ^ 13, w2 := 0,
          w3 := val % 2 ^ 64 })
    else ok s

/-- A partition's trace ring takes a record. -/
def trcRoom (s : State) (p : Nat) : Bool :=
  let (base, size) := trcRing s p
  base != 0 && (s.fget (A.dbgRingTail p) A.dbgRingTail_trc + 1) % size != s.fget (A.dbgRingHead p) A.dbgRingHead_trc % size

/-- One record of a station's buffer moved to its partition's ring: the oldest whose ring takes one (R854, R855). -/
def State.drainOne (s : State) (st : Nat) : State :=
  let buf := tgetD s.traces st []
  match buf.find? fun r => trcRoom s r.part with
  | none => s
  | some r =>
    let (base, size) := trcRing s r.part
    let tail := s.fget (A.dbgRingTail r.part) A.dbgRingTail_trc
    let bs := leBytes 8 r.w0 ++ leBytes 8 r.w1 ++ leBytes 8 r.w2 ++ leBytes 8 r.w3
    { (s.writeBytes (base + 32 * tail) bs).fset (A.dbgRingTail r.part) A.dbgRingTail_trc ((tail + 1) % size) with
      traces := tset s.traces st (buf.erase r) }

/-- The drain moves up to `n` records of a station; a station held under R858 goes on at 128 records. -/
def execTraceDrain (st n : Nat) (s : State) : Out :=
  if ¬ (st ≤ 60 ∧ ftOn s) then ok s
  else
    let s := (List.range (min n 256)).foldl (fun s _ => s.drainOne st) s
    if (tgetD s.traces st []).length ≤ 128 then ok { s with traceHold := s.traceHold.erase st } else ok s

/-! ### Watchdogs (R861 to R865) -/

/-- A watchdog counts: enabled, the module in RUN, the debug blocks running. -/
def wdRuns (s : State) (w : Nat) : Bool :=
  decide (w < 4) && s.flag (A.dbgWdCtl w) A.dbgWdCtl_en && ftOn s &&
    (match s.thimble.state with | .doze | .dozeExit => false | _ => true)

/-- The tick from which a watchdog counts. -/
def wdFrom (s : State) (w : Nat) : Nat := tgetD s.wdStart w 0

/-- A watchdog counts from zero again. -/
def State.wdRestart (s : State) (w : Nat) : State :=
  { s with wdStart := tset s.wdStart w s.tb.n, wdKicked := if w = 1 then [] else s.wdKicked }

/-- The partitions of KICK_MASK that have not kicked watchdog 1 since it last restarted. -/
def notKicked (s : State) : List Nat :=
  (List.range 8).filter fun p => (s.fget (A.dbgWdCtl 1) A.dbgWdCtl_kickMask).testBit p && !s.wdKicked.contains p

/-- DBG_WD_KICK_w written (R862): watchdog 1 by the partitions of its mask, the others by firmware. -/
def execDbgWdKick (who : Who) (w : Nat) (s : State) : Out :=
  if ¬ (w < 4 ∧ ftOn s) then ok s
  else
    match who with
    | .firmware => if w = 1 then ok s else ok (s.wdRestart w)
    | .part p =>
      if w ≠ 1 ∨ (s.fget (A.dbgWdCtl 1) A.dbgWdCtl_kickMask).testBit p = false then ok s
      else
        let s := if s.wdKicked.contains p then s else { s with wdKicked := s.wdKicked ++ [p] }
        if (notKicked s).isEmpty then ok (s.wdRestart 1) else ok s

/-- WARN_MS passes without a restart: WARNED, the WD_WARN event, and the interrupt to the firmware (R863, R881). -/
def execWdWarn (w : Nat) (s : State) : Out :=
  let from_ := wdFrom s w
  let ms := s.fget (A.dbgWdCtl w) A.dbgWdCtl_warnMs
  if wdRuns s w ∧ ms ≠ 0 ∧ from_ + ms * tMs ≤ s.tb.n ∧ (tget s.wdMark w).map Prod.fst ≠ some from_ then
    let s := s.setReg A.dbgWdStatus (s.reg A.dbgWdStatus ||| 2 ^ (4 + w))
    ok (({ s with wdMark := tset s.wdMark w (from_, 1) }.raiseM 62 0x0308 w).emit (.wdIrq w))
  else ok s

/-- TIMEOUT_MS passes without a restart: EXPIRED, for watchdog 1 LATE, and its source's report at its level; at LOG the count
restarts (R863). A kick in the tick of the expiry is in time (R862), so the expiry follows that tick. Before the confirmation of a
trial, watchdog 0 begins a WARM start (R907). -/
def execWatchdogExpiry (w : Nat) (s : State) : Out :=
  let from_ := wdFrom s w
  let ms := max 1 (s.fget (A.dbgWdCtl w) A.dbgWdCtl_timeoutMs)
  if ¬ (wdRuns s w ∧ from_ + ms * tMs < s.tb.n ∧ tget s.wdMark w ≠ some (from_, 2)) then ok s
  else
    let late := ((notKicked s).map fun p => 2 ^ p).sum
    let s := s.setReg A.dbgWdStatus (s.reg A.dbgWdStatus ||| 2 ^ w)
    let s := if w = 1 then s.fset A.dbgWdStatus A.dbgWdStatus_late (s.fget A.dbgWdStatus A.dbgWdStatus_late ||| late) else s
    let s := { s with wdMark := tset s.wdMark w (from_, 2) }
    let log := reportLevel s (156 + w) 0 == some 0
    let s := s.reportFault (156 + w) 0 0
    let s := if log then s.wdRestart w else s
    if w = 0 ∧ s.store.trial = true ∧ s.store.starting = none then ok (s.beginStart false 9) else ok s

/-! ### The hang dump (R866 to R877) -/

/-- DBG_DUMP_CTL.REQ written 1 by firmware: the safe state, and a dump (R866). -/
def execDumpReq (who : Who) (s : State) : Out := if who.isFw ∧ ftOn s then ok (s.enterSafe 3 0 2) else ok s

/-- A tray-management DUMP message: refused in WATCH and DORMANT (R866, R867). -/
def execDump (s : State) : Out := if ftOn s then ok (s.enterSafe 3 0 3) else ok s

/-- The die stops at N_s (R869); the dump engine begins, unless an earlier dump is kept (R875). -/
def execStopTick (s : State) : Out :=
  match s.stopAt with
  | none => ok s
  | some n =>
    if s.tb.n < n then ok s
    else
      let s := { s with frozen := true, stopAt := none }
      if s.flag A.dbgDumpStatus A.dbgDumpStatus_valid ∧ ¬ s.flag A.dbgDumpCtl A.dbgDumpCtl_overwrite then
        ok (s.fset A.dbgDumpStatus A.dbgDumpStatus_skipped 1)
      else ok (s.fset A.dbgDumpStatus A.dbgDumpStatus_busy 1)

end Sys2Proof.Machine
end

