-- ==== Sys2Proof/Machine/Memory.lean ====
section
/-! DEFINITION. The lode controllers and Commons banks as they serve accesses, scrub and calibration, the region table and
the key slots (Lodes, Commons and the Cold Tier). -/

namespace Sys2Proof.Machine

open Sys2Proof

/-! ### Serving (R429 to R447, R814, R936) -/

/-- The lode or bank of a canonical address serves accesses: trained, not in self-refresh, Garnet OPERATIONAL for the lodes
(R814, Tables 7-5 and 7-6). -/
def memServes (s : State) (c : Nat) : Bool :=
  if c < lpddrTop then
    let a := A.lodeStatus (lodeOf c).1
    s.flag a A.lodeStatus_ready && !s.flag a A.lodeStatus_selfRefresh && s.fget A.gnStatus A.gnStatus_state == 2
  else s.flag (A.cmStatus (memStation c - 48)) A.cmStatus_ready

/-- Every byte of a range has a place in memory. -/
def memRange (a n : Nat) : Bool := (canon a).isSome && (canon (a + n - 1)).isSome

/-- The partition tag of a requester: its command's, or the hart's. -/
def reqPart (s : State) (r : MemReq) : Option Nat :=
  match r.slot.bind s.cmd? with
  | some t => some t.part
  | none => match r.who with
    | .part p => some p
    | .firmware => none

/-- The answer of a read: data, or an error response. -/
def State.busAnswer (s : State) (err : Bool) (bs : List Byte) : State := { s with busData := bs, busErr := err }

/-- The requester gets an error response (R445 to R447): a command ends with FAULT_CONTAINED and its engine is fenced; a
host core's load takes an access fault. -/
def State.readError (s : State) (r : MemReq) (part : Option Nat) : State :=
  match r.slot.bind s.cmd? with
  | some t => (s.readFault t.slot r.addr r.len).busAnswer true []
  | none => (s.logUncorrected ((firstBad s r.addr r.len).getD 0) (some (part.getD 0))).busAnswer true []

/-- The controller abandons an access and tells the requester (R936). -/
def State.abandon (s : State) (r : MemReq) : State :=
  match r.slot.bind s.cmd? with
  | some t => (s.finish t.slot St.aborted Det.faultContained).busAnswer true []
  | none => s.busAnswer true []

/-- A read served with what the array shows on its first codeword. A destination whose record is not written yet reads as R60 has
it. -/
def State.serveRead (s : State) (r : MemReq) (c : Nat) (part : Option Nat) (obs : MemObs) : State :=
  let (s, seen) := s.observe c obs
  if seen = .lost then s.abandon r
  else if badRange s r.addr r.len then s.readError r part
  else ((s.countMem true r.addr r.len part).memLinks true r.station r.addr r.len part).busAnswer false
    (if seen = .wrong then misreadBytes s c r.addr r.len else softBytes s r.addr r.len)

/-- A write of part of a codeword that needs a read first (R440). -/
def partialLine (r : MemReq) (c : Nat) : Bool := decide (c % codeBytes c ≠ 0 ∨ r.len < codeBytes c)

/-- A write served with what the array shows on its first codeword. What it shows of data matters only where the write reads before it
writes. -/
def State.serveWrite (s : State) (r : MemReq) (c : Nat) (part : Option Nat) (data : List Byte) (obs : MemObs) : State :=
  let put (s : State) : State :=
    (((s.countMem false r.addr r.len part).memLinks false r.station r.addr r.len part).storeBytes r.addr (data.take r.len)).busAnswer
      false []
  match obs, partialLine r c with
  | .symbols _, false => put s
  | _, _ =>
    let (s, seen) := s.observe c obs
    match seen with
    | .lost => s.abandon r
    | .wrong => put (s.storeMisread c)
    | _ => put s

/-! ### Tile stores (R122, R123, Table 2-2) -/

/-- The station and the offset of an address in the tile-store windows. -/
def storeWindow (a : Nat) : Option (Nat × Nat) :=
  if 0x021000000000 ≤ a ∧ a < 0x021000000000 + 48 * 0x1000000 then
    some ((a - 0x021000000000) / 0x1000000, (a - 0x021000000000) % 0x1000000)
  else none

/-- An offset lies in a region of Table 2-2. -/
def storeMapped (st o : Nat) : Bool := decide (o < if st < 32 then 0x400000 else 0x200000)

/-- What the model holds of a tile store at an offset: the parameter area and the scratch of the Facet that the vector unit was given
last (R199, Table 3-2). -/
def storeKnown (s : State) (st o : Nat) : Option Byte :=
  match tget s.facets st with
  | none => none
  | some u =>
    if 0x0C0000 ≤ o ∧ o < 0x0E0000 then
      if (o - 0x0C0000) / 0x10000 = u.bank % 2 then some (u.param.getD (o % 0x10000) 0) else none
    else if 0x0E0000 ≤ o ∧ o < 0x100000 then some (tgetD u.scratch (o - 0x0E0000) 0) else none

/-- Software reads a range of a tile-store window: zero at unmapped offsets and to a partition that does not own the station, and to
the module where a confidential one does (R123, Table 15-4). The content is that of R60: `Config.storeByte`. -/
def State.readStore (s : State) (r : MemReq) : State :=
  let byte (i : Nat) : Byte :=
    match storeWindow (r.addr + i) with
    | none => 0
    | some (st, o) =>
      let seen := match reqPart s r with
        | some p => blockPart s st == some p
        | none => match blockPart s st with
          | some q => !confidential s q
          | none => true
      if seen && storeMapped st o then Config.storeByte st o (storeKnown s st o) s.free else 0
  (s.busAnswer false ((List.range r.len).map byte)).tickFree

/-! ### The accesses -/

/-- A partition's access that its regions do not allow is dropped at its target, flit by flit, and has an error response (R41, R425,
R426, log 17); one to no memory, which lies in no region, at the requester's own station. A write has the flits of its data too. -/
def State.memDrop (s : State) (r : MemReq) (p : Nat) (write : Bool) : State :=
  let st := match canon r.addr with | some c => memStation c | none => r.station
  (s.tagDrop st p (if write then 1 + (r.len + 63) / 64 else 1)).busAnswer true []

/-- A read at a lode controller or Commons bank whose address is canonical `c` (R425, R429 to R447, R806). -/
def State.readAt (s : State) (r : MemReq) (c : Nat) (obs : MemObs) : State :=
  match reqPart s r with
  | some p => if ownsRange s p r.addr r.len then s.serveRead r c (some p) obs else s.memDrop r p false
  | none =>
    if (ownerAt s c).any (confidential s) then
      (s.bump A.gnTeardownDrop A.gnTeardownDrop_count 1).busAnswer false (List.replicate r.len 0)
    else s.serveRead r c none obs

/-- A write there (R425, R429, R440 to R442, R806). -/
def State.writeAt (s : State) (r : MemReq) (c : Nat) (data : List Byte) (obs : MemObs) : State :=
  match reqPart s r with
  | some p => if ownsRange s p r.addr r.len then s.serveWrite r c (some p) data obs else s.memDrop r p true
  | none => s.serveWrite r c none data obs

/-- An access of at least one byte: it waits while bytes of it are being zeroed (R437). -/
def memAccess (req : MemReq) (data : Option (List Byte)) (obs : MemObs) (s : State) : Out :=
  if req.len = 0 then ok s
  else if (storeWindow req.addr).isSome then ok (if data.isNone then s.readStore req else s.busAnswer false [])
  else if ¬ memRange req.addr req.len then
    match reqPart s req with
    | some p => ok (s.memDrop req p data.isSome)
    | none => .fault (.noSuchAddress req.addr)
  else
    let c := (canon req.addr).getD 0
    if ¬ memServes s c then ok s
    else if clearingAt s req.addr req.len then ok { s with memWaits := s.memWaits ++ [(req, data, obs)] }
    else
      match data with
      | none => ok (s.readAt req c obs)
      | some bs => ok (s.writeAt req c bs obs)

/-- A lode controller or Commons bank serves a read; a tile-store window is read like memory (R123). -/
def execMemoryRead (req : MemReq) (obs : MemObs) (s : State) : Out := memAccess req none obs s

/-- A lode controller or Commons bank serves a write; a write to a tile-store window is ignored (R123). -/
def execMemoryWrite (req : MemReq) (data : List Byte) (obs : MemObs) (s : State) : Out := memAccess req (some data) obs s

/-! ### Scrub and calibration (R449, R450, R454, R839) -/

/-- The registers of a scrubber: status, control, position, and the lines it passes. Units 0 to 15 are the lodes, 16 to 19
the Commons banks. -/
def scrubRegs (u : Nat) : Nat × Nat × Nat × Nat :=
  if u < 16 then (A.lodeStatus u, A.lodeScrubCtl u, A.lodeScrubPos u, 0x600000000 / 64)
  else (A.cmStatus (u - 16), A.cmScrubCtl (u - 16), A.cmScrubPos (u - 16), 0x800000 / 64)

/-- The canonical address of a line of a scrubber. -/
def scrubAddr (u line : Nat) : Nat :=
  let o := line * 64
  if u < 16 then (o / 4096 * 16 + u) * 4096 + o % 4096 else commonsBase + (o / 4096 * 4 + (u - 16)) * 4096 + o % 4096

/-- A row of a lode, of 4 KiB of lode-local offsets (PRESUMED, log 66), as an index over all lodes. -/
def pprRow (u line : Nat) : Nat := u * 2 ^ 24 + line / 64

/-- A corrected error on scrub noted for its row, once a pass; on the third pass repair is pending (R450). An entry holds
twice the passes, and 1 once the pass in progress is counted. -/
def State.notePpr (s : State) (u line : Nat) : State :=
  let k := pprRow u line
  let v := tgetD s.pprRows k 0
  if 16 ≤ u ∨ v % 2 = 1 then s
  else
    let v := v / 2 * 2 + 3
    let s := { s with pprRows := tset s.pprRows k v }
    if 3 ≤ v / 2 then s.fset (A.lodeStatus u) A.lodeStatus_pprPending 1 else s

/-- A pass of a lode's scrub ends: its rows may be counted again. -/
def State.passEnd (s : State) (u : Nat) : State :=
  { s with pprRows := s.pprRows.map fun x => if x.1 / 2 ^ 24 = u then (x.1, x.2 / 2 * 2) else x }

/-- The ticks of a full pass of a scrubber: hours of a lode, 0 acting as 1 and values above 168 as 168; seconds of a bank, 0 acting as
1 (Tables 7-5 and 7-6). -/
def scrubPeriod (s : State) (u : Nat) : Nat :=
  let v := max 1 (s.fget (scrubRegs u).2.1 A.lodeScrubCtl_periodH)
  if u < 16 then min v 168 * 3600 * tSec else v * tSec

/-- The next line of a scrubber is due: the lines of a pass are spread evenly over its period (R449; the even spread is DEDUCED,
log 66). -/
def scrubDue (s : State) (u : Nat) : Bool :=
  let (_, _, pos, lines) := scrubRegs u
  decide (tgetD s.scrubAt u 0 + s.reg pos * scrubPeriod s u / lines ≤ s.tb.n)

/-- A scrubber has read its line: it goes on to the next, and a pass that ends begins the next one a period after it began. -/
def State.scrubNext (s : State) (u : Nat) : State :=
  let (st, _, pos, lines) := scrubRegs u
  let next := if s.reg pos + 1 < lines then s.reg pos + 1 else 0
  let t := tgetD s.scrubAt u 0
  let s' := (s.setReg pos next).fset st A.lodeStatus_scrubBusy (if next = 0 then 0 else 1)
  if next = 0 then { s'.passEnd u with scrubAt := tset s.scrubAt u (t + scrubPeriod s u) } else s'

/-- Background scrub reads the next line, when it is due (R449): a corrected line is written back, an uncorrectable one is reported with
no requester. -/
def execLodeScrub (unit : Nat) (obs : MemObs) (s : State) : Out :=
  if 20 ≤ unit then ok s
  else
    let (_, ctl, pos, _) := scrubRegs unit
    let line := s.reg pos
    let c := scrubAddr unit line
    if ¬ (s.flag ctl A.lodeScrubCtl_en ∧ dieOn s ∧ memServes s c ∧ scrubDue s unit) then ok s
    else
      let (s', seen) := s.observe c obs
      let s' := if seen = .lost then s'
        else if badRange s' c 64 then s'.logUncorrected ((firstBad s' c 64).getD c) none
        else if seen = .wrong then s'.storeMisread c
        else match obs with
          | .symbols 1 => s'.notePpr unit line
          | _ => s'
      ok (s'.scrubNext unit)

/-- A lode calibrates its next channel: the six of them one after the other every LODE_CAL_S seconds (R839). `calNext` holds
8 times the tick at which a round is due, plus the channel. -/
def execLodeCal (lode : Nat) (s : State) : Out :=
  let v := tgetD s.calNext lode 0
  let secs := max 1 (s.fget A.fcTestCtl A.fcTestCtl_lodeCalS)
  if lode < 16 ∧ dieOn s ∧ s.flag (A.lodeStatus lode) A.lodeStatus_ready ∧ (v % 8 ≠ 0 ∨ v / 8 ≤ s.tb.n) then
    let s := s.raiseM 62 0x0307 (lode + v % 8 * 16)
    ok { s with calNext := tset s.calNext lode (if v % 8 < 5 then v + 1 else 8 * (s.tb.n + secs * tSec)) }
  else ok s

/-! ### The region table (R424 to R427, R437, R469) -/

/-- A region with base and limit, in units of 64 KiB, meets R424. -/
def regionOk (base limit : Nat) : Bool :=
  decide (base < limit) && (decide (limit * 65536 ≤ lpddrTop) ||
    (decide (commonsBase ≤ base * 65536) && decide (limit * 65536 ≤ commonsBase + commonsSize)))

/-- The 64 KiB blocks of Commons whose owner differs between two states. -/
def ownerChanges (s s' : State) : List Nat :=
  (List.range 512).filter fun k => ownerAt s (commonsBase + k * 65536) != ownerAt s' (commonsBase + k * 65536)

/-- Blocks of Commons zeroed, whole lines with their code. -/
def State.zeroBlocks (s : State) (ks : List Nat) : State :=
  let hit (c : Nat) : Bool := decide (commonsBase ≤ c ∧ c < commonsBase + commonsSize) && ks.contains ((c - commonsBase) / 65536)
  { s with mem := s.mem.filter fun x => !hit x.1, badLines := s.badLines.filter fun l => !hit l }

/-- A change of the region table in force, with the Commons bytes that change owner zeroed; their accesses wait until the
zeroing is done (R437; the bytes read zero from the write on, DEDUCED, log 67). -/
def State.regionChange (s s' : State) : State :=
  let ks := ownerChanges s s'
  let s' := s'.zeroBlocks ks
  if ks.isEmpty then s'
  else
    let cl := ks.map fun k => Clearing.mk (commonsBase + k * 65536) (commonsBase + (k + 1) * 65536)
    { s' with clearing := s'.clearing ++ cl }.fset A.memStatus A.memStatus_cmClearing 1

/-- MEM_REGION_BASE_n or MEM_REGION_LIMIT_n written by firmware: in force on every mirror, or refused with REGION_ERR
(R427, R469). -/
def execMemRegionWrite (who : Who) (n : Nat) (limit : Bool) (val : Nat) (s : State) : Out :=
  if ¬ (who.isFw ∧ n < 64) then ok s
  else
    let b := s.reg (A.memRegionBase n)
    let l := s.reg (A.memRegionLimit n)
    let b' := if limit then b else fld val 3 0 + fld val 47 16 * 65536
    let l' := if limit then fld val 47 16 * 65536 else l
    if b'.testBit 0 ∧ ¬ regionOk (fld b' 47 16) (fld l' 47 16) then
      ok (s.fset A.memStatus A.memStatus_regionErr 1)
    else ok (s.regionChange ((s.setReg (A.memRegionBase n) b').setReg (A.memRegionLimit n) l'))

/-- An access that waited for zeroing proceeds, by the region table then in force. -/
def State.resumeAccess (s : State) (w : MemReq × Option (List Byte) × MemObs) : State :=
  match memAccess w.1 w.2.1 w.2.2 s with
  | .next t => t
  | _ => s

/-- The zeroing of Commons bytes ends and the accesses that wait proceed, in their order of arrival (R437). -/
def execCmClearDone (s : State) : Out :=
  if s.clearing.isEmpty then ok s
  else
    ok (s.memWaits.foldl State.resumeAccess
      ({ s with clearing := [], memWaits := [] }.fset A.memStatus A.memStatus_cmClearing 0))

/-! ### Key slots (R430 to R432, R468) -/

/-- Slot `k` is named by a valid MEM_PART_KEY of a partition other than `p`. -/
def slotNamed (s : State) (k : Nat) (p : Option Nat) : Bool :=
  (List.range 8).any fun q => some q != p && s.flag (A.memPartKey q) A.memPartKey_valid &&
    s.fget (A.memPartKey q) A.memPartKey_slot == k

/-- A valid region belongs to partition `p`. -/
def hasRegion (s : State) (p : Nat) : Bool :=
  (List.range 64).any fun n => s.flag (A.memRegionBase n) A.memRegionBase_valid &&
    s.fget (A.memRegionBase n) A.memRegionBase_owner == p

/-- MEM_PART_KEY_p written by firmware (R431, R468). -/
def execMemPartKey (who : Who) (p val : Nat) (s : State) : Out :=
  if ¬ (who.isFw ∧ p < 8) then ok s
  else if hasRegion s p then ok (s.fset A.memStatus A.memStatus_regionErr 1)
  else
    let k := fld val 3 0
    let v := val.testBit 4
    if v ∧ (k = 0 ∨ slotNamed s k (some p)) then ok s
    else
      let s := s.setReg (A.memPartKey p) (fld val 4 0)
      ok (if v then s.fset (A.memSlot k) A.memSlot_state 1 else s)

/-- A slot retired: its epoch advanced by 1, its state FREE (R432). -/
def State.retireSlot (s : State) (k : Nat) : State :=
  if k = 0 ∨ 16 ≤ k ∨ slotNamed s k none then s
  else (s.fset (A.memSlot k) A.memSlot_epoch ((s.fget (A.memSlot k) A.memSlot_epoch + 1) % 2 ^ 32)).fset
    (A.memSlot k) A.memSlot_state 0

/-- RETIRE written to MEM_SLOT_k by firmware. -/
def execRetire (who : Who) (k : Nat) (s : State) : Out := if who.isFw then ok (s.retireSlot k) else ok s

end Sys2Proof.Machine
end

