-- ==== Sys2Proof/Machine/Ledger.lean ====
section
/-! DEFINITION. The commands of the page ledger: KVOP, its operations, the flush and a class made valid (Attention and the
KV Page Ledger). -/

namespace Sys2Proof.Machine

open Sys2Proof

/-- A KVOP applies its operations one at a time; they wait while the ledger is not enabled (R326 to R328, Table 5-11). -/
def execKvop (slot : Nat) (s : State) : Out := if ledgerOn s then listStep 0x52 0x0167 lop lopReads slot s else ok s

/-- The row of one ledger operation: not applied where the memory it reads holds an uncorrectable error, which is recorded with its
partition (R444, R445). -/
def ledgerRow (op : Nat) (f : State → Nat → OpRec → State × Nat × Bool) (part : Nat) (r : OpRec) (res : Nat) (s : State) : Out :=
  if ledgerOn s then
    match (lopReads s { r with op := op }).find? fun x => badRange s x.1 x.2 with
    | some x => ok (s.logUncorrected ((firstBad s x.1 x.2).getD 0) (some part))
    | none => opRow f part r res s
  else ok s

def execSeqOpen (part : Nat) (r : OpRec) (res : Nat) (s : State) : Out := ledgerRow 0x01 lopSeqOpen part r res s
def execSeqClose (part : Nat) (r : OpRec) (res : Nat) (s : State) : Out := ledgerRow 0x02 lopSeqClose part r res s
def execShare (part : Nat) (r : OpRec) (res : Nat) (s : State) : Out := ledgerRow 0x03 lopShare part r res s
def execDrop (part : Nat) (r : OpRec) (res : Nat) (s : State) : Out := ledgerRow 0x04 lopDrop part r res s
def execCow (part : Nat) (r : OpRec) (res : Nat) (s : State) : Out := ledgerRow 0x05 lopCow part r res s
def execPin (part : Nat) (r : OpRec) (res : Nat) (s : State) : Out := ledgerRow 0x06 lopPin part r res s
def execUnpin (part : Nat) (r : OpRec) (res : Nat) (s : State) : Out := ledgerRow 0x07 lopUnpin part r res s
def execResolve (part : Nat) (r : OpRec) (res : Nat) (s : State) : Out := ledgerRow 0x08 lopResolve part r res s
def execTick (part : Nat) (r : OpRec) (res : Nat) (s : State) : Out := ledgerRow 0x09 lopTick part r res s
def execNoevict (part : Nat) (r : OpRec) (res : Nat) (s : State) : Out := ledgerRow 0x0A lopNoevict part r res s
def execKvopQuery (part : Nat) (r : OpRec) (res : Nat) (s : State) : Out := ledgerRow 0x0B lopQuery part r res s
def execAlloc (part : Nat) (r : OpRec) (res : Nat) (s : State) : Out := ledgerRow 0x0C lopAlloc part r res s
def execDecref (part : Nat) (r : OpRec) (res : Nat) (s : State) : Out := ledgerRow 0x0D lopDecref part r res s

/-- What the ledger reads for a flush: the sequence's record and the Bobbin lines of the page. -/
def flushReads (s : State) (q layer page : Nat) : List (Nat × Nat) :=
  (seqAddr s q, 32) ::
    match seqRec s q with
    | none => []
    | some r =>
      ((s.bobbin.filter fun b => b.seq == q && b.layer == layer && b.pos / pgPos s r.cls == page).flatMap BobEntry.lines).map
        fun l => (lineAddr l, 64)

/-- The ledger does the next flush of a layer of a sequence (R344, R346); an uncorrectable error in what it reads is recorded, and the
flush is still to be done (R444, R445). -/
def execFlush (seq layer : Nat) (s : State) : Out :=
  if ledgerOn s then
    match s.flushes.find? fun f => f.1 == seq && f.2.1 == layer with
    | none => ok s
    | some f =>
      match (flushReads s seq layer f.2.2).find? fun x => badRange s x.1 x.2 with
      | some x => ok (s.logUncorrected ((firstBad s x.1 x.2).getD 0) (some (((seqRec s seq).map SeqRec.owner).getD 0)))
      | none => ok (s.flushPage seq layer f.2.2).runDue.runPair
  else ok s

/-- The fields of a class word allow a valid class (R292, R294). -/
def classOk (w : Nat) : Bool :=
  let pos := fld w 8 6
  let size := entryBytesOf (fld w 14 9 + 1) (64 * 2 ^ fld w 16 15) (fld w 21 17)
  decide (12 ≤ fld w 5 1 ∧ fld w 5 1 ≤ 21 ∧ pos ≤ 5 ∧ fld w 16 15 ≤ 2) &&
    (fld w 21 17 == 0x03 || fld w 21 17 == 0x04 || fld w 21 17 == 0x0B || fld w 21 17 == 0x0C) &&
    decide (2 ^ pos * size ≤ 2 ^ fld w 5 1)

/-- The class has a LIVE or RETIRED frame (R359). -/
def classBusy (s : State) (n : Nat) : Bool := s.fget (A.ledgerCount n) A.ledgerCount_live != 0 || retiredOf s n != 0

/-- LEDGER_CLASS_n written by firmware (R294, R359): the fields only while VALID is 0 and no frame is LIVE or RETIRED; a
write of VALID = 1 that breaks R294 has no effect but CLASS_ERR; one that makes the class valid initialises every entry
to FREE with GEN 1 and begins the time in which IDLE is 0. -/
def execLedgerClassValid (who : Who) (n val : Nat) (s : State) : Out :=
  if ¬ (who.isFw ∧ n < 16) then ok s
  else
    let a := A.ledgerClass n
    let old := s.reg a
    let open_ := !old.testBit 0 && !classBusy s n
    let w := if open_ then fld val 21 1 * 2 else fld old 21 1 * 2
    let size := entryBytesOf (fld w 14 9 + 1) (64 * 2 ^ fld w 16 15) (fld w 21 17)
    if val.testBit 0 ∧ ¬ classOk w then ok (s.fset A.ledgerStatus A.ledgerStatus_classErr 1)
    else
      let s := s.setReg a (w + (val % 2) + (size % 2 ^ 17) * 2 ^ 22)
      if val.testBit 0 ∧ ¬ old.testBit 0 then
        let frames := 16 * perLode s n
        let s := (List.range frames).foldl (fun s f => s.storeBytes (entryAddr s n f) (leBytes 8 (2 ^ 38))) s
        let s := (s.fset (A.ledgerCount n) A.ledgerCount_live 0).fset (A.ledgerCount n) A.ledgerCount_free frames
        ok { s with classInit := s.classInit.filter (· != n) ++ [n], retired := tset s.retired n 0 }
      else ok s

/-- The initialisation of a class ends: IDLE is 1 once no class is being initialised (R359). -/
def execClassInitDone (n : Nat) (s : State) : Out := ok { s with classInit := s.classInit.filter (· != n) }

end Sys2Proof.Machine
end

