-- ==== Sys2Proof/Machine/Line.lean ====
section
/-! DEFINITION. The Line Port: strobes, verdicts, announcements and trigger inputs (Line Port, Timebase and Event
Order). -/

namespace Sys2Proof.Machine

open Sys2Proof

/-- The Line Port's pins are the module's own: the die runs and the Selvage does not hold the group (R608, R783). -/
def lineOn (s : State) : Bool := dieOn s && !(s.fget A.thimbleSelvage A.thimbleSelvage_held).testBit 0

/-- An event of the LINE block, which belongs to the port's owner (R631): dropped and counted where 1,024 wait
(R614). -/
def State.raiseLine (s : State) (ty payload ts : Nat) : State :=
  if 1024 ≤ (s.events.filter fun e => e.source == srcLine).length then
    s.bump A.lineTrigStat A.lineTrigStat_eventDrop 1
  else s.raiseAt srcLine ty (s.fget A.lineCtl A.lineCtl_part) payload ts

/-- What an answered strobe does to its entry: VALID cleared, or READ set (R598). -/
def State.markVerdict (s : State) (tag : Nat) : State :=
  if s.flag A.lineCtl A.lineCtl_clearOnRead then s.fset (A.lineVerdict tag) A.lineVerdict_valid 0
  else s.fset (A.lineVerdict tag) A.lineVerdict_read 1

/-- A strobe at a port-clock edge (R594 to R600). One sooner than 4 edges after the previous strobe is counted and not
answered. A module of a pair without the lease holds ACK at 0 and Q at the default and answers nothing (R606); the
safe state answers with the default (Table 16-4). The holder of a pair sends its partner each verdict it answered
with (R696). -/
def execStrobe (tag : Nat) (tagValid : Bool) (edge : Nat) (s : State) : Out :=
  let tag := tag % 65536
  if ¬ lineOn s then ok s
  else
    let early := match s.lastEdge with | some e => decide (edge < e + 4) | none => false
    let s := { s with lastEdge := some edge }
    if early then ok (s.bump A.lineStat A.lineStat_early 1)
    else
      let s := if tagValid then s else s.bump A.lineStat A.lineStat_badStrobe 1
      let d := s.fget A.lineDefault A.lineDefault_q
      if ¬ mayEmit s then ok { s with pins := { s.pins with lineQ := d, lineAck := false } }
      else
        let e := s.reg (A.lineVerdict tag)
        let hit := s.flag A.lineCtl A.lineCtl_enable && tagValid && e.testBit 16 && !safe s
        let q := if hit then fld e 15 0 else d
        let s := { s with pins := { s.pins with lineQ := q, lineAck := hit } }
        let s := s.bump A.lineStat A.lineStat_reads 1
        let s := s.setReg A.lineLast (tag + q * 2 ^ 16 + (if hit then 2 ^ 32 else 0))
        if hit then
          let s := s.markVerdict tag
          ok (if paired s then s.pairSend 0x1A (.pair 0x1A [tag, q, now s]) else s)
        else
          let s := s.bump A.lineStat A.lineStat_misses 1
          ok (if s.flag A.lineCtl A.lineCtl_missEvents then s.raiseLine 0x0101 tag (now s) else s)

/-- A tag announcement (R599). -/
def execTagAnnouncement (tag : Nat) (s : State) : Out :=
  if lineOn s ∧ s.flag A.lineCtl A.lineCtl_tagEvents then ok (s.raiseLine 0x0100 (tag % 65536) (now s)) else ok s

/-- A verdict write commits: Q and VALID as written, READ cleared (R604). A standby then drops the holder's answers that wait for a verdict
of another Q, and applies the first one of this Q (R696). -/
def State.commitVerdict (s : State) (tag val : Nat) : State :=
  let q := fld val 15 0
  let s := s.setReg (A.lineVerdict tag) (fld val 16 0)
  if ¬ val.testBit 16 then s
  else
    let pend := s.linePend.filter fun p => p.tag != tag || p.q == q
    match pend.find? fun p => p.tag == tag with
    | none => { s with linePend := pend }
    | some p => { s with linePend := pend.erase p }.markVerdict tag

/-- A verdict write reaches the LINE block (R602, R604). One of another partition than the port's owner is dropped, counted and
reported (R41); the router of the LINE block's row reports it (DESIGN CHOICE, log 17). -/
def execVerdictWrite (part tag val : Nat) (s : State) : Out :=
  let tag := tag % 65536
  let s := { s with verdictQ := s.verdictQ.erase (part, tag, val) }
  if ¬ dieOn s then ok s
  else if part = s.fget A.lineCtl A.lineCtl_part then ok (s.commitVerdict tag val)
  else ok (s.tagDrop 61 part 1)

/-- One second after its receipt, the standby discards a LINE_READ entry still pending (R696). -/
def execPendingEntryDiscard (s : State) : Out :=
  ok { s with linePend := s.linePend.filter fun p => decide (s.tb.n < p.at_ + tSec) }

/-- The state of a trigger input. -/
def trigIn (s : State) (i : Nat) : TrigIn := tgetD s.trigs i { level := false, pending := none, last := none }

/-- An edge on a trigger input: the input has left its old level, so an edge still in its filter is not accepted; an
edge that LINE_TRIG_CFG selects starts its filter (R609, R610). -/
def execTrigEdge (input : Nat) (rising : Bool) (ts : Nat) (s : State) : Out :=
  if input < 16 ∧ lineOn s then
    let c := s.reg (A.lineTrigCfg input)
    let sel := c.testBit 0 && (fld c 2 1).testBit (if rising then 0 else 1)
    let t := trigIn s input
    let t := { t with level := rising, pending := if sel then some (rising, ts) else none }
    ok { s with trigs := tset s.trigs input t }
  else ok s

/-- A trigger edge has held its level through the filter (R610 to R612): within 20 ns of the last accepted edge it is a
glitch; else it enters the FIFO of 256, or counts as overflow, and raises TRIG where asked. -/
def execTrigAccept (input : Nat) (s : State) : Out :=
  let t := trigIn s input
  match t.pending with
  | none => ok s
  | some (rising, ts) =>
    let c := s.reg (A.lineTrigCfg input)
    if ¬ (input < 16 ∧ lineOn s ∧ ts + fld c 13 4 ≤ now s) then ok s
    else if (match t.last with | some l => decide (ts ≤ l + 20) | none => false) then
      ok ({ s with trigs := tset s.trigs input { t with pending := none } }.bump A.lineTrigStat A.lineTrigStat_glitch 1)
    else
      let s := { s with trigs := tset s.trigs input { t with pending := none, last := some ts } }
      let s := if s.trigFifo.length < 256 then
          { s with trigFifo := s.trigFifo ++ [TrigEntry.mk input rising ts] }
        else s.bump A.lineTrigStat A.lineTrigStat_overflow 1
      if c.testBit 3 then
        let s := s.raiseLine 0x0102 (input + (if rising then 16 else 0)) ts
        ok (if s.flag A.thimbleWakeCtl A.thimbleWakeCtl_trigEn then s.dozeWake 13 else s)
      else ok s

/-- The readers of the LINE block: the port's owner, and firmware (R636, R789). -/
def mayReadLine (s : State) (who : Who) : Bool := who.isFw || who.isPart (s.fget A.lineCtl A.lineCtl_part)

/-- LINE_TRIG_POP read: the head entry returned and removed, VALID = 0 when the FIFO is empty (R636). -/
def execLineTrigPop (who : Who) (s : State) : Out :=
  if mayReadLine s who then
    match s.trigFifo with
    | [] => ok (s.answer 0)
    | e :: r => ok ({ s with trigFifo := r }.answer (e.input + (if e.rising then 16 else 0) + 2 ^ 63))
  else ok (s.answer 0)

end Sys2Proof.Machine
end

