-- ==== Sys2Proof/Machine/Net.lean ====
section
/-! DEFINITION. The Ethernet receive path: the Shuttles, the classifier, camera flows and reassembly (Host Link, Control
Protocol and Exactly-Once Delivery). -/

namespace Sys2Proof.Machine

open Sys2Proof

/-- The Shuttle of a frame: its PCP on a 25G port, 0 without a tag; the one Shuttle of the management port (R542). -/
def shuttleOf (port : Nat) (f : EthFrame) : Nat := if port = 2 then 16 else port * 8 + (if f.tagged then f.pcp % 8 else 0)

/-- The words of a Shuttle (R542), and those that a frame of a length takes (R544). -/
def shuttleSize (key : Nat) : Nat := if key = 16 then 256 else 1024
def frameWords (len : Nat) : Nat := (16 + len + 63) / 64

/-- The words of a Shuttle in use. -/
def shuttleUsed (s : State) (key : Nat) : Nat := ((tgetD s.shuttles key []).map fun f => frameWords f.frame.len).sum

/-- The frame is for the control-protocol endpoint. -/
def forEndpoint (f : EthFrame) : Bool :=
  match f.body with | .control _ _ | .fragment _ _ _ _ _ => true | _ => false

/-- A frame at a port's MAC (R537, R545 to R548): refused where its Shuttle has no room for the largest frame; discarded
for a bad FCS or its length; else stored with its length words and its arrival time. A control frame wakes a module in
DOZE where NET_EN is set (R761). -/
def execFrameReceive (port : Nat) (f : EthFrame) (s : State) : Out :=
  if ¬ portOn s port then ok s
  else
    let key := shuttleOf port f
    let used := shuttleUsed s key
    let s := if port < 2 then s.gcount 7 port f.len none else s
    if shuttleSize key < used + frameWords (maxFrame s port) then
      ok (if port < 2 then s.bump (A.nxShuttleStat port (key % 8)) A.nxShuttleStat_drop 1 else s)
    else if maxFrame s port < f.len then ok (s.bump (portBase port + 0x30) A.nxRxDrop_oversize 1)
    else if ¬ f.fcsOk then ok (s.bump (portBase port + 0x30) A.nxRxDrop_fcs 1)
    else
      let s := { s with shuttles := tset s.shuttles key (tgetD s.shuttles key [] ++ [ShFrame.mk f (now s)]) }
      let s := if port < 2 then
          s.raiseTo (A.nxShuttleStat port (key % 8)) A.nxShuttleStat_highWater (used + frameWords f.len)
        else s
      ok (if forEndpoint f ∧ s.flag A.thimbleWakeCtl A.thimbleWakeCtl_netEn then s.dozeWake 11 else s)

/-- The Qci filter of a tagged frame: the lowest enabled one of its VLAN and PCP (R536). -/
def filterOf (s : State) (port : Nat) (f : EthFrame) : Option Nat :=
  if ¬ f.tagged then none
  else (List.range 64).find? fun k =>
    let a := A.nxFilter port k
    s.flag a A.nxFilter_en && s.fget a A.nxFilter_vlan == f.vlan && s.fget a A.nxFilter_pcp == f.pcp

/-- A frame at its filter: dropped and counted beyond MAX_SDU or beyond its meter, a token bucket of CBS_BYTES filled at
CIR_KBPS, in units of 1/8,000,000 byte (the bucket is that of 802.1Qci, PRESUMED, log 39). -/
def State.police (s : State) (port k : Nat) (f : EthFrame) : State × Bool :=
  let a := A.nxFilter port k
  let sdu := s.fget a A.nxFilter_maxSdu
  let cir := s.fget a A.nxFilter_cirKbps
  let drop := s.bump (A.nxFilterCnt port k) A.nxFilterCnt_dropped 1
  if sdu ≠ 0 ∧ sdu < f.len then (drop, false)
  else if cir = 0 then (s, true)
  else
    let full := s.fget (A.nxFilterCnt port k) A.nxFilterCnt_cbsBytes * 8000000
    let (tok, at_) := tgetD s.meters (port * 64 + k) (full, s.tb.n)
    let tok := min full (tok + (s.tb.n - at_) * 10 * cir)
    let need := f.len * 8000000
    if need ≤ tok then ({ s with meters := tset s.meters (port * 64 + k) (tok - need, s.tb.n) }, true)
    else ({ drop with meters := tset s.meters (port * 64 + k) (tok, s.tb.n) }, false)

/-- The CB stream of a frame: its VLAN, and its source where the stream names one (R536). -/
def cbStream (s : State) (f : EthFrame) : Option Nat :=
  if ¬ f.tagged then none
  else (List.range 64).find? fun k =>
    let a := A.nxCbS 0 k
    s.flag a A.nxCbS_en && s.fget a A.nxCbS_vlan == f.vlan &&
      (s.fget a A.nxCbS_srcMac == 0 || s.fget a A.nxCbS_srcMac == f.srcMac)

/-- Sequence recovery by the vector algorithm with history 32 (R536): `seen` is the highest number and those of its
history that came. Answers the new history where the frame passes (the algorithm is that of 802.1CB, PRESUMED, log 39). -/
def recovered (seen : List Nat) (q : Nat) : Option (List Nat) :=
  match seen with
  | [] => some [q]
  | h :: _ =>
    let ahead := (q + 2 ^ 16 - h) % 2 ^ 16
    let behind := (h + 2 ^ 16 - q) % 2 ^ 16
    if 0 < ahead ∧ ahead < 32 then some (q :: seen.filter fun x => decide ((q + 2 ^ 16 - x) % 2 ^ 16 < 32))
    else if behind < 32 ∧ ¬ seen.contains q then some (seen ++ [q])
    else none

/-- The lowest flow entry of a UDP frame (R552). -/
def flowOf (s : State) (port dport : Nat) (f : EthFrame) : Option Nat :=
  (List.range 64).find? fun k =>
    let a := A.nxFlow port k
    s.flag a A.nxFlow_en && s.fget a A.nxFlow_udpPort == dport &&
      (!s.flag a A.nxFlow_vlanEn || (f.tagged && s.fget a A.nxFlow_vlan == f.vlan))

/-- A camera packet written into the next slot of its channel's ring, VALID set last; dropped and counted where the slot
is still VALID or the packet is too long (R490, R491, R553). -/
def State.ringWrite (s : State) (port k arrival : Nat) (bs : List Byte) : State :=
  let a := A.nxFlow port k
  match vchan? s (s.fget a A.nxFlow_vd) (s.fget a A.nxFlow_chan) false with
  | none => s.bump (A.nxFlowCnt port k) A.nxFlowCnt_ringDrop 1
  | some c =>
    let w := ringAddr c + 2048 * (c.ringPut % ringSlots c)
    if 2032 < bs.length ∨ (word64 s w).testBit 63 then s.bump (A.nxFlowCnt port k) A.nxFlowCnt_ringDrop 1
    else
      let s := s.storeBytes (w + 8) (leBytes 8 arrival ++ bs)
      let s := s.storeBytes w (leBytes 8 (bs.length + 2 ^ 63))
      (s.setChan { c with ringPut := c.ringPut + 1 }).bump (A.nxFlowCnt port k) A.nxFlowCnt_delivered 1

/-- A QUERY of an item that Table 9-12 does not have. -/
def unknownItem (f : CtlFrame) : Bool := match f.body with | .queryB item _ => item == 0 || decide (4 < item) | _ => false

/-- A control frame handed to the endpoint. A QUERY of an unknown item is refused there with BAD_FRAME (R569). -/
def State.toEndpoint (s : State) (port : Nat) (f : CtlFrame) : State :=
  if unknownItem f then
    onSession s port f.hdr 2 0 0 fun _ s => s.respond port f.hdr.session f.hdr.frameSeq (mkResp 0x0D Cs.badFrame [])
  else { s with inbox := s.inbox ++ [(port, f)] }

/-- The control protocol's UDP port (NX_CP_PORT, R563); the management MAC's is NX0's. -/
def cpPort (s : State) (port : Nat) : Nat := s.fget (A.nxCpPort (port % 2)) A.nxCpPort_udpPort

/-- A fragment of a control datagram on the management port (R568): it joins its datagram, of which at most 16 are held;
one that is complete goes to the endpoint. A datagram of more than 8,224 bytes is not reassembled. -/
def State.reassemble (s : State) (id total idx : Nat) (f : CtlFrame) : State :=
  match tget s.reasm id with
  | none =>
    if 8192 < f.hdr.len then s
    else if total ≤ 1 then s.toEndpoint 2 f
    else if 16 ≤ s.reasm.length then s
    else { s with reasm := tset s.reasm id { total := total, got := [idx], frame := f, at_ := s.tb.n } }
  | some r =>
    let got := if r.got.contains idx then r.got else r.got ++ [idx]
    if r.total ≤ got.length then { s with reasm := tdel s.reasm id }.toEndpoint 2 r.frame
    else { s with reasm := tset s.reasm id { r with got := got } }

/-- A gPTP frame at the gPTP unit with its timestamp, accurate to 8 ns (R540). The unit's offset results come as commands (DESIGN CHOICE,
log 118). -/
def State.ptpStamp (s : State) (port arrival : Nat) : State :=
  let e := max (-8) (min 8 (Config.stampError s.free))
  { s with ptpIn := s.ptpIn ++ [(port, ((arrival : Int) + e).toNat % 2 ^ 64)] }.tickFree

/-- A frame given to its consumer, or to the drop counter (R537, R540, R552, R556, R558, R563, R568). -/
def State.deliver (s : State) (port arrival : Nat) (f : EthFrame) : State :=
  let lost := s.bump (portBase port + 0x30) A.nxRxDrop_unclassified 1
  match f.body with
  | .gptp => if port < 2 then s.ptpStamp port arrival else lost
  | .pause => s.bump (portBase port + 0x30) A.nxRxDrop_pause 1
  | .control dport c => if dport = cpPort s port then s.toEndpoint port c else lost
  | .fragment id total idx dport c => if port = 2 ∧ dport = cpPort s port then s.reassemble id total idx c else lost
  | .roceRequest => if port < 2 then s.bump (A.nxRdmaDrop port) A.nxRdmaDrop_inboundReq 1 else lost
  | .roceResponse qpn r => if port < 2 then { s with rdmaIn := s.rdmaIn ++ [(qpn, r)] } else lost
  | .congestion qpn => if port < 2 then { s with cnpIn := s.cnpIn ++ [qpn] } else lost
  | .udp dport bs =>
    match if port < 2 then flowOf s port dport f else none with
    | some k => s.ringWrite port k arrival bs
    | none => lost
  | .other => lost

/-- The classifier takes the head frame of a Shuttle (R549 to R552): on a 25G port the Qci filter and the CB recovery act
first. An empty Shuttle gives nothing. -/
def execClassify (port shuttle : Nat) (s : State) : Out :=
  let key := if port = 2 then 16 else port * 8 + shuttle % 8
  match tgetD s.shuttles key [] with
  | [] => ok s
  | x :: r =>
    if ¬ (port < 3 ∧ dieOn s ∧ s.frozen = false) then ok s
    else
      let s := { s with shuttles := tset s.shuttles key r }
      let f := x.frame
      let (s, pass) := match if port < 2 then filterOf s port f else none with
        | some k => s.police port k f
        | none => (s, true)
      if ¬ pass then ok s
      else
        match if port < 2 then cbStream s f else none, f.cbSeq with
        | some k, some q =>
          match recovered (tgetD s.cbSeen k []) (q % 2 ^ 16) with
          | some seen => ok ({ s with cbSeen := tset s.cbSeen k seen }.deliver port x.arrival f)
          | none => ok s
        | _, _ => ok (s.deliver port x.arrival f)

/-- 100 ms after its first fragment, an incomplete datagram is discarded (R568). -/
def execReassemblyTimeout (id : Nat) (s : State) : Out :=
  match tget s.reasm id with
  | some r => if r.at_ + 100 * tMs ≤ s.tb.n then ok { s with reasm := tdel s.reasm id } else ok s
  | none => ok s

end Sys2Proof.Machine
end

