-- ==== Sys2Proof/Machine/Pair.lean ====
section
/-! DEFINITION. The commands of a pair: its frames, the lease timers, heartbeats and swaps (Active and Standby Pairs). -/

namespace Sys2Proof.Machine

open Sys2Proof

/-- A pair frame: a frame of counter space 0 on the pair link of a paired module (R653, R685). -/
def onPair (s : State) (j type : Nat) (f : WarpFrame) (act : State → State) : State :=
  onFrame s j type f false fun s => if paired s ∧ pairLink s = some j then act s else s

/-- LEASE on the pair link (R698, R707, R709): the offset result is the sender's time plus the link's delay, 0.7 µs and
5 ns per metre of fibre, minus this module's time. -/
def execLease (j : Nat) (f : WarpFrame) (r : LeaseRec) (s : State) : Out :=
  ok (onPair s j 0x10 f fun s =>
    s.gotLease r.serial r.epoch r.release true ((r.time + 700 + 5 * r.fibreM : Nat) - (now s : Int)))

/-- PAIR_LEASE on an Ethernet port (R705, R706). -/
def execPairLease (port : Nat) (h : CtlHdr) (b : PairLeaseBody) (s : State) : Out :=
  let s := s.takeInbox port h
  if h.type = 0x20 ∧ dieOn s ∧ ¬ s.frozen then ok (s.gotPairLease port h b) else ok s

/-- JOURNAL: the standby writes the records and confirms them (R574). -/
def execJournal (j : Nat) (f : WarpFrame) (num : Nat) (ws : List JournalWrite) (s : State) : Out :=
  ok (onPair s j 0x11 f fun s =>
    if follows s then
      let s := ws.foldl State.applyWrite s
      ({ s with pair := { s.pair with journalDone := max s.pair.journalDone num } }.pairSend 0x12 (.pair 0x12 [num])).runPair
    else s)

/-- JOURNAL_CONFIRM: requests whose record is confirmed are accepted, and held outputs whose records are confirmed leave
(R574, R694). -/
def execJournalConfirm (j : Nat) (f : WarpFrame) (num : Nat) (s : State) : Out :=
  ok (onPair s j 0x12 f fun s =>
    if mirrors s then
      let s := { s with pair := { s.pair with journalDone := max s.pair.journalDone num } }
      (s.acceptHeld (some num)).releaseHeld
    else s)

/-- PAIR_LAG, and the standby out of step where the lag passes PAIR_LAG_MAX (R700). -/
def State.setLag (s : State) (lagUs : Nat) : State :=
  let s := s.fset A.pairLag A.pairLag_lagUs (satTo 32 lagUs)
  let s := s.raiseTo A.pairLag A.pairLag_highWaterUs (satTo 32 lagUs)
  if s.fget A.pairLagMax A.pairLagMax_us < lagUs then s.leaveStandby 3 else s

/-- DECISION: the standby confirms the record and applies its outcomes in their order among the steps that it runs (R692 to R694);
`lagUs` is how far its last completed step then trails. -/
def execDecision (j : Nat) (f : WarpFrame) (num lagUs : Nat) (outs : List Outcome2) (s : State) : Out :=
  ok (onPair s j 0x13 f fun s =>
    if follows s then
      let s := { s with pair := { s.pair with
        decisionDone := max s.pair.decisionDone num, work := s.pair.work ++ outs.map PairWork.decided } }
      (s.pairSend 0x14 (.pair 0x14 [num])).runPair.setLag lagUs
    else s)

/-- The packets of jitter-window pictures that a list of records names. -/
def namedPkts (ds : List (Nat × List Outcome2)) : List (Nat × Nat × Nat) :=
  (ds.flatMap Prod.snd).flatMap fun o => match o with
    | .picture vd chan _ seqs => seqs.map fun q => (vd, chan, q)
    | _ => []

/-- DECISION_CONFIRM: held outputs leave, copies of confirmed pictures go, and a swap that waited completes (R694, R699,
R717). -/
def execDecisionConfirm (j : Nat) (f : WarpFrame) (num : Nat) (s : State) : Out :=
  ok (onPair s j 0x14 f fun s =>
    if mirrors s then
      let gone := namedPkts (s.pair.decisions.filter fun d => decide (d.1 ≤ num))
      let s := { s with pair := { s.pair with
        decisionDone := max s.pair.decisionDone num
        decisions := s.pair.decisions.filter fun d => decide (num < d.1)
        copies := s.pair.copies.filter fun c => !gone.contains (c.1, c.2.1, c.2.2.ext) } }
      s.releaseHeld.trySwap
    else s)

/-- PKT_FETCH: the active sends each packet asked for, or that it has no copy (R699). -/
def execPktFetch (j : Nat) (f : WarpFrame) (vd chan : Nat) (seqs : List Nat) (s : State) : Out :=
  ok (onPair s j 0x15 f fun s =>
    if mayEmit s then
      seqs.foldl (fun s q =>
        let k := s.pair.copies.find? fun c => c.1 == vd && c.2.1 == chan && c.2.2.ext == q
        s.pairSend 0x16 (.pktData vd chan q (k.map fun c => c.2.2))) s
    else s)

/-- PKT_DATA: the packet joins its channel, and a picture whose packets are now all held closes; a packet without a copy
puts the standby out of step (R699). -/
def execPktData (j : Nat) (f : WarpFrame) (vd chan seq : Nat) (pkt : Option Pkt) (s : State) : Out :=
  ok (onPair s j 0x16 f fun s =>
    if ¬ (follows s ∧ s.pair.fetching.contains (vd, chan, seq)) then s
    else
      match pkt, vchan? s vd chan false with
      | some k, some c =>
        let s := s.setChan { c with pkts := c.pkts ++ [{ k with ext := seq }] }
        let s := { s with pair := { s.pair with fetching := s.pair.fetching.filter (· != (vd, chan, seq)) } }
        let due := s.pair.waiting.filter fun w => w.1 == vd && w.2.1 == chan && (lackedPkts s vd chan w.2.2.2).isEmpty
        let s := { s with pair := { s.pair with waiting := s.pair.waiting.filter fun w => !due.contains w } }
        due.foldl (fun s w => s.closeNamed w.1 w.2.1 w.2.2.2) s
      | _, _ => s.leaveStandby 6)

/-- JOIN_DATA: memory, images and state copied by the joining side (R715). -/
def execJoinData (j : Nat) (f : WarpFrame) (item : JoinItem) (s : State) : Out :=
  ok (onPair s j 0x17 f fun s => if pairSt s = 2 then s.takeItem item else s)

/-- JOIN_CTL: the phases of a join (R715, R905). -/
def execJoinCtl (j : Nat) (f : WarpFrame) (phase digest major : Nat) (s : State) : Out :=
  ok (onPair s j 0x18 f fun s =>
    if pairSt s = 2 then s.followJoin phase else if mayEmit s then s.serveJoin phase digest major else s)

/-- SWAP: the standby becomes ACTIVE at the new epoch (R717). -/
def execSwap (j : Nat) (f : WarpFrame) (epoch : Nat) (s : State) : Out :=
  ok (onPair s j 0x19 f fun s =>
    if pairSt s = 3 ∧ s.reg A.pairEpoch < epoch then
      { s with pair := { s.pair with journalSent := s.pair.journalDone, decisionSent := s.pair.decisionDone } }.takeLease
        epoch 4 1
    else s)

/-- One LINE_READ entry (R696): applied where the entry of the tag is VALID with the same Q, else kept pending. -/
def State.applyRead (s : State) (e : LineReadEntry) : State :=
  let v := s.reg (A.lineVerdict (e.tag % 65536))
  if v.testBit 16 ∧ fld v 15 0 = e.q then
    if s.flag A.lineCtl A.lineCtl_clearOnRead then s.fset (A.lineVerdict (e.tag % 65536)) A.lineVerdict_valid 0
    else s.fset (A.lineVerdict (e.tag % 65536)) A.lineVerdict_read 1
  else { s with linePend := s.linePend ++ [PendingRead.mk (e.tag % 65536) e.q s.tb.n] }

/-- LINE_READ: the module that does not answer applies the entries in order (R606, R696). -/
def execLineRead (j : Nat) (f : WarpFrame) (es : List LineReadEntry) (s : State) : Out :=
  ok (onPair s j 0x1A f fun s => if mayEmit s then s else es.foldl State.applyRead s)

/-- The renewal tick of the holder (R703, R704): a lease of 2 ms from here and LEASE on both paths, or PAIR_RENEW_MISS.
-/
def execLeaseRenewal (s : State) : Out :=
  if paired s ∧ (pairSt s = 4 ∨ pairSt s = 5) ∧ s.pair.renewAt ≤ s.tb.n ∧ dieOn s then
    let cause := if safe s then 2 else if s.pair.higher then 3 else if s.pair.heartbeat then 0 else 1
    let s := { s with pair := { s.pair with renewAt := s.tb.n + renewTicks, heartbeat := false } }
    if cause = 0 then
      let s := { s with pair := { s.pair with ownUntil := s.tb.n + leaseTicks } }.sendLease false
      ok (if s.pair.joinAsked ∧ s.fget A.pairStatus A.pairStatus_joinPhase = 4 then s.sendJoinCtl 4 else s)
    else ok ((s.bump A.pairCounts A.pairCounts_renewMiss 1).raiseM 58 0x0642 cause)
  else ok s

/-- The holder's own lease expires: every emission stops, WAITING (R702, Table 12-1). -/
def execLeaseExpiry (s : State) : Out :=
  if paired s ∧ (pairSt s = 4 ∨ pairSt s = 5) ∧ s.pair.ownUntil ≤ s.tb.n then
    let s := { s.toWaiting with pair := { s.toWaiting.pair with lapsedHere := true } }
    ok ((s.raiseM 58 0x0641 (s.reg A.pairEpoch)).releaseHeld)
  else ok s

/-- The partner's lease lapses: a joining module discards what it copied; a standby takes over after the guard (R707). -/
def execLeaseLapse (s : State) : Out :=
  if paired s ∧ pairSt s = 2 ∧ s.pair.partnerUntil ≤ s.tb.n then ok s.dropJoin.toWaiting
  else if paired s ∧ pairSt s = 3 ∧ s.pair.partnerUntil + guardTicks ≤ s.tb.n then
    ok (s.takeLease (s.reg A.pairEpoch + 1) 5 0)
  else ok s

/-- 100 µs after RELEASE the standby takes over (R708). -/
def execReleaseTakeover (s : State) : Out :=
  match s.pair.releaseAt with
  | some t => if paired s ∧ pairSt s = 3 ∧ t ≤ s.tb.n then ok (s.takeLease (s.reg A.pairEpoch + 1) 5 2) else ok s
  | none => ok s

/-- No LEASE has been received for 2.1 ms, or for 10 s: a module with heartbeat takes the lease; from OFF one without
goes to WAITING (Table 12-1). -/
def execLeaseWaitTimeout (s : State) : Out :=
  let quick := s.flag A.pairCtl A.pairCtl_preferActive || s.pair.lapsedHere
  let due := s.pair.noLeaseSince + (if quick then 210000 else 10 * tSec)
  if paired s ∧ (pairSt s = 0 ∨ pairSt s = 1) ∧ due ≤ s.tb.n ∧ s.store.starting.isNone ∧ dieOn s then
    if s.pair.heartbeat then ok (s.takeLease (s.reg A.pairEpoch + 1) 5 0)
    else ok (if pairSt s = 0 then s.toWaiting else s)
  else ok s

/-- PAIR_HEARTBEAT written by the runtime (R703). -/
def execPairHeartbeat (_who : Who) (s : State) : Out :=
  ok { s with pair := { s.pair with heartbeat := true } }

/-- SWAP_REQ written by firmware (R717, R718). -/
def execSwapReq (who : Who) (s : State) : Out := if who.isFw then ok s.beginSwap else ok s

/-- The timebase reaches PAIR_SWAP_AT: the active swaps, and the time moves on by SWAP_PERIOD_H hours (R717, R719). -/
def execSwapAt (s : State) : Out :=
  let t := s.reg A.pairSwapAt
  if t ≠ 0 ∧ t ≤ now s ∧ dieOn s then
    let h := s.fget A.pairCtl A.pairCtl_swapPeriodH
    let s := if h = 0 then s else s.setReg A.pairSwapAt ((t + h * 3600 * 10 ^ 9) % 2 ^ 64)
    ok (if pairSt s = 3 then s else s.beginSwap)
  else ok s

end Sys2Proof.Machine
end

