-- ==== Sys2Proof/Machine/VideoEnc.lean ====
section
/-! DEFINITION. The encoder's parameter sets and packets, its motion search and its references (R474, R475, R479, R520, R525). -/

namespace Sys2Proof.Machine

open Sys2Proof

/-! ### Parameter sets, slices and packets (R474, R475, R479) -/

/-- The levels of HEVC up to 5.1: general_level_idc, and the limits of Main tier on luma samples of a picture, luma samples a second and
kbit/s (the standard's Tables A.8 and A.9, which R474 names by the word level: PRESUMED, log 103). -/
def hevcLevels : List (Nat × Nat × Nat × Nat) :=
  [(30, 36864, 552960, 128), (60, 122880, 3686400, 1500), (63, 245760, 7372800, 3000), (90, 552960, 16588800, 6000),
    (93, 983040, 33177600, 10000), (120, 2228224, 66846720, 12000), (123, 2228224, 133693440, 20000), (150, 8912896, 267386880, 25000),
    (153, 8912896, 534773760, 40000)]

/-- The lowest level that a channel fits, 5.1 where none below it does (R474). -/
def VChan.level (c : VChan) : Nat :=
  let fits (l : Nat × Nat × Nat × Nat) : Bool :=
    decide (c.width * c.height ≤ l.2.1 ∧ c.width ^ 2 ≤ 8 * l.2.1 ∧ c.height ^ 2 ≤ 8 * l.2.1 ∧
      c.width * c.height * c.fps ≤ l.2.2.1 ∧ c.wd 5 31 0 ≤ l.2.2.2)
  ((hevcLevels.find? fits).map Prod.fst).getD 153

/-- What an encode channel's stream says of itself (R474). -/
def VChan.sets (c : VChan) : EncSets :=
  { width := c.width, height := c.height, fps := c.fps, level := c.level, dpb := c.wd 0 37 34 + 1, sliceRows := c.wd 5 55 48,
    ltr := c.wd 5 63 56, profile := 1, depth := 8, ctuLog2 := 6, deblock := true, sao := true }

/-- VPS, SPS and PPS, with the NAL unit types 32, 33 and 34 of the standard (R475; PRESUMED, log 103). -/
def paramNals (c : VChan) : List (List Byte) :=
  [0, 1, 2].map fun k => [BitVec.ofNat 8 ((32 + k) * 2), 1] ++ Config.paramSet k c.sets

/-- A slice of a picture: type 20 in an IDR picture, which no leading picture follows, else 1 (R474; PRESUMED, log 103). -/
def sliceNal (c : VChan) (refs : List (List Byte × List (Int × Int))) (samples : List Byte) (idr : Bool) (slice : Nat) (missed : Bool) :
    List Byte :=
  [if idr then 40 else 2, 1] ++ Config.sliceData c.sets refs samples idr c.qp slice missed

/-- The fragmentation units of a NAL unit, each with up to `n` of its bytes after the header (RFC 7798; PRESUMED, log 103). `fuel` bounds
them. -/
def fragments (b0 b1 : Byte) (n : Nat) : Nat → Bool → List Byte → List (List Byte)
  | 0, _, _ => []
  | f + 1, first, bs =>
    let last := decide (bs.length ≤ n)
    let fu : Nat := (if first then 128 else 0) + (if last then 64 else 0) + fld b0.toNat 6 1
    ([BitVec.ofNat 8 (b0.toNat / 128 * 128 + 98 + b0.toNat % 2), b1, BitVec.ofNat 8 fu] ++ bs.take n) ::
      (if last then [] else fragments b0 b1 n f false (bs.drop n))

/-- The RTP payloads of a NAL unit: one packet where it fits the MTU behind the 12 bytes of the RTP header, else fragmentation units; no
aggregation (R479). -/
def nalPayloads (mtu : Nat) (nal : List Byte) : List (List Byte) :=
  if nal.length + 12 ≤ mtu then [nal] else fragments (nal.getD 0 0) (nal.getD 1 0) (mtu - 15) nal.length true (nal.drop 2)

/-- The NAL units of a slice: before the first one of an IDR picture, and only there, the parameter sets (R475). -/
def sliceUnits (c : VChan) (refs : List (List Byte × List (Int × Int))) (samples : List Byte) (idr : Bool) (slice : Nat) (missed : Bool) :
    List (List Byte) :=
  (if idr ∧ slice = 0 then paramNals c else []) ++ [sliceNal c refs samples idr slice missed]

/-- Bits of NAL units (R519, R521). -/
def unitBits (us : List (List Byte)) : Nat := 8 * (us.map List.length).sum

/-! ### Motion search (R520) -/

/-- A byte of a raster of `w` columns and `h` rows, with its edge repeated outside. -/
def rasterAt (w h : Nat) (bs : List Byte) (r c : Int) : Nat :=
  (bs.getD (min (h - 1) r.toNat * w + min (w - 1) c.toNat) 0).toNat

/-- The luma raster of a PLANE8 picture in the order of R498: bands of 64 rows, in a band strips of 256 columns, then the chroma. -/
def lumaRaster (w h : Nat) (samples : List Byte) : List Byte :=
  (List.range (w * h)).map fun i =>
    let r := i / w
    let c := i % w
    let rows := min 64 (h - r / 64 * 64)
    let strip := min 256 (w - c / 256 * 256)
    samples.getD (r / 64 * 64 * w * 3 / 2 + c / 256 * 256 * rows + r % 64 * strip + c % 256) 0

/-- The sum of absolute differences of the 16 by 16 block at a row and a column, against a reference moved by a vector, over the samples
of the block that lie in the picture. -/
def blockSad (w h : Nat) (cur old : List Byte) (row col : Nat) (v : Int × Int) : Nat :=
  ((List.range (min 16 (h - row))).map fun i => ((List.range (min 16 (w - col))).map fun j =>
    ((rasterAt w h cur (row + i) (col + j) : Int) - rasterAt w h old (row + i + v.1) (col + j + v.2)).natAbs).sum).sum

/-- The size of a vector by which ties are decided (the sum of its components' magnitudes: DESIGN CHOICE, log 104). -/
def vecSize (v : Int × Int) : Nat := v.1.natAbs + v.2.natAbs

/-- The vectors of a window of rows and columns around a centre, in raster order, in steps. -/
def windowOf (centre : Int × Int) (rows cols step : Nat) : List (Int × Int) :=
  (List.range (2 * rows + 1)).flatMap fun i => (List.range (2 * cols + 1)).map fun j =>
    (centre.1 + ((i : Int) - rows) * step, centre.2 + ((j : Int) - cols) * step)

/-- The vector of least cost in a window: ties go to the smaller vector, then to the earlier position (R520). -/
def bestVector (cost : Int × Int → Nat) (vs : List (Int × Int)) : Int × Int :=
  (vs.foldl (fun (b : Option ((Int × Int) × Nat)) v =>
    let k := cost v
    match b with
    | none => some (v, k)
    | some (w, m) => if k < m ∨ (k = m ∧ vecSize v < vecSize w) then some (v, k) else b) none).map Prod.fst |>.getD (0, 0)

/-- A doubled vector. -/
def doubled (v : Int × Int) : Int × Int := (2 * v.1, 2 * v.2)

/-- The rasters of a picture and its reference at a reduction, and their size. -/
structure SearchPlane where
  w   : Nat
  h   : Nat
  cur : List Byte
  old : List Byte

def SearchPlane.sad (p : SearchPlane) (row col : Nat) (v : Int × Int) : Nat := blockSad p.w p.h p.cur p.old row col v

/-- The planes of the first three stages: 1/16 and 1/4 of the area, and full resolution. -/
def searchPlane (w h factor : Nat) (samples old : List Byte) : SearchPlane :=
  if factor = 1 then { w := w, h := h, cur := lumaRaster w h samples, old := lumaRaster w h old }
  else { w := ceilDiv w factor, h := ceilDiv h factor
         cur := Config.reduceLuma factor w h samples, old := Config.reduceLuma factor w h old }

/-- The four stages of the motion search for the 16 by 16 block at a row and a column, as a vector in quarter samples (R520). A block of a
stage starts from the block of the stage before that covers it (DEDUCED, log 104). -/
def searchBlock (p4 p2 p1 : SearchPlane) (fine : Int × Int → Nat) (row col : Nat) : Int × Int :=
  let at_ (f : Nat) (x : Nat) : Nat := x / f / 16 * 16
  let v1 := bestVector (p4.sad (at_ 4 row) (at_ 4 col)) (windowOf (0, 0) 32 64 1)
  let v2 := bestVector (p2.sad (at_ 2 row) (at_ 2 col)) (windowOf (doubled v1) 4 4 1)
  let v3 := bestVector (p1.sad row col) (windowOf (doubled v2) 4 4 1)
  let v4 := bestVector fine (windowOf (doubled (doubled v3)) 1 1 2)
  bestVector fine (windowOf v4 1 1 1)

/-- The vectors of the 16 by 16 blocks of the rows from `r0` to before `r1` of a P picture, against one reference. -/
def searchRows (c : VChan) (samples old : List Byte) (r0 r1 : Nat) : List (Int × Int) :=
  let w := c.width
  let h := c.height
  let p4 := searchPlane w h 4 samples old
  let p2 := searchPlane w h 2 samples old
  let p1 := searchPlane w h 1 samples old
  (List.range (ceilDiv (r1 - r0) 16)).flatMap fun i => (List.range (ceilDiv w 16)).map fun j =>
    searchBlock p4 p2 p1 (fun v => Config.subpelCost (w, h) samples old (r0 + 16 * i, 16 * j) v c.qp) (r0 + 16 * i) (16 * j)

/-- The reference pictures of the next P picture: the one coded last and the long-term one (R525). -/
def VChan.refs (c : VChan) : List (List Byte) := c.prevRec :: c.longRef.toList

/-- The references of a picture with the vectors found in each; an IDR picture has none. -/
def searched (c : VChan) (idr : Bool) (samples : List Byte) (r0 r1 : Nat) : List (List Byte × List (Int × Int)) :=
  if idr then [] else c.refs.map fun old => (old, searchRows c samples old r0 r1)

/-- The long-term reference after a picture: every LTR_PERIOD-th picture after an IDR replaces the one before it, and an IDR leaves none
(R525). -/
def longAfter (c : VChan) (idr : Bool) (coded : List Byte) : Option (List Byte) :=
  let n := c.wd 5 63 56
  if idr then none else if n ≠ 0 ∧ c.sinceIdr % n = 0 then some coded else c.longRef

end Sys2Proof.Machine
end

