-- ==== Sys2Proof/Machine/Video.lean ====
section
/-! DEFINITION. The commands of the video units: channel operations, VDEC, VENC, packets and pictures. -/

namespace Sys2Proof.Machine

open Sys2Proof

/-! ### Channel operations (R480 to R482, R513, R527 to R529) -/

/-- The channel and direction that an operation names, where they exist: 0 to 39 decode, 0 to 19 encode. -/
def opChan (r : OpRec) : Option (Nat × Bool) :=
  let enc := r.arg.testBit 6
  let c := fld r.arg 5 0
  if c < (if enc then 20 else 40) then some (c, enc) else none

/-- A channel record is one that Table 8-2, R481 and R512 allow for the opening partition. P is that of Main 10 where an HEVC decode
channel is for it, which the record does not say: a free value of the record (DESIGN CHOICE, log 36). -/
def recordOk (s : State) (part : Nat) (enc : Bool) (w : List Nat) : Bool :=
  let f (i hi lo : Nat) : Nat := fld (w.getD i 0) hi lo
  let width := f 0 14 3 + 1
  let height := f 0 26 15 + 1
  let a := (width + 63) / 64 * 64 * ((height + 63) / 64 * 64)
  let deep := !enc && f 0 1 1 == 0 && Config.opensDeep w
  let need := (f 0 37 34 + 2) * ((if deep then 3 * a else a * 3 / 2) + a / 16)
  let zero (i lo : Nat) : Bool := f i 63 lo == 0
  (f 0 0 0 == 1) == enc && zero 0 38 && zero 1 48 && zero 2 40 && zero 3 53 && f 4 39 39 == 0 && f 6 7 6 == 0 &&
    f 6 15 14 == 0 && f 6 23 22 == 0 && zero 6 25 && zero 7 48 &&
    decide (width ≤ 4096 ∧ height ≤ 4096 ∧ width * height ≤ 8912896 ∧ 1 ≤ f 0 33 27 ∧ f 0 33 27 ≤ 120) &&
    f 1 11 0 == 0 && decide (need ≤ f 2 39 0) && ownsRange s part (f 1 47 0) (f 2 39 0) &&
    (if enc then
      f 0 1 1 == 0 && f 4 63 54 == 0 && f 4 39 39 == 0 && decide (575 ≤ f 4 53 40 ∧ f 4 53 40 ≤ 8999 ∧ 1 ≤ f 5 55 48) &&
        decide (f 6 5 0 ≤ 51 ∧ f 6 13 8 ≤ 51 ∧ f 6 21 16 ≤ 51) && !(f 0 2 2 == 1 && f 5 63 56 != 0)
    else
      f 4 63 56 == 0 && f 3 10 0 == 0 && decide (6 ≤ f 3 52 48 ∧ f 3 52 48 ≤ 16 ∧ 100 ≤ f 4 55 40) &&
        ownsRange s part (f 3 47 0) (2048 * 2 ^ f 3 52 48))

/-- OPEN (R480 to R482, R512, R513, R528). -/
def vopOpen (vd : Nat) (s : State) (part : Nat) (r : OpRec) : State × Nat × Bool :=
  match opChan r with
  | none => opFail s 8
  | some (chan, enc) =>
    let w := (List.range 8).map fun i => word64 s (r.word1 + 8 * i)
    if (vchan? s vd chan enc).isSome ∨ r.word1 % 8 ≠ 0 ∨ ¬ ownsRange s part r.word1 64 ∨ ¬ recordOk s part enc w then opFail s 8
    else
      let w0 := w.getD 0 0
      let cost := ctuCost (fld w0 14 3 + 1) (fld w0 26 15 + 1) (fld w0 33 27)
      let used := ((chansOf s vd fun c => c.encode == enc).map VChan.cost).sum
      if (if enc then 244800 else 489600) < used + cost then opFail s 10
      else if w0.testBit 2 ∧ 8 ≤ (chansOf s vd VChan.priv).length then opFail s 11
      else
        let ssrc := fld (w.getD 4 0) 31 0
        opOk (s.setChan
          { vd := vd, chan := chan, encode := enc, recWords := w, owner := part, priv := w0.testBit 2, cost := cost,
            waitIrap := !enc, pics := 0, base := 0, ringPos := 0, ringPut := 0, ssrc := if ssrc = 0 then none else some ssrc,
            highest := none, lastDone := none, doneTs := [], foreign := 0, pkts := [], ready := [], history := [], prior := [], metas := [], prevRec := [], longRef := none,
            qp := fld (w.getD 6 0) 21 16, sinceIdr := 0, idrNext := false, slice := 0, band := [],
            rtpSeq := fld (w.getD 7 0) 47 32, bits := 0, sliceAt := 0, missed := false }) 0

/-- The flow entries of a channel disabled (R554). -/
def State.dropFlows (s : State) (c : VChan) : State :=
  if c.encode then s
  else (List.range 128).foldl (fun s k =>
    let a := A.nxFlow (k / 64) (k % 64)
    if s.flag a A.nxFlow_en ∧ s.fget a A.nxFlow_vd = c.vd ∧ s.fget a A.nxFlow_chan = c.chan then s.fset a A.nxFlow_en 0
    else s) s

/-- A channel closed: its budget and its flow entries freed. -/
def State.closeChan (s : State) (c : VChan) : State :=
  { s with vchans := tdel s.vchans (chanKey c.vd c.chan c.encode) }.dropFlows c

/-- What an operation reads in memory: OPEN its channel record (R480). -/
def vopReads (_ : State) (r : OpRec) : List (Nat × Nat) := if r.op = 1 then [(r.word1, 64)] else []

/-- The channel that an operation of a partition names: its state, or the status that refuses it. -/
def opOwned (vd : Nat) (s : State) (part : Nat) (r : OpRec) (f : VChan → State × Nat × Bool) : State × Nat × Bool :=
  match opChan r with
  | none => opFail s 8
  | some (chan, enc) =>
    match vchan? s vd chan enc with
    | none => opFail s 13
    | some c => if c.owner = part then f c else opFail s 2

/-- CLOSE (R529). -/
def vopClose (vd : Nat) (s : State) (part : Nat) (r : OpRec) : State × Nat × Bool :=
  opOwned vd s part r fun c => if chanBusy s c then opFail s 12 else opOk (s.closeChan c) 0

/-- KEYPIC: the request is raised as an event (R524); a decode channel has none. -/
def vopKeypic (vd : Nat) (s : State) (part : Nat) (r : OpRec) : State × Nat × Bool :=
  opOwned vd s part r fun c =>
    if c.encode then opOk (s.raiseP (54 + vd) 0x0020 part c.chan none) 0 else opFail s 8

/-- QUERY: the channel's state in the result (Table 8-7). -/
def vopQuery (vd : Nat) (s : State) (part : Nat) (r : OpRec) : State × Nat × Bool :=
  match opChan r with
  | none => opFail s 8
  | some (chan, enc) =>
    match vchan? s vd chan enc with
    | none => (s, 0, false)
    | some c =>
      if c.owner ≠ part then opFail s 2
      else (s, c.pics % 2 ^ 16 + 2 ^ 16 + (if c.waitIrap then 2 ^ 17 else 0) + c.qp * 2 ^ 32, false)

/-- One record of a VCHAN list. -/
def vop (vd : Nat) (s : State) (part : Nat) (r : OpRec) : State × Nat × Bool :=
  match r.op with
  | 1 => vopOpen vd s part r
  | 2 => vopClose vd s part r
  | 3 => vopKeypic vd s part r
  | 4 => vopQuery vd s part r
  | _ => opFail s 8

def execVchan (slot : Nat) (s : State) : Out :=
  listStep 0x68 0x01A0 (vop (((s.cmd? slot).map Tracked.station).getD 54 - 54)) vopReads slot s

def execVchanOpen (vd part : Nat) (r : OpRec) (res : Nat) (s : State) : Out := opRow (vopOpen vd) part r res s
def execVchanClose (vd part : Nat) (r : OpRec) (res : Nat) (s : State) : Out := opRow (vopClose vd) part r res s
def execKeypic (vd part : Nat) (r : OpRec) (res : Nat) (s : State) : Out := opRow (vopKeypic vd) part r res s
def execVchanQuery (vd part : Nat) (r : OpRec) (res : Nat) (s : State) : Out := opRow (vopQuery vd) part r res s

/-! ### Packets and pictures (R490 to R494) -/

/-- The VD takes the next VALID slot of a channel's ring and clears VALID (R491). A slot with an uncorrectable error stays, each read of it
is recorded, and the VDEC that runs on the channel ends (R444, R445, R447). -/
def execPacketTake (vd chan : Nat) (s : State) : Out :=
  match vchan? s vd chan false with
  | none => ok s
  | some c =>
    let a := ringAddr c + 2048 * (c.ringPos % ringSlots c)
    let w := word64 s a
    if w.testBit 63 = false ∨ s.frozen then ok s
    else if badRange s a 2048 then
      match s.tracked.find? fun t => t.phase == .running && chanCmd c t with
      | some t => ok (s.readFault t.slot a 2048)
      | none => ok (s.logUncorrected ((firstBad s a 2048).getD 0) (some c.owner))
    else
      let s := s.storeBytes a (leBytes 8 (w - 2 ^ 63))
      let c := { c with ringPos := c.ringPos + 1 }
      let n := min (fld w 15 0) 2032
      ok ((s.setChan c).addPacket c (word64 s (a + 8)) (readBytes s (a + 16) n))

/-- A picture is complete: by its marker packet, or by its jitter window, which a standby leaves to the active's DECISION
(R494, R692). An active keeps a copy of the packets of a picture that the window completed and tells the standby
(R699). -/
def execPictureComplete (vd chan : Nat) (s : State) : Out :=
  match vchan? s vd chan false with
  | none => ok s
  | some c =>
    match pictureEnd s c with
    | none => ok s
    | some (last, jitter) =>
      if jitter ∧ paired s ∧ ¬ mayEmit s then ok s
      else
        let inc := c.pkts.filter fun k => decide (k.ext ≤ last)
        let s := s.closePicture c last jitter inc
        if jitter ∧ mirrors s then
          let s := { s with pair := { s.pair with copies := s.pair.copies ++ inc.map fun k => (vd, chan, k) } }
          ok (s.recordDecision [.picture vd chan (lowest (inc.map Pkt.ext)) (inc.map Pkt.ext)])
        else ok s

/-- FW_TIMEOUT set and reported (R489, R535). -/
def State.fwReport (s : State) (vd : Nat) : State :=
  (s.setReg (A.vdErrStatus vd) (s.reg (A.vdErrStatus vd) ||| 8)).pinReport (120 + vd) 2 8

/-- The header firmware has not answered a slice within 2 ms: the slice is concealed, and FW_TIMEOUT set and reported (R489, R535). `chan`
is the number of VD_CHAN_c. Of a decode channel it is a slice of the picture it comes to next, complete for that long; which one is a
free value. Of an encode channel it is the slice being gathered, begun that long ago (DESIGN CHOICE, log 116). -/
def execFwTimeout (vd chan : Nat) (s : State) : Out :=
  match vchan? s vd (if chan < 40 then chan else chan - 40) (40 ≤ chan) with
  | none => ok s
  | some c =>
    if c.encode then
      if 2 ≤ c.slice ∧ c.band ≠ [] ∧ ¬ c.missed ∧ c.sliceAt + 2000 * tUs ≤ s.tb.n then ok ((s.setChan { c with missed := true }).fwReport vd)
      else ok s
    else
      match c.ready with
      | [] => ok s
      | p :: r =>
        let n := (sliceNals c.codec (picBits (codecH264 c.codec) p)).length
        if p.at_ + 2000 * tUs ≤ s.tb.n ∧ p.late.length < n then
          let p := { p with late := p.late ++ [s.freeVal % n] }
          ok (((s.setChan { c with ready := p :: r }).tickFree).fwReport vd)
        else ok s

/-! ### VDEC (R496 to R509) -/

/-- A picture decoded on a channel: one of its run, or the IRAP picture that begins a new run (R509, R530). -/
def VChan.decoded (c : VChan) (e : PicBits) (p : Pic) : VChan :=
  if c.waitIrap then
    { c with waitIrap := false, history := [e], metas := [p], base := c.pics
             prior := if c.history.isEmpty then c.prior else c.history.reverse :: c.prior }
  else { c with history := c.history ++ [e], metas := c.metas ++ [p] }

/-- What a channel's reference buffer holds stored in it, where the channel's partition still owns it (R426, R510, R511). -/
def State.storeRefs (s : State) (c : VChan) (bs : List Byte) : State :=
  let a := c.wd 1 47 0
  let n := c.wd 2 39 0
  if ownsRange s c.owner a n then s.storeFree a (bs.take n) else s

/-- The channel decodes its next complete picture, and its reference buffer holds what it may refer to; one that is no IRAP is passed over while the channel waits for one, which it does
after errors that leave no picture decodable (R509, R530). -/
def State.decodeNext (s : State) (c : VChan) : State :=
  match c.ready with
  | [] => s
  | p :: r =>
    let e := picBits (codecH264 c.codec) p
    let d := { c.decoded e p with ready := r }
    if c.waitIrap ∧ ¬ Config.startsIrap (plainCodec c.codec) e then s.setChan { c with ready := r }
    else if Config.noPicture (plainCodec c.codec) d.history.reverse then s.setChan { c with waitIrap := true, ready := r }
    else (s.setChan d).storeRefs c (Config.decodedRefs c.priv (plainCodec c.codec) d.history.reverse)

/-- A VDEC decodes, and emits the pictures that its channel releases, tile by tile (R497 to R502, R507). While its channel waits for an IRAP
picture, it begins none (R509). -/
def execVdec (slot : Nat) (s : State) : Out :=
  match runningCmd s slot 0x69 with
  | none => ok s
  | some t =>
    let vd := t.station - 54
    let chan := opw t.opb 4 5 0
    let count := opw t.opb 4 31 16 + 1
    let mode := opw t.opb 4 34 32
    match vchan? s vd chan false with
    | none => ok (s.finish slot St.cmdError 0x01A1)
    | some c =>
      if c.owner ≠ t.part then ok (s.finish slot St.cmdError 0x01A1)
      else if 5 ≤ mode then ok (s.finish slot St.cmdError 0x01A2)
      else
        let codec := c.codec
        let n := c.pics - c.base
        if (c.waitIrap ∧ t.work.aux = 0) ∨ Config.released (plainCodec codec) c.history.reverse ≤ n then ok (s.decodeNext c)
        else if ¬ roomFor s t then ok s
        else
          let place := Config.place (plainCodec codec) c.history.reverse n
          let p : PicRef := { codec := codec, history := (c.history.take (place + 1)).reverse, prior := c.prior }
          let final := decide (t.work.pos + 1 = count)
          let k := t.work.aux
          let total := p.tiles mode
          let s := s.updCmd slot fun u => { u with work := { u.work with aux := k + 1 } }
          let s := if k < total then s.formTile slot 0 (p.tile mode k (final && k + 1 == total)) else s
          if k + 1 < total then ok (s.settle slot)
          else
            let m := c.metas.getD place { ts := 0, arrival := 0, pkts := [], lost := 0, first := 0, byJitter := false, at_ := 0,
                                               late := [] }
            let s := if t.outs.length = 2 then s.formTile slot 1 (p.record c.pics m final) else s
            let s := s.setChan { c with pics := c.pics + 1 }
            let e := A.vdStreamErr vd
            let rows := ((List.range 256).filter fun i => (rowMap codec p.history).testBit i).length
            let s := (s.bump e A.vdStreamErr_syntax (syntaxErrors codec p.history)).bump e A.vdStreamErr_unsupported
              (if unsupported codec p.history then 1 else 0)
            let s := s.bump e A.vdStreamErr_concealedRows rows
            let s := s.updCmd slot fun u => { u with work := { u.work with aux := 0, pos := u.work.pos + 1 } }
            ok (if final then s.reach slot St.done Det.none else s.settle slot)

/-! ### VENC (R515 to R525) -/

/-- The channel that a VENC works on, where its partition owns it: the open channel, or a re-run's own (R105). -/
def vencChan (s : State) (t : Tracked) : Option VChan :=
  if t.rerun then t.venc.map VencRun.cur else (vchan? s (t.station - 54) (opw t.opb 4 4 0) true).filter fun c => c.owner == t.part

/-- The channel of a VENC put back. -/
def State.setVenc (s : State) (t : Tracked) (c : VChan) : State :=
  if t.rerun then s.updCmd t.slot fun u => { u with venc := u.venc.map fun v => { v with cur := c } } else s.setChan c

/-- A channel that an earlier command left inside a picture, as the next one finds it: that picture is gone, and the next is an IDR (R530). -/
def VChan.fresh (c : VChan) : VChan :=
  if c.slice = 0 then c else { c with slice := 0, band := [], bits := 0, missed := false, idrNext := true }

/-- A VENC's run as it stands, begun now where it is new. -/
def Tracked.vencRun (t : Tracked) (c : VChan) : VencRun :=
  t.venc.getD { start := c, cur := c, decided := [], counted := 0, missed := [] }

/-- A picture begins: the start of its first slice is raised as an event, whose grant decides whether it is an IDR (R524); a replay takes
what was decided (R105). -/
def State.vencBegin (s : State) (t : Tracked) (c : VChan) : State :=
  let s := s.updCmd t.slot fun u => { u with venc := some (t.vencRun c) }
  match (t.vencRun c).decided[t.work.pos]? with
  | some d => s.setVenc t { c with slice := d }
  | none =>
    if t.rerun then s.setVenc t { c with slice := 2 }
    else
      (s.setVenc t { c with slice := 1 }).raiseP (54 + c.vd) 0x0021 t.part (c.chan + (c.pics % 2 ^ 32) * 2 ^ 32) none

/-- A slice whose last tile has come: its packets leave (R474 to R479, R516 to R518). Answers the state and the channel. -/
def State.vencSlice (s : State) (t : Tracked) (c : VChan) (idr : Bool) (slice r0 r1 : Nat) (miss picEnd final : Bool) : State × VChan :=
  let units := sliceUnits c (searched c idr c.band r0 r1) c.band idr slice miss
  let ps := units.flatMap (nalPayloads (c.wd 4 53 40 + 1))
  let ts := (c.wd 7 31 0 + c.pics * 90000 / c.fps) % 2 ^ 32
  let words := ps.mapIdx fun i p =>
    let fin := decide (i + 1 = ps.length)
    packetWord (rtpPacket c ((c.rtpSeq + i) % 2 ^ 16) ts (fin && picEnd) p) fin (fin && picEnd)
  let tiles := packTiles words []
  ((tiles.mapIdx fun i bs => rowTile (final && decide (i + 1 = tiles.length)) bs).foldl (fun s y => s.formTile t.slot 0 y) s,
    { c with rtpSeq := (c.rtpSeq + ps.length) % 2 ^ 16, bits := c.bits + unitBits units, missed := false })

/-- A picture coded whole: its record, the QP of the next one, its references and the reference buffer (R510, R519 to R525). -/
def State.vencPicture (s : State) (t : Tracked) (c : VChan) (idr final : Bool) : State :=
  let v := t.vencRun c
  let missed := (v.missed.filter fun m => m.1 == t.work.pos).map Prod.snd
  let coded := Config.reconstruct c.sets (searched c idr c.band 0 c.height) c.band idr c.qp missed
  let (qp, clash) := nextQp c idr c.bits
  let rec_ := leBytes 8 ((c.wd 7 31 0 + c.pics * 90000 / c.fps) % 2 ^ 32) ++ leBytes 8 c.bits ++
    leBytes 8 (c.qp + (if idr then 2 ^ 8 else 0)) ++ List.replicate 40 0
  let s := if t.outs.length = 2 then s.formTile t.slot 1 (mkTile 0x01 1 64 final rec_) else s
  let s := if clash ∧ v.counted ≤ t.work.pos then s.bump (A.vdRcClash c.vd) A.vdRcClash_count 1 else s
  let d := { c with pics := c.pics + 1, qp := qp, slice := 0, band := [], bits := 0
                    prevRec := coded, longRef := longAfter c idr coded
                    sinceIdr := if idr then 1 else c.sinceIdr + 1 }
  let s := s.setVenc t d
  let s := if idr then { s with pair := { s.pair with idrDue := s.pair.idrDue.filter (· != chanKey c.vd c.chan true) } } else s
  let s := if t.rerun then s else s.storeRefs d (Config.encodedRefs d.priv d.refs)
  s.updCmd t.slot fun u =>
    { u with work := { u.work with aux := 0, pos := u.work.pos + 1 }
             venc := u.venc.map fun v => { v with counted := max v.counted (t.work.pos + 1) } }

/-- A VENC takes a tile of the picture it codes: a slice's packets leave when its last tile has come, and the picture ends with its last
slice (R515 to R519). -/
def State.vencTile (s : State) (t : Tracked) (c : VChan) (x : Tile) : State :=
  let k := t.work.aux
  let v := t.vencRun c
  let (_, _, band, luma, col) := planeShape c.width c.height 1 k
  let rows := c.wd 5 55 48
  let slice := band / rows
  let miss := c.missed || v.missed.contains (t.work.pos, slice)
  let v : VencRun := { v with
    decided := if v.decided.length = t.work.pos then v.decided ++ [c.slice] else v.decided
    missed := if c.missed then v.missed ++ [(t.work.pos, slice)] else v.missed }
  let s := ((s.takeTile t.slot 0).releaseTo t.slot 0 (2 ^ 32)).updCmd t.slot fun u =>
    { u with venc := some v, work := { u.work with aux := k + 1 } }
  let t := { t with venc := some v }
  let newSlice := decide (k = 0) || (luma && col == 0 && band % rows == 0)
  let c := { c with band := c.band ++ expand x, sliceAt := if newSlice then s.tb.n else c.sliceAt }
  let picEnd := decide (k + 1 = planeTiles c.width c.height 1)
  let sliceEnd := !luma && decide (c.width ≤ col + 256) && (picEnd || (band + 1) % rows == 0)
  if ¬ sliceEnd then s.setVenc t c
  else
    let period := c.wd 5 47 32
    let idr := c.slice == 3 || c.pics == 0 || (period != 0 && decide (period ≤ c.sinceIdr))
    let final := picEnd && decide (t.work.pos + 1 = opw t.opb 4 31 16 + 1)
    let (s, c) := s.vencSlice t c idr slice (64 * slice * rows) (min c.height (64 * (band + 1))) miss picEnd final
    if ¬ picEnd then (s.setVenc t c).settle t.slot
    else
      let s := s.vencPicture t c idr final
      if final then s.reach t.slot St.done Det.none else s.settle t.slot

/-- A VENC takes the tiles of its next picture: the start of the first slice is raised as an event and decides with its
grant whether the picture is an IDR; a slice's packets leave when its last tile has come; the picture's record and the
next QP follow its last slice (R515 to R524). -/
def execVenc (slot : Nat) (s : State) : Out :=
  match runningCmd s slot 0x6A with
  | none => ok s
  | some t =>
    match vencChan s t with
    | none => ok (s.finish slot St.cmdError 0x01A1)
    | some c =>
      match (t.ins[0]?).bind fun b => b.window.head? with
      | none => ok (s.upstreamEnd slot)
      | some x =>
        if t.venc.isNone ∨ c.slice = 0 then ok (s.vencBegin t c.fresh)
        else if c.slice = 1 ∨ ¬ roomFor s t then ok s
        else
          let (rows, bytes, _, _, _) := planeShape c.width c.height 1 t.work.aux
          if x.format ≠ 0x01 ∨ tileRows x ≠ rows ∨ tileRowBytes x ≠ bytes then ok (s.finish slot St.cmdError 0x01A3)
          else ok (s.vencTile t c x)

/-- A VDEC or VENC has ended other than with DONE or DROPPED_CANCELLED: a decode channel of its partition waits for the next IRAP picture,
an encode channel codes its next picture as IDR (R530). A picture that the next command is in already goes on. -/
def State.videoEnded (s : State) (t : Tracked) : State :=
  match t.chan? s with
  | none => s
  | some c => s.setChan (if c.encode then { c with idrNext := true } else { c with waitIrap := true })

end Sys2Proof.Machine
end

