-- ==== Sys2Proof/Machine/Events.lean ====
section
/-! DEFINITION. The event arbiter's grants and what they decide, and completion records (Line Port, Timebase and Event
Order; R96 to R101, R109 to R114). -/

namespace Sys2Proof.Machine

open Sys2Proof

/-! ### Completion records (R109 to R112, R671) -/

/-- A completion queue takes a record: enabled and not full (R111, R941). -/
def cqRoom (s : State) (q : Nat) : Bool :=
  s.flag (A.loomCqCtl q) A.loomCqCtl_en &&
    (s.reg (A.loomCqTail q) + 1) % 2 ^ cqLog2 s q != s.reg (A.loomCqHead q)

/-- The bytes of a completion record (Table 1-7). -/
def recordBytes (t : Tracked) (r : CplRec) (phase : Bool) : List Byte :=
  leBytes 8 (t.desc.cmdSeq + t.part * 2 ^ 48 + r.status * 2 ^ 51 + (if phase then 2 ^ 63 else 0)) ++
    leBytes 8 (r.detail + t.desc.opId * 2 ^ 16 + t.desc.layerId * 2 ^ 32 + r.pst * 2 ^ 48) ++
    leBytes 8 r.ts ++ leBytes 8 (r.seq + t.tilesOut % 2 ^ 32 * 2 ^ 32)

/-- A record written into the completion queue of its command's queue; PHASE inverts on a wrap; on a worker a record of
queues 48 to 63 also leaves in a CPL frame (R671). -/
def State.putRecord (s : State) (t : Tracked) (r : CplRec) : State :=
  let q := t.queue
  let tail := s.reg (A.loomCqTail q)
  let next := (tail + 1) % 2 ^ cqLog2 s q
  let qs := qstate s q
  let bs := recordBytes t r qs.phase
  let s := s.storeBytes (s.reg (A.loomCqBase q) + 32 * tail) bs
  let s := { s with queues := tset s.queues q { qs with phase := if next = 0 then !qs.phase else qs.phase } }
  let s := s.setReg (A.loomCqTail q) next
  if 48 ≤ q ∧ ¬ isManager s then s.sendTo 0 0x04 t.part q 0 false bs else s

/-- A command's slot after its record is written, or is not wanted: what it stored is final (R59). -/
def State.recordDone (s : State) (slot : Nat) : State :=
  ({ s with recQ := s.recQ.erase slot, settling := s.settling.filter fun r => r.1 != slot }.updCmd slot fun t => { t with compl := .kept }).sweep

/-- The first held record of a queue, with its command. -/
def heldRecord (s : State) (q : Nat) : Option (Tracked × CplRec) :=
  s.recQ.findSome? fun x => (s.cmd? x).bind fun t => if t.queue == q then t.record.map fun r => (t, r) else none

/-- The route of a worker's CPL frame has room in its link's retry buffer, where one is to be sent. -/
def cplRoom (s : State) (q : Nat) : Bool :=
  q < 48 || isManager s || (match routeTo s 0 with | some j => retryRoom s j 1 | none => true)

/-- The Loom writes a queue's oldest held record once the completion queue has room (R110, R111). -/
def execCompletionRecordWrite (q : Nat) (s : State) : Out :=
  match heldRecord s q with
  | none => ok s
  | some (t, r) =>
    if q < 64 ∧ cqRoom s q ∧ cplRoom s q ∧ dieOn s ∧ ¬ s.frozen then ok ((s.putRecord t r).recordDone t.slot) else ok s

/-! ### The event log (R630, R631) -/

/-- The log ring's LOG2_ENTRIES. -/
def logLog2 (s : State) : Nat := log2In (s.fget A.eaLogBase A.eaLogBase_log2Entries) 8 24 8

/-- An event record (Table 10-4); the payload of a confidential partition's event is zero. -/
def eventBytes (s : State) (e : Event) (seq : Nat) : List Byte :=
  let b (x : Bool) (n : Nat) : Nat := if x then n else 0
  let pay := if !e.module_ && confidential s e.part then 0 else e.payload
  leBytes 8 (seq + e.type * 2 ^ 32 + e.source * 2 ^ 48 + e.part * 2 ^ 55 + b e.coarse (2 ^ 58) + b e.module_ (2 ^ 59)) ++
    leBytes 8 e.ts ++ leBytes 16 pay

/-- A granted event logged, or dropped and counted where the log is full (R630, R941). -/
def State.logEvent (s : State) (e : Event) (seq : Nat) : State :=
  let g := e.type / 256
  if s.flag A.eaCtl A.eaCtl_logEn ∧ g < 64 ∧ (s.reg A.eaTypeMask).testBit g = true then
    let tail := s.reg A.eaLogTail
    let next := (tail + 1) % 2 ^ logLog2 s
    if next = s.reg A.eaLogHead then (s.bump A.eaLogLost A.eaLogLost_count 1).fset A.eaStatus A.eaStatus_logGap 1
    else (s.writeBytes (s.fget A.eaLogBase A.eaLogBase_base / 32 * 32 + 32 * tail) (eventBytes s e seq)).setReg A.eaLogTail next
  else s

/-! ### What a grant decides -/

/-- The module stands by: the active's DECISION records decide for it (R692). -/
def standsBy (s : State) : Bool := paired s && pairSt s == 3

/-- The status and detail that a completion record carries (R99, R101, R105, R114, R399, R633, R810): a failed producer's
grant before it decides first, then an abort granted before it; DONE after a replay is FENCED_REPLACED; a cancelled
group drops its results. -/
def recordStatus (s : State) (t : Tracked) : Nat × Nat :=
  let (st, d) := t.status.getD (St.done, Det.none)
  if stopping s t.part then (St.partTorndown, Det.none)
  else if t.upstream then (St.aborted, Det.upstream)
  else if t.abortReq then (St.aborted, Det.none)
  else if st = St.done then
    if s.cancelled.contains (t.part, t.desc.group) then (St.droppedCancelled, Det.none)
    else if t.replayed then (St.fencedReplaced, Det.none) else (st, d)
  else (st, d)

/-- The consumers of a command whose COMPLETION is not granted. -/
def openConsumers (s : State) (slot : Nat) : List Nat :=
  ((s.chans.filter fun c => c.prod == slot).map Chan.cons).eraseDups.filter fun x =>
    match s.cmd? x with | some t => !t.granted | none => false

/-- A failing COMPLETION granted: its consumers are marked, and those that do not run yet have nothing to consume and end
(R101). -/
def State.failDown (s : State) (slot : Nat) : State :=
  (openConsumers s slot).foldl (fun s x =>
    let s := s.updCmd x fun t => { t with upstream := true }
    match s.cmd? x with
    | some t => if t.phase == .running then s else s.upstreamEnd x
    | none => s) s

/-- What a command's end does beyond its record: an ATTN's appends commit with DONE or FENCED_REPLACED, and with the
DROPPED_CANCELLED that stands in their place, since a cancelled request runs on (R343, R345, R399, R401; DEDUCED, log 61), a
video command that failed starts its channel again (R530). -/
def State.endEffects (s : State) (t : Tracked) (status : Nat) : State :=
  let s := if status = St.done ∨ status = St.fencedReplaced ∨ status = St.droppedCancelled then s.attnCommit t else s
  if status = St.done ∨ status = St.droppedCancelled then s else s.videoEnded t

/-- A COMPLETION granted: the record's content is fixed (R101, R109, R633), the ends that waited for it go on (R939), an
abort that won has its result (R96). PSTATION is the station that raised it, 63 for the Loom (R109). -/
def State.grantCompletion (s : State) (slot src ts seq : Nat) : State :=
  match s.cmd? slot with
  | none => s
  | some t =>
    let (st, d) := recordStatus s t
    let quiet := t.desc.quiet && st == St.done
    let s := s.updCmd slot fun u => { u with compl := .granted, record := some (CplRec.mk st d seq ts (min src 63)) }
    let s := if src < 63 then (s.count src 12 1 { t with rerun := false }).trace src 9 (st + seq * 2 ^ 32) { t with rerun := false } else s
    let s := s.endEffects t st
    let s := if t.abortReq ∧ s.abort = some (t.part, t.desc.cmdSeq) then s.abortResult t.part t.desc.cmdSeq 2 else s
    let s := if st = St.aborted ∨ st = St.cmdError then s.failDown slot else s
    let s := if quiet then s.recordDone slot else { s with recQ := s.recQ ++ [slot] }
    ((producersOf s slot).foldl State.latchLife (s.latchLife slot)).checkDrains.sweep

/-- ABORT_REQ granted (R96 to R100, R633): no such command, too late, or the command stops; a running FACET at its next
tile function. -/
def State.grantAbort (s : State) (part seq : Nat) : State :=
  if standsBy s then s
  else
    match s.tracked.find? fun t => t.part == part && t.desc.cmdSeq == seq with
    | none => (s.abortResult part seq 3).recordDecision [.abort part seq 3]
    | some t =>
      if t.granted then (s.abortResult part seq 1).recordDecision [.abort part seq 1]
      else
        let s := (s.updCmd t.slot fun u => { u with abortReq := true }).recordDecision [.abort part seq 2]
        if t.compl != .none ∨ (t.op = 0x30 ∧ s.facets.any fun x => x.2.slot == t.slot) then s
        else s.finish t.slot St.aborted Det.none

/-- GROUP_CANCEL granted: completions after it are dropped, unless a GROUP_CLEAR has come between (R399, R414). -/
def State.grantGroupCancel (s : State) (part group : Nat) : State :=
  if standsBy s then s
  else
    let s := if s.cancels.contains (part, group) ∧ ¬ s.cancelled.contains (part, group) then
        { s with cancelled := s.cancelled ++ [(part, group)] } else s
    s.recordDecision [.groupCancel part group]

/-- KEYPIC granted: the first picture whose first slice is granted after it is coded as IDR (R524). -/
def State.grantKeypic (s : State) (vd chan : Nat) : State :=
  match vchan? s vd chan true with
  | some c => if standsBy s then s else s.setChan { c with idrNext := true }
  | none => s

/-- FIRST_SLICE granted (R524). -/
def State.grantFirstSlice (s : State) (vd chan : Nat) : State :=
  match vchan? s vd chan true with
  | some c =>
    if c.slice ≠ 1 then s
    else if c.idrNext then (s.setChan { c with slice := 3, idrNext := false }).recordDecision [.keypic vd chan c.pics]
    else s.setChan { c with slice := 2 }
  | none => s

/-- CLIENT_OP granted: a PAUSE or RESUME has its place in the cold tier's work from now on, and an operation that finds another of its
request waiting waits behind it (R456, R588). -/
def State.grantClientOp (s : State) (req kind : Nat) : State :=
  match s.clientOps.find? fun o => o.req == req && o.kind == kind with
  | none => s
  | some o =>
    let s := { s with clientOps := s.clientOps.erase o }.joinCold req kind
    if opHeld s req kind ∨ s.duePauses.any (fun x => x.req == req) then { s with duePauses := s.duePauses ++ [o] } else s.doClientOp o

/-- TTL_EXPIRY granted: the image is freed and a paused request expires (R404). -/
def State.grantTtl (s : State) (req : Nat) : State :=
  if standsBy s then s else (s.expire req).recordDecision [.ttlExpired req]

/-- FAULT granted: its EA_SEQ completes the first-fault record (Table 16-8). -/
def State.grantFault (s : State) (payload seq : Nat) : State :=
  let f := s.reg A.fcFirst
  if f.testBit 15 ∧ fld f 47 16 = 0 ∧ f % 1024 = payload % 1024 then s.fset A.fcFirst A.fcFirst_eaSeq seq else s

/-- What the grant of an event decides. -/
def State.decideEvent (s : State) (e : Event) (seq : Nat) : State :=
  match e.type with
  | 0x0001 => (match e.slot with | some x => s.grantCompletion x e.source e.ts seq | none => s)
  | 0x0002 => s.grantAbort e.part e.payload
  | 0x0010 => s.grantGroupCancel e.part e.payload
  | 0x0020 => s.grantKeypic (e.source - 54) e.payload
  | 0x0021 => s.grantFirstSlice (e.source - 54) (e.payload % 32)
  | 0x0030 => s.grantClientOp (e.payload % 2 ^ 64) (e.payload / 2 ^ 64)
  | 0x0031 => s.grantTtl e.payload
  | 0x0300 => s.grantFault e.payload seq
  | _ => s

/-- The source served next, round robin after the last one, among those with pending events (R624). -/
def nextSource (s : State) : Option Nat :=
  ((List.range 128).map fun i => (s.eaLast + 1 + i) % 128).find? fun src => s.events.any fun e => e.source == src

/-- The arbiter grants one pending event (R623 to R626): the oldest of the source whose turn it is, with the next EA_SEQ. -/
def execEventGrant (s : State) : Out :=
  if s.frozen ∨ ¬ dieOn s then ok s
  else
    match (nextSource s).bind fun src => s.events.find? fun e => e.source == src with
    | none => ok s
    | some e =>
      let seq := s.eaNext
      let s := { s with events := s.events.erase e, eaNext := (seq + 1) % 2 ^ 32, eaLast := e.source }
      let s := (s.setReg A.eaNextSeq s.eaNext).gcount 5 0 1 (if e.module_ then none else some e.part)
      ok ((s.logEvent e seq).decideEvent e seq).runDue.runPair

end Sys2Proof.Machine
end

