-- ==== Sys2Proof/Machine/Sampler.lean ====
section
/-! DEFINITION. The command SAMPLE: entries, rows, candidates, draws, step batches, verification of drafts (R365 to R393). -/

namespace Sys2Proof.Machine

open Sys2Proof

/-! ### Detail codes (Table 6-8) -/

namespace Sm
abbrev shape : Nat := 0x180
abbrev entry : Nat := 0x181
abbrev draftCount : Nat := 0x182
abbrev owner : Nat := 0x183
end Sm

/-! ### Entries (Tables 6-2 and 6-3) -/

/-- A sample entry. -/
structure SampEnt where
  seq      : Nat
  draft    : Bool
  mask     : Bool
  ndraft   : Nat
  dseq     : Option Nat
  group    : Nat
  reqSeq   : Nat
  seed     : Nat
  temp     : Nat
  topP     : Nat
  topK     : Nat
  pos      : Nat
  end0     : Nat
  end1     : Nat
  index    : Nat
  left     : Nat
  reserved : Bool
  /-- The entry as it stands in the list. -/
  raw      : List Byte
  deriving DecidableEq, Repr

def SampEnt.ofBytes (bs : List Byte) : SampEnt :=
  let w (i : Nat) : Nat := entry 8 bs i
  { seq := fld (w 0) 13 0, draft := (w 0).testBit 14, mask := (w 0).testBit 15, ndraft := fld (w 0) 20 16
    dseq := if (w 0).testBit 21 then some (fld (w 0) 35 22) else none
    group := fld (w 0) 51 36, reqSeq := w 1, seed := w 2, temp := fld (w 3) 31 0, topP := fld (w 3) 63 32
    topK := fld (w 4) 12 0, pos := fld (w 4) 63 32, end0 := fld (w 5) 31 0, end1 := fld (w 5) 63 32
    index := fld (w 6) 31 0, left := fld (w 6) 63 32
    reserved := fld (w 0) 63 52 != 0 || fld (w 4) 31 13 != 0 || w 7 != 0
    raw := bs }

/-- The rows an entry consumes (R370). -/
def SampEnt.rows (e : SampEnt) : Nat := if e.draft then 1 else 1 + e.ndraft

def sampEnts (n : Nat) (bs : List Byte) : List SampEnt :=
  (List.range n).map fun i => SampEnt.ofBytes ((bs.drop (64 * i)).take 64)

/-- The fields of an operand block. -/
def smEntAddr (opb : List Byte) : Nat := opw opb 4 47 0
def smCount (opb : List Byte) : Nat := opw opb 4 61 48 + 1
def smFmt (opb : List Byte) : Nat := opw opb 5 52 48
def smVocab (opb : List Byte) : Nat := opw opb 6 17 0 + 1
def smResolve (opb : List Byte) : Nat := opw opb 7 47 0

/-- A binary32 is below zero or NaN. −0 is not below zero. -/
def belowZero (x : Nat) : Bool := (f32Val x).isNan || decide (f32Ord x < 0)

/-- The first entry that fails (R371), with the counts that the draft buffers will hold by then. -/
def sampEntsCheck (s : State) (part : Nat) : List SampEnt → Tab Nat → Option Nat
  | [], _ => none
  | e :: r, counts =>
    let x := sampSeq s e.seq
    let n := tgetD counts e.seq x.buf.length
    if e.reserved ∨ belowZero e.temp ∨ belowZero e.topP ∨ 4096 < e.topK ∨ e.left = 0 ∨ 16 < e.ndraft ∨
        (e.draft ∧ (e.ndraft ≠ 0 ∨ e.dseq.isSome)) then some Sm.entry
    else if x.owner ≠ some part then some Sm.owner
    else if ¬ e.draft ∧ n < e.ndraft then some Sm.draftCount
    else sampEntsCheck s part r (tset counts e.seq (if e.draft then min 16 (n + 1) else 0))

/-- The RESOLVE records of the entries: how many (R391). -/
def resolveCount (es : List SampEnt) : Nat :=
  (es.map fun e => if ¬ e.draft ∧ 0 < e.ndraft then (if e.dseq.isSome then 2 else 1) else 0).sum

/-! ### Sampling a row (R373, R374) -/

/-- One round of Philox4x32 (PRESUMED: the published constants, log 63). -/
def philoxRound (k : Nat × Nat) (c : Nat × Nat × Nat × Nat) : Nat × Nat × Nat × Nat :=
  let p0 := 0xD2511F53 * c.1
  let p1 := 0xCD9E8D57 * c.2.2.1
  ((p1 / 2 ^ 32) ^^^ c.2.1 ^^^ k.1, p1 % 2 ^ 32, (p0 / 2 ^ 32) ^^^ c.2.2.2 ^^^ k.2, p0 % 2 ^ 32)

/-- The rounds, the key raised after each. -/
def philoxRounds : Nat → Nat × Nat → Nat × Nat × Nat × Nat → Nat × Nat × Nat × Nat
  | 0, _, c => c
  | n + 1, k, c => philoxRounds n ((k.1 + 0x9E3779B9) % 2 ^ 32, (k.2 + 0xBB67AE85) % 2 ^ 32) (philoxRound k c)

/-- The first output word of Philox4x32-10 for a seed and a position (R374). -/
def philox (seed pos : Nat) : Nat :=
  (philoxRounds 10 (seed % 2 ^ 32, seed / 2 ^ 32 % 2 ^ 32) (pos % 2 ^ 32, 0, 0, 0)).1

/-- What sampling a row gives. -/
structure Drawn where
  token   : Option Nat
  logprob : Nat
  nan     : Bool
  deriving DecidableEq, Repr

/-- The sum of e: blocks of 256 by the tree, the block sums in ascending order (R373). `fuel` bounds the blocks. -/
def blockSums : Nat → List Nat → List Nat
  | 0, _ => []
  | _, [] => []
  | n + 1, l => ((tree f32Add 8 ((l.take 256).map some)).1.getD 0) :: blockSums n (l.drop 256)

def sumOf (e : List Nat) : Nat :=
  match blockSums (e.length / 256 + 1) e with
  | [] => 0
  | b :: r => r.foldl (fun a x => (f32Add a x).1) b

/-- The running sums of a list from +0. -/
def runningSums : Nat → List Nat → List Nat
  | _, [] => []
  | a, x :: r => let b := (f32Add a x).1; b :: runningSums b r

/-- A comparison of binary32 values that is false on NaN. -/
def f32Le (x y : Nat) : Bool := !(f32Val x).isNan && !(f32Val y).isNan && decide (f32Ord x ≤ f32Ord y)
def f32Lt (x y : Nat) : Bool := !(f32Val x).isNan && !(f32Val y).isNan && decide (f32Ord x < f32Ord y)

abbrev smNegInf : Nat := 0xFF800000
abbrev smPosInf : Nat := 0x7F800000

/-- A candidate: its index, z and e. -/
structure Cand where
  i : Nat
  z : Nat
  e : Nat
  deriving DecidableEq, Repr

/-- The token of a list of candidates for a draw `r` (R373); none where there is no candidate. -/
def drawToken (topP : Nat) (r : Nat) (cs : List Cand) : Option Nat :=
  let sums := runningSums 0 (cs.map Cand.e)
  let sk := sums.getLastD 0
  let lim := (f32Mul topP sk).1
  let keep := if f32Lt topP 0x3F800000 then
      (match sums.findIdx? fun x => f32Le lim x with
       | some k => k + 1
       | none => cs.length)
    else cs.length
  let sp := (sums.take keep).getLastD 0
  let u := (Fv.fin false (r / 256) (-24)).toF32.1
  let t := (f32Mul u sp).1
  match (sums.take keep).findIdx? fun x => f32Lt t x with
  | some k => (cs[k]?).map Cand.i
  | none => (cs[keep - 1]?).map Cand.i

/-- An allowed token has a finite logit (R380). -/
def anyFinite (xs : List Nat) (allow : Nat → Bool) : Bool :=
  (xs.mapIdx fun i x => allow i && (match f32Val x with | .fin _ _ _ => true | _ => false)).any id

/-- One row sampled: logits as binary32, allow bits, the entry, the position of its token. A row that allows no finite logit has no
token (R380). Where the procedure names none of a row that has one (no finite candidate, or no index with z = m), the token is a
free value that the row's own inputs give (R373, R375; log 64). -/
def sampleRow (e : SampEnt) (pos : Nat) (xs : List Nat) (allow : Nat → Bool) : Drawn :=
  let nan := xs.any fun x => (f32Val x).isNan
  let greedy := e.temp % 2 ^ 31 == 0
  let temp := if greedy then 0x3F800000 else e.temp
  let zs := xs.mapIdx fun i x => if allow i && !(f32Val x).isNan then (f32Div x temp).1 else smNegInf
  if zs.all (· == smNegInf) ∨ ¬ anyFinite xs allow then { token := none, logprob := smNegInf, nan := nan }
  else
    let m := zs.foldl (fun a z => (f32Max a z).1) smNegInf
    let es := zs.map fun z => if z = smNegInf then 0 else (f32Exp (f32Sub z m).1).1
    let sum := sumOf es
    let cs := (zs.mapIdx fun i z => Cand.mk i z (es.getD i 0)).filter fun c =>
      c.z != smNegInf && c.z != smPosInf && !(f32Val c.z).isNan
    let sorted := cs.mergeSort fun a b =>
      decide (f32Ord b.z < f32Ord a.z) || (decide (f32Ord a.z = f32Ord b.z) && decide (a.i ≤ b.i))
    let k := min (if e.topK = 0 then 4096 else e.topK) 4096
    let pick := if greedy then zs.findIdx? fun z => f32Le z m && f32Le m z
      else drawToken e.topP (philox e.seed pos) (sorted.take k)
    let tok := pick.getD (Config.unnamedToken zs [e.temp, e.topP, e.topK, e.seed, pos] % xs.length)
    let lp := (f32Sub (f32Sub (zs.getD tok smNegInf) m).1 (f32LogOp false sum).1).1
    { token := some tok, logprob := lp, nan := nan }

/-! ### Step batches (R381 to R385) -/

/-- A 32-byte record from its four words. -/
def rec32 (w0 w1 w2 w3 : Nat) : List Byte := leBytes 8 w0 ++ leBytes 8 w1 ++ leBytes 8 w2 ++ leBytes 8 w3

/-- A token of an entry, before its records are known whole. -/
structure TokRec where
  d     : Drawn
  draft : Bool
  deriving DecidableEq, Repr

/-- The flags of the `i`th token of an entry (Table 6-4), END among them where it ends the entry (R383). -/
def tokFlags (e : SampEnt) (i : Nat) (x : TokRec) : Nat :=
  let tok := x.d.token.getD 0xFFFFFFFF
  let isEnd := x.d.token.isSome && tok != 0xFFFFFFFF && (tok == e.end0 || tok == e.end1)
  let maxT := decide (e.left ≤ i + 1)
  let no := x.d.token.isNone
  (if isEnd || maxT || no then 1 else 0) + (if isEnd then 2 else 0) + (if maxT then 4 else 0) + (if no then 8 else 0) +
    (if x.d.nan then 16 else 0) + (if x.draft then 32 else 0)

/-- The tokens an entry emits: up to the first that carries END. -/
def cutAtEnd (e : SampEnt) : Nat → List TokRec → List TokRec
  | _, [] => []
  | i, x :: r => if (tokFlags e i x).testBit 0 then [x] else x :: cutAtEnd e (i + 1) r

/-- A token record. -/
def tokenRec (e : SampEnt) (next a i : Nat) (x : TokRec) : List Byte :=
  rec32 e.reqSeq (x.d.token.getD 0xFFFFFFFF + (e.index + i) % 2 ^ 32 * 2 ^ 32)
    (x.d.logprob + tokFlags e i x * 2 ^ 32 + next * 2 ^ 40 + a * 2 ^ 45) (2 + e.seq * 2 ^ 16)

/-- The rows of a MAIN entry sampled and matched in order against the draft buffer (R388). `fuel` counts the rows left. -/
def verify (draw : Nat → Drawn) (buf : List Nat) (d : Nat) : Nat → Nat → List TokRec
  | 0, _ => []
  | n + 1, i =>
    let x := draw i
    let hit := decide (i < d) && x.token.isSome && (buf[i]? == x.token)
    TokRec.mk x hit :: (if hit then verify draw buf d n (i + 1) else [])

/-- What the entries done so far give: batch records, OUT1 rows, RESOLVE records. -/
structure SampOut where
  recs    : List (List Byte)
  toks    : List (List Byte)
  resolve : List Byte
  dropped : Nat
  deriving DecidableEq, Repr

/-- A RESOLVE record of Table 5-6 (R391). -/
def resolveRec (seq a : Nat) : List Byte := leBytes 8 (0x08 + seq * 2 ^ 16 + a * 2 ^ 32) ++ leBytes 8 0

/-- The runtime's request as an entry leaves it: its entry and tokens kept, in DECODE from its first record on, ENDED with the record
that carries END (R361, Table 6-1). One whose END record is dropped has no further record to come, and its journal entry is freed
(R401, R583). -/
def State.noteEntry (s : State) (part : Nat) (e : SampEnt) (em : List TokRec) (drop ended : Bool) : State :=
  match tget s.requests e.reqSeq with
  | none => s
  | some r =>
    if r.part ≠ part then s
    else if drop ∧ ended then State.mirror { s with requests := tdel s.requests e.reqSeq } [.free e.reqSeq]
    else
      let toks := em.mapIdx fun i x => (e.pos + i, x.d.token.getD 0xFFFFFFFF)
      s.updReq e.reqSeq fun r =>
        { r with
            entry := e.raw
            tokens := toks.foldl (fun t x => tset t x.1 x.2) r.tokens
            state := if r.state = .prefill ∨ r.state = .decode then (if ended then .ended else .decode) else r.state }

/-- A CANCEL of a client that this SAMPLE comes after, before its request's group was known: an entry names it, and it is marked
(R361, R366, R399). -/
def State.markEntry (s : State) (slot part : Nat) (e : SampEnt) : State :=
  match tget s.requests e.reqSeq, s.cancelDue.find? fun d => d.1 == e.reqSeq with
  | some r, some d =>
    if r.part = part ∧ d.2 ≤ slot ∧ ¬ e.draft then { s with cancelDue := s.cancelDue.erase d }.markGroup part e.group else s
  | _, _ => s

/-- One entry: its rows sampled, the buffer, the loop, its records (R383 to R393). `draw` samples its row `i`. -/
def State.sampleEntry (s : State) (part : Nat) (e : SampEnt) (draw : Nat → Drawn) (o : SampOut) : State × SampOut :=
  let x := sampSeq s e.seq
  if e.draft then
    let tok := (draw 0).token.getD 0xFFFFFFFF
    let s := if x.buf.length < 16 then s.setSamp e.seq { x with buf := x.buf ++ [tok] } else s
    (s, { o with toks := o.toks ++ [leBytes 4 tok] })
  else
    let ts := verify draw x.buf e.ndraft (1 + e.ndraft) 0
    let a := (ts.filter TokRec.draft).length
    let (y, clash) := { x with buf := [] }.loop e.ndraft a
    let s := s.setSamp e.seq y
    let s := if clash then s.bump A.spLoopClash A.spLoopClash_count 1 else s
    let s := (s.bump A.spDraftStats A.spDraftStats_proposed e.ndraft).bump A.spDraftStats A.spDraftStats_accepted a
    let em := cutAtEnd e 0 ts
    let recs := em.mapIdx fun i t => tokenRec e y.length a i t
    let drop := e.group != 0 && groupMarked s part e.group
    let s := if drop then s.bump A.spDropCount A.spDropCount_records recs.length else s
    let ended := em.mapIdx (fun i t => (tokFlags e i t).testBit 0) |>.any id
    let last := if ended then 0xFFFFFFFF else ((em.getLast?).bind fun t => t.d.token).getD 0xFFFFFFFF
    let res := if 0 < e.ndraft then
        resolveRec e.seq a ++ (match e.dseq with | some q => resolveRec q (min a (e.ndraft - 1)) | none => [])
      else []
    (s.noteEntry part e em drop ended,
      { recs := if drop then o.recs else o.recs ++ recs, toks := o.toks ++ [leBytes 4 last], resolve := o.resolve ++ res,
        dropped := o.dropped + (if drop then recs.length else 0) })

/-! ### The streams -/

/-- Tile rows of one row of logits, and of one mask (R370, R377). -/
def logitTiles (fmt v : Nat) : Nat := if fmt = 0x0D then v / 64 else v / 128
def maskTiles (v : Nat) : Nat := ceilDiv v 2048

/-- The tile rows of the tiles taken. -/
def rowsIn (ts : List Tile) : Nat := (ts.map tileRows).sum

/-- The bytes of stream row `i`, of `n` tile rows of 256 bytes. -/
def wideRow (bytes : List Byte) (n i : Nat) : List Byte := (bytes.drop (256 * n * i)).take (256 * n)

/-- A tile of logits or masks has the right format and rows, no more rows than the entries consume, and LAST on the last
(R372). -/
def sampTileOk (fmt total taken : Nat) (x : Tile) : Bool :=
  decide (x.format = fmt ∧ tileRowBytes x = 256 ∧ taken + tileRows x ≤ total) &&
    (x.last == decide (taken + tileRows x = total))

/-- The first row, counted over all entries, of each entry. -/
def firstRows (f : SampEnt → Nat) : Nat → List SampEnt → List Nat
  | _, [] => []
  | n, e :: r => n :: firstRows f (n + f e) r

/-- Every entry sampled, in order. -/
def State.sampleAll (s : State) (part : Nat) (opb : List Byte) (es : List SampEnt) (xs ms : List Byte) : State × SampOut :=
  let v := smVocab opb
  let fmt := smFmt opb
  let nl := logitTiles fmt v
  let nm := maskTiles v
  let starts := (firstRows SampEnt.rows 0 es).zip (firstRows (fun e => if e.mask then e.rows else 0) 0 es)
  let draw (e : SampEnt) (f : Nat × Nat) (i : Nat) : Drawn :=
    let lg := (rowVals fmt (wideRow xs nl (f.1 + i))).map fun x => x.toF32.1
    let lg := if fmt = 0x0D then unpackCodes 32 v (wideRow xs nl (f.1 + i)) else lg
    let mk := wideRow ms nm (f.2 + i)
    sampleRow e (e.pos + i) lg fun k => !e.mask || (mk.getD (k / 8) 0).toNat.testBit (k % 8)
  let (s, o) := (es.zip starts).foldl
    (fun a x => a.1.sampleEntry part x.1 (draw x.1 x.2) a.2) (s, { recs := [], toks := [], resolve := [], dropped := 0 })
  (s, o)

/-! ### SAMPLE -/

/-- The checks of an opening SAMPLE (R367 to R371). -/
def sampCheck (s : State) (t : Tracked) (es : List SampEnt) : Option Nat :=
  let v := smVocab t.opb
  let fmt := smFmt t.opb
  let anyMask := es.any SampEnt.mask
  if v % 128 ≠ 0 ∨ 262144 < v ∨ ¬ (fmt = 0x0B ∨ fmt = 0x0D) ∨ anyMask ≠ decide (t.ins.length = 2) then some Sm.shape
  else
    match sampEntsCheck s t.part es [] with
    | some d => some d
    | none =>
      if smResolve t.opb ≠ 0 ∧ ¬ ownsRange s t.part (smResolve t.opb) (16 * resolveCount es) then some Det.addrFault
      else none

/-- A SAMPLE opens: its entry list read and checked, once no byte of it is being zeroed (R437). -/
def State.sampOpen (s : State) (slot : Nat) (t : Tracked) : State :=
  let a := smEntAddr t.opb
  let n := 64 * smCount t.opb
  if a % 64 ≠ 0 ∨ ¬ ownsRange s t.part a n then s.finish slot St.cmdError Sm.entry
  else if clearingAt s a n then s
  else if badRange s a n then s.readFault slot a n
  else
    let bs := softBytes s a n
    match sampCheck s t (sampEnts (smCount t.opb) bs) with
    | some d => s.finish slot St.cmdError d
    | none => s.engineOpened slot [bs]

/-- The rows of logits that are whole, and the mask rows that they need and that are there. -/
def maskNeed (t : Tracked) (es : List SampEnt) : Nat × Nat :=
  let v := smVocab t.opb
  let rows := ((t.ins[0]?).map fun b => rowsIn b.taken).getD 0 / logitTiles (smFmt t.opb) v
  let masks := ((t.ins[1]?).map fun b => rowsIn b.taken).getD 0 / maskTiles v
  ((es.foldl (fun (a : Nat × Nat) e =>
    let n := min e.rows (rows - a.1)
    (a.1 + n, if e.mask then a.2 + n else a.2)) (0, 0)).2, masks)

/-- The SP waits for a mask from when it finishes a row's logits until the row's mask is there, and adds the cycles (R379). -/
def State.maskWait (s : State) (slot : Nat) (es : List SampEnt) : State :=
  match s.cmd? slot with
  | none => s
  | some t =>
    let (need, have_) := maskNeed t es
    if have_ < need then
      if t.work.fails = 0 then s.updCmd slot fun u => { u with work := { u.work with fails := s.tb.n + 1 } } else s
    else if t.work.fails = 0 then s
    else (s.countMaskWait t).updCmd slot fun u => { u with work := { u.work with fails := 0 } }

/-- A tile of logits or masks taken, or the command ended by its shape. -/
def State.sampTake (s : State) (slot : Nat) (t : Tracked) (es : List SampEnt) (inp : Nat) (b : InBind) (x : Tile) : State :=
  let v := smVocab t.opb
  let (fmt, total) := if inp = 0 then (smFmt t.opb, logitTiles (smFmt t.opb) v * (es.map SampEnt.rows).sum)
    else (0x01, maskTiles v * (es.map fun e => if e.mask then e.rows else 0).sum)
  if sampTileOk fmt total (rowsIn b.taken) x then
    ((s.takeTile slot inp).releaseTo slot inp (b.taken.length + 1)).maskWait slot es
  else s.finish slot St.cmdError Mx.tileShape

/-- The next tile of rows of a batch: `per` bytes a row, up to 128 rows. -/
def batchTile (fmt per i : Nat) (bytes : List Byte) : Tile :=
  let part := (bytes.drop (128 * per * i)).take (128 * per)
  mkTile fmt (part.length / per) per (decide (bytes.length ≤ 128 * per * (i + 1))) part

/-- The results of the entries emitted tile by tile: the batch on OUT0, tokens on OUT1. -/
def State.sampEmit (s : State) (slot : Nat) (t : Tracked) : State :=
  let o0 := t.loaded[1]?.getD []
  let o1 := t.loaded[2]?.getD []
  let n0 := ceilDiv o0.length 4096
  let n1 := if t.outs.length = 2 then ceilDiv o1.length 512 else 0
  if ¬ roomFor s t then s
  else if t.work.pos < n0 then
    (s.gather slot (t.work.pos + 1) 0 0).formTile slot 0 (batchTile 0x01 32 t.work.pos o0)
  else if t.work.aux2 < n1 then
    let s := s.updCmd slot fun u => { u with work := { u.work with aux2 := t.work.aux2 + 1 } }
    s.formTile slot 1 (batchTile 0x0E 4 t.work.aux2 o1)
  else s.reach slot St.done Det.none

/-- The rows all there: every entry sampled, the RESOLVE list written where the partition still owns it, the results kept (R381 to
R391, R426). -/
def State.sampCommit (s : State) (slot : Nat) (t : Tracked) (es : List SampEnt) : State :=
  let bytes (i : Nat) : List Byte := ((t.ins[i]?).map fun b => b.taken.flatMap expand).getD []
  let s := es.foldl (fun s e => s.markEntry slot t.part e) s
  let (s, o) := s.sampleAll t.part t.opb es (bytes 0) (bytes 1)
  let hdr := rec32 (opw t.opb 5 47 0) (o.recs.length + t.part * 2 ^ 32) 0 1
  let s := if smResolve t.opb ≠ 0 then s.storeOwned t (smResolve t.opb) o.resolve else s
  s.updCmd slot fun u =>
    { u with loaded := [u.loaded[0]?.getD [], (hdr :: o.recs).flatten, o.toks.flatten]
             work := { u.work with aux := 1, bytes := o.resolve.length } }

/-- A SAMPLE opens, takes a tile, samples its entries once every tile is there, or emits a tile. -/
def execSample (slot : Nat) (s : State) : Out :=
  match runningCmd s slot 0x60 with
  | none => ok s
  | some t =>
    if ¬ t.work.opened then ok (s.sampOpen slot t)
    else
      let es := sampEnts (smCount t.opb) (t.loaded[0]?.getD [])
      -- while it waits for a mask, the SP takes no logits (R379)
      match (if t.work.fails = 0 then List.range t.ins.length else [1]).findSome? fun i =>
          (t.ins[i]?).bind fun b => b.window.head?.map fun x => (i, b, x) with
      | some (i, b, x) => ok (s.sampTake slot t es i b x)
      | none =>
        if ¬ t.ins.all (fun b => b.lastIn) then ok (s.upstreamEnd slot)
        else if t.work.fails ≠ 0 then ok s
        else if t.work.aux = 0 then ok (s.sampCommit slot t es)
        else ok (s.sampEmit slot t)

end Sys2Proof.Machine
end

