-- ==== Sys2Proof/Machine/Sleep.lean ====
section
/-! DEFINITION. The power states and the Thimble: sleep requests, entry, wake sources, wake, the Watch sampler, the Selvage
(Power States and the Thimble). -/

namespace Sys2Proof.Machine

open Sys2Proof

/-! ### Requests (R758, R759) -/

/-- LOOM_STATUS.IDLE: no command tracked and no queue non-empty (Table 1-13). -/
def loomIdle (s : State) : Bool :=
  s.tracked.isEmpty && (List.range 64).all (sqEmpty s)

/-- LEDGER_STATUS.IDLE (Table 5-12). -/
def ledgerIdle (s : State) : Bool := ledgerQuiet s

/-- The valid entries of the restore list: entry number and register address. -/
def restoreList (s : State) : List (Nat × Nat) :=
  (List.range (min 2048 (s.fget A.thimbleRestoreCtl A.thimbleRestoreCtl_count))).map fun i =>
    (i, s.fget (A.thimbleRestoreAddr i) A.thimbleRestoreAddr_addr)

/-- An address that a restore-list entry may name: a station control window, or TOP, TB, EA, LOOM, LEDGER, LINE (R764). -/
def restorable (a : Nat) : Bool :=
  let b := (regBlock a).1
  decide (0x030000000000 ≤ a) && (decide (b < 64) || (decide (64 ≤ b ∧ b ≤ 69)))

/-- The cause for which a request is refused (Table 14-2). -/
def sleepRefusal (s : State) : Option Nat :=
  if s.flag A.pairCtl A.pairCtl_en then some 1
  else if ¬ loomIdle s ∨ ¬ ledgerIdle s then some 2
  else if s.vchans ≠ [] then some 3
  else if safe s then some 4
  else if (restoreList s).all (fun e => restorable e.2) then none
  else some 5

/-- RESULT and CAUSE of THIMBLE_SLEEP_STATUS. -/
def State.sleepResult (s : State) (result cause : Nat) : State :=
  (s.fset A.thimbleSleepStatus A.thimbleSleepStatus_result result).fset A.thimbleSleepStatus A.thimbleSleepStatus_cause cause

/-- A write of THIMBLE_SLEEP_CTL with REQ = 1 and a target, by the firmware in RUN with no request in progress (R758, R787):
refused, or accepted into a state (R759). -/
def sleepRequest (who : Who) (target : Nat) (entry : SleepState) (s : State) : State :=
  if ¬ (fwWrites who s ∧ s.thimble.state = .run ∧ s.store.starting = none ∧ s.stopAt = none) ∨
      s.flag A.thimbleSleepCtl A.thimbleSleepCtl_req then s
  else
    let s := s.fset A.thimbleSleepCtl A.thimbleSleepCtl_target target
    match sleepRefusal s with
    | some c => (s.sleepResult 2 c).raiseM srcThimble 0x0502 c
    | none =>
      let s := s.fset A.thimbleSleepCtl A.thimbleSleepCtl_req 1
      { s with thimble := { s.thimble with state := entry } }

/-- A request for DOZE waits for the host cores (R760). -/
def execDozeRequest (who : Who) (s : State) : Out := ok (sleepRequest who 1 .dozeWait s)

/-- A request for WATCH or DORMANT; an accepted one raises SLEEP_ENTER with the target state (Table 14-3). -/
def deepRequest (who : Who) (target : Nat) (s : State) : State :=
  let s' := sleepRequest who target (.entering (target == 3)) s
  if s'.thimble.state = .entering (target == 3) ∧ s.thimble.state = .run then s'.raiseM srcThimble 0x0500 (target + 1) else s'

def execWatchRequest (who : Who) (s : State) : Out := ok (deepRequest who 2 s)
def execDormantRequest (who : Who) (s : State) : Out := ok (deepRequest who 3 s)

/-! ### DOZE (R760 to R763) -/

/-- Self-refresh of every lode on or off. -/
def State.selfRefresh (s : State) (on : Bool) : State :=
  (List.range 16).foldl (fun s n => s.fset (A.lodeStatus n) A.lodeStatus_selfRefresh (if on then 1 else 0)) s

/-- The last host core enters wait-for-interrupt: a DOZE entry goes on to its end (R760). -/
def execWaitForInterrupt (s : State) : Out :=
  if s.thimble.state ≠ .dozeWait ∨ s.frozen then ok s
  else
    let p := s.power
    let s := s.selfRefresh true
    let s := if opNow s = 0 then s else s.opChange 0
    let s := { s with thimble := { s.thimble with state := .doze }, power := { p with stepTo := none } }
    let s := (s.fset A.pmOp A.pmOp_stepping 0).fset A.thimbleSleepCtl A.thimbleSleepCtl_req 0
    ok (s.fset A.thimbleSleepStatus A.thimbleSleepStatus_state 2)

/-- RUN again: the watchdogs count from zero (R865). -/
def State.toRun (s : State) : State :=
  { s with thimble := { s.thimble with state := .run }, wdStart := (List.range 4).map fun w => (w, s.tb.n), wdKicked := [] }.fset
    A.thimbleSleepStatus A.thimbleSleepStatus_state 0

/-- A DOZE exit ends: self-refresh left, the cores resume, the PM climbs (R763). -/
def execDozeExit (s : State) : Out :=
  if s.thimble.state ≠ .dozeExit then ok s
  else ok ((s.selfRefresh false).toRun.fset A.thimbleSleepStatus A.thimbleSleepStatus_result 1).pmAim

/-! ### Entry to WATCH and DORMANT (R764 to R768, R783) -/

/-- Entry preparation completes at tick W0: the restore list captured, queue pairs in the error state, LPDDR5X in
self-refresh, every Selvage group held (Table 14-3, Table 14-5). -/
def execTickW0 (s : State) : Out :=
  match s.thimble.state with
  | .entering d =>
    if s.frozen then ok s
    else
      let s := (restoreList s).foldl (fun s e => s.setReg (A.thimbleRestoreVal e.1) (s.reg e.2)) s
      let s := (s.qps.map Prod.fst).foldl State.qpError s
      let s := (s.selfRefresh true).fset A.thimbleSelvage A.thimbleSelvage_held 0x3F
      ok { s with
        thimble := { s.thimble with state := .window d, w0 := s.thimble.ticks }
        pins := { s.pins with lineQ := 0, lineAck := false, lineClkOn := false, thermTripN := true } }
  | _ => ok s

/-- The bits of THIMBLE_WAKE_CFG for a pin: EN, POL, MODE (Table 14-8). -/
def pinCfg (s : State) (i : Nat) : Nat := fld (s.reg A.thimbleWakeCfg) (4 * i + 2) (4 * i)

/-- The pins that hold their active level among levels, of the enabled pins in a mode: 0 edge, 1 level. -/
def activePins (s : State) (mode levels : Nat) : List Nat :=
  (List.range 8).filter fun i =>
    let c := pinCfg s i
    c.testBit 0 && decide (c / 4 = mode) && levels.testBit i == c.testBit 1

/-- WAKE_SRC with more sources. -/
def State.wakeSrc (s : State) (bits : Nat) : State :=
  s.setReg A.thimbleSleepStatus (s.reg A.thimbleSleepStatus ||| bits * 2 ^ 16)

/-- Wake sources fire, as bits of WAKE_SRC. In RUN nothing happens; DOZE exits; before W0 an entry is aborted (R765); in the
entry window an edge is lost (R766); WATCH and DORMANT begin to wake; a wake records them (R779). -/
def State.wakeFire (s : State) (bits : Nat) : State :=
  if bits = 0 then s
  else
    match s.thimble.state with
    | .dozeWait | .doze | .dozeExit =>
      ((List.range 16).filter fun i => bits.testBit i).foldl State.dozeWake s
    | .entering _ =>
      let s := (s.wakeSrc bits).fset A.thimbleSleepStatus A.thimbleSleepStatus_result 3
      let s := (s.toRun.fset A.thimbleSleepCtl A.thimbleSleepCtl_req 0)
      s.raiseM srcThimble 0x0503 (s.fget A.thimbleSleepStatus A.thimbleSleepStatus_wakeSrc * 2 ^ 16)
    | .watch => { s.wakeSrc bits with thimble := { s.thimble with state := .waking false } }
    | .dormant => { s.wakeSrc bits with thimble := { s.thimble with state := .waking true } }
    | .waking _ => s.wakeSrc bits
    | _ => s

/-- The entry window ends: the die domains lose power, and WATCH or DORMANT is entered; a level pin that is active starts
the wake (R766 to R769). -/
def execEntryWindowEnd (s : State) : Out :=
  match s.thimble.state with
  | .window d =>
    if s.thimble.ticks < s.thimble.w0 + 6 then ok s
    else
      let s := { (s.loseDie true).tbStart false with qps := [] }
      let s := (s.fset A.thimbleSleepCtl A.thimbleSleepCtl_req 0).fset A.thimbleSleepStatus A.thimbleSleepStatus_state
        (if d then 4 else 3)
      let s := { s with thimble := { s.thimble with
        state := if d then .dormant else .watch, sampleAt := s.thimble.ticks, matches_ := 0, lastMatch := 0 } }
      let act := activePins s 1 s.thimble.pinLast
      ok (s.wakeFire (act.foldl (fun a i => a + 2 ^ i) 0))
  | _ => ok s

/-! ### Wake sources (R774 to R782) -/

/-- The WAKE pins sampled at a Thimble tick, as levels: an edge pin fires on a change to its active level, a level pin on two
samples at it (R774 to R776). -/
def execWakePin (pins : Nat) (s : State) : Out :=
  let old := s.thimble.pinLast
  let now := pins % 256
  let edge := (activePins s 0 now).filter fun i => !(activePins s 0 old).contains i
  let level := (activePins s 1 now).filter fun i => (activePins s 1 old).contains i
  let fired := (edge ++ level).foldl (fun a i => a + 2 ^ i) 0
  let s := { s with thimble := { s.thimble with pinLast := now } }.fset A.thimbleWakeStatus A.thimbleWakeStatus_level now
  match s.thimble.state with
  | .run | .window _ => ok s
  | _ => ok ((s.setReg A.thimbleWakeStatus (s.reg A.thimbleWakeStatus ||| fired * 2 ^ 8)).wakeFire fired)

/-- An MCTP WAKE message (R777). -/
def execMctpWake (s : State) : Out := ok (if s.flag A.thimbleWakeCtl A.thimbleWakeCtl_mctpEn then s.wakeFire 1024 else s)

/-- The timebase reaches THIMBLE_ALARM (R778). -/
def execAlarm (s : State) : Out :=
  ok (if s.flag A.thimbleWakeCtl A.thimbleWakeCtl_alarmEn ∧ s.reg A.thimbleAlarm ≤ now s then s.wakeFire 512 else s)

/-- A sample matches (R780). -/
def sampleMatches (s : State) (trig c : Nat) : Bool :=
  let ctl := s.reg A.thimbleWatchCtl
  let lo := s.fget A.thimbleWatchCool A.thimbleWatchCool_loC
  ((List.range 16).any fun i => (fld ctl 47 32).testBit i && trig.testBit i == (fld ctl 63 48).testBit i) ||
    (ctl.testBit 20 && (decide (s.fget A.thimbleWatchCool A.thimbleWatchCool_hiC ≤ c) || (lo != 0 && decide (c ≤ lo))))

/-- The Watch sampler reads the triggers' levels and the coolant, PERIOD ticks after the last sample (R780 to R782). -/
def execWatchSample (trig coolantC : Nat) (s : State) : Out :=
  let ctl := s.reg A.thimbleWatchCtl
  let period := max 1 (fld ctl 15 0)
  if s.thimble.state ≠ .watch ∨ s.thimble.ticks < s.thimble.sampleAt + period then ok s
  else
    let m := sampleMatches s (trig % 65536) (coolantC % 256)
    let s := (s.fset A.thimbleWatchLast A.thimbleWatchLast_trig trig).fset A.thimbleWatchLast A.thimbleWatchLast_coolantC coolantC
    let s := s.bump A.thimbleWatchLast A.thimbleWatchLast_samples 1
    let n := if m then s.thimble.matches_ + 1 else 0
    let s := { s with thimble := { s.thimble with
      sampleAt := s.thimble.ticks, matches_ := n, lastMatch := if m then now s else s.thimble.lastMatch } }
    ok (if max 1 (fld ctl 19 16) ≤ n then s.wakeFire 256 else s)

/-! ### Wake (R770, R771) -/

/-- A value written back to a register: its RW fields take it (R764). -/
def State.writeBack (s : State) (a v : Nat) : State :=
  match findReg a with
  | none => s
  | some (d, _) => s.setReg a ((s.reg a - (s.reg a &&& d.rw)) ||| (v &&& d.rw))

/-- The restore list written back in list order (R764). -/
def State.restore (s : State) : State :=
  (restoreList s).foldl (fun s e => if restorable e.2 then s.writeBack e.2 (s.reg (A.thimbleRestoreVal e.1)) else s) s

/-- Garnet OPERATIONAL, with every test passed (Table 15-6). -/
def State.gnPass (s : State) : State :=
  let s := (s.fset A.gnStatus A.gnStatus_state 2).fset A.gnStatus A.gnStatus_approved
    (if s.flag A.gnStatus A.gnStatus_factoryMode then 0 else 1)
  let s := (s.fset A.gnStatus A.gnStatus_failTest 0).fset A.gnSelftest A.gnSelftest_pass 0x1FF
  s.bump A.gnSelftest A.gnSelftest_runs 1

/-- The WAKE event: the state left, WAKE_SRC and RESULT; its timestamp is that of the last matching sample where there was
one (R782, Table 14-7). -/
def State.raiseWake (s : State) (left result : Nat) : State :=
  let src := s.fget A.thimbleSleepStatus A.thimbleSleepStatus_wakeSrc
  let ts := if src.testBit 8 ∧ s.thimble.lastMatch ≠ 0 then s.thimble.lastMatch else now s
  { s with events := s.events ++ [Event.mk srcThimble 0x0501 0 true (coarse s) ts (left + src * 2 ^ 16 + result * 2 ^ 32) none] }

/-- A wake completes (R770): Garnet, LPDDR5X, V, the restore list, the cores, the WAKE event; images whose time has passed
are freed (R773), and an activation that came due begins (R904). A failed check makes it a COLD start (R771). -/
def execWake (keyCheckOk : Bool) (s : State) : Out :=
  match s.thimble.state with
  | .waking d =>
    if ¬ s.store.powered ∨ s.power.tripped then ok s
    else if keyCheckOk = false ∨ s.tampered then
      ok ((s.fset A.thimbleSleepStatus A.thimbleSleepStatus_result 4).runStart true 7)
    else
      let n := (s.store.startCount + 1) % 2 ^ 32
      let s := { s with store := { s.store with startCount := n, woke := true } }.fset A.cfgStartStatus A.cfgStartStatus_startCount n
      let s := ((s.pmStart false).gnStart false 2).gnPass.applySettings
      let s := ((s.tbStart false).lodesReady.selfRefresh false).restore.keepRetired
      let s := s.freeDue.toRun.fset A.thimbleSleepStatus A.thimbleSleepStatus_result 1
      let s := (s.raiseWake (if d then 4 else 3) 1).faultSummary.pmAim
      ok (if activationDue s then s.beginStart s.store.coldAct 5 else s)
  | _ => ok s

/-- THIMBLE_SELVAGE.RELEASE written: the groups leave their held state; in WATCH, in DORMANT and before a wake has
completed it has no effect (R784). -/
def execSelvageRelease (who : Who) (bits : Nat) (s : State) : Out :=
  if ¬ fwWrites who s ∨ s.thimble.state ≠ .run then ok s
  else
    let held := s.fget A.thimbleSelvage A.thimbleSelvage_held
    let s := s.fset A.thimbleSelvage A.thimbleSelvage_held (held - (held &&& bits % 64))
    let s := if bits.testBit 0 then { s with pins := { s.pins with lineClkOn := true } } else s
    let s := if bits.testBit 1 then { s with pins := { s.pins with safeN := !safe s } }.faultSummary else s
    ok (if bits.testBit 5 then (List.range 8).foldl State.linkTry s else s)

end Sys2Proof.Machine
end

