-- ==== Sys2Proof/Machine/Security.lean ====
section
/-! DEFINITION. Partitions, their teardown, attestation and Garnet's states (Partitions, Keys and Attestation). -/

namespace Sys2Proof.Machine

open Sys2Proof

/-! ### Creating a partition (R788 to R794) -/

/-- The measurement of a partition as its 32 bytes. -/
def measurement (s : State) (p : Nat) : List Byte := (List.range 4).flatMap fun w => leBytes 8 (s.reg (A.gnMeas p w))

/-- A measurement set from 32 bytes. -/
def State.setMeasurement (s : State) (p : Nat) (bs : List Byte) : State :=
  (List.range 4).foldl (fun s w => s.setReg (A.gnMeas p w) (leNat ((bs.drop (8 * w)).take 8))) s

/-- The partitions valid beside `p`. -/
def othersValid (s : State) (p : Nat) : List Nat := (List.range 8).filter fun q => q != p && partValid s q

/-- The configuration allows the partition (R788). -/
def modeAllows (s : State) (p : Nat) (conf : Bool) : Bool :=
  s.flag A.gnPartCfg A.gnPartCfg_mode || (p == 0 && !conf)

/-- No other valid partition holds one of its engines or harts (R790, R791). -/
def exclusive (s : State) (p : Nat) : Bool :=
  (othersValid s p).all fun q =>
    (s.reg (A.gnPartStations p) &&& s.reg (A.gnPartStations q)) % 2 ^ 48 == 0 &&
    s.reg (A.gnPartHarts p) &&& s.reg (A.gnPartHarts q) == 0

/-- GN_PART_CTL_p written by firmware: CONFIDENTIAL, while the partition is not valid, and VALID = 1, unless R793 refuses it, with a
measurement of zero bytes and STATE ACTIVE (R794). VALID = 0 ends no partition: only a teardown does. -/
def execPartitionCreate (who : Who) (p val : Nat) (s : State) : Out :=
  if ¬ (fwWrites who s ∧ p < 8) then ok s
  else
    let conf := val.testBit 1
    if ¬ val.testBit 0 then
      ok (if partValid s p then s else s.fset (A.gnPartCtl p) A.gnPartCtl_confidential (val / 2))
    else if modeAllows s p conf ∧ exclusive s p ∧ partState s p = 0 ∧ s.flag (A.memPartKey p) A.memPartKey_valid then
      let s := (s.fset (A.gnPartCtl p) A.gnPartCtl_confidential (val / 2)).fset (A.gnPartCtl p) A.gnPartCtl_valid 1
      ok ((s.fset (A.gnPartCtl p) A.gnPartCtl_state 1).setMeasurement p (List.replicate 32 0))
    else ok (s.fset A.gnPartCfg A.gnPartCfg_err 1)

/-! ### Teardown (R809 to R812) -/

/-- TEARDOWN written 1; in a pair in step, or serving alone, firmware writes it at the next step boundary (R812, log 105). -/
def execTeardown (who : Who) (p : Nat) (s : State) : Out :=
  if ¬ fwWrites who s ∨ partValid s p = false ∨ partState s p ≠ 1 then ok s
  else if inStep s then ok { s with pair := { s.pair with work := s.pair.work ++ [PairWork.teardown p] } }.runPair
  else ok (s.beginTeardown p)

/-- A descriptor was refused at acceptance, and never ran. -/
def Tracked.refused (t : Tracked) : Bool := !t.started && (t.status.map Prod.fst) == some St.cmdError

/-- A command is a partition's: its queue's where acceptance refused it, which its record goes to (R87, R113); else the one it names. -/
def commandOf (s : State) (p : Nat) (t : Tracked) : Bool :=
  if t.refused then s.fget (A.loomSqCtl t.queue) A.loomSqCtl_part == p else t.part == p

/-- The commands of a partition. -/
def slotsOf (s : State) (p : Nat) : List Nat := (s.tracked.filter (commandOf s p)).map Tracked.slot

/-- A stream stays inside one station (R120). -/
def inStation (s : State) (c : Chan) : Bool :=
  match s.cmd? c.prod, s.cmd? c.cons with
  | some a, some b => a.station == b.station && a.place.isSome
  | _, _ => false

/-- The flits of a partition in the Seam: of tiles in flight between stations and of verdict writes. -/
def seamFlits (s : State) (p : Nat) : Nat :=
  (((s.chans.filter fun c => !inStation s c).flatMap Chan.flight).map fun f => if f.tag = p then tileFlits f.tile else 0).sum +
    (s.verdictQ.filter fun v => v.1 == p).length

/-- GN_PART_INFLIGHT_p is zero. Memory accesses of commands end within the step that makes them, so MEMORY is zero. -/
def drained (s : State) (p : Nat) : Bool := seamFlits s p == 0 && inflight s p == 0

/-- An engine of a partition that still counts transactions: a producer of tiles in flight runs on it. -/
def straggling (s : State) (p st : Nat) : Bool :=
  s.chans.any fun c => c.flight.any (fun f => f.tag == p) && ((s.cmd? c.prod).map Tracked.station) == some st

/-- An engine fenced and given a UNIT reset, its commands left to the teardown (R809, step 3). -/
def State.fenceStraggler (s : State) (st : Nat) : State :=
  let s := s.setReg A.loomFenced (s.reg A.loomFenced ||| 2 ^ st)
  let s := (s.fset (A.ceStatus st) A.ceStatus_fenced 1).remapFrom st
  { s with resets := s.resets ++ [UnitReset.mk st false] }.faultSummary

/-- What the shared stations still hold of a partition's transactions purged. -/
def State.purge (s : State) (p : Nat) : State :=
  { s with
      chans := s.chans.map fun (c : Chan) => { c with flight := c.flight.filter fun f => f.tag != p }
      verdictQ := s.verdictQ.filter fun v => v.1 != p
      landings := s.landings.map fun (l : Landing) => if l.part = p then { l with tiles := [], gather := [], hdr := none } else l }

/-- The drain has not finished 200 µs after the write: step 3. -/
def execStragglerTimeout (p : Nat) (s : State) : Out :=
  match s.teardowns.find? fun t => t.part == p with
  | none => ok s
  | some t =>
    if t.stage = 1 ∧ t.started + 200 * tUs ≤ s.tb.n ∧ dieOn s ∧ ¬ s.frozen then
      let s := ((List.range 48).filter (straggling s p)).foldl State.fenceStraggler s
      ok ((s.purge p).fset (A.gnPartCtl p) A.gnPartCtl_fencedStragglers 1)
    else ok s

/-- Step 4, a command's COMPLETION: one that the arbiter has not granted is granted with PART_TORNDOWN, as the Loom writes its
record (R113, R810). A command still at work reports what its engine gathered (R174, R237). -/
def State.tearRecord (s : State) (slot : Nat) : State :=
  match s.cmd? slot with
  | none => s
  | some t =>
    if t.granted then s
    else
      let s := if t.compl == .none then s.reportEnd t else s
      let seq := s.eaNext
      let e := Event.mk t.cplSource 0x0001 t.part false (coarse s) (now s)
        (t.desc.cmdSeq + St.partTorndown * 2 ^ 48) (some slot)
      let s := { s with events := s.events.filter fun x => x.slot != some slot, eaNext := (seq + 1) % 2 ^ 32 }
      let s := ((s.setReg A.eaNextSeq s.eaNext).gcount 5 0 1 (some t.part)).logEvent e seq
      { s.updCmd slot fun u => { u with compl := .granted, record := some (CplRec.mk St.partTorndown Det.none seq (now s) (min e.source 63)) } with
        recQ := s.recQ ++ [slot] }

/-- The held records of a partition written where their completion queue takes them, in grant order (R113). -/
def State.tearWrite (s : State) (p : Nat) : State :=
  s.recQ.foldl (fun s x =>
    match s.cmd? x with
    | some t =>
      (match t.record with
      | some r => if commandOf s p t ∧ cqRoom s t.queue then s.putRecord t r else s
      | none => s)
    | none => s) s

/-- Staged commands of a station take the units that a teardown has freed. -/
def State.promoteAll (s : State) (st : Nat) : State := (s.promote st 0).promote st 1

/-- The partition's commands gone from the Loom and its stations, their pins fallen, its queues disabled, an abort of it answered (R113,
R356). -/
def State.tearLoom (s : State) (p : Nat) : State :=
  let mine := slotsOf s p
  let s := mine.foldl State.tearRecord s
  let s := mine.foldl State.withdrawTask (s.tearWrite p)
  let s := (s.tracked.filter fun t => mine.contains t.slot).foldl State.unpinAll s
  let s := match s.abort with
    | some (q, seq) => if q = p then s.abortResult q seq 3 else s
    | none => s
  let s := { s with
    tracked := s.tracked.filter fun t => !mine.contains t.slot
    recQ := s.recQ.filter fun x => !mine.contains x
    chans := s.chans.filter fun c => !(mine.contains c.prod || mine.contains c.cons)
    facets := s.facets.filter fun x => !mine.contains x.2.slot
    lingering := s.lingering.filter fun l => l.part != p
    settling := s.settling.filter fun r => !mine.contains r.1
    landings := s.landings.filter fun l => l.part != p
    txCredits := s.txCredits.filter fun c => c.part != p }
  let s := ((List.range 64).filter fun q => s.fget (A.loomSqCtl q) A.loomSqCtl_part == p).foldl (fun s q =>
    { (s.fset (A.loomSqCtl q) A.loomSqCtl_en 0).fset (A.loomCqCtl q) A.loomCqCtl_en 0 with
      queues := tset s.queues q { qstate s q with ref := none } }) s
  (List.range 64).foldl State.promoteAll s

/-- Unwritten trace and sample records discarded, the rings disabled: a ring with base 0 is none (R860; DESIGN CHOICE, log
74). -/
def State.tearTrace (s : State) (p : Nat) : State :=
  let tr := s.traces.map fun (x : Nat × List TraceRec) => (x.1, x.2.filter fun r => r.part != p)
  let s := { s with traces := tr, traceHold := s.traceHold.filter fun st => decide (128 < (tgetD tr st []).length) }
  (s.setReg (A.dbgTrcBase p) 0).setReg (A.dbgSmpBase p) 0

/-- Step 5, memory: regions invalid, with their Commons zeroed; the key entry not valid and its slot retired (R432, R437). -/
def State.tearMemory (s : State) (p : Nat) : State :=
  let mine := (List.range 64).filter fun n =>
    s.flag (A.memRegionBase n) A.memRegionBase_valid && s.fget (A.memRegionBase n) A.memRegionBase_owner == p
  let s := s.regionChange (mine.foldl (fun s n => s.fset (A.memRegionBase n) A.memRegionBase_valid 0) s)
  let k := s.fget (A.memPartKey p) A.memPartKey_slot
  if s.flag (A.memPartKey p) A.memPartKey_valid then (s.fset (A.memPartKey p) A.memPartKey_valid 0).retireSlot k else s

/-- Step 5, Warp: EPOCH_p advances, and PART_EPOCH leaves on every link that is UP (R659). -/
def State.tearWarp (s : State) (p : Nat) : State :=
  let e := (s.fget (A.wpPart 0 p) A.wpPart_epoch + 1) % 2 ^ 32
  let s := { s with epochAt := tset s.epochAt p s.tb.n }.fset (A.wpPart 0 p) A.wpPart_epoch e
  ((List.range 8).filter fun j => linkState s j == lkUp).foldl (fun s j =>
    s.sendOn j 0x0A { counter := 0, part := p, tileEnd := false, src := moduleId s, dst := moduleId s, chan := 0, info := e,
                      payload := [], tagOk := true }) s

/-- Step 5, the cold tier: a new generation, the images freed (R457). -/
def State.tearCold (s : State) (p : Nat) : State :=
  let other (req : Nat) : Bool := (tget s.requests req).map Request.part != some p
  { s with coldGen := tset s.coldGen p (Config.random s.free % 2 ^ 32), images := s.images.filter fun x => x.2.part != p
           oldImages := s.oldImages.filter fun x => x.2.part != p, coldQ := s.coldQ.filter fun j => other j.req
           resuming := s.resuming.filter fun x => other x.1 }.tickFree

/-- Step 5, video and flows: the channels closed, the flow entries disabled (R531, R554). -/
def State.tearVideo (s : State) (p : Nat) : State :=
  let mine := (s.vchans.map Prod.snd).filter fun c => c.owner == p
  let s := mine.foldl State.closeChan s
  (List.range 128).foldl (fun s k =>
    let a := A.nxFlow (k / 64) (k % 64)
    if s.flag a A.nxFlow_en ∧ s.fget a A.nxFlow_part = p then s.fset a A.nxFlow_en 0 else s) s

/-- Step 5, sessions: each request gets its failure entry, and the session ends (R583). -/
def State.tearSessions (s : State) (p : Nat) : State :=
  let reqs := (s.requests.filter fun (x : Nat × Request) => x.2.part == p).map Prod.fst
  let s := reqs.foldl (fun s r => s.failReq r Cs.failedTorndown) s
  let mine := (s.sessions.filter fun (x : Nat × Session) => x.2.part == p && !x.2.mgmt && !x.2.closed).map Prod.fst
  mine.foldl (fun s n =>
    match tget s.sessions n with
    | some ss =>
      { s with sessions := tset s.sessions n { ss with closed := true, closeStatus := Cs.failedTorndown } }.mirror
        [.closed n Cs.failedTorndown]
    | none => s) s

/-- Step 5, the Line Port of the partition: disabled, every verdict not valid. -/
def State.tearLine (s : State) (p : Nat) : State :=
  if s.fget A.lineCtl A.lineCtl_part = p then
    { s with regs := s.regs.map fun (r : Nat × W64) =>
        if A.lineVerdict 0 ≤ r.1 ∧ r.1 < A.lineVerdict 65536 then (r.1, r.2 &&& ~~~ (BitVec.ofNat 64 0x10000)) else r }.fset
      A.lineCtl A.lineCtl_enable 0
  else s

/-- The drain ends, by itself or by its purge: steps 4 and 5, and step 6 begins (R809). -/
def execDrainDone (p : Nat) (s : State) : Out :=
  match s.teardowns.find? fun t => t.part == p with
  | none => ok s
  | some t =>
    if ¬ (t.stage = 1 ∧ dieOn s ∧ s.frozen = false ∧
        (drained s p = true ∨ s.flag (A.gnPartCtl p) A.gnPartCtl_fencedStragglers = true)) then ok s
    else
      let s := s.setReg (A.gnPartTdTime p) (satTo 32 ((s.tb.n - t.started) * 10))
      let s := (((s.tearLoom p).tearTrace p).tearMemory p).tearWarp p
      let s := (((s.tearCold p).ledgerTeardown p).samplerTeardown p).tearVideo p
      let s := (s.tearSessions p).tearLine p
      ok ({ s with teardowns := s.teardowns.map fun (u : Teardown) => if u.part = p then { u with stage := 2 } else u }.fset
        (A.gnPartCtl p) A.gnPartCtl_state 4)

/-- Step 6 and the ledger walk end: FREE (R809). -/
def execCleanDone (p : Nat) (s : State) : Out :=
  match s.teardowns.find? fun t => t.part == p with
  | none => ok s
  | some t =>
    if t.stage ≠ 2 ∨ dieOn s = false ∨ s.frozen = true then ok s
    else
      let a := A.gnPartCtl p
      let s := ((s.fset a A.gnPartCtl_valid 0).fset a A.gnPartCtl_state 0).fset a A.gnPartCtl_teardown 0
      let s := s.setMeasurement p (List.replicate 32 0)
      ok { s with teardowns := s.teardowns.filter fun u => u.part != p, tdFree := tset s.tdFree p (s.tb.n + tMs) }

/-! ### Attestation (R801 to R804) -/

/-- GN_MEAS_EXTEND written by firmware: M becomes SHA3-256(M ‖ d), d the 32 bytes at ADDR (R803). -/
def execGnMeasExtend (who : Who) (val : Nat) (s : State) : Out :=
  if ¬ fwWrites who s then ok s
  else
    let p := fld val 50 48
    ok (s.setMeasurement p (Config.sha3 (measurement s p ++ readBytes s (fld val 47 0) 32)))

/-- GN_ATTEST_REQ written by firmware: the request at ADDR queued; one beyond 8 sets OVERFLOW (R804). The manual gives the
content of its 64 bytes and no layout: nonce in bytes 0 to 31, partition in byte 32, buffer address in word 5, its length in word
6 (DESIGN CHOICE, log 75). -/
def execGnAttestReq (who : Who) (addr : Nat) (s : State) : Out :=
  if ¬ fwWrites who s then ok s
  else
    let bs := readBytes s (addr % 2 ^ 48) 64
    let w (i n : Nat) : Nat := leNat ((bs.drop i).take n)
    if 8 ≤ s.attest.length then ok (s.fset A.gnAttestStatus A.gnAttestStatus_overflow 1)
    else ok { s with attest := s.attest ++ [AttReq.mk (w 32 1) (bs.take 32) 2 0 0 (some (w 40 8, w 48 8))] }

/-- A mask with one bit for each partition that a test holds of. -/
def partMask (f : Nat → Bool) : Nat := ((List.range 8).map fun p => if f p then 2 ^ p else 0).sum

/-- The fields of a certificate beside its nonce, in the order of Tables 15-2 and 15-3. -/
def certFields (s : State) (part : Nat) : List Nat :=
  let cs := s.reg A.cfgStartStatus
  let free := s.fget A.tbStatus A.tbStatus_state == 0
  let b (x : Bool) : Nat := if x then 1 else 0
  let ver (i : Option StoreImage) : Nat := ((i.map fun x => x.hdr.version)).getD 0
  let dig (i : Option StoreImage) : Nat := ((i.map fun x => x.hdr.digest)).getD 0
  let sec := now s / 10 ^ 9
  [s.store.startCount, s.issued, s.serial, s.fabric, if free then 0 else sec - Config.utcOffset sec,
    s.fget A.gnStatus A.gnStatus_factoryMode, s.reg A.gnStatus % 2 ^ 16, s.store.startCount,
    if s.store.woke then 2 else fld cs 1 1, b (!free && !coarse s), Config.bootRom.1, Config.bootRom.2,
    ver s.store.active, dig s.store.active, ver s.store.fallback, dig s.store.fallback,
    Config.settingsDigest (((s.store.inForce.map SettingsRec.fields)).getD []), s.fget A.gnPartCfg A.gnPartCfg_mode,
    partMask (partValid s), partMask (confidential s), part,
    if part < 8 then s.reg (A.gnPartStations part) else 0,
    if part < 8 then leNat (measurement s part) else 0]

/-- Garnet finishes the oldest request's certificate: to the session that asked, or into the buffer that firmware named
(R801 to R804). -/
def execCertIssued (s : State) : Out :=
  match s.attest with
  | [] => ok s
  | r :: rest =>
    if ¬ (s.fget A.gnStatus A.gnStatus_state = 2 ∧ dieOn s ∧ s.frozen = false) then ok s
    else
      let cert := (Config.certificate (attestSeed s) (certFields s r.part) r.nonce).take 4608
      let s := { s with attest := rest, issued := (s.issued + 1) % 2 ^ 32 }.bump A.gnAttestStatus A.gnAttestStatus_issued 1
      match r.buf with
      | some (a, n) => ok (s.writeBytes a (cert.take n))
      | none => ok (s.respond r.port r.session r.seq { type := 0x0D, status := Cs.ok, body := [], bytes := cert, seq := 0 })

/-! ### Garnet's states (R813, R814) -/

/-- Garnet leaves OPERATIONAL: no approved service, and its source reports fatal (R814, Table 16-1). -/
def State.gnOut (s : State) (st : Nat) : State :=
  let s := (s.fset A.gnStatus A.gnStatus_state st).fset A.gnStatus A.gnStatus_approved 0
  if dieOn s ∧ ¬ s.frozen ∧ s.store.starting = none then s.reportFault 137 3 0 else s

/-- The volatile keys and the retained key state zeroised (Table 15-6). -/
def State.zeroised (s : State) (src : Nat) : State :=
  let s := (s.setReg A.gnTamper (s.reg A.gnTamper ||| src)).bump A.gnTamper A.gnTamper_count 1
  { s with thimble := { s.thimble with retOk := false } }.gnOut 4

/-- GN_CTL.SELFTEST written 1: the tests run again, and services wait. -/
def execSelftest (who : Who) (s : State) : Out :=
  if fwWrites who s ∧ s.fget A.gnStatus A.gnStatus_state = 2 then ok ((s.fset A.gnCtl A.gnCtl_selftest 1).gnOut 1) else ok s

/-- The tests end within a start or after SELFTEST: OPERATIONAL, or ERROR with the first failed test. -/
def execSelftestDone (failTest : Option Nat) (s : State) : Out :=
  let st := s.fget A.gnStatus A.gnStatus_state
  if ¬ (st = 1 ∨ st = 0) ∨ dieOn s = false ∨ s.store.powered = false then ok s
  else
    let s := s.fset A.gnCtl A.gnCtl_selftest 0
    match failTest with
    | none => ok s.gnPass
    | some k =>
      let s := (s.fset A.gnStatus A.gnStatus_failTest (k % 9 + 1)).fset A.gnSelftest A.gnSelftest_pass (0x1FF - 2 ^ (k % 9))
      ok ((s.bump A.gnSelftest A.gnSelftest_runs 1).gnOut 3)

/-- GN_CTL.ZEROISE written with 0x5A. -/
def execZeroise (who : Who) (val : Nat) (s : State) : Out :=
  if fwWrites who s ∧ fld val 15 8 = 0x5A ∧ s.fget A.gnStatus A.gnStatus_state = 2 then ok (s.zeroised 0) else ok s

/-- The enclosure mesh is breached (source 0), in any state and power state; or Garnet's voltage, temperature or clock (1 to 3)
leaves its range while it is OPERATIONAL. -/
def execTamper (source : Nat) (s : State) : Out :=
  match source with
  | 0 => ok ({ s with tampered := true }.fset A.gnStatus A.gnStatus_tampered 1 |>.zeroised 1)
  | 1 | 2 | 3 => ok (if s.fget A.gnStatus A.gnStatus_state = 2 ∧ dieOn s then s.zeroised (2 ^ source) else s)
  | _ => ok s

/-- An entropy health test or a pairwise consistency test fails (Table 15-6). -/
def execHealthTestFail (test : Nat) (s : State) : Out :=
  if s.fget A.gnStatus A.gnStatus_state = 2 ∧ dieOn s then
    ok ((s.fset A.gnStatus A.gnStatus_failTest (test % 9 + 1)).gnOut 3)
  else ok s

end Sys2Proof.Machine
end

