-- ==== Sys2Proof/Machine/Warp.lean ====
section
/-! DEFINITION. The commands of the Warp links: training, frames, the Warp opcodes and barriers. -/

namespace Sys2Proof.Machine

open Sys2Proof

/-! ### Training (R640 to R647) -/

/-- WP_LINK_CTL_j written by firmware: EN starts training, and EN = 0 turns the laser off and takes the link DOWN; a
link that so leaves UP loses its frames (R640, R657). -/
def execLinkEnable (who : Who) (j val : Nat) (s : State) : Out :=
  if who.isFw ∧ j < 8 then
    let keep := s.fget (lkCtl j) (3, 2) ||| fld val 3 2
    let s := (s.setReg (lkCtl j) 0).fset (lkCtl j) (15, 8) (fld val 15 8)
    let s := (s.fset (lkCtl j) (1, 0) (fld val 1 0)).fset (lkCtl j) (3, 2) keep
    if val.testBit 0 then ok (s.linkTry j)
    else
      let s := if linkState s j = lkUp then (s.loseLink j).pairLinkLost j else s
      ok ((s.setLink j { link s j with skip := false }).linkTo j lkDown 0)
  else ok s

/-- RETRAIN written: a link in FAILED goes DOWN, which clears the bit (Table 11-1, Table 11-8). -/
def execRetrain (who : Who) (j : Nat) (s : State) : Out :=
  if who.isFw ∧ j < 8 then
    let s := s.fset (lkCtl j) A.wpLinkCtl_retrain 1
    ok (if linkState s j = lkFailed then (s.linkTo j lkDown 0).linkTry j else s)
  else ok s

/-- RECAL written: the next training calibrates (Table 11-8). -/
def execRecal (who : Who) (j : Nat) (s : State) : Out :=
  if who.isFw ∧ j < 8 then ok (s.fset (lkCtl j) A.wpLinkCtl_recal 1) else ok s

/-- Light appears on both lanes of a link, or is lost: DOWN goes to SIGNAL, and FAILED goes DOWN when light was lost and
is regained (Table 11-1). -/
def execLightOnBothLanes (j : Nat) (on : Bool) (s : State) : Out :=
  if j < 8 ∧ dieOn s then
    let l := link s j
    let s' := s.setLink j { l with light := on, lightLost := l.lightLost || !on }
    if on ∧ linkState s j = lkFailed ∧ l.lightLost then ok ((s'.linkTo j lkDown 0).linkTry j) else ok (s'.linkTry j)
  else ok s

/-- FEC locks on both lanes: the far SERIAL is read, and calibration begins, or is skipped where a warm start or a
return from R657 finds the far end whose calibration the Thimble retains (R644). -/
def execFecLock (j farSerial : Nat) (s : State) : Out :=
  if j < 8 ∧ linkState s j = lkSignal ∧ laserOn s j then
    let l := link s j
    let s := (s.setReg (A.wpFarId (j / 4) (j % 4)) farSerial).setLink j { l with farSerial := farSerial }
    if l.skip ∧ l.calSerial = some (farSerial % 2 ^ 64) ∧ ¬ s.flag (lkCtl j) A.wpLinkCtl_recal then
      let s := if s.store.starting.isSome then s.setReg A.cfgStartSkip (s.reg A.cfgStartSkip ||| 16) else s
      ok ((s.toIdent j).fset (lkStatus j) A.wpLinkStatus_calSkipped 1)
    else ok ((s.linkTo j lkCalib 0).fset (lkStatus j) A.wpLinkStatus_calSkipped 0)
  else ok s

/-- 100 ms pass in SIGNAL without FEC lock (Table 11-1). -/
def execFecLockTimeout (j : Nat) (s : State) : Out :=
  if j < 8 ∧ linkState s j = lkSignal ∧ (link s j).enteredAt + 100 * tMs ≤ s.tb.n then ok (s.linkTo j lkFailed 1)
  else ok s

/-- Optical calibration completes, or fails (Table 11-1). -/
def execCalibDone (j : Nat) (done : Bool) (s : State) : Out :=
  if j < 8 ∧ linkState s j = lkCalib ∧ laserOn s j then
    if done then
      let l := link s j
      ok (((s.setLink j { l with calSerial := some (l.farSerial % 2 ^ 64) }).fset (lkCtl j) A.wpLinkCtl_recal 0).toIdent j)
    else ok (s.linkTo j lkFailed 2)
  else ok s

/-- A module of role and number as R661 allows: a manager is module 0, a worker one of 1 to 63. -/
def roleOk (manager : Bool) (m : Nat) : Bool := if manager then m == 0 else decide (1 ≤ m ∧ m ≤ 63)

/-- A check of IDENT fails: FAILED with its cause, and a WARP_DOWN event (Table 11-1). -/
def State.identFail (s : State) (j cause : Nat) : State :=
  (s.linkTo j lkFailed cause).raiseM (58 + j / 4) 0x0601 (j + cause * 2 ^ 8)

/-- The identity record and key confirmation of the far end (R641 to R643, R798): this end's confirmation is sent; the checks in the order
version, group, key confirmation, role, plan; then a new link epoch, counters at 1, and WARP_UP. -/
def execIdent (j : Nat) (m : IdentMsg) (s : State) : Out :=
  if ¬ (j < 8 ∧ linkState s j = lkIdent ∧ laserOn s j) then ok s
  else
    let r := m.toIdentRec
    let own := ownIdent s j
    let ver := min 0x21 r.verHi
    let s := s.emit (.confirm j (keyConfirm s own r))
    let ownPair := s.flag (lkCtl j) A.wpLinkCtl_pair
    let plan := A.wpPlan (j / 4) (j % 4)
    let miswired := s.flag plan A.wpPlan_valid &&
      (s.fget plan A.wpPlan_farModule != r.module_ || s.fget plan A.wpPlan_farLink != r.link ||
        s.fget plan A.wpPlan_farSlot != r.slot)
    let info := A.wpFarInfo (j / 4) (j % 4)
    let s := s.setReg info ((r.module_ % 64) + (r.link % 8) * 2 ^ 6 + (r.slot % 64) * 2 ^ 9 +
      (if r.manager then 2 ^ 15 else 0) + (r.fabric % 2 ^ 24) * 2 ^ 16)
    let s := s.fset (A.wpLoss (j / 4) (j % 4)) (31, 0) (r.launch0 % 2 ^ 16 + (r.launch1 % 2 ^ 16) * 2 ^ 16)
    let s := s.fset (lkStatus j) A.wpLinkStatus_miswired 0
    if ver < 0x20 ∨ ver < r.verLo then ok (s.identFail j 3)
    else if r.fabric ≠ s.fabric then ok (s.identFail j 4)
    else if m.tag ≠ keyConfirm s r own then ok (s.identFail j 5)
    else if ¬ (roleOk r.manager r.module_ && roleOk (isManager s) (moduleId s)) ∨ r.pair ≠ ownPair then
      ok (s.identFail j 6)
    else
      let s := if miswired then (s.fset (lkStatus j) A.wpLinkStatus_miswired 1).raiseM (58 + j / 4) 0x0602 (j + (r.module_ % 64) * 2 ^ 8)
        else s
      if miswired ∧ s.flag (A.wpCtl 0) A.wpCtl_planEnforce then ok (s.identFail j 7)
      else
        let l := link s j
        let epoch := newEpoch own r
        let s := s.setLink j { l with epochs := tset l.epochs r.serial epoch, farSerial := r.serial, farNonce := r.nonce
                                      retry := [], attempts := 0, nakFor := 0, ctr1 := 1, dropped := false, rekey := false, skip := false }
        let s := s.setReg (A.wpCrypt (j / 4) (j % 4)) epoch
        let s := (s.setReg (lkTx j) 1).setReg (lkRx j) 1
        let s := (s.linkTo j lkUp 0).fset (lkStatus j) (23, 8) (ver / 16 + (ver % 16) * 2 ^ 8)
        let s := if ownPair then { s with pair := { s.pair with partnerSerial := some r.serial } } else s
        ok (s.raiseM (58 + j / 4) 0x0600 (j + ver / 16 * 2 ^ 8 + (ver % 16) * 2 ^ 16))

/-- One second after a failure with cause FEC_LOCK or CALIB, the link goes DOWN (Table 11-1). -/
def execFailedRetry (j : Nat) (s : State) : Out :=
  let c := s.fget (lkStatus j) A.wpLinkStatus_cause
  if j < 8 ∧ linkState s j = lkFailed ∧ (c = 1 ∨ c = 2) ∧ (link s j).enteredAt + tSec ≤ s.tb.n then
    ok ((s.linkTo j lkDown 0).linkTry j)
  else ok s

/-- A link that is UP goes to SIGNAL, with R657 and a WARP_DOWN event (Table 11-1). -/
def State.linkOut (s : State) (j : Nat) : State :=
  (((s.loseLink j).pairLinkLost j).linkTo j lkSignal 0).raiseM (58 + j / 4) 0x0601 j

/-- FEC lock is lost for more than 10 µs (Table 11-1). -/
def execLinkLoss (j : Nat) (s : State) : Out :=
  if j < 8 ∧ linkState s j = lkUp then ok (s.linkOut j) else ok s

/-- The loss of a lane in 0.1 dB, 100 × log10 of launch power over received power, to the nearest (R646). -/
def lossOf (launch rx : Nat) : Nat :=
  if rx = 0 then 255
  else ((List.range 255).filter fun k => decide (10 ^ (2 * k + 1) * rx ^ 200 ≤ launch ^ 200)).length

/-- Every 10 ms a link in CALIB, IDENT or UP measures the received power of its lanes and their loss; LOSS_HIGH and its
event when either exceeds LOSS_MAX, cleared 0.5 dB below it (R646, R647). -/
def execOpticsSample (j rx0 rx1 : Nat) (s : State) : Out :=
  let st := linkState s j
  if j < 8 ∧ 2 ≤ st ∧ st ≤ 4 then
    let l := link s j
    let rx0 := rx0 % 2 ^ 16
    let rx1 := rx1 % 2 ^ 16
    let lr := A.wpLoss (j / 4) (j % 4)
    let s := s.setReg (A.wpOptics (j / 4) (j % 4))
      (rx0 + rx1 * 2 ^ 16 + (l.launch0 % 2 ^ 16) * 2 ^ 32 + (l.launch1 % 2 ^ 16) * 2 ^ 48)
    let l0 := lossOf (fld (s.reg lr) 15 0) rx0
    let l1 := lossOf (fld (s.reg lr) 31 16) rx1
    let s := s.fset lr (47, 32) (l0 + l1 * 2 ^ 8)
    let top := s.fget (lkCtl j) A.wpLinkCtl_lossMax
    let high := s.flag (lkStatus j) A.wpLinkStatus_lossHigh
    if top < max l0 l1 ∧ ¬ high then
      ok ((s.fset (lkStatus j) A.wpLinkStatus_lossHigh 1).raiseM (58 + j / 4) 0x0603 (j + l0 * 2 ^ 8 + l1 * 2 ^ 16))
    else if high ∧ max l0 l1 + 5 ≤ top then ok (s.fset (lkStatus j) A.wpLinkStatus_lossHigh 0)
    else ok s
  else ok s

/-! ### Frames (R648 to R663) -/

/-- A DATA frame of this module: its bytes join the tile that its WRECV gathers, and TILE_END lands the tile (R667,
R668). -/
def State.land (s : State) (f : WarpFrame) : State :=
  { s with landings := s.landings.map fun (l : Landing) =>
      if l.part == f.part && l.src == f.src && l.chan == f.chan then
        let h := l.hdr.getD f.info
        let bs := l.gather ++ f.payload
        if f.tileEnd then
          { l with hdr := none, gather := [], granted := l.granted - 1, tiles := l.tiles ++ [tileOf h bs] }
        else { l with hdr := some h, gather := bs }
      else l }

def execData (j : Nat) (f : WarpFrame) (s : State) : Out := ok (onFrame s j 0x01 f true fun s => s.land f)

/-- Credits held for a channel of another module. -/
def creditsFor (s : State) (dest part chan : Nat) : Nat :=
  ((s.txCredits.find? fun c => c.dest == dest && c.part == part && c.chan == chan).map TxCredit.n).getD 0

def State.setCredits (s : State) (dest part chan n : Nat) : State :=
  { s with txCredits :=
      (s.txCredits.filter fun c => !(c.dest == dest && c.part == part && c.chan == chan)) ++
        (if n = 0 then [] else [TxCredit.mk dest part chan n]) }

/-- A CREDIT frame grants one landing slot of a channel (R668). -/
def execCredit (j : Nat) (f : WarpFrame) (s : State) : Out :=
  ok (onFrame s j 0x02 f true fun s => s.setCredits f.src f.part f.chan (creditsFor s f.src f.part f.chan + 1))

/-- The worker queue of a CMD frame: 48 + QUEUE, carried in CHAN (DESIGN CHOICE, log 23). -/
def cmdQueue (f : WarpFrame) : Nat := 48 + f.chan % 16

/-- A submission ring has no room for one more entry (R941). -/
def sqFull (s : State) (q : Nat) : Bool :=
  (s.fget (A.loomSqTail q) A.loomSqTail_tail + 1) % 2 ^ sqLog2 s q == s.fget (A.loomSqHead q) A.loomSqHead_head

/-- A CMD frame of this module: its descriptor is written into the worker's ring and TAIL advances (R670), which wakes from DOZE (R761). While the
ring is full the frame waits on the link: nothing changes. -/
def execCmd (j : Nat) (f : WarpFrame) (s : State) : Out :=
  let q := cmdQueue f
  if f.dst = moduleId s ∧ sqFull s q then ok s
  else
    ok (onFrame s j 0x03 f true fun s =>
      let tail := s.fget (A.loomSqTail q) A.loomSqTail_tail % 2 ^ sqLog2 s q
      ((s.storeBytes (s.reg (A.loomSqBase q) + 64 * tail) (f.payload.take 64)).fset (A.loomSqTail q) A.loomSqTail_tail
        ((tail + 1) % 2 ^ sqLog2 s q)).dozeWake 12)

/-- The remote completion ring's size (Table 11-8). -/
def rcqLog2 (s : State) : Nat := log2In (s.fget A.wpRcqBase A.wpRcqBase_log2Entries) 6 20 6

/-- A CPL frame at the manager: a 64-byte entry of the remote completion ring (R671). While the ring is full the frame
waits on the link. -/
def execCpl (j : Nat) (f : WarpFrame) (s : State) : Out :=
  let tail := s.fget A.wpRcqTail A.wpRcqTail_tail
  let next := (tail + 1) % 2 ^ rcqLog2 s
  if f.dst = moduleId s ∧ next = s.fget A.wpRcqHead A.wpRcqHead_head then ok s
  else
    ok (onFrame s j 0x04 f true fun s =>
      let bs := f.payload.take 32 ++ [BitVec.ofNat 8 f.src, BitVec.ofNat 8 f.chan] ++ List.replicate 30 0
      (s.storeBytes (fld (s.reg A.wpRcqBase) 47 6 * 64 + 64 * tail) bs).fset A.wpRcqTail A.wpRcqTail_tail next)

/-- An ACK frees the frames it covers (R654). -/
def execWarpAck (j counter : Nat) (s : State) : Out :=
  if linkHears s j then
    let l := link s j
    ok (s.setLink j { l with retry := l.retry.filter fun x => decide (counter < x.2.counter), attempts := 0 })
  else ok s

/-- A NAK: the frames from the named counter are sent again with the same ciphertext; the eighth failed attempt for one
frame takes the link out of UP (R654). In the safe state nothing is sent again (Table 16-4). -/
def execWarpNak (j counter : Nat) (s : State) : Out :=
  if linkHears s j ∧ ¬ safe s then
    let l := link s j
    let n := if l.nakFor = counter then l.attempts + 1 else 1
    let s := s.setLink j { l with nakFor := counter, attempts := n }
    if 8 ≤ n then ok (s.linkOut j)
    else ok ((l.retry.filter fun x => decide (counter ≤ x.2.counter)).foldl
      (fun s x => s.warpOut j x.1 x.2) s)
  else ok s

/-- KEY_UPDATE: the link epoch advances and the counters restart at 1 (R651); an end that has not sent its own answers
with it, and in the safe state, which sends none (Table 16-4), leaves the frame waiting. -/
def execKeyUpdate (j : Nat) (f : WarpFrame) (s : State) : Out :=
  if ¬ linkHears s j ∨ (safe s ∧ (link s j).rekey = false) then ok s
  else if ¬ acceptable s j f then ok (s.refuseFrame j f false)
  else
    let s := s.takeFrame j
    let s := if (link s j).rekey then s
      else s.putFrame j 0x09 { f with src := moduleId s, dst := moduleId s, payload := [] }
    let l := link s j
    let epoch := s.fget (A.wpCrypt (j / 4) (j % 4)) A.wpCrypt_epoch + 1
    let s := s.setLink j { l with retry := [], attempts := 0, ctr1 := 1, rekey := false
                                  epochs := tset l.epochs l.farSerial epoch }
    let s := (s.setReg (lkTx j) 1).setReg (lkRx j) 1
    ok ((s.setReg (A.wpCrypt (j / 4) (j % 4)) (epoch % 2 ^ 32)).raiseM (58 + j / 4) 0x0604 (j + epoch * 2 ^ 32))

/-- PART_EPOCH: the far end has advanced a partition's Warp epoch, and this end follows (R659, R660). -/
def execPartEpoch (j : Nat) (f : WarpFrame) (part epoch : Nat) (s : State) : Out :=
  if ¬ linkHears s j then ok s
  else if ¬ acceptable s j f then ok (s.refuseFrame j f false)
  else
    let s := s.takeFrame j
    if part < 8 then
      ok ({ s with epochAt := tset s.epochAt part s.tb.n }.fset (A.wpPart 0 part) A.wpPart_epoch epoch)
    else ok s

/-! ### Barriers (R673 to R677) -/

/-- The running BARRIER commands of an identifier that have arrived. -/
def arrivedCmds (s : State) (id : Nat) : List Nat :=
  (s.tracked.filter fun t => t.op == 0x7E && t.phase == .running && t.status.isNone && t.work.aux2 == 1 &&
    opw t.opb 4 15 0 == id).map Tracked.slot

/-- RELEASE takes effect: every BARRIER of the identifier that has arrived completes (R674, R676). -/
def State.releaseHere (s : State) (id : Nat) (fail : Bool) : State :=
  (arrivedCmds s id).foldl (fun s x => if fail then s.finish x St.cmdError 0x01E3 else s.reach x St.done Det.none) s

/-- RELEASE sent to a list of modules; `tileEnd` carries FAIL (DESIGN CHOICE, log 23). -/
def State.sendRelease (s : State) (id : Nat) (fail : Bool) (ms : List Nat) : State :=
  (ms.filter fun m => m != moduleId s).foldl (fun s m => s.sendTo m 0x06 0 0 (id + (if fail then 2 ^ 16 else 0)) false []) s

/-- The skew of one module at a release (R677). -/
def State.recordSkew (s : State) (first : Nat) (a : Arrival) : State :=
  let n := satTo 32 (a.ts - first)
  let s := s.setReg (A.wpSkew a.module_) (n + (if a.pace then 2 ^ 32 else 0) + (if a.coarse then 2 ^ 33 else 0))
  let s := s.raiseTo (A.wpSkewMax a.module_) A.wpSkewMax_maxNs n
  if a.pace then s.bump (A.wpSkewMax a.module_) A.wpSkewMax_paceCount 1 else s

/-- A barrier whose modules have all arrived is released: skew recorded, RELEASE sent, closed (R674, R677). -/
def State.tryRelease (s : State) (id : Nat) : State :=
  match s.barriers.find? fun b => b.id == id with
  | none => s
  | some b =>
    let ms := (List.range 64).filter fun m => b.mask.testBit m
    if b.mask ≠ 0 ∧ ms.all (fun m => b.arrived.any fun a => a.module_ == m) then
      let first := (b.arrived.map Arrival.ts).foldl min ((b.arrived.map Arrival.ts).headD 0)
      let s := (b.arrived.filter fun a => ms.contains a.module_).foldl (fun s a => s.recordSkew first a) s
      let s := { s with barriers := s.barriers.filter fun b => b.id != id }
      (s.sendRelease id false ms).releaseHere id false
    else s

/-- An arrival at the manager: it joins its barrier, opens one where fewer than 16 are open, or waits (R674, R675).
`mask` is that of the manager's own command, 0 from a worker. -/
def State.arriveAt (s : State) (id mask : Nat) (a : Arrival) : State :=
  if s.barriers.any fun b => b.id == id then
    { s with barriers := s.barriers.map fun (b : Barrier) =>
        if b.id == id then { b with mask := b.mask ||| mask, arrived := b.arrived ++ [a] } else b }.tryRelease id
  else if s.barriers.length < 16 then
    { s with barriers := s.barriers ++ [Barrier.mk id mask s.tb.n [a]] }.tryRelease id
  else { s with waitArrive := s.waitArrive ++ [(id, mask, a)] }

/-- The arrivals that waited for a barrier to close, tried again in order (R675). -/
def State.admitArrivals (s : State) : State :=
  s.waitArrive.foldl (fun s x => s.arriveAt x.1 x.2.1 x.2.2) { s with waitArrive := [] }

/-- An ARRIVE frame at the manager (R673). -/
def execArrive (j : Nat) (f : WarpFrame) (barrier ts : Nat) (coarse pace : Bool) (s : State) : Out :=
  ok (onFrame s j 0x05 f false fun s =>
    (s.arriveAt (barrier % 65536) 0 { module_ := f.src, ts := ts, coarse := coarse, pace := pace }).admitArrivals)

/-- A RELEASE frame at a worker (R674, R676). -/
def execRelease (j : Nat) (f : WarpFrame) (barrier : Nat) (fail : Bool) (s : State) : Out :=
  ok (onFrame s j 0x06 f false fun s => s.releaseHere (barrier % 65536) fail)

/-- TIMEOUT_US passes after a barrier's first arrival: it is released as failed (R676). -/
def execBarrierTimeout (id : Nat) (s : State) : Out :=
  match s.barriers.find? fun b => b.id == id with
  | none => ok s
  | some b =>
    if b.first + s.fget A.wpBarrierCtl A.wpBarrierCtl_timeoutUs * tUs ≤ s.tb.n then
      let s := { s with barriers := s.barriers.filter fun b => b.id != id }
      let ms := b.arrived.map Arrival.module_
      ok (((s.sendRelease id true ms).releaseHere id true).admitArrivals)
    else ok s

/-! ### The Warp opcodes (R665 to R674) -/

/-- The check that a Warp command to or from another module makes when it starts (R665, R669). `peer` is DEST or SRC;
`onRoute` that it must run on the WP of the link toward it. -/
def warpCheck (s : State) (t : Tracked) (peer : Nat) (onRoute : Bool) : Option Nat :=
  if ¬ s.flag (A.wpPart 0 t.part) A.wpPart_en then some 0x01E2
  else if peer = moduleId s then some 0x01E4
  else if onRoute && (match routeTo s peer with | some j => 58 + j / 4 != t.station | none => true) then some 0x01E0
  else none

/-- The head of an input's window. -/
def Tracked.head? (t : Tracked) (i : Nat) : Option Tile := (t.ins[i]?).bind fun b => b.window.head?

/-- The command's start checks have passed. -/
def State.opened (s : State) (slot : Nat) : State :=
  s.updCmd slot fun u => { u with work := { u.work with opened := true } }

/-- A WSEND sends its next tile to DEST in DATA frames of at most 4,096 bytes, spending one credit (R667, R668). -/
def execWsend (slot : Nat) (s : State) : Out :=
  match runningCmd s slot 0x7C with
  | none => ok s
  | some t =>
    let dest := opw t.opb 4 5 0
    let chan := opw t.opb 4 31 16
    if t.work.opened = false then
      match warpCheck s t dest true with
      | some det => ok (s.finish slot St.cmdError det)
      | none => ok (s.opened slot)
    else
      match t.head? 0, routeTo s dest with
      | some x, some j =>
        let n := (x.payload.length + 4095) / 4096
        if linkTakes s j n ∧ 0 < creditsFor s dest t.part chan ∧ ¬ stopping s t.part then
          let s := s.setCredits dest t.part chan (creditsFor s dest t.part chan - 1)
          let s := (List.range n).foldl (fun s k =>
            s.sendTo dest 0x01 t.part chan (if k = 0 then tileHeader x else 0) (k + 1 == n)
              ((x.payload.drop (4096 * k)).take 4096)) s
          let s := (s.takeTile slot 0).releaseTo slot 0 (t.work.pos + 1)
          let s := s.updCmd slot fun u => { u with work := { u.work with pos := u.work.pos + 1 } }
          ok (if x.last then s.reach slot St.done Det.none else s)
        else ok s
      | none, _ => ok (s.upstreamEnd slot)
      | _, none => ok s

/-- Tiles of a command's first output that some consumer has not released: sent and not yet credited back. -/
def outHeld (s : State) (t : Tracked) : Nat :=
  ((outChans s t.slot 0).map fun c => 4 - c.credits).foldl max 0 + ((t.outs.map fun o => o.queue.length).headD 0)

/-- A WRECV takes its landing slots, grants a credit for each free one, and emits the tiles that land (R667, R668). -/
def execWrecv (slot : Nat) (s : State) : Out :=
  match runningCmd s slot 0x7D with
  | none => ok s
  | some t =>
    let src := opw t.opb 4 5 0
    let chan := opw t.opb 4 31 16
    if t.work.opened = false then
      match warpCheck s t src false with
      | some det => ok (s.finish slot St.cmdError det)
      | none =>
        let l : Landing := { slot := slot, part := t.part, src := src, chan := chan, slots := opw t.opb 4 37 32 + 1,
                             granted := 0, hdr := none, gather := [], tiles := [] }
        ok ({ s with landings := s.landings ++ [l] }.opened slot)
    else
      match s.landings.find? fun l => l.slot == slot with
      | none => ok s
      | some l =>
        let free := l.slots - (l.granted + l.tiles.length + outHeld s t)
        let up := match routeTo s src with | some j => linkTakes s j 1 | none => false
        if decide (0 < free) && up && !stopping s t.part then
          let s := { s with landings := s.landings.map fun (m : Landing) =>
            if m.slot == slot then { m with granted := m.granted + 1 } else m }
          ok (s.sendTo src 0x02 t.part chan 0 false [])
        else
          match l.tiles with
          | [] => ok s
          | x :: r =>
            if roomFor s t then
              let s := { s with landings := s.landings.map fun (m : Landing) =>
                if m.slot == slot then { m with tiles := r } else m }
              let s := s.formTile slot 0 x
              ok (if x.last then s.reach slot St.done Det.none else s.settle slot)
            else ok s

/-- A BARRIER consumes its order stream and arrives: a worker sends ARRIVE to module 0, the manager counts itself
(R673). It completes on RELEASE. -/
def execBarrier (slot : Nat) (s : State) : Out :=
  match runningCmd s slot 0x7E with
  | none => ok s
  | some t =>
    let id := opw t.opb 4 15 0
    let mask := opw t.opb 5 63 0
    if t.work.opened = false then
      let det :=
        if ¬ s.flag (A.wpPart 0 t.part) A.wpPart_en then some 0x01E2
        else if ¬ mask.testBit 0 then some 0x01E4
        else if t.station ≠ 58 ∨ (¬ isManager s ∧ routeTo s 0 = none) then some 0x01E0
        else none
      match det with
      | some det => ok (s.finish slot St.cmdError det)
      | none => ok (s.opened slot)
    else if t.work.aux2 = 1 then ok s
    else
      match t.head? 0 with
      | some _ => ok ((s.takeTile slot 0).releaseTo slot 0 (t.work.pos + 1) |>.updCmd slot fun u =>
          { u with work := { u.work with pos := u.work.pos + 1 } })
      | none =>
        if ¬ t.ins.all (fun b => b.lastIn) then ok (s.upstreamEnd slot)
        else if isManager s ∨ (routeTo s 0).any fun j => linkTakes s j 1 then
          let s := s.updCmd slot fun u => { u with work := { u.work with aux2 := 1 } }
          let pace := s.flag (A.wpStatus 0) A.wpStatus_pace
          if isManager s then
            ok ((s.arriveAt id mask { module_ := 0, ts := now s, coarse := coarse s, pace := pace }).admitArrivals)
          else
            ok (s.sendTo 0 0x05 0 0 (id + now s * 2 ^ 16 + (if coarse s then 2 ^ 80 else 0) + (if pace then 2 ^ 81 else 0))
              false [])
        else ok s

/-- A WSUBMIT sends the 64-byte rows of its next tile as CMD frames to DEST's queue (R670). -/
def execWsubmit (slot : Nat) (s : State) : Out :=
  match runningCmd s slot 0x7F with
  | none => ok s
  | some t =>
    let dest := opw t.opb 4 5 0
    if t.work.opened = false then
      match warpCheck s t dest true with
      | some det => ok (s.finish slot St.cmdError det)
      | none => ok (s.opened slot)
    else
      match t.head? 0, routeTo s dest with
      | some x, some j =>
        if tileRowBytes x ≠ 64 then ok (s.finish slot St.cmdError Det.tileFormat)
        else if linkTakes s j (tileRows x) ∧ ¬ stopping s t.part then
          let s := (List.range (tileRows x)).foldl (fun s k =>
            s.sendTo dest 0x03 t.part (opw t.opb 4 11 8) 0 false (rowOf x k)) s
          let s := (s.takeTile slot 0).releaseTo slot 0 (t.work.pos + 1)
          let s := s.updCmd slot fun u => { u with work := { u.work with pos := u.work.pos + 1 } }
          ok (if x.last then s.reach slot St.done Det.none else s)
        else ok s
      | none, _ => ok (s.upstreamEnd slot)
      | _, none => ok s

end Sys2Proof.Machine
end

