-- ==== Sys2Proof/Machine/Registers.lean ====
section
/-! DEFINITION. Reads and writes of registers by their access codes (Table 0-5) and by who makes them, and the events that
change registers alone: port links, gate control lists, clock gating, images. -/

namespace Sys2Proof.Machine

open Sys2Proof

/-! ### Who may access a register -/

/-- Station window, and offset in it. -/
def winOf (a : Nat) : Nat := (regBlock a).1
def offOf (a : Nat) : Nat := (regBlock a).2

/-- The index of an address in an array of registers. -/
def ixOf (a base stride n : Nat) : Option Nat :=
  if base ≤ a ∧ a < base + n * stride ∧ (a - base) % stride = 0 then some ((a - base) / stride) else none

/-- Partition `p` owns the queue block of a host-core queue (R945). -/
def ownsQueueBlock (s : State) (p a : Nat) : Bool :=
  decide (0x1000 ≤ offOf a ∧ offOf a < 0x1000 + 32 * 0x40) &&
    s.fget (A.loomSqCtl ((offOf a - 0x1000) / 0x40)) A.loomSqCtl_part == p

/-- Software of partition `p` reads the register (R79, R184, R186, R464, R534, R590, R636, R816, R845, R880, R945 and the
sentences above each register table). -/
def partReads (s : State) (p a : Nat) : Bool :=
  let w := winOf a
  let o := offOf a
  let lodeRead (o : Nat) : Bool := o == 0 || o == 8 || o == 0x10 || o == 0x28 || o == 0x30
  if w ≤ 60 ∧ 0xC000 ≤ o then blockPart s w == some p
  else if w < 48 ∧ o < 0x8000 then o < 0x18 || (o ≤ 0x30 && blockPart s w == some p)
  else if w < 48 then lodeRead (o - 0x8000)
  else if w < 52 then o < 0x8000 && lodeRead (o - 0x4000)
  else if w < 54 then o == 0x200 || decide (0x100 + p * 0x20 ≤ o ∧ o < 0x120 + p * 0x20)
  else if w < 56 then o < 0x28 || (0x100 ≤ o && (match ixOf a (A.vdChan (w - 54) 0) 8 60 with
    | some c => (match vchan? s (w - 54) (if c < 40 then c else c - 40) (40 ≤ c) with | some v => v.owner == p | none => true)
    | none => false))
  else if w < 58 then o < 0x28 || o == 0x40 || o == 0x48 ||
    (match ixOf a (A.nxShuttlePeek (w - 56) 0) 16 8 with | some _ => true | none => false) ||
    (match ixOf a (A.nxFlow (w - 56) 0) 8 128 with
      | some k => k % 2 == 0 || s.fget (A.nxFlow (w - 56) (k / 2)) A.nxFlow_part == p
      | none => false) ||
    decide (0x600 ≤ o ∧ o < 0x1000) || (match ixOf a (A.nxFilter (w - 56) 0) 16 64 with | some _ => true | none => false) ||
    decide (0x2000 ≤ o ∧ o < 0x8000)
  else if w = 60 then o < 0x18
  else if w = 61 then o < 0x10 || a == A.gnPartCtl p || decide (0x40 + p * 0x20 ≤ o ∧ o < 0x60 + p * 0x20)
  else if w = 62 then a == A.dbgRingTail p || a == A.dbgRingLost p
  else if w = 65 then true
  else if w = 67 then ownsQueueBlock s p a || a == A.loomPartQuota p || a == A.loomId || a == A.loomStatus ||
    a == A.loomFenced || a == A.loomTesting || decide (A.loomMapCe 0 ≤ a ∧ a < A.loomMapCe 32) ||
    decide (A.loomMapDe 0 ≤ a ∧ a < A.loomMapDe 16) ||
    (a == A.loomAbortResult && s.fget A.loomAbortResult A.loomAbortResult_part == p)
  else if w = 69 then s.fget A.lineCtl A.lineCtl_part == p
  else false

/-- Registers of a confidential partition's commands, which read zero to every reader but its own software, and its counter
blocks, of which only PART shows (R184, R848, Table 15-4). -/
def hiddenReg (s : State) (who : Who) (a : Nat) : Bool :=
  let w := winOf a
  let o := offOf a
  match (if w < 61 then blockPart s w else none) with
  | some p => confidential s p && ((0xC000 ≤ o) || (w < 48 && 0x18 ≤ o && o ≤ 0x30 && !who.isPart p))
  | none => false

/-- The access reads the register. -/
def mayRead (s : State) (who : Who) (a : Nat) : Bool := match who with | .firmware => true | .part p => partReads s p a

/-- Software of partition `p` writes the register. -/
def partWrites (s : State) (p a : Nat) : Bool :=
  let w := winOf a
  let o := offOf a
  if w < 48 ∧ 0xC000 ≤ o then blockPart s w == some p
  else if w < 48 then o == 0x28 && blockPart s w == some p
  else if w < 52 then false
  else if w < 54 then o == 0x200 || decide (0x100 + p * 0x20 ≤ o ∧ o < 0x120 + p * 0x20)
  else if w = 62 then a == A.dbgRingHead p
  else if w = 67 then ownsQueueBlock s p a && (offOf a % 0x40 == 0x10 || offOf a % 0x40 == 0x38)
  else if w = 69 then s.fget A.lineCtl A.lineCtl_part == p && (a == A.lineDefault || decide (A.lineVerdict 0 ≤ a))
  else false

/-- The access writes the register. -/
def mayWrite (s : State) (who : Who) (a : Nat) : Bool := match who with | .firmware => true | .part p => partWrites s p a

/-! ### Fields that show other state -/

/-- The running and staged command of a unit. -/
def runsOn (s : State) (st unit : Nat) : Option Tracked := unitCmd s st unit Phase.onUnit
def stagedOn (s : State) (st unit : Nat) : Bool := (unitCmd s st unit (· == .staged)).isSome

/-- CE_STATUS and DE_STATUS (Tables 2-17 and 2-20). -/
def engineStatus (s : State) (st v : Nat) : Nat :=
  let b (x : Bool) : Nat := if x then 1 else 0
  let v := setFld v 3 0 (b (runsOn s st 0).isSome + b (stagedOn s st 0) * 2 + b (runsOn s st 1).isSome * 4 + b (stagedOn s st 1) * 8)
  let v := setFld v 13 8 (if 32 ≤ st ∧ (s.reg A.loomFenced).testBit st then 0 else (logicalsOn s st).length)
  if st < 32 then v else setFld v 18 18 (b (physical s st == st))

/-- CE_ENGINE_CMD and CE_MOVER_CMD (Table 2-17). -/
def unitCmdReg (s : State) (st unit : Nat) : Nat :=
  match runsOn s st unit with
  | some t => t.desc.cmdSeq + t.part * 2 ^ 48 + t.desc.lstation % 32 * 2 ^ 51 + 2 ^ 63
  | none => 0

/-- Ticks left of a time, as milliseconds. -/
def msLeft (s : State) (u : Nat) : Nat := (u - s.tb.n) / tMs

/-- LOOM_STATUS (Table 1-13). -/
def loomStatusReg (s : State) : Nat :=
  let b (x : Bool) : Nat := if x then 1 else 0
  let n := s.tracked.length
  let waiting := (List.range 64).any fun q => !sqEmpty s q
  n + b (n == 262144) * 2 ^ 19 + b (n == 0 && !waiting) * 2 ^ 20 + b s.abort.isSome * 2 ^ 21

/-- VD_CHAN_c (Table 8-9). -/
def vdChanReg (s : State) (vd c : Nat) : Nat :=
  let b (x : Bool) : Nat := if x then 1 else 0
  match vchan? s vd (if c < 40 then c else c - 40) (40 ≤ c) with
  | none => 0
  | some v => 1 + b v.priv * 2 + v.owner * 4 + b v.waitIrap * 32 + b (chanRuns s v) * 64 + v.pics % 2 ^ 32 * 2 ^ 32

/-- The sampler waits for a mask row (R379). -/
def maskWaiting (s : State) : Bool :=
  match runsOn s 60 0 with
  | some t => t.op == 0x60 && t.status.isNone && t.work.fails != 0
  | none => false

/-- Video registers that show the open channels; header firmware runs once the module has started (DESIGN CHOICE, log 77). -/
def vdReg (s : State) (vd a v : Nat) : Nat :=
  let cs := (s.vchans.map Prod.snd).filter fun c => c.vd == vd
  let n (f : VChan → Bool) : Nat := (cs.filter f).length
  let cost (enc : Bool) : Nat := ((cs.filter fun c => c.encode == enc).map VChan.cost).sum
  if a = A.vdStatus vd then
    s.fget A.cfgStartStatus A.cfgStartStatus_ready + n (fun c => !c.encode) * 2 ^ 8 + n VChan.encode * 2 ^ 16 + n VChan.priv * 2 ^ 24
  else if a = A.vdDecLoad vd then setFld v 19 0 (cost false)
  else if a = A.vdEncLoad vd then setFld v 19 0 (cost true)
  else match ixOf a (A.vdChan vd 0) 8 60 with
    | some c => vdChanReg s vd c
    | none => v

/-- Registers of the network that show other state. -/
def nxReg (s : State) (port a v : Nat) : Nat :=
  if a = A.nxStatus port ∨ a = 0x30003808010 then setFld v 2 2 (if mayEmit s then 1 else 0)
  else match ixOf a (A.nxShuttleStat port 0) 16 8 with
    | some q => setFld v 10 0 (shuttleUsed s (port * 8 + q))
    | none =>
      match ixOf a (A.nxShuttlePeek port 0) 16 8 with
      | some q => (match tgetD s.shuttles (port * 8 + q) [] with
        | f :: _ => f.frame.len + (if f.frame.tagged then f.frame.pcp % 8 else 0) * 2 ^ 14 + 2 ^ 63
        | [] => 0)
      | none => v

/-- Registers of the Warp stations and the pair that show other state. -/
def wpReg (s : State) (a v : Nat) : Nat :=
  let b (x : Bool) : Nat := if x then 1 else 0
  if a = A.wpStatus 0 ∨ a = A.wpStatus 1 then
    let up := match routeTo s 0 with | some j => linkState s j == lkUp | none => false
    let wait := s.tracked.any fun t => t.op == 0x7E && t.phase == .running && t.status.isNone && t.work.aux2 == 1
    setFld v 3 1 (s.fget (A.wpStatus 0) A.wpStatus_pace + b wait * 2 + b up * 4)
  else if a = A.wpLanding 0 ∨ a = A.wpLanding 1 then
    ((s.landings.filter fun l => ((s.cmd? l.slot).map Tracked.station) == some (winOf a)).map Landing.slots).sum
  else if a = A.pairLeaseLeft then
    satTo 32 ((if s.flag A.pairStatus A.pairStatus_leaseHeld then s.pair.ownUntil else s.pair.partnerUntil) - s.tb.n)
  else match ixOf a (A.wpPart 0 0) 8 8 with
    | some p => setFld v 31 16 (satTo 16 (inflight s p))
    | none => v

/-- The timebase's registers; TB_SLEW_LEFT is signed. -/
def tbReg (s : State) (a v : Nat) : Nat :=
  if a = A.tbNow then now s
  else if a = A.tbTick then s.tb.n % 2 ^ 64
  else if a = A.tbSlewLeft then toS64 ((s.tb.slew - s.tb.extra * (s.tb.n - s.tb.n0 : Nat)) / 2 ^ 32)
  else v

/-- Garnet's registers that show other state. -/
def gnReg (s : State) (a v : Nat) : Nat :=
  if a = A.gnAttestStatus then setFld v 3 0 s.attest.length
  else match ixOf a (A.gnPartInflight 0) 0x40 8 with
    | some p => satTo 16 (seamFlits s p) * 2 ^ 16 + satTo 16 (inflight s p) * 2 ^ 32
    | none => v

/-- LEDGER_STATUS: nothing in progress, a flush that waits for a frame, an append that waits for lines (Table 5-12). -/
def ledgerStatusReg (s : State) (v : Nat) : Nat :=
  let b (x : Bool) : Nat := if x then 1 else 0
  let lines := s.tracked.any fun t => t.op == 0x50 && t.phase == .running && t.status.isNone && t.work.fails == 1
  setFld (setFld (setFld v 0 0 (b (ledgerQuiet s))) 1 1 (b !s.poolWaits.isEmpty)) 2 2 (b lines)

/-- What a read of a register returns, of the bits that a read shows: fields that show other state are made here. -/
def liveReg (s : State) (a : Nat) : Nat :=
  let v := s.reg a
  let w := winOf a
  let o := offOf a
  let b (x : Bool) : Nat := if x then 1 else 0
  if w ≤ 60 ∧ 0xC000 ≤ o then
    (if a = A.dbgTrcStatus w then setFld v 8 0 (tgetD s.traces w []).length
     else if a = A.dbgCntCtl w ∧ w < 48 then setFld v 4 2 ((blockPart s w).getD 0) else v)
  else if w < 48 then
    (if a = A.ceStatus w then engineStatus s w v
     else if a = A.ceEngineCmd w then unitCmdReg s w 0
     else if a = A.ceMoverCmd w then unitCmdReg s w 1 else v)
  else if w = 54 ∨ w = 55 then vdReg s (w - 54) a v
  else if w = 56 ∨ w = 57 then nxReg s (w - 56) a v
  else if w = 58 ∨ w = 59 then wpReg s a v
  else if w = 60 then
    (if a = A.spStatus then b (runsOn s 60 0).isSome + b (stagedOn s 60 0) * 2 + b (maskWaiting s) * 4 else v)
  else if w = 61 then gnReg s a v
  else if w = 63 then
    (if a = A.pmCap then setFld v 31 16 (match s.power.leaseUntil with | some u => msLeft s u | none => 0) else v)
  else if w = 65 then tbReg s a v
  else if w = 66 then
    (if a = A.eaStatus then setFld v 0 0 (b ((s.reg A.eaLogTail + 1) % 2 ^ logLog2 s == s.reg A.eaLogHead)) else v)
  else if w = 67 then
    (if a = A.loomStatus then loomStatusReg s
     else match ixOf a (A.loomPartQuota 0) 8 8 with | some p => setFld v 50 32 (quotaUsed s p) | none => v)
  else if a = A.ledgerStatus then ledgerStatusReg s v
  else if w = 69 then
    (if a = A.lineStatus then b s.pins.lineClkOn + b (s.flag A.lineCtl A.lineCtl_enable && mayEmit s) * 2
     else if a = A.lineTrigTs then ((s.trigFifo.head?).map TrigEntry.ts).getD 0 else v)
  else if w = 70 then
    (if a = A.thimbleTicks then s.thimble.ticks % 2 ^ 48
     else if a = A.thimbleSleepStatus ∧ s.thimble.state = .run ∧ s.gated.length = 48 then setFld v 2 0 1 else v)
  else if a = A.cfgTrialLeft then (if s.store.trial then msLeft s (s.store.trialAt + 120 * tSec) else 0)
  else v

/-! ### Reads (R27, R28) -/

/-- The value that a read returns: nothing of write-only bits. -/
def readReg (s : State) (who : Who) (a : Nat) : Nat :=
  match findReg (homeAddr a) with
  | none => 0
  | some (d, _) =>
    if ¬ mayRead s who a then 0
    else if hiddenReg s who a then (if a = A.dbgCntCtl (winOf a) then fld (liveReg s a) 4 2 * 4 else 0)
    else liveReg s a - (liveReg s a &&& d.wo)

/-- A read of a register: its value, and its RC fields back at their reset value. A read that the reader is not allowed returns
zero and clears nothing. LINE_TRIG_POP removes the FIFO's head (R636). -/
def execRcRead (who : Who) (addr : Nat) (s : State) : Out :=
  if ¬ ftOn s then ok s
  else if addr = A.lineTrigPop then execLineTrigPop who s
  else
    match findReg (homeAddr addr) with
    | none => ok (s.answer 0)
    | some (d, _) =>
      let v := readReg s who addr
      if ¬ mayRead s who addr ∨ hiddenReg s who addr = true then ok (s.answer v)
      else
        let old := s.reg addr
        ok ((if d.rc = 0 then s else s.setReg addr (old - (old &&& d.rc) + (regReset (homeAddr addr) &&& d.rc))).answer v)

/-! ### Writes (R27) -/

/-- The field rule of a write that hardware accepts: RW bits take the value, W1C bits are cleared and W1S bits set where it
has a 1. -/
def codeWrite (d : RegDef) (old v : Nat) : Nat :=
  let kept := old - (old &&& d.rw)
  let kept := kept - (kept &&& (v &&& d.w1c))
  let kept := kept - (kept &&& d.wo)
  kept ||| (v &&& d.rw) ||| (v &&& d.w1s) ||| (v &&& d.wo)

/-- Conditions that a register's own rule sets on a write of it (R359, R591, R787, R793, Tables 5-13 and 15-7). -/
def writeOpen (s : State) (a : Nat) : Bool :=
  if a = A.ledgerSeqBase ∨ a = A.ledgerBobbinCfg then
    !s.flag A.ledgerCtl A.ledgerCtl_enable && s.seqUsed.all fun q => (seqRec s q).isNone
  else if winOf a = 68 ∧ 0x100 ≤ offOf a ∧ (offOf a % 0x40 = 8 ∨ offOf a % 0x40 = 0x10) then
    let n := (offOf a - 0x100) / 0x40
    !s.flag (A.ledgerClass n) A.ledgerClass_valid && !classBusy s n
  else if winOf a = 61 ∧ 0x8100 ≤ offOf a ∧ (offOf a % 0x40 = 8 ∨ offOf a % 0x40 = 0x28) then
    !partValid s ((offOf a - 0x8100) / 0x40)
  else if winOf a = 70 ∧ (a = A.thimbleRestoreCtl ∨ 0x1000 ≤ offOf a) then !s.flag A.thimbleSleepCtl A.thimbleSleepCtl_req
  else true

/-- A register written by its access codes, where its rule leaves it open. -/
def State.plainWrite (s : State) (d : RegDef) (a v : Nat) : State :=
  let v := if a = A.gnPartCfg ∧ (List.range 8).any (partValid s) = true then setFld v 0 0 (s.reg a) else v
  let v := if a = A.dbgWdCtl 0 then setFld v 0 0 1 else v
  let v := if winOf a = 62 ∧ (ixOf a (A.fcSev 0) 8 8).isSome = true then v &&& sevMask ((a - A.fcSev 0) / 8) else v
  if writeOpen s a then s.setReg a (codeWrite d (s.reg a) (v % 2 ^ 64)) else s
where
  /-- The fields of FC_SEV_k that belong to severity sources (Table 16-8). -/
  sevMask (k : Nat) : Nat := ((List.range 32).map fun i => if severitySource (32 * k + i) then 3 * 2 ^ (2 * i) else 0).sum

/-- A software cap written: one below 210 W counts as 210 W and sets CAP_FLOOR (R736). -/
def State.writePmCap (s : State) (v : Nat) : State :=
  let old := effCap s
  let w := fld v 47 32
  let s := s.fset A.pmCap A.pmCap_swCapW w
  let s := if w ≠ 0 ∧ w < 210 then s.fset A.pmStatus A.pmStatus_capFloor 1 else s
  s.capMoved old

/-- A flow entry written: PART is the owner of the named channel; without one the entry is not enabled (R554). -/
def State.writeFlow (s : State) (d : RegDef) (a v : Nat) : State :=
  let s := s.plainWrite d a v
  match vchan? s (fld v 1 1) (fld v 7 2) false with
  | some c => if v.testBit 0 then s.fset a A.nxFlow_part c.owner else s
  | none => s.fset a A.nxFlow_en 0

/-- What a register's write does beside its fields: a watchdog that is enabled begins its count, a new gate control list waits for its
base time (R591), and LINE_Q follows LINE_DEFAULT while the module does not answer (R606, Table 16-4). -/
def State.afterWrite (s old : State) (a v : Nat) : State :=
  if a = A.lineDefault then
    if (mayEmit s ∧ ¬ safe s) ∨ heldGroup s 0 then s
    else { s with pins := { s.pins with lineQ := s.fget A.lineDefault A.lineDefault_q, lineAck := false } }
  else if a = A.nxQbvBase 0 ∨ a = A.nxQbvBase 1 then
    let c := A.nxQbvCtl (winOf a - 56)
    if s.flag c A.nxQbvCtl_en then s.fset c A.nxQbvCtl_pending 1 else s
  else match (if winOf a = 62 then ixOf a (A.dbgWdCtl 0) 16 4 else none) with
    | some w => if v.testBit 0 ∧ ¬ old.flag (A.dbgWdCtl w) A.dbgWdCtl_en then s.wdRestart w else s
    | none => s

/-- The commands that have rows of their own, as writes of their registers: Loom, host cores, ledger, memory. -/
def ownWriteA (who : Who) (a v : Nat) (s : State) : Option Out :=
  let w := winOf a
  let o := offOf a
  if w = 67 ∧ 0x1000 ≤ o then
    let q := (o - 0x1000) / 0x40
    if o % 0x40 = 0 then some (execLoomSqBase who q (fld v 47 0) s)
    else if o % 0x40 = 8 then some (execLoomSqCtl who q v s)
    else if o % 0x40 = 0x10 then some (execLoomSqTail who q (fld v 15 0) s)
    else none
  else if a = A.loomAbort then some (execLoomAbort who v s)
  else if a = A.hcTaskDone 0 ∨ a = A.hcTaskDone 1 then some (execHcTaskDone who (w - 52) (fld v 31 0) (fld v 39 32) s)
  else if w = 68 then (ixOf a (A.ledgerClass 0) 0x40 16).map fun n => execLedgerClassValid who n v s
  else if w = 48 ∧ 0x8000 ≤ o then
    (ixOf a (A.memPartKey 0) 8 8).map (fun p => execMemPartKey who p v s) <|>
      (ixOf a (A.memSlot 0) 8 16).map (fun k => if v.testBit 63 then execRetire who k s else ok s) <|>
      (ixOf a (A.memRegionBase 0) 16 64).map (fun n => execMemRegionWrite who n false v s) <|>
      (ixOf a (A.memRegionLimit 0) 16 64).map fun n => execMemRegionWrite who n true v s
  else none

/-- The same: timebase, Warp, pair, power, Thimble. -/
def ownWriteB (who : Who) (a v : Nat) (s : State) : Option Out :=
  let w := winOf a
  if a = A.tbAdj then some (execTbAdj who v s)
  else if a = A.tbRate then some (execTbRate who v s)
  else if a = A.pairHeartbeat then some (execPairHeartbeat who s)
  else if w = 63 then (ixOf a (A.pmStationPhase 0) 8 4).map fun k => execPmStationPhase who k v s
  else if a = A.thimbleSleepCtl then
    if s.flag a A.thimbleSleepCtl_req ∨ ¬ who.isFw then some (ok s)
    else
      let s := s.fset a A.thimbleSleepCtl_target v
      if ¬ v.testBit 8 then some (ok s)
      else match v % 4 with
        | 1 => some (execDozeRequest who s)
        | 2 => some (execWatchRequest who s)
        | 3 => some (execDormantRequest who s)
        | _ => some (ok s)
  else if a = A.thimbleSelvage then some (execSelvageRelease who (fld v 13 8) s)
  else if w = 58 ∨ w = 59 then
    (ixOf a (A.wpLinkCtl (w - 58) 0) 0x80 4).map fun k =>
      let j := 4 * (w - 58) + k
      match execLinkEnable who j v s with
      | .next s1 => (if v.testBit 3 then execRecal who j s1 else ok s1) |> fun r => match r with
        | .next s2 => if v.testBit 2 then execRetrain who j s2 else ok s2
        | r => r
      | r => r
  else none

/-- The same: Garnet, faults, debug. -/
def ownWriteC (who : Who) (a v : Nat) (s : State) : Option Out :=
  let w := winOf a
  let o := offOf a
  if w = 61 then
    if a = A.gnCtl then some (if fld v 15 8 = 0x5A then execZeroise who v s else if v.testBit 0 then execSelftest who s else ok s)
    else if a = A.gnMeasExtend then some (execGnMeasExtend who v s)
    else if a = A.gnAttestReq then some (execGnAttestReq who v s)
    else (ixOf a (A.gnPartCtl 0) 0x40 8).map fun p =>
      if partValid s p = true ∧ v.testBit 2 then execTeardown who p s else execPartitionCreate who p v s
  else if a = A.fcTestReq then some (execFcTestReq who (fld v 5 0) s)
  else if a = A.fcInject then some (execFcInject who v s)
  else if w = 62 ∧ o < 0x8000 then (ixOf a (A.fcStatus 0) 8 4).map fun k => execFcStatus who k v s
  else if w = 62 then (ixOf a (A.dbgWdKick 0) 16 4).map fun k => execDbgWdKick who k s
  else if w ≤ 60 ∧ o = 0xC098 then some (execDbgTrcMark who w v s)
  else none

/-- The commands that a bit written 1 gives beside the other fields of its register. -/
def State.bitCommand (s : State) (who : Who) (a v : Nat) : Out :=
  if a = A.fcCtl ∧ v.testBit 1 then execSafeReq who s
  else if a = A.pairCtl ∧ v.testBit 2 then execSwapReq who s
  else if a = A.dbgDumpCtl ∧ v.testBit 3 then execDumpReq who s
  else if winOf a ≤ 60 ∧ offOf a = 0xC000 ∧ v.testBit 5 then execClear who (winOf a) s
  else if a = A.cfgStartCtl then
    if v.testBit 1 then execColdReq ⟨who, s.store.failing⟩ s
    else if v.testBit 0 then execWarmReq ⟨who, s.store.failing⟩ s
    else if v.testBit 2 then execConfirm who s
    else ok s
  else ok s

/-- Bits of a register that only give a command; the field itself reads 0. -/
def commandBits (a : Nat) : Nat :=
  if a = A.fcCtl then 2
  else if a = A.pairCtl then 4
  else if a = A.dbgDumpCtl then 8
  else if winOf a ≤ 60 ∧ offOf a = 0xC000 then 32
  else if a = A.cfgStartCtl then 7
  else 0

/-- A write to a register (R27): by the command of its own row where it has one, else by its access codes. A write that the writer
is not allowed, or to no register, has no effect. -/
def execRegisterWrite (who : Who) (addr val : Nat) (s : State) : Out :=
  if ¬ ftOn s then ok s
  else
    let v := val % 2 ^ 64
    match ownWriteA who addr v s <|> ownWriteB who addr v s <|> ownWriteC who addr v s with
    | some r => r
    | none =>
      match findReg (homeAddr addr) with
      | none => ok s
      | some (d, _) =>
        if ¬ mayWrite s who addr then ok s
        else if addr = A.pmCap then ok (s.writePmCap v)
        else if d.base = A.nxFlow 0 0 ∧ d.rw ≠ 0 then ok (s.writeFlow d addr v)
        else
          let s1 := s.plainWrite d addr (v - (v &&& commandBits addr))
          (s1.afterWrite s addr v).bitCommand who addr v

/-! ### Events that change registers alone -/

/-- A port gains or loses lock (R772). -/
def execPortLinkUp (n : Nat) (up : Bool) (s : State) : Out :=
  if n < 3 ∧ ftOn s then ok (s.setReg (portBase n + 0x10) (setFld (s.reg (portBase n + 0x10)) 0 0 (if up then 1 else 0))) else ok s

/-- The pending gate control list of a port is loaded (R591). -/
def execGateControlListLoad (n : Nat) (s : State) : Out :=
  let c := A.nxQbvCtl n
  if n < 2 ∧ ftOn s = true ∧ s.flag c A.nxQbvCtl_pending = true ∧ s.reg (A.nxQbvBase n) ≤ now s then
    ok (s.fset c A.nxQbvCtl_pending 0)
  else ok s

/-- Reference ticks that 64 array cycles take at the point in force (Table 13-1). -/
def gateTicks (s : State) : Nat :=
  let f := max 1 (s.fget (A.pmOpTable (opNow s)) A.pmOpTable_freqMhz)
  (6400 + f - 1) / f

/-- An engine that has held no running or staged command for 64 array cycles gates its clocks (R757). -/
def execClockGating (st : Nat) (s : State) : Out :=
  if 48 ≤ st ∨ ¬ ftOn s ∨ s.gated.contains st ∨ (runsOn s st 0).isSome ∨ (runsOn s st 1).isSome ∨ stagedOn s st 0 ∨ stagedOn s st 1 ∨
      s.tb.n < tgetD s.busyAt st 0 + gateTicks s then ok s
  else ok { s with gated := s.gated ++ [st] }

/-- An image's last byte and index record are programmed: it exists, and its time to live starts (R404, R456, R459). -/
def execImageComplete (req : Nat) (s : State) : Out :=
  match tget s.images req with
  | none => ok s
  | some im =>
    if im.complete ∨ s.coldQ.head? ≠ some { req := req, resume := false, ready := true } ∨ ¬ ftOn s ∨
        s.fget A.gnStatus A.gnStatus_state ≠ 2 then ok s
    else ok (s.completeImage req im).runDue.runPair

end Sys2Proof.Machine
end

