-- ==== Sys2Proof/Machine/Dump.lean ====
section
/-! DEFINITION. The content of a hang dump and its end (R871 to R878). Table 17-6 names the content of each section and its largest size;
where the manual gives no layout, the places of sections and fields are a DESIGN CHOICE (log 76). -/

namespace Sys2Proof.Machine

open Sys2Proof

/-- The bytes of a section from an offset of it on are made of words: byte `o` of a list of 64-bit words. -/
def byteOfWords (ws : List Nat) (o : Nat) : Byte := BitVec.ofNat 8 (ws.getD (o / 8) 0 / 256 ^ (o % 8))

/-- The largest sizes of the sections in their order; each begins where the one before it ends at its largest (log 76). -/
def dumpSizes (sram : Bool) : List Nat :=
  [4096, 0x100000, 0x1400000, 0x80000, 0x400000, 0x820000, 0x7A000, 0x40000] ++ (if sram then [0xC000000] else [])

/-- The first byte of section `k`. -/
def dumpStart (sram : Bool) (k : Nat) : Nat := ((dumpSizes sram).take k).sum

/-- The section of a byte of the dump and its offset there. -/
def dumpPlace (sram : Bool) (o : Nat) : Option (Nat × Nat) :=
  ((List.range (dumpSizes sram).length).find? fun k => decide (o < dumpStart sram (k + 1))).map fun k => (k, o - dumpStart sram k)

/-! ### Section 0: HEADER -/

/-- The directory: offset, length and flags of each section. Flag 0: the region ended in it or before it (R873); flag 1: an uncorrectable
error was met in reading its source (R876). -/
def dumpDirectory (s : State) (sram : Bool) (n : Nat) : List Nat :=
  (List.range (dumpSizes sram).length).flatMap fun k =>
    let off := dumpStart sram k
    let size := (dumpSizes sram).getD k 0
    let bad := k == 8 && badRange s commonsBase commonsSize
    [off, min size (n - off), (if n < off + size then 1 else 0) + (if bad then 2 else 0)]

/-- The header's words, in the order in which Table 17-6 names its content. -/
def dumpHeader (s : State) (sram : Bool) (n : Nat) : List Nat :=
  let src := s.fget A.fcSummary A.fcSummary_safeSrc
  let cause := s.fget A.fcSummary A.fcSummary_safeCause
  let stop := s.reg A.dbgStopTick
  [0x4B484455 + 2 ^ 32, s.serial, s.store.startCount, stop, vAt s stop / 2 ^ 32 % 2 ^ 64, if coarse s then 1 else 0,
    if cause = 1 ∧ src = 149 then 1 else 0, s.fget A.dbgDumpStatus A.dbgDumpStatus_trigger, cause, src] ++
    (List.range 4).map (fun k => s.reg (A.fcStatus k)) ++ [s.eaNext] ++ dumpDirectory s sram n

/-! ### Sections 1 and 2: REGISTERS, LOOM -/

/-- Every defined register address, rising. -/
def dumpRegs : List Nat :=
  let block (w : Nat) : List Nat :=
    [0, 0x4000, 0x8000, 0xC000].flatMap fun o =>
      (defsAt (0x030000000000 + w * 0x100000 + o)).flatMap fun d =>
        ((List.range d.n1).flatMap fun i => (List.range d.n2).map fun j => d.base + i * d.s1 + j * d.s2).filter fun a =>
          (a - 0x030000000000) / 0x100000 == w
  (((List.range 72).flatMap block).mergeSort fun a b => decide (a ≤ b)).dedup

/-- Address and value pairs: values as the module firmware reads them, so that what R806 makes zero is zero (R874). -/
def dumpRegWord (s : State) (k : Nat) : Nat :=
  match dumpRegs[k / 2]? with
  | none => 0
  | some a => if k % 2 = 0 then a else readReg s .firmware a

/-- A tracker slot: the descriptor; then phase, eligibility and physical station, and the tiles emitted. Those of a confidential partition
are zero (R874). -/
def dumpSlot (s : State) (k : Nat) : List Nat :=
  match s.tracked.find? fun t => t.slot % 262144 == k with
  | none => []
  | some t =>
    if confidential s t.part then []
    else
      let d := t.desc
      let ph := match t.phase with | .waiting => 1 | .staged => 2 | .running => 3 | .draining => 4 | .ended => 5
      [d.w0, d.w1, d.w2, d.w3, d.w4, d.w5, d.w6, d.w7].map BitVec.toNat ++
        [ph + (if eligible s t then 2 ^ 8 else 0) + t.station * 2 ^ 16, t.tilesOut]

/-! ### Section 5: WARP (R656, R871) -/

/-- The clear header bytes 0 to 15 of a frame (Table 11-4). -/
def warpClear (type : Nat) (f : WarpFrame) : List Nat :=
  [f.counter % 2 ^ 64, type % 2 ^ 8 + f.part % 8 * 2 ^ 8 + (if f.tileEnd then 2 ^ 11 else 0) + f.src % 64 * 2 ^ 16 +
    f.dst % 64 * 2 ^ 24 + f.payload.length % 2 ^ 13 * 2 ^ 32 + f.chan % 2 ^ 16 * 2 ^ 48]

/-- A frame belongs to a confidential partition: DATA, CREDIT, CMD and CPL name theirs. -/
def frameSecret (s : State) (type : Nat) (f : WarpFrame) : Bool := decide (1 ≤ type ∧ type ≤ 4) && confidential s f.part

/-- The record of an unacknowledged frame of a link's retry buffer: COUNTER; counter space 0, link, direction (0 sent), IN_FLIGHT; the
clear header; the rest of the header, decrypted, unless the frame belongs to a confidential partition. -/
def warpRecord (s : State) (j type : Nat) (f : WarpFrame) : List Nat :=
  [f.counter % 2 ^ 64, j * 2 ^ 8 + 2 ^ 24] ++ warpClear type f ++
    (if frameSecret s type f then [] else [f.info % 2 ^ 64, f.info / 2 ^ 64 % 2 ^ 64])

/-- Byte `o` of slot `k` of the section: frame k mod 256 of link k / 256. -/
def warpByte (s : State) (k o : Nat) : Byte :=
  match (link s (k / 256)).retry[k % 256]? with
  | none => 0
  | some (type, f) =>
    if o < 64 then byteOfWords (warpRecord s (k / 256) type f) o
    else if frameSecret s type f then 0
    else f.payload.getD (o - 64) 0

/-! ### Sections 6 and 8: TRACE, SRAM -/

/-- Word `k` of a station's trace buffer: four of each record; zero for a confidential partition's. -/
def traceWord (s : State) (st k : Nat) : Nat :=
  match (tgetD s.traces st [])[k / 4]? with
  | none => 0
  | some r => if confidential s r.part then 0 else [r.w0, r.w1, r.w2, r.w3].getD (k % 4) 0

/-- A byte of the tile stores of stations 0 to 47, 4 MiB each, or of Commons: zero where a confidential partition owns it, or where an
uncorrectable error hides it. -/
def sramByte (s : State) (o : Nat) : Byte :=
  let secret (p : Option Nat) : Bool := p.any (confidential s)
  if o < 32 * 0x400000 + 16 * 0x200000 then
    let st := if o < 32 * 0x400000 then o / 0x400000 else 32 + (o - 32 * 0x400000) / 0x200000
    let q := if o < 32 * 0x400000 then o % 0x400000 else (o - 32 * 0x400000) % 0x200000
    if secret (blockPart s st) then 0 else Config.storeByte st q (storeKnown s st q) s.free
  else
    let a := commonsBase + (o - (32 * 0x400000 + 16 * 0x200000))
    if secret (ownerAt s a) ∨ badRange s a 1 then 0 else byteAt s a

/-! ### The dump -/

/-- A byte of the dump of a stopped module. The sections SEAM, STATIONS and CORES have no layout that shows where a partition's content
lies: their bytes are free. -/
def dumpByteAt (s : State) (sram : Bool) (n o : Nat) : Byte :=
  match dumpPlace sram o with
  | none => 0
  | some (0, q) => byteOfWords (dumpHeader s sram n) q
  | some (1, q) => BitVec.ofNat 8 (dumpRegWord s (q / 8) / 256 ^ (q % 8))
  | some (2, q) => byteOfWords (dumpSlot s (q / 80)) (q % 80)
  | some (5, q) => warpByte s (q / 4160) (q % 4160)
  | some (6, q) => BitVec.ofNat 8 (traceWord s (q / 8192) (q % 8192 / 8) / 256 ^ (q % 8))
  | some (8, q) => sramByte s q
  | some (k, q) => Config.dumpByte k q s.free

/-- The dump region cannot be written (R876). -/
def headerOnly (s : State) : Bool :=
  s.fget A.gnStatus A.gnStatus_state != 2 || (List.range 16).any fun n => !s.flag (A.lodeStatus n) A.lodeStatus_ready

/-- The dump engine writes `n` bytes of the dump into its region, or its header alone into the Thimble (R873, R876). -/
def State.writeDump (s : State) (n : Nat) : State :=
  let sram := s.flag A.dbgDumpCtl A.dbgDumpCtl_dumpSram
  let bs := (List.range n).map (dumpByteAt s sram n)
  if headerOnly s then { s with thimble := { s.thimble with dumpHead := bs } }.tickFree
  else (s.writeBytes (s.fget A.dbgDumpBase A.dbgDumpBase_base) bs).tickFree

/-- The dump of a size is written, as far as the region goes (R873, R876, R877); then a WARM start with AUTO_WARM, whose place an
activation that is due takes (R904). -/
def execDumpDone (bytes : Nat) (s : State) : Out :=
  let a := A.dbgDumpStatus
  if ¬ s.flag a A.dbgDumpStatus_busy then ok s
  else
    let size := s.fget A.dbgDumpSize A.dbgDumpSize_mib * 2 ^ 20
    let ho := headerOnly s
    let n := if ho then 4096 else min bytes size
    let s := s.writeDump n
    let s := (s.fset a A.dbgDumpStatus_truncated (if ho = false ∧ size < bytes then 1 else 0)).fset a
      A.dbgDumpStatus_headerOnly (if ho then 1 else 0)
    let s := ((s.fset a A.dbgDumpStatus_kib (n / 1024)).fset a A.dbgDumpStatus_busy 0).fset a A.dbgDumpStatus_valid 1
    if ¬ s.flag A.dbgDumpCtl A.dbgDumpCtl_autoWarm then ok s
    else if activationDue s then ok (s.beginStart s.store.coldAct 5)
    else ok (s.beginStart false 4)

end Sys2Proof.Machine
end

