-- ==== Sys2Proof/Machine/Engines.lean ====
section
/-! DEFINITION. The matrix opcodes GEMM, ACCREDUCE and CONVERT (Compute Engines, Decode Engines and Exact Arithmetic). -/

namespace Sys2Proof.Machine

open Sys2Proof

/-! ### GEMM (R166 to R178) -/

/-- A GEMM operand block's fields (Table 2-11). -/
structure GemmCfg where
  m    : Nat
  k    : Nat
  n    : Nat
  pr   : Pair
  e    : Epi
  stat : Bool
  acc  : Bool
  lora : Nat
  deriving DecidableEq, Repr

def gemmAnchor (opb : List Byte) : Int := sext 10 (opw opb 5 41 32)

/-- The fields; none where the pair is not of Table 2-5. -/
def gemmCfg (opb : List Byte) : Option GemmCfg :=
  let a := opw opb 5 4 0
  let b := opw opb 5 9 5
  (pairOf a b).map fun f =>
    { m := opw opb 4 23 0 + 1, k := opw opb 4 47 24 + 1, n := opw opb 4 63 48 + 1
      pr := { fam := f, a := a, b := b, l := laneExp a b (gemmAnchor opb) }
      e := Epi.of opb 5, stat := opw opb 5 17 17 == 1, acc := opw opb 5 18 18 == 1, lora := opw opb 5 27 26 }

/-- The reserved bits of the block, of which an inline one is checked at acceptance, are zero (R63, R115). -/
def gemmReserved (opb : List Byte) : Bool :=
  within (leNat (opb.take 32)) (((opInfo 0x10).map OpInfo.mask).getD 0) && opw opb 8 63 48 == 0 && opw opb 9 63 48 == 0 &&
    opw opb 10 63 53 == 0 && (opw opb 12 63 48 == 0 || opw opb 5 27 26 == 2)

/-- The adapter's rank of LORA_MODE 1, and the rule R163. -/
def gemmRank (opb : List Byte) : Nat := 8 * (opw opb 10 52 48 + 1)
def rankOk (f : Family) (r : Nat) : Bool := decide (8 ≤ r ∧ r ≤ 256 ∧ r % 8 = 0) && (f != .mx || r % 32 == 0)

/-- Bytes of the resident operand, and of what else the operand store holds beside it (Table 2-12). -/
def gemmResident (c : GemmCfg) : Nat := if c.stat then c.m * bytesFor c.pr.a c.k else c.n * bytesFor c.pr.b c.k
def gemmBeside (opb : List Byte) (c : GemmCfg) : Nat :=
  c.e.biasBytes c.n + c.e.scaleBytes c.n +
    (if c.lora = 1 then gemmRank opb * bytesFor c.pr.b c.k + c.n * bytesFor c.pr.b (gemmRank opb) else 0)

/-- W may come in at most 2 tiles, which R170 keeps in their slots. -/
def gemmExempt (c : GemmCfg) : Bool :=
  !c.stat && decide (ceilDiv c.n 128 * ceilDiv (bytesFor c.pr.b c.k) (256 / unitBytes c.pr.b * unitBytes c.pr.b) ≤ 2)

/-- The first check of the operand block that fails at dispatch, as a detail (R134, R139, R154 to R156, R163, R166, R176,
R177, R267), in an order of the model's (DESIGN CHOICE, log 52). Only what R86, R115 and R166 name is checked at acceptance; a
non-zero MX_ANCHOR without an MX pair (R139) is found here (DEDUCED, log 91). -/
def gemmCheck (t : Tracked) : Option Nat :=
  let opb := t.opb
  match gemmCfg opb with
  | none => some (if gemmReserved opb then Mx.fmtPair else Det.reservedNonzero)
  | some c =>
    let cls := t.desc.cls
    if ¬ gemmReserved opb ∨ (c.pr.fam ≠ .mx ∧ gemmAnchor opb ≠ 0) then some Det.reservedNonzero
    else if c.lora = 2 ∧ (opw opb 10 52 48 ≠ 0 ∨ opw opb 11 63 48 ≠ 0) then some Det.reservedNonzero
    else if c.acc ≠ decide (3 ≤ t.ins.length) then some Mx.accInShape
    else if c.e.bad c.pr.fam then some Mx.epilogue
    else if c.lora = 3 ∨ (c.lora = 1 ∧ ¬ rankOk c.pr.fam (gemmRank opb)) then some Mx.lora
    else if c.e.zc ∧ cls = 1 then some Mx.zcUnsupported
    else if c.e.zc ∧ ¬ zcFormat c.e.out then some Mx.zcFormat
    else if c.pr.fam = .mx ∧ c.k % 32 ≠ 0 then some Mx.mxGeometry
    else if lanesOf cls < (if c.stat then c.m * min c.n 128 else 128 * c.n) then some Mx.accLanes
    else if storeBytesOf cls < (if gemmExempt c then 0 else gemmResident c) + gemmBeside opb c then some Mx.storeOvf
    else none

/-- A GEMM opens: its checks, then the ranges of R942, of which the vectors, LoRA matrices or adapter IDs are loaded. -/
def State.gemmOpen (s : State) (slot : Nat) (t : Tracked) : State :=
  match gemmCheck t, gemmCfg t.opb with
  | some d, _ => s.finish slot St.cmdError d
  | none, none => s
  | none, some c =>
    let opb := t.opb
    let bias := (opw opb 8 47 0, c.e.biasBytes c.n)
    let scale := (opw opb 9 47 0, c.e.scaleBytes c.n)
    let flag := (opw opb 12 47 0, if opw opb 12 47 0 = 0 then 0 else 8)
    let r := gemmRank opb
    let down := (opw opb 10 47 0, r * bytesFor c.pr.b c.k)
    let up := (opw opb 11 47 0, c.n * bytesFor c.pr.b r)
    let table := (opw opb 10 47 0, 4096 * 32)
    let ids := (opw opb 11 47 0, 2 * c.m)
    let load := [bias, scale] ++ (if c.lora = 1 then [down, up] else if c.lora = 2 then [ids] else [])
    s.openRanges slot (load ++ [flag] ++ if c.lora = 2 then [table] else []) load fun s vs => s.engineOpened slot vs

/-- The tile of the resident operand that waits is taken and, but for a W of at most 2 tiles, copied and released
(R168 to R171). -/
def State.gemmResident (s : State) (slot : Nat) (t : Tracked) (c : GemmCfg) (inp : Nat) (b : InBind) : State :=
  match b.window.head? with
  | none => s.upstreamEnd slot
  | some x =>
    let dim := if c.stat then c.m else c.n
    let got := b.taken ++ [x]
    let s := s.takeTile slot inp
    let per := (slicesOf c.k (sliceSizes c.k got)).getD (got.length + 1)
    if ¬ c.stat ∧ ceilDiv dim 128 * per ≤ 2 then s
    else if storeBytesOf t.desc.cls < Sys2Proof.Machine.gemmResident c + gemmBeside t.opb c then
      s.finish slot St.cmdError Mx.storeOvf
    else s.releaseTo slot inp got.length

/-- The grid of output tiles: tiles along N, M-blocks, and the M-block and N-tile of output tile `i` (R172). -/
def gemmPlace (c : GemmCfg) (width i : Nat) : Nat × Nat :=
  let nj := ceilDiv c.n width
  let nm := ceilDiv c.m 128
  if c.stat then (i % nm, i / nm) else (i / nj, i % nj)

/-- An ACC_IN tile that arrives as number `i` has the shape of spilled output at its place (R173; DEDUCED, log 48). -/
def accInOk (c : GemmCfg) (i : Nat) (x : Tile) : Bool :=
  let aw := c.pr.laneWidth
  let (mb, j) := gemmPlace c aw i
  decide (x.format = c.pr.laneFmt ∧ tileRows x = min 128 (c.m - 128 * mb) ∧
    tileRowBytes x = min aw (c.n - j * aw) * unitBytes c.pr.laneFmt) &&
    (x.last == decide (i + 1 = ceilDiv c.n aw * ceilDiv c.m 128))

/-- The lane that output row `r` of M-block `mb`, column `col`, starts from. -/
def gemmStart (c : GemmCfg) (acc : List Tile) (mb r col : Nat) : Lane :=
  if c.acc then
    let aw := c.pr.laneWidth
    let j := col / aw
    let i := if c.stat then j * ceilDiv c.m 128 + mb else mb * ceilDiv c.n aw + j
    let w := unitBytes c.pr.laneFmt
    match acc[i]? with
    | some x => c.pr.start (((rowOf x r).drop (w * (col % aw))).take w)
    | none => Lane.zero
  else Lane.zero

/-- An adapter as loaded: rank, multiplier as binary32, rows of its down matrix and of its up matrix from column 0 on. -/
structure Adapter where
  alpha : Nat
  down  : List OpRow
  up    : List Byte
  rank  : Nat

/-- The adapter of matrices in bytes. A row is a whole number of bytes, as in a tile: an odd number of INT4 elements leaves the upper half
of its last byte unused (R160 gives no pitch; DESIGN CHOICE, log 112). -/
def adapterOf (c : GemmCfg) (rank alpha : Nat) (down up : List Byte) : Adapter :=
  let w := bytesFor c.pr.b c.k
  { alpha := alpha * 65536, rank := rank, up := up
    down := (List.range rank).map fun q => elemRow c.pr.b ((down.drop (q * w)).take w) }

/-- Row `col` of an adapter's up matrix. -/
def Adapter.upRow (c : GemmCfg) (d : Adapter) (col : Nat) : OpRow :=
  let w := bytesFor c.pr.b d.rank
  elemRow c.pr.b ((d.up.drop (col * w)).take w)

/-- The intermediate T of one row in A_FMT, and the flags of its lanes (R161; DEDUCED, log 51). -/
def loraT (c : GemmCfg) (d : Adapter) (arow : OpRow) : OpRow × Nat :=
  let xs := d.down.map fun q =>
    let (ln, f) := c.pr.dot Lane.zero arow q
    let (x, g) := c.pr.readOut ln
    let (y, h) := f32Mul x d.alpha
    (y, f ||| g ||| (h &&& fOf))
  (elemRow c.pr.a (rowOut c.pr.a (xs.map Prod.fst)).bytes, orFlags xs)

/-- One output row: the lanes of the columns from `c0` on, through the epilogue (R151, R162). -/
def gemmRow (c : GemmCfg) (bias scale : List Byte) (acc : List Tile) (mb r c0 : Nat) (arow : OpRow) (brows : List OpRow)
    (lora : Option Adapter) : OutRow :=
  let (ar, f0) := match lora with
    | some d => let (tr, f) := loraT c d arow; (arow ++ tr, f)
    | none => (arow, 0)
  let ls := brows.mapIdx fun i b =>
    let b := match lora with
      | some d => b ++ d.upRow c (c0 + i)
      | none => b
    c.pr.dot (gemmStart c acc mb r (c0 + i)) ar b
  let o := c.e.row c.pr bias scale c0 (ls.map Prod.fst)
  { o with flags := o.flags ||| f0 ||| ls.foldl (fun a l => a ||| l.2) 0 }

/-- An adapter table entry (Table 6-6). -/
structure AdapterEnt where
  down  : Nat
  rank  : Nat
  valid : Bool
  up    : Nat
  alpha : Nat

/-- Where the entry of an adapter ID stands (R394, R395). -/
def adapterAt (opb : List Byte) (id : Nat) : Nat := opw opb 10 47 0 + 32 * id

def AdapterEnt.ofBytes (bs : List Byte) : AdapterEnt :=
  let w0 := entry 8 bs 0
  let w1 := entry 8 bs 1
  { down := fld w0 47 0, rank := 8 * (fld w0 52 48 + 1), valid := w0.testBit 63, up := fld w1 47 0, alpha := fld w1 63 48 }

/-- The memory of an adapter that a command loads: its down matrix, and N rows of its up matrix from LORA_NOFF × 64 on
(R395, R397). -/
def adapterRanges (c : GemmCfg) (opb : List Byte) (e : AdapterEnt) : List (Nat × Nat) :=
  let w := bytesFor c.pr.b e.rank
  [(e.down, e.rank * bytesFor c.pr.b c.k), (e.up + opw opb 12 63 48 * 64 * w, c.n * w)]

/-- The distinct adapter IDs of an M-block, ascending; 0xFFFF names none (R396, R398). -/
def blockIds (c : GemmCfg) (ids : List Byte) (mb : Nat) : List Nat :=
  (((List.range (min 128 (c.m - 128 * mb))).map fun r => entry 2 ids (128 * mb + r)).filter (· != 0xFFFF)).eraseDups.mergeSort

/-- What stops the load of an adapter: LORA or ADDR_FAULT (R396, R398, R942). `w` is the store that W takes. -/
def adapterFault (s : State) (t : Tracked) (c : GemmCfg) (w id : Nat) : Option Nat :=
  let e := AdapterEnt.ofBytes (softBytes s (adapterAt t.opb id) 32)
  let rs := adapterRanges c t.opb e
  let left := storeBytesOf t.desc.cls - (w + gemmBeside t.opb c)
  if 4096 ≤ id then some Mx.lora
  else if ¬ e.valid ∨ ¬ rankOk c.pr.fam e.rank ∨ left / 2 < (rs.map Prod.snd).sum then some Mx.lora
  else if rs.any fun r => !ownsRange s t.part r.1 r.2 then some Det.addrFault
  else none

/-- Where the adapters of an M-block stand among the loaded vectors: after those of the M-blocks before it, a mark, then the table
entry and the two matrices of each distinct ID in ascending order. -/
def blockAt (c : GemmCfg) (ids : List Byte) (mb : Nat) : Nat :=
  3 + ((List.range mb).map fun m => 1 + 3 * (blockIds c ids m).length).sum

/-- The mark that the adapters of an M-block are loaded. -/
def blockMark (mb : Nat) : List Byte := leBytes 4 mb

/-- The adapters of an M-block loaded, once for all its output tiles, or the command ended by the first of them in ascending order that
cannot be (R396, R398, R425, R446). A W of at most 2 tiles stays in its slots and takes no store (R170). Loads wait while bytes of
them are being zeroed (R437). -/
def State.gemmAdapters (s : State) (slot : Nat) (t : Tracked) (c : GemmCfg) (mb : Nat) (ws : List Tile) : State :=
  let all := t.loaded[2]?.getD []
  let ids := blockIds c all mb
  let w := if ¬ c.stat ∧ ws.length ≤ 2 then 0 else Sys2Proof.Machine.gemmResident c
  let ent (id : Nat) : List Byte := softBytes s (adapterAt t.opb id) 32
  let rs (id : Nat) : List (Nat × Nat) := adapterRanges c t.opb (AdapterEnt.ofBytes (ent id))
  let known (id : Nat) : Bool := decide (id < 4096)
  match ids.find? fun id => known id && clearingAt s (adapterAt t.opb id) 32, ids.find? fun id => known id &&
      !ownsRange s t.part (adapterAt t.opb id) 32 with
  | some _, _ => s
  | none, some id => s.readDropped t [adapterAt t.opb id] 32
  | none, none =>
    match ids.find? fun id => (known id && badRange s (adapterAt t.opb id) 32) || (adapterFault s t c w id).isSome with
    | some id =>
      if known id ∧ badRange s (adapterAt t.opb id) 32 then s.readFault slot (adapterAt t.opb id) 32
      else s.finish slot St.cmdError ((adapterFault s t c w id).getD Mx.lora)
    | none =>
      let ms := ids.flatMap rs
      if ms.any fun r => clearingAt s r.1 r.2 then s
      else
        match ms.find? fun r => badRange s r.1 r.2 with
        | some r => s.readFault slot r.1 r.2
        | none =>
          let ls := ids.flatMap fun id => (adapterAt t.opb id, 32) :: rs id
          let vs := ls.map fun r => softBytes s r.1 r.2
          (ls.foldl (fun s r => s.memIn t r.1 r.2) s).updCmd slot fun u =>
            { u with loaded := u.loaded.take (blockAt c all mb) ++ blockMark mb :: vs }

/-- The adapter of a row of an M-block whose adapters are loaded; none for the ID 0xFFFF. -/
def loadedAdapter (t : Tracked) (c : GemmCfg) (mb r : Nat) : Option Adapter :=
  let ids := t.loaded[2]?.getD []
  let id := entry 2 ids (128 * mb + r)
  if id = 0xFFFF then none
  else
    let k := blockAt c ids mb + 1 + 3 * (blockIds c ids mb).findIdx (· == id)
    let v (i : Nat) : List Byte := t.loaded[k + i]?.getD []
    let e := AdapterEnt.ofBytes (v 0)
    some (adapterOf c e.rank e.alpha (v 1) (v 2))

/-- The next output tile formed (R172), the adapters of its M-block loaded before the first that needs them. -/
def State.gemmForm (s : State) (slot : Nat) (t : Tracked) (c : GemmCfg) (xs ws acc : List Tile) (sl : Nat) : State :=
  let i := t.work.pos
  let width := outWidth c.e.out
  let (mb, j) := gemmPlace c width i
  let total := ceilDiv c.n width * ceilDiv c.m 128
  let v (q : Nat) : List Byte := t.loaded[q]?.getD []
  if c.lora = 2 ∧ t.loaded[blockAt c (v 2) mb]? ≠ some (blockMark mb) then s.gemmAdapters slot t c mb ws
  else
      let rowAdapter (r : Nat) : Option Adapter :=
        if c.lora = 1 then some (adapterOf c (gemmRank t.opb) (opw t.opb 11 63 48) (v 2) (v 3))
        else if c.lora = 2 then loadedAdapter t c mb r
        else none
      let cols := (List.range (min width (c.n - j * width))).map (j * width + ·)
      let brows := cols.map fun n => operandRow c.pr.b c.k ws sl (n / 128) (n % 128)
      let rows := (List.range (min 128 (c.m - 128 * mb))).map fun r =>
        gemmRow c (v 0) (v 1) acc mb r (j * width) (operandRow c.pr.a c.k xs sl mb r) brows (rowAdapter r)
      let o := joinRows rows
      let s := (s.gather slot (i + 1) o.flags o.sat).formTile slot 0 (outTile c.e rows (i + 1 == total))
      if i + 1 = total then s.reach slot St.done Det.none else s.settle slot

/-- A tile of the streamed operand or of ACC_IN that is needed and waits is taken, its slot released. -/
def State.gemmTake (s : State) (slot : Nat) (t : Tracked) (c : GemmCfg) (inp : Nat) (b : InBind) (x : Tile) : State :=
  let i := b.taken.length
  let n := arrayCycles c.pr.a c.pr.b (tileRows x) (elemsIn x.format (tileRowBytes x)) (if c.stat then c.m else c.n) (quadsOf t.desc.cls)
  ((if inp = 2 then s else s.count t.station 3 n t).takeTile slot inp).releaseTo slot inp (i + 1)

/-- The detail of the first tile, taken or waiting, that breaks the shapes of a GEMM: each operand against its dimensions and its
own K-slices, X and W against each other, and ACC_IN (R168, R169, R173). It is looked for as tiles arrive, whichever operand
the engine takes first (R178). -/
def gemmBadTile (t : Tracked) (c : GemmCfg) : Option Nat :=
  let all (i : Nat) : List Tile := match t.ins[i]? with | some b => b.taken ++ b.window | none => []
  let b16 := c.pr.fam == .b16
  if ¬ tilesAgree c.pr.a c.m c.k b16 (all 0) ∨ ¬ tilesAgree c.pr.b c.n c.k b16 (all 1) ∨
      ((sliceSizes c.k (all 0)).zip (sliceSizes c.k (all 1))).any (fun z => z.1 != z.2) then some Mx.tileShape
  else if (List.range (all 2).length).any (fun i => match (all 2)[i]? with | some x => !accInOk c i x | none => false) then
    some Mx.accInShape
  else none

/-- One step of an open GEMM: the resident operand first, then per output tile the tiles it needs and the tile. -/
def State.gemmStep (s : State) (slot : Nat) (t : Tracked) (c : GemmCfg) : State :=
  let res := if c.stat then 0 else 1
  match t.ins[res]?, t.ins[1 - res]? with
  | some rb, some sb =>
    let sizes := sliceSizes c.k rb.taken
    let rdim := if c.stat then c.m else c.n
    match slicesOf c.k sizes with
    | none => s.gemmResident slot t c res rb
    | some sl =>
      if rb.taken.length < ceilDiv rdim 128 * sl then s.gemmResident slot t c res rb
      else
        let width := outWidth c.e.out
        let (mb, j) := gemmPlace c width t.work.pos
        let last := min c.n ((j + 1) * width)
        let aw := c.pr.laneWidth
        let needS := sl * (if c.stat then ceilDiv last 128 else mb + 1)
        let needA := if ¬ c.acc then 0
          else if c.stat then ceilDiv last aw * ceilDiv c.m 128 else (mb + 1) * ceilDiv c.n aw
        let ab := t.ins[2]?
        let aTaken := (ab.map fun b => b.taken).getD []
        if needS ≤ sb.taken.length ∧ needA ≤ aTaken.length then
          if roomFor s t then
            s.gemmForm slot t c (if c.stat then rb.taken else sb.taken) (if c.stat then sb.taken else rb.taken) aTaken sl
          else s
        else
          match (if sb.taken.length < needS then sb.window.head? else none),
              (if aTaken.length < needA then ab.bind fun b => b.window.head? else none) with
          | some x, _ => s.gemmTake slot t c (1 - res) sb x
          | none, some x => match ab with
            | some b => s.gemmTake slot t c 2 b x
            | none => s
          | none, none => s.upstreamEnd slot
  | _, _ => s

/-- A GEMM opens, takes one tile, or forms one output tile. -/
def execGemm (slot : Nat) (s : State) : Out :=
  match runningCmd s slot 0x10 with
  | none => ok s
  | some t =>
    if ¬ t.work.opened then ok (s.gemmOpen slot t)
    else
      match gemmCfg t.opb with
      | none => ok s
      | some c => ok (match gemmBadTile t c with
        | some d => s.finish slot St.cmdError d
        | none => s.gemmStep slot t c)

/-! ### ACCREDUCE (R148, R149, R179, R943) -/

/-- Both producers are matrix commands of one class and the producer of IN0 does not run on the lower logical engine
(R149). -/
def reduceMisordered (s : State) (slot : Nat) : Bool :=
  let prod (i : Nat) : Option Tracked := (inChan? s slot i).bind fun c => s.cmd? c.prod
  match prod 0, prod 1 with
  | some a, some b =>
    decide (0x10 ≤ a.op ∧ a.op ≤ 0x12 ∧ 0x10 ≤ b.op ∧ b.op ≤ 0x12 ∧ a.desc.cls = b.desc.cls ∧
      b.desc.lstation ≤ a.desc.lstation)
  | _, _ => false

def reduceCheck (s : State) (slot : Nat) (t : Tracked) : Option Nat :=
  let opb := t.opb
  match gemmCfg opb with
  | none => some (if gemmReserved opb then Mx.fmtPair else Det.reservedNonzero)
  | some c =>
    if ¬ gemmReserved opb ∨ (c.pr.fam ≠ .mx ∧ gemmAnchor opb ≠ 0) ∨ c.m ≠ 1 ∨ c.k ≠ 1 ∨ c.stat ∨ c.acc ∨ c.lora ≠ 0 then
      some Det.reservedNonzero
    else if c.e.bad c.pr.fam then some Mx.epilogue
    else if c.e.zc ∧ t.desc.cls = 1 then some Mx.zcUnsupported
    else if c.e.zc ∧ ¬ zcFormat c.e.out then some Mx.zcFormat
    else if lanesOf t.desc.cls < 128 * c.n then some Mx.accLanes
    else if storeBytesOf t.desc.cls < gemmBeside opb c then some Mx.storeOvf
    else if reduceMisordered s slot then some Mx.reduceOrder
    else none

def State.reduceOpen (s : State) (slot : Nat) (t : Tracked) : State :=
  match reduceCheck s slot t, gemmCfg t.opb with
  | some d, _ => s.finish slot St.cmdError d
  | none, none => s
  | none, some c =>
    let opb := t.opb
    let load := [(opw opb 8 47 0, c.e.biasBytes c.n), (opw opb 9 47 0, c.e.scaleBytes c.n)]
    let flag := (opw opb 12 47 0, if opw opb 12 47 0 = 0 then 0 else 8)
    s.openRanges slot (load ++ [flag]) load fun s vs => s.engineOpened slot vs

/-- A tile of partial lanes that arrives as number `i` of an input: the format and width of its place in its M-block, the
rows of the M-block `rows` where they are known, LAST only on the last tile of an M-block, and no M-block but the last
shorter than 128 rows (R943). -/
def partialOk (c : GemmCfg) (i : Nat) (rows : Option Nat) (x : Tile) : Bool :=
  let aw := c.pr.laneWidth
  let na := ceilDiv c.n aw
  let j := i % na
  decide (x.format = c.pr.laneFmt ∧ tileRowBytes x = min aw (c.n - j * aw) * unitBytes c.pr.laneFmt) &&
    (match rows with | some r => decide (tileRows x = r) | none => true) &&
    (!x.last || decide (j + 1 = na)) && (x.last || decide (j + 1 < na ∨ tileRows x = 128))

/-- A tile of an ACCREDUCE's inputs, taken or waiting, breaks R943: looked for as tiles arrive, whichever input the engine takes first
(R178). -/
def reduceBadTile (t : Tracked) (c : GemmCfg) : Bool :=
  let na := ceilDiv c.n c.pr.laneWidth
  let all (i : Nat) : List Tile := match t.ins[i]? with | some b => b.taken ++ b.window | none => []
  let bad (ts : List Tile) : Bool := (List.range ts.length).any fun k => match ts[k]? with
    | some x => !partialOk c k (if k % na = 0 then none else (ts[k - 1]?).map tileRows) x
    | none => false
  bad (all 0) || bad (all 1) || ((all 0).zip (all 1)).any fun z => tileRows z.1 != tileRows z.2 || z.1.last != z.2.last

/-- The lane of partial sums at row `r`, column `n` of M-block `mb` in an input's tiles (R148, R943). -/
def partialLane (c : GemmCfg) (ts : List Tile) (mb r n : Nat) : Lane :=
  let aw := c.pr.laneWidth
  let w := unitBytes c.pr.laneFmt
  c.pr.start (match ts[mb * ceilDiv c.n aw + n / aw]? with
    | some x => ((rowOf x r).drop (w * (n % aw))).take w
    | none => [])

/-- The sum of two partial lanes, and its flags: exact, or one binary32 addition for a 16-bit pair (R148). -/
def laneSum (p q : Lane) : Lane × Nat :=
  match p.x, q.x with
  | some x, some y => let (z, f) := f32Add x y; ({ p with x := some z }, f &&& fOf)
  | _, _ => ({ v := p.v + q.v, fl := p.fl ||| q.fl, x := none }, 0)

/-- One output row of an ACCREDUCE from column `c0` on: the sums of the lanes of IN0 and IN1, through the epilogue (R148, R151). -/
def reduceRow (c : GemmCfg) (bias scale : List Byte) (xs ys : List Tile) (mb r c0 : Nat) : OutRow :=
  let ls := (List.range (min (outWidth c.e.out) (c.n - c0))).map fun k =>
    laneSum (partialLane c xs mb r (c0 + k)) (partialLane c ys mb r (c0 + k))
  let o := c.e.row c.pr bias scale c0 (ls.map Prod.fst)
  { o with flags := o.flags ||| ls.foldl (fun a l => a ||| l.2) 0 }

/-- One step of an open ACCREDUCE whose tiles agree: the next tile of the input that has brought fewer, or, with a whole M-block of both, the
next output tile. `work.aux` counts the M-blocks done. -/
def State.reduceStep (s : State) (slot : Nat) (t : Tracked) (c : GemmCfg) : State :=
  match t.ins[0]?, t.ins[1]? with
  | some a, some b =>
    let aw := c.pr.laneWidth
    let na := ceilDiv c.n aw
    let width := outWidth c.e.out
    let nj := ceilDiv c.n width
    let mb := t.work.pos / nj
    if (mb + 1) * na ≤ a.taken.length ∧ (mb + 1) * na ≤ b.taken.length then
      if ¬ roomFor s t then s
      else
        let j := t.work.pos % nj
        let rows := ((a.taken[mb * na]?).map tileRows).getD 1
        let final := ((a.taken[mb * na + na - 1]?).map Tile.last).getD true
        let out := (List.range rows).map fun r =>
          reduceRow c (t.loaded[0]?.getD []) (t.loaded[1]?.getD []) a.taken b.taken mb r (j * width)
        let o := joinRows out
        let last := decide (j + 1 = nj) && final
        let s := (s.gather slot (t.work.pos + 1) o.flags o.sat).formTile slot 0 (outTile c.e out last)
        if last then s.reach slot St.done Det.none else s.settle slot
    else
      let i := if b.taken.length < a.taken.length then 1 else 0
      let me := if i = 0 then a else b
      match me.window.head? with
      | none => s.upstreamEnd slot
      | some x =>
        let n := if i = 0 then ceilDiv (tileRows x * tileRowBytes x) 256 else 0
        ((s.count t.station 3 n t).takeTile slot i).releaseTo slot i (me.taken.length + 1)
  | _, _ => s

/-- An ACCREDUCE opens, takes one tile, or forms one output tile. -/
def execAccreduce (slot : Nat) (s : State) : Out :=
  match runningCmd s slot 0x11 with
  | none => ok s
  | some t =>
    if ¬ t.work.opened then ok (s.reduceOpen slot t)
    else
      match gemmCfg t.opb with
      | none => ok s
      | some c => ok (if reduceBadTile t c then s.finish slot St.cmdError Mx.tileShape else s.reduceStep slot t c)

/-! ### CONVERT (R180) -/

/-- The fields that CONVERT allows, with an EXACT96 input or not, are the only ones not zero. -/
def convertFields (opb : List Byte) (exact : Bool) : Bool :=
  let m1 := 0x1f * 2 ^ 10 + 3 * 2 ^ 20 + (if exact then 0x3ff + 0x3ff * 2 ^ 32 else 0)
  opw opb 4 63 0 == 0 && within (opw opb 5 63 0) m1 && opw opb 6 63 0 == 0 && within (opw opb 7 63 0) 0xffffffff

/-- The binary32 of an element, and the flags of its lane (R180). The manual reads every element up to FP32 exactly and is silent on
an MX value beyond the range of binary32: it is read as an infinity with FP32_OVF, as R229 has it for Facet (DESIGN CHOICE, log
51). -/
def convertIn (opb : List Byte) (fmt : Nat) (row : List Byte) : List (Nat × Nat) :=
  if fmt = 0x0F then
    let l := laneExp (opw opb 5 4 0) (opw opb 5 9 5) (gemmAnchor opb)
    (unpackCodes 128 (row.length / 16) row).map fun n =>
      let r := Lane.unpack n
      let (x, f) := (r.value l).toF32
      (x, r.flags ||| (f &&& fOf))
  else (rowVals fmt row).map fun v => let (x, f) := v.toF32; (x, f &&& fOf)

/-- What refuses a tile of a CONVERT (R139, R180). -/
def convertTileBad (opb : List Byte) (x : Tile) : Option Nat :=
  let exact := x.format == 0x0F
  let a := opw opb 5 4 0
  let b := opw opb 5 9 5
  if ¬ convertFields opb exact then some Det.reservedNonzero
  else if exact ∧ (pairOf a b).isNone then some Mx.fmtPair
  else if exact ∧ ¬ isMx a ∧ gemmAnchor opb ≠ 0 then some Det.reservedNonzero
  else if 256 < bytesFor (opw opb 5 14 10) (elemsIn x.format (tileRowBytes x)) then some Mx.dim
  else none

/-- A CONVERT takes one tile and forms its output tile; the checks of its operand block come first, and those of every tile that has
arrived (R178). -/
def execConvert (slot : Nat) (s : State) : Out :=
  match runningCmd s slot 0x12 with
  | none => ok s
  | some t =>
    let e := Epi.of t.opb 5
    if ¬ t.work.opened then
      if ¬ convertFields t.opb true then ok (s.finish slot St.cmdError Det.reservedNonzero)
      else if 2 ≤ e.scMode ∨ e.out = 0x0F ∨ 0x10 ≤ e.out then ok (s.finish slot St.cmdError Mx.epilogue)
      else ok (s.engineOpened slot [])
    else
      match (t.ins[0]?).bind fun b => b.window.head? with
      | none => ok (s.upstreamEnd slot)
      | some x =>
        match (t.ins[0]?).bind fun b => b.window.findSome? (convertTileBad t.opb) with
        | some d => ok (s.finish slot St.cmdError d)
        | none =>
          if ¬ roomFor s t then ok s
          else
            let rows := (List.range (tileRows x)).map fun j =>
              let vs := (convertIn t.opb x.format (rowOf x j)).map fun v =>
                if e.scMode = 1 then let (y, f) := f32Mul v.1 e.scale; (y, v.2 ||| (f &&& fOf)) else v
              let o := rowOut e.out (vs.map Prod.fst)
              { o with flags := o.flags ||| orFlags vs }
            let o := joinRows rows
            let i := t.work.pos
            let s := (s.count t.station 3 (ceilDiv (tileRows x * tileRowBytes x) 256) t).takeTile slot 0
            let s := (s.releaseTo slot 0 (i + 1)).gather slot (i + 1) o.flags o.sat
            let s := s.formTile slot 0 (outTile e rows x.last)
            ok (if x.last then s.reach slot St.done Det.none else s.settle slot)

end Sys2Proof.Machine
end

