-- ==== Sys2Proof/Machine/FacetOps.lean ====
section
/-! DEFINITION. The vector unit: its registers, the legality of an instruction, retiring, loops and branches, loading a
kernel (Facet Vector Microcode). -/

namespace Sys2Proof

/-! ### Instruction words (R203, Table 3-3) -/

/-- Source C, and the handle and binding fields of MOD. With I = 1 they are read from the same bits of IMM32, though Table 3-3 gives MOD
for I = 0 alone (DESIGN CHOICE, log 114). -/
def FIns.c (f : FIns) : BitVec 5 := BitVec.ofNat 5 (fld f.lo.toNat 31 27)
def FIns.handleNo (f : FIns) : Nat := fld f.lo.toNat 25 23
def FIns.bindNo (f : FIns) : Nat := fld f.lo.toNat 22 21
def FIns.column (f : FIns) : Bool := f.lo.toNat.testBit 26

/-- The fields of an instruction word. -/
def FIns.ofWord (w : W64) : FIns :=
  let n := w.toNat
  { d := BitVec.ofNat 5 (fld n 53 49), a := BitVec.ofNat 5 (fld n 48 44), b := BitVec.ofNat 5 (fld n 43 39)
    p := BitVec.ofNat 3 (fld n 38 36), pn := n.testBit 35, i := n.testBit 34, lo := BitVec.ofNat 32 (fld n 31 0) }

end Sys2Proof

namespace Sys2Proof.Machine

open Sys2Proof

/-! ### Detail codes (Table 3-7) -/

namespace Fc
abbrev illegal : Nat := 0x120
abbrev addr : Nat := 0x121
abbrev handle : Nat := 0x122
abbrev pastLast : Nat := 0x123
abbrev noLast : Nat := 0x124
abbrev budget : Nat := 0x125
abbrev loop : Nat := 0x126
abbrev kernel : Nat := 0x127
abbrev format : Nat := 0x128
end Fc

/-! ### Registers (R188 to R192) -/

/-- The lanes 0 to 255. -/
abbrev laneIdx : List Nat := List.range 256

def FacetUnit.sget (u : FacetUnit) (i : BitVec 5) : W32 := if i = 0 then 0 else tgetD u.s i.toNat 0
def FacetUnit.sset (u : FacetUnit) (i : BitVec 5) (x : W32) : FacetUnit :=
  if i = 0 then u else { u with s := tset u.s i.toNat x }

def FacetUnit.vget (u : FacetUnit) (i : BitVec 5) : List W32 := tgetD u.v i.toNat (List.replicate 256 0)

/-- A vector register written in the lanes of a mask. -/
def FacetUnit.vset (u : FacetUnit) (i : BitVec 5) (mask : List Bool) (xs : List W32) : FacetUnit :=
  let old := u.vget i
  { u with v := tset u.v i.toNat (laneIdx.map fun k => if mask.getD k false then xs.getD k 0 else old.getD k 0) }

def FacetUnit.pget (u : FacetUnit) (i : Nat) : List Bool :=
  if i % 8 = 0 then List.replicate 256 true else tgetD u.p (i % 8) (List.replicate 256 true)

/-- A predicate register written in the lanes of a mask. -/
def FacetUnit.pset (u : FacetUnit) (i : Nat) (mask xs : List Bool) : FacetUnit :=
  if i % 8 = 0 then u
  else
    let old := u.pget i
    { u with p := tset u.p (i % 8) (laneIdx.map fun k => if mask.getD k false then xs.getD k false else old.getD k false) }

/-- The active lanes of an instruction (R191). -/
def FacetUnit.mask (u : FacetUnit) (f : FIns) : List Bool := (u.pget f.p.toNat).map fun b => b != f.pn

/-- Source B of a vector instruction: the register, or IMM32 in every lane. -/
def FacetUnit.vsrcB (u : FacetUnit) (f : FIns) : List W32 := if f.i then List.replicate 256 f.lo else u.vget f.b

/-- Source B of an instruction that reads a scalar: the register, or IMM32. -/
def FacetUnit.ssrcB (u : FacetUnit) (f : FIns) : W32 := if f.i then f.lo else u.sget f.b

/-- The unit as a kernel starts (R192). -/
def FacetUnit.fresh (slot : Nat) (opb : List Byte) (kernel : List W64) (param : List Byte) (bank : Nat) : FacetUnit :=
  let a (k w hi lo : Nat) : Nat × W32 := (k, BitVec.ofNat 32 (opw opb w hi lo))
  { slot := slot, v := [], p := []
    s := [a 1 6 63 32, a 2 7 31 0, a 3 7 63 32, a 4 9 31 0, a 5 9 63 32]
    pc := 0, loops := [], handles := [], kernel := kernel, param := param, scratch := [], limit := opw opb 6 31 0,
    retired := 0, lastBound := [], ended := false, bank := bank }

/-! ### Legality (R204) -/

/-- The operand fields that a function uses, and what it asks of I: `imm` 0 nothing, 1 that it is 1; `immA` that IMM32
stands for A; `cUse` that it reads C, which I = 1 then breaks. -/
structure FUse where
  d    : Bool
  a    : Bool
  b    : Bool
  p    : Bool
  cUse : Bool
  imm  : Bool
  immA : Bool
  deriving DecidableEq, Repr

def FUse.make (d a b p : Bool) : FUse := { d := d, a := a, b := b, p := p, cUse := false, imm := false, immA := false }

/-- An instruction of a function breaks R204 (DEDUCED, log 53). -/
def FUse.illegal (u : FUse) (f : FIns) : Bool :=
  (!u.d && f.d != 0) || ((!u.a || (u.immA && f.i)) && f.a != 0) || ((!u.b || f.i) && f.b != 0) || (!u.p && f.p != 0) ||
    (u.cUse && f.i) || (!u.cUse && !f.i && f.c != 0) || (u.imm && !f.i)

/-! ### What an instruction does -/

/-- The outcome of one instruction: it retires with flags and saturated elements and control goes on after index `after`;
or jumps; waits for a staging tile, or for an input tile; ends the kernel; lets a requested abort take effect (R242); or stops the kernel with a detail. -/
inductive FRes where
  | go (s : State) (u : FacetUnit) (flags sat after : Nat)
  | jump (u : FacetUnit) (target : Nat)
  | wait
  | starve
  | halt
  | abort
  | err (detail : Nat)

/-- An instruction that changes the unit alone. -/
def FRes.unit (s : State) (u : FacetUnit) (flags : Nat) : FRes := .go s u flags 0 u.pc

/-- What a function computes: from the state, the command, the unit and the instruction's fields. -/
abbrev FSem := State → Tracked → FacetUnit → FIns → FRes

/-- Control after the instruction at an index: the loops whose body it ends go round, or end (R206, R208). -/
def loopNext (idx : Nat) : List LoopFrame → Nat × List LoopFrame
  | [] => (idx + 1, [])
  | l :: r =>
    if l.last = idx then
      if 1 < l.left then (l.first, { l with left := l.left - 1 } :: r) else loopNext idx r
    else (idx + 1, l :: r)

/-- A branch to an index ends the loops whose body does not hold it (R209). -/
def loopLeave (target : Nat) : List LoopFrame → List LoopFrame
  | [] => []
  | l :: r => if l.first ≤ target ∧ target ≤ l.last then l :: r else loopLeave target r

/-- A unit stored, or a retired instruction counted, at a station. -/
def State.putUnit (s : State) (st : Nat) (u : FacetUnit) : State := { s with facets := tset s.facets st u }

/-- Flags and saturated elements of a command gathered (R236). -/
def State.facetFlags (s : State) (slot flags sat : Nat) : State :=
  if flags = 0 ∧ sat = 0 then s
  else s.updCmd slot fun t =>
    { t with work := { t.work with flags := t.work.flags ||| flags, sat := t.work.sat + sat } }

/-- Every output a kernel must end has emitted its LAST tile; `work.aux` marks those that have. -/
def Tracked.allLast (t : Tracked) : Bool := (List.range t.outs.length).all fun o => t.work.aux.testBit o

/-- One instruction of a running kernel (R204 to R210, R234, R239, R240). -/
def State.facetIns (s : State) (st : Nat) (t : Tracked) (u : FacetUnit) (use : FUse) (sem : FSem) (f : FIns) : State :=
  let err (d : Nat) : State := s.finish t.slot St.cmdError d
  if use.illegal f then err Fc.illegal
  else if u.limit ≠ 0 ∧ u.limit ≤ u.retired then err Fc.budget
  else
    match sem s t u f with
    | .wait => s
    | .starve => s.upstreamEnd t.slot
    | .err d => err d
    | .abort => s.finish t.slot St.aborted Det.none
    | .halt =>
      if ¬ t.allLast then err Fc.noLast
      else (s.count st 13 1 t).reach t.slot St.done Det.none
    | .go s u flags sat after =>
      let (pc, ls) := loopNext after u.loops
      let s := (s.facetFlags t.slot flags sat).count st 13 1 t
      if ((s.cmd? t.slot).bind Tracked.status).isSome then s
      else s.putUnit st { u with pc := pc, loops := ls, retired := u.retired + 1 }
    | .jump u target =>
      (s.count st 13 1 t).putUnit st { u with pc := target, loops := loopLeave target u.loops, retired := u.retired + 1 }

/-- The unit of a station, with its command, while its kernel runs. -/
def facetOn (s : State) (st : Nat) : Option (Tracked × FacetUnit) :=
  match tget s.facets st with
  | none => none
  | some u => if u.ended then none else (runningCmd s u.slot 0x30).map fun t => (t, u)

/-- The row of one instruction: it runs at the unit's pc. -/
def facetRow (use : FUse) (sem : FSem) (st : Nat) (f : FIns) (s : State) : Out :=
  match facetOn s st with
  | none => ok s
  | some (t, u) => ok (s.facetIns st t u use sem f)

/-! ### Loading (R195 to R198) -/

def facetReserved (opb : List Byte) : Bool :=
  within (leNat (opb.take 32)) (((opInfo 0x30).map OpInfo.mask).getD 0) && opw opb 8 63 48 == 0

/-- The check of a FACET operand block that fails first (R195, R239; DEDUCED, log 53). -/
def facetCheck (s : State) (t : Tracked) : Option Nat :=
  let opb := t.opb
  let ka := opw opb 4 47 0
  let kl := 8 * (opw opb 4 59 48 + 1)
  let pa := opw opb 5 47 0
  let pl := opw opb 5 56 48
  let fa := opw opb 8 47 0
  if ¬ facetReserved opb then some Det.reservedNonzero
  else if t.desc.cls = 1 ∧ opw opb 5 58 57 ≠ 0 then some Det.operandRange
  else if 256 < pl ∨ ka % 8 ≠ 0 ∨ (pl ≠ 0 ∧ pa % 256 ≠ 0) ∨ ¬ ownsRange s t.part ka kl ∨ ¬ ownsRange s t.part pa (256 * pl) then
    some Fc.kernel
  else if fa ≠ 0 ∧ ¬ ownsRange s t.part fa 8 then some Det.addrFault
  else none

/-- A kernel and its parameter block loaded into the bank and the area not in use, as soon as the command is staged (R196). What
refuses them is reported when the command runs. -/
def State.facetLoad (s : State) (t : Tracked) : State :=
  let opb := t.opb
  let k := (opw opb 4 47 0, 8 * (opw opb 4 59 48 + 1))
  let p := (opw opb 5 47 0, 256 * opw opb 5 56 48)
  let bad := [k, p].any fun r => badRange s r.1 r.2
  match facetCheck s t with
  | some d => if t.phase = .running then s.finish t.slot St.cmdError d else s
  | none =>
    if t.phase ≠ .running ∧ bad then s else s.openRanges t.slot [] [k, p] fun s vs => s.engineOpened t.slot vs

/-- The unit set to its start state for a kernel that is loaded (R192). -/
def State.facetStart (s : State) (t : Tracked) : State :=
  let kb := t.loaded.headD []
  let words := (List.range (kb.length / 8)).map fun i => (BitVec.ofNat 64 (leNat ((kb.drop (8 * i)).take 8)) : W64)
  let b := tgetD s.facetBank t.station 0
  { s with facetBank := tset s.facetBank t.station (1 - b) }.putUnit t.station
    (FacetUnit.fresh t.slot t.opb words (t.loaded.getD 1 []) b)

end Sys2Proof.Machine
end

