-- ==== Sys2Proof/Machine/FacetFns.lean ====
section
/-! DEFINITION. The control, scalar integer, vector, compare, transcendental and lane functions of Facet (R205 to R221). -/

namespace Sys2Proof.Machine

open Sys2Proof

/-! ### Control (R205, R206, R208) -/

abbrev useNone : FUse := FUse.make false false false false
abbrev useBr : FUse := { FUse.make false false false false with imm := true }
abbrev useBz : FUse := { FUse.make false true false false with imm := true }
abbrev useLoop : FUse := { FUse.make false true false false with immA := true }

def semNop : FSem := fun s _ u _ => .unit s u 0
def semHalt : FSem := fun _ t _ _ => if t.abortReq then .abort else .halt
def branchTo (f : FIns) : Nat := fld f.lo.toNat 11 0
def semBr : FSem := fun _ _ u f => .jump u (branchTo f)
def semBez : FSem := fun s _ u f => if u.sget f.a = 0 then .jump u (branchTo f) else .unit s u 0
def semBnz : FSem := fun s _ u f => if u.sget f.a = 0 then .unit s u 0 else .jump u (branchTo f)

/-- LOOP: a body that is empty, or a COUNT of 0, is passed over (R206, R208; DEDUCED, log 53), though not inside four loops, where any
LOOP is a loop error (DESIGN CHOICE, log 114). -/
def semLoop : FSem := fun s _ u f =>
  let last := fld f.lo.toNat 11 0
  let count := if f.i then fld f.lo.toNat 31 12 else (u.sget f.a).toNat
  let outer : Bool := match u.loops with | [] => true | l :: _ => decide (last ≤ l.last)
  if last < u.pc ∨ ¬ outer ∨ 4 ≤ u.loops.length then .err Fc.loop
  else if count = 0 ∨ last = u.pc then .go s u 0 0 last
  else .jump { u with loops := { first := u.pc + 1, last := last, left := count } :: u.loops } (u.pc + 1)

/-! ### Scalar integer -/

abbrev useSab : FUse := FUse.make true true true false
abbrev useMovi : FUse := { FUse.make true false false false with imm := true }

/-- A scalar function of A and B. -/
def scalar2 (g : W32 → W32 → W32) : FSem := fun s _ u f => .unit s (u.sset f.d (g (u.sget f.a) (u.ssrcB f))) 0

/-- The shift count of a 32-bit operation: modulo 32 (R205). The manual says so of vector shifts; scalar ones act alike (DESIGN CHOICE, log
114). -/
def shiftOf (x : W32) : Nat := x.toNat % 32

def semSadd : FSem := scalar2 fun a b => a + b
def semSsub : FSem := scalar2 fun a b => a - b
def semSmul : FSem := scalar2 fun a b => a * b
def semSand : FSem := scalar2 fun a b => a &&& b
def semSor : FSem := scalar2 fun a b => a ||| b
def semSxor : FSem := scalar2 fun a b => a ^^^ b
def semSshl : FSem := scalar2 fun a b => a <<< shiftOf b
def semSshr : FSem := scalar2 fun a b => a >>> shiftOf b
def semSsra : FSem := scalar2 fun a b => a.sshiftRight (shiftOf b)
def semSslt : FSem := scalar2 fun a b => if a.slt b then 1 else 0
def semSsltu : FSem := scalar2 fun a b => if a.ult b then 1 else 0
def semSmin : FSem := scalar2 fun a b => if a.slt b then a else b
def semSmax : FSem := scalar2 fun a b => if a.slt b then b else a
def semMovi : FSem := fun s _ u f => .unit s (u.sset f.d f.lo) 0

/-! ### Lanes -/

abbrev useV1 : FUse := FUse.make true true false true
abbrev useV2 : FUse := FUse.make true true true true
abbrev useV3 : FUse := { FUse.make true true true true with cUse := true }
abbrev useVmov : FUse := { FUse.make true true false true with immA := true }

/-- The flags of the active lanes. -/
def laneFlags (mask : List Bool) (rs : List (Nat × Nat)) : Nat :=
  (mask.zip rs).foldl (fun a x => if x.1 then a ||| x.2.2 else a) 0

/-- Results with flags written in the active lanes. -/
def writeLanes (s : State) (u : FacetUnit) (f : FIns) (rs : List (Nat × Nat)) : FRes :=
  let m := u.mask f
  .unit s (u.vset f.d m (rs.map fun r => BitVec.ofNat 32 r.1)) (laneFlags m rs)

/-- A binary32 function of A, of A and B, of A, B and C, lane by lane. -/
def vec1 (g : Nat → Nat × Nat) : FSem := fun s _ u f => writeLanes s u f ((u.vget f.a).map fun a => g a.toNat)
def vec2 (g : Nat → Nat → Nat × Nat) : FSem := fun s _ u f =>
  writeLanes s u f (((u.vget f.a).zip (u.vsrcB f)).map fun x => g x.1.toNat x.2.toNat)
def vec3 (g : Nat → Nat → Nat → Nat × Nat) : FSem := fun s _ u f =>
  writeLanes s u f (((u.vget f.a).zip ((u.vsrcB f).zip (u.vget f.c))).map fun x => g x.1.toNat x.2.1.toNat x.2.2.toNat)

/-- An integer function of A and B, lane by lane, without flags. -/
def int2 (g : W32 → W32 → W32) : FSem := fun s _ u f =>
  .unit s (u.vset f.d (u.mask f) (((u.vget f.a).zip (u.vsrcB f)).map fun x => g x.1 x.2)) 0

/-! ### Vector float (R205, R212 to R217) -/

def semVadd : FSem := vec2 f32Add
def semVsub : FSem := vec2 f32Sub
def semVmul : FSem := vec2 f32Mul
def semVfma : FSem := vec3 f32Fma
def semVmin : FSem := vec2 f32Min
def semVmax : FSem := vec2 f32Max
def semVabs : FSem := vec1 f32Abs
def semVneg : FSem := vec1 f32NegOp
def semVdiv : FSem := vec2 f32Div
def semVsqrt : FSem := vec1 f32Sqrt
def semVcvtfi : FSem := fun s t u f => vec1 (f32ToInt (fld f.lo.toNat 1 0)) s t u f
def semVcvtif : FSem := vec1 fun a => f32OfInt (sext 32 a)
def semVmov : FSem := fun s _ u f => .unit s (u.vset f.d (u.mask f) (if f.i then u.vsrcB f else u.vget f.a)) 0

/-- VSEL: A where the governing predicate is 1 and B elsewhere, on every lane. -/
def semVsel : FSem := fun s _ u f =>
  let xs := ((u.mask f).zip ((u.vget f.a).zip (u.vsrcB f))).map fun x => if x.1 then x.2.1 else x.2.2
  .unit s (u.vset f.d (List.replicate 256 true) xs) 0

/-! ### Vector integer -/

def semViadd : FSem := int2 fun a b => a + b
def semVisub : FSem := int2 fun a b => a - b
def semVimul : FSem := int2 fun a b => a * b
def semVand : FSem := int2 fun a b => a &&& b
def semVor : FSem := int2 fun a b => a ||| b
def semVxor : FSem := int2 fun a b => a ^^^ b
def semVshl : FSem := int2 fun a b => a <<< shiftOf b
def semVshr : FSem := int2 fun a b => a >>> shiftOf b
def semVsra : FSem := int2 fun a b => a.sshiftRight (shiftOf b)
def semVimin : FSem := int2 fun a b => if a.slt b then a else b
def semVimax : FSem := int2 fun a b => if a.slt b then b else a

/-! ### Compares and predicates (R205, R216) -/

/-- A compare of A and B, lane by lane, into predicate D bits 2:0. -/
def cmp2 (g : Nat → Nat → Bool × Nat) : FSem := fun s _ u f =>
  let m := u.mask f
  let rs := ((u.vget f.a).zip (u.vsrcB f)).map fun x => g x.1.toNat x.2.toNat
  .unit s (u.pset f.d.toNat m (rs.map Prod.fst)) (laneFlags m (rs.map fun r => (0, r.2)))

def semVceq : FSem := cmp2 (f32Cmp true fun a b => a == b)
def semVclt : FSem := cmp2 (f32Cmp false fun a b => decide (a < b))
def semVcle : FSem := cmp2 (f32Cmp false fun a b => decide (a ≤ b))
def semVcun : FSem := cmp2 f32Un
def semViceq : FSem := cmp2 fun a b => (a == b, 0)
def semViclt : FSem := cmp2 fun a b => (decide (sext 32 a < sext 32 b), 0)

/-- A predicate source: a register, or what an immediate gives (free, log 55). -/
def FacetUnit.psrcB (u : FacetUnit) (f : FIns) : List Bool :=
  if f.i then List.replicate 256 (Config.predImm f.lo) else u.pget f.b.toNat

def pred2 (g : Bool → Bool → Bool) : FSem := fun s _ u f =>
  .unit s (u.pset f.d.toNat (u.mask f) (((u.pget f.a.toNat).zip (u.psrcB f)).map fun x => g x.1 x.2)) 0

def semPand : FSem := pred2 (· && ·)
def semPor : FSem := pred2 (· || ·)
def semPxor : FSem := pred2 (· != ·)
def semPnot : FSem := fun s _ u f => .unit s (u.pset f.d.toNat (u.mask f) ((u.pget f.a.toNat).map not)) 0

/-- PLANES makes lane i active exactly when i < sA, sA read as an unsigned number (R205; DESIGN CHOICE, log 114). -/
def semPlanes : FSem := fun s _ u f =>
  .unit s (u.pset f.d.toNat (u.mask f) (laneIdx.map fun i => decide (i < (u.sget f.a).toNat))) 0

/-! ### Transcendentals (R219 to R221) -/

def semExp : FSem := vec1 f32Exp
def semExp2 : FSem := vec1 f32Exp2
def semLog : FSem := vec1 (f32LogOp false)
def semLog2 : FSem := vec1 (f32LogOp true)
def semRecip : FSem := vec1 f32Recip
def semRsqrt : FSem := vec1 f32Rsqrt
def semSigmoid : FSem := vec1 f32Sigmoid
def semTanh : FSem := vec1 f32Tanh
def semErf : FSem := vec1 f32Erf
def semGeluTanh : FSem := vec1 f32GeluTanh
def semGeluErf : FSem := vec1 f32GeluErf
def semSilu : FSem := vec1 f32Silu

/-! ### Lane functions (R205, R218) -/

abbrev useVext : FUse := FUse.make true true true false
abbrev useVidx : FUse := FUse.make true false false true

/-- A reduction of the active lanes in the tree of R218, written to every lane. -/
def reduce (g : Nat → Nat → Nat × Nat) : FSem := fun s _ u f =>
  let xs := ((u.mask f).zip (u.vget f.a)).map fun x => if x.1 then some x.2.toNat else none
  let (r, fl) := tree g 8 xs
  .unit s (u.vset f.d (List.replicate 256 true) (List.replicate 256 (BitVec.ofNat 32 (r.getD 0)))) fl

/-- A binary32 with any NaN as the canonical one (R214). -/
def canonNan (y : Nat) : Nat := if (f32Val y).isNan then f32Nan else y

/-- A reduction of binary32 lanes: a NaN that it produces is the canonical one, also where it moved up the tree unchanged, and a
signalling NaN in an active lane sets NV (R214). -/
def reduceF (g : Nat → Nat → Nat × Nat) : FSem := fun s _ u f =>
  let xs := ((u.mask f).zip (u.vget f.a)).map fun x => if x.1 then some x.2.toNat else none
  let (r, fl) := tree g 8 xs
  .unit s (u.vset f.d (List.replicate 256 true) (List.replicate 256 (BitVec.ofNat 32 (canonNan (r.getD 0)))))
    (xs.foldl (fun a x => a ||| (match x with | some x => (f32Val x).nv | none => 0)) fl)

def semVrsum : FSem := reduceF f32Add
def semVrmax : FSem := reduceF f32Max
def semVrmin : FSem := reduceF f32Min
def semVriadd : FSem := reduce fun a b => ((a + b) % 2 ^ 32, 0)

/-- VBCAST uses no predicate (R205), so a non-zero P makes it illegal (R204). -/
abbrev useVbcast : FUse := FUse.make true true false false

/-- VBCAST writes sA to every lane (R205). -/
def semVbcast : FSem := fun s _ u f => .unit s (u.vset f.d (List.replicate 256 true) (List.replicate 256 (u.sget f.a))) 0

/-- VEXT: lane sB of vA to sD; for a lane above 255, of which the manual gives none, a free function of the two (R243, log 56). -/
def semVext : FSem := fun s _ u f =>
  let n := (u.ssrcB f).toNat
  .unit s (u.sset f.d (if n < 256 then (u.vget f.a).getD n 0 else Config.vext (u.ssrcB f) (u.vget f.a))) 0

/-- VSLIDE, with sB read as an unsigned number (R205; DESIGN CHOICE, log 114). -/
def semVslide : FSem := fun s _ u f =>
  let n := (u.ssrcB f).toNat
  let xs := u.vget f.a
  .unit s (u.vset f.d (u.mask f) (laneIdx.map fun i => if 255 < i + n then 0 else xs.getD (i + n) 0)) 0
def semVidx : FSem := fun s _ u f => .unit s (u.vset f.d (u.mask f) (laneIdx.map fun i => BitVec.ofNat 32 i)) 0
def semVperm : FSem := fun s _ u f =>
  let xs := u.vget f.a
  .unit s (u.vset f.d (u.mask f) ((u.vsrcB f).map fun b => xs.getD (b.toNat % 256) 0)) 0

end Sys2Proof.Machine
end

