-- ==== Sys2Proof/Machine/FacetTile.lean ====
section
/-! DEFINITION. The memory and tile functions of Facet: VLD, VST, VLDT, VSTT, TWAIT, TREL, TOPEN and TEMIT (R199 to R202,
R222 to R235). -/

namespace Sys2Proof.Machine

open Sys2Proof

/-! ### Memory (R199 to R202) -/

abbrev useMem : FUse := FUse.make true true false true

/-- The byte at a Facet data address (Table 3-2). -/
def FacetUnit.byte (u : FacetUnit) (a : Nat) : Byte :=
  if a < 0x10000 then u.param.getD a 0 else tgetD u.scratch (a - 0x10000) 0

/-- An access of 1,024 bytes at an address lies within one row of Table 3-2 (R202). -/
def facetAddrOk (store : Bool) (a : Nat) : Bool :=
  a % 4 == 0 && ((!store && decide (a + 1024 ≤ 0x10000)) || decide (0x10000 ≤ a ∧ a + 1024 ≤ 0x30000))

def semVld : FSem := fun s _ u f =>
  let a := (u.sget f.a).toNat
  if ¬ facetAddrOk false a then .err Fc.addr
  else
    let xs := laneIdx.map fun i => (BitVec.ofNat 32 (leNat ((List.range 4).map fun k => u.byte (a + 4 * i + k))) : W32)
    .unit s (u.vset f.d (u.mask f) xs) 0

/-- VST: the active lanes of the register in D (DESIGN CHOICE, log 54). -/
def semVst : FSem := fun s _ u f =>
  let a := (u.sget f.a).toNat
  if ¬ facetAddrOk true a then .err Fc.addr
  else
    let m := u.mask f
    let xs := u.vget f.d
    let sc := laneIdx.foldl (fun sc i =>
      if m.getD i false then
        (List.range 4).foldl (fun sc k => tset sc (a - 0x10000 + 4 * i + k) (((xs.getD i 0) >>> (8 * k)).setWidth 8)) sc
      else sc) u.scratch
    .unit s { u with scratch := sc } 0

/-! ### Tiles -/

abbrev useVt : FUse := FUse.make true true true true
abbrev useTwait : FUse := FUse.make true false false false
abbrev useTsrc : FUse := { FUse.make false true false false with immA := true }

/-- NV of a value that is a signalling NaN (R214). -/
def sigNv (v : Fv) : Nat := match v with | .nan true => fNv | _ => 0

/-- An element of a format as a lane: binary32, or INT32 for the integer formats; with OF where an MX value leaves the
binary32 range, and NV of a signalling NaN (R214, R229). -/
def laneOf (fmt : Nat) (v : Fv) : Nat × Nat :=
  if isInt8 fmt ∨ fmt = 0x0E then
    match v with
    | .fin s m _ => (bitsOf 32 (if s then -(m : Int) else m), 0)
    | _ => (0, 0)
  else (v.toF32.1, (if isMx fmt then v.toF32.2 &&& fOf else 0) ||| sigNv v)

/-- The lanes that VLDT loads from a tile: row form, row `r` from element `e`; column form, element `e` of each row. -/
def tileLanes (x : Tile) (col : Bool) (r e : Nat) : List (Nat × Nat) :=
  if col then
    laneIdx.map fun i =>
      if i < tileRows x then
        match (rowVals x.format (rowOf x i))[e]? with
        | some v => laneOf x.format v
        | none => (0, 0)
      else (0, 0)
  else
    let vs := (rowVals x.format (rowOf x r)).drop e
    laneIdx.map fun i => match vs[i]? with
      | some v => laneOf x.format v
      | none => (0, 0)

/-- VLDT (R228, R229): from an input handle. With I = 1 the handle and the form are read from the IMM32 word, all of which is sB (DESIGN
CHOICE, log 114). -/
def semVldt : FSem := fun s _ u f =>
  match tget u.handles f.handleNo with
  | some (.inTile _ x) =>
    let r := (u.sget f.a).toNat
    if x.format = 0x0F then .err Fc.format
    else if ¬ f.column ∧ tileRows x ≤ r then .err Fc.addr
    else writeLanes s u f (tileLanes x f.column r (u.ssrcB f).toNat)
  | _ => .err Fc.handle

/-- A lane as an element of a non-MX format, with NV of a signalling NaN (R214, R231). -/
def laneElem (fmt : Nat) (w : W32) : Nat × Nat :=
  if isInt8 fmt ∨ fmt = 0x0E then satInt fmt (sext 32 w.toNat)
  else let (c, f) := outElem fmt (f32Val w.toNat); (c, f ||| sigNv (f32Val w.toNat))

/-- A row with the elements from `e` on replaced where the list holds one; beyond the row end nothing is written. -/
def putElems (fmt : Nat) (row : List Byte) (e : Nat) (cs : List (Option Nat)) : List Byte :=
  packCodes (elemBits fmt) ((unpackCodes (elemBits fmt) (elemsIn fmt row.length) row).mapIdx fun i old =>
    if e ≤ i then ((cs[i - e]?).join).getD old else old)

/-- A tile with one row replaced. -/
def putRow (x : Tile) (r : Nat) (row : List Byte) : Tile :=
  let n := tileRowBytes x
  { x with payload := x.payload.take (r * n) ++ row ++ x.payload.drop ((r + 1) * n) }

/-- VSTT in an MX format: whole blocks of the row from block `e` / 32 on (R232). -/
def putBlocks (x : Tile) (r e : Nat) (ws : List W32) : OutRow :=
  let row := rowOf x r
  let nb := unitBytes x.format
  let n := min 8 (row.length / nb - e / 32)
  let o := mxRowOut x.format ((ws.take (32 * n)).map BitVec.toNat) n
  { o with bytes := row.take (e / 32 * nb) ++ o.bytes ++ row.drop ((e / 32 + n) * nb)
           flags := o.flags ||| (ws.take (32 * n)).foldl (fun a w => a ||| sigNv (f32Val w.toNat)) 0 }

/-- VSTT (R230 to R232): the register in D to an output handle (DESIGN CHOICE, log 54). -/
def semVstt : FSem := fun s _ u f =>
  match tget u.handles f.handleNo with
  | some (.outTile o x) =>
    let r := (u.sget f.a).toNat
    let e := (u.ssrcB f).toNat
    let ws := u.vget f.d
    let m := u.mask f
    let put (x : Tile) (flags sat : Nat) : FRes :=
      .go s { u with handles := tset u.handles f.handleNo (.outTile o x) } flags sat u.pc
    if x.format = 0x0F then .err Fc.format
    else if ¬ f.column ∧ tileRows x ≤ r then .err Fc.addr
    else if isMx x.format then
      if e % 32 ≠ 0 ∨ f.column then .err Fc.format
      else
        let b := putBlocks x r e ws
        put (putRow x r b.bytes) b.flags b.sat
    else
      let per := elemsIn x.format (tileRowBytes x)
      let cs := ws.map (laneElem x.format)
      let hit (i : Nat) : Bool := m.getD i false && (if f.column then decide (i < tileRows x ∧ e < per) else decide (e + i < per))
      let done := (laneIdx.filter hit).filterMap fun i => cs[i]?
      let code (i : Nat) : Option Nat := if hit i then (cs[i]?).map Prod.fst else none
      let y := if f.column then
          (List.range (min 256 (tileRows x))).foldl (fun y i => putRow y i (putElems x.format (rowOf y i) e [code i])) x
        else putRow x r (putElems x.format (rowOf x r) e (laneIdx.map code))
      put y (orFlags done) (satCount done)
  | _ => .err Fc.handle

/-- A tile's info word (R223). -/
def infoWord (x : Tile) : Nat :=
  x.rowsM1 + x.rowBytesM1 * 2 ^ 8 + x.format * 2 ^ 16 + (if x.last then 2 ^ 21 else 0) + (if x.zc then 2 ^ 22 else 0) +
    (if x.tent then 2 ^ 23 else 0)

/-- Handles bound to an input, and output handles open (R233). -/
def FacetUnit.inHandles (u : FacetUnit) (i : Nat) : Nat :=
  (u.handles.filter fun h => match h.2 with | .inTile j _ => j == i | _ => false).length

/-- TWAIT (R222, R233, R239). -/
def semTwait : FSem := fun s t u f =>
  let i := f.bindNo
  match t.ins[i]? with
  | none => .err Fc.handle
  | some b =>
    if t.abortReq then .abort
    else if (tget u.handles f.handleNo).isSome ∨ 4 ≤ u.inHandles i then .err Fc.handle
    else if u.lastBound.contains i then .err Fc.pastLast
    else
      match b.window with
      | [] => .starve
      | x :: _ =>
        let u := u.sset f.d (BitVec.ofNat 32 (infoWord x))
        .go (s.takeTile t.slot i)
          { u with handles := tset u.handles f.handleNo (.inTile i x)
                   lastBound := if x.last then i :: u.lastBound else u.lastBound } 0 0 u.pc

/-- TREL (R225). -/
def semTrel : FSem := fun s t u f =>
  match tget u.handles f.handleNo with
  | some (.inTile i _) =>
    let n := ((t.ins[i]?).map InBind.released).getD 0
    .go (s.releaseTo t.slot i (n + 1)) { u with handles := tdel u.handles f.handleNo } 0 0 u.pc
  | _ => .err Fc.handle

/-- The output asks for zero-compressed tiles (Table 3-1). -/
def facetZc (t : Tracked) (o : Nat) : Bool := opw t.opb 5 (57 + o) (57 + o) == 1

/-- TOPEN (R226, R233, R239, R267). ROWS_M1 is bits 6:0 of the shape word; bit 7 is ignored, so no shape has more than 128 rows (DESIGN
CHOICE, log 114). -/
def semTopen : FSem := fun s t u f =>
  let o := f.bindNo
  let w := (if f.i then f.lo else u.sget f.a).toNat
  let fmt := fld w 20 16
  if t.abortReq then .abort
  else if t.outs.length ≤ o ∨ (tget u.handles f.handleNo).isSome ∨ 4 ≤ u.outHandles then .err Fc.handle
  else if 0x10 ≤ fmt ∨ ¬ wholeRow fmt (fld w 15 8 + 1) then .err Fc.format
  else if facetZc t o ∧ ¬ zcFormat fmt then .err Mx.zcFormat
  else if 4 ≤ u.outHandles + staged s t then .wait
  else
    let x := mkTile fmt (fld w 6 0 + 1) (fld w 15 8 + 1) false (List.replicate ((fld w 6 0 + 1) * (fld w 15 8 + 1)) 0)
    .unit s { u with handles := tset u.handles f.handleNo (.outTile o x) } 0

/-- TEMIT (R227, R239). -/
def semTemit : FSem := fun s t u f =>
  match tget u.handles f.handleNo with
  | some (.outTile o x) =>
    if t.abortReq then .abort
    else if t.work.aux.testBit o then .err Fc.noLast
    else
      let last := (if f.i then f.lo else u.sget f.a).toNat.testBit 21
      let s := s.updCmd t.slot fun c =>
        { c with work := { c.work with aux := if last then c.work.aux ||| 2 ^ o else c.work.aux } }
      .go (s.formTile t.slot o (zcTile (facetZc t o) { x with last := last })) { u with handles := tdel u.handles f.handleNo }
        0 0 u.pc
  | _ => .err Fc.handle

end Sys2Proof.Machine
end

