-- ==== Sys2Proof/Machine/Facet.lean ====
section
/-! DEFINITION. The commands of Facet: FACET, and one row for each function of Table 3-4. -/

namespace Sys2Proof.Machine

open Sys2Proof

/-- The functions by class and FUNC (Table 3-4): the fields each uses and what it computes; none where reserved. -/
def facetFn (cls func : Nat) : Option (FUse × FSem) :=
  match cls, func with
  | 0x0, 0x00 => some (useNone, semNop)
  | 0x0, 0x01 => some (useNone, semHalt)
  | 0x0, 0x02 => some (useBr, semBr)
  | 0x0, 0x03 => some (useBz, semBez)
  | 0x0, 0x04 => some (useBz, semBnz)
  | 0x0, 0x05 => some (useLoop, semLoop)
  | 0x1, 0x00 => some (useSab, semSadd)
  | 0x1, 0x01 => some (useSab, semSsub)
  | 0x1, 0x02 => some (useSab, semSmul)
  | 0x1, 0x03 => some (useSab, semSand)
  | 0x1, 0x04 => some (useSab, semSor)
  | 0x1, 0x05 => some (useSab, semSxor)
  | 0x1, 0x06 => some (useSab, semSshl)
  | 0x1, 0x07 => some (useSab, semSshr)
  | 0x1, 0x08 => some (useSab, semSsra)
  | 0x1, 0x09 => some (useSab, semSslt)
  | 0x1, 0x0a => some (useSab, semSsltu)
  | 0x1, 0x0b => some (useSab, semSmin)
  | 0x1, 0x0c => some (useSab, semSmax)
  | 0x1, 0x0d => some (useMovi, semMovi)
  | 0x2, 0x00 => some (useV2, semVadd)
  | 0x2, 0x01 => some (useV2, semVsub)
  | 0x2, 0x02 => some (useV2, semVmul)
  | 0x2, 0x03 => some (useV3, semVfma)
  | 0x2, 0x04 => some (useV2, semVmin)
  | 0x2, 0x05 => some (useV2, semVmax)
  | 0x2, 0x06 => some (useV1, semVabs)
  | 0x2, 0x07 => some (useV1, semVneg)
  | 0x2, 0x08 => some (useV2, semVdiv)
  | 0x2, 0x09 => some (useV1, semVsqrt)
  | 0x2, 0x0a => some (useV1, semVcvtfi)
  | 0x2, 0x0b => some (useV1, semVcvtif)
  | 0x2, 0x0c => some (useVmov, semVmov)
  | 0x2, 0x0d => some (useV2, semVsel)
  | 0x3, 0x00 => some (useV2, semViadd)
  | 0x3, 0x01 => some (useV2, semVisub)
  | 0x3, 0x02 => some (useV2, semVimul)
  | 0x3, 0x03 => some (useV2, semVand)
  | 0x3, 0x04 => some (useV2, semVor)
  | 0x3, 0x05 => some (useV2, semVxor)
  | 0x3, 0x06 => some (useV2, semVshl)
  | 0x3, 0x07 => some (useV2, semVshr)
  | 0x3, 0x08 => some (useV2, semVsra)
  | 0x3, 0x09 => some (useV2, semVimin)
  | 0x3, 0x0a => some (useV2, semVimax)
  | 0x4, 0x00 => some (useV2, semVceq)
  | 0x4, 0x01 => some (useV2, semVclt)
  | 0x4, 0x02 => some (useV2, semVcle)
  | 0x4, 0x03 => some (useV2, semVcun)
  | 0x4, 0x04 => some (useV2, semViceq)
  | 0x4, 0x05 => some (useV2, semViclt)
  | 0x4, 0x08 => some (useV2, semPand)
  | 0x4, 0x09 => some (useV2, semPor)
  | 0x4, 0x0a => some (useV2, semPxor)
  | 0x4, 0x0b => some (useV1, semPnot)
  | 0x4, 0x0c => some (useV1, semPlanes)
  | 0x5, 0x00 => some (useV1, semExp)
  | 0x5, 0x01 => some (useV1, semExp2)
  | 0x5, 0x02 => some (useV1, semLog)
  | 0x5, 0x03 => some (useV1, semLog2)
  | 0x5, 0x04 => some (useV1, semRecip)
  | 0x5, 0x05 => some (useV1, semRsqrt)
  | 0x5, 0x06 => some (useV1, semSigmoid)
  | 0x5, 0x07 => some (useV1, semTanh)
  | 0x5, 0x08 => some (useV1, semErf)
  | 0x5, 0x09 => some (useV1, semGeluTanh)
  | 0x5, 0x0a => some (useV1, semGeluErf)
  | 0x5, 0x0b => some (useV1, semSilu)
  | 0x6, 0x00 => some (useV1, semVrsum)
  | 0x6, 0x01 => some (useV1, semVrmax)
  | 0x6, 0x02 => some (useV1, semVrmin)
  | 0x6, 0x03 => some (useV1, semVriadd)
  | 0x6, 0x08 => some (useVbcast, semVbcast)
  | 0x6, 0x09 => some (useVext, semVext)
  | 0x6, 0x0b => some (useV2, semVslide)
  | 0x6, 0x0c => some (useVidx, semVidx)
  | 0x6, 0x0d => some (useV2, semVperm)
  | 0x7, 0x00 => some (useMem, semVld)
  | 0x7, 0x01 => some (useMem, semVst)
  | 0x7, 0x02 => some (useVt, semVldt)
  | 0x7, 0x03 => some (useVt, semVstt)
  | 0x8, 0x00 => some (useTwait, semTwait)
  | 0x8, 0x01 => some (useNone, semTrel)
  | 0x8, 0x02 => some (useTsrc, semTopen)
  | 0x8, 0x03 => some (useTsrc, semTemit)
  | _, _ => none

/-- One instruction fetched, decoded and run (R203, R204, R239). -/
def State.facetFetch (s : State) (st : Nat) (t : Tracked) (u : FacetUnit) : State :=
  match u.kernel[u.pc]? with
  | none => s.finish t.slot St.cmdError Fc.kernel
  | some w =>
    let n := w.toNat
    match facetFn (fld n 63 60) (fld n 59 54) with
    | none => s.finish t.slot St.cmdError Fc.illegal
    | some (use, sem) =>
      if fld n 33 32 ≠ 0 then s.finish t.slot St.cmdError Fc.illegal else s.facetIns st t u use sem (FIns.ofWord w)

/-- Up to `fuel` instructions of the kernel that runs in a slot. -/
def State.facetRun (s : State) (st : Nat) : Nat → State
  | 0 => s
  | n + 1 =>
    match facetOn s st with
    | none => s
    | some (t, u) => (s.facetFetch st t u).facetRun st n

/-- The FACET in a slot that its unit has staged, its kernel not yet loaded. -/
def stagedFacet (s : State) (slot : Nat) : Option Tracked :=
  (s.cmd? slot).filter fun t => t.phase == .staged && t.op == 0x30 && !t.work.opened && cmdsGoOn s

/-- A FACET loads its kernel and parameter block, while it is staged or as it runs; then its unit starts, and runs up to `fuel`
instructions of it. A requested abort that no tile function has met ends it after these (R242). -/
def execFacet (slot fuel : Nat) (s : State) : Out :=
  match runningCmd s slot 0x30, stagedFacet s slot with
  | none, none => ok s
  | none, some t => ok (s.facetLoad t)
  | some t, _ =>
    if ¬ t.work.opened then ok (s.facetLoad t)
    else if ((tget s.facets t.station).map FacetUnit.slot) != some slot then ok (s.facetStart t)
    else
      let s := s.facetRun t.station fuel
      match runningCmd s slot 0x30 with
      | some t => ok (if t.abortReq then s.finish slot St.aborted Det.none else s)
      | none => ok s

def execFacetNop (st : Nat) (f : FIns) (s : State) : Out := facetRow useNone semNop st f s
def execHalt (st : Nat) (f : FIns) (s : State) : Out := facetRow useNone semHalt st f s
def execBr (st : Nat) (f : FIns) (s : State) : Out := facetRow useBr semBr st f s
def execBez (st : Nat) (f : FIns) (s : State) : Out := facetRow useBz semBez st f s
def execBnz (st : Nat) (f : FIns) (s : State) : Out := facetRow useBz semBnz st f s
def execLoop (st : Nat) (f : FIns) (s : State) : Out := facetRow useLoop semLoop st f s
def execSadd (st : Nat) (f : FIns) (s : State) : Out := facetRow useSab semSadd st f s
def execSsub (st : Nat) (f : FIns) (s : State) : Out := facetRow useSab semSsub st f s
def execSmul (st : Nat) (f : FIns) (s : State) : Out := facetRow useSab semSmul st f s
def execSand (st : Nat) (f : FIns) (s : State) : Out := facetRow useSab semSand st f s
def execSor (st : Nat) (f : FIns) (s : State) : Out := facetRow useSab semSor st f s
def execSxor (st : Nat) (f : FIns) (s : State) : Out := facetRow useSab semSxor st f s
def execSshl (st : Nat) (f : FIns) (s : State) : Out := facetRow useSab semSshl st f s
def execSshr (st : Nat) (f : FIns) (s : State) : Out := facetRow useSab semSshr st f s
def execSsra (st : Nat) (f : FIns) (s : State) : Out := facetRow useSab semSsra st f s
def execSslt (st : Nat) (f : FIns) (s : State) : Out := facetRow useSab semSslt st f s
def execSsltu (st : Nat) (f : FIns) (s : State) : Out := facetRow useSab semSsltu st f s
def execSmin (st : Nat) (f : FIns) (s : State) : Out := facetRow useSab semSmin st f s
def execSmax (st : Nat) (f : FIns) (s : State) : Out := facetRow useSab semSmax st f s
def execMovi (st : Nat) (f : FIns) (s : State) : Out := facetRow useMovi semMovi st f s
def execVadd (st : Nat) (f : FIns) (s : State) : Out := facetRow useV2 semVadd st f s
def execVsub (st : Nat) (f : FIns) (s : State) : Out := facetRow useV2 semVsub st f s
def execVmul (st : Nat) (f : FIns) (s : State) : Out := facetRow useV2 semVmul st f s
def execVfma (st : Nat) (f : FIns) (s : State) : Out := facetRow useV3 semVfma st f s
def execVmin (st : Nat) (f : FIns) (s : State) : Out := facetRow useV2 semVmin st f s
def execVmax (st : Nat) (f : FIns) (s : State) : Out := facetRow useV2 semVmax st f s
def execVabs (st : Nat) (f : FIns) (s : State) : Out := facetRow useV1 semVabs st f s
def execVneg (st : Nat) (f : FIns) (s : State) : Out := facetRow useV1 semVneg st f s
def execVdiv (st : Nat) (f : FIns) (s : State) : Out := facetRow useV2 semVdiv st f s
def execVsqrt (st : Nat) (f : FIns) (s : State) : Out := facetRow useV1 semVsqrt st f s
def execVcvtfi (st : Nat) (f : FIns) (s : State) : Out := facetRow useV1 semVcvtfi st f s
def execVcvtif (st : Nat) (f : FIns) (s : State) : Out := facetRow useV1 semVcvtif st f s
def execVmov (st : Nat) (f : FIns) (s : State) : Out := facetRow useVmov semVmov st f s
def execVsel (st : Nat) (f : FIns) (s : State) : Out := facetRow useV2 semVsel st f s
def execViadd (st : Nat) (f : FIns) (s : State) : Out := facetRow useV2 semViadd st f s
def execVisub (st : Nat) (f : FIns) (s : State) : Out := facetRow useV2 semVisub st f s
def execVimul (st : Nat) (f : FIns) (s : State) : Out := facetRow useV2 semVimul st f s
def execVand (st : Nat) (f : FIns) (s : State) : Out := facetRow useV2 semVand st f s
def execVor (st : Nat) (f : FIns) (s : State) : Out := facetRow useV2 semVor st f s
def execVxor (st : Nat) (f : FIns) (s : State) : Out := facetRow useV2 semVxor st f s
def execVshl (st : Nat) (f : FIns) (s : State) : Out := facetRow useV2 semVshl st f s
def execVshr (st : Nat) (f : FIns) (s : State) : Out := facetRow useV2 semVshr st f s
def execVsra (st : Nat) (f : FIns) (s : State) : Out := facetRow useV2 semVsra st f s
def execVimin (st : Nat) (f : FIns) (s : State) : Out := facetRow useV2 semVimin st f s
def execVimax (st : Nat) (f : FIns) (s : State) : Out := facetRow useV2 semVimax st f s
def execVceq (st : Nat) (f : FIns) (s : State) : Out := facetRow useV2 semVceq st f s
def execVclt (st : Nat) (f : FIns) (s : State) : Out := facetRow useV2 semVclt st f s
def execVcle (st : Nat) (f : FIns) (s : State) : Out := facetRow useV2 semVcle st f s
def execVcun (st : Nat) (f : FIns) (s : State) : Out := facetRow useV2 semVcun st f s
def execViceq (st : Nat) (f : FIns) (s : State) : Out := facetRow useV2 semViceq st f s
def execViclt (st : Nat) (f : FIns) (s : State) : Out := facetRow useV2 semViclt st f s
def execPand (st : Nat) (f : FIns) (s : State) : Out := facetRow useV2 semPand st f s
def execPor (st : Nat) (f : FIns) (s : State) : Out := facetRow useV2 semPor st f s
def execPxor (st : Nat) (f : FIns) (s : State) : Out := facetRow useV2 semPxor st f s
def execPnot (st : Nat) (f : FIns) (s : State) : Out := facetRow useV1 semPnot st f s
def execPlanes (st : Nat) (f : FIns) (s : State) : Out := facetRow useV1 semPlanes st f s
def execExp (st : Nat) (f : FIns) (s : State) : Out := facetRow useV1 semExp st f s
def execExp2 (st : Nat) (f : FIns) (s : State) : Out := facetRow useV1 semExp2 st f s
def execLog (st : Nat) (f : FIns) (s : State) : Out := facetRow useV1 semLog st f s
def execLog2 (st : Nat) (f : FIns) (s : State) : Out := facetRow useV1 semLog2 st f s
def execRecip (st : Nat) (f : FIns) (s : State) : Out := facetRow useV1 semRecip st f s
def execRsqrt (st : Nat) (f : FIns) (s : State) : Out := facetRow useV1 semRsqrt st f s
def execSigmoid (st : Nat) (f : FIns) (s : State) : Out := facetRow useV1 semSigmoid st f s
def execTanh (st : Nat) (f : FIns) (s : State) : Out := facetRow useV1 semTanh st f s
def execErf (st : Nat) (f : FIns) (s : State) : Out := facetRow useV1 semErf st f s
def execGeluTanh (st : Nat) (f : FIns) (s : State) : Out := facetRow useV1 semGeluTanh st f s
def execGeluErf (st : Nat) (f : FIns) (s : State) : Out := facetRow useV1 semGeluErf st f s
def execSilu (st : Nat) (f : FIns) (s : State) : Out := facetRow useV1 semSilu st f s
def execVrsum (st : Nat) (f : FIns) (s : State) : Out := facetRow useV1 semVrsum st f s
def execVrmax (st : Nat) (f : FIns) (s : State) : Out := facetRow useV1 semVrmax st f s
def execVrmin (st : Nat) (f : FIns) (s : State) : Out := facetRow useV1 semVrmin st f s
def execVriadd (st : Nat) (f : FIns) (s : State) : Out := facetRow useV1 semVriadd st f s
def execVbcast (st : Nat) (f : FIns) (s : State) : Out := facetRow useVbcast semVbcast st f s
def execVext (st : Nat) (f : FIns) (s : State) : Out := facetRow useVext semVext st f s
def execVslide (st : Nat) (f : FIns) (s : State) : Out := facetRow useV2 semVslide st f s
def execVidx (st : Nat) (f : FIns) (s : State) : Out := facetRow useVidx semVidx st f s
def execVperm (st : Nat) (f : FIns) (s : State) : Out := facetRow useV2 semVperm st f s
def execVld (st : Nat) (f : FIns) (s : State) : Out := facetRow useMem semVld st f s
def execVst (st : Nat) (f : FIns) (s : State) : Out := facetRow useMem semVst st f s
def execVldt (st : Nat) (f : FIns) (s : State) : Out := facetRow useVt semVldt st f s
def execVstt (st : Nat) (f : FIns) (s : State) : Out := facetRow useVt semVstt st f s
def execTwait (st : Nat) (f : FIns) (s : State) : Out := facetRow useTwait semTwait st f s
def execTrel (st : Nat) (f : FIns) (s : State) : Out := facetRow useNone semTrel st f s
def execTopen (st : Nat) (f : FIns) (s : State) : Out := facetRow useTsrc semTopen st f s
def execTemit (st : Nat) (f : FIns) (s : State) : Out := facetRow useTsrc semTemit st f s

end Sys2Proof.Machine
end

