-- ==== Sys2Proof/Machine/Host.lean ====
section
/-! DEFINITION. The client frames of the control protocol: sessions, requests, queries (Host Link, Control Protocol and
Exactly-Once Delivery). -/

namespace Sys2Proof.Machine

open Sys2Proof

/-! ### Sessions -/

/-- The version chosen for a client version, if one is (R564). -/
def chooseVersion (a b : Nat) : Option (Nat × Nat) :=
  if 3 ≤ a then some (2, 1) else if a = 2 then some (2, min b 1) else if a = 1 then some (1, min b 4) else none

/-- The token that opens a session of partition `p` (R566). -/
def partToken (s : State) (p : Nat) : Nat := s.reg (A.gnPartTokenLo p) + s.reg (A.gnPartTokenHi p) * 2 ^ 64

/-- The token of an OPEN fits: the management token with partition 255 on the management port, the partition's own on a
25G port (R566, R567). -/
def tokenOk (s : State) (mgmt : Bool) (b : OpenBody) : Bool :=
  if mgmt then b.part == 255 && b.token == setting s 16 0
  else partValid s b.part && b.token == partToken s b.part

/-- A queue pair for a client session: the lowest number not in use, ready, its path MTU one of R557's three and its timeout free values. No
command of the table makes a queue pair, and the manual gives no other way (DESIGN CHOICE, log 41). -/
def State.makeQp (s : State) (port part : Nat) : State × Nat :=
  let n := ((List.range 1024).find? fun n => (tget s.qps n).isNone).getD 0
  let q : QPair := { part := part, port := port, state := 1, mtu := 1024 * 2 ^ (Config.qpMtu s.free % 3), psn := 0, acked := 0, retries := 0, rate := 2 ^ 32,
                     rateAt := s.tb.n, sentAt := s.tb.n, timeout := Config.qpTimeout s.free, ops := [] }
  ({ s with qps := tset s.qps n q }.tickFree, n)

/-- The session record that the journal mirrors, with the session's queue pair (R562, R574). -/
def sessionWrite (s : State) (num : Nat) (ss : Session) : JournalWrite :=
  .session num ss (if ss.mgmt then none else tget s.qps ss.qpn)

/-- OPEN_ACK of a session (Table 9-6). -/
def openAck (num : Nat) (ss : Session) : Response := mkResp 0x02 Cs.ok [num, ss.qpn, ss.nextRes, ss.acked]

/-- OPEN (R564, R566, R567, R572): a new session, or, with RESUME_SESSION, an open one of the same partition taken up again,
whose retained entries are then written again (R584). Refusals are REJECT. -/
def execOpenSession (port : Nat) (h : CtlHdr) (b : OpenBody) (s : State) : Out :=
  let s := s.takeInbox port h
  if ¬ listening s port h.type then ok s
  else
    let mgmt := port == 2
    let rej (st : Nat) : Out := ok (s.reply port 0 (mkResp 0x06 st [0]))
    match chooseVersion h.verMaj h.verMin with
    | none => rej Cs.badFrame
    | some (vM, vm) =>
      if h.magic ≠ 0x4352 ∨ h.status ≠ 0 ∨ 8192 < h.len ∨ h.session ≠ 0 ∨ h.type ≠ 0x01 then rej Cs.badFrame
      else if ¬ tokenOk s mgmt b then rej Cs.badToken
      else if mgmt = false ∧ (b.ringLog2 < 6 ∨ 20 < b.ringLog2) then rej Cs.badFrame
      else if b.resume ≠ 0 then
        match tget s.sessions b.resume with
        | none => rej Cs.noSession
        | some ss =>
          if ss.closed ∨ ss.part ≠ b.part ∨ ss.mgmt ≠ mgmt then rej Cs.noSession
          else
            let ss := { ss with verMaj := vM, verMin := vm, ringAddr := b.ringAddr, rkey := b.rkey, ringLog2 := b.ringLog2
                                clientIp := b.clientIp, seen := [h.frameSeq], answers := [], written := ss.acked }
            let (s, qpn) := if mgmt ∨ (tget s.qps ss.qpn).map QPair.state = some 1 then (s, ss.qpn)
              else s.makeQp port ss.part
            let ss := { ss with qpn := qpn }
            let s := (State.mirror { s with sessions := tset s.sessions b.resume ss } [sessionWrite s b.resume ss]).ackTo b.resume h.ack
            let ss := (tget s.sessions b.resume).getD ss
            ok (s.respond port b.resume h.frameSeq (openAck b.resume ss))
      else
        let (s, qpn) := if mgmt then (s, 0) else s.makeQp port b.part
        let num := s.nextSess
        let ss : Session :=
          { part := b.part, mgmt := mgmt, verMaj := vM, verMin := vm, ringAddr := b.ringAddr, rkey := b.rkey,
            ringLog2 := b.ringLog2, qpn := qpn, clientIp := b.clientIp, seen := [h.frameSeq], answers := [], txSeq := 0,
            nextRes := 1, acked := 0, written := 0, retained := [], closed := false, closeStatus := 0 }
        let s := { s with sessions := tset s.sessions num ss, nextSess := num + 1 }.mirror [sessionWrite s num ss]
        ok (s.respond port num h.frameSeq (openAck num ss))

/-- CLOSE ends the session (R572); its queue pair goes back to reset, and what it retains stays until it is acknowledged (R582). It is answered with ACK (Table 9-6 gives CLOSE no
answer of its own, and R571 asks for one: DESIGN CHOICE, log 42). -/
def execCloseSession (port : Nat) (h : CtlHdr) (s : State) : Out :=
  let s := s.takeInbox port h
  ok (onSession s port h 1 0 0 fun ss s =>
    let s := s.respond port h.session h.frameSeq (mkResp 0x07 Cs.ok [])
    match tget s.sessions h.session with
    | none => s
    | some cur =>
      let s := { s with sessions := tset s.sessions h.session { cur with closed := true } }
      let s := if ss.mgmt then s else { s with qps := tdel s.qps ss.qpn }
      s.mirror [.closed h.session 0])

/-- ACK carries nothing but its header, whose ACK field is taken (R582). -/
def execAck (port : Nat) (h : CtlHdr) (s : State) : Out :=
  let s := s.takeInbox port h
  ok (onSession s port h 1 0 0 fun _ s => s)

/-! ### Requests -/

/-- The fields of a SUBMIT that came with version 2.1 are zero before it (R565, Table 9-7). -/
def submitVersionOk (ss : Session) (b : SubmitBody) : Bool :=
  (ss.verMaj == 2 && ss.verMin == 1) || fld b.w1 55 24 == 0

/-- A SUBMIT that is well formed: a KIND of Table 9-7, reserved bits zero. -/
def submitFormOk (b : SubmitBody) : Bool :=
  (fld b.w1 7 0 == 1 || fld b.w1 7 0 == 2) && fld b.w1 63 56 == 0 && fld b.w4 63 45 == 0

/-- SUBMIT (R565, R567, R574 to R577): a request of the journal gets its ACCEPT again; else a journal entry is written, and
mirrored, and ACCEPT follows, at once with DEGRADED where the standby is not in step, or with the standby's
confirmation. -/
def execSubmit (port : Nat) (h : CtlHdr) (b : SubmitBody) (s : State) : Out :=
  let s := s.takeInbox port h
  let tag := b.w0
  ok (onSession s port h 1 0 tag fun ss s =>
    let rej (st : Nat) : State := s.respond port h.session h.frameSeq (mkResp 0x06 st [tag])
    if ss.mgmt then rej Cs.badFrame
    else if ¬ submitVersionOk ss b then rej Cs.unsupported
    else if ¬ submitFormOk b then rej Cs.badFrame
    else
      match s.requests.find? fun (x : Nat × Request) => x.2.session == h.session && x.2.tag == tag && x.2.state != .expired with
      | some (req, r) =>
        if r.state = .held then s.updReq req fun r => { r with port := port, seq := h.frameSeq }
        else s.respond port h.session h.frameSeq (acceptResp req r)
      | none =>
        if journalFull s then rej Cs.busy
        else
          let req := s.nextReq
          let inStep := paired s && pairSt s == 4
          let r : Request :=
            { session := h.session, part := ss.part, tag := tag, body := b, degraded := !inStep, state := .held,
              highest := none, endSeq := none, journal := 0, port := port, seq := h.frameSeq, cancelled := false, entry := [], tokens := [] }
          let s := s.mirror [.request req r]
          let r := { r with journal := s.pair.journalSent }
          let s := { s with nextReq := req + 1, requests := tset s.requests req r }
          if inStep then s else s.acceptReq req)

/-- CANCEL, PAUSE or RESUME (kinds 1 to 3): from version 2.0, on a client session, of a request of that session; raised as
an event, and answered when the arbiter grants it (R361, R565, R567, R588). -/
def clientOpFrame (port kind : Nat) (h : CtlHdr) (req ttl : Nat) (s : State) : State :=
  onSession (s.takeInbox port h) port h 2 0 0 fun ss s =>
    let no (st : Nat) : State := s.respond port h.session h.frameSeq (mkResp 0x0D st [])
    if ss.mgmt then no Cs.badFrame
    else
      match tget s.requests req with
      | none => no Cs.unknownReq
      | some r =>
        if r.session ≠ h.session then no Cs.notOwner
        else
          let op : ClientOp := { req := req, kind := kind, ttl := ttl, port := port, session := h.session, seq := h.frameSeq }
          ({ s with clientOps := s.clientOps ++ [op] }).raiseP 52 0x0030 r.part (req + kind * 2 ^ 64) none

def execCancel (port : Nat) (h : CtlHdr) (req : Nat) (s : State) : Out := ok (clientOpFrame port 1 h req 0 s)
def execPause (port : Nat) (h : CtlHdr) (req ttl : Nat) (s : State) : Out := ok (clientOpFrame port 2 h req ttl s)
def execResume (port : Nat) (h : CtlHdr) (req : Nat) (s : State) : Out := ok (clientOpFrame port 3 h req 0 s)

/-- The time to live of a paused request's image has passed: raised as an event; a standby leaves it to the active
(R404, R692, Table 6-1). -/
def execTtlExpiry (req : Nat) (s : State) : Out :=
  match nextDue s req with
  | none => ok s
  | some im =>
    if im.due s ∧ mayEmit s ∧ dieOn s ∧ s.frozen = false ∧
        ¬ s.events.any (fun e => e.type == 0x31 && e.payload == req) then
      ok (s.raiseP 52 0x0031 im.part req none)
    else ok s

/-! ### Queries (R569, Table 9-12) -/

/-- A QUERY of an item: from version 2.0. -/
def query (port : Nat) (h : CtlHdr) (s : State) (act : Session → State → State) : Out :=
  ok (onSession (s.takeInbox port h) port h 2 0 0 act)

/-- The wear of the cold tier in percent of its endurance. -/
def coldWear (s : State) : Nat := s.coldBytes * 100 / (5000 * 10 ^ 12)

/-- The ordering code: SK48-A-F and the six decimal digits of the fabric group, as the ASCII bytes of a little-endian number (R6, Table
0-3; the number form is a DESIGN CHOICE, log 101). -/
def orderingCode (s : State) : Nat :=
  leNat ([0x53, 0x4B, 0x34, 0x38, 0x2D, 0x41, 0x2D, 0x46] ++
    [5, 4, 3, 2, 1, 0].map fun k => BitVec.ofNat 8 (0x30 + fld s.fabric (4 * k + 3) (4 * k)))

/-- The inventory record: the items of Table 9-12 in its order, as words. -/
def inventoryWords (s : State) : List Nat :=
  let st := s.reg A.cfgStartStatus
  let b (x : Bool) : Nat := if x then 1 else 0
  [s.serial, s.fabric, orderingCode s, s.fget A.cfgImage A.cfgImage_active, s.fget A.cfgImage A.cfgImage_fallback,
    s.fget A.gnStatus A.gnStatus_approved, b s.tampered, fld st 1 1, fld st 5 2, fld st 63 32, fld st 0 0, b (safe s),
    s.fget A.fcSummary A.fcSummary_safeCause, s.reg A.fcRetired, coldWear s, s.reg A.cfgSettingsReset,
    s.fget A.dbgDumpStatus A.dbgDumpStatus_valid]

def execInventory (port : Nat) (h : CtlHdr) (s : State) : Out :=
  query port h s fun _ s => s.respond port h.session h.frameSeq (mkResp 0x0D Cs.ok (inventoryWords s))

/-- ATTEST_CERT: the certificate is asked of Garnet, for the session's partition, 255 for a management session (R801,
R804). -/
def execAttestCert (port : Nat) (h : CtlHdr) (nonce : List Byte) (s : State) : Out :=
  query port h s fun ss s =>
    if nonce.length = 32 then
      s.askCert { part := if ss.mgmt then 255 else ss.part, nonce := nonce, port := port, session := h.session,
                  seq := h.frameSeq, buf := none }
    else s.respond port h.session h.frameSeq (mkResp 0x0D Cs.badFrame [])

/-- SESSION_STATE: next and highest acknowledged result sequence, retained entries, open requests. -/
def execSessionState (port : Nat) (h : CtlHdr) (s : State) : Out :=
  query port h s fun ss s =>
    if ss.mgmt then s.respond port h.session h.frameSeq (mkResp 0x0D Cs.badFrame [])
    else
      let n := (s.requests.filter fun (x : Nat × Request) =>
        x.2.session == h.session && x.2.state != .ended && x.2.state != .expired).length
      s.respond port h.session h.frameSeq (mkResp 0x0D Cs.ok [ss.nextRes, ss.acked, ss.retained.length, n])

/-- DUMP: up to 4,096 bytes of the held dump, of which the header alone may be held (R569, R876, R878). -/
def execDumpRead (port : Nat) (h : CtlHdr) (offset : Nat) (s : State) : Out :=
  query port h s fun ss s =>
    let size := s.fget A.dbgDumpStatus A.dbgDumpStatus_kib * 1024
    if ¬ ss.mgmt then s.respond port h.session h.frameSeq (mkResp 0x0D Cs.mgmtOnly [])
    else if offset % 4096 ≠ 0 then s.respond port h.session h.frameSeq (mkResp 0x0D Cs.badFrame [])
    else if ¬ s.flag A.dbgDumpStatus A.dbgDumpStatus_valid ∨ size ≤ offset then
      s.respond port h.session h.frameSeq (mkResp 0x0D Cs.noDump [])
    else
      let bs := if s.flag A.dbgDumpStatus A.dbgDumpStatus_headerOnly then s.thimble.dumpHead
        else readBytes s (s.fget A.dbgDumpBase A.dbgDumpBase_base + offset) (min 4096 (size - offset))
      s.respond port h.session h.frameSeq { type := 0x0D, status := Cs.ok, body := [], bytes := bs, seq := 0 }

end Sys2Proof.Machine
end

