-- ==== Sys2Proof/Machine/Image.lean ====
section
/-! DEFINITION. The image opcodes CONV, POOL, ARGMAX and FUSED (Convolution, Pooling and Image Operators). -/

namespace Sys2Proof.Machine

open Sys2Proof

/-! ### Taking and forming raster maps -/

/-- A tile of an input that waits is taken and its slot released, where it has the shape it should. -/
def State.takeShaped (s : State) (slot inp : Nat) (b : InBind) (good : Tile → Bool) : State :=
  match b.window.head? with
  | none => s.upstreamEnd slot
  | some x =>
    if good x then (s.takeTile slot inp).releaseTo slot inp (b.taken.length + 1)
    else s.finish slot St.cmdError Mx.tileShape

/-- The command is done once every output tile is formed and the whole input map is taken. -/
def State.rasterEnd (s : State) (slot total tiles : Nat) : State :=
  match s.cmd? slot with
  | none => s
  | some t =>
    if total ≤ t.work.pos ∧ tiles ≤ ((t.ins[0]?).map fun b => b.taken.length).getD 0 ∧ t.status = none then
      s.reach slot St.done Det.none
    else s.settle slot

/-- One step over a raster map: the next output tile of `total` where the `need` input tiles it rests on are taken, else the
next input tile. -/
def State.rasterStep (s : State) (slot : Nat) (t : Tracked) (d : MapDim) (total need : Nat) (form : State → State) : State :=
  match t.ins[0]? with
  | none => s
  | some b =>
    if t.work.pos < total ∧ need ≤ b.taken.length then
      if roomFor s t then (form s).rasterEnd slot total d.tiles else s
    else (s.takeShaped slot 0 b (d.tileOk b.taken.length)).rasterEnd slot total d.tiles

/-- Segment and slice of output tile `i` of a map, and its row. -/
def MapDim.place (d : MapDim) (i : Nat) : Nat × Nat × Nat := (i / d.rowTiles, i % d.rowTiles / d.slices, i % d.slices)

/-- An output tile of a map: one row per pixel of a segment. -/
def mapTile (d : MapDim) (zc : Bool) (i : Nat) (rows : List OutRow) : Tile :=
  let (_, _, k) := d.place i
  zcTile zc (mkTile d.fmt rows.length (d.sliceBytes k) (i + 1 == d.tiles) (joinRows rows).bytes)

/-- The tiles of the input that output row `y` rests on: through the last input row of its window, clipped (R259). -/
def Geo.needTiles (g : Geo) (y : Nat) : Nat :=
  (min (g.inp.h - 1) (y * g.sh + (g.fh - 1) * g.dh - g.pt) + 1) * g.inp.rowTiles

/-! ### CONV (R250 to R263) -/

/-- Bytes of the line buffer (R257). -/
def Geo.lineBuffer (g : Geo) : Nat := ((g.fh - 1) * g.dh + g.sh) * (g.inp.w + g.pl + g.pr) * g.inp.pixelBytes

/-- FLAG_ADDR as a range of R942. -/
def flagRange (a : Nat) : Nat × Nat := (a, if a = 0 then 0 else 8)

def State.convOpen (s : State) (slot : Nat) (t : Tracked) : State :=
  match convCheck t.opb true, ConvCfg.of t.opb with
  | some d, _ => s.finish slot St.cmdError d
  | none, none => s
  | none, some c =>
    let n := c.geo.cout
    if storeBytesOf 0 < n * bytesFor c.pr.b c.kg + c.e.biasBytes n + c.e.scaleBytes n + c.geo.lineBuffer then
      s.finish slot St.cmdError Mx.storeOvf
    else
      let load := [(opw t.opb 9 47 0, c.e.biasBytes n), (opw t.opb 10 47 0, c.e.scaleBytes n)]
      s.openRanges slot (load ++ [flagRange (opw t.opb 12 47 0)]) load fun s vs => s.engineOpened slot vs

/-- The next output tile of a CONV. -/
def State.convForm (s : State) (slot : Nat) (t : Tracked) (c : ConvCfg) (xs ws : List Tile) (sl : Nat) : State :=
  let d := c.out
  let i := t.work.pos
  let (y, g, k) := d.place i
  let w (n : Nat) : OpRow := operandRow c.pr.b c.kg ws sl (n / 128) (n % 128)
  let rows := (List.range (d.segLen g)).map fun p =>
    c.pixel w (t.loaded[0]?.getD []) (t.loaded[1]?.getD []) (c.geo.inp.at xs) y (128 * g + p) (k * d.sc) (d.sliceLen k)
  let o := joinRows rows
  let s := if k = 0 then s.count t.station 3 (c.cycles (d.segLen g)) t else s
  (s.gather slot (i + 1) o.flags o.sat).formTile slot 0 (mapTile d c.e.zc i rows)

def State.convStep (s : State) (slot : Nat) (t : Tracked) (c : ConvCfg) : State :=
  match t.ins[0]?, t.ins[1]? with
  | some xb, some wb =>
    let sizes := sliceSizes c.kg wb.taken
    let good (x : Tile) : Bool := sliceOk c.pr.b c.geo.cout c.kg (c.pr.fam == .b16) sizes wb.taken.length x
    match slicesOf c.kg sizes with
    | none => s.takeShaped slot 1 wb good
    | some sl =>
      if wb.taken.length < ceilDiv c.geo.cout 128 * sl then s.takeShaped slot 1 wb good
      else
        let y := t.work.pos / c.out.rowTiles
        s.rasterStep slot t c.geo.inp c.out.tiles (c.geo.needTiles y) fun s => s.convForm slot t c xb.taken wb.taken sl
  | _, _ => s

/-- A CONV opens, takes a tile of its weights or its map, or forms an output tile. -/
def execConv (slot : Nat) (s : State) : Out :=
  match runningCmd s slot 0x40 with
  | none => ok s
  | some t =>
    if ¬ t.work.opened then ok (s.convOpen slot t)
    else
      match ConvCfg.of t.opb with
      | none => ok s
      | some c => ok (s.convStep slot t c)

/-! ### POOL (R269 to R274) -/

/-- A POOL opens, takes a tile of its map, or forms an output tile. -/
def execPool (slot : Nat) (s : State) : Out :=
  match runningCmd s slot 0x41 with
  | none => ok s
  | some t =>
    let p := PoolCfg.of t.opb
    if ¬ t.work.opened then
      match poolCheck t.opb true with
      | some d => ok (s.finish slot St.cmdError d)
      | none => ok (s.openRanges slot [flagRange (opw t.opb 7 47 0)] [] fun s _ => s.engineOpened slot [])
    else
      let d := p.out
      let i := t.work.pos
      let (y, g, k) := d.place i
      let xs := ((t.ins[0]?).map InBind.taken).getD []
      ok (s.rasterStep slot t p.geo.inp d.tiles (p.geo.needTiles y) fun s =>
        let rows := (List.range (d.segLen g)).map fun x => p.pixel (p.geo.inp.at xs) y (128 * g + x) (k * d.sc) (d.sliceLen k)
        let o := joinRows rows
        let s := if k = 0 then s.count t.station 3 (p.cycles (d.segLen g)) t else s
        (s.gather slot (i + 1) o.flags o.sat).formTile slot 0 (mapTile d p.zc i rows))

/-! ### ARGMAX (R275 to R278) -/

/-- The dimensions of an ARGMAX's input map. -/
def argmaxDim (opb : List Byte) : MapDim :=
  { w := opw opb 4 15 0 + 1, h := opw opb 4 31 16 + 1, c := opw opb 4 47 32 + 1, fmt := opw opb 5 4 0 }

def argmaxReserved (opb : List Byte) : Bool :=
  opw opb 4 63 48 == 0 && opw opb 5 63 5 == 0 && opw opb 6 63 0 == 0 && opw opb 7 63 0 == 0

/-- An ARGMAX opens, takes a tile of its map, or forms the tiles of a segment: indices, and winning values where OUT1 is
bound. -/
def execArgmax (slot : Nat) (s : State) : Out :=
  match runningCmd s slot 0x42 with
  | none => ok s
  | some t =>
    let d := argmaxDim t.opb
    if ¬ t.work.opened then
      if ¬ argmaxReserved t.opb then ok (s.finish slot St.cmdError Det.reservedNonzero)
      else if ¬ poolFormat d.fmt then ok (s.finish slot St.cmdError Im.format)
      else ok (s.engineOpened slot [])
    else
      let i := t.work.pos
      let total := d.h * d.segs
      let g := i % d.segs
      let xs := ((t.ins[0]?).map InBind.taken).getD []
      ok (s.rasterStep slot t d total ((i + 1) * d.slices) fun s =>
        let ws := (List.range (d.segLen g)).map fun x =>
          argmaxOf d.fmt (unpackCodes (elemBits d.fmt) d.c (d.pixel xs (i / d.segs) (128 * g + x)))
        let last := i + 1 == total
        let s := (s.count t.station 3 (ceilDiv (d.segLen g * d.c) 256) t).gather slot (i + 1) 0 0
        let s := s.formTile slot 0 (mkTile 0x01 ws.length 2 last (ws.flatMap fun w => leBytes 2 w.1))
        if t.outs.length = 2 then
          let b := unitBytes d.fmt
          s.formTile slot 1 (mkTile d.fmt ws.length b last (ws.flatMap fun w => leBytes b w.2))
        else s)

/-! ### FUSED (R279 to R289) -/

/-- A layer of a FUSED command. -/
inductive Layer where
  | conv (c : ConvCfg)
  | pool (p : PoolCfg)
  deriving DecidableEq, Repr

def Layer.geo : Layer → Geo
  | .conv c => c.geo
  | .pool p => p.geo
def Layer.out : Layer → MapDim
  | .conv c => c.out
  | .pool p => p.out
def Layer.zc : Layer → Bool
  | .conv c => c.e.zc
  | .pool p => p.zc

/-- The block of layer `l`, counted from 0, of a FUSED operand block: the 72 bytes after its word 0. -/
def fusedBlock (opb : List Byte) (l : Nat) : List Byte := (opb.drop (40 + 80 * l)).take 72
def fusedHead (opb : List Byte) (l : Nat) : Nat := leNat ((opb.drop (32 + 80 * l)).take 8)

/-- The layers; none where LAYER_OP or a pair is not one. -/
def fusedLayer (opb : List Byte) (l : Nat) : Option Layer :=
  match fusedHead opb l % 256 with
  | 0x40 => (ConvCfg.of (fusedBlock opb l)).map .conv
  | 0x41 => some (.pool (PoolCfg.of (fusedBlock opb l)))
  | _ => none

def fusedCount (opb : List Byte) : Nat := opw opb 4 2 0
def fusedLayers (opb : List Byte) : List Layer := (List.range (fusedCount opb)).filterMap (fusedLayer opb)

/-- The check of one layer: that of CONV or POOL, its reserved bits and W_ADDR's alignment (R280, R281; DEDUCED, log 57). -/
def fusedLayerCheck (opb : List Byte) (l : Nat) : Option Nat :=
  let h := fusedHead opb l
  let b := fusedBlock opb l
  let last := l + 1 == fusedCount opb
  if fld h 15 8 ≠ 0 then some Det.reservedNonzero
  else
    match h % 256 with
    | 0x40 => if opw b 12 47 0 ≠ 0 then some Det.reservedNonzero
      else if fld h 63 16 % 8 ≠ 0 then some Det.operandRange else convCheck b last
    | 0x41 => if fld h 63 16 ≠ 0 ∨ opw b 7 47 0 ≠ 0 ∨ (b.drop 32).any (· != 0) then some Det.reservedNonzero
      else poolCheck b last
    | _ => some Im.fuseLayers

/-- The output of one layer is the input of the next: dimensions and channels, or the format (R281). -/
def chainFault : List Layer → Option Nat
  | a :: b :: r =>
    let i := b.geo.inp
    let o := a.out
    if i.w ≠ o.w ∨ i.h ≠ o.h ∨ i.c ≠ o.c then some Im.fuseChain
    else if i.fmt ≠ o.fmt then some Mx.tileShape
    else chainFault (b :: r)
  | _ => none

/-- A rectangle of a map: first row, rows, first column, columns. -/
structure Rect where
  y : Int
  h : Nat
  x : Int
  w : Nat
  deriving DecidableEq, Repr

/-- The region of a layer's input that a region of its output rests on (R279). -/
def Layer.back (l : Layer) (r : Rect) : Rect :=
  let g := l.geo
  { y := r.y * g.sh - g.pt, h := (r.h - 1) * g.sh + (g.fh - 1) * g.dh + 1
    x := r.x * g.sw - g.pl, w := (r.w - 1) * g.sw + (g.fw - 1) * g.dw + 1 }

/-- The regions of a block in the outputs of layers 0 to L, layer 0 first. -/
def regionsOf : List Layer → Rect → List Rect
  | [], r => [r]
  | l :: ls, r =>
    match regionsOf ls r with
    | [] => [r]
    | q :: qs => l.back q :: q :: qs

/-- A rectangle clipped to a map. -/
def Rect.clip (r : Rect) (d : MapDim) : Rect :=
  let y0 := max 0 r.y
  let x0 := max 0 r.x
  { y := y0, h := (min (d.h : Int) (r.y + r.h) - y0).toNat, x := x0, w := (min (d.w : Int) (r.x + r.w) - x0).toNat }

/-- Block height and width, and the rectangle of block `b` of the output map in raster order. -/
def blockRect (opb : List Byte) (out : MapDim) (b : Nat) : Rect :=
  let bh := opw opb 4 15 8 + 1
  let bw := opw opb 4 22 16 + 1
  let nx := ceilDiv out.w bw
  { y := (b / nx * bh : Nat), h := bh, x := (b % nx * bw : Nat), w := bw }

def blockCount (opb : List Byte) (out : MapDim) : Nat :=
  ceilDiv out.h (opw opb 4 15 8 + 1) * ceilDiv out.w (opw opb 4 22 16 + 1)

/-- The first and last layers' maps. -/
def fusedIn (ls : List Layer) : MapDim := ((ls.head?).map fun l => l.geo.inp).getD { w := 1, h := 1, c := 1, fmt := 0 }
def fusedOut (ls : List Layer) : MapDim := ((ls.getLast?).map Layer.out).getD { w := 1, h := 1, c := 1, fmt := 0 }

/-- The clipped layer-0 region of a block. -/
def inRegion (opb : List Byte) (ls : List Layer) (b : Nat) : Rect :=
  ((regionsOf ls (blockRect opb (fusedOut ls) b)).headD { y := 0, h := 0, x := 0, w := 0 }).clip (fusedIn ls)

/-- The input tiles, or the output tiles, of a block: one per row and slice (R283, R286). -/
def blockTilesIn (opb : List Byte) (ls : List Layer) (b : Nat) : Nat := (inRegion opb ls b).h * (fusedIn ls).slices
def blockTilesOut (opb : List Byte) (ls : List Layer) (b : Nat) : Nat :=
  ((blockRect opb (fusedOut ls) b).clip (fusedOut ls)).h * (fusedOut ls).slices

/-- The block that tile `i` of a sequence of blocks belongs to, and its place in it. `fuel` bounds the blocks. -/
def findBlock (size : Nat → Nat) : Nat → Nat → Nat → Nat × Nat
  | 0, b, i => (b, i)
  | f + 1, b, i => if i < size b then (b, i) else findBlock size f (b + 1) (i - size b)

/-- The tiles of the first `n` blocks. -/
def tilesBefore (size : Nat → Nat) (n : Nat) : Nat := ((List.range n).map size).sum

/-- The pixels of a region. -/
structure Region where
  r  : Rect
  px : List (List (List Byte))

def Region.at (g : Region) : PixelAt := fun y x =>
  if g.r.y ≤ y ∧ g.r.x ≤ x then (g.px[(y - g.r.y).toNat]?).bind fun row => row[(x - g.r.x).toNat]? else none

/-- A layer computed over the in-map part of a region of its output (R285, R288): its pixels, with the flags and saturated
elements of all of them. -/
def Layer.run (l : Layer) (vs : List (List Byte)) (src : Region) (r : Rect) : Region × OutRow :=
  let d := l.out
  let q := r.clip d
  let one (y x : Nat) : OutRow := match l with
    | .conv c =>
      let w (n : Nat) : OpRow :=
        let k := bytesFor c.pr.b c.kg
        elemRow c.pr.b (((vs.getD 0 []).drop (n * k)).take k)
      c.pixel w (vs.getD 1 []) (vs.getD 2 []) src.at y x 0 d.c
    | .pool p => p.pixel src.at y x 0 d.c
  let rows := (List.range q.h).map fun y => (List.range q.w).map fun x => one (q.y.toNat + y) (q.x.toNat + x)
  ({ r := q, px := rows.map fun w => w.map OutRow.bytes }, joinRows rows.flatten)

/-- The layers run one after the other over a block's regions. -/
def runLayers : List Layer → List (List (List Byte)) → List Rect → Region → Region × OutRow
  | l :: ls, v :: vs, r :: rs, src =>
    let (g, o) := l.run v src r
    let (g', o') := runLayers ls vs rs g
    (g', { bytes := [], flags := o.flags ||| o'.flags, sat := o.sat + o'.sat })
  | _, _, _, src => (src, { bytes := [], flags := 0, sat := 0 })

/-- The vectors of each layer as loaded: weights, bias, scale. -/
def layerVectors (loaded : List (List Byte)) : Nat → List (List (List Byte))
  | 0 => []
  | n + 1 => loaded.take 3 :: layerVectors (loaded.drop 3) n

/-- The output region of a block from the tiles of its input region. -/
def runBlock (opb : List Byte) (ls : List Layer) (loaded : List (List Byte)) (b : Nat) (ts : List Tile) : Region × OutRow :=
  let d := fusedIn ls
  let q := inRegion opb ls b
  let px := (List.range q.h).map fun y => (List.range q.w).map fun x =>
    (List.range d.slices).flatMap fun k => match ts[y * d.slices + k]? with
      | some t => rowOf t x
      | none => []
  runLayers ls (layerVectors loaded ls.length) ((regionsOf ls (blockRect opb (fusedOut ls) b)).drop 1) { r := q, px := px }

/-- Bytes of a region of a map, unclipped. -/
def Rect.bytes (r : Rect) (d : MapDim) : Nat := r.h * r.w * d.pixelBytes

/-- The memory of a layer: weights, bias and scale (R942). -/
def layerRanges (opb : List Byte) (i : Nat) (l : Layer) : List (Nat × Nat) :=
  match l with
  | .conv c =>
    let b := fusedBlock opb i
    let n := c.geo.cout
    [(fld (fusedHead opb i) 63 16, n * bytesFor c.pr.b c.kg), (opw b 9 47 0, c.e.biasBytes n), (opw b 10 47 0, c.e.scaleBytes n)]
  | .pool _ => [(0, 0), (0, 0), (0, 0)]

/-- The operand store that a FUSED needs (R287). -/
def fusedStore (opb : List Byte) (ls : List Layer) : Nat :=
  let maps := fusedIn ls :: ls.map Layer.out
  let sizes := ((regionsOf ls (blockRect opb (fusedOut ls) 0)).zip maps).map fun x => x.1.bytes x.2
  let pairs := (sizes.zip (sizes.drop 1)).map fun p => p.1 + p.2
  ((ls.mapIdx (layerRanges opb)).flatten.map Prod.snd).sum + sizes.headD 0 + pairs.foldl max 0

def fusedReserved (opb : List Byte) : Bool :=
  opw opb 4 7 3 == 0 && opw opb 4 63 23 == 0 && opw opb 5 63 48 == 0 && opw opb 6 63 0 == 0 && opw opb 7 63 0 == 0

/-- The checks of a FUSED at dispatch, first failing first (R280, R281, R283, R287; DESIGN CHOICE, log 52). -/
def fusedCheck (t : Tracked) : Option Nat :=
  let opb := t.opb
  let n := fusedCount opb
  let ls := fusedLayers opb
  if ¬ fusedReserved opb then some Det.reservedNonzero
  else if n = 0 ∨ 6 < n then some Im.fuseLayers
  else if t.desc.opbLen < 32 + 80 * n then some Det.opbLength
  else
    match (List.range n).findSome? (fusedLayerCheck opb) with
    | some d => some d
    | none =>
      match chainFault ls with
      | some d => some d
      | none =>
        if 128 < ((regionsOf ls (blockRect opb (fusedOut ls) 0)).headD { y := 0, h := 0, x := 0, w := 0 }).w then some Im.fuseRegion
        else if storeBytesOf 0 < fusedStore opb ls then some Mx.storeOvf
        else none

/-- The array cycles of `p` output pixels of a layer (R260, R261, R274). -/
def Layer.cycles (l : Layer) (p : Nat) : Nat :=
  match l with
  | .conv c => c.cycles p
  | .pool c => c.cycles p

/-- The array cycles of a block: the sum over its layers, each over the part of its region that lies in its map (R289). -/
def blockCycles (opb : List Byte) (ls : List Layer) (b : Nat) : Nat :=
  let rs := (regionsOf ls (blockRect opb (fusedOut ls) b)).drop 1
  ((ls.zip rs).map fun z => let q := z.2.clip z.1.out; z.1.cycles (q.h * q.w)).sum

/-- The next output tile of a FUSED: a row and slice of a block; the flags and the cycles of the block count with its first. -/
def State.fusedForm (s : State) (slot : Nat) (t : Tracked) (ls : List Layer) (ts : List Tile) (b i total : Nat) : State :=
  let d := fusedOut ls
  let before := tilesBefore (blockTilesIn t.opb ls) b
  let (g, o) := runBlock t.opb ls t.loaded b (ts.drop before)
  let k := i % d.slices
  let off := ((List.range k).map d.sliceBytes).sum
  let rows := ((g.px[i / d.slices]?).getD []).map fun px => (px.drop off).take (d.sliceBytes k)
  let zc := ((ls.getLast?).map Layer.zc).getD false
  let x := zcTile zc (mkTile d.fmt rows.length (d.sliceBytes k) (t.work.pos + 1 == total) rows.flatten)
  let s := if i = 0 then s.count t.station 3 (blockCycles t.opb ls b) t else s
  (s.gather slot (t.work.pos + 1) (if i = 0 then o.flags else 0) (if i = 0 then o.sat else 0)).formTile slot 0 x

/-- A tile of a block's input region has its shape (R283): place `i` of block `b`. -/
def fusedTileOk (opb : List Byte) (ls : List Layer) (b i total idx : Nat) (x : Tile) : Bool :=
  let d := fusedIn ls
  decide (x.format = d.fmt ∧ tileRows x = (inRegion opb ls b).w ∧ tileRowBytes x = d.sliceBytes (i % d.slices)) &&
    (x.last == decide (idx + 1 = total))

def State.fusedStep (s : State) (slot : Nat) (t : Tracked) (ls : List Layer) : State :=
  match t.ins[0]? with
  | none => s
  | some xb =>
    let nb := blockCount t.opb (fusedOut ls)
    let sin := blockTilesIn t.opb ls
    let sout := blockTilesOut t.opb ls
    let totalIn := tilesBefore sin nb
    let totalOut := tilesBefore sout nb
    let (b, i) := findBlock sout nb 0 t.work.pos
    let have_ := xb.taken.length
    if t.work.pos < totalOut ∧ tilesBefore sin (b + 1) ≤ have_ ∧ roomFor s t then
      (s.fusedForm slot t ls xb.taken b i totalOut).rasterEnd slot totalOut totalIn
    else if have_ < min totalIn (tilesBefore sin (b + 2)) then
      let (ib, k) := findBlock sin nb 0 have_
      (s.takeShaped slot 0 xb (fusedTileOk t.opb ls ib k totalIn have_)).rasterEnd slot totalOut totalIn
    else s

/-- A FUSED opens and loads its layers, takes a tile of a region, or forms an output tile. -/
def execFused (slot : Nat) (s : State) : Out :=
  match runningCmd s slot 0x43 with
  | none => ok s
  | some t =>
    let ls := fusedLayers t.opb
    if ¬ t.work.opened then
      match fusedCheck t with
      | some d => ok (s.finish slot St.cmdError d)
      | none =>
        let load := (ls.mapIdx (layerRanges t.opb)).flatten
        ok (s.openRanges slot (load ++ [flagRange (opw t.opb 5 47 0)]) load fun s vs => s.engineOpened slot vs)
    else ok (s.fusedStep slot t ls)

end Sys2Proof.Machine
end

