-- ==== Sys2Proof/Machine/Rdma.lean ====
section
/-! DEFINITION. RoCEv2 commands: RREAD, RWRITE, responses, retries and congestion; RESULT and the result ring (Host Link,
Control Protocol and Exactly-Once Delivery). -/

namespace Sys2Proof.Machine

open Sys2Proof

/-- The queue pair that a command names, where it is of the command's partition and ready (R561). -/
def readyQp (s : State) (t : Tracked) : Option QPair :=
  match tget s.qps (opw t.opb 4 9 0) with
  | some q => if q.part = t.part ∧ q.state = 1 then some q else none
  | none => none

/-- The operation of a command at the head of its queue pair whose bytes have all come. -/
def fullOp (q : QPair) (slot : Nat) : Option RdmaOp :=
  match q.ops.find? fun o => o.slot == some slot with
  | some o => if o.full then some o else none
  | none => none

/-- An RREAD emits the tile whose bytes have come, or issues the READ of its next tile, up to 16 outstanding on its queue
pair (R557, R560). -/
def execRread (slot : Nat) (s : State) : Out :=
  match runningCmd s slot 0x78 with
  | none => ok s
  | some t =>
    let qpn := opw t.opb 4 9 0
    match readyQp s t with
    | none => ok (s.finish slot St.cmdError 0x01C0)
    | some q =>
      let n := opw t.opb 6 31 0
      let fmt := opw t.opb 4 29 25
      let rb := opw t.opb 4 24 17 + 1
      let rows (i : Nat) : Nat := if i + 1 = n then opw t.opb 6 38 32 + 1 else opw t.opb 4 16 10 + 1
      match fullOp q slot, roomFor s t with
      | some o, true =>
        let i := t.work.aux
        let s := { s with qps := tset s.qps qpn { q with ops := q.ops.erase o } }
        let s := s.updCmd slot fun u => { u with work := { u.work with aux := i + 1 } }
        let s := s.formTile slot 0 (mkTile fmt (rows i) rb (i + 1 == n) o.bytes)
        ok (if i + 1 = n then s.reach slot St.done Det.none else s.settle slot)
      | _, _ =>
        let i := t.work.pos
        if i < n ∧ (q.ops.filter fun o => o.read && !o.full).length < 16 then
          let a := opw t.opb 5 63 0 + i * ((opw t.opb 4 16 10 + 1) * rb)
          let s := s.updCmd slot fun u => { u with work := { u.work with pos := i + 1 } }
          ok (s.issue qpn true a (opw t.opb 4 63 32) (rows i * rb) [] (some slot))
        else ok s

/-- An RWRITE writes its next tile, expanded, to the next remote bytes; after the LAST tile it waits for the responder's
acknowledgement (R560). -/
def execRwrite (slot : Nat) (s : State) : Out :=
  match runningCmd s slot 0x79 with
  | none => ok s
  | some t =>
    let qpn := opw t.opb 4 9 0
    match readyQp s t with
    | none => ok (s.finish slot St.cmdError 0x01C0)
    | some _ =>
      match (t.ins[0]?).bind fun b => b.window.head? with
      | none => ok (s.upstreamEnd slot)
      | some x =>
        let bs := expand x
        let s := (s.takeTile slot 0).releaseTo slot 0 (2 ^ 32)
        let s := s.issue qpn false (opw t.opb 5 63 0 + t.work.pos) (opw t.opb 4 63 32) bs.length bs (some slot)
        ok (s.updCmd slot fun u =>
          { u with work := { u.work with pos := u.work.pos + bs.length, aux := if x.last then 1 else 0 } })

/-- The packet number nearest ahead of the acknowledged one that 24 bits name; none where it lies behind. -/
def psnOf (acked p : Nat) : Option Nat :=
  let d := (p + 2 ^ 24 - acked % 2 ^ 24) % 2 ^ 24
  if d < 2 ^ 23 then some (acked + d) else none

/-- The first packet of a READ that has not come: an acknowledgement of a later packet does not pass it, and it is sent again with what
follows (R557; the rule is RoCEv2's, PRESUMED, log 41). -/
def QPair.ackLimit (q : QPair) (n : Nat) : Nat :=
  ((q.ops.filter fun o => o.read && !o.full).map fun o => o.psn + o.bytes.length / q.mtu).foldl min n

/-- Packets acknowledged below a number: the writes that end below it are done, and the retry count starts again. -/
def QPair.ackBelow (q : QPair) (m now_ : Nat) : QPair :=
  let n := q.ackLimit m
  { q with acked := max q.acked n, retries := 0, sentAt := now_
           ops := q.ops.filter fun o => o.read || decide (n < o.psn + o.npkts) }

/-- READ data with a packet number: it joins its operation where it is the next packet of it (go-back-N). -/
def QPair.takeData (q : QPair) (n : Nat) (bs : List Byte) : QPair :=
  { q with ops := q.ops.map fun o =>
      if o.read && !o.full && o.psn + o.bytes.length / q.mtu == n then { o with bytes := (o.bytes ++ bs).take o.len } else o }

/-- A response of a responder at the RoCEv2 engine (R557, R560, R562). -/
def execRdmaResponse (qpn : Nat) (r : RdmaResp) (s : State) : Out :=
  let s := { s with rdmaIn := s.rdmaIn.erase (qpn, r) }
  match tget s.qps qpn with
  | none => ok s
  | some q =>
    if q.state ≠ 1 ∨ ¬ dieOn s ∨ s.frozen then ok s
    else
      match r with
      | .readData p bs =>
        match psnOf q.acked p with
        | none => ok s
        | some n =>
          let hit := q.ops.any fun o => o.read && !o.full && o.psn + o.bytes.length / q.mtu == n
          if hit then
            ok ({ s with qps := tset s.qps qpn ((q.takeData n bs).ackBelow (n + 1) s.tb.n) }.settleWrites qpn)
          else ok s
      | .ack p =>
        match psnOf q.acked p with
        | none => ok s
        | some n => ok ({ s with qps := tset s.qps qpn (q.ackBelow (n + 1) s.tb.n) }.settleWrites qpn)
      | .seqNak p =>
        match psnOf q.acked p with
        | none => ok s
        | some n => ok (({ s with qps := tset s.qps qpn (q.ackBelow n s.tb.n) }.settleWrites qpn).resend qpn n)
      | .accessNak _ => ok (s.qpError qpn)

/-- The retry timeout of a queue pair passes (R557): its packets go out again, or, after 7 retries, it enters the error
state. A module that does not transmit follows the other's packets (R562). -/
def execRdmaRetryTimeout (qpn : Nat) (s : State) : Out :=
  match tget s.qps qpn with
  | none => ok s
  | some q =>
    if q.state = 1 ∧ q.ops.any (fun o => !o.full) ∧ q.sentAt + q.timeout ≤ s.tb.n ∧ mayEmit s ∧ dieOn s ∧ s.frozen = false then
      if 7 ≤ q.retries then ok (s.qpError qpn)
      else ok ({ s with qps := tset s.qps qpn { q with retries := q.retries + 1 } }.resend qpn q.acked)
    else ok s

/-- A congestion notification packet halves the send rate of a queue pair (R558). -/
def execCongestionNotification (qpn : Nat) (s : State) : Out :=
  let s := { s with cnpIn := s.cnpIn.erase qpn }
  match tget s.qps qpn with
  | some q => if dieOn s then ok { s with qps := tset s.qps qpn { q with rate := q.rate / 2, rateAt := s.tb.n } } else ok s
  | none => ok s

/-- 55 µs pass without a further notification: the rate rises by 1/16 of line rate (R558). -/
def execRateIncrease (qpn : Nat) (s : State) : Out :=
  match tget s.qps qpn with
  | some q =>
    if q.rate < 2 ^ 32 ∧ q.rateAt + 55 * tUs ≤ s.tb.n ∧ dieOn s then
      ok { s with qps := tset s.qps qpn { q with rate := min (2 ^ 32) (q.rate + 2 ^ 28), rateAt := s.tb.n } }
    else ok s
  | none => ok s

/-! ### RESULT and the result ring (R579 to R584) -/

/-- One record of a RESULT (R579, R580, R583): a header passes; a token record gets the session's next result sequence
unless its index was assigned before; a record of a cancelled request gets none. A record of another kind is the
runtime's terminal record, with its status in bits 15:0 of word 1 (its layout is not given: DESIGN CHOICE, log 40): it gives the request
one entry, of zeros but for REQ_SEQ, unless it has its END (R583, Table 9-10).
Answers none where the request names no open session (R589). -/
def State.resultRecord (s : State) (rec_ : List Byte) : Option State :=
  let kind := leNat ((rec_.drop 24).take 1)
  if kind = 1 then some s
  else
    let req := leNat (rec_.take 8)
    let w1 := leNat ((rec_.drop 8).take 8)
    let last := kind != 2 || (leNat ((rec_.drop 20).take 1)).testBit 0
    match tget s.requests req with
    | none => none
    | some r =>
      if r.cancelled then
        some (if last then { s with requests := tdel s.requests req }.mirror [.free req] else s)
      else
        match tget s.sessions r.session with
        | none => none
        | some ss =>
          let idx := fld w1 63 32
          let old := if kind = 2 then (match r.highest with | some h => decide (idx ≤ h) | none => false)
            else r.endSeq.isSome || r.state == .ended
          if ss.closed then none
          else if old then some s
          else
            let s := s.updReq req fun r =>
              { r with
                  state := if r.state = .prefill ∨ r.state = .decode then (if last then .ended else .decode) else r.state
                  highest := if kind = 2 then some idx else r.highest
                  endSeq := if last then some ss.nextRes else r.endSeq }
            some (if kind = 2 then s.retain r.session req 0 rec_ else s.retain r.session req (fld w1 15 0) (leBytes 8 req))

/-- The records of a tile, one after another. -/
def State.resultRecords (s : State) : List (List Byte) → Option State
  | [] => some s
  | r :: rest => match s.resultRecord r with | some s => s.resultRecords rest | none => none

/-- RESULT retains the records of its next tile; it completes once every record of its input is retained (R579). -/
def execResult (slot : Nat) (s : State) : Out :=
  match runningCmd s slot 0x7A with
  | none => ok s
  | some t =>
    match (t.ins[0]?).bind fun b => b.window.head? with
    | none => ok (s.upstreamEnd slot)
    | some x =>
      if tileRowBytes x ≠ 32 then ok (s.finish slot St.cmdError Det.tileFormat)
      else
        match s.resultRecords ((List.range (tileRows x)).map (rowOf x)) with
        | none => ok (s.finish slot St.cmdError 0x01C2)
        | some s =>
          let s := (s.takeTile slot 0).releaseTo slot 0 (2 ^ 32)
          ok (if x.last then s.reach slot St.done Det.none else s)

/-- The NX writes a session's next retained entry into its result ring, in sequence order, within the ring's size of the
acknowledged sequence, and once the records it rests on are confirmed (R581, R694). A standby's queue pair follows without transmitting
(R562). -/
def execResultRingWrite (session : Nat) (s : State) : Out :=
  match tget s.sessions session with
  | none => ok s
  | some ss =>
    let n := ss.written + 1
    match ss.retained.find? fun e => e.resSeq == n with
    | none => ok s
    | some e =>
      if n ≤ ss.acked + 2 ^ ss.ringLog2 ∧ (mayEmit s ∨ follows s) ∧ ¬ safe s ∧ dieOn s ∧ ¬ s.frozen ∧ confirmed s e.journal e.decision ∧
          ¬ ss.mgmt ∧ (tget s.qps ss.qpn).map QPair.state = some 1 then
        let s := { s with sessions := tset s.sessions session { ss with written := n } }
        ok (s.issue ss.qpn false (ss.ringAddr + 64 * (n % 2 ^ ss.ringLog2)) ss.rkey 64 e.bytes none)
      else ok s

end Sys2Proof.Machine
end

