-- ==== Sys2Proof/Machine/Update.lean ====
section
/-! DEFINITION. Image and settings delivery: the operations of FW_BLOCK and the staging area (R897 to R908, R912). -/

namespace Sys2Proof.Machine

open Sys2Proof

/-- TARGET = 1: the settings record. -/
def forSettings (b : FwBody) : Bool := b.flags.testBit 0

/-- The bytes that a target must hold: of a container, 4,096 and LENGTH; of a settings record, its LENGTH. -/
def targetSize (s : State) (settings : Bool) : Option Nat :=
  if settings then
    match tget s.store.settings 0 with
    | some b => if 12 ≤ b.length then some (leNat ((b.drop 8).take 4)) else none
    | none => none
  else (stagedHdr s).map fun h => 4096 + h.length

/-- The blocks of a target. -/
def stageTarget (s : State) (settings : Bool) : Tab (List Byte) := if settings then s.store.settings else s.store.staging

/-- Every block of a target of a size is written, each as long as it must be (R899). -/
def targetFull (t : Tab (List Byte)) (size : Nat) : Bool :=
  (List.range ((size + 4095) / 4096)).all fun k => ((tget t k).map List.length) == some (min 4096 (size - 4096 * k))

/-- A target holds all that its header asks for. -/
def targetDone (s : State) (settings : Bool) : Bool :=
  match targetSize s settings with
  | some n => decide (n ≤ (if settings then 65536 else 0x2000000)) && targetFull (stageTarget s settings) n
  | none => false

/-- The status of the last operation, in CFG_STAGE_STATUS.RESULT. -/
def State.fwResult (s : State) (st : Nat) : State := s.fset A.cfgStageStatus A.cfgStageStatus_result st

/-- An FW_BLOCK operation on a management session; on another it is refused with MGMT_ONLY (R898). The action gives the
state and the status of the REPLY. -/
def fwOp (port : Nat) (h : CtlHdr) (s : State) (act : State → State × Nat) : Out :=
  ok (onSession (s.takeInbox port h) port h 1 0 0 fun ss s =>
    if ss.mgmt then
      let (s, st) := act s
      (s.fwResult st).respond port h.session h.frameSeq (mkResp 0x0D st [])
    else s.respond port h.session h.frameSeq (mkResp 0x0D Cs.mgmtOnly []))

/-- The check of a DATA block's place and length (R899): 0 where it lies within the target. -/
def blockStatus (s : State) (b : FwBody) : Nat :=
  let limit := if forSettings b then 65536 else 0x2000000
  if b.data.length ≠ b.len then Cs.badFrame
  else if b.offset % 4096 ≠ 0 ∨ b.len < 1 ∨ 4096 < b.len ∨ limit < b.offset + b.len then 17
  else
    match targetSize s (forSettings b) with
    | some n => if b.len < 4096 ∧ b.offset + b.len ≠ n then 17 else 0
    | none => 0

/-- A block programmed; staging shows its state, its blocks, and the header's VERSION and LENGTH once block 0 is there. -/
def State.programBlock (s : State) (b : FwBody) : State :=
  let k := b.offset / 4096
  if forSettings b then { s with store := { s.store with settings := tset s.store.settings k b.data } }
  else
    let s := { s with store := { s.store with staging := tset s.store.staging k b.data } }
    let s := s.fset A.cfgStageStatus A.cfgStageStatus_blocks s.store.staging.length
    let s := match stagedHdr s with
      | some h => s.setReg A.cfgStageImage (h.version + h.length * 2 ^ 32)
      | none => s
    s.fset A.cfgStageStatus A.cfgStageStatus_state (if targetDone s false then 2 else 1)

/-- A program failure of the store: counted, reported as source 155, and the status that it gives the operation (R912). -/
def State.programFails (s : State) (settings : Bool) : State × Nat :=
  ((s.bump A.cfgStoreErr A.cfgStoreErr_programFail 1).reportFault 155 2 0, if settings then 24 else 22)

/-- DATA (R899, R912, Table 18-7). -/
def execFwData (port : Nat) (h : CtlHdr) (b : FwBody) (s : State) : Out :=
  fwOp port h s fun s =>
    let st := blockStatus s b
    if ¬ forSettings b ∧ ¬ (stageState s = 0 ∨ stageState s = 1) then (s, 16)
    else if st ≠ 0 then (s, st)
    else
      match tget (stageTarget s (forSettings b)) (b.offset / 4096) with
      | some old => if old = b.data then (s, 0) else (s, 18)
      | none => if b.fails then s.programFails (forSettings b) else (s.programBlock b, 0)

/-! ### Settings records (R908) -/

/-- The fields after the header: ID, VER, and the value of LEN bytes. `fuel` bounds their number. -/
def parseFields (bs : List Byte) : Nat → Option (List (Nat × Nat × Nat))
  | 0 => none
  | f + 1 =>
    if bs.isEmpty then some []
    else if bs.length < 8 then none
    else
      let id := leNat (bs.take 2)
      let ver := leNat ((bs.drop 2).take 1)
      let len := leNat ((bs.drop 4).take 2)
      let room := (len + 7) / 8 * 8
      if bs.length < 8 + room then none
      else (parseFields (bs.drop (8 + room)) f).map fun r => (id, ver, leNat ((bs.drop 8).take len)) :: r

/-- The value ranges that the manual gives for known fields: MODULE_ID, FALLBACK_W (R661, R738), LLD. -/
def fieldInRange (id v : Nat) : Bool :=
  match id with
  | 1 => decide (v ≤ 63)
  | 9 => decide (210 ≤ v ∧ v ≤ 650)
  | 10 => decide (v ≤ 3)
  | _ => true

/-- The record that verifies: header, digest and the ranges of the known fields (R908). -/
def settingsOf (bs : List Byte) : Option SettingsRec :=
  let w (o n : Nat) : Nat := leNat ((bs.drop o).take n)
  let len := w 8 4
  if w 0 4 ≠ 0x53455454 ∨ len < 64 ∨ 65536 < len ∨ bs.length < len then none
  else
    let body := (bs.drop 64).take (len - 64)
    if Config.sha3 body ≠ (bs.drop 32).take 32 then none
    else
      match parseFields body 65537 with
      | none => none
      | some fs =>
        if fs.all (fun f => fieldInRange f.1 f.2.2) then
          some { formatMaj := w 4 1, formatMin := w 5 1, seq := w 16 8, fields := fs.map fun f => (f.1, f.2.2)
                 vers := fs.map fun f => (f.1, f.2.1) }
        else none

/-- VERIFY of a settings record: it goes into the slot not in use, or is refused with BAD_SETTINGS; either way the next record
can be sent (DESIGN CHOICE, log 72). A slot that the store fails to program stays as it is (R912). -/
def State.verifySettings (s : State) (fails : Bool) : State × Nat :=
  let bs := stageBytes s.store.settings
  let s := { s with store := { s.store with settings := [] } }
  match settingsOf bs with
  | none => (s, 24)
  | some r =>
    if fails then s.programFails true
    else if s.fget A.cfgSettingsStatus A.cfgSettingsStatus_slot = 0 then ({ s with store := { s.store with slotB := some r } }, 0)
    else ({ s with store := { s.store with slotA := some r } }, 0)

/-- VERIFY (R896, R901, Table 18-7). -/
def execFwVerify (port : Nat) (h : CtlHdr) (b : FwBody) (s : State) : Out :=
  fwOp port h s fun s =>
    if b.len ≠ 0 then (s, Cs.badFrame)
    else if forSettings b then (if targetDone s true then s.verifySettings b.fails else (s, 19))
    else if stageState s = 0 ∨ stageState s = 1 then (s, 19)
    else if stageState s ≠ 2 then (s, 16)
    else
      let st := imageStatus s (stageBytes s.store.staging)
      if st = 0 then (s.fset A.cfgStageStatus A.cfgStageStatus_state 3, 0) else (s.stageErase, st)

/-- ACTIVATE (R900, R905, Table 18-6). -/
def execFwActivate (port : Nat) (h : CtlHdr) (b : FwBody) (s : State) : Out :=
  fwOp port h s fun s =>
    let cold := b.flags.testBit 1
    if b.len ≠ 0 then (s, Cs.badFrame)
    else if stageState s ≠ 3 then (s, 16)
    else if b.time < now s + 10 ^ 9 ∨ s.fget A.tbStatus A.tbStatus_state = 0 then (s, 23)
    else if ¬ cold ∧ ((stagedHdr s).map fun x => fld x.version 31 24) ≠ some (imageMajor s) then (s, 22)
    else
      let s := (s.setReg A.cfgActivateAt b.time).fset A.cfgStageStatus A.cfgStageStatus_state 4
      ({ s with store := { s.store with coldAct := cold } }, 0)

/-- CANCEL (Table 18-7). -/
def execFwCancel (port : Nat) (h : CtlHdr) (b : FwBody) (s : State) : Out :=
  fwOp port h s fun s =>
    if b.len ≠ 0 then (s, Cs.badFrame)
    else if stageState s ≠ 4 then (s, 16)
    else ((s.setReg A.cfgActivateAt 0).fset A.cfgStageStatus A.cfgStageStatus_state 3, 0)

/-- DISCARD (Table 18-7): the erase of the staging area begins; of a settings record, its blocks go. -/
def execFwDiscard (port : Nat) (h : CtlHdr) (b : FwBody) (s : State) : Out :=
  fwOp port h s fun s =>
    if b.len ≠ 0 then (s, Cs.badFrame)
    else if forSettings b then ({ s with store := { s.store with settings := [] } }, 0)
    else if stageState s = 1 ∨ stageState s = 2 ∨ stageState s = 3 then (s.stageErase, 0)
    else (s, 16)

/-- STATUS: CFG_STAGE_STATUS in bytes 16 to 23 of the body (R901). -/
def execFwStatus (port : Nat) (h : CtlHdr) (_b : FwBody) (s : State) : Out :=
  ok (onSession (s.takeInbox port h) port h 1 0 0 fun ss s =>
    if ss.mgmt then s.respond port h.session h.frameSeq (mkResp 0x0D Cs.ok [0, 0, s.reg A.cfgStageStatus])
    else s.respond port h.session h.frameSeq (mkResp 0x0D Cs.mgmtOnly []))

/-- The erase of the staging area ends; a failed one is reported as source 155 and leaves the area in ERASING (R912; the last
part DESIGN CHOICE, log 72). -/
def execEraseDone (done : Bool) (s : State) : Out :=
  if stageState s ≠ 5 ∨ ¬ dieOn s then ok s
  else if done then
    let s := { s with store := { s.store with staging := [] } }
    let s := (s.fset A.cfgStageStatus A.cfgStageStatus_state 0).fset A.cfgStageStatus A.cfgStageStatus_blocks 0
    ok (s.setReg A.cfgStageImage 0)
  else ok (((s.bump A.cfgStoreErr A.cfgStoreErr_programFail 1).fwResult 22).reportFault 155 2 0)

end Sys2Proof.Machine
end

