-- ==== Sys2Proof/Machine/Dispatch.lean ====
section
/-! DEFINITION. The meaning of each command of the table: one arm per constructor, each a direct call. -/

namespace Sys2Proof.Machine

open Sys2Proof

/-- The effect of a command on everything but the queue of pending commands. -/
def exec (i : Instr) (s : State) : Host.Outcome State Fault Refusal :=
  match i with
  | .loomSqTail who q tail => Sys2Proof.Machine.execLoomSqTail who q tail s
  | .loomSqBase who q base => Sys2Proof.Machine.execLoomSqBase who q base s
  | .loomSqCtl who q val => Sys2Proof.Machine.execLoomSqCtl who q val s
  | .descriptorAccept obs => Sys2Proof.Machine.execDescriptorAccept obs s
  | .dispatch st unit => Sys2Proof.Machine.execDispatch st unit s
  | .tileSend slot out => Sys2Proof.Machine.execTileSend slot out s
  | .tileArrive slot inp => Sys2Proof.Machine.execTileArrive slot inp s
  | .creditReturn slot inp => Sys2Proof.Machine.execCreditReturn slot inp s
  | .loomStall slot => Sys2Proof.Machine.execLoomStall slot s
  | .loomAbort who val => Sys2Proof.Machine.execLoomAbort who val s
  | .eventGrant => Sys2Proof.Machine.execEventGrant s
  | .completionRecordWrite q => Sys2Proof.Machine.execCompletionRecordWrite q s
  | .nop slot => Sys2Proof.Machine.execNop slot s
  | .tload slot => Sys2Proof.Machine.execTload slot s
  | .tstore slot => Sys2Proof.Machine.execTstore slot s
  | .htask slot => Sys2Proof.Machine.execHtask slot s
  | .htaskHandover slot => Sys2Proof.Machine.execHtaskHandover slot s
  | .hcTaskDone who cluster task status => Sys2Proof.Machine.execHcTaskDone who cluster task status s
  | .gemm slot => Sys2Proof.Machine.execGemm slot s
  | .accreduce slot => Sys2Proof.Machine.execAccreduce slot s
  | .convert slot => Sys2Proof.Machine.execConvert slot s
  | .facet slot fuel => Sys2Proof.Machine.execFacet slot fuel s
  | .facetNop st f => Sys2Proof.Machine.execFacetNop st f s
  | .halt st f => Sys2Proof.Machine.execHalt st f s
  | .br st f => Sys2Proof.Machine.execBr st f s
  | .bez st f => Sys2Proof.Machine.execBez st f s
  | .bnz st f => Sys2Proof.Machine.execBnz st f s
  | .loop st f => Sys2Proof.Machine.execLoop st f s
  | .sadd st f => Sys2Proof.Machine.execSadd st f s
  | .ssub st f => Sys2Proof.Machine.execSsub st f s
  | .smul st f => Sys2Proof.Machine.execSmul st f s
  | .sand st f => Sys2Proof.Machine.execSand st f s
  | .sor st f => Sys2Proof.Machine.execSor st f s
  | .sxor st f => Sys2Proof.Machine.execSxor st f s
  | .sshl st f => Sys2Proof.Machine.execSshl st f s
  | .sshr st f => Sys2Proof.Machine.execSshr st f s
  | .ssra st f => Sys2Proof.Machine.execSsra st f s
  | .sslt st f => Sys2Proof.Machine.execSslt st f s
  | .ssltu st f => Sys2Proof.Machine.execSsltu st f s
  | .smin st f => Sys2Proof.Machine.execSmin st f s
  | .smax st f => Sys2Proof.Machine.execSmax st f s
  | .movi st f => Sys2Proof.Machine.execMovi st f s
  | .vadd st f => Sys2Proof.Machine.execVadd st f s
  | .vsub st f => Sys2Proof.Machine.execVsub st f s
  | .vmul st f => Sys2Proof.Machine.execVmul st f s
  | .vfma st f => Sys2Proof.Machine.execVfma st f s
  | .vmin st f => Sys2Proof.Machine.execVmin st f s
  | .vmax st f => Sys2Proof.Machine.execVmax st f s
  | .vabs st f => Sys2Proof.Machine.execVabs st f s
  | .vneg st f => Sys2Proof.Machine.execVneg st f s
  | .vdiv st f => Sys2Proof.Machine.execVdiv st f s
  | .vsqrt st f => Sys2Proof.Machine.execVsqrt st f s
  | .vcvtfi st f => Sys2Proof.Machine.execVcvtfi st f s
  | .vcvtif st f => Sys2Proof.Machine.execVcvtif st f s
  | .vmov st f => Sys2Proof.Machine.execVmov st f s
  | .vsel st f => Sys2Proof.Machine.execVsel st f s
  | .viadd st f => Sys2Proof.Machine.execViadd st f s
  | .visub st f => Sys2Proof.Machine.execVisub st f s
  | .vimul st f => Sys2Proof.Machine.execVimul st f s
  | .vand st f => Sys2Proof.Machine.execVand st f s
  | .vor st f => Sys2Proof.Machine.execVor st f s
  | .vxor st f => Sys2Proof.Machine.execVxor st f s
  | .vshl st f => Sys2Proof.Machine.execVshl st f s
  | .vshr st f => Sys2Proof.Machine.execVshr st f s
  | .vsra st f => Sys2Proof.Machine.execVsra st f s
  | .vimin st f => Sys2Proof.Machine.execVimin st f s
  | .vimax st f => Sys2Proof.Machine.execVimax st f s
  | .vceq st f => Sys2Proof.Machine.execVceq st f s
  | .vclt st f => Sys2Proof.Machine.execVclt st f s
  | .vcle st f => Sys2Proof.Machine.execVcle st f s
  | .vcun st f => Sys2Proof.Machine.execVcun st f s
  | .viceq st f => Sys2Proof.Machine.execViceq st f s
  | .viclt st f => Sys2Proof.Machine.execViclt st f s
  | .pand st f => Sys2Proof.Machine.execPand st f s
  | .por st f => Sys2Proof.Machine.execPor st f s
  | .pxor st f => Sys2Proof.Machine.execPxor st f s
  | .pnot st f => Sys2Proof.Machine.execPnot st f s
  | .planes st f => Sys2Proof.Machine.execPlanes st f s
  | .exp st f => Sys2Proof.Machine.execExp st f s
  | .exp2 st f => Sys2Proof.Machine.execExp2 st f s
  | .log st f => Sys2Proof.Machine.execLog st f s
  | .log2 st f => Sys2Proof.Machine.execLog2 st f s
  | .recip st f => Sys2Proof.Machine.execRecip st f s
  | .rsqrt st f => Sys2Proof.Machine.execRsqrt st f s
  | .sigmoid st f => Sys2Proof.Machine.execSigmoid st f s
  | .tanh st f => Sys2Proof.Machine.execTanh st f s
  | .erf st f => Sys2Proof.Machine.execErf st f s
  | .geluTanh st f => Sys2Proof.Machine.execGeluTanh st f s
  | .geluErf st f => Sys2Proof.Machine.execGeluErf st f s
  | .silu st f => Sys2Proof.Machine.execSilu st f s
  | .vrsum st f => Sys2Proof.Machine.execVrsum st f s
  | .vrmax st f => Sys2Proof.Machine.execVrmax st f s
  | .vrmin st f => Sys2Proof.Machine.execVrmin st f s
  | .vriadd st f => Sys2Proof.Machine.execVriadd st f s
  | .vbcast st f => Sys2Proof.Machine.execVbcast st f s
  | .vext st f => Sys2Proof.Machine.execVext st f s
  | .vslide st f => Sys2Proof.Machine.execVslide st f s
  | .vidx st f => Sys2Proof.Machine.execVidx st f s
  | .vperm st f => Sys2Proof.Machine.execVperm st f s
  | .vld st f => Sys2Proof.Machine.execVld st f s
  | .vst st f => Sys2Proof.Machine.execVst st f s
  | .vldt st f => Sys2Proof.Machine.execVldt st f s
  | .vstt st f => Sys2Proof.Machine.execVstt st f s
  | .twait st f => Sys2Proof.Machine.execTwait st f s
  | .trel st f => Sys2Proof.Machine.execTrel st f s
  | .topen st f => Sys2Proof.Machine.execTopen st f s
  | .temit st f => Sys2Proof.Machine.execTemit st f s
  | .conv slot => Sys2Proof.Machine.execConv slot s
  | .pool slot => Sys2Proof.Machine.execPool slot s
  | .argmax slot => Sys2Proof.Machine.execArgmax slot s
  | .fused slot => Sys2Proof.Machine.execFused slot s
  | .attn slot => Sys2Proof.Machine.execAttn slot s
  | .attnBwd slot => Sys2Proof.Machine.execAttnBwd slot s
  | .kvop slot => Sys2Proof.Machine.execKvop slot s
  | .seqOpen part r res => Sys2Proof.Machine.execSeqOpen part r res s
  | .seqClose part r res => Sys2Proof.Machine.execSeqClose part r res s
  | .share part r res => Sys2Proof.Machine.execShare part r res s
  | .drop part r res => Sys2Proof.Machine.execDrop part r res s
  | .cow part r res => Sys2Proof.Machine.execCow part r res s
  | .pin part r res => Sys2Proof.Machine.execPin part r res s
  | .unpin part r res => Sys2Proof.Machine.execUnpin part r res s
  | .resolve part r res => Sys2Proof.Machine.execResolve part r res s
  | .tick part r res => Sys2Proof.Machine.execTick part r res s
  | .noevict part r res => Sys2Proof.Machine.execNoevict part r res s
  | .kvopQuery part r res => Sys2Proof.Machine.execKvopQuery part r res s
  | .alloc part r res => Sys2Proof.Machine.execAlloc part r res s
  | .decref part r res => Sys2Proof.Machine.execDecref part r res s
  | .flush seq layer => Sys2Proof.Machine.execFlush seq layer s
  | .ledgerClassValid who n val => Sys2Proof.Machine.execLedgerClassValid who n val s
  | .sample slot => Sys2Proof.Machine.execSample slot s
  | .sctl slot => Sys2Proof.Machine.execSctl slot s
  | .groupCancel part r res => Sys2Proof.Machine.execGroupCancel part r res s
  | .groupClear part r res => Sys2Proof.Machine.execGroupClear part r res s
  | .seqReset part r res => Sys2Proof.Machine.execSeqReset part r res s
  | .seqLoop part r res => Sys2Proof.Machine.execSeqLoop part r res s
  | .seqQuery part r res => Sys2Proof.Machine.execSeqQuery part r res s
  | .memoryRead req obs => Sys2Proof.Machine.execMemoryRead req obs s
  | .memoryWrite req data obs => Sys2Proof.Machine.execMemoryWrite req data obs s
  | .lodeScrub unit obs => Sys2Proof.Machine.execLodeScrub unit obs s
  | .lodeCal lode => Sys2Proof.Machine.execLodeCal lode s
  | .memRegionWrite who n limit val => Sys2Proof.Machine.execMemRegionWrite who n limit val s
  | .cmClearDone => Sys2Proof.Machine.execCmClearDone s
  | .memPartKey who p val => Sys2Proof.Machine.execMemPartKey who p val s
  | .retire who k => Sys2Proof.Machine.execRetire who k s
  | .vchan slot => Sys2Proof.Machine.execVchan slot s
  | .vchanOpen vd part r res => Sys2Proof.Machine.execVchanOpen vd part r res s
  | .vchanClose vd part r res => Sys2Proof.Machine.execVchanClose vd part r res s
  | .keypic vd part r res => Sys2Proof.Machine.execKeypic vd part r res s
  | .vchanQuery vd part r res => Sys2Proof.Machine.execVchanQuery vd part r res s
  | .vdec slot => Sys2Proof.Machine.execVdec slot s
  | .venc slot => Sys2Proof.Machine.execVenc slot s
  | .packetTake vd chan => Sys2Proof.Machine.execPacketTake vd chan s
  | .pictureComplete vd chan => Sys2Proof.Machine.execPictureComplete vd chan s
  | .fwTimeout vd chan => Sys2Proof.Machine.execFwTimeout vd chan s
  | .frameReceive port f => Sys2Proof.Machine.execFrameReceive port f s
  | .classify port shuttle => Sys2Proof.Machine.execClassify port shuttle s
  | .reassemblyTimeout id => Sys2Proof.Machine.execReassemblyTimeout id s
  | .rread slot => Sys2Proof.Machine.execRread slot s
  | .rwrite slot => Sys2Proof.Machine.execRwrite slot s
  | .rdmaResponse qpn r => Sys2Proof.Machine.execRdmaResponse qpn r s
  | .rdmaRetryTimeout qpn => Sys2Proof.Machine.execRdmaRetryTimeout qpn s
  | .congestionNotification qpn => Sys2Proof.Machine.execCongestionNotification qpn s
  | .rateIncrease qpn => Sys2Proof.Machine.execRateIncrease qpn s
  | .result slot => Sys2Proof.Machine.execResult slot s
  | .resultRingWrite session => Sys2Proof.Machine.execResultRingWrite session s
  | .openSession port h b => Sys2Proof.Machine.execOpenSession port h b s
  | .closeSession port h => Sys2Proof.Machine.execCloseSession port h s
  | .submit port h b => Sys2Proof.Machine.execSubmit port h b s
  | .ack port h => Sys2Proof.Machine.execAck port h s
  | .cancel port h req => Sys2Proof.Machine.execCancel port h req s
  | .pause port h req ttl => Sys2Proof.Machine.execPause port h req ttl s
  | .resume port h req => Sys2Proof.Machine.execResume port h req s
  | .ttlExpiry req => Sys2Proof.Machine.execTtlExpiry req s
  | .inventory port h => Sys2Proof.Machine.execInventory port h s
  | .attestCert port h nonce => Sys2Proof.Machine.execAttestCert port h nonce s
  | .sessionState port h => Sys2Proof.Machine.execSessionState port h s
  | .dumpRead port h offset => Sys2Proof.Machine.execDumpRead port h offset s
  | .fwData port h b => Sys2Proof.Machine.execFwData port h b s
  | .fwVerify port h b => Sys2Proof.Machine.execFwVerify port h b s
  | .fwActivate port h b => Sys2Proof.Machine.execFwActivate port h b s
  | .fwCancel port h b => Sys2Proof.Machine.execFwCancel port h b s
  | .fwDiscard port h b => Sys2Proof.Machine.execFwDiscard port h b s
  | .fwStatus port h b => Sys2Proof.Machine.execFwStatus port h b s
  | .eraseDone ok => Sys2Proof.Machine.execEraseDone ok s
  | .pairLease port h b => Sys2Proof.Machine.execPairLease port h b s
  | .strobe tag tagValid edge => Sys2Proof.Machine.execStrobe tag tagValid edge s
  | .tagAnnouncement tag => Sys2Proof.Machine.execTagAnnouncement tag s
  | .verdictWrite part tag val => Sys2Proof.Machine.execVerdictWrite part tag val s
  | .trigEdge input rising ts => Sys2Proof.Machine.execTrigEdge input rising ts s
  | .trigAccept input => Sys2Proof.Machine.execTrigAccept input s
  | .lineTrigPop who => Sys2Proof.Machine.execLineTrigPop who s
  | .timeSetBoundary => Sys2Proof.Machine.execTimeSetBoundary s
  | .offsetResult o => Sys2Proof.Machine.execOffsetResult o s
  | .tbAdj who val => Sys2Proof.Machine.execTbAdj who val s
  | .tbRate who val => Sys2Proof.Machine.execTbRate who val s
  | .tbHoldover => Sys2Proof.Machine.execTbHoldover s
  | .linkEnable who j val => Sys2Proof.Machine.execLinkEnable who j val s
  | .retrain who j => Sys2Proof.Machine.execRetrain who j s
  | .recal who j => Sys2Proof.Machine.execRecal who j s
  | .fecLock j farSerial => Sys2Proof.Machine.execFecLock j farSerial s
  | .fecLockTimeout j => Sys2Proof.Machine.execFecLockTimeout j s
  | .calibDone j ok => Sys2Proof.Machine.execCalibDone j ok s
  | .ident j r => Sys2Proof.Machine.execIdent j r s
  | .failedRetry j => Sys2Proof.Machine.execFailedRetry j s
  | .linkLoss j => Sys2Proof.Machine.execLinkLoss j s
  | .opticsSample j rx0 rx1 => Sys2Proof.Machine.execOpticsSample j rx0 rx1 s
  | .data j f => Sys2Proof.Machine.execData j f s
  | .credit j f => Sys2Proof.Machine.execCredit j f s
  | .cmd j f => Sys2Proof.Machine.execCmd j f s
  | .cpl j f => Sys2Proof.Machine.execCpl j f s
  | .arrive j f barrier ts coarse pace => Sys2Proof.Machine.execArrive j f barrier ts coarse pace s
  | .release j f barrier fail => Sys2Proof.Machine.execRelease j f barrier fail s
  | .warpAck j counter => Sys2Proof.Machine.execWarpAck j counter s
  | .warpNak j counter => Sys2Proof.Machine.execWarpNak j counter s
  | .keyUpdate j f => Sys2Proof.Machine.execKeyUpdate j f s
  | .partEpoch j f part epoch => Sys2Proof.Machine.execPartEpoch j f part epoch s
  | .wsend slot => Sys2Proof.Machine.execWsend slot s
  | .wrecv slot => Sys2Proof.Machine.execWrecv slot s
  | .barrier slot => Sys2Proof.Machine.execBarrier slot s
  | .barrierTimeout id => Sys2Proof.Machine.execBarrierTimeout id s
  | .wsubmit slot => Sys2Proof.Machine.execWsubmit slot s
  | .lease j f r => Sys2Proof.Machine.execLease j f r s
  | .journal j f num ws => Sys2Proof.Machine.execJournal j f num ws s
  | .journalConfirm j f num => Sys2Proof.Machine.execJournalConfirm j f num s
  | .decision j f num lagUs outs => Sys2Proof.Machine.execDecision j f num lagUs outs s
  | .decisionConfirm j f num => Sys2Proof.Machine.execDecisionConfirm j f num s
  | .pktFetch j f vd chan seqs => Sys2Proof.Machine.execPktFetch j f vd chan seqs s
  | .pktData j f vd chan seq pkt => Sys2Proof.Machine.execPktData j f vd chan seq pkt s
  | .joinData j f item => Sys2Proof.Machine.execJoinData j f item s
  | .joinCtl j f phase digest major => Sys2Proof.Machine.execJoinCtl j f phase digest major s
  | .swap j f epoch => Sys2Proof.Machine.execSwap j f epoch s
  | .lineRead j f es => Sys2Proof.Machine.execLineRead j f es s
  | .leaseRenewal => Sys2Proof.Machine.execLeaseRenewal s
  | .leaseExpiry => Sys2Proof.Machine.execLeaseExpiry s
  | .leaseLapse => Sys2Proof.Machine.execLeaseLapse s
  | .releaseTakeover => Sys2Proof.Machine.execReleaseTakeover s
  | .leaseWaitTimeout => Sys2Proof.Machine.execLeaseWaitTimeout s
  | .pairHeartbeat who => Sys2Proof.Machine.execPairHeartbeat who s
  | .swapReq who => Sys2Proof.Machine.execSwapReq who s
  | .swapAt => Sys2Proof.Machine.execSwapAt s
  | .capSet watts => Sys2Proof.Machine.execCapSet watts s
  | .capLeaseExpired => Sys2Proof.Machine.execCapLeaseExpired s
  | .capLoop pmDw => Sys2Proof.Machine.execCapLoop pmDw s
  | .phaseWindow busy => Sys2Proof.Machine.execPhaseWindow busy s
  | .pmStationPhase who k val => Sys2Proof.Machine.execPmStationPhase who k val s
  | .opStepDone => Sys2Proof.Machine.execOpStepDone s
  | .warnAssert coolant => Sys2Proof.Machine.execWarnAssert coolant s
  | .warnClear coolant => Sys2Proof.Machine.execWarnClear coolant s
  | .warnHoldExpiry coolant => Sys2Proof.Machine.execWarnHoldExpiry coolant s
  | .droop cycles => Sys2Proof.Machine.execDroop cycles s
  | .droopClear => Sys2Proof.Machine.execDroopClear s
  | .thermalSample junction coolantC => Sys2Proof.Machine.execThermalSample junction coolantC s
  | .thermalTrip => Sys2Proof.Machine.execThermalTrip s
  | .alert => Sys2Proof.Machine.execAlert s
  | .alertClear => Sys2Proof.Machine.execAlertClear s
  | .dozeRequest who => Sys2Proof.Machine.execDozeRequest who s
  | .watchRequest who => Sys2Proof.Machine.execWatchRequest who s
  | .dormantRequest who => Sys2Proof.Machine.execDormantRequest who s
  | .tickW0 => Sys2Proof.Machine.execTickW0 s
  | .entryWindowEnd => Sys2Proof.Machine.execEntryWindowEnd s
  | .wakePin pins => Sys2Proof.Machine.execWakePin pins s
  | .mctpWake => Sys2Proof.Machine.execMctpWake s
  | .alarm => Sys2Proof.Machine.execAlarm s
  | .watchSample trig coolantC => Sys2Proof.Machine.execWatchSample trig coolantC s
  | .wake keyCheckOk => Sys2Proof.Machine.execWake keyCheckOk s
  | .dozeExit => Sys2Proof.Machine.execDozeExit s
  | .selvageRelease who bits => Sys2Proof.Machine.execSelvageRelease who bits s
  | .partitionCreate who p val => Sys2Proof.Machine.execPartitionCreate who p val s
  | .teardown who p => Sys2Proof.Machine.execTeardown who p s
  | .drainDone p => Sys2Proof.Machine.execDrainDone p s
  | .stragglerTimeout p => Sys2Proof.Machine.execStragglerTimeout p s
  | .cleanDone p => Sys2Proof.Machine.execCleanDone p s
  | .gnMeasExtend who val => Sys2Proof.Machine.execGnMeasExtend who val s
  | .gnAttestReq who addr => Sys2Proof.Machine.execGnAttestReq who addr s
  | .certIssued => Sys2Proof.Machine.execCertIssued s
  | .selftest who => Sys2Proof.Machine.execSelftest who s
  | .selftestDone failTest => Sys2Proof.Machine.execSelftestDone failTest s
  | .zeroise who val => Sys2Proof.Machine.execZeroise who val s
  | .tamper source => Sys2Proof.Machine.execTamper source s
  | .healthTestFail test => Sys2Proof.Machine.execHealthTestFail test s
  | .faultReport source cls bits => Sys2Proof.Machine.execFaultReport source cls bits s
  | .safeReq who => Sys2Proof.Machine.execSafeReq who s
  | .collectorFault => Sys2Proof.Machine.execCollectorFault s
  | .unitResetDone st => Sys2Proof.Machine.execUnitResetDone st s
  | .testSchedule => Sys2Proof.Machine.execTestSchedule s
  | .fcTestReq who unit => Sys2Proof.Machine.execFcTestReq who unit s
  | .testStart => Sys2Proof.Machine.execTestStart s
  | .testDone pass => Sys2Proof.Machine.execTestDone pass s
  | .fcInject who val => Sys2Proof.Machine.execFcInject who val s
  | .fcStatus who k val => Sys2Proof.Machine.execFcStatus who k val s
  | .clear who st => Sys2Proof.Machine.execClear who st s
  | .sampleTick => Sys2Proof.Machine.execSampleTick s
  | .dbgTrcMark who st val => Sys2Proof.Machine.execDbgTrcMark who st val s
  | .dbgWdKick who w => Sys2Proof.Machine.execDbgWdKick who w s
  | .wdWarn w => Sys2Proof.Machine.execWdWarn w s
  | .watchdogExpiry w => Sys2Proof.Machine.execWatchdogExpiry w s
  | .dumpReq who => Sys2Proof.Machine.execDumpReq who s
  | .dump => Sys2Proof.Machine.execDump s
  | .stopTick => Sys2Proof.Machine.execStopTick s
  | .dumpDone bytes => Sys2Proof.Machine.execDumpDone bytes s
  | .warmReq r => Sys2Proof.Machine.execWarmReq r s
  | .coldReq r => Sys2Proof.Machine.execColdReq r s
  | .confirm who => Sys2Proof.Machine.execConfirm who s
  | .reset cold => Sys2Proof.Machine.execReset cold s
  | .activation => Sys2Proof.Machine.execActivation s
  | .trialTimeout => Sys2Proof.Machine.execTrialTimeout s
  | .startComplete => Sys2Proof.Machine.execStartComplete s
  | .powerOnReset => Sys2Proof.Machine.execPowerOnReset s
  | .vin54Loss => Sys2Proof.Machine.execVin54Loss s
  | .registerWrite who addr val => Sys2Proof.Machine.execRegisterWrite who addr val s
  | .rcRead who addr => Sys2Proof.Machine.execRcRead who addr s
  | .lightOnBothLanes j on => Sys2Proof.Machine.execLightOnBothLanes j on s
  | .portLinkUp n up => Sys2Proof.Machine.execPortLinkUp n up s
  | .gateControlListLoad n => Sys2Proof.Machine.execGateControlListLoad n s
  | .pendingEntryDiscard => Sys2Proof.Machine.execPendingEntryDiscard s
  | .clockGating st => Sys2Proof.Machine.execClockGating st s
  | .classInitDone n => Sys2Proof.Machine.execClassInitDone n s
  | .imageComplete req => Sys2Proof.Machine.execImageComplete req s
  | .traceDrain st n => Sys2Proof.Machine.execTraceDrain st n s
  | .waitForInterrupt => Sys2Proof.Machine.execWaitForInterrupt s

end Sys2Proof.Machine
end

