-- ==== Sys2Proof/Machine/Idle.lean ====
section
/-! DEFINITION. What passes when no command waits: one tick of the clock that runs. -/

namespace Sys2Proof.Machine

open Sys2Proof

/-- The stop step of a teardown has ended: every command of the partition stands at a tile boundary, and the drain begins
(R809, step 2; DESIGN CHOICE, log 74: at the next reference tick). -/
def State.endStops (s : State) : State :=
  if s.frozen then s else (s.teardowns.filter fun t => t.stage == 0).foldl (fun s t =>
    { s with teardowns := s.teardowns.map fun (u : Teardown) => if u.part = t.part then { u with stage := 1 } else u }.fset
      (A.gnPartCtl t.part) A.gnPartCtl_state 3) s

/-- One reference tick: the tick count, the Thimble's share of it, and a new time set at a multiple of 1,024 (R615,
R616). -/
def refTick (s : State) : State :=
  let sub := s.thimble.sub + 512
  let th := if 1562500 ≤ sub then { s.thimble with sub := sub - 1562500, ticks := s.thimble.ticks + 1 }
    else { s.thimble with sub := sub }
  let s : State := { s.passTicks 1 with thimble := th }.endStops
  if s.tb.n % 1024 = 0 then s.newTimeSet else s

/-- One Thimble tick in WATCH, in DORMANT or during a wake: V advances by 30,517.578125 ns with its fraction kept
(R622, R769). -/
def thimbleTick (s : State) : State :=
  let v := s.tb.v0 * 2 ^ 32 + s.tb.vSub + 1953125 * 2 ^ 26
  { s with tb := { s.tb with v0 := v / 2 ^ 32 % 2 ^ 64, vSub := v % 2 ^ 32 }
           thimble := { s.thimble with ticks := s.thimble.ticks + 1 } }

/-- One tick of the clock that runs; without power none does. -/
def idle (s : State) : State := if dieOn s then refTick s else if s.store.powered then thimbleTick s else s

end Sys2Proof.Machine
end

