-- ==== Sys2Proof/Safety.lean ====
section
/-! DEFINITION. The terms in which claims about the module are stated: that a command runs, what a command leaves as it was, and
the canonical form of memory. -/

namespace Sys2Proof

open Sys2Proof.Machine

/-- Command `c` runs in state `s`: exec answers a next state, and `P` holds of it. -/
def Runs (c : Instr) (s : State) (P : State → Prop) : Prop := ∃ t, exec c s = .next t ∧ P t

/-- From `s` to `t` every register keeps its value but those at the home addresses of a list. -/
def RegsKept (l : List Nat) (s t : State) : Prop := ∀ a, homeAddr a ∉ l → t.reg a = s.reg a

/-- From `s` to `t` every byte of memory reads as before. -/
def MemKept (s t : State) : Prop := ∀ a, byteAt t a = byteAt s a

/-- The frame of a command that stores nothing: registers outside a list and all of memory as before. -/
def Kept (l : List Nat) (s t : State) : Prop := RegsKept l s t ∧ MemKept s t

/-- From `s` to `t` every byte of memory reads as before but those of a range of addresses. -/
def MemKeptBut (a n : Nat) (s t : State) : Prop :=
  ∀ c, (∀ i, i < n → canon (a + i) ≠ some c) → byteAt t c = byteAt s c

/-- The state as it was: nothing happened. -/
def Idle (c : Instr) (s : State) : Prop := exec c s = .next s

/-- An access of firmware whose address is in no memory of the module and no tile-store window (Tables 2-2 and 7-1). -/
abbrev toNowhere (s : State) (req : MemReq) : Prop :=
  req.len ≠ 0 ∧ storeWindow req.addr = none ∧ memRange req.addr req.len = false ∧ reqPart s req = none

/-- The commands that stop: core accesses to nowhere. -/
def Stops (c : Instr) (s : State) : Prop :=
  ∃ req, toNowhere s req ∧ ((∃ obs, c = .memoryRead req obs) ∨ ∃ data obs, c = .memoryWrite req data obs)

/-- One more event of a partition waits, with the timestamp its source takes. -/
def RaisedP (src ty p payload : Nat) (s t : State) : Prop :=
  t.events = s.events ++ [Event.mk src ty p false (coarse s) (now s) payload none]

/-- One more module event waits. -/
def RaisedM (src ty payload : Nat) (s t : State) : Prop :=
  t.events = s.events ++ [Event.mk src ty 0 true (coarse s) (now s) payload none]

/-- The invariant of memory: its cells in canonical form (strictly rising addresses, none listed with what an unlisted one
holds). -/
abbrev MemInv (s : State) : Prop := Memory.wf s.mem = true

/-- A range that a store reaches whole, in a memory in its canonical form: every byte of it is memory, and no line of it is in
error. -/
abbrev Writable (s : State) (a n : Nat) : Prop :=
  MemInv s ∧ (∀ i, i < n → (canon (a + i)).isSome = true) ∧ badRange s a n = false

/-- From `s` to `t` the bytes at an address became those given, and every other byte of memory reads as before. -/
def Stored (a : Nat) (bs : List Byte) (s t : State) : Prop := readBytes t a bs.length = bs ∧ MemKeptBut a bs.length s t

/-- The debug registers that a command of a station may count into: the global counters, the station's own, and the drops of
its trace buffer (R844, R851, R858). -/
def dbgRegs (st : Nat) : List Nat :=
  (List.range 64).map A.dbgGcnt ++ (List.range 8).map (A.dbgCnt st) ++ [A.dbgTrcStatus st]

/-- The command in a slot reached a status and detail. -/
def Reached (slot status detail : Nat) (t : State) : Prop :=
  ∃ u, t.cmd? slot = some u ∧ u.status = some (status, detail)

/-- One tile formed on output 0 by a running command: the next of its stream, stamped with the command's layer, behind those that
await credits. -/
def FormsTile (slot : Nat) (t : Tracked) (o : OutBind) (s' : State) (P : Tile → Prop) : Prop :=
  ∃ u p x, s'.cmd? slot = some u ∧ u.work.pos = t.work.pos + 1 ∧ u.outs[0]? = some p ∧ p.formed = o.formed + 1 ∧
    p.queue = o.queue ++ [x] ∧ x.stream = o.stream ∧ x.index = o.formed ∧ x.layer = t.desc.layerId ∧ P x

/-! ### The vector unit -/

/-- Every register of a unit has its 256 lanes (R188, R189). -/
def LanesOk (u : FacetUnit) : Prop := ∀ i : BitVec 5, (u.vget i).length = 256 ∧ (u.pget i.toNat).length = 256

/-- Lane `k` is active under an instruction's predicate (R191). -/
def active (u : FacetUnit) (f : FIns) (k : Nat) : Bool := (u.pget f.p.toNat).getD k true != f.pn

/-- A legal instruction of a running kernel whose budget is not spent retires: control goes on by the loops in force, the count
of retired instructions rises, `P` relates the command and the unit before and after, and no other unit, no memory and no
register beside the debug counters changes (R204 to R206, R210). -/
def Retires (c : Instr) (st : Nat) (use : FUse) (f : FIns) (P : State → Tracked → FacetUnit → State → FacetUnit → Prop) : Prop :=
  ∀ (s : State) (t : Tracked) (u : FacetUnit), facetOn s st = some (t, u) → use.illegal f = false →
    (u.limit = 0 ∨ u.retired < u.limit) → LanesOk u →
    Runs c s fun s' => ∃ u', tget s'.facets st = some u' ∧ u'.pc = (loopNext u.pc u.loops).1 ∧
      u'.loops = (loopNext u.pc u.loops).2 ∧ u'.retired = u.retired + 1 ∧ P s t u s' u' ∧
      (∀ k, k ≠ st → tget s'.facets k = tget s.facets k) ∧ s'.events = s.events ∧ Kept (dbgRegs st) s s'

/-- From unit `u` to `u'` scalar register `d` became `v` (s0 stays zero), and nothing else of the unit but its control. -/
def ScalarSet (u u' : FacetUnit) (d : BitVec 5) (v : W32) : Prop :=
  (∀ i, u'.sget i = if i = d ∧ d ≠ 0 then v else u.sget i) ∧
    u' = { u with s := u'.s, pc := u'.pc, loops := u'.loops, retired := u'.retired }

/-- Vector register `d` became `val` in the lanes where `on` holds, and nothing else of the unit but its control. -/
def VecSet (u u' : FacetUnit) (d : BitVec 5) (on : Nat → Bool) (val : Nat → W32) : Prop :=
  (∀ k, k < 256 → (u'.vget d).getD k 0 = if on k then val k else (u.vget d).getD k 0) ∧
    (∀ i, i ≠ d → u'.vget i = u.vget i) ∧
    u' = { u with v := u'.v, pc := u'.pc, loops := u'.loops, retired := u'.retired }

/-- Predicate register `d` (p0 stays all ones) became `val` in the lanes where `on` holds, and nothing else but control. -/
def PredSet (u u' : FacetUnit) (d : Nat) (on : Nat → Bool) (val : Nat → Bool) : Prop :=
  (d % 8 ≠ 0 → ∀ k, k < 256 → (u'.pget d).getD k false = if on k then val k else (u.pget d).getD k false) ∧
    (∀ i, i % 8 ≠ d % 8 ∨ i % 8 = 0 → u'.pget i = u.pget i) ∧
    u' = { u with p := u'.p, pc := u'.pc, loops := u'.loops, retired := u'.retired }

/-- The command's flags gained exactly those that an active lane raised (R236). -/
def FlagsOr (t : Tracked) (s' : State) (on : Nat → Bool) (fl : Nat → Nat) : Prop :=
  ∃ w, s'.cmd? t.slot = some w ∧
    ∀ b, w.work.flags.testBit b = true ↔ t.work.flags.testBit b = true ∨ ∃ k, k < 256 ∧ on k = true ∧ (fl k).testBit b = true

/-- Lane `k` of source A, and of source B or the immediate. -/
def laneA (u : FacetUnit) (f : FIns) (k : Nat) : W32 := (u.vget f.a).getD k 0
def laneB (u : FacetUnit) (f : FIns) (k : Nat) : W32 := if f.i then f.lo else (u.vget f.b).getD k 0

/-- A row that applies a function to two scalars. -/
def ScalarRow (c : Nat → FIns → Instr) (g : W32 → W32 → W32) : Prop :=
  ∀ st f, Retires (c st f) st useSab f fun _ _ u _ u' => ScalarSet u u' f.d (g (u.sget f.a) (u.ssrcB f))

/-- A row that applies a binary32 function with flags lane by lane, to A, or to A and B. -/
def FloatRow1 (c : Nat → FIns → Instr) (g : FIns → Nat → Nat × Nat) : Prop :=
  ∀ st f, Retires (c st f) st useV1 f fun _ t u s' u' =>
    VecSet u u' f.d (active u f) (fun k => BitVec.ofNat 32 (g f (laneA u f k).toNat).1) ∧
      FlagsOr t s' (active u f) (fun k => (g f (laneA u f k).toNat).2)

def FloatRow2 (c : Nat → FIns → Instr) (g : Nat → Nat → Nat × Nat) : Prop :=
  ∀ st f, Retires (c st f) st useV2 f fun _ t u s' u' =>
    VecSet u u' f.d (active u f) (fun k => BitVec.ofNat 32 (g (laneA u f k).toNat (laneB u f k).toNat).1) ∧
      FlagsOr t s' (active u f) (fun k => (g (laneA u f k).toNat (laneB u f k).toNat).2)

/-- A row that applies an integer function to A and B lane by lane. -/
def IntRow (c : Nat → FIns → Instr) (g : W32 → W32 → W32) : Prop :=
  ∀ st f, Retires (c st f) st useV2 f fun _ _ u _ u' => VecSet u u' f.d (active u f) (fun k => g (laneA u f k) (laneB u f k))

/-- A row that compares A and B lane by lane into a predicate. -/
def CompareRow (c : Nat → FIns → Instr) (g : Nat → Nat → Bool × Nat) : Prop :=
  ∀ st f, Retires (c st f) st useV2 f fun _ t u s' u' =>
    PredSet u u' f.d.toNat (active u f) (fun k => (g (laneA u f k).toNat (laneB u f k).toNat).1) ∧
      FlagsOr t s' (active u f) (fun k => (g (laneA u f k).toNat (laneB u f k).toNat).2)

/-- A row that combines two predicates lane by lane. -/
def PredRow (c : Nat → FIns → Instr) (g : Bool → Bool → Bool) : Prop :=
  ∀ st f, f.i = false → Retires (c st f) st useV2 f fun _ _ u _ u' =>
    PredSet u u' f.d.toNat (active u f) (fun k => g ((u.pget f.a.toNat).getD k false) ((u.pget f.b.toNat).getD k false))

/-- A row that reduces the active lanes of A in a tree, to every lane of D, the result finished by `post`. -/
def ReduceRow (c : Nat → FIns → Instr) (g : Nat → Nat → Nat × Nat) (post : Nat → Nat) : Prop :=
  ∀ st f, Retires (c st f) st useV1 f fun _ _ u _ u' =>
    VecSet u u' f.d (fun _ => true) fun _ =>
      BitVec.ofNat 32 (post
        ((tree g 8 ((List.range 256).map fun k => if active u f k then some (laneA u f k).toNat else none)).1.getD 0))

/-! ### Attention -/

/-- An ATTN runs, open, with its fields and its sequence list. -/
def AttnOn (s : State) (slot : Nat) (t : Tracked) (c : AttnCfg) (es : List SeqEnt) : Prop :=
  runningCmd s slot 0x50 = some t ∧ t.work.opened = true ∧ t.work.attn.isSome = true ∧ c = AttnCfg.of t.opb ∧ es = attnEnts t c

/-- No rows that an ATTN has computed are left to form a tile of. -/
abbrev AttnDry (t : Tracked) (c : AttnCfg) : Prop := (attnRows t).length ≤ t.work.pos ∧ (c.stats = false ∨ attnRows t = [])

/-! ### Lists of operations -/

/-- The ranges of a list are whole memory without errors, and no two of them share a byte. -/
def Apart (s : State) (l : List (Nat × Nat)) : Prop :=
  (∀ x ∈ l, Writable s x.1 x.2) ∧
    l.Pairwise fun x y => ∀ i, i < x.2 → ∀ j, j < y.2 → canon (x.1 + i) ≠ canon (y.1 + j)

/-- From `s` to `t` every byte outside the ranges of a list reads as before. -/
def MemKeptOut (l : List (Nat × Nat)) (s t : State) : Prop :=
  ∀ c, (∀ x ∈ l, ∀ i, i < x.2 → canon (x.1 + i) ≠ some c) → byteAt t c = byteAt s c

/-- What no operation of a list changes: the commands, the events, the clock. -/
def ListFrame (s t : State) : Prop := t.tracked = s.tracked ∧ t.events = s.events ∧ t.tb = s.tb ∧ t.chans = s.chans

/-- What operation `op` of the ledger reads for a record holds no uncorrectable error (R444). -/
abbrev SoundReads (s : State) (op : Nat) (r : OpRec) : Prop := ∀ x ∈ lopReads s { r with op := op }, badRange s x.1 x.2 = false

/-- A row of the page ledger that reads a codeword in error does nothing but record it (R445). -/
def ErrorRow (op : Nat) (c : Nat → OpRec → Nat → Instr) : Prop :=
  ∀ (part : Nat) (r : OpRec) (res : Nat) (s : State), ledgerOn s = true → ¬ SoundReads s op r →
    Runs (c part r res) s fun t => MemKept s t ∧ ListFrame s t ∧ t.bobbin = s.bobbin ∧ t.flushes = s.flushes ∧
      t.reports.length = s.reports.length + 1

/-- A row of the page ledger that changes the entry of the page its handle names, and answers status 0. -/
def PageRow (c : Nat → OpRec → Nat → Instr) (pre : PageEntry → Prop) (g : OpRec → PageEntry → PageEntry) : Prop :=
  ∀ (part : Nat) (r : OpRec) (res : Nat) (s : State), ledgerOn s = true → pageRefused s part r.word1 = none →
    pre (pageEntry s (hClass r.word1) (hFrame r.word1)) →
    Apart s [(entryAddr s (hClass r.word1) (hFrame r.word1), 8), (res, 8)] →
    Runs (c part r res) s fun t =>
      pageEntry t (hClass r.word1) (hFrame r.word1) = g r (pageEntry s (hClass r.word1) (hFrame r.word1)) ∧
      readBytes t res 8 = leBytes 8 0 ∧
      MemKeptOut [(entryAddr s (hClass r.word1) (hFrame r.word1), 8), (res, 8)] s t ∧
      RegsKept [A.ledgerCount (hClass r.word1)] s t ∧ ListFrame s t

/-- A row of a list that is refused: its status is the result, and nothing else changes. -/
def RefusedRow (c : Instr) (s : State) (res status : Nat) : Prop :=
  Writable s res 8 → Runs c s fun t => Stored res (leBytes 8 status) s t ∧ RegsKept [] s t ∧ ListFrame s t

/-- A list command of opcode `op`: it opens over whole lists of its partition and ends with its detail at one that is not aligned; it
waits where its next record or result is being cleared, and ends at a record in error; and it applies one record after another, each as
the record's own row does, and counts those that fail, once its order stream is taken (R326 to R328, R425, R437, R447). -/
structure ListCommand (c : Nat → Instr) (op det : Nat) (on : State → Prop) (reads : State → OpRec → List (Nat × Nat))
    (rows : List (Nat × (Tracked → OpRec → Nat → Instr))) : Prop where
  opens : ∀ (slot : Nat) (s : State) (t : Tracked), on s → runningCmd s slot op = some t → t.work.opened = false →
    opw t.opb 4 47 0 % 16 = 0 → opw t.opb 5 47 0 % 8 = 0 →
    ownsRange s t.part (opw t.opb 4 47 0) (16 * (opw t.opb 6 15 0 + 1)) = true →
    ownsRange s t.part (opw t.opb 5 47 0) (8 * (opw t.opb 6 15 0 + 1)) = true →
    Runs (c slot) s fun t' => (∃ u : Tracked, t'.cmd? slot = some u ∧ u.work.opened = true) ∧ Kept [] s t' ∧
      t' = { s with tracked := t'.tracked }
  misaligned : ∀ (slot : Nat) (s : State) (t : Tracked), on s → runningCmd s slot op = some t → t.work.opened = false →
    (opw t.opb 4 47 0 % 16 ≠ 0 ∨ opw t.opb 5 47 0 % 8 ≠ 0) → t.rerun = false → t.compl = .none →
    Runs (c slot) s fun t' => Reached slot 4 det t'
  waits : ∀ (slot a res : Nat) (s : State) (t : Tracked), runningCmd s slot op = some t → t.work.opened = true →
    ((t.ins[0]?).bind fun b => b.window.head?) = none → t.ins.all (fun b => b.lastIn) = true →
    t.work.pos < opw t.opb 6 15 0 + 1 → a = opw t.opb 4 47 0 + 16 * t.work.pos → res = opw t.opb 5 47 0 + 8 * t.work.pos →
    clearingAt s a 16 = true ∨ clearingAt s res 8 = true → Idle (c slot) s
  ends : ∀ (slot a : Nat) (s : State) (t : Tracked), on s → runningCmd s slot op = some t → t.work.opened = true → 48 ≤ t.station →
    ((t.ins[0]?).bind fun b => b.window.head?) = none → t.ins.all (fun b => b.lastIn) = true →
    t.work.pos < opw t.opb 6 15 0 + 1 → a = opw t.opb 4 47 0 + 16 * t.work.pos → clearingAt s a 16 = false →
    clearingAt s (opw t.opb 5 47 0 + 8 * t.work.pos) 8 = false → ownsRange s t.part a 16 = true → badRange s a 16 = true →
    t.rerun = false → t.compl = .none → Runs (c slot) s fun t' => Reached slot St.aborted Det.faultContained t'
  advances : ∀ (slot a res : Nat) (s : State) (t : Tracked), on s → runningCmd s slot op = some t → t.work.opened = true →
    t.rerun = false → t.compl = .none → ((t.ins[0]?).bind fun b => b.window.head?) = none → t.ins.all (fun b => b.lastIn) = true →
    t.work.pos < opw t.opb 6 15 0 + 1 → a = opw t.opb 4 47 0 + 16 * t.work.pos → res = opw t.opb 5 47 0 + 8 * t.work.pos →
    clearingAt s a 16 = false → clearingAt s res 8 = false → ownsRange s t.part a 16 = true → badRange s a 16 = false →
    (∀ x ∈ reads s (opRecOf (softBytes s a 16)), badRange s x.1 x.2 = false) →
    Runs (c slot) s fun t' => ∃ u : Tracked, t'.cmd? slot = some u ∧ u.work.pos = t.work.pos + 1
  completes : ∀ (slot a res : Nat) (s : State) (t : Tracked), on s → runningCmd s slot op = some t → t.work.opened = true →
    t.rerun = false → t.compl = .none → ((t.ins[0]?).bind fun b => b.window.head?) = none → t.ins.all (fun b => b.lastIn) = true →
    t.work.pos = opw t.opb 6 15 0 → t.outs = [] → a = opw t.opb 4 47 0 + 16 * t.work.pos →
    res = opw t.opb 5 47 0 + 8 * t.work.pos → clearingAt s a 16 = false → clearingAt s res 8 = false →
    ownsRange s t.part a 16 = true → badRange s a 16 = false →
    (∀ x ∈ reads s (opRecOf (softBytes s a 16)), badRange s x.1 x.2 = false) → Runs (c slot) s fun t' => Reached slot 0 0 t'
  orders : ∀ (slot : Nat) (s : State) (t : Tracked) (b : InBind) (x : Tile) (r : List Tile), on s → runningCmd s slot op = some t →
    t.work.opened = true → t.ins[0]? = some b → b.window = x :: r →
    Runs (c slot) s fun t' => (∃ (u : Tracked) (b' : InBind), t'.cmd? slot = some u ∧ u.ins[0]? = some b' ∧ b'.window = r ∧
      u.work = t.work) ∧ t'.events = s.events ∧ Kept [] s t'
  applies : ∀ e ∈ rows, ∀ (slot a res : Nat) (s : State) (t : Tracked), on s → runningCmd s slot op = some t → t.work.opened = true →
    ((t.ins[0]?).bind fun b => b.window.head?) = none → t.ins.all (fun b => b.lastIn) = true →
    t.work.pos + 1 < opw t.opb 6 15 0 + 1 → a = opw t.opb 4 47 0 + 16 * t.work.pos → res = opw t.opb 5 47 0 + 8 * t.work.pos →
    clearingAt s a 16 = false → clearingAt s res 8 = false → ownsRange s t.part a 16 = true → ownsRange s t.part res 8 = true →
    badRange s a 16 = false → (∀ x ∈ reads s (opRecOf (softBytes s a 16)), badRange s x.1 x.2 = false) →
    (opRecOf (softBytes s a 16)).op = e.1 →
    ∃ (t0 : State) (n : Nat), exec (e.2 t (opRecOf (softBytes s a 16)) res) (s.memIn t a 16) = .next t0 ∧ n ≤ 1 ∧
      exec (c slot) s = .next ((t0.memOut t res 8).updCmd slot fun u =>
        { u with work := { u.work with pos := u.work.pos + 1, fails := u.work.fails + n } })

/-! ### Register commands -/

/-- The 64 global counters of the debug unit (R851). -/
def gcntRegs : List Nat := (List.range 64).map A.dbgGcnt

/-- Command `c` runs in `s`, changes registers of a list alone, and `P` holds of the state it leaves. -/
def RunsRegs (c : Instr) (s : State) (l : List Nat) (P : State → Prop) : Prop :=
  Runs c s fun t => P t ∧ Kept l s t ∧ t = { s with regs := t.regs }

/-- A command that only firmware may send: from a partition it has no effect. -/
def FwOnly (c : Who → Instr) : Prop := ∀ (p : Nat) (s : State), Idle (c (.part p)) s

/-! ### Control frames -/

/-- A well-formed frame of an open session `ss`, of version `maj`.`min` or later, with a FRAME_SEQ not seen before and nothing new
acknowledged, at a module that answers and keeps no partner in step (R564, R565, R570). -/
def FreshFrame (s : State) (port : Nat) (h : CtlHdr) (ss : Session) (maj min : Nat) : Prop :=
  listening s port h.type = true ∧ tget s.sessions h.session = some ss ∧ ss.mgmt = (port == 2) ∧ ss.closed = false ∧
    seqFresh ss.seen h.frameSeq = true ∧ h.magic = 0x4352 ∧ h.len ≤ 8192 ∧ h.status = 0 ∧ h.verMaj = ss.verMaj ∧
    h.verMin = ss.verMin ∧ (maj < ss.verMaj ∨ ss.verMaj = maj ∧ min ≤ ss.verMin) ∧ h.ack ≤ ss.acked ∧ mirrors s = false ∧
    confirmed s s.pair.journalSent s.pair.decisionSent = true

/-- From `s` to `t` one answer of a session left, with the session's next number in its header (Table 9-5), and is kept with the FRAME_SEQ
it answers (R570). -/
def Answered (port : Nat) (h : CtlHdr) (r : Response) (s t : State) : Prop :=
  ∃ (ss : Session) (u : Response), tget t.sessions h.session = some ss ∧ u = { r with seq := ss.txSeq } ∧
    tget ss.answers h.frameSeq = some u ∧ h.frameSeq ∈ ss.seen ∧
    t.out = s.out ++ leaves s port (Emit.reply port (respHdr t h.session u) u)

/-- Every session but one as before. -/
def OtherSessions (sid : Nat) (s t : State) : Prop := ∀ k, k ≠ sid → tget t.sessions k = tget s.sessions k

/-! ### Warp links -/

/-- Frame `f` is the next one of link `j`, which is UP, and its tag verifies (R653). -/
def FrameComes (s : State) (j : Nat) (f : WarpFrame) : Prop :=
  linkHears s j = true ∧ acceptable s j f = true ∧ (link s j).dropped = false ∧ s.reg (lkRx j) + 1 < 2 ^ 48 ∧
    (link s j).ctr1 + 1 < 2 ^ 48

/-- From `s` to `t` the frame was taken and acknowledged: the next counter is expected, and one ACK naming the frame left. -/
def FrameTaken (j : Nat) (s t : State) : Prop :=
  t.reg (lkRx j) = s.reg (lkRx j) + 1 ∧ ∃ a : WarpFrame, a.info = s.reg (lkRx j) ∧ t.out = s.out ++ [Emit.warp j 7 a]

/-- The way out of this module toward `dest` is link `j`, UP, with room for `n` frames, and nothing holds partition `p`. -/
def CanSend (s : State) (dest j n p : Nat) : Prop :=
  routeTo s dest = some j ∧ linkState s j = 4 ∧ retryRoom s j n = true ∧ stopping s p = false ∧ safe s = false ∧
    s.reg (lkTx j) + n < 2 ^ 48

/-! ### The pair -/

/-- Frame `f` is the next one of link `j`, the pair link of a paired module, and is for it. -/
def PairFrame (s : State) (j : Nat) (f : WarpFrame) : Prop :=
  FrameComes s j f ∧ f.dst = moduleId s ∧ paired s = true ∧ pairLink s = some j

/-- The lease was taken: the next epoch, the state given, LEASE_HELD, 2 ms of lease, PAIR_TAKEOVER with its cause, and the
announcement on both ports (R709, R711). -/
def TookLease (epoch st cause : Nat) (s t : State) : Prop :=
  pairSt t = st ∧ t.flag A.pairStatus A.pairStatus_leaseHeld = true ∧ t.reg A.pairEpoch = epoch % 2 ^ 32 ∧
    t.pair.ownUntil = s.tb.n + 200000 ∧ RaisedM 58 0x640 (epoch % 2 ^ 32 + cause * 2 ^ 32) s t ∧ Emit.announce 0 ∈ t.out ∧
    Emit.announce 1 ∈ t.out ∧ MemKept s t

end Sys2Proof
end

