-- ==== Sys2Proof/Certificates/Slice0/Obligations.lean ====
section
/-! DEFINITION. The statements about the module, for the provers. -/

open Sys2Proof Sys2Proof.Machine

/-! ### The module -/

/-- The module takes the command at the front of its queue: a step is exec of it on the state with the queue's rest. -/
def Obligations.StepRunsTheFrontCommand : Prop :=
  ∀ (c : Instr) (r : List Instr) (s : State), step { s with pending := c :: r } = exec c { s with pending := r }

/-! ### Stream programs, stations and the Seam -/

/-- The doorbell sets a queue's TAIL (R82, R116), for firmware and for a partition's own host-core queue (R945), and wakes a module in
DOZE (R761); a write that submits descriptors on a module that follows a pair's holder holds them back for the holder's DECISION
(R693; the model's reading of a step is log 105). BASE and CTL are firmware's (R81); a write of BASE clears the CMD_SEQ reference (R88)
and does not keep its low six bits (the model's choice, log 96), and EN written 0 clears FETCH_ERR (R946). -/
def Obligations.SubmissionQueueRegisters : Prop :=
  (∀ (who : Who) (q tail : Nat) (s : State),
    (who = .firmware ∧ q < 64 ∨ ∃ p, who = .part p ∧ q < 32 ∧ s.fget (A.loomSqCtl q) A.loomSqCtl_part = p) →
    (inStep s = false ∨ tail % 2 ^ 16 % 2 ^ sqLog2 s q = s.fget (A.loomSqTail q) A.loomSqTail_tail % 2 ^ sqLog2 s q) →
    Runs (.loomSqTail who q tail) s fun t =>
      t.fget (A.loomSqTail q) A.loomSqTail_tail = tail % 2 ^ 16 ∧
      (s.thimble.state = .doze → t.thimble.state = .dozeExit) ∧
      Kept [A.loomSqTail q, A.thimbleSleepStatus, A.thimbleSleepCtl] s t ∧
      t = { s with regs := t.regs, thimble := t.thimble }) ∧
  (∀ (who : Who) (q tail : Nat) (s : State), mayUseQueue s who q = true → follows s = true → s.pair.work = [] →
    tail % 2 ^ 16 % 2 ^ sqLog2 s q ≠ s.fget (A.loomSqTail q) A.loomSqTail_tail % 2 ^ sqLog2 s q →
    Runs (.loomSqTail who q tail) s fun t =>
      t.fget (A.loomSqTail q) A.loomSqTail_tail = tail % 2 ^ 16 ∧
      t.pair = { s.pair with held := s.pair.held ++ [(q, s.fget (A.loomSqTail q) A.loomSqTail_tail % 2 ^ sqLog2 s q)] } ∧
      (s.fget (A.loomSqHead q) A.loomSqHead_head = s.fget (A.loomSqTail q) A.loomSqTail_tail % 2 ^ sqLog2 s q →
        queueReady t q = false) ∧
      Kept [A.loomSqTail q, A.thimbleSleepStatus, A.thimbleSleepCtl] s t ∧
      t = { s with regs := t.regs, thimble := t.thimble, pair := t.pair }) ∧
  (∀ (p q tail : Nat) (s : State), (32 ≤ q ∨ s.fget (A.loomSqCtl q) A.loomSqCtl_part ≠ p) → Idle (.loomSqTail (.part p) q tail) s) ∧
  (∀ (q base : Nat) (s : State), q < 64 →
    Runs (.loomSqBase .firmware q base) s fun t =>
      t.fget (A.loomSqBase q) A.loomSqBase_base = base / 64 * 64 % 2 ^ 48 ∧ (qstate t q).ref = none ∧
      (∀ k, k ≠ q → qstate t k = qstate s k) ∧
      Kept [A.loomSqBase q] s t ∧ t = { s with regs := t.regs, queues := t.queues }) ∧
  (∀ (p q base : Nat) (s : State), Idle (.loomSqBase (.part p) q base) s) ∧
  (∀ (q val : Nat) (s : State), q < 64 →
    Runs (.loomSqCtl .firmware q val) s fun t =>
      t.fget (A.loomSqCtl q) (12, 0) = val % 2 ^ 13 ∧
      t.reg (A.loomSqHead q) = (if val.testBit 0 then s.reg (A.loomSqHead q)
        else setFld (s.reg (A.loomSqHead q)) 63 63 0 % 2 ^ 64) ∧
      Kept [A.loomSqCtl q, A.loomSqHead q] s t ∧ t = { s with regs := t.regs }) ∧
  (∀ (p q val : Nat) (s : State), Idle (.loomSqCtl (.part p) q val) s)

/-- Acceptance: the queue whose turn it is has its HEAD advanced by one entry. A descriptor that passes every check takes the next
tracker slot and waits; one that fails a check of its form is completed by the Loom with CMD_ERROR (R82 to R90, R115). An
entry that cannot be read sets FETCH_ERR and stays (R946). -/
def Obligations.DescriptorAccepted : Prop :=
  (∀ (s : State) (q used : Nat) (d : Desc), pickQueue s = some (q, used) → q < 64 → (canon (headAddr s q)).isSome = true →
    clearingAt s (headAddr s q) 64 = false → badRange s (headAddr s q) 64 = false →
    d = Desc.ofBytes (softBytes s (headAddr s q) 64) →
    (d.extOpb = true → blockBound d.opcode = true → clearingAt s d.opbAddr d.opbLen = false) → formCheck d = none → stateCheck (s.fetched q used) q d = none →
    (∀ k ∈ s.tracked, k.part = d.part → k.failed = false) → (∀ l ∈ s.lingering, l.part = d.part → l.failed = false) →
    Runs (.descriptorAccept .clean) s fun t =>
      t.fget (A.loomSqHead q) A.loomSqHead_head = (s.fget (A.loomSqHead q) A.loomSqHead_head + 1) % 2 ^ sqLog2 s q ∧
      t.nextSlot = s.nextSlot + 1 ∧ t.tracked.length = s.tracked.length + 1 ∧
      (∃ n ∈ t.tracked, n.slot = s.nextSlot ∧ n.queue = q ∧ n.phase = .waiting ∧ n.compl = .none ∧ n.desc = d) ∧
      (qstate t q).ref = some d.cmdSeq ∧ t.events = s.events ∧ Kept [A.loomSqHead q] s t) ∧
  (∀ (s : State) (q used det : Nat) (d : Desc), pickQueue s = some (q, used) → q < 64 → (canon (headAddr s q)).isSome = true →
    clearingAt s (headAddr s q) 64 = false → badRange s (headAddr s q) 64 = false →
    d = Desc.ofBytes (softBytes s (headAddr s q) 64) →
    (d.extOpb = true → blockBound d.opcode = true → clearingAt s d.opbAddr d.opbLen = false) → formCheck d = some det →
    Runs (.descriptorAccept .clean) s fun t =>
      t.fget (A.loomSqHead q) A.loomSqHead_head = (s.fget (A.loomSqHead q) A.loomSqHead_head + 1) % 2 ^ sqLog2 s q ∧
      (∃ n ∈ t.tracked, n.slot = s.nextSlot ∧ n.phase = .ended ∧ n.status = some (4, det) ∧ n.compl = .raised) ∧
      ((d.opcode ≠ 0x60 ∧ d.opcode ≠ 0x61 ∨ s.cancelDue = []) →
        t.events = s.events ++ [Event.mk 67 1 d.part false (coarse s) (now s) (d.cmdSeq + 4 * 2 ^ 48) (some s.nextSlot)]) ∧
      Kept [A.loomSqHead q] s t) ∧
  (∀ (obs : MemObs) (s : State) (q used : Nat), pickQueue s = some (q, used) → q < 64 →
    (canon (headAddr s q)).isSome = true → clearingAt s (headAddr s q) 64 = false →
    (obs = .symbols 2 ∨ obs = .ctlParity ∨ obs = .clean ∧ badRange s (headAddr s q) 64 = true) →
    Runs (.descriptorAccept obs) s fun t =>
      t.fget (A.loomSqHead q) A.loomSqHead_fetchErr = 1 ∧
      t.fget (A.loomSqHead q) A.loomSqHead_head = s.fget (A.loomSqHead q) A.loomSqHead_head ∧
      t.tracked = s.tracked ∧ t.events = s.events ∧ MemKept s t) ∧
  (∀ (obs : MemObs) (s : State), pickQueue s = none → Idle (.descriptorAccept obs) s)

/-- Dispatch: the first eligible command of a logical station mapped to the station, in acceptance order, runs on its free unit,
with its operand block, read from memory where it is external, and a credit granted for each of its four receive slots (R43, R86,
R91 to R93). -/
def Obligations.DispatchRunsTheCommand : Prop :=
  ∀ (st unit : Nat) (s : State) (c : Tracked), s.flag A.loomCtl A.loomCtl_enable = true → halted s = false →
    stationShut s st = false → s.thimble.state = .run → unitCmd s st unit Phase.onUnit = none → s.cmd? c.slot = some c →
    (c.desc.extOpb = true → badRange s c.desc.opbAddr c.desc.opbLen = false ∧
      ownsRange s c.part c.desc.opbAddr c.desc.opbLen = true ∧ clearingAt s c.desc.opbAddr c.desc.opbLen = false) →
    (s.tracked.find? fun t => t.phase == .waiting && (t.compl == .none || t.rerun) && t.status == none &&
      physical s t.logical == st && unitOf t == unit && eligible s t && samplerTurn s t && !stopping s t.part && landingFree s st t)
      = some c →
    Runs (.dispatch st unit) s fun t =>
      (∃ u : Tracked, t.cmd? c.slot = some u ∧ u.phase = .running ∧ u.place = some (st, unit) ∧ u.started = true ∧
        u.opb = if c.desc.extOpb then softBytes s c.desc.opbAddr c.desc.opbLen else c.opb) ∧
      (∀ k ∈ t.chans, k.cons = c.slot → k.credits = 4 ∧ k.net = 0) ∧
      t.events = s.events ∧ Kept [A.dbgTrcStatus st] s t ∧
      t = { s with tracked := t.tracked, chans := t.chans, gated := s.gated.filter (· != st), regs := t.regs, traces := t.traces,
                   trcDropped := t.trcDropped, traceHold := t.traceHold }

/-- A tile leaves its producer for every consumer and spends one credit of each (R44, R46; a consumer that has left its unit takes none: log 108); a station takes the expected tile into
the receive window, drops one of a lower index, and reports one of a higher index (R48, R940); one of another partition's tag is
dropped flit by flit and reported (R41); a credit that reaches the producer is one more it holds (R45, R938). That a dropped tile's
credit returns, and what names the source and class of its report, is the model's choice (log 17). -/
def Obligations.TilesAndCredits : Prop :=
  (∀ (slot out : Nat) (s : State) (c : Tracked) (o : OutBind) (x : Tile) (r : List Tile), s.cmd? slot = some c →
    c.outs[out]? = some o → o.queue = x :: r → c.phase.onUnit = true → (c.phase = .running ∨ r ≠ []) →
    (outChans s slot out).length = o.ncons → (∀ k ∈ outChans s slot out, takesTiles s k = true → 0 < k.credits) →
    s.traceHold.contains c.station = false → s.frozen = false → stopping s c.part = false →
    Runs (.tileSend slot out) s fun t =>
      t.chans = s.chans.map (fun k => if k.prod = slot ∧ k.out = out ∧ takesTiles s k = true then
        { k with credits := k.credits - 1, flight := k.flight ++ [Flit.mk c.part x] } else k) ∧
      (∃ (u : Tracked) (p : OutBind), t.cmd? slot = some u ∧
        u.tilesOut = (if c.rerun = true ∨ x.index < o.sent then c.tilesOut else c.tilesOut + 1) ∧ u.moved = s.tb.n ∧
        u.outs[out]? = some p ∧ p.queue = r ∧ p.sent = max o.sent (x.index + 1)) ∧
      t.events = s.events ∧ Kept (dbgRegs c.station) s t) ∧
  (∀ (slot inp : Nat) (s : State) (c : Tracked) (k : Chan) (b : InBind) (f : Flit) (r : List Flit), s.cmd? slot = some c →
    inChan? s slot inp = some k → c.ins[inp]? = some b → k.flight = f :: r → s.frozen = false → f.tag = c.part →
    f.tile.index = b.next → b.discard = false → f.tile.reserved = 0 → f.tile.format < 0x10 →
    wholeRow f.tile.format (tileRowBytes f.tile) = true → (f.tile.zc = true → c.desc.cls ≠ 1) →
    Runs (.tileArrive slot inp) s fun t =>
      (∃ (u : Tracked) (b' : InBind), t.cmd? slot = some u ∧ u.ins[inp]? = some b' ∧ b'.window = b.window ++ [f.tile] ∧ b'.next = b.next + 1 ∧
        b'.lastIn = f.tile.last) ∧
      (∃ k' : Chan, inChan? t slot inp = some k' ∧ k'.flight = r ∧ k'.net = k.net ∧ k'.credits = k.credits) ∧
      t.events = s.events ∧ Kept (dbgRegs c.station) s t) ∧
  (∀ (slot inp : Nat) (s : State) (c : Tracked) (k : Chan) (b : InBind) (f : Flit) (r : List Flit), s.cmd? slot = some c →
    inChan? s slot inp = some k → c.ins[inp]? = some b → k.flight = f :: r → s.frozen = false → f.tag = c.part →
    f.tile.index < b.next →
    Runs (.tileArrive slot inp) s fun t =>
      (∃ k' : Chan, inChan? t slot inp = some k' ∧ k'.flight = r ∧ k'.net = k.net + 1) ∧ Kept [] s t ∧ t = { s with chans := t.chans }) ∧
  (∀ (slot inp : Nat) (s : State) (c : Tracked) (k : Chan) (b : InBind) (f : Flit) (r : List Flit), s.cmd? slot = some c →
    inChan? s slot inp = some k → c.ins[inp]? = some b → k.flight = f :: r → s.frozen = false → f.tag ≠ c.part →
    stopping s f.tag = false → tgetD s.tdFree f.tag 0 ≤ s.tb.n →
    Runs (.tileArrive slot inp) s fun t =>
      t.fget A.loomTagDrop A.loomTagDrop_count = satTo 32 (s.fget A.loomTagDrop A.loomTagDrop_count + tileFlits f.tile) ∧
      t.reports = s.reports ++ [(dataSource c.station, 2, 0x10)] ∧ t.tracked = s.tracked ∧
      (∃ k' : Chan, inChan? t slot inp = some k' ∧ k'.flight = r ∧ k'.net = k.net + 1)) ∧
  (∀ (slot inp : Nat) (s : State) (c : Tracked) (k : Chan) (b : InBind) (f : Flit) (r : List Flit), s.cmd? slot = some c →
    inChan? s slot inp = some k → c.ins[inp]? = some b → k.flight = f :: r → s.frozen = false → f.tag = c.part →
    b.next < f.tile.index → c.station < 48 →
    Runs (.tileArrive slot inp) s fun t =>
      (t.reg (A.ceErrStatus c.station)).testBit 4 = true ∧ t.reports = s.reports ++ [(dataSource c.station, 2, 0x10)] ∧
      t.tracked = s.tracked ∧ Kept [A.ceErrStatus c.station] s t) ∧
  (∀ (slot inp : Nat) (s : State) (k : Chan), inChan? s slot inp = some k → 0 < k.net →
    Runs (.creditReturn slot inp) s fun t =>
      (∃ k' : Chan, inChan? t slot inp = some k' ∧ k'.credits = k.credits + 1 ∧ k'.net = k.net - 1) ∧ Kept [] s t ∧
      t = { s with chans := t.chans })

/-- A command that runs, or still drains on its unit, and has moved no tile for LOOM_STALL_LIMIT is recorded and raises one LOOM_STALL event (R95); an abort
makes LOOM_ABORT busy and raises ABORT_REQ (R96), and one for another partition's command, or while one is in progress, does
nothing (R945). -/
def Obligations.StallsAndAborts : Prop :=
  (∀ (slot : Nat) (s : State) (c : Tracked), s.cmd? slot = some c → c.phase.onUnit = true →
    c.place ≠ none → s.fget A.loomStallLimit A.loomStallLimit_limitUs ≠ 0 →
    c.moved + s.fget A.loomStallLimit A.loomStallLimit_limitUs * 100 ≤ s.tb.n → c.stallSent = false →
    Runs (.loomStall slot) s fun t =>
      t.reg A.loomStallSeq = c.desc.cmdSeq + c.part * 2 ^ 48 + 2 ^ 63 ∧ RaisedP 67 3 c.part c.desc.cmdSeq s t ∧
      (∃ u : Tracked, t.cmd? slot = some u ∧ u.stallSent = true) ∧ Kept [A.loomStallSeq] s t ∧
      t = { s with regs := t.regs, events := t.events, tracked := t.tracked }) ∧
  (∀ (who : Who) (val : Nat) (s : State), (who = .firmware ∨ who = .part (fld val 50 48)) → s.abort = none →
    stopping s (fld val 50 48) = false →
    Runs (.loomAbort who val) s fun t =>
      t.abort = some (fld val 50 48, fld val 47 0) ∧ RaisedP 67 2 (fld val 50 48) (fld val 47 0) s t ∧ Kept [] s t ∧
      t = { s with abort := t.abort, events := t.events }) ∧
  (∀ (who : Who) (val : Nat) (s : State), (s.abort ≠ none ∨ ∃ p, who = .part p ∧ p ≠ fld val 50 48) → Idle (.loomAbort who val) s)

/-- The arbiter grants one pending event: it leaves the events, takes the next EA_SEQ, and EA_NEXT_SEQ shows the one after (R623, R624,
R626); with the log off and an event that decides nothing, nothing else changes. The grant of a COMPLETION fixes the record of its
command: the status and detail that stand then, the grant's EA_SEQ and the event's timestamp, held for its completion queue (R105,
R109, R110, R633). -/
def Obligations.EventsAreGranted : Prop :=
  (∀ (s : State) (src : Nat) (e : Event), s.frozen = false → dieOn s = true → nextSource s = some src →
    (s.events.find? fun e => e.source == src) = some e →
    e.type ∉ [1, 2, 0x10, 0x20, 0x21, 0x30, 0x31, 0x300] → s.flag A.eaCtl A.eaCtl_logEn = false →
    s.duePauses = [] → s.coldQ = [] → s.pair.work = [] → s.pair.held = [] →
    Runs .eventGrant s fun t =>
      t.events = s.events.erase e ∧ t.eaNext = (s.eaNext + 1) % 2 ^ 32 ∧ t.eaLast = e.source ∧
      t.reg A.eaNextSeq = (s.eaNext + 1) % 2 ^ 32 ∧ Kept (A.eaNextSeq :: (List.range 64).map A.dbgGcnt) s t ∧
      t = { s with events := t.events, eaNext := t.eaNext, eaLast := t.eaLast, regs := t.regs }) ∧
  (∀ (s : State) (e : Event) (slot : Nat) (c : Tracked), s.frozen = false → dieOn s = true → nextSource s = some e.source →
    (s.events.find? fun x => x.source == e.source) = some e → e.type = 1 → e.slot = some slot → s.cmd? slot = some c →
    c.op = 0x00 ∨ c.op = 0x01 ∨ c.op = 0x02 ∨ c.op = 0x10 → c.desc.quiet = false → c.abortReq = false → stopping s c.part = false →
    c.upstream = false → c.status = some (0, 0) → s.cancelled.contains (c.part, c.desc.group) = false →
    s.flag A.eaCtl A.eaCtl_logEn = false → (∀ u ∈ s.tracked, u.phase ≠ .draining) →
    s.duePauses = [] → s.coldQ = [] → s.pair.work = [] → s.pair.held = [] →
    Runs .eventGrant s fun t =>
      (∃ u : Tracked, t.cmd? slot = some u ∧ u.compl = .granted ∧
        u.record = some (CplRec.mk (if c.replayed then 3 else 0) 0 s.eaNext e.ts (min e.source 63))) ∧
      t.recQ = s.recQ ++ [slot] ∧ t.eaNext = (s.eaNext + 1) % 2 ^ 32 ∧
      Kept (A.eaNextSeq :: dbgRegs e.source) s t)

/-- The Loom writes the oldest held record of a queue whose ring has room: its 32 bytes at BASE + 32 * TAIL, TAIL one on (R109 to
R111, Table 1-7). -/
def Obligations.CompletionRecordWritten : Prop :=
  ∀ (q : Nat) (s : State) (c : Tracked) (r : CplRec), heldRecord s q = some (c, r) → q < 48 → c.queue = q → cqRoom s q = true →
    dieOn s = true → s.frozen = false → Writable s (s.reg (A.loomCqBase q) + 32 * s.reg (A.loomCqTail q)) 32 →
    Runs (.completionRecordWrite q) s fun t =>
      Stored (s.reg (A.loomCqBase q) + 32 * s.reg (A.loomCqTail q)) (recordBytes c r (qstate s q).phase) s t ∧
      t.reg (A.loomCqTail q) = (s.reg (A.loomCqTail q) + 1) % 2 ^ cqLog2 s q ∧
      ((qstate t q).phase = (if (s.reg (A.loomCqTail q) + 1) % 2 ^ cqLog2 s q = 0 then !(qstate s q).phase
        else (qstate s q).phase)) ∧
      t.recQ = s.recQ.erase c.slot ∧ t.settling = s.settling.filter (fun x => x.1 != c.slot) ∧ RegsKept [A.loomCqTail q] s t

/-- A dispatched NOP completes with DONE, its COMPLETION raised by its station (R67). An HTASK writes the tile that arrived first into its
input buffer as a tile record (R72) and hands a full task over by a record in its ring, TAIL advanced, and an interrupt to each hart of
its partition in the cluster (R73); HC_TASK_DONE with status 0 begins its output phase (R74, R75); the wait for the handler stays in the
stall time (R77, R95). -/
def Obligations.NopAndHostTasks : Prop :=
  (∀ (slot : Nat) (s : State) (c : Tracked), runningCmd s slot 0x00 = some c → c.ins = [] → c.outs = [] → c.started = true →
    c.rerun = false → c.compl = .none → c.work.attn = none → (∀ k ∈ s.tasks, k.slot ≠ slot) →
    Runs (.nop slot) s fun t =>
      t.events = s.events ++ [Event.mk c.station 1 c.part false (coarse s) (now s) c.desc.cmdSeq (some slot)] ∧
      (∃ u : Tracked, t.cmd? slot = some u ∧ u.phase = .ended ∧ u.status = some (0, 0) ∧ u.compl = .raised) ∧
      Kept (s.tracked.map fun k : Tracked => A.dbgTrcStatus k.station) s t) ∧
  ((∀ (slot i : Nat) (l : List Nat) (s : State) (c : Tracked) (b : InBind) (x : Tile) (r : List Tile),
    runningCmd s slot 0x70 = some c → c.work.opened = true → c.work.aux2 = 0 → c.arrivals = i :: l → c.ins[i]? = some b →
    b.window = x :: r → c.work.pos + (tileRecord x).length ≤ opw c.opb 5 63 48 * 1024 →
    clearingAt s (opw c.opb 5 47 0 + c.work.pos) (tileRecord x).length = false →
    ownsRange s c.part (opw c.opb 5 47 0 + c.work.pos) (tileRecord x).length = true →
    Writable s (opw c.opb 5 47 0 + c.work.pos) (tileRecord x).length →
    Runs (.htask slot) s fun t =>
      Stored (opw c.opb 5 47 0 + c.work.pos) (tileRecord x) s t ∧
      (∃ (u : Tracked) (b' : InBind), t.cmd? slot = some u ∧ u.work.pos = c.work.pos + (tileRecord x).length ∧ u.work.aux = c.work.aux + 1 ∧
        u.arrivals = l ∧ u.ins[i]? = some b' ∧ b'.window = r) ∧
      t.events = s.events ∧ RegsKept (dbgRegs c.station) s t) ∧
  (∀ (slot : Nat) (s : State) (c : Tracked), runningCmd s slot 0x70 = some c → c.work.opened = true → c.work.aux2 = 0 →
    c.inputsDone = true → c.station < 54 → MemInv s →
    (s.fget (A.hcTaskTail (c.station - 52) c.part) A.hcTaskTail_tail + 1) % 2 ^ (taskRing s (c.station - 52) c.part).2 ≠
      s.fget (A.hcTaskHead (c.station - 52) c.part) A.hcTaskHead_head →
    Runs (.htaskHandover slot) s fun t =>
      t.fget (A.hcTaskTail (c.station - 52) c.part) A.hcTaskTail_tail =
        (s.fget (A.hcTaskTail (c.station - 52) c.part) A.hcTaskTail_tail + 1) % 2 ^ (taskRing s (c.station - 52) c.part).2 ∧
      t.tasks = s.tasks ++ [HTask.mk (c.station - 52) (tgetD s.nextTask (c.station - 52) 0) c.part slot] ∧
      (∃ u : Tracked, t.cmd? slot = some u ∧ u.work.aux2 = 1 ∧ u.moved = c.moved) ∧
      t.out = s.out ++ (if s.fget (A.hcTaskTail (c.station - 52) c.part) A.hcTaskTail_tail =
        s.fget (A.hcTaskHead (c.station - 52) c.part) A.hcTaskHead_head
        then (clusterHarts s (c.station - 52) c.part).map (fun h => Emit.taskIrq h c.part) else []) ∧
      MemKeptBut ((taskRing s (c.station - 52) c.part).1 +
        64 * s.fget (A.hcTaskTail (c.station - 52) c.part) A.hcTaskTail_tail) 64 s t ∧ t.events = s.events) ∧
  (∀ (who : Who) (cluster task : Nat) (s : State) (k : HTask) (c : Tracked),
    (s.tasks.find? fun k => k.cluster == cluster && k.task == task % 2 ^ 32 && (who.isFw || who.isPart k.part)) = some k →
    (s.tasks.find? fun j => j.slot == k.slot) = some k → s.cmd? k.slot = some c → c.outs ≠ [] → cluster < 2 → k.part < 8 →
    Runs (.hcTaskDone who cluster task 0) s fun t =>
      (∃ u : Tracked, t.cmd? k.slot = some u ∧ u.work.aux2 = 2 ∧ u.moved = c.moved) ∧
      t.tasks = s.tasks.filter (fun j => j.slot != k.slot) ∧
      t.fget (A.hcTaskCount cluster k.part) A.hcTaskCount_done =
        satTo 32 (s.fget (A.hcTaskCount cluster k.part) A.hcTaskCount_done + 1) ∧
      t.fget (A.hcTaskCount cluster k.part) A.hcTaskCount_waiting =
        s.fget (A.hcTaskCount cluster k.part) A.hcTaskCount_waiting - 1 ∧
      Kept [A.hcTaskCount cluster k.part] s t) ∧
  (∀ (p cluster task status : Nat) (s : State), (∀ k ∈ s.tasks, k.cluster = cluster → k.task = task % 2 ^ 32 → k.part ≠ p) →
    Idle (.hcTaskDone (.part p) cluster task status) s))

/-- A TLOAD forms its tiles from rows of memory, in order, and an out-of-range one ends with ADDR_FAULT (R68, R70). A TSTORE writes its
next tile, row by row at its pitches, and returns the tile's credit (R45, R69): every byte outside the rows stays; of a tile of one
row the bytes stored are the row's; until its record is written a TLOAD gets values of which nothing is promised (R59, R60; log 98). -/
def Obligations.TransfersMoveTiles : Prop :=
  ((∀ (slot : Nat) (s : State) (c : Tracked) (o : OutBind), runningCmd s slot 0x01 = some c →
    (c.work.pos = 0 → tloadOwned s c = true) → roomFor s c = true → c.outs[0]? = some o → o.formed < 2 ^ 32 - 1 →
    c.work.pos + 1 < opw c.opb 6 31 0 →
    (∀ a ∈ (tloadRows c c.work.pos).1, badRange s a (tloadRows c c.work.pos).2 = false ∧
      ownsRange s c.part a (tloadRows c c.work.pos).2 = true ∧ clearingAt s a (tloadRows c c.work.pos).2 = false) →
    Runs (.tload slot) s fun t =>
      (∃ (u : Tracked) (p : OutBind) (x : Tile), t.cmd? slot = some u ∧ u.work.pos = c.work.pos + 1 ∧ u.outs[0]? = some p ∧ p.formed = o.formed + 1 ∧
        p.queue = o.queue ++ [x] ∧ x.stream = o.stream ∧ x.index = o.formed ∧ x.layer = c.desc.layerId ∧ x.last = false ∧
        x.format = opw c.opb 5 36 32 ∧ x.rowsM1 = opw c.opb 4 54 48 ∧ x.rowBytesM1 = opw c.opb 4 62 55 ∧
        x.payload = ((List.range (opw c.opb 4 54 48 + 1)).flatMap fun j =>
          softBytes s (opw c.opb 4 47 0 + c.work.pos * opw c.opb 6 63 32 + j * opw c.opb 5 31 0) (opw c.opb 4 62 55 + 1))) ∧
      t.events = s.events ∧ Kept (dbgRegs c.station) s t) ∧
  (∀ (slot : Nat) (s : State) (c : Tracked), runningCmd s slot 0x01 = some c → c.work.pos = 0 → tloadOwned s c = false →
    c.rerun = false → c.compl = .none → c.work.attn = none →
    Runs (.tload slot) s fun t => Reached slot 4 0xB t ∧ t.mem = s.mem) ∧
  (∀ (s : State) (a n : Nat), s.settling = [] → softBytes s a n = readBytes s a n)) ∧
  ((∀ (slot : Nat) (s : State) (c : Tracked) (b : InBind) (x : Tile) (r : List Tile) (at_ : Nat → Nat), runningCmd s slot 0x02 = some c →
    MemInv s → c.ins[0]? = some b → b.window = x :: r → x.last = false →
    (∀ j, at_ j = opw c.opb 4 47 0 + c.work.pos * opw c.opb 6 63 32 + j * opw c.opb 5 31 0) →
    (∀ j, j < tileRows x → inVerdicts (at_ j) = false ∧ clearingAt s (at_ j) (tileRowBytes x) = false ∧
      ownsRange s c.part (at_ j) (tileRowBytes x) = true) →
    Runs (.tstore slot) s fun t =>
      (∀ a, (∀ j i, j < tileRows x → i < tileRowBytes x → canon (at_ j + i) ≠ some a) → byteAt t a = byteAt s a) ∧
      (tileRows x = 1 → badRange s (at_ 0) (tileRowBytes x) = false →
        readBytes t (at_ 0) (rowOf x 0).length = rowOf x 0) ∧
      t.settling = s.settling ++ (List.range (tileRows x)).map (fun j => (slot, at_ j, tileRowBytes x)) ∧
      (∃ (u : Tracked) (b' : InBind), t.cmd? slot = some u ∧ u.work.pos = c.work.pos + 1 ∧ u.ins[0]? = some b' ∧ b'.window = r ∧
        b'.taken = b.taken ++ [x]) ∧
      t.events = s.events ∧
      ((∀ j, j < tileRows x → badRange s (at_ j) (tileRowBytes x) = false) → RegsKept (dbgRegs c.station) s t)))

/-! ### Matrix -/

/-- A GEMM, an ACCREDUCE and a CONVERT open when the checks of their operand block pass and their ranges are owned and readable, and
end with CMD_ERROR and the detail of the check that fails, before any tile is formed (R166, R942). -/
def Obligations.MatrixCommandsOpen : Prop :=
  (∀ (slot : Nat) (s : State) (t : Tracked) (c : GemmCfg), runningCmd s slot 0x10 = some t → t.work.opened = false →
    gemmCheck t = none → gemmCfg t.opb = some c → c.lora = 0 →
    ownsRange s t.part (opw t.opb 8 47 0) (c.e.biasBytes c.n) = true → badRange s (opw t.opb 8 47 0) (c.e.biasBytes c.n) = false →
    ownsRange s t.part (opw t.opb 9 47 0) (c.e.scaleBytes c.n) = true → badRange s (opw t.opb 9 47 0) (c.e.scaleBytes c.n) = false →
    opw t.opb 12 47 0 = 0 → clearingAt s (opw t.opb 8 47 0) (c.e.biasBytes c.n) = false →
    clearingAt s (opw t.opb 9 47 0) (c.e.scaleBytes c.n) = false →
    Runs (.gemm slot) s fun t' =>
      (∃ u : Tracked, t'.cmd? slot = some u ∧ u.work.opened = true ∧
        u.loaded = [softBytes s (opw t.opb 8 47 0) (c.e.biasBytes c.n), softBytes s (opw t.opb 9 47 0) (c.e.scaleBytes c.n)]) ∧
      t'.events = s.events ∧ Kept (dbgRegs t.station) s t') ∧
  (∀ (slot : Nat) (s : State) (t : Tracked) (d : Nat), runningCmd s slot 0x10 = some t → t.work.opened = false →
    gemmCheck t = some d → t.rerun = false → t.compl = .none →
    Runs (.gemm slot) s fun t' => Reached slot 4 d t') ∧
  (∀ (slot : Nat) (s : State) (t : Tracked) (d : Nat), runningCmd s slot 0x11 = some t → t.work.opened = false →
    reduceCheck s slot t = some d → t.rerun = false → t.compl = .none →
    Runs (.accreduce slot) s fun t' => Reached slot 4 d t') ∧
  (∀ (slot : Nat) (s : State) (t : Tracked), runningCmd s slot 0x12 = some t → t.work.opened = false →
    convertFields t.opb true = true → (Epi.of t.opb 5).scMode < 2 → (Epi.of t.opb 5).out < 0x0F →
    Runs (.convert slot) s fun t' =>
      (∃ u : Tracked, t'.cmd? slot = some u ∧ u.work.opened = true) ∧ t'.events = s.events ∧ Kept [] s t' ∧
      t' = { s with tracked := t'.tracked }) ∧
  (∀ (slot : Nat) (s : State) (t : Tracked), runningCmd s slot 0x12 = some t → t.work.opened = false →
    convertFields t.opb true = true → 2 ≤ (Epi.of t.opb 5).scMode ∨ 0x0F ≤ (Epi.of t.opb 5).out → t.rerun = false → t.compl = .none →
    Runs (.convert slot) s fun t' => Reached slot 4 0x104 t')

/-- A GEMM with its resident operand complete and the streamed tiles of an output tile taken forms that tile: rows of lanes, each
the dot product of a row of each operand, through the epilogue (R151, R172). -/
def Obligations.GemmFormsATile : Prop :=
  ∀ (slot sl : Nat) (s : State) (t : Tracked) (c : GemmCfg) (rb sb : InBind) (o : OutBind), runningCmd s slot 0x10 = some t →
    t.work.opened = true → gemmCfg t.opb = some c → c.lora = 0 → c.stat = false → c.acc = false →
    t.ins[1]? = some rb → t.ins[0]? = some sb → gemmBadTile t c = none → slicesOf c.k (sliceSizes c.k rb.taken) = some sl →
    rb.taken.length = ceilDiv c.n 128 * sl → sl * (t.work.pos / ceilDiv c.n (outWidth c.e.out) + 1) ≤ sb.taken.length →
    roomFor s t = true → t.outs[0]? = some o → o.formed < 2 ^ 32 - 1 →
    t.work.pos + 1 < ceilDiv c.n (outWidth c.e.out) * ceilDiv c.m 128 →
    Runs (.gemm slot) s fun t' =>
      FormsTile slot t o t' (fun x =>
        let w := outWidth c.e.out
        let mb := t.work.pos / ceilDiv c.n w
        let j := t.work.pos % ceilDiv c.n w
        x.last = false ∧ x.format = c.e.out ∧ x.rowsM1 = min 128 (c.m - 128 * mb) - 1 ∧
          (c.e.zc = false → x.payload = (List.range (min 128 (c.m - 128 * mb))).flatMap fun r =>
            (c.e.row c.pr (t.loaded[0]?.getD []) (t.loaded[1]?.getD []) (j * w)
              (((List.range (min w (c.n - j * w))).map (j * w + ·)).map fun n =>
                (c.pr.dot Lane.zero (operandRow c.pr.a c.k sb.taken sl mb r)
                  (operandRow c.pr.b c.k rb.taken sl (n / 128) (n % 128))).1)).bytes)) ∧
      t'.events = s.events ∧ Kept [] s t' ∧ t' = { s with tracked := t'.tracked }

/-- An ACCREDUCE takes the partial tile it expects from the input that has brought fewer, and with a whole M-block of both forms
the next output tile: rows of the sums of the two inputs' lanes, through the epilogue (R148, R179, R943). -/
def Obligations.AccreduceTakesAndForms : Prop :=
  (∀ (slot : Nat) (s : State) (t : Tracked) (c : GemmCfg) (a b : InBind) (x : Tile) (r : List Tile),
    runningCmd s slot 0x11 = some t → t.work.opened = true → gemmCfg t.opb = some c → t.ins[0]? = some a → t.ins[1]? = some b →
    a.taken = [] → b.taken = [] → a.window = x :: r → t.work.pos = 0 → 0 < ceilDiv c.n c.pr.laneWidth →
    reduceBadTile t c = false →
    Runs (.accreduce slot) s fun t' =>
      (∃ (u : Tracked) (a' : InBind), t'.cmd? slot = some u ∧ u.ins[0]? = some a' ∧ a'.taken = [x] ∧ a'.window = r ∧ a'.released = max 1 a.released) ∧
      t'.events = s.events ∧ Kept (dbgRegs t.station) s t') ∧
  (∀ (slot na nj mb j : Nat) (s : State) (t : Tracked) (c : GemmCfg) (a b : InBind) (o : OutBind) (x y : Tile),
    runningCmd s slot 0x11 = some t → t.work.opened = true → gemmCfg t.opb = some c → t.ins[0]? = some a → t.ins[1]? = some b →
    reduceBadTile t c = false → na = ceilDiv c.n c.pr.laneWidth → nj = ceilDiv c.n (outWidth c.e.out) → mb = t.work.pos / nj →
    j = t.work.pos % nj → (mb + 1) * na ≤ a.taken.length → (mb + 1) * na ≤ b.taken.length → roomFor s t = true →
    a.taken[mb * na]? = some x → a.taken[mb * na + na - 1]? = some y → t.outs[0]? = some o → o.formed < 2 ^ 32 - 1 →
    ((j + 1 < nj ∨ y.last = false) → Runs (.accreduce slot) s fun t' =>
      FormsTile slot t o t' (fun z => z.last = false ∧ z.format = c.e.out ∧ z.rowsM1 = tileRows x - 1 ∧
        (c.e.zc = false → z.payload = (List.range (tileRows x)).flatMap fun r =>
          (reduceRow c (t.loaded[0]?.getD []) (t.loaded[1]?.getD []) a.taken b.taken mb r (j * outWidth c.e.out)).bytes)) ∧
      t'.events = s.events ∧ Kept [] s t' ∧ t' = { s with tracked := t'.tracked }) ∧
    (j + 1 = nj → y.last = true → opw t.opb 12 47 0 = 0 → Runs (.accreduce slot) s fun t' =>
      Reached slot 0 0 t' ∧ ∃ (u : Tracked) (p : OutBind) (z : Tile), t'.cmd? slot = some u ∧ u.outs[0]? = some p ∧ p.formed = o.formed + 1 ∧
        p.queue = o.queue ++ [z] ∧ z.last = true ∧ z.format = c.e.out))

/-- A CONVERT takes one tile and forms its output tile: each element converted to binary32, multiplied by the scale of SCALE_MODE 1,
and rounded to OUT_FMT (R180). -/
def Obligations.ConvertFormsATile : Prop :=
  ∀ (slot : Nat) (s : State) (t : Tracked) (b : InBind) (o : OutBind) (x : Tile) (r : List Tile), runningCmd s slot 0x12 = some t →
    t.work.opened = true → t.ins[0]? = some b → b.window = x :: r → roomFor s t = true → (∀ y ∈ b.window, convertTileBad t.opb y = none) →
    t.outs[0]? = some o → o.formed < 2 ^ 32 - 1 → x.last = false →
    Runs (.convert slot) s fun t' =>
      FormsTile slot t o t' (fun z => z.last = false ∧ z.format = (Epi.of t.opb 5).out ∧ z.rowsM1 = x.rowsM1 ∧
        ((Epi.of t.opb 5).zc = false → z.payload = (List.range (tileRows x)).flatMap fun j =>
          (rowOut (Epi.of t.opb 5).out (((convertIn t.opb x.format (rowOf x j)).map Prod.fst).map fun v =>
            if (Epi.of t.opb 5).scMode = 1 then (f32Mul v (Epi.of t.opb 5).scale).1 else v)).bytes)) ∧
      (∃ (u : Tracked) (b' : InBind), t'.cmd? slot = some u ∧ u.ins[0]? = some b' ∧ b'.window = r ∧ b'.taken = b.taken ++ [x]) ∧
      t'.events = s.events ∧ Kept (dbgRegs t.station) s t'

/-- The exact lane: the products of integer operands sum exactly while the sum stays in 96 bits (R135 to R138), and splitting K into
slices does not change a lane. -/
def Obligations.ExactLanes : Prop :=
  (∀ (ln : Lane) (as bs : List Int), as.length = bs.length →
    ((List.zipWith (· * ·) as bs).sum).natAbs ≤ 2 ^ 95 - 1 →
    exactDot 0 0 ln [(127, as.map (Fv.ofInt · 0))] [(127, bs.map (Fv.ofInt · 0))] =
      { ln with v := ln.v + (List.zipWith (· * ·) as bs).sum }) ∧
  (∀ (u l : Int) (ln : Lane) (a b a' b' : OpRow), a.length = b.length →
    exactDot u l ln (a ++ a') (b ++ b') = exactDot u l (exactDot u l ln a b) a' b')

/-! ### Facet -/

/-- The scalar functions on 32-bit words: sums and products modulo 2^32, shifts by B modulo 32, signed and unsigned compares, minimum
and maximum signed, and MOVI (R205, Table 3-4); control: NOP only advances; BR, and BEZ and BNZ where their scalar says so, go to the
target and end the loops that do not hold it (R209); LOOP repeats its body COUNT times (R206); HALT ends the kernel with DONE once
every output has its LAST tile; a word that breaks R204 ends it with detail 0x120. -/
def Obligations.FacetScalarsAndControl : Prop :=
  (ScalarRow .sadd (fun a b => BitVec.ofNat 32 (a.toNat + b.toNat)) ∧
  ScalarRow .ssub (fun a b => BitVec.ofInt 32 (a.toInt - b.toInt)) ∧
  ScalarRow .smul (fun a b => BitVec.ofNat 32 (a.toNat * b.toNat)) ∧
  ScalarRow .sand (fun a b => a &&& b) ∧ ScalarRow .sor (fun a b => a ||| b) ∧ ScalarRow .sxor (fun a b => a ^^^ b) ∧
  ScalarRow .sshl (fun a b => BitVec.ofNat 32 (a.toNat * 2 ^ (b.toNat % 32))) ∧
  ScalarRow .sshr (fun a b => BitVec.ofNat 32 (a.toNat / 2 ^ (b.toNat % 32))) ∧
  ScalarRow .ssra (fun a b => BitVec.ofInt 32 (a.toInt / 2 ^ (b.toNat % 32))) ∧
  ScalarRow .sslt (fun a b => if a.toInt < b.toInt then 1 else 0) ∧
  ScalarRow .ssltu (fun a b => if a.toNat < b.toNat then 1 else 0) ∧
  ScalarRow .smin (fun a b => BitVec.ofInt 32 (min a.toInt b.toInt)) ∧
  ScalarRow .smax (fun a b => BitVec.ofInt 32 (max a.toInt b.toInt)) ∧
  (∀ st f, Retires (.movi st f) st useMovi f fun _ _ u _ u' => ScalarSet u u' f.d f.lo)) ∧
  ((∀ st f, Retires (.facetNop st f) st useNone f fun _ _ u _ u' =>
    u' = { u with pc := u'.pc, loops := u'.loops, retired := u'.retired }) ∧
  (∀ (st : Nat) (f : FIns) (s : State) (t : Tracked) (u : FacetUnit), facetOn s st = some (t, u) → useBr.illegal f = false →
    (u.limit = 0 ∨ u.retired < u.limit) →
    Runs (.br st f) s fun s' =>
      tget s'.facets st = some { u with pc := fld f.lo.toNat 11 0, loops := loopLeave (fld f.lo.toNat 11 0) u.loops,
                                        retired := u.retired + 1 } ∧ Kept (dbgRegs st) s s') ∧
  (∀ (st : Nat) (f : FIns) (s : State) (t : Tracked) (u : FacetUnit), facetOn s st = some (t, u) → useBz.illegal f = false →
    (u.limit = 0 ∨ u.retired < u.limit) →
    Runs (.bez st f) s (fun s' =>
      tget s'.facets st = some (if u.sget f.a = 0
        then { u with pc := fld f.lo.toNat 11 0, loops := loopLeave (fld f.lo.toNat 11 0) u.loops, retired := u.retired + 1 }
        else { u with pc := (loopNext u.pc u.loops).1, loops := (loopNext u.pc u.loops).2, retired := u.retired + 1 }) ∧
      Kept (dbgRegs st) s s') ∧
    Runs (.bnz st f) s (fun s' =>
      tget s'.facets st = some (if u.sget f.a ≠ 0
        then { u with pc := fld f.lo.toNat 11 0, loops := loopLeave (fld f.lo.toNat 11 0) u.loops, retired := u.retired + 1 }
        else { u with pc := (loopNext u.pc u.loops).1, loops := (loopNext u.pc u.loops).2, retired := u.retired + 1 }) ∧
      Kept (dbgRegs st) s s')) ∧
  (∀ (st : Nat) (f : FIns) (s : State) (t : Tracked) (u : FacetUnit), facetOn s st = some (t, u) → useLoop.illegal f = false →
    (u.limit = 0 ∨ u.retired < u.limit) → u.pc < fld f.lo.toNat 11 0 → u.loops = [] → f.i = true → fld f.lo.toNat 31 12 ≠ 0 →
    Runs (.loop st f) s fun s' =>
      (∃ u' : FacetUnit, tget s'.facets st = some u' ∧ u'.pc = u.pc + 1 ∧
        u'.loops = [{ first := u.pc + 1, last := fld f.lo.toNat 11 0, left := fld f.lo.toNat 31 12 }]) ∧ Kept (dbgRegs st) s s') ∧
  (∀ (st : Nat) (f : FIns) (s : State) (t : Tracked) (u : FacetUnit), facetOn s st = some (t, u) → useNone.illegal f = false →
    (u.limit = 0 ∨ u.retired < u.limit) → t.abortReq = false → t.allLast = true → t.rerun = false → t.compl = .none →
    Runs (.halt st f) s fun s' => Reached t.slot 0 0 s') ∧
  (∀ (st : Nat) (f : FIns) (s : State) (t : Tracked) (u : FacetUnit), facetOn s st = some (t, u) → useNone.illegal f = true →
    t.rerun = false → t.compl = .none → Runs (.facetNop st f) s fun s' => Reached t.slot 4 0x120 s'))

/-- The vector float functions and the transcendentals: each active lane gets the binary32 function of its sources, and the command
gains the flags that active lanes raise; VSEL writes every lane; exact results of Table 3-5's arguments are 1 for e^0 and 2^0, 0 for
the logarithms of 1, infinity with DZ for the reciprocal of 0 (R205, R212 to R217, R219 to R221). -/
def Obligations.FacetVectorFloat : Prop :=
  (FloatRow2 .vadd f32Add ∧ FloatRow2 .vsub f32Sub ∧ FloatRow2 .vmul f32Mul ∧ FloatRow2 .vdiv f32Div ∧
  FloatRow2 .vmin f32Min ∧ FloatRow2 .vmax f32Max ∧
  FloatRow1 .vabs (fun _ => f32Abs) ∧ FloatRow1 .vneg (fun _ => f32NegOp) ∧ FloatRow1 .vsqrt (fun _ => f32Sqrt) ∧
  FloatRow1 .vcvtfi (fun f => f32ToInt (fld f.lo.toNat 1 0)) ∧
  FloatRow1 .vcvtif (fun _ a => f32OfInt (sext 32 a)) ∧
  (∀ st f, Retires (.vfma st f) st useV3 f fun _ t u s' u' =>
    VecSet u u' f.d (active u f) (fun k => BitVec.ofNat 32
      (f32Fma (laneA u f k).toNat (laneB u f k).toNat ((u.vget f.c).getD k 0).toNat).1) ∧
    FlagsOr t s' (active u f) (fun k => (f32Fma (laneA u f k).toNat (laneB u f k).toNat ((u.vget f.c).getD k 0).toNat).2)) ∧
  (∀ st f, Retires (.vmov st f) st useVmov f fun _ _ u _ u' =>
    VecSet u u' f.d (active u f) (fun k => if f.i then f.lo else laneA u f k)) ∧
  (∀ st f, Retires (.vsel st f) st useV2 f fun _ _ u _ u' =>
    VecSet u u' f.d (fun _ => true) (fun k => if active u f k then laneA u f k else laneB u f k))) ∧
  (FloatRow1 .exp (fun _ => f32Exp) ∧ FloatRow1 .exp2 (fun _ => f32Exp2) ∧ FloatRow1 .log (fun _ => f32LogOp false) ∧
  FloatRow1 .log2 (fun _ => f32LogOp true) ∧ FloatRow1 .recip (fun _ => f32Recip) ∧ FloatRow1 .rsqrt (fun _ => f32Rsqrt) ∧
  FloatRow1 .sigmoid (fun _ => f32Sigmoid) ∧ FloatRow1 .tanh (fun _ => f32Tanh) ∧ FloatRow1 .erf (fun _ => f32Erf) ∧
  FloatRow1 .geluTanh (fun _ => f32GeluTanh) ∧ FloatRow1 .geluErf (fun _ => f32GeluErf) ∧ FloatRow1 .silu (fun _ => f32Silu) ∧
  f32Exp 0 = (0x3F800000, 0) ∧ f32Exp2 0 = (0x3F800000, 0) ∧ f32LogOp false 0x3F800000 = (0, 0) ∧
  f32LogOp true 0x3F800000 = (0, 0) ∧ f32Recip 0 = (0x7F800000, 0x80) ∧ f32Recip 0x40000000 = (0x3F000000, 0))

/-- The vector integer functions, on 32-bit lanes modulo 2^32 (R205, Table 3-4); the compares write a predicate in the active lanes, NaN
compares false and VCUN is true exactly of NaN (R216); the predicate functions combine predicates, and PLANES enables the first
lanes. -/
def Obligations.FacetIntegersAndPredicates : Prop :=
  (IntRow .viadd (fun a b => BitVec.ofNat 32 (a.toNat + b.toNat)) ∧
  IntRow .visub (fun a b => BitVec.ofInt 32 (a.toInt - b.toInt)) ∧
  IntRow .vimul (fun a b => BitVec.ofNat 32 (a.toNat * b.toNat)) ∧
  IntRow .vand (fun a b => a &&& b) ∧ IntRow .vor (fun a b => a ||| b) ∧ IntRow .vxor (fun a b => a ^^^ b) ∧
  IntRow .vshl (fun a b => BitVec.ofNat 32 (a.toNat * 2 ^ (b.toNat % 32))) ∧
  IntRow .vshr (fun a b => BitVec.ofNat 32 (a.toNat / 2 ^ (b.toNat % 32))) ∧
  IntRow .vsra (fun a b => BitVec.ofInt 32 (a.toInt / 2 ^ (b.toNat % 32))) ∧
  IntRow .vimin (fun a b => BitVec.ofInt 32 (min a.toInt b.toInt)) ∧
  IntRow .vimax (fun a b => BitVec.ofInt 32 (max a.toInt b.toInt))) ∧
  (CompareRow .vceq (fun a b => (!(f32Val a).isNan && !(f32Val b).isNan && decide (f32Ord a = f32Ord b), (f32Cmp true (fun a b => a == b) a b).2)) ∧
  CompareRow .vclt (fun a b => (!(f32Val a).isNan && !(f32Val b).isNan && decide (f32Ord a < f32Ord b),
    (f32Cmp false (fun a b => decide (a < b)) a b).2)) ∧
  CompareRow .vcle (fun a b => (!(f32Val a).isNan && !(f32Val b).isNan && decide (f32Ord a ≤ f32Ord b),
    (f32Cmp false (fun a b => decide (a ≤ b)) a b).2)) ∧
  CompareRow .vcun (fun a b => ((f32Val a).isNan || (f32Val b).isNan, (f32Un a b).2)) ∧
  CompareRow .viceq (fun a b => (decide (a = b), 0)) ∧
  CompareRow .viclt (fun a b => (decide ((BitVec.ofNat 32 a).toInt < (BitVec.ofNat 32 b).toInt), 0)) ∧
  PredRow .pand (· && ·) ∧ PredRow .por (· || ·) ∧ PredRow .pxor (· != ·) ∧
  (∀ st f, Retires (.pnot st f) st useV1 f fun _ _ u _ u' =>
    PredSet u u' f.d.toNat (active u f) (fun k => !(u.pget f.a.toNat).getD k true)) ∧
  (∀ st f, Retires (.planes st f) st useV1 f fun _ _ u _ u' =>
    PredSet u u' f.d.toNat (active u f) (fun k => decide (k < (u.sget f.a).toNat))))

/-- The lane functions: reductions over the active lanes in a tree of eight levels, a NaN as the canonical one (R214), broadcast to every lane, extract (a lane above 255
gives a free value of the two operands, log 56), slide, lane index and permutation (R205, R218). -/
def Obligations.FacetLaneFunctions : Prop :=
  ReduceRow .vrsum f32Add canonNan ∧ ReduceRow .vrmax f32Max canonNan ∧ ReduceRow .vrmin f32Min canonNan ∧
  ReduceRow .vriadd (fun a b => ((a + b) % 2 ^ 32, 0)) id ∧
  (∀ st f, Retires (.vbcast st f) st useVbcast f fun _ _ u _ u' => VecSet u u' f.d (fun _ => true) (fun _ => u.sget f.a)) ∧
  (∀ st f, Retires (.vext st f) st useVext f fun s _ u s' u' =>
    ScalarSet u u' f.d (if (u.ssrcB f).toNat < 256 then laneA u f (u.ssrcB f).toNat else Config.vext (u.ssrcB f) (u.vget f.a)) ∧
      s'.free = s.free) ∧
  (∀ st f, Retires (.vslide st f) st useV2 f fun _ _ u _ u' =>
    VecSet u u' f.d (active u f) (fun k => if k + (u.ssrcB f).toNat < 256 then laneA u f (k + (u.ssrcB f).toNat) else 0)) ∧
  (∀ st f, Retires (.vidx st f) st useVidx f fun _ _ u _ u' => VecSet u u' f.d (active u f) (fun k => BitVec.ofNat 32 k)) ∧
  (∀ st f, Retires (.vperm st f) st useV2 f fun _ _ u _ u' =>
    VecSet u u' f.d (active u f) (fun k => laneA u f ((laneB u f k).toNat % 256)))

/-- Memory and tiles: VLD and VST move 32-bit lanes at an address of Table 3-2; TWAIT binds the next tile of an input and gives its
info word, TREL returns its credit, TOPEN opens a zeroed output tile, VLDT reads and VSTT writes one, TEMIT emits it (R199 to
R202, R222 to R233). -/
def Obligations.FacetMemoryAndTiles : Prop :=
  (∀ (st : Nat) (f : FIns) (s : State) (t : Tracked) (u : FacetUnit), facetOn s st = some (t, u) → useMem.illegal f = false →
    (u.limit = 0 ∨ u.retired < u.limit) → LanesOk u → facetAddrOk false (u.sget f.a).toNat = true →
    Runs (.vld st f) s fun s' => (∃ u' : FacetUnit, tget s'.facets st = some u' ∧
      VecSet u u' f.d (active u f) (fun k => BitVec.ofNat 32 (leNat ((List.range 4).map fun i => u.byte ((u.sget f.a).toNat + 4 * k + i))))) ∧
      Kept (dbgRegs st) s s') ∧
  (∀ (st : Nat) (f : FIns) (s : State) (t : Tracked) (u : FacetUnit), facetOn s st = some (t, u) → useMem.illegal f = false →
    (u.limit = 0 ∨ u.retired < u.limit) → LanesOk u → facetAddrOk true (u.sget f.a).toNat = true →
    Runs (.vst st f) s fun s' => (∃ u' : FacetUnit, tget s'.facets st = some u' ∧
      (∀ k i, k < 256 → i < 4 → u'.byte ((u.sget f.a).toNat + 4 * k + i) =
        if active u f k then (((u.vget f.d).getD k 0) >>> (8 * i)).setWidth 8 else u.byte ((u.sget f.a).toNat + 4 * k + i)) ∧
      (∀ a, a < (u.sget f.a).toNat ∨ (u.sget f.a).toNat + 1024 ≤ a → u'.byte a = u.byte a) ∧ u'.v = u.v ∧ u'.s = u.s ∧ u'.p = u.p) ∧
      Kept (dbgRegs st) s s') ∧
  (∀ (st : Nat) (f : FIns) (s : State) (t : Tracked) (u : FacetUnit) (b : InBind) (x : Tile) (r : List Tile),
    facetOn s st = some (t, u) → useTwait.illegal f = false → (u.limit = 0 ∨ u.retired < u.limit) →
    t.ins[f.bindNo]? = some b → t.abortReq = false → tget u.handles f.handleNo = none → u.inHandles f.bindNo < 4 →
    u.lastBound.contains f.bindNo = false → b.window = x :: r →
    Runs (.twait st f) s fun s' => (∃ u' : FacetUnit, tget s'.facets st = some u' ∧ tget u'.handles f.handleNo = some (.inTile f.bindNo x) ∧
        (f.d ≠ 0 → u'.sget f.d = BitVec.ofNat 32 (infoWord x)) ∧ u'.v = u.v ∧ u'.p = u.p) ∧
      (∃ (w : Tracked) (b' : InBind), s'.cmd? t.slot = some w ∧ w.ins[f.bindNo]? = some b' ∧ b'.window = r ∧ b'.taken = b.taken ++ [x]) ∧
      Kept (dbgRegs st) s s') ∧
  (∀ (st : Nat) (f : FIns) (s : State) (t : Tracked) (u : FacetUnit) (i : Nat) (x : Tile) (b : InBind), facetOn s st = some (t, u) →
    useNone.illegal f = false → (u.limit = 0 ∨ u.retired < u.limit) → tget u.handles f.handleNo = some (.inTile i x) →
    t.ins[i]? = some b → b.released < b.taken.length →
    Runs (.trel st f) s fun s' => (∃ u' : FacetUnit, tget s'.facets st = some u' ∧ tget u'.handles f.handleNo = none) ∧
      (∃ (w : Tracked) (b' : InBind), s'.cmd? t.slot = some w ∧ w.ins[i]? = some b' ∧ b'.released = b.released + 1) ∧ Kept (dbgRegs st) s s') ∧
  (∀ (st : Nat) (f : FIns) (s : State) (t : Tracked) (u : FacetUnit) (i : Nat) (x : Tile), facetOn s st = some (t, u) →
    useVt.illegal f = false → (u.limit = 0 ∨ u.retired < u.limit) → LanesOk u → tget u.handles f.handleNo = some (.inTile i x) →
    x.format ≠ 0x0F → (f.column = true ∨ (u.sget f.a).toNat < tileRows x) →
    Runs (.vldt st f) s fun s' => (∃ u' : FacetUnit, tget s'.facets st = some u' ∧
      VecSet u u' f.d (active u f) (fun k =>
        BitVec.ofNat 32 ((tileLanes x f.column (u.sget f.a).toNat (u.ssrcB f).toNat).getD k (0, 0)).1)) ∧
      Kept (dbgRegs st) s s') ∧
  (∀ (st : Nat) (f : FIns) (s : State) (t : Tracked) (u : FacetUnit) (w : W32), facetOn s st = some (t, u) →
    useTsrc.illegal f = false → (u.limit = 0 ∨ u.retired < u.limit) → w = (if f.i then f.lo else u.sget f.a) → t.abortReq = false →
    f.bindNo < t.outs.length → tget u.handles f.handleNo = none → u.outHandles + staged s t < 4 →
    fld w.toNat 20 16 < 0x10 → wholeRow (fld w.toNat 20 16) (fld w.toNat 15 8 + 1) = true → facetZc t f.bindNo = false →
    Runs (.topen st f) s fun s' => (∃ (u' : FacetUnit) (x : Tile), tget s'.facets st = some u' ∧ tget u'.handles f.handleNo = some (.outTile f.bindNo x) ∧
      tileRows x = fld w.toNat 6 0 + 1 ∧ tileRowBytes x = fld w.toNat 15 8 + 1 ∧ x.format = fld w.toNat 20 16 ∧
      (∀ y ∈ x.payload, y = 0)) ∧ Kept (dbgRegs st) s s') ∧
  (∀ (st : Nat) (f : FIns) (s : State) (t : Tracked) (u : FacetUnit) (o : Nat) (x : Tile), facetOn s st = some (t, u) →
    useVt.illegal f = false → (u.limit = 0 ∨ u.retired < u.limit) → tget u.handles f.handleNo = some (.outTile o x) →
    x.format ≠ 0x0F → isMx x.format = false → (f.column = true ∨ (u.sget f.a).toNat < tileRows x) →
    Runs (.vstt st f) s fun s' => (∃ (u' : FacetUnit) (y : Tile), tget s'.facets st = some u' ∧ tget u'.handles f.handleNo = some (.outTile o y) ∧
      y = { x with payload := y.payload } ∧ u'.v = u.v ∧ u'.s = u.s ∧ u'.p = u.p ∧ u'.scratch = u.scratch) ∧
      Kept (dbgRegs st) s s') ∧
  (∀ (st : Nat) (f : FIns) (s : State) (t : Tracked) (u : FacetUnit) (o : Nat) (x : Tile) (b : OutBind), facetOn s st = some (t, u) →
    useTsrc.illegal f = false → (u.limit = 0 ∨ u.retired < u.limit) → tget u.handles f.handleNo = some (.outTile o x) →
    t.abortReq = false → t.work.aux.testBit o = false → t.outs[o]? = some b → b.formed < 2 ^ 32 - 1 → facetZc t o = false →
    Runs (.temit st f) s fun s' => (∃ u' : FacetUnit, tget s'.facets st = some u' ∧ tget u'.handles f.handleNo = none) ∧
      (∃ (w : Tracked) (p : OutBind) (y : Tile), s'.cmd? t.slot = some w ∧ w.outs[o]? = some p ∧ p.queue = b.queue ++ [y] ∧ p.formed = b.formed + 1 ∧
        y.payload = x.payload ∧ y.index = b.formed ∧ y.last = ((if f.i then f.lo else u.sget f.a).toNat.testBit 21)) ∧
      Kept (dbgRegs st) s s')

/-- FACET loads its kernel and parameter block, while it is staged or as it runs (R196), and sets its engine's unit to the start
state of R192 with the kernel loaded; its instructions are the words of the kernel: one instruction of a running kernel is the row
that the word's CLASS and FUNC name (R192, R197, R203, Table 3-4). -/
def Obligations.FacetRunsItsKernel : Prop :=
  (∀ (slot n : Nat) (s : State) (t : Tracked),
    (runningCmd s slot 0x30 = some t ∧ t.work.opened = false ∨ runningCmd s slot 0x30 = none ∧ stagedFacet s slot = some t) →
    facetCheck s t = none → badRange s (opw t.opb 4 47 0) (8 * (opw t.opb 4 59 48 + 1)) = false →
    badRange s (opw t.opb 5 47 0) (256 * opw t.opb 5 56 48) = false →
    clearingAt s (opw t.opb 4 47 0) (8 * (opw t.opb 4 59 48 + 1)) = false →
    clearingAt s (opw t.opb 5 47 0) (256 * opw t.opb 5 56 48) = false →
    Runs (.facet slot n) s fun s' => (∃ u : Tracked, s'.cmd? slot = some u ∧ u.phase = t.phase ∧ u.work.opened = true ∧
      u.loaded = [softBytes s (opw t.opb 4 47 0) (8 * (opw t.opb 4 59 48 + 1)),
        softBytes s (opw t.opb 5 47 0) (256 * opw t.opb 5 56 48)]) ∧ s'.events = s.events ∧ Kept (dbgRegs t.station) s s') ∧
  (∀ (slot n : Nat) (s : State) (t : Tracked), runningCmd s slot 0x30 = some t → t.work.opened = true →
    (tget s.facets t.station).map FacetUnit.slot ≠ some slot →
    Runs (.facet slot n) s fun s' => (∃ u, tget s'.facets t.station = some u ∧ u.slot = slot ∧ u.pc = 0 ∧ u.retired = 0 ∧ u.loops = [] ∧
      u.limit = opw t.opb 6 31 0 ∧ u.kernel.length = (t.loaded.headD []).length / 8 ∧
      (∀ i w, u.kernel[i]? = some w → w = BitVec.ofNat 64 (leNat (((t.loaded.headD []).drop (8 * i)).take 8))) ∧
      u.param = t.loaded.getD 1 [] ∧ (∀ i, u.vget i = List.replicate 256 0) ∧
      (∀ i, u.pget i = List.replicate 256 true) ∧ u.sget 0 = 0 ∧ u.sget 1 = BitVec.ofNat 32 (opw t.opb 6 63 32) ∧
      u.sget 31 = 0) ∧ Kept [] s s' ∧ s' = { s with facets := s'.facets, facetBank := s'.facetBank }) ∧
  (∀ e : Nat × Nat × (Nat → FIns → Instr), (e ∈ ([(0, 0, .facetNop), (0, 1, .halt), (0, 2, .br), (0, 3, .bez), (0, 4, .bnz), (0, 5, .loop), (1, 0, .sadd), (1, 1, .ssub),
      (1, 2, .smul), (1, 3, .sand), (1, 4, .sor), (1, 5, .sxor), (1, 6, .sshl), (1, 7, .sshr), (1, 8, .ssra), (1, 9, .sslt),
      (1, 10, .ssltu), (1, 11, .smin), (1, 12, .smax), (1, 13, .movi), (2, 0, .vadd), (2, 1, .vsub), (2, 2, .vmul), (2, 3, .vfma),
      (2, 4, .vmin), (2, 5, .vmax), (2, 6, .vabs), (2, 7, .vneg), (2, 8, .vdiv), (2, 9, .vsqrt), (2, 10, .vcvtfi), (2, 11, .vcvtif),
      (2, 12, .vmov), (2, 13, .vsel)] : List (Nat × Nat × (Nat → FIns → Instr))) ∨
     e ∈ ([(3, 0, .viadd), (3, 1, .visub), (3, 2, .vimul), (3, 3, .vand), (3, 4, .vor), (3, 5, .vxor), (3, 6, .vshl), (3, 7, .vshr),
      (3, 8, .vsra), (3, 9, .vimin), (3, 10, .vimax), (4, 0, .vceq), (4, 1, .vclt), (4, 2, .vcle), (4, 3, .vcun), (4, 4, .viceq),
      (4, 5, .viclt), (4, 8, .pand), (4, 9, .por), (4, 10, .pxor), (4, 11, .pnot), (4, 12, .planes), (5, 0, .exp), (5, 1, .exp2),
      (5, 2, .log), (5, 3, .log2), (5, 4, .recip), (5, 5, .rsqrt), (5, 6, .sigmoid), (5, 7, .tanh), (5, 8, .erf), (5, 9, .geluTanh),
      (5, 10, .geluErf), (5, 11, .silu)] : List (Nat × Nat × (Nat → FIns → Instr))) ∨
     e ∈ ([(6, 0, .vrsum), (6, 1, .vrmax), (6, 2, .vrmin), (6, 3, .vriadd), (6, 8, .vbcast), (6, 9, .vext), (6, 11, .vslide),
      (6, 12, .vidx), (6, 13, .vperm), (7, 0, .vld), (7, 1, .vst), (7, 2, .vldt), (7, 3, .vstt), (8, 0, .twait), (8, 1, .trel),
      (8, 2, .topen), (8, 3, .temit)] : List (Nat × Nat × (Nat → FIns → Instr)))) →
    ∀ (s : State) (slot : Nat) (t : Tracked) (u : FacetUnit) (w : W64), runningCmd s slot 0x30 = some t → t.work.opened = true →
      t.abortReq = false → facetOn s t.station = some (t, u) → u.kernel[u.pc]? = some w → fld w.toNat 63 60 = e.1 →
      fld w.toNat 59 54 = e.2.1 → fld w.toNat 33 32 = 0 →
      exec (.facet slot 1) s = exec (e.2.2 t.station (FIns.ofWord w)) s)

/-! ### Image -/

/-- CONV, POOL, ARGMAX and FUSED, open and with the input tiles taken that their next output tile rests on, form that tile of
their raster map: one row for each pixel of a segment, or of a block's row, in the map's format (R246 to R248, R259, R276,
R286). -/
def Obligations.ImageFormsTiles : Prop :=
  (∀ (slot sl : Nat) (s : State) (t : Tracked) (c : ConvCfg) (xb wb : InBind) (o : OutBind), runningCmd s slot 0x40 = some t →
    t.work.opened = true → ConvCfg.of t.opb = some c → t.ins[0]? = some xb → t.ins[1]? = some wb →
    slicesOf c.kg (sliceSizes c.kg wb.taken) = some sl → ceilDiv c.geo.cout 128 * sl ≤ wb.taken.length →
    t.work.pos + 1 < c.out.tiles → c.geo.needTiles (t.work.pos / c.out.rowTiles) ≤ xb.taken.length → roomFor s t = true →
    t.outs[0]? = some o → o.formed < 2 ^ 32 - 1 →
    Runs (.conv slot) s fun t' =>
      FormsTile slot t o t' (fun x =>
        let y := t.work.pos / c.out.rowTiles
        let g := t.work.pos % c.out.rowTiles / c.out.slices
        let k := t.work.pos % c.out.slices
        x.last = false ∧ x.format = c.e.out ∧ x.rowsM1 = c.out.segLen g - 1 ∧
          (c.e.zc = false → x.payload = (List.range (c.out.segLen g)).flatMap fun p =>
            (c.pixel (fun n => operandRow c.pr.b c.kg wb.taken sl (n / 128) (n % 128)) (t.loaded[0]?.getD []) (t.loaded[1]?.getD [])
              (c.geo.inp.at xb.taken) y (128 * g + p) (k * c.out.sc) (c.out.sliceLen k)).bytes)) ∧
      t'.events = s.events ∧ Kept (dbgRegs t.station) s t') ∧
  (∀ (slot : Nat) (s : State) (t : Tracked) (xb : InBind) (o : OutBind), runningCmd s slot 0x41 = some t → t.work.opened = true →
    t.ins[0]? = some xb → t.work.pos + 1 < (PoolCfg.of t.opb).out.tiles →
    (PoolCfg.of t.opb).geo.needTiles (t.work.pos / (PoolCfg.of t.opb).out.rowTiles) ≤ xb.taken.length → roomFor s t = true →
    t.outs[0]? = some o → o.formed < 2 ^ 32 - 1 →
    Runs (.pool slot) s fun t' =>
      FormsTile slot t o t' (fun x =>
        let p := PoolCfg.of t.opb
        let y := t.work.pos / p.out.rowTiles
        let g := t.work.pos % p.out.rowTiles / p.out.slices
        let k := t.work.pos % p.out.slices
        x.last = false ∧ x.format = p.geo.inp.fmt ∧ x.rowsM1 = p.out.segLen g - 1 ∧
          (p.zc = false → x.payload = (List.range (p.out.segLen g)).flatMap fun i =>
            (p.pixel (p.geo.inp.at xb.taken) y (128 * g + i) (k * p.out.sc) (p.out.sliceLen k)).bytes)) ∧
      t'.events = s.events ∧ Kept (dbgRegs t.station) s t') ∧
  (∀ (slot : Nat) (s : State) (t : Tracked) (xb : InBind) (o : OutBind), runningCmd s slot 0x42 = some t → t.work.opened = true →
    t.ins[0]? = some xb → t.work.pos + 1 < (argmaxDim t.opb).h * (argmaxDim t.opb).segs →
    (t.work.pos + 1) * (argmaxDim t.opb).slices ≤ xb.taken.length → roomFor s t = true → t.outs = [o] → o.formed < 2 ^ 32 - 1 →
    Runs (.argmax slot) s fun t' =>
      FormsTile slot t o t' (fun x =>
        let d := argmaxDim t.opb
        let g := t.work.pos % d.segs
        x.last = false ∧ x.format = 0x01 ∧ x.rowBytesM1 = 1 ∧ x.rowsM1 = d.segLen g - 1 ∧
          x.payload = (List.range (d.segLen g)).flatMap fun p => leBytes 2
            (argmaxOf d.fmt (unpackCodes (elemBits d.fmt) d.c (d.pixel xb.taken (t.work.pos / d.segs) (128 * g + p)))).1) ∧
      t'.events = s.events ∧ Kept (dbgRegs t.station) s t') ∧
  (∀ (slot b i : Nat) (s : State) (t : Tracked) (xb : InBind) (o : OutBind), runningCmd s slot 0x43 = some t →
    t.work.opened = true → t.ins[0]? = some xb →
    findBlock (blockTilesOut t.opb (fusedLayers t.opb)) (blockCount t.opb (fusedOut (fusedLayers t.opb))) 0 t.work.pos = (b, i) →
    t.work.pos + 1 < tilesBefore (blockTilesOut t.opb (fusedLayers t.opb)) (blockCount t.opb (fusedOut (fusedLayers t.opb))) →
    tilesBefore (blockTilesIn t.opb (fusedLayers t.opb)) (b + 1) ≤ xb.taken.length → roomFor s t = true →
    t.outs[0]? = some o → o.formed < 2 ^ 32 - 1 →
    Runs (.fused slot) s fun t' =>
      FormsTile slot t o t' (fun x =>
        let ls := fusedLayers t.opb
        let d := fusedOut ls
        let px := ((runBlock t.opb ls t.loaded b (xb.taken.drop (tilesBefore (blockTilesIn t.opb ls) b))).1.px[i / d.slices]?).getD []
        x.last = false ∧ x.format = d.fmt ∧ x.rowsM1 = px.length - 1 ∧
          (((ls.getLast?).map Layer.zc).getD false = false → x.payload = px.flatMap fun p =>
            (p.drop ((List.range (i % d.slices)).map d.sliceBytes).sum).take (d.sliceBytes (i % d.slices)))) ∧
      t'.events = s.events ∧ Kept (dbgRegs t.station) s t')

/-- ARGMAX's winner: a NaN beats every number and the first NaN wins; else the largest value, the lowest channel among equals, −0
being +0 (R277). -/
def Obligations.ArgmaxWinner : Prop :=
  (∀ (fmt : Nat) (cs : List Nat), cs ≠ [] →
    cs[(argmaxOf fmt cs).1]? = some (argmaxOf fmt cs).2 ∧
    ((elemVal fmt (argmaxOf fmt cs).2).isNan = true →
      ∀ j c, j < (argmaxOf fmt cs).1 → cs[j]? = some c → (elemVal fmt c).isNan = false) ∧
    ((elemVal fmt (argmaxOf fmt cs).2).isNan = false →
      (∀ c ∈ cs, (elemVal fmt c).isNan = false ∧ codeKey fmt c false ≤ codeKey fmt (argmaxOf fmt cs).2 false) ∧
      ∀ j c, j < (argmaxOf fmt cs).1 → cs[j]? = some c → codeKey fmt c false < codeKey fmt (argmaxOf fmt cs).2 false)) ∧
  codeKey 0x0D 0x80000000 false = codeKey 0x0D 0 false ∧ codeKey 0x0C 0x8000 false = codeKey 0x0C 0 false ∧
  codeKey 0x0B 0x8000 false = codeKey 0x0B 0 false ∧ codeKey 0x03 0x80 false = codeKey 0x03 0 false ∧
  codeKey 0x04 0x80 false = codeKey 0x04 0 false

/-! ### Attention and the ledger -/

/-- ATTN opens with its sequence list loaded, appends the next row of new keys and values to lines of the Bobbin, and for each sequence
reads its list and pins its pages in one operation (or waits where a page has 4,095 pins), takes the held positions in chunks of 128, and
computes its rows, unpinning each page with its score; it forms its next output tile of the rows computed; ATTN_BWD forms the next tile of
dQ (R304 to R312, R317, R321, R324, R333, R334, R341, R343, R349). -/
def Obligations.AttentionSteps : Prop :=
  (∀ (slot : Nat) (s : State) (t : Tracked) (c : AttnCfg) (bs : List Byte), runningCmd s slot 0x50 = some t → t.work.opened = false →
    t.ins[3]? = none → c = AttnCfg.of t.opb → bs = softBytes s c.addr (16 * c.nseq) → attnCheck s t c = none →
    badRange s c.addr (16 * c.nseq) = false → clearingAt s c.addr (16 * c.nseq) = false →
    (∀ e ∈ seqEnts c.nseq bs, badRange s (seqAddr s e.seq) 32 = false) → attnListCheck s t c bs = none →
    Runs (.attn slot) s fun t' =>
      (∃ u : Tracked, t'.cmd? slot = some u ∧ u.work.opened = true ∧ u.loaded = [bs] ∧
        u.work.attn = some (AttnRun.mk (attnFirst s (seqEnts c.nseq bs)).1 (attnFirst s (seqEnts c.nseq bs)).2 none [])) ∧
      t'.events = s.events ∧ Kept (dbgRegs t.station) s t') ∧
  (∀ (slot i k kn : Nat) (s : State) (t : Tracked) (c : AttnCfg) (es : List SeqEnt) (e : SeqEnt) (q kb vb : InBind) (bytes : List Byte),
    AttnOn s slot t c es → AttnDry t c → t.work.attn.bind AttnRun.seq = none → c.append = true → t.rerun = false →
    t.ins[0]? = some q → t.ins[1]? = some kb → t.ins[2]? = some vb →
    attnNext es ((attnRows t).length / c.hq) (rowsTaken (clsDim s (attnCls t) * unitBytes c.qFmt) q.taken / c.hq) t.work.aux = none →
    kn = c.hkv * clsDim s (attnCls t) * unitBytes (clsFmt s (attnCls t)) → t.work.aux < rowsTaken kn kb.taken →
    t.work.aux < rowsTaken kn vb.taken → t.work.aux < totalRows es → rowOwner es 0 t.work.aux = some (e, i, k) →
    bytes = entryOf s (attnCls t) (streamRow kb.taken kn t.work.aux) (streamRow vb.taken kn t.work.aux) → bytes.length % 64 = 0 →
    ledgerOn s = true → (∀ f ∈ s.flushes, f.1 ≠ e.seq) → MemInv s →
    bytes.length / 64 ≤ (freeLineList (s.withoutEntry e.seq c.layer (e.pos0 + k))).length →
    Runs (.attn slot) s fun t' =>
      (∃ u : Tracked, t'.cmd? slot = some u ∧ u.work.aux = t.work.aux + 1) ∧
      (∃ b : BobEntry, b = BobEntry.mk e.seq c.layer (e.pos0 + k) (decide (e.tent ≤ k)) b.lines ∧ b ∈ t'.bobbin ∧
        b.lines.length = bytes.length / 64 ∧ bobBytes t' b = bytes ∧
        (∀ l ∈ b.lines, l ∈ freeLineList (s.withoutEntry e.seq c.layer (e.pos0 + k))) ∧
        MemKeptOut (b.lines.map fun l => (lineAddr l, 64)) s t') ∧
      (∀ b ∈ s.bobbin, (b.seq, b.layer, b.pos) ≠ (e.seq, c.layer, e.pos0 + k) → b ∈ t'.bobbin) ∧
      t'.events = s.events ∧ RegsKept [A.ledgerBobbinUse] s t') ∧
  (∀ (slot base : Nat) (s : State) (t : Tracked) (c : AttnCfg) (es : List SeqEnt) (e : SeqEnt) (q : InBind) (r : SeqRec)
    (todo : List (Nat × Nat)) (hs : List Nat),
    AttnOn s slot t c es → AttnDry t c → t.work.attn.bind AttnRun.seq = none → t.ins[0]? = some q →
    attnNext es ((attnRows t).length / c.hq) (rowsTaken (clsDim s (attnCls t) * unitBytes c.qFmt) q.taken / c.hq)
      (if c.append ∧ ¬ t.rerun then t.work.aux else totalRows es) = some (e, base) →
    seqRec s e.seq = some r → todo = heldPlaces s e.seq r c.layer (attnLimit c r e) →
    hs = (todo.map Prod.snd).eraseDups.filter (· != 0) →
    (ledgerOn s = true → (∀ x ∈ attnReads s c e, badRange s x.1 x.2 = false) →
      (∀ h ∈ hs, handleMatches s h = true ∧ (pageEntry s (hClass h) (hFrame h)).live = 1 ∧ (pageEntry s (hClass h) (hFrame h)).pins < 4095) →
      Apart s (hs.map fun h => (entryAddr s (hClass h) (hFrame h), 8)) →
      Runs (.attn slot) s fun t' =>
        (∃ (u : Tracked) (v : SeqView), t'.cmd? slot = some u ∧ u.work.attn.bind AttnRun.seq = some v ∧
          v.todo = todo ∧ v.pinned = hs ∧ v.held = [] ∧ attnRows u = attnRows t) ∧
        (∀ h ∈ hs, pageEntry t' (hClass h) (hFrame h) =
          { pageEntry s (hClass h) (hFrame h) with pins := (pageEntry s (hClass h) (hFrame h)).pins + 1 }) ∧
        MemKeptOut (hs.map fun h => (entryAddr s (hClass h) (hFrame h), 8)) s t' ∧ t'.events = s.events ∧
        RegsKept (hs.map fun h => A.ledgerCount (hClass h)) s t') ∧
    (ledgerOn s = true → (∀ x ∈ attnReads s c e, badRange s x.1 x.2 = false) →
      (∀ h ∈ hs, clsValid s (hClass h) = true → badRange s (entryAddr s (hClass h) (hFrame h)) 8 = false) →
      (∃ h ∈ hs, handleMatches s h = true ∧ (pageEntry s (hClass h) (hFrame h)).live = 1 ∧
        4095 ≤ (pageEntry s (hClass h) (hFrame h)).pins) →
      Runs (.attn slot) s fun t' => (∃ u : Tracked, t'.cmd? slot = some u ∧ u.work.attn.bind AttnRun.seq = none) ∧
        (t.work.fails ≠ 2 → t'.fget A.ledgerWaits A.ledgerWaits_pinWait = satTo 32 (s.fget A.ledgerWaits A.ledgerWaits_pinWait + 1)) ∧
        t'.events = s.events ∧ Kept [A.ledgerWaits] s t') ∧
    (ledgerOn s = false → Idle (.attn slot) s)) ∧
  (∀ (slot : Nat) (s : State) (t : Tracked) (c : AttnCfg) (es : List SeqEnt) (v : SeqView) (o : SeqEnt × Nat × Nat),
    AttnOn s slot t c es → AttnDry t c → t.work.attn.bind AttnRun.seq = some v →
    rowOwner es 0 ((attnRows t).length / c.hq) = some o → v.todo ≠ [] →
    (∀ x ∈ v.todo.take 128, x.2 ≠ 0 → badRange s (pageRange s (attnCls t) x.2).1 (pageRange s (attnCls t) x.2).2 = false) →
    Runs (.attn slot) s fun t' =>
      (∃ (u : Tracked) (w : SeqView), t'.cmd? slot = some u ∧ u.work.attn.bind AttnRun.seq = some w ∧ w.todo = v.todo.drop 128 ∧
        w.pinned = v.pinned ∧ w.held = v.held ++ (v.todo.take 128).map fun x => (x.1, v.entry s (attnCls t) x)) ∧
      t'.events = s.events ∧ Kept (dbgRegs t.station) s t') ∧
  (∀ (slot : Nat) (s : State) (t : Tracked) (c : AttnCfg) (es : List SeqEnt) (v : SeqView) (e : SeqEnt) (i k : Nat) (score : Nat → Nat),
    AttnOn s slot t c es → AttnDry t c → t.work.attn.bind AttnRun.seq = some v →
    rowOwner es 0 ((attnRows t).length / c.hq) = some (e, i, k) → v.todo = [] →
    (∀ h ∈ v.pinned, handleMatches s h = true ∧ (pageEntry s (hClass h) (hFrame h)).pins ≠ 0) →
    Apart s (v.pinned.map fun h => (entryAddr s (hClass h) (hFrame h), 8)) →
    (∀ h, score h = if c.score then ((v.seen.find? fun p => p.2 == h).map fun p =>
      pageScore s t c e v ((attnRows t).length / c.hq) p.1).getD 0 else 0) →
    Runs (.attn slot) s fun t' =>
      (∃ u : Tracked, t'.cmd? slot = some u ∧ u.work.attn.bind AttnRun.seq = none ∧
        attnRows u = attnRows t ++ (List.range e.rows).flatMap fun k => (List.range c.hq).map fun h =>
          attnRow s t c e v ((attnRows t).length / c.hq) k h) ∧
      (∀ h ∈ v.pinned, pageEntry t' (hClass h) (hFrame h) = PageEntry.unpin { pageEntry s (hClass h) (hFrame h) with
        score := satTo 16 ((pageEntry s (hClass h) (hFrame h)).score + score h) }) ∧
      MemKeptOut (v.pinned.map fun h => (entryAddr s (hClass h) (hFrame h), 8)) s t' ∧ t'.events = s.events ∧
      RegsKept (dbgRegs t.station ++ v.pinned.map fun h => A.ledgerCount (hClass h)) s t') ∧
  (∀ (slot k : Nat) (s : State) (t : Tracked) (c : AttnCfg) (es : List SeqEnt) (o : OutBind), AttnOn s slot t c es →
    k = min (rowsPerTile (clsDim s (attnCls t) * unitBytes c.out)) (totalRows es * c.hq - t.work.pos) → 0 < k →
    t.work.pos + k ≤ (attnRows t).length → roomFor s t = true → t.outs[0]? = some o → o.formed < 2 ^ 32 - 1 →
    Runs (.attn slot) s fun t' =>
      (∃ (u : Tracked) (p : OutBind) (x : Tile), t'.cmd? slot = some u ∧ u.work.pos = t.work.pos + k ∧ u.outs[0]? = some p ∧ p.formed = o.formed + 1 ∧
        p.queue = o.queue ++ [x] ∧ x.stream = o.stream ∧ x.index = o.formed ∧ x.format = c.out ∧
        (x.last = true ↔ t.work.pos + k = totalRows es * c.hq) ∧
        x.payload = (((attnRows t).drop t.work.pos).take k).flatMap AttnRow.bytes) ∧
      t' = { s with tracked := t'.tracked }) ∧
  (∀ (slot d n : Nat) (s : State) (t : Tracked) (c : AttnCfg) (p : Pair) (o : OutBind), runningCmd s slot 0x51 = some t →
    t.work.opened = true → c = AttnCfg.of t.opb → (∀ b ∈ t.ins, b.window = [] ∧ b.lastIn = true) → bwdDim t c = some d →
    attnPair c.qFmt c.pFmt = some p → bwdPos t c d = some n →
    (∀ i j, (i, j) ∈ [(2, 1), (3, 0)] → ((t.ins[i]?).map fun b => (streamBytes b.taken).length).getD 0 =
      ((t.ins[j]?).map fun b => (streamBytes b.taken).length).getD 0) →
    roomFor s t = true → t.outs[0]? = some o → o.formed < 2 ^ 32 - 1 → t.work.pos + rowsPerTile (d * 2) < bwdRows t.opb * c.hq →
    Runs (.attnBwd slot) s fun t' =>
      (∃ (u : Tracked) (q : OutBind) (x : Tile), t'.cmd? slot = some u ∧ u.work.pos = t.work.pos + rowsPerTile (d * 2) ∧ u.outs[0]? = some q ∧
        q.queue = o.queue ++ [x] ∧ x.index = o.formed ∧ x.last = false ∧ x.format = c.out ∧
        x.payload = (List.range (rowsPerTile (d * 2))).flatMap fun i =>
          (bwdQRow t c p d n ((t.work.pos + i) / c.hq) ((t.work.pos + i) % c.hq)).bytes) ∧
      t'.events = s.events ∧ Kept [] s t')

/-- The operations on a page by its handle: PIN and UNPIN count pins, DECREF a reference, NOEVICT sets the mark, QUERY answers the entry;
a refused one answers its status and changes nothing (R300, R328, R331, Table 5-2). The operations on a sequence: SEQ_OPEN makes the
record from its image with an empty list, SEQ_CLOSE makes it invalid, SHARE gives it a page of another, DROP empties a slot, COW keeps a
page that nothing else holds, RESOLVE commits tentative positions (Table 5-6, R335 to R340, R348). One that reads a codeword in error
does nothing but record it (R444, R445). -/
def Obligations.LedgerOperations : Prop :=
  (PageRow .pin (fun e => e.pins < 4095) (fun _ e => { e with pins := e.pins + 1 }) ∧
  PageRow .unpin (fun e => e.pins ≠ 0)
    (fun _ e => { e with pins := e.pins - 1 }) ∧
  PageRow .decref (fun e => e.ref ≠ 0)
    (fun _ e => if e.ref = 1 then { e with ref := 0, live := if e.pins = 0 then 0 else 2 } else { e with ref := e.ref - 1 }) ∧
  PageRow .noevict (fun _ => True) (fun r e => { e with noEvict := r.arg.testBit 0 }) ∧
  (∀ (part : Nat) (r : OpRec) (res : Nat) (s : State), ledgerOn s = true → pageRefused s part r.word1 = none →
    SoundReads s 0x0B r → Writable s res 8 →
    Runs (.kvopQuery part r res) s fun t =>
      Stored res (leBytes 8 (pageEntry s (hClass r.word1) (hFrame r.word1)).word) s t ∧ RegsKept [] s t ∧ ListFrame s t) ∧
  (∀ (part : Nat) (r : OpRec) (res st : Nat) (s : State), ledgerOn s = true → pageRefused s part r.word1 = some st →
    SoundReads s 0x06 r → RefusedRow (.pin part r res) s res st ∧ RefusedRow (.unpin part r res) s res st ∧ RefusedRow (.decref part r res) s res st ∧
    RefusedRow (.noevict part r res) s res st ∧ RefusedRow (.kvopQuery part r res) s res st) ∧
  ErrorRow 0x06 .pin ∧ ErrorRow 0x07 .unpin ∧ ErrorRow 0x0D .decref ∧ ErrorRow 0x0A .noevict ∧ ErrorRow 0x0B .kvopQuery) ∧
  ((∀ (part : Nat) (r : OpRec) (res : Nat) (s : State) (im : SeqRec), ledgerOn s = true → part < 8 → seqRec s r.seq = none → SoundReads s 0x01 r →
    im = SeqRec.ofWords (word64 s r.word1) (word64 s (r.word1 + 8)) (word64 s (r.word1 + 16)) → r.word1 % 8 = 0 →
    ownsRange s part r.word1 32 = true → clsValid s im.cls = true → im.list % 8 = 0 →
    ownsRange s part im.list (8 * im.cap * im.layers) = true →
    Apart s [(im.list, 8 * im.cap * im.layers), (seqAddr s r.seq, 32), (res, 8)] →
    Runs (.seqOpen part r res) s fun t =>
      seqRec t r.seq = some { im with owner := part, committed := 0, tent := 0, length := 0 } ∧ r.seq ∈ t.seqUsed ∧
      (∀ i, i < im.cap * im.layers → slotHandle t im i = 0) ∧ readBytes t res 8 = leBytes 8 0 ∧
      MemKeptOut [(im.list, 8 * im.cap * im.layers), (seqAddr s r.seq, 32), (res, 8)] s t ∧ RegsKept [] s t ∧ ListFrame s t) ∧
  (∀ (part : Nat) (r : OpRec) (res : Nat) (s : State) (q : SeqRec), ledgerOn s = true → seqRec s r.seq = some q → q.owner = part →
    (∀ i, i < q.cap * q.layers → slotHandle s q i = 0) → SoundReads s 0x02 r → Apart s [(seqAddr s r.seq, 8), (res, 8)] →
    Runs (.seqClose part r res) s fun t =>
      seqRec t r.seq = none ∧ t.bobbin = s.bobbin.filter (fun b => b.seq != r.seq) ∧ r.seq ∉ t.seqUsed ∧
      t.flushes = s.flushes.filter (fun f => f.1 != r.seq) ∧ t.poolWaits = s.poolWaits.filter (fun f => f.1 != r.seq) ∧ readBytes t res 8 = leBytes 8 0 ∧
      MemKeptOut [(seqAddr s r.seq, 8), (res, 8)] s t ∧ RegsKept [A.ledgerBobbinUse] s t ∧ ListFrame s t) ∧
  (∀ (part : Nat) (r : OpRec) (res h : Nat) (s : State) (q o : SeqRec), ledgerOn s = true → seqRec s r.seq = some q →
    q.owner = part → seqRec s (fld r.arg 13 0) = some o → o.owner = part → fld r.arg 31 14 = 1 → q.layers = 1 → o.layers = 1 →
    q.cls = o.cls → q.length = 0 → q.committed = 0 → q.tent = 0 → pgPos s o.cls ≤ o.length → 1 ≤ q.cap → slotHandle s o 0 = h →
    h ≠ 0 → pageRefused s part h = none → SoundReads s 0x03 r → slotHandle s q 0 = 0 →
    (pageEntry s (hClass h) (hFrame h)).ref < 1048575 → pgPos s q.cls < 2 ^ 32 →
    Apart s [(entryAddr s (hClass h) (hFrame h), 8), (slotAddr q 0, 8), (seqAddr s r.seq, 32), (res, 8), (slotAddr o 0, 8)] →
    Runs (.share part r res) s fun t =>
      pageEntry t (hClass h) (hFrame h) =
        { pageEntry s (hClass h) (hFrame h) with ref := (pageEntry s (hClass h) (hFrame h)).ref + 1 } ∧
      slotHandle t q 0 = h ∧ slotHandle t o 0 = h ∧ seqRec t r.seq = some { q with length := pgPos s q.cls } ∧
      readBytes t res 8 = leBytes 8 0 ∧
      MemKeptOut [(entryAddr s (hClass h) (hFrame h), 8), (slotAddr q 0, 8), (seqAddr s r.seq, 32), (res, 8)] s t ∧
      RegsKept [A.ledgerCount (hClass h)] s t ∧ ListFrame s t) ∧
  (∀ (part : Nat) (r : OpRec) (res h : Nat) (s : State) (q : SeqRec), ledgerOn s = true → seqRec s r.seq = some q →
    q.owner = part → r.arg < q.length / pgPos s q.cls * q.layers → slotHandle s q r.arg = h → pageRefused s part h = none →
    SoundReads s 0x04 r → 2 ≤ (pageEntry s (hClass h) (hFrame h)).ref →
    Apart s [(entryAddr s (hClass h) (hFrame h), 8), (slotAddr q r.arg, 8), (res, 8)] →
    Runs (.drop part r res) s fun t =>
      slotHandle t q r.arg = 0 ∧
      pageEntry t (hClass h) (hFrame h) =
        { pageEntry s (hClass h) (hFrame h) with ref := (pageEntry s (hClass h) (hFrame h)).ref - 1 } ∧
      readBytes t res 8 = leBytes 8 0 ∧
      MemKeptOut [(entryAddr s (hClass h) (hFrame h), 8), (slotAddr q r.arg, 8), (res, 8)] s t ∧
      RegsKept [A.ledgerCount (hClass h)] s t ∧ ListFrame s t) ∧
  (∀ (part : Nat) (r : OpRec) (res h : Nat) (s : State) (q : SeqRec), ledgerOn s = true → seqRec s r.seq = some q →
    q.owner = part → r.arg < q.cap * q.layers → slotHandle s q r.arg = h → pageRefused s part h = none →
    SoundReads s 0x05 r → (pageEntry s (hClass h) (hFrame h)).ref = 1 → (pageEntry s (hClass h) (hFrame h)).pins = 0 → Writable s res 8 →
    Runs (.cow part r res) s fun t =>
      Stored res (leBytes 8 (h % 2 ^ 40 * 256)) s t ∧ RegsKept [] s t ∧ ListFrame s t) ∧
  (∀ (part : Nat) (r : OpRec) (res : Nat) (s : State) (q : SeqRec), ledgerOn s = true → seqRec s r.seq = some q →
    q.owner = part → r.arg ≤ q.tent → q.committed + r.arg < pgPos s q.cls → q.committed + r.arg < 64 →
    SoundReads s 0x08 r → Apart s [(seqAddr s r.seq, 32), (res, 8)] →
    Runs (.resolve part r res) s fun t =>
      seqRec t r.seq = some { q with committed := q.committed + r.arg, tent := 0 } ∧
      t.bobbin = (s.bobbin.filter fun b => !(b.seq == r.seq && decide (q.length + q.committed + r.arg ≤ b.pos))).map
        (fun b => if b.seq = r.seq ∧ b.pos < q.length + q.committed + r.arg then { b with tent := false } else b) ∧
      t.flushes = s.flushes ∧ readBytes t res 8 = leBytes 8 0 ∧ MemKeptOut [(seqAddr s r.seq, 32), (res, 8)] s t ∧
      RegsKept [A.ledgerBobbinUse] s t ∧ ListFrame s t) ∧
  (∀ (part : Nat) (r : OpRec) (res : Nat) (s : State), ledgerOn s = true → seqRec s r.seq = none →
    (∀ op ∈ [2, 3, 4, 5, 8], SoundReads s op r) → RefusedRow (.seqClose part r res) s res 6 ∧ RefusedRow (.share part r res) s res 6 ∧ RefusedRow (.drop part r res) s res 6 ∧
    RefusedRow (.cow part r res) s res 6 ∧ RefusedRow (.resolve part r res) s res 6) ∧
  (∀ (part st : Nat) (r : OpRec) (res : Nat) (s : State) (q : SeqRec), ledgerOn s = true → seqRec s r.seq = some q →
    q.owner = part → pageRefused s part (slotHandle s q r.arg) = some st → SoundReads s 0x04 r → SoundReads s 0x05 r →
    (r.arg < q.length / pgPos s q.cls * q.layers → RefusedRow (.drop part r res) s res st) ∧
    (q.length / pgPos s q.cls * q.layers ≤ r.arg → RefusedRow (.drop part r res) s res 7) ∧
    (r.arg < q.cap * q.layers → RefusedRow (.cow part r res) s res st)) ∧
  (∀ (part : Nat) (r : OpRec) (res : Nat) (s : State) (q : SeqRec), ledgerOn s = true → seqRec s r.seq = some q → q.owner ≠ part →
    SoundReads s 0x01 r → RefusedRow (.seqOpen part r res) s res 2) ∧
  ErrorRow 0x01 .seqOpen ∧ ErrorRow 0x02 .seqClose ∧ ErrorRow 0x03 .share ∧ ErrorRow 0x04 .drop ∧ ErrorRow 0x05 .cow ∧
  ErrorRow 0x08 .resolve)

/-- The pool: ALLOC takes a free frame of the lode it names with a new generation; a TICK moves a class's threshold by its loop; a
flush waits for the pool, which POOL_EMPTY shows, while its home lode has no free frame, and else ends with its lines freed; a
class made valid has every frame FREE with GEN 1, and the ledger idles again once its initialisation ends (R300, R344, R346, R350,
R351, R359). -/
def Obligations.LedgerPools : Prop :=
  (∀ (part : Nat) (r : OpRec) (res : Nat) (s : State), ledgerOn s = true → part < 8 → clsValid s r.cls = true →
    freeFrames s r.cls r.lode ≠ [] → SoundReads s 0x0C r → (∀ f ∈ freeFrames s r.cls r.lode, Apart s [(entryAddr s r.cls f, 8), (res, 8)]) →
    Runs (.alloc part r res) s fun t => ∃ f ∈ freeFrames s r.cls r.lode, ∃ g,
      g = (if (pageEntry s r.cls f).gen = 255 then 1 else (pageEntry s r.cls f).gen + 1) ∧
      pageEntry t r.cls f = { ref := 1, pins := 0, owner := part, live := 1, noEvict := false, gen := g, score := 0 } ∧
      readBytes t res 8 = leBytes 8 (mkHandle r.cls f g % 2 ^ 40 * 256) ∧
      MemKeptOut [(entryAddr s r.cls f, 8), (res, 8)] s t ∧ RegsKept [A.ledgerCount r.cls] s t ∧ ListFrame s t) ∧
  (∀ (part : Nat) (r : OpRec) (res : Nat) (s : State), ledgerOn s = true → clsValid s r.cls = true → freeFrames s r.cls r.lode = [] →
    SoundReads s 0x0C r → RefusedRow (.alloc part r res) s res 3) ∧
  (∀ (part n : Nat) (r : OpRec) (res : Nat) (s : State), ledgerOn s = true → n < 16 → clsValid s n = true →
    (∀ m, m < 16 → m ≠ n → clsValid s m = false) → s.fget A.ledgerScoreCtl A.ledgerScoreCtl_decayShift = 0 →
    s.flag (A.ledgerLoop n) A.ledgerLoop_evictEn = false → SoundReads s 0x09 r → Writable s res 8 →
    Runs (.tick part r res) s fun t =>
      t.fget (A.ledgerLoopState n) A.ledgerLoopState_th =
        (nextTh (s.fget (A.ledgerLoop n) A.ledgerLoop_thMin) (s.fget (A.ledgerLoop n) A.ledgerLoop_thMax)
          (s.fget (A.ledgerLoop n) A.ledgerLoop_step) (s.fget (A.ledgerLoopState n) A.ledgerLoopState_th)
          (256 * s.fget (A.ledgerCount n) A.ledgerCount_live / (16 * perLode s n)) (s.fget (A.ledgerLoop n) A.ledgerLoop_high)
          (s.fget (A.ledgerLoop n) A.ledgerLoop_low) (s.flag (A.ledgerLoop n) A.ledgerLoop_pin)).1 ∧
      Stored res (leBytes 8 0) s t ∧ RegsKept [A.ledgerStatus, A.ledgerLoopState n] s t ∧ ListFrame s t) ∧
  ErrorRow 0x09 .tick ∧ ErrorRow 0x0C .alloc ∧
  (∀ (lo hi step th p high low : Nat) (pin : Bool), lo ≤ (nextTh lo hi step th p high low pin).1 ∧
    (nextTh lo hi step th p high low pin).1 ≤ max lo hi) ∧
  (∀ (seq layer page : Nat) (s : State) (q : SeqRec), ledgerOn s = true → seqRec s seq = some q →
    (s.flushes.find? fun f => f.1 == seq && f.2.1 == layer) = some (seq, layer, page) →
    (∀ x ∈ flushReads s seq layer page, badRange s x.1 x.2 = false) → s.duePauses = [] → s.coldQ = [] → s.pair.work = [] →
    s.pair.held = [] → (freeFrames s q.cls q.home = [] → Runs (.flush seq layer) s fun t =>
      (seq, layer, page) ∈ t.poolWaits ∧ t = { s with poolWaits := t.poolWaits } ∧
      (ledgerStatusReg t (t.reg A.ledgerStatus)).testBit 1 = true) ∧
    (freeFrames s q.cls q.home ≠ [] → Runs (.flush seq layer) s fun t =>
      t.flushes = s.flushes.filter (fun f => f != (seq, layer, page)) ∧
      t.poolWaits = s.poolWaits.filter (fun f => f != (seq, layer, page)) ∧
      t.bobbin = s.bobbin.filter (fun b => !(b.seq == seq && b.layer == layer && b.pos / pgPos s q.cls == page)) ∧
      t.free = s.free + 1 ∧ ListFrame s t)) ∧
  (∀ (n val : Nat) (s : State), n < 16 → val.testBit 0 = true → (s.reg (A.ledgerClass n)).testBit 0 = false →
    classBusy s n = false → classOk (fld val 21 1 * 2) = true → Writable s (entryAddr s n 0) (8 * (16 * perLode s n)) →
    Runs (.ledgerClassValid .firmware n val) s fun t =>
      clsValid t n = true ∧ n ∈ t.classInit ∧ ledgerOn t = false ∧
      (ledgerStatusReg t (t.reg A.ledgerStatus)).testBit 0 = false ∧
      (∀ f, f < 16 * perLode s n → pageEntry t n f =
        { ref := 0, pins := 0, owner := 0, live := 0, noEvict := false, gen := 1, score := 0 }) ∧
      t.fget (A.ledgerCount n) A.ledgerCount_live = 0 ∧
      RegsKept [A.ledgerClass n, A.ledgerCount n] s t ∧ ListFrame s t) ∧
  (∀ (n val : Nat) (s : State), n < 16 → val.testBit 0 = true → (s.reg (A.ledgerClass n)).testBit 0 = false →
    classBusy s n = false → classOk (fld val 21 1 * 2) = false →
    Runs (.ledgerClassValid .firmware n val) s fun t =>
      t.fget A.ledgerStatus A.ledgerStatus_classErr = 1 ∧ Kept [A.ledgerStatus] s t ∧ t = { s with regs := t.regs }) ∧
  (∀ (n : Nat) (s : State), Runs (.classInitDone n) s fun t => t = { s with classInit := s.classInit.filter (· != n) } ∧
    ((∀ m ∈ s.classInit, m = n) → s.flag A.ledgerCtl A.ledgerCtl_enable = true → s.frozen = false → ledgerOn t = true)) ∧
  (∀ (p n val : Nat) (s : State), Idle (.ledgerClassValid (.part p) n val) s)

/-! ### Serving -/

/-- The operations of SCTL: GROUP_CANCEL marks a group and reports it to the arbiter, GROUP_CLEAR removes the mark, SEQ_RESET
takes a sequence that is unowned or the caller's, SEQ_LOOP sets its loop, SEQ_QUERY answers it; a refused one answers its
status alone (R399, R402, R414, R415, Table 6-7). -/
def Obligations.SamplerOperations : Prop :=
  (∀ (part : Nat) (r : OpRec) (res : Nat) (s : State), Writable s res 8 → r.arg % 65536 ≠ 0 →
    Runs (.groupCancel part r res) s fun t =>
      (part, r.arg % 65536) ∈ t.cancels ∧ (∀ k ∈ s.cancels, k ∈ t.cancels) ∧
      (∀ k ∈ t.cancels, k = (part, r.arg % 65536) ∨ k ∈ s.cancels) ∧ RaisedP 60 0x10 part (r.arg % 65536) s t ∧
      Stored res (leBytes 8 0) s t ∧ RegsKept [] s t ∧ t.samp = s.samp ∧ t.tracked = s.tracked) ∧
  (∀ (part : Nat) (r : OpRec) (res : Nat) (s : State), r.arg % 65536 = 0 → RefusedRow (.groupCancel part r res) s res 8) ∧
  (∀ (part : Nat) (r : OpRec) (res : Nat) (s : State), Writable s res 8 →
    Runs (.groupClear part r res) s fun t =>
      (part, r.arg % 65536) ∉ t.cancels ∧ (part, r.arg % 65536) ∉ t.cancelled ∧
      (∀ k, k ≠ (part, r.arg % 65536) → (k ∈ t.cancels ↔ k ∈ s.cancels) ∧ (k ∈ t.cancelled ↔ k ∈ s.cancelled)) ∧
      Stored res (leBytes 8 0) s t ∧ RegsKept [] s t ∧ ListFrame s t ∧ t.samp = s.samp) ∧
  (∀ (part : Nat) (r : OpRec) (res : Nat) (s : State), Writable s res 8 →
    ((sampSeq s r.seq).owner = none ∨ (sampSeq s r.seq).owner = some part) →
    Runs (.seqReset part r res) s fun t =>
      sampSeq t r.seq = { SampSeq.empty with owner := some part } ∧ (∀ q, q ≠ r.seq → sampSeq t q = sampSeq s q) ∧
      Stored res (leBytes 8 0) s t ∧ RegsKept [] s t ∧ ListFrame s t) ∧
  (∀ (part lo hi pv : Nat) (r : OpRec) (res : Nat) (s : State), Writable s res 8 → (sampSeq s r.seq).owner = some part →
    lo = fld r.word1 4 0 → hi = fld r.word1 12 8 → pv = fld r.word1 24 20 → lo ≤ 16 → hi ≤ 16 → pv ≤ 16 →
    Runs (.seqLoop part r res) s fun t =>
      sampSeq t r.seq = { sampSeq s r.seq with
        dmin := lo, dmax := max lo hi, pin := r.word1.testBit 16, pinVal := pv, zero := 0
        length := if r.word1.testBit 16 then pv else max lo hi } ∧
      (∀ q, q ≠ r.seq → sampSeq t q = sampSeq s q) ∧ Stored res (leBytes 8 0) s t ∧ RegsKept [] s t ∧ ListFrame s t) ∧
  (∀ (part : Nat) (r : OpRec) (res : Nat) (s : State), Writable s res 8 → (sampSeq s r.seq).owner = some part →
    Runs (.seqQuery part r res) s fun t =>
      Stored res (leBytes 8 ((sampSeq s r.seq).length * 2 ^ 8 + (sampSeq s r.seq).buf.length * 2 ^ 16 +
        (sampSeq s r.seq).zero * 2 ^ 21 + (sampSeq s r.seq).clash * 2 ^ 32)) s t ∧
      RegsKept [] s t ∧ ListFrame s t ∧ t.samp = s.samp) ∧
  (∀ (part p : Nat) (r : OpRec) (res : Nat) (s : State), (sampSeq s r.seq).owner = some p → p ≠ part →
    RefusedRow (.seqReset part r res) s res 2 ∧ RefusedRow (.seqLoop part r res) s res 2 ∧
    RefusedRow (.seqQuery part r res) s res 2) ∧
  (∀ (part : Nat) (r : OpRec) (res : Nat) (s : State), (sampSeq s r.seq).owner = none →
    RefusedRow (.seqLoop part r res) s res 6 ∧ RefusedRow (.seqQuery part r res) s res 6)

/-- SAMPLE opens with its entries checked, takes the tiles of its logits while no row waits for its mask, samples every entry once
they are all there, notes in the runtime's requests what it sampled, marks the group of a request that was cancelled, and emits the
step batch of 32-byte records behind its header; a CANCEL accepted after the command does not mark its entries (R361, R367 to R373, R379, R381 to R386, R391, R399). -/
def Obligations.SampleEmitsABatch : Prop :=
  (∀ (slot : Nat) (s : State) (t : Tracked), runningCmd s slot 0x60 = some t → t.work.opened = false →
    smEntAddr t.opb % 64 = 0 → ownsRange s t.part (smEntAddr t.opb) (64 * smCount t.opb) = true →
    badRange s (smEntAddr t.opb) (64 * smCount t.opb) = false → clearingAt s (smEntAddr t.opb) (64 * smCount t.opb) = false →
    sampCheck s t (sampEnts (smCount t.opb) (softBytes s (smEntAddr t.opb) (64 * smCount t.opb))) = none →
    Runs (.sample slot) s fun t' =>
      (∃ u : Tracked, t'.cmd? slot = some u ∧ u.work.opened = true ∧
        u.loaded = [softBytes s (smEntAddr t.opb) (64 * smCount t.opb)]) ∧
      Kept [] s t' ∧ t' = { s with tracked := t'.tracked }) ∧
  (∀ (slot : Nat) (s : State) (t : Tracked) (b : InBind) (x : Tile) (r : List Tile) (es : List SampEnt),
    runningCmd s slot 0x60 = some t → t.work.opened = true → es = sampEnts (smCount t.opb) (t.loaded[0]?.getD []) →
    t.work.fails = 0 → t.ins[0]? = some b → b.window = x :: r → b.released = b.taken.length →
    sampTileOk (smFmt t.opb) (logitTiles (smFmt t.opb) (smVocab t.opb) * (es.map SampEnt.rows).sum) (rowsIn b.taken) x = true →
    Runs (.sample slot) s fun t' =>
      (∃ (u : Tracked) (b' : InBind), t'.cmd? slot = some u ∧ u.ins[0]? = some b' ∧ b'.window = r ∧ b'.taken = b.taken ++ [x]) ∧
      t'.samp = s.samp ∧ t'.events = s.events ∧ Kept [] s t') ∧
  (∀ (slot : Nat) (s : State) (t : Tracked) (es : List SampEnt) (o : State × SampOut), runningCmd s slot 0x60 = some t →
    t.work.opened = true → es = sampEnts (smCount t.opb) (t.loaded[0]?.getD []) →
    (∀ b ∈ t.ins, b.window = [] ∧ b.lastIn = true) → t.work.fails = 0 → t.work.aux = 0 → smResolve t.opb = 0 →
    (∀ e ∈ es, ∀ d ∈ s.cancelDue, d.1 ≠ e.reqSeq) →
    o = s.sampleAll t.part t.opb es (((t.ins[0]?).map fun b => b.taken.flatMap expand).getD [])
      (((t.ins[1]?).map fun b => b.taken.flatMap expand).getD []) →
    Runs (.sample slot) s fun t' =>
      (∃ u : Tracked, t'.cmd? slot = some u ∧ u.work.aux = 1 ∧ u.loaded[0]? = some (t.loaded[0]?.getD []) ∧
        u.loaded[1]? = some (leBytes 8 (opw t.opb 5 47 0) ++ leBytes 8 (o.2.recs.length + t.part * 2 ^ 32) ++ leBytes 8 0 ++
          leBytes 8 1 ++ o.2.recs.flatten) ∧ u.loaded[2]? = some o.2.toks.flatten) ∧
      o.2.toks.length = es.length ∧ (∀ x ∈ o.2.recs, x.length = 32) ∧
      (∀ q, (∀ e ∈ es, e.seq ≠ q) → sampSeq t' q = sampSeq s q) ∧
      (∀ k, (∀ e ∈ es, e.reqSeq ≠ k) → tget t'.requests k = tget s.requests k) ∧
      (∀ (e : SampEnt) (r : Request), es = [e] → e.draft = false → e.group = 0 ∨ groupMarked s t.part e.group = false → tget s.requests e.reqSeq = some r → r.part = t.part →
        r.state = .prefill ∨ r.state = .decode → ∃ r' : Request, tget t'.requests e.reqSeq = some r' ∧ r'.entry = e.raw ∧
          (r'.state = .decode ∨ r'.state = .ended)) ∧
      t'.cancels = s.cancels ∧ t'.events = s.events ∧
      Kept ([A.spLoopClash, A.spDraftStats, A.spDropCount] ++ (List.range 8).map lkTx ++ gcntRegs) s t') ∧
  (∀ (slot m : Nat) (s : State) (t : Tracked) (e : SampEnt) (es : List SampEnt) (r : Request), runningCmd s slot 0x60 = some t →
    t.work.opened = true → e :: es = sampEnts (smCount t.opb) (t.loaded[0]?.getD []) →
    (∀ b ∈ t.ins, b.window = [] ∧ b.lastIn = true) → t.work.fails = 0 → t.work.aux = 0 → smResolve t.opb = 0 → e.draft = false →
    tget s.requests e.reqSeq = some r → r.part = t.part → (s.cancelDue.find? fun d => d.1 == e.reqSeq) = some (e.reqSeq, m) →
    m ≤ slot → e.group ≠ 0 →
    Runs (.sample slot) s fun t' => (t.part, e.group) ∈ t'.cancels) ∧
  (∀ (slot : Nat) (s : State) (t : Tracked) (o : OutBind), runningCmd s slot 0x60 = some t → t.work.opened = true →
    (∀ b ∈ t.ins, b.window = [] ∧ b.lastIn = true) → t.work.fails = 0 → t.work.aux ≠ 0 → roomFor s t = true → t.outs[0]? = some o →
    o.formed < 2 ^ 32 - 1 → t.work.pos < ceilDiv (t.loaded[1]?.getD []).length 4096 →
    Runs (.sample slot) s fun t' =>
      FormsTile slot t o t' (fun x => x.format = 1 ∧
        x.payload = ((t.loaded[1]?.getD []).drop (4096 * t.work.pos)).take 4096 ∧
        (x.last = true ↔ (t.loaded[1]?.getD []).length ≤ 4096 * (t.work.pos + 1))) ∧
      t'.events = s.events ∧ Kept [] s t')

/-- Drafts are verified in order and the first row that is no match ends the entry's sampling: the accepted ones are the leading
matches, and one token more is emitted (R388); and the next draft length stays within the sequence's floor and ceiling, or at
its pin (R392). -/
def Obligations.DraftVerification : Prop :=
  (∀ (draw : Nat → Drawn) (buf : List Nat) (d : Nat),
    ∃ a, a ≤ d ∧ (verify draw buf d (1 + d) 0).length = a + 1 ∧ ((verify draw buf d (1 + d) 0).filter TokRec.draft).length = a ∧
      (∀ i, i ≤ a → ((verify draw buf d (1 + d) 0)[i]?).map TokRec.d = some (draw i)) ∧
      (∀ i, i < a → (draw i).token.isSome = true ∧ (draw i).token = buf[i]?) ∧
      (a < d → (draw a).token = none ∨ (draw a).token ≠ buf[a]?)) ∧
  (∀ (x : SampSeq) (d a : Nat), x.dmin ≤ x.dmax →
    ((x.loop d a).1.length = if x.pin then x.pinVal else max x.dmin (min x.dmax
      (if d = 0 then (if x.zero + 1 = 64 then 1 else 0) else if a = d then d + 1 else if a = 0 then x.dmin
        else if 2 * a < d then a + 1 else d))) ∧
    (x.loop d a).1.zero = (if x.pin = false ∧ d = 0 then (if x.zero + 1 = 64 then 0 else x.zero + 1) else x.zero) ∧
    (x.loop d a).1.clash = (if (x.loop d a).2 then satTo 32 (x.clash + 1) else x.clash) ∧
    ((x.loop d a).2 = true ↔ x.pin = false ∧ d ≠ 0 ∧
      (a = d ∧ x.dmax < d + 1 ∨ a ≠ d ∧ a ≠ 0 ∧ 2 * a < d ∧ a + 1 < x.dmin)))

/-! ### Memory -/

/-- A lode or bank that serves: a partition reads and writes what its regions hold, an access outside them is dropped, answered with an
error and reported, at an engine's station in its PORT bit too (R41, R183, R186, R425, R426; that a hole of the map is met the same way is log 17), firmware reads zeros in a confidential
partition's memory (R806), and an uncorrectable error is answered with an error (R444, R445); an access waits while bytes of it are
zeroed (R437). A tile-store window ignores writes and reads zero to others than its owner and where it is unmapped (R123). An
access of firmware to an address of no memory is the model's one stop. -/
def Obligations.MemoryAccesses : Prop :=
  (∀ (req : MemReq) (s : State) (p c : Nat), req.len ≠ 0 → memRange req.addr req.len = true → canon req.addr = some c →
    memServes s c = true → clearingAt s req.addr req.len = false → reqPart s req = some p → ownsRange s p req.addr req.len = true →
    (badRange s req.addr req.len = false → Runs (.memoryRead req .clean) s fun t =>
      t.busData = softBytes s req.addr req.len ∧ t.busErr = false ∧ Kept gcntRegs s t ∧
      t = { s with regs := t.regs, busData := t.busData, busErr := t.busErr }) ∧
    (badRange s req.addr req.len = true → req.slot = none → Runs (.memoryRead req .clean) s fun t =>
      t.busData = [] ∧ t.busErr = true ∧ t.tracked = s.tracked ∧ MemKept s t)) ∧
  (∀ (req : MemReq) (data : List Byte) (s : State) (p c : Nat), req.len ≠ 0 → memRange req.addr req.len = true →
    canon req.addr = some c → memServes s c = true → clearingAt s req.addr req.len = false → reqPart s req = some p →
    ownsRange s p req.addr req.len = true → Writable s req.addr req.len →
    Runs (.memoryWrite req data .clean) s fun t =>
      Stored req.addr (data.take req.len) s t ∧ t.busErr = false ∧ RegsKept gcntRegs s t ∧ ListFrame s t) ∧
  (∀ (req : MemReq) (data : List Byte) (obs : MemObs) (s : State) (p c : Nat), req.len ≠ 0 → memRange req.addr req.len = true →
    canon req.addr = some c → memServes s c = true → clearingAt s req.addr req.len = false → reqPart s req = some p →
    ownsRange s p req.addr req.len = false → stopping s p = false → tgetD s.tdFree p 0 ≤ s.tb.n →
    Runs (.memoryRead req obs) s (fun t => t.busErr = true ∧ t.busData = [] ∧
      t.reports = s.reports ++ [(dataSource (memStation c), 2, 0x10)] ∧
      t.fget A.loomTagDrop A.loomTagDrop_count = satTo 32 (s.fget A.loomTagDrop A.loomTagDrop_count + 1) ∧
      (memStation c < 48 → (t.reg (A.ceErrStatus (memStation c))).testBit 4 = true) ∧
      Kept (A.loomTagDrop :: A.ceErrStatus (memStation c) :: gcntRegs) s t) ∧
    Runs (.memoryWrite req data obs) s (fun t => t.busErr = true ∧
      t.reports = s.reports ++ [(dataSource (memStation c), 2, 0x10)] ∧
      t.fget A.loomTagDrop A.loomTagDrop_count =
        satTo 32 (s.fget A.loomTagDrop A.loomTagDrop_count + (1 + (req.len + 63) / 64)) ∧
      (memStation c < 48 → (t.reg (A.ceErrStatus (memStation c))).testBit 4 = true) ∧
      Kept (A.loomTagDrop :: A.ceErrStatus (memStation c) :: gcntRegs) s t)) ∧
  (∀ (req : MemReq) (obs : MemObs) (s : State) (p : Nat), req.len ≠ 0 → memRange req.addr req.len = false →
    storeWindow req.addr = none → reqPart s req = some p → stopping s p = false → tgetD s.tdFree p 0 ≤ s.tb.n →
    Runs (.memoryRead req obs) s fun t => t.busErr = true ∧ t.busData = [] ∧
      t.fget A.loomTagDrop A.loomTagDrop_count = satTo 32 (s.fget A.loomTagDrop A.loomTagDrop_count + 1) ∧
      Kept (A.loomTagDrop :: A.ceErrStatus req.station :: gcntRegs) s t) ∧
  (∀ (req : MemReq) (obs : MemObs) (s : State) (c q : Nat), req.len ≠ 0 → memRange req.addr req.len = true →
    canon req.addr = some c → memServes s c = true → clearingAt s req.addr req.len = false → reqPart s req = none →
    ownerAt s c = some q → confidential s q = true →
    Runs (.memoryRead req obs) s fun t => t.busData = List.replicate req.len 0 ∧ t.busErr = false ∧
      t.fget A.gnTeardownDrop A.gnTeardownDrop_count = satTo 32 (s.fget A.gnTeardownDrop A.gnTeardownDrop_count + 1) ∧
      Kept [A.gnTeardownDrop] s t) ∧
  (∀ (req : MemReq) (data : List Byte) (obs : MemObs) (s : State), toNowhere s req →
    exec (.memoryRead req obs) s = .fault (.noSuchAddress req.addr) ∧
    exec (.memoryWrite req data obs) s = .fault (.noSuchAddress req.addr)) ∧
  (∀ (req : MemReq) (data : List Byte) (obs : MemObs) (s : State) (c : Nat), memRange req.addr req.len = true →
    canon req.addr = some c → memServes s c = false → Idle (.memoryRead req obs) s ∧ Idle (.memoryWrite req data obs) s) ∧
  (∀ (req : MemReq) (data : List Byte) (obs : MemObs) (s : State) (c : Nat), req.len ≠ 0 → memRange req.addr req.len = true →
    canon req.addr = some c → memServes s c = true → clearingAt s req.addr req.len = true →
    exec (.memoryRead req obs) s = .next { s with memWaits := s.memWaits ++ [(req, none, obs)] } ∧
    exec (.memoryWrite req data obs) s = .next { s with memWaits := s.memWaits ++ [(req, some data, obs)] }) ∧
  (∀ (req : MemReq) (data : List Byte) (obs : MemObs) (s : State) (st o : Nat), req.len ≠ 0 → storeWindow req.addr = some (st, o) →
    exec (.memoryWrite req data obs) s = .next { s with busData := [], busErr := false } ∧
    (o + req.len ≤ 0x1000000 →
      (storeMapped st o = false ∨ ∃ p, reqPart s req = some p ∧ blockPart s st ≠ some p) →
      Runs (.memoryRead req obs) s fun t => t.busData = List.replicate req.len 0 ∧ t.busErr = false ∧
        t = { s with busData := t.busData, busErr := t.busErr, free := t.free }))

/-- Scrub reads one line after another as each is due, in order, and begins again after the last (R449; the even spread over the period
is log 66); one byte of a line, or bit of a Commons word, in error is corrected, counted and changes no byte, and two are detected:
logged with no requester, and the codeword stays in error (R438, R443 to R445, R454). Calibration reports each of a lode's channels
in turn (R839). -/
def Obligations.ScrubAndCalibration : Prop :=
  (∀ (u line : Nat) (s : State), u < 20 → line = s.reg (scrubRegs u).2.2.1 → line < (scrubRegs u).2.2.2 →
    s.flag (scrubRegs u).2.1 A.lodeScrubCtl_en = true → dieOn s = true → memServes s (scrubAddr u line) = true →
    scrubDue s u = true → badRange s (scrubAddr u line) 64 = false →
    Runs (.lodeScrub u .clean) s (fun t =>
      t.reg (scrubRegs u).2.2.1 = (if line + 1 < (scrubRegs u).2.2.2 then line + 1 else 0) ∧
      Kept [(scrubRegs u).1, (scrubRegs u).2.2.1] s t ∧ t = { s with regs := t.regs, pprRows := t.pprRows, scrubAt := t.scrubAt }) ∧
    Runs (.lodeScrub u (.symbols 1)) s (fun t =>
      t.reg (scrubRegs u).2.2.1 = (if line + 1 < (scrubRegs u).2.2.2 then line + 1 else 0) ∧
      t.fget (errRegs (scrubAddr u line)).2.1 A.lodeErrCount_corrected =
        satTo 32 (s.fget (errRegs (scrubAddr u line)).2.1 A.lodeErrCount_corrected + 1) ∧
      (t.reg (errRegs (scrubAddr u line)).1).testBit 0 = true ∧
      t.reports = s.reports ++ [(memSource (scrubAddr u line), 1, 1)] ∧ t.badLines = s.badLines ∧
      Kept [(scrubRegs u).1, (scrubRegs u).2.2.1, (errRegs (scrubAddr u line)).1, (errRegs (scrubAddr u line)).2.1] s t) ∧
    Runs (.lodeScrub u (.symbols 2)) s (fun t =>
      t.badLines = s.badLines ++ [scrubAddr u line] ∧ (t.reg (errRegs (scrubAddr u line)).1).testBit 1 = true ∧
      t.reports = s.reports ++ [(memSource (scrubAddr u line), 2, 2)] ∧ MemKept s t ∧ t.tracked = s.tracked)) ∧
  (∀ (u : Nat) (obs : MemObs) (s : State), scrubDue s u = false → Idle (.lodeScrub u obs) s) ∧
  (∀ (lode v : Nat) (s : State), v = tgetD s.calNext lode 0 → lode < 16 → dieOn s = true →
    s.flag (A.lodeStatus lode) A.lodeStatus_ready = true → (v % 8 ≠ 0 ∨ v / 8 ≤ s.tb.n) →
    Runs (.lodeCal lode) s fun t =>
      RaisedM 62 0x307 (lode + v % 8 * 16) s t ∧
      tgetD t.calNext lode 0 = (if v % 8 < 5 then v + 1
        else 8 * (s.tb.n + max 1 (s.fget A.fcTestCtl A.fcTestCtl_lodeCalS) * 100000000)) ∧
      Kept [] s t ∧ t = { s with events := t.events, calNext := t.calNext })

/-- The region table: a write that leaves every valid entry well formed takes effect, and Commons bytes that change owner read zero
from then on; one that would break R424 sets REGION_ERR (R424, R427, R437, R469). Key slots: R431, R432, R468. -/
def Obligations.RegionsAndKeySlots : Prop :=
  (∀ (n val : Nat) (limit : Bool) (s : State) (b l : Nat), n < 64 → MemInv s →
    b = (if limit then s.reg (A.memRegionBase n) else fld val 3 0 + fld val 47 16 * 65536) →
    l = (if limit then fld val 47 16 * 65536 else s.reg (A.memRegionLimit n)) →
    b.testBit 0 = false ∨ regionOk (fld b 47 16) (fld l 47 16) = true →
    Runs (.memRegionWrite .firmware n limit val) s fun t =>
      t.reg (A.memRegionBase n) = b % 2 ^ 64 ∧ t.reg (A.memRegionLimit n) = l % 2 ^ 64 ∧
      (∀ c, commonsBase ≤ c → c < commonsBase + commonsSize →
        byteAt t c = if ownerAt t c = ownerAt s c then byteAt s c else 0) ∧
      (∀ c, c < lpddrTop → cellGet t.mem c = cellGet s.mem c) ∧ t.tracked = s.tracked ∧ t.events = s.events ∧
      RegsKept [A.memRegionBase n, A.memRegionLimit n, A.memStatus] s t) ∧
  (∀ (n val : Nat) (limit : Bool) (s : State) (b l : Nat), n < 64 →
    b = (if limit then s.reg (A.memRegionBase n) else fld val 3 0 + fld val 47 16 * 65536) →
    l = (if limit then fld val 47 16 * 65536 else s.reg (A.memRegionLimit n)) →
    b.testBit 0 = true → regionOk (fld b 47 16) (fld l 47 16) = false →
    RunsRegs (.memRegionWrite .firmware n limit val) s [A.memStatus] fun t => t.fget A.memStatus A.memStatus_regionErr = 1) ∧
  (∀ s : State, s.clearing ≠ [] → Runs .cmClearDone s fun t => t.clearing = [] ∧ t.memWaits = []) ∧
  (∀ s : State, s.clearing ≠ [] → s.memWaits = [] →
    Runs .cmClearDone s fun t => t.clearing = [] ∧ t.fget A.memStatus A.memStatus_cmClearing = 0 ∧ Kept [A.memStatus] s t ∧
      t = { s with regs := t.regs, clearing := t.clearing }) ∧
  (∀ (p val k : Nat) (s : State), p < 8 → hasRegion s p = false → k = fld val 3 0 → val.testBit 4 = true → k ≠ 0 →
    slotNamed s k (some p) = false →
    Runs (.memPartKey .firmware p val) s fun t =>
      t.reg (A.memPartKey p) = fld val 4 0 ∧ t.fget (A.memSlot k) A.memSlot_state = 1 ∧
      RegsKept [A.memPartKey p, A.memSlot k] s t ∧ t = { s with regs := t.regs }) ∧
  (∀ (p val : Nat) (s : State), p < 8 → hasRegion s p = true →
    RunsRegs (.memPartKey .firmware p val) s [A.memStatus] fun t => t.fget A.memStatus A.memStatus_regionErr = 1) ∧
  (∀ (p val : Nat) (s : State), hasRegion s p = false → val.testBit 4 = true →
    (fld val 3 0 = 0 ∨ slotNamed s (fld val 3 0) (some p) = true) → Idle (.memPartKey .firmware p val) s) ∧
  (∀ (k : Nat) (s : State), k ≠ 0 → k < 16 → slotNamed s k none = false →
    Runs (.retire .firmware k) s fun t =>
      t.fget (A.memSlot k) A.memSlot_epoch = (s.fget (A.memSlot k) A.memSlot_epoch + 1) % 2 ^ 32 ∧
      t.fget (A.memSlot k) A.memSlot_state = 0 ∧ RegsKept [A.memSlot k] s t ∧ t = { s with regs := t.regs }) ∧
  (∀ (k : Nat) (s : State), (k = 0 ∨ 16 ≤ k ∨ slotNamed s k none = true) → Idle (.retire .firmware k) s) ∧
  (∀ (n val : Nat) (limit : Bool), FwOnly (fun w => .memRegionWrite w n limit val)) ∧
  (∀ p val, FwOnly (fun w => .memPartKey w p val)) ∧ (∀ k, FwOnly (fun w => .retire w k))

/-! ### Lists of operations -/

/-- KVOP, SCTL and VCHAN check their lists before their first operation, take their order stream, then apply one record after another,
each as its own row does, count those that fail, and end with DONE; a KVOP's count leaves as its last tile (R326 to R328, R413, R527). -/
def Obligations.ListCommandsApplyTheirRecords : Prop :=
  ListCommand .kvop 0x52 0x167 (fun s => ledgerOn s = true) lopReads
    [(0x01, fun t r a => .seqOpen t.part r a), (0x02, fun t r a => .seqClose t.part r a), (0x03, fun t r a => .share t.part r a),
      (0x04, fun t r a => .drop t.part r a), (0x05, fun t r a => .cow t.part r a), (0x06, fun t r a => .pin t.part r a),
      (0x07, fun t r a => .unpin t.part r a), (0x08, fun t r a => .resolve t.part r a), (0x09, fun t r a => .tick t.part r a),
      (0x0A, fun t r a => .noevict t.part r a), (0x0B, fun t r a => .kvopQuery t.part r a),
      (0x0C, fun t r a => .alloc t.part r a), (0x0D, fun t r a => .decref t.part r a)] ∧
  (∀ (slot : Nat) (s : State) (t : Tracked) (o : OutBind), ledgerOn s = true → runningCmd s slot 0x52 = some t →
    t.work.opened = true → t.rerun = false → t.compl = .none → t.ins = [] → t.work.pos = opw t.opb 6 15 0 + 1 → t.outs = [o] →
    o.formed < 2 ^ 32 - 1 →
    Runs (.kvop slot) s fun t' => Reached slot 0 0 t' ∧ ∃ (u : Tracked) (p : OutBind) (x : Tile), t'.cmd? slot = some u ∧ u.outs[0]? = some p ∧
      p.queue = o.queue ++ [x] ∧ x.last = true ∧ x.payload = leBytes 4 t.work.fails ++ leBytes 4 0) ∧
  ListCommand .sctl 0x61 0x184 (fun _ => True) (fun _ _ => [])
    [(0x01, fun t r a => .groupCancel t.part r a), (0x02, fun t r a => .groupClear t.part r a),
      (0x03, fun t r a => .seqReset t.part r a), (0x04, fun t r a => .seqLoop t.part r a), (0x05, fun t r a => .seqQuery t.part r a)] ∧
  ListCommand .vchan 0x68 0x1A0 (fun _ => True) vopReads
    [(1, fun t r a => .vchanOpen (t.station - 54) t.part r a), (2, fun t r a => .vchanClose (t.station - 54) t.part r a),
      (3, fun t r a => .keypic (t.station - 54) t.part r a), (4, fun t r a => .vchanQuery (t.station - 54) t.part r a)]

/-! ### Video -/

/-- The operations on a channel of a VD: OPEN makes it from its record within the VD's budget, CLOSE ends it with its flow entries,
KEYPIC raises the request as an event, QUERY answers its state; a refused one answers its status alone (R480 to R482, R513,
R524, R527 to R529, R554). -/
def Obligations.VideoChannelOperations : Prop :=
  (∀ (vd part chan cost : Nat) (enc : Bool) (r : OpRec) (res : Nat) (s : State) (w : List Nat), opChan r = some (chan, enc) →
    vchan? s vd chan enc = none → r.word1 % 8 = 0 → ownsRange s part r.word1 64 = true →
    w = (List.range 8).map (fun i => word64 s (r.word1 + 8 * i)) → recordOk s part enc w = true →
    cost = ctuCost (fld (w.getD 0 0) 14 3 + 1) (fld (w.getD 0 0) 26 15 + 1) (fld (w.getD 0 0) 33 27) → Writable s res 8 →
    (((chansOf s vd fun c => c.encode == enc).map VChan.cost).sum + cost ≤ (if enc then 244800 else 489600) →
      (w.getD 0 0).testBit 2 = false →
      Runs (.vchanOpen vd part r res) s fun t =>
        (∃ c, vchan? t vd chan enc = some c ∧ c.vd = vd ∧ c.chan = chan ∧ c.encode = enc ∧ c.owner = part ∧ c.recWords = w ∧
          c.cost = cost ∧ c.pics = 0 ∧ c.ringPos = 0 ∧ c.pkts = [] ∧ c.waitIrap = !enc) ∧
        (∀ k, k ≠ chanKey vd chan enc → tget t.vchans k = tget s.vchans k) ∧ Stored res (leBytes 8 0) s t ∧ RegsKept [] s t ∧
        ListFrame s t) ∧
    ((if enc then 244800 else 489600) < ((chansOf s vd fun c => c.encode == enc).map VChan.cost).sum + cost →
      RefusedRow (.vchanOpen vd part r res) s res 10)) ∧
  (∀ (vd part chan : Nat) (enc : Bool) (r : OpRec) (res : Nat) (s : State) (c : VChan), opChan r = some (chan, enc) →
    vchan? s vd chan enc = some c → c.vd = vd → c.chan = chan → c.encode = enc → Writable s res 8 →
    RefusedRow (.vchanOpen vd part r res) s res 8 ∧
    (c.owner = part →
      (chanBusy s c = true → RefusedRow (.vchanClose vd part r res) s res 12) ∧
      (chanBusy s c = false → Runs (.vchanClose vd part r res) s fun t =>
        vchan? t vd chan enc = none ∧ (∀ k, k ≠ chanKey vd chan enc → tget t.vchans k = tget s.vchans k) ∧
        (enc = false → ∀ k, k < 128 → s.fget (A.nxFlow (k / 64) (k % 64)) A.nxFlow_vd = vd →
          s.fget (A.nxFlow (k / 64) (k % 64)) A.nxFlow_chan = chan → t.flag (A.nxFlow (k / 64) (k % 64)) A.nxFlow_en = false) ∧
        Stored res (leBytes 8 0) s t ∧ RegsKept ((List.range 128).map fun k => A.nxFlow (k / 64) (k % 64)) s t ∧ ListFrame s t) ∧
      (enc = true → Runs (.keypic vd part r res) s fun t =>
        RaisedP (54 + vd) 0x20 part chan s t ∧ Stored res (leBytes 8 0) s t ∧ RegsKept [] s t ∧ t.vchans = s.vchans ∧
        t.tracked = s.tracked) ∧
      (enc = false → RefusedRow (.keypic vd part r res) s res 8) ∧
      Runs (.vchanQuery vd part r res) s fun t =>
        Stored res (leBytes 8 (c.pics % 2 ^ 16 + 2 ^ 16 + (if c.waitIrap then 2 ^ 17 else 0) + c.qp * 2 ^ 32)) s t ∧
        RegsKept [] s t ∧ ListFrame s t ∧ t.vchans = s.vchans) ∧
    (c.owner ≠ part → RefusedRow (.vchanClose vd part r res) s res 2 ∧ RefusedRow (.keypic vd part r res) s res 2 ∧
      RefusedRow (.vchanQuery vd part r res) s res 2)) ∧
  (∀ (vd part chan : Nat) (enc : Bool) (r : OpRec) (res : Nat) (s : State), opChan r = some (chan, enc) →
    vchan? s vd chan enc = none →
    RefusedRow (.vchanClose vd part r res) s res 13 ∧ RefusedRow (.keypic vd part r res) s res 13) ∧
  (∀ (vd part : Nat) (r : OpRec) (res : Nat) (s : State), opChan r = none →
    RefusedRow (.vchanOpen vd part r res) s res 8 ∧ RefusedRow (.vchanClose vd part r res) s res 8 ∧
    RefusedRow (.keypic vd part r res) s res 8 ∧ RefusedRow (.vchanQuery vd part r res) s res 8)

/-- Packets to pictures to tiles: a VALID ring slot is taken and cleared (R491 to R493), a complete picture takes its packets
(R494), a header answer later than 2 ms conceals a slice of either direction (R489); VDEC decodes the next picture, or passes it over
while it waits for an IRAP picture, and emits pictures tile by tile (R497 to R501, R509, R530), VENC raises the start of a picture and
takes its tiles, and when it is replayed works on a channel of its own (R105, R515, R517, R524); a channel that is not the partition's is
refused (R532); a row with a concealed CTU is reported, an intact one of an intra-coded picture is not (R506), and a picture that is not
supported is concealed whole (R473). -/
def Obligations.VideoPictures : Prop :=
  (∀ (vd chan a : Nat) (s : State) (c : VChan), vchan? s vd chan false = some c → c.vd = vd → c.chan = chan → c.encode = false →
    a = ringAddr c + 2048 * (c.ringPos % ringSlots c) → (word64 s a).testBit 63 = true → s.frozen = false → Writable s a 2048 →
    Runs (.packetTake vd chan) s fun t =>
      Stored a (leBytes 8 (word64 s a - 2 ^ 63)) s t ∧
      (∃ c' : VChan, vchan? t vd chan false = some c' ∧ c'.ringPos = c.ringPos + 1 ∧ c'.owner = c.owner ∧ c'.recWords = c.recWords ∧
        c'.ready = c.ready ∧ (c'.pkts = c.pkts ∨ ∃ k : Pkt, c'.pkts = c.pkts ++ [k] ∧ k.arrival = word64 s (a + 8) ∧
          c.doneTs.contains k.ts = false ∧ k.bytes = rtpPayload (readBytes s (a + 16) (min (fld (word64 s a) 15 0) 2032))) ∧
        (fld (readBytes s (a + 16) (min (fld (word64 s a) 15 0) 2032) |>.headD 0).toNat 7 6 ≠ 2 →
          c'.pkts = c.pkts ∧ c'.foreign = c.foreign + 1)) ∧
      RegsKept [A.vdStreamErr vd, A.vdLateDrop vd] s t ∧ ListFrame s t) ∧
  (∀ (vd chan last : Nat) (s : State) (c : VChan), vchan? s vd chan false = some c → c.vd = vd → c.chan = chan → c.encode = false →
    pictureEnd s c = some (last, false) →
    Runs (.pictureComplete vd chan) s fun t =>
      (∃ (c' : VChan) (p : Pic), vchan? t vd chan false = some c' ∧ c'.lastDone = some last ∧ c'.ready = c.ready ++ [p] ∧
        p.pkts = c.pkts.filter (fun k => decide (k.ext ≤ last)) ∧ p.byJitter = false ∧
        c'.pkts = c.pkts.filter (fun k => decide (last < k.ext))) ∧
      Kept [A.vdLateDrop vd] s t ∧ t = { s with regs := t.regs, vchans := t.vchans }) ∧
  (∀ (vd chan n : Nat) (s : State) (c : VChan) (p : Pic) (r : List Pic), vchan? s vd chan false = some c → c.vd = vd →
    c.chan = chan → c.encode = false → c.ready = p :: r → n = (sliceNals c.codec (picBits (codecH264 c.codec) p)).length →
    p.at_ + 200000 ≤ s.tb.n → p.late.length < n →
    Runs (.fwTimeout vd chan) s fun t =>
      vchan? t vd chan false = some { c with ready := { p with late := p.late ++ [s.freeVal % n] } :: r } ∧
      (t.reg (A.vdErrStatus vd)).testBit 3 = true ∧ t.reports = s.reports ++ [(120 + vd, 2, 8)] ∧ Kept [A.vdErrStatus vd] s t) ∧
  (∀ (vd chan : Nat) (s : State) (c : VChan), vchan? s vd chan true = some c → c.vd = vd → c.chan = chan → c.encode = true →
    2 ≤ c.slice → c.band ≠ [] → c.missed = false → c.sliceAt + 200000 ≤ s.tb.n →
    Runs (.fwTimeout vd (40 + chan)) s fun t =>
      vchan? t vd chan true = some { c with missed := true } ∧
      (t.reg (A.vdErrStatus vd)).testBit 3 = true ∧ t.reports = s.reports ++ [(120 + vd, 2, 8)] ∧ Kept [A.vdErrStatus vd] s t) ∧
  (∀ (slot vd chan : Nat) (s : State) (t : Tracked) (c : VChan), runningCmd s slot 0x69 = some t → t.station = 54 + vd →
    chan = opw t.opb 4 5 0 → vchan? s vd chan false = some c → c.vd = vd → c.chan = chan → c.encode = false → c.owner = t.part →
    opw t.opb 4 34 32 < 5 →
    (∀ (p : Pic) (r : List Pic) (k : Nat) (e : PicBits), k = plainCodec c.codec → e = picBits (codecH264 c.codec) p →
      (c.waitIrap = true ∧ t.work.aux = 0) ∨ Config.released k c.history.reverse ≤ c.pics - c.base → c.ready = p :: r →
      Runs (.vdec slot) s fun t' => RegsKept [] s t' ∧ t'.tracked = s.tracked ∧ t'.events = s.events ∧
        MemKeptBut (c.wd 1 47 0) (c.wd 2 39 0) s t' ∧
        vchan? t' vd chan false = some (
          if c.waitIrap = true ∧ Config.startsIrap k e = false then { c with ready := r }
          else if Config.noPicture k (if c.waitIrap = true then [e] else e :: c.history.reverse) = true then
            { c with waitIrap := true, ready := r }
          else if c.waitIrap = true then
            { c with ready := r, waitIrap := false, history := [e], metas := [p], base := c.pics
                     prior := if c.history.isEmpty then c.prior else c.history.reverse :: c.prior }
          else { c with ready := r, history := c.history ++ [e], metas := c.metas ++ [p] })) ∧
    (∀ (o : OutBind) (p : PicRef) (k : Nat), k = plainCodec c.codec → ¬ (c.waitIrap = true ∧ t.work.aux = 0) →
      c.pics - c.base < Config.released k c.history.reverse →
      p = { codec := c.codec, history := (c.history.take (Config.place k c.history.reverse (c.pics - c.base) + 1)).reverse
            prior := c.prior } →
      roomFor s t = true →
      t.outs[0]? = some o → o.formed < 2 ^ 32 - 1 → t.work.aux + 1 < p.tiles (opw t.opb 4 34 32) →
      Runs (.vdec slot) s fun t' =>
        (∃ (u : Tracked) (q : OutBind) (x : Tile), t'.cmd? slot = some u ∧ u.work.aux = t.work.aux + 1 ∧ u.outs[0]? = some q ∧
          q.queue = o.queue ++ [x] ∧ x.index = o.formed ∧ x.stream = o.stream ∧ x.last = false ∧
          x.payload = (p.tile (opw t.opb 4 34 32) t.work.aux false).payload) ∧
        t'.events = s.events ∧ Kept [] s t')) ∧
  (∀ (slot vd chan : Nat) (s : State) (t : Tracked) (c : VChan) (x : Tile) (b : InBind), runningCmd s slot 0x6A = some t →
    t.station = 54 + vd → chan = opw t.opb 4 4 0 → vchan? s vd chan true = some c → c.vd = vd → c.chan = chan → c.encode = true →
    c.owner = t.part → t.rerun = false → t.ins[0]? = some b → b.window.head? = some x →
    (t.venc = none ∨ c.slice = 0 → (t.vencRun c.fresh).decided[t.work.pos]? = none → Runs (.venc slot) s fun t' =>
      vchan? t' vd chan true = some { c.fresh with slice := 1 } ∧
      RaisedP (54 + vd) 0x21 t.part (chan + (c.pics % 2 ^ 32) * 2 ^ 32) s t' ∧ Kept [] s t' ∧
      ∃ u : Tracked, t'.cmd? slot = some u ∧ u = { t with venc := some (t.vencRun c.fresh) }) ∧
    (∀ (rows bytes band col : Nat), t.venc.isSome = true → 2 ≤ c.slice → roomFor s t = true →
      planeShape c.width c.height 1 t.work.aux = (rows, bytes, band, true, col) →
      x.format = 1 → tileRows x = rows → tileRowBytes x = bytes →
      Runs (.venc slot) s fun t' =>
        (∃ n : Nat, vchan? t' vd chan true = some { c with band := c.band ++ expand x, sliceAt := n }) ∧
        (∃ (u : Tracked) (b' : InBind), t'.cmd? slot = some u ∧ u.work.aux = t.work.aux + 1 ∧ u.ins[0]? = some b' ∧
          b'.window = b.window.tail ∧ b'.taken = b.taken ++ [x]) ∧
        t'.events = s.events ∧ Kept [] s t')) ∧
  (∀ (slot : Nat) (s : State) (t : Tracked) (v : VencRun) (b : InBind), runningCmd s slot 0x6A = some t → t.rerun = true →
    t.venc = some v → v.cur.slice = 0 → t.ins[0]? = some b → b.window ≠ [] →
    Runs (.venc slot) s fun t' => t'.vchans = s.vchans ∧ t'.events = s.events ∧ Kept [] s t' ∧ ∃ u : Tracked, t'.cmd? slot = some u ∧
      u = { t with venc := some { v with cur := { v.cur with slice := (v.decided[t.work.pos]?).getD 2 } } }) ∧
  (∀ (slot : Nat) (s : State) (t : Tracked), runningCmd s slot 0x69 = some t → t.rerun = false → t.compl = .none →
    ((∀ c, vchan? s (t.station - 54) (opw t.opb 4 5 0) false = some c → c.owner ≠ t.part) →
      Runs (.vdec slot) s fun t' => Reached slot 4 0x1A1 t') ∧
    (∀ c, vchan? s (t.station - 54) (opw t.opb 4 5 0) false = some c → c.owner = t.part → 5 ≤ opw t.opb 4 34 32 →
      Runs (.vdec slot) s fun t' => Reached slot 4 0x1A2 t')) ∧
  (∀ (slot : Nat) (s : State) (t : Tracked), runningCmd s slot 0x6A = some t → t.rerun = false → t.compl = .none →
    (∀ c, vchan? s (t.station - 54) (opw t.opb 4 4 0) true = some c → c.owner ≠ t.part) →
    Runs (.venc slot) s fun t' => Reached slot 4 0x1A1 t') ∧
  (∀ (k n r i : Nat) (p : PicBits) (older : List PicBits), i < ctuCols k (p :: older) →
    ctuDecoded k (p :: older) (r * ctuCols k (p :: older) + i) = false → rowReported k (n + 1) (p :: older) r = true) ∧
  (∀ (k n r : Nat) (p : PicBits) (older : List PicBits),
    picField k (p :: older) .intra ≠ 0 ∨ picField k (p :: older) .irap ≠ 0 →
    (∀ i, i < ctuCols k (p :: older) → ctuDecoded k (p :: older) (r * ctuCols k (p :: older) + i) = true) →
    rowReported k (n + 1) (p :: older) r = false) ∧
  (∀ (k ctu : Nat) (h : List PicBits), unsupported k h = true → ctuDecoded k h ctu = false)

/-- Encoded packets fill tiles whole and in order (R516); the QP that rate control sets lies within the channel's bounds and
moves by at most 2 where the present one does (R521, R522); a stage of the motion search takes a vector of its window of least cost, and
of those the smallest (R520); every LTR_PERIOD-th picture becomes the long-term reference, and an IDR leaves none (R525); VPS, SPS and
PPS precede an IDR picture's first slice and no other (R475), and a NAL unit leaves in one packet where it fits the MTU, else in
fragmentation units that do (R479; the codes of the standards are the model's, log 103). -/
def Obligations.EncoderPacketsAndQp : Prop :=
  (∀ ws : List (List Byte), (∀ w ∈ ws, w ≠ []) →
    (packTiles ws []).flatten = ws.flatten ∧ (∀ x ∈ packTiles ws [], x ≠ [] ∧ (x.length ≤ 32768 ∨ x ∈ ws))) ∧
  (∀ (c : VChan) (idr : Bool) (bits : Nat), c.wd 6 24 24 = 0 → c.wd 6 5 0 ≤ c.wd 6 13 8 →
    c.wd 6 5 0 ≤ (nextQp c idr bits).1 ∧ (nextQp c idr bits).1 ≤ c.wd 6 13 8 ∧
    (c.wd 6 5 0 ≤ c.qp → c.qp ≤ c.wd 6 13 8 → (nextQp c idr bits).1 ≤ c.qp + 2 ∧ c.qp ≤ (nextQp c idr bits).1 + 1)) ∧
  (∀ (c : VChan) (idr : Bool) (bits : Nat), c.wd 6 24 24 = 1 → nextQp c idr bits = (c.wd 6 21 16, false)) ∧
  (∀ (cost : Int × Int → Nat) (vs : List (Int × Int)), vs ≠ [] → bestVector cost vs ∈ vs ∧ ∀ v ∈ vs,
    cost (bestVector cost vs) ≤ cost v ∧ (cost (bestVector cost vs) = cost v → vecSize (bestVector cost vs) ≤ vecSize v)) ∧
  (∀ (c : VChan) (coded : List Byte), longAfter c true coded = none ∧
    (c.wd 5 63 56 ≠ 0 → c.sinceIdr % c.wd 5 63 56 = 0 → longAfter c false coded = some coded) ∧
    (c.wd 5 63 56 = 0 ∨ c.sinceIdr % c.wd 5 63 56 ≠ 0 → longAfter c false coded = c.longRef)) ∧
  (∀ (c : VChan) (refs : List (List Byte × List (Int × Int))) (samples : List Byte) (slice : Nat) (missed : Bool),
    ((sliceUnits c refs samples true 0 missed).map fun n => fld (n.headD 0).toNat 6 1) = [32, 33, 34, 20] ∧
    (∀ idr : Bool, idr = false ∨ slice ≠ 0 → sliceUnits c refs samples idr slice missed = [sliceNal c refs samples idr slice missed])) ∧
  (∀ (mtu : Nat) (nal : List Byte), nal.length + 12 ≤ mtu → nalPayloads mtu nal = [nal]) ∧
  (∀ (mtu : Nat) (nal : List Byte), 15 < mtu → mtu < nal.length + 12 → 2 ≤ nal.length →
    ((nalPayloads mtu nal).map fun p => p.drop 3).flatten = nal.drop 2 ∧
    ∀ p ∈ nalPayloads mtu nal, p.length + 12 ≤ mtu ∧ fld (p.headD 0).toNat 6 1 = 49)

/-! ### Host link -/

/-- Frames come in by a Shuttle, in order, and go to their consumer: one that finds no room, has a bad FCS or is too long is
counted; control frames reach the endpoint, a camera packet its ring, an inbound RoCEv2 request only a counter; an eliminated
CB duplicate goes nowhere (R536, R537, R542 to R556, R568). -/
def Obligations.FramesAreReceived : Prop :=
  (∀ (port key : Nat) (f : EthFrame) (s : State), portOn s port = true → key = shuttleOf port f →
    shuttleUsed s key + frameWords (maxFrame s port) ≤ shuttleSize key →
    (f.len ≤ maxFrame s port → f.fcsOk = true → (forEndpoint f && s.flag A.thimbleWakeCtl A.thimbleWakeCtl_netEn) = false →
      Runs (.frameReceive port f) s fun t =>
        tgetD t.shuttles key [] = tgetD s.shuttles key [] ++ [ShFrame.mk f (now s)] ∧
        (∀ k, k ≠ key → tget t.shuttles k = tget s.shuttles k) ∧ Kept (A.nxShuttleStat port (key % 8) :: gcntRegs) s t ∧
        t = { s with regs := t.regs, shuttles := t.shuttles }) ∧
    (f.len ≤ maxFrame s port → f.fcsOk = true → Runs (.frameReceive port f) s fun t =>
      tgetD t.shuttles key [] = tgetD s.shuttles key [] ++ [ShFrame.mk f (now s)] ∧ t.tracked = s.tracked ∧ t.mem = s.mem) ∧
    (f.len ≤ maxFrame s port → f.fcsOk = false → Runs (.frameReceive port f) s fun t =>
      t.fget (portBase port + 0x30) A.nxRxDrop_fcs = satTo 16 (s.fget (portBase port + 0x30) A.nxRxDrop_fcs + 1) ∧
      Kept ((portBase port + 0x30) :: gcntRegs) s t ∧ t = { s with regs := t.regs }) ∧
    (maxFrame s port < f.len → Runs (.frameReceive port f) s fun t =>
      t.fget (portBase port + 0x30) A.nxRxDrop_oversize = satTo 16 (s.fget (portBase port + 0x30) A.nxRxDrop_oversize + 1) ∧
      Kept ((portBase port + 0x30) :: gcntRegs) s t ∧ t = { s with regs := t.regs })) ∧
  (∀ (port key : Nat) (f : EthFrame) (s : State), portOn s port = true → port < 2 → key = shuttleOf port f →
    shuttleSize key < shuttleUsed s key + frameWords (maxFrame s port) →
    Runs (.frameReceive port f) s fun t =>
      t.fget (A.nxShuttleStat port (key % 8)) A.nxShuttleStat_drop =
        satTo 32 (s.fget (A.nxShuttleStat port (key % 8)) A.nxShuttleStat_drop + 1) ∧
      Kept (A.nxShuttleStat port (key % 8) :: gcntRegs) s t ∧ t = { s with regs := t.regs }) ∧
  (∀ (port key sh : Nat) (x : ShFrame) (r : List ShFrame) (s : State), port < 3 → dieOn s = true → s.frozen = false →
    key = (if port = 2 then 16 else port * 8 + sh % 8) → tgetD s.shuttles key [] = x :: r → x.frame.tagged = false →
    (∀ c : CtlFrame, x.frame.body = .control (cpPort s port) c → unknownItem c = false → Runs (.classify port sh) s fun t =>
      tgetD t.shuttles key [] = r ∧ t.inbox = s.inbox ++ [(port, c)] ∧ Kept [] s t ∧
      t = { s with shuttles := t.shuttles, inbox := t.inbox }) ∧
    (∀ (d : Nat) (c : CtlFrame), x.frame.body = .control d c → d ≠ cpPort s port → Runs (.classify port sh) s fun t =>
      tgetD t.shuttles key [] = r ∧ t.inbox = s.inbox ∧ t.sessions = s.sessions ∧ t.out = s.out ∧ MemKept s t) ∧
    (port < 2 → x.frame.body = .roceRequest → Runs (.classify port sh) s fun t =>
      tgetD t.shuttles key [] = r ∧ t.fget (A.nxRdmaDrop port) A.nxRdmaDrop_inboundReq =
        satTo 32 (s.fget (A.nxRdmaDrop port) A.nxRdmaDrop_inboundReq + 1) ∧ Kept [A.nxRdmaDrop port] s t) ∧
    (∀ (dport k w : Nat) (bs : List Byte) (c : VChan), port < 2 → x.frame.body = .udp dport bs →
      flowOf s port dport x.frame = some k →
      vchan? s (s.fget (A.nxFlow port k) A.nxFlow_vd) (s.fget (A.nxFlow port k) A.nxFlow_chan) false = some c →
      w = ringAddr c + 2048 * (c.ringPut % ringSlots c) → bs.length ≤ 2032 → (word64 s w).testBit 63 = false → Writable s w 2048 →
      Runs (.classify port sh) s fun t =>
        word64 t w = bs.length + 2 ^ 63 ∧ word64 t (w + 8) = x.arrival % 2 ^ 64 ∧ readBytes t (w + 16) bs.length = bs ∧
        MemKeptBut w (16 + bs.length) s t ∧ t.fget (A.nxFlowCnt port k) A.nxFlowCnt_delivered =
          satTo 32 (s.fget (A.nxFlowCnt port k) A.nxFlowCnt_delivered + 1) ∧ RegsKept [A.nxFlowCnt port k] s t ∧ ListFrame s t)) ∧
  (∀ (port sh k q : Nat) (x : ShFrame) (r : List ShFrame) (s : State), port < 2 → dieOn s = true → s.frozen = false →
    tgetD s.shuttles (port * 8 + sh % 8) [] = x :: r → filterOf s port x.frame = none → cbStream s x.frame = some k →
    x.frame.cbSeq = some q → recovered (tgetD s.cbSeen k []) (q % 2 ^ 16) = none →
    Runs (.classify port sh) s fun t => tgetD t.shuttles (port * 8 + sh % 8) [] = r ∧ Kept [] s t ∧
      t = { s with shuttles := t.shuttles }) ∧
  (∀ (id : Nat) (r : Reasm) (s : State), tget s.reasm id = some r → r.at_ + 10000000 ≤ s.tb.n →
    Runs (.reassemblyTimeout id) s fun t => tget t.reasm id = none ∧ (∀ k, k ≠ id → tget t.reasm k = tget s.reasm k) ∧ Kept [] s t ∧
      t = { s with reasm := t.reasm })

/-- RDMA on a queue pair: RREAD issues the READ of its next tile and emits one whose bytes came, RWRITE writes a tile's bytes,
an acknowledgement moves the acknowledged number, an access NAK puts the pair in error, a retry timeout counts, congestion halves
the rate and time raises it by 1/16 of line rate (R557 to R560). -/
def Obligations.RdmaOnAQueuePair : Prop :=
  (∀ (slot qpn n rb : Nat) (s : State) (t : Tracked) (q : QPair), runningCmd s slot 0x78 = some t → qpn = opw t.opb 4 9 0 →
    readyQp s t = some q → n = opw t.opb 6 31 0 → rb = opw t.opb 4 24 17 + 1 →
    (fullOp q slot = none → t.work.pos + 1 < n → (q.ops.filter fun o => o.read && !o.full).length < 16 →
      Runs (.rread slot) s fun t' =>
        (∃ u : Tracked, t'.cmd? slot = some u ∧ u.work.pos = t.work.pos + 1) ∧
        (∃ q' : QPair, tget t'.qps qpn = some q' ∧ q'.psn = q.psn + pktsOf q.mtu ((opw t.opb 4 16 10 + 1) * rb) ∧
          q'.ops = q.ops ++ [{ psn := q.psn, npkts := pktsOf q.mtu ((opw t.opb 4 16 10 + 1) * rb), read := true
                               addr := opw t.opb 5 63 0 + t.work.pos * ((opw t.opb 4 16 10 + 1) * rb), rkey := opw t.opb 4 63 32
                               len := (opw t.opb 4 16 10 + 1) * rb, bytes := [], slot := some slot }]) ∧
        t'.events = s.events ∧ Kept [] s t') ∧
    (∀ (o : RdmaOp) (b : OutBind), fullOp q slot = some o → roomFor s t = true → t.status = none → t.work.aux + 1 < n →
      t.outs[0]? = some b → b.formed < 2 ^ 32 - 1 →
      Runs (.rread slot) s fun t' =>
        (∃ (u : Tracked) (p : OutBind) (x : Tile), t'.cmd? slot = some u ∧ u.work.aux = t.work.aux + 1 ∧ u.outs[0]? = some p ∧
          p.queue = b.queue ++ [x] ∧ x.payload = o.bytes ∧ x.index = b.formed ∧ x.last = false ∧
          tileRows x = opw t.opb 4 16 10 + 1 ∧ tileRowBytes x = rb) ∧
        (∃ q' : QPair, tget t'.qps qpn = some q' ∧ q'.ops = q.ops.erase o) ∧ t'.events = s.events ∧ Kept [] s t')) ∧
  (∀ (slot qpn : Nat) (s : State) (t : Tracked) (q : QPair) (b : InBind) (x : Tile), runningCmd s slot 0x79 = some t →
    qpn = opw t.opb 4 9 0 → readyQp s t = some q → t.ins[0]? = some b → b.window.head? = some x →
    Runs (.rwrite slot) s fun t' =>
      (∃ (u : Tracked) (b' : InBind), t'.cmd? slot = some u ∧ u.ins[0]? = some b' ∧ b'.window = b.window.tail ∧
        u.work.pos = t.work.pos + (expand x).length) ∧
      (∃ (q' : QPair) (o : RdmaOp), tget t'.qps qpn = some q' ∧ q'.ops = q.ops ++ [o] ∧ o.read = false ∧ o.psn = q.psn ∧
        o.addr = opw t.opb 5 63 0 + t.work.pos ∧ o.bytes = expand x ∧ o.slot = some slot) ∧
      t'.events = s.events ∧ Kept [] s t') ∧
  (∀ (slot : Nat) (s : State) (t : Tracked), readyQp s t = none → t.rerun = false → t.compl = .none →
    (runningCmd s slot 0x78 = some t → Runs (.rread slot) s fun t' => Reached slot 4 0x1C0 t') ∧
    (runningCmd s slot 0x79 = some t → Runs (.rwrite slot) s fun t' => Reached slot 4 0x1C0 t')) ∧
  (∀ (qpn p n : Nat) (s : State) (q : QPair), tget s.qps qpn = some q → q.state = 1 → dieOn s = true → s.frozen = false →
    psnOf q.acked p = some n → (∀ u ∈ s.tracked, u.op ≠ 0x78 ∧ u.op ≠ 0x79) →
    Runs (.rdmaResponse qpn (.ack p)) s (fun t =>
      (∃ q' : QPair, tget t.qps qpn = some q' ∧ q'.acked = max q.acked (q.ackLimit (n + 1)) ∧ q'.retries = 0 ∧
        q'.ops = q.ops.filter (fun o => o.read || decide (q.ackLimit (n + 1) < o.psn + o.npkts))) ∧
      Kept [] s t ∧ t = { s with qps := t.qps, rdmaIn := t.rdmaIn }) ∧
    Runs (.rdmaResponse qpn (.accessNak p)) s (fun t => tget t.qps qpn = some { q with state := 2, ops := [] } ∧ Kept [] s t ∧
      t = { s with qps := t.qps, rdmaIn := t.rdmaIn })) ∧
  (∀ (qpn : Nat) (s : State) (q : QPair), tget s.qps qpn = some q → dieOn s = true →
    Runs (.congestionNotification qpn) s (fun t => tget t.qps qpn = some { q with rate := q.rate / 2, rateAt := s.tb.n } ∧
      Kept [] s t ∧ t = { s with qps := t.qps, cnpIn := s.cnpIn.erase qpn }) ∧
    (q.rate < 2 ^ 32 → q.rateAt + 5500 ≤ s.tb.n → Runs (.rateIncrease qpn) s fun t =>
      tget t.qps qpn = some { q with rate := min (2 ^ 32) (q.rate + 2 ^ 32 / 16), rateAt := s.tb.n } ∧ Kept [] s t ∧
      t = { s with qps := t.qps }) ∧
    (q.state = 1 → q.ops.any (fun o => !o.full) = true → q.sentAt + q.timeout ≤ s.tb.n → mayEmit s = true → s.frozen = false →
      (q.retries < 7 → Runs (.rdmaRetryTimeout qpn) s fun t =>
        tget t.qps qpn = some { q with retries := q.retries + 1, sentAt := s.tb.n } ∧ Kept [A.nxRdmaDrop q.port] s t) ∧
      (7 ≤ q.retries → (∀ u ∈ s.tracked, u.op ≠ 0x78 ∧ u.op ≠ 0x79) → Runs (.rdmaRetryTimeout qpn) s fun t =>
        tget t.qps qpn = some { q with state := 2, ops := [] } ∧ Kept [] s t)))

/-- RESULT gives each token record the session's next result sequence and retains it; the NX writes retained entries into the
session's ring in sequence order, at its slot, within the ring of what is acknowledged (R579 to R581). -/
def Obligations.ResultsAreRetained : Prop :=
  (∀ (slot req : Nat) (s : State) (t : Tracked) (b : InBind) (x : Tile) (r : Request) (ss : Session) (rec_ : List Byte),
    runningCmd s slot 0x7A = some t → t.ins[0]? = some b → b.window.head? = some x → tileRowBytes x = 32 → tileRows x = 1 →
    x.last = false → rec_ = rowOf x 0 → leNat ((rec_.drop 24).take 1) = 2 → req = leNat (rec_.take 8) → tget s.requests req = some r →
    r.cancelled = false → tget s.sessions r.session = some ss → ss.closed = false →
    (∀ h, r.highest = some h → h < fld (leNat ((rec_.drop 8).take 8)) 63 32) →
    ss.retained.length + 1 ≤ setting s 12 65536 → ss.acked < ss.nextRes →
    Runs (.result slot) s fun t' =>
      (∃ (ss' : Session) (e : RetEntry), tget t'.sessions r.session = some ss' ∧ ss'.nextRes = ss.nextRes + 1 ∧
        ss'.retained = ss.retained ++ [e] ∧ e.resSeq = ss.nextRes ∧ e.req = req ∧ e.status = 0 ∧
        (rec_.length = 32 → e.bytes = leBytes 8 ss.nextRes ++ List.replicate 8 0 ++ rec_ ++ List.replicate 16 0)) ∧
      (∃ r' : Request, tget t'.requests req = some r' ∧ r'.highest = some (fld (leNat ((rec_.drop 8).take 8)) 63 32)) ∧
      (∃ (u : Tracked) (b' : InBind), t'.cmd? slot = some u ∧ u.ins[0]? = some b' ∧ b'.window = b.window.tail) ∧
      t'.events = s.events ∧ Kept [] s t') ∧
  (∀ (sid n : Nat) (s : State) (ss : Session) (e : RetEntry) (q : QPair), tget s.sessions sid = some ss → n = ss.written + 1 →
    (ss.retained.find? fun e => e.resSeq == n) = some e → n ≤ ss.acked + 2 ^ ss.ringLog2 → mayEmit s = true → safe s = false →
    dieOn s = true → s.frozen = false → confirmed s e.journal e.decision = true → ss.mgmt = false → tget s.qps ss.qpn = some q →
    q.state = 1 →
    Runs (.resultRingWrite sid) s fun t =>
      tget t.sessions sid = some { ss with written := n } ∧
      (∃ (q' : QPair) (o : RdmaOp), tget t.qps ss.qpn = some q' ∧ q'.ops = q.ops ++ [o] ∧ o.read = false ∧
        o.addr = ss.ringAddr + 64 * (n % 2 ^ ss.ringLog2) ∧ o.rkey = ss.rkey ∧ o.bytes = e.bytes) ∧
      Kept [] s t ∧ t = { s with sessions := t.sessions, qps := t.qps, out := t.out, cbNext := t.cbNext })

/-- Sessions: OPEN makes one with its queue pair and is acknowledged; CLOSE ends it; ACK frees results; a frame whose FRAME_SEQ was
answered is answered again and does nothing else (R566, R570 to R572, R582); queries are answered (R569, R804). -/
def Obligations.SessionsAndQueries : Prop :=
  (∀ (port vM vm : Nat) (h : CtlHdr) (b : OpenBody) (s : State), port < 2 → listening s port h.type = true → h.type = 1 →
    h.magic = 0x4352 → h.status = 0 → h.len ≤ 8192 → h.session = 0 → chooseVersion h.verMaj h.verMin = some (vM, vm) →
    (tokenOk s false b = true → 6 ≤ b.ringLog2 → b.ringLog2 ≤ 20 → b.resume = 0 → mirrors s = false →
      Runs (.openSession port h b) s fun t =>
        t.nextSess = s.nextSess + 1 ∧ OtherSessions s.nextSess s t ∧
        (∃ (ss : Session) (q : QPair), tget t.sessions s.nextSess = some ss ∧ ss.part = b.part ∧ ss.mgmt = false ∧ ss.verMaj = vM ∧
          ss.verMin = vm ∧ ss.ringAddr = b.ringAddr ∧ ss.rkey = b.rkey ∧ ss.nextRes = 1 ∧ ss.acked = 0 ∧ ss.closed = false ∧
          tget t.qps ss.qpn = some q ∧ q.part = b.part ∧ q.state = 1 ∧ q.mtu ∈ [1024, 2048, 4096] ∧
          t.out = s.out ++ leaves s port (Emit.reply port (respHdr t s.nextSess { mkResp 2 0 [s.nextSess, ss.qpn, 1, 0] with seq := 1 })
            { mkResp 2 0 [s.nextSess, ss.qpn, 1, 0] with seq := 1 })) ∧
        Kept [] s t ∧ t.requests = s.requests) ∧
    (tokenOk s false b = false → Runs (.openSession port h b) s fun t =>
      t.out = s.out ++ leaves s port (Emit.reply port (respHdr s 0 (mkResp 6 6 [0])) (mkResp 6 6 [0])) ∧ Kept [] s t ∧
      t = { s with out := t.out, inbox := t.inbox, cbNext := t.cbNext })) ∧
  (∀ (port : Nat) (h : CtlHdr) (s : State) (ss : Session), FreshFrame s port h ss 1 0 →
    Runs (.closeSession port h) s (fun t =>
      Answered port h (mkResp 7 0 []) s t ∧ (∃ x : Session, tget t.sessions h.session = some x ∧ x.closed = true ∧ x.retained = ss.retained) ∧
      OtherSessions h.session s t ∧ (ss.mgmt = false → tget t.qps ss.qpn = none) ∧ Kept [] s t) ∧
    Runs (.ack port h) s (fun t =>
      (∃ x : Session, tget t.sessions h.session = some x ∧ h.frameSeq ∈ x.seen ∧ x.acked = ss.acked ∧ x.closed = false) ∧
      OtherSessions h.session s t ∧ Kept [] s t ∧ t = { s with sessions := t.sessions, inbox := t.inbox })) ∧
  (∀ (port a : Nat) (h : CtlHdr) (s : State) (ss : Session), listening s port h.type = true → tget s.sessions h.session = some ss →
    ss.mgmt = (port == 2) → ss.closed = false → seqFresh ss.seen h.frameSeq = true → h.magic = 0x4352 → h.len ≤ 8192 → h.status = 0 →
    h.verMaj = ss.verMaj → h.verMin = ss.verMin → 1 ≤ ss.verMaj → mirrors s = false → a = min h.ack (ss.nextRes - 1) → ss.acked < a →
    Runs (.ack port h) s fun t =>
      (∃ x : Session, tget t.sessions h.session = some x ∧ x.acked = a ∧ x.retained = ss.retained.filter fun e => decide (a < e.resSeq)) ∧
      OtherSessions h.session s t ∧ t.out = s.out ∧ Kept [] s t) ∧
  (∀ (port : Nat) (h : CtlHdr) (b : SubmitBody) (s : State) (ss : Session) (r : Response), listening s port h.type = true →
    tget s.sessions h.session = some ss → ss.mgmt = (port == 2) → ss.closed = false → seqFresh ss.seen h.frameSeq = false →
    tget ss.answers h.frameSeq = some r → confirmed s s.pair.journalSent s.pair.decisionSent = true →
    (h.ack ≤ ss.acked → Runs (.submit port h b) s fun t =>
      t.out = s.out ++ leaves s port (Emit.reply port (respHdr s h.session r) r) ∧ Kept [] s t ∧
      t = { s with out := t.out, inbox := t.inbox, cbNext := t.cbNext }) ∧
    (mirrors s = false → Runs (.submit port h b) s fun t =>
      t.out = s.out ++ leaves s port (Emit.reply port (respHdr s h.session r) r) ∧ Kept [] s t ∧ OtherSessions h.session s t ∧
      ∃ x : Session, tget t.sessions h.session = some x ∧ x.acked = max ss.acked (min h.ack (ss.nextRes - 1)) ∧ x.nextRes = ss.nextRes ∧
        x.answers = ss.answers)) ∧
  (∀ (port a : Nat) (h : CtlHdr) (s : State) (ss : Session), listening s port h.type = true → tget s.sessions h.session = some ss →
    ss.mgmt = (port == 2) → ss.closed = true → mirrors s = false → a = min h.ack (ss.nextRes - 1) → ss.acked < a →
    Runs (.ack port h) s fun t => OtherSessions h.session s t ∧ Kept [] s t ∧
      ∃ x : Session, tget t.sessions h.session = some x ∧ x.closed = true ∧ x.acked = a ∧
        x.retained = ss.retained.filter fun e => decide (a < e.resSeq)) ∧
  (∀ (port : Nat) (h : CtlHdr) (s : State) (ss : Session), FreshFrame s port h ss 2 0 →
    Runs (.inventory port h) s (fun t => Answered port h (mkResp 0x0D 0 (inventoryWords s)) s t ∧ OtherSessions h.session s t ∧
      Kept [] s t ∧ t = { s with out := t.out, inbox := t.inbox, sessions := t.sessions, cbNext := t.cbNext }) ∧
    (∀ nonce : List Byte, nonce.length = 32 → s.attest.length < 8 → Runs (.attestCert port h nonce) s fun t =>
      t.attest = s.attest ++ [{ part := if ss.mgmt then 255 else ss.part, nonce := nonce, port := port, session := h.session
                                seq := h.frameSeq, buf := none }] ∧ t.out = s.out ∧ OtherSessions h.session s t ∧ Kept [] s t) ∧
    (∀ nonce : List Byte, nonce.length = 32 → 8 ≤ s.attest.length → Runs (.attestCert port h nonce) s fun t =>
      t.attest = s.attest ∧ t.fget A.gnAttestStatus A.gnAttestStatus_overflow = 1 ∧ Answered port h (mkResp 0x0D 1 []) s t ∧
      Kept [A.gnAttestStatus] s t) ∧
    (ss.mgmt = false →
      Runs (.sessionState port h) s (fun t => Answered port h (mkResp 0x0D 0 [ss.nextRes, ss.acked, ss.retained.length,
        (s.requests.filter fun (x : Nat × Request) => x.2.session == h.session && x.2.state != .ended && x.2.state != .expired).length])
          s t ∧ OtherSessions h.session s t ∧ Kept [] s t) ∧
      ∀ off, Runs (.dumpRead port h off) s fun t => Answered port h (mkResp 0x0D 15 []) s t ∧ Kept [] s t) ∧
    (∀ off, ss.mgmt = true → off % 4096 = 0 → s.flag A.dbgDumpStatus A.dbgDumpStatus_valid = true →
      off < s.fget A.dbgDumpStatus A.dbgDumpStatus_kib * 1024 → Runs (.dumpRead port h off) s fun t =>
        Answered port h (Response.mk 0x0D 0 [] ((if s.flag A.dbgDumpStatus A.dbgDumpStatus_headerOnly then s.thimble.dumpHead
          else readBytes s (s.fget A.dbgDumpBase A.dbgDumpBase_base + off)
            (min 4096 (s.fget A.dbgDumpStatus A.dbgDumpStatus_kib * 1024 - off)))) 0) s t ∧ Kept [] s t))

/-- Requests: a SUBMIT of a new CLIENT_TAG makes the next request and is answered with ACCEPT, one of a tag the journal holds gets
its ACCEPT again; CANCEL, PAUSE and RESUME of a request of the session are raised as events; an image's time to live passes as
one (R361, R404, R565, R574 to R577, R588). -/
def Obligations.RequestsAndOperations : Prop :=
  (∀ (port : Nat) (h : CtlHdr) (b : SubmitBody) (s : State) (ss : Session), FreshFrame s port h ss 1 0 → ss.mgmt = false →
    submitVersionOk ss b = true → submitFormOk b = true →
    ((s.requests.find? fun (x : Nat × Request) => x.2.session == h.session && x.2.tag == b.w0 && x.2.state != .expired) = none → journalUsed s + 1 < setting s 11 65536 →
      paired s = false →
      Runs (.submit port h b) s fun t =>
        t.nextReq = s.nextReq + 1 ∧ (∀ k, k ≠ s.nextReq → tget t.requests k = tget s.requests k) ∧
        (∃ r : Request, tget t.requests s.nextReq = some r ∧ r.session = h.session ∧ r.part = ss.part ∧ r.tag = b.w0 ∧ r.body = b ∧
          r.state = .prefill ∧ r.cancelled = false) ∧
        Answered port h (mkResp 5 0 [b.w0, s.nextReq, 1]) s t ∧ OtherSessions h.session s t ∧ t.events = s.events ∧ Kept [] s t) ∧
    (∀ (req : Nat) (r : Request), (s.requests.find? fun (x : Nat × Request) => x.2.session == h.session && x.2.tag == b.w0 && x.2.state != .expired) =
        some (req, r) → r.state ≠ .held → Runs (.submit port h b) s fun t =>
      t.requests = s.requests ∧ t.nextReq = s.nextReq ∧ Answered port h (mkResp 5 0 [r.tag, req, if r.degraded then 1 else 0]) s t ∧
        Kept [] s t) ∧
    ((s.requests.find? fun (x : Nat × Request) => x.2.session == h.session && x.2.tag == b.w0 && x.2.state != .expired) = none → journalFull s = true →
      Runs (.submit port h b) s fun t => t.requests = s.requests ∧ t.nextReq = s.nextReq ∧
        Answered port h (mkResp 6 1 [b.w0]) s t ∧ Kept [] s t)) ∧
  (∀ (port req ttl : Nat) (h : CtlHdr) (s : State) (ss : Session) (r : Request), FreshFrame s port h ss 2 0 → ss.mgmt = false →
    tget s.requests req = some r → r.session = h.session →
    Runs (.cancel port h req) s (fun t => t.clientOps = s.clientOps ++ [ClientOp.mk req 1 0 port h.session h.frameSeq] ∧
      RaisedP 52 0x30 r.part (req + 2 ^ 64) s t ∧ t.requests = s.requests ∧ t.out = s.out ∧ Kept [] s t) ∧
    Runs (.pause port h req ttl) s (fun t => t.clientOps = s.clientOps ++ [ClientOp.mk req 2 ttl port h.session h.frameSeq] ∧
      RaisedP 52 0x30 r.part (req + 2 * 2 ^ 64) s t ∧ t.requests = s.requests ∧ t.out = s.out ∧ Kept [] s t) ∧
    Runs (.resume port h req) s (fun t => t.clientOps = s.clientOps ++ [ClientOp.mk req 3 0 port h.session h.frameSeq] ∧
      RaisedP 52 0x30 r.part (req + 3 * 2 ^ 64) s t ∧ t.requests = s.requests ∧ t.out = s.out ∧ Kept [] s t)) ∧
  (∀ (port req : Nat) (h : CtlHdr) (s : State) (ss : Session), FreshFrame s port h ss 2 0 → ss.mgmt = false →
    tget s.requests req = none →
    Runs (.cancel port h req) s fun t => Answered port h (mkResp 0x0D 5 []) s t ∧ t.clientOps = s.clientOps ∧ t.events = s.events ∧
      Kept [] s t) ∧
  (∀ (req : Nat) (s : State) (im : Image), nextDue s req = some im → im.complete = true →
    im.ttl * 10 ^ 9 ≤ im.age s →
    mayEmit s = true → dieOn s = true → s.frozen = false → s.events.any (fun e => e.type == 0x31 && e.payload == req) = false →
    Runs (.ttlExpiry req) s fun t => RaisedP 52 0x31 im.part req s t ∧ Kept [] s t ∧ t = { s with events := t.events })

/-! ### The Line Port and the timebase -/

/-- The Line Port: a strobe is answered from the verdict table, which it marks, or with the default; one too early is counted; a
module without the lease answers nothing; verdict writes commit for the port's owner; edges enter the trigger FIFO once
filtered (R594 to R612, R636, R696). -/
def Obligations.LinePort : Prop :=
  (∀ (tag edge : Nat) (tv : Bool) (s : State), tag < 65536 → lineOn s = true → mayEmit s = true →
    (∀ e, s.lastEdge = some e → e + 4 ≤ edge) →
    ((s.flag A.lineCtl A.lineCtl_enable && tv && (s.reg (A.lineVerdict tag)).testBit 16 && !safe s) = true →
      Runs (.strobe tag tv edge) s fun t =>
        t.pins.lineQ = fld (s.reg (A.lineVerdict tag)) 15 0 ∧ t.pins.lineAck = true ∧
        (if s.flag A.lineCtl A.lineCtl_clearOnRead then t.flag (A.lineVerdict tag) A.lineVerdict_valid = false
          else t.flag (A.lineVerdict tag) A.lineVerdict_read = true) ∧
        t.fget A.lineStat A.lineStat_reads = satTo 32 (s.fget A.lineStat A.lineStat_reads + 1) ∧
        t.events = s.events ∧ t.lastEdge = some edge ∧ Kept ([A.lineStat, A.lineLast, A.lineVerdict tag] ++ (List.range 8).map lkTx ++ gcntRegs) s t) ∧
    ((s.flag A.lineCtl A.lineCtl_enable && tv && (s.reg (A.lineVerdict tag)).testBit 16 && !safe s) = false →
      Runs (.strobe tag tv edge) s fun t =>
        t.pins.lineQ = s.fget A.lineDefault A.lineDefault_q ∧ t.pins.lineAck = false ∧
        t.fget A.lineStat A.lineStat_misses = satTo 16 (s.fget A.lineStat A.lineStat_misses + 1) ∧
        (s.flag A.lineCtl A.lineCtl_missEvents = false → t.events = s.events) ∧
        (s.flag A.lineCtl A.lineCtl_missEvents = true → (s.events.filter fun e => e.source == 69).length < 1024 →
          RaisedP 69 0x101 (s.fget A.lineCtl A.lineCtl_part) tag s t) ∧
        Kept [A.lineStat, A.lineLast, A.lineTrigStat] s t)) ∧
  (∀ (tag edge e : Nat) (tv : Bool) (s : State), lineOn s = true → s.lastEdge = some e → edge < e + 4 →
    Runs (.strobe tag tv edge) s fun t =>
      t.fget A.lineStat A.lineStat_early = satTo 8 (s.fget A.lineStat A.lineStat_early + 1) ∧ t.pins = s.pins ∧
      t.lastEdge = some edge ∧ t.events = s.events ∧ Kept [A.lineStat] s t) ∧
  (∀ (tag edge : Nat) (tv : Bool) (s : State), lineOn s = true → mayEmit s = false → (∀ e, s.lastEdge = some e → e + 4 ≤ edge) →
    Runs (.strobe tag tv edge) s fun t => t.pins.lineAck = false ∧ t.pins.lineQ = s.fget A.lineDefault A.lineDefault_q ∧
      t.events = s.events ∧ Kept [A.lineStat] s t) ∧
  (∀ (tag : Nat) (s : State), tag < 65536 → lineOn s = true → s.flag A.lineCtl A.lineCtl_tagEvents = true →
    (s.events.filter fun e => e.source == 69).length < 1024 →
    Runs (.tagAnnouncement tag) s fun t => RaisedP 69 0x100 (s.fget A.lineCtl A.lineCtl_part) tag s t ∧ Kept [] s t ∧
      t = { s with events := t.events }) ∧
  (∀ (part tag val : Nat) (s : State), tag < 65536 → dieOn s = true →
    (part = s.fget A.lineCtl A.lineCtl_part → (s.linePend.find? fun p => p.tag == tag) = none →
      Runs (.verdictWrite part tag val) s fun t => t.reg (A.lineVerdict tag) = fld val 16 0 ∧ Kept [A.lineVerdict tag] s t ∧
        t = { s with regs := t.regs, verdictQ := t.verdictQ }) ∧
    (∀ p : PendingRead, part = s.fget A.lineCtl A.lineCtl_part → s.linePend = [p] → p.tag = tag → val.testBit 16 = true →
      Runs (.verdictWrite part tag val) s fun t => t.linePend = [] ∧ Kept [A.lineVerdict tag] s t ∧
        (p.q = fld val 15 0 → if s.flag A.lineCtl A.lineCtl_clearOnRead then t.flag (A.lineVerdict tag) A.lineVerdict_valid = false
          else t.flag (A.lineVerdict tag) A.lineVerdict_read = true) ∧
        (p.q ≠ fld val 15 0 → t.reg (A.lineVerdict tag) = fld val 16 0)) ∧
    (part ≠ s.fget A.lineCtl A.lineCtl_part → Runs (.verdictWrite part tag val) s fun t =>
      (stopping s part = false → tgetD s.tdFree part 0 ≤ s.tb.n →
        t.fget A.loomTagDrop A.loomTagDrop_count = satTo 32 (s.fget A.loomTagDrop A.loomTagDrop_count + 1) ∧
        t.reports = s.reports ++ [(147, 2, 0x10)]) ∧
      (stopping s part = true ∨ s.tb.n < tgetD s.tdFree part 0 →
        t.fget A.gnTeardownDrop A.gnTeardownDrop_count = satTo 32 (s.fget A.gnTeardownDrop A.gnTeardownDrop_count + 1) ∧
        t.reports = s.reports) ∧
      Kept (A.loomTagDrop :: A.gnTeardownDrop :: gcntRegs) s t)) ∧
  (∀ s : State, Runs .pendingEntryDiscard s fun t =>
    t.linePend = s.linePend.filter (fun p => decide (s.tb.n < p.at_ + 100000000)) ∧ Kept [] s t ∧ t = { s with linePend := t.linePend }) ∧
  (∀ (i ts : Nat) (rising : Bool) (s : State), i < 16 → lineOn s = true →
    Runs (.trigEdge i rising ts) s fun t =>
      trigIn t i = { trigIn s i with
        level := rising
        pending := if (s.reg (A.lineTrigCfg i)).testBit 0 && (fld (s.reg (A.lineTrigCfg i)) 2 1).testBit (if rising then 0 else 1)
          then some (rising, ts) else none } ∧
      (∀ k, k ≠ i → trigIn t k = trigIn s k) ∧ Kept [] s t ∧ t = { s with trigs := t.trigs }) ∧
  (∀ (i ts : Nat) (rising : Bool) (s : State), i < 16 → lineOn s = true → (trigIn s i).pending = some (rising, ts) →
    ts + s.fget (A.lineTrigCfg i) A.lineTrigCfg_filterNs ≤ now s →
    ((∀ l, (trigIn s i).last = some l → l + 20 < ts) → s.trigFifo.length < 256 → Runs (.trigAccept i) s fun t =>
      t.trigFifo = s.trigFifo ++ [TrigEntry.mk i rising ts] ∧ (trigIn t i).pending = none ∧ (trigIn t i).last = some ts ∧
      (s.flag (A.lineTrigCfg i) A.lineTrigCfg_eventEn = false → t.events = s.events ∧ Kept [] s t) ∧
      (s.flag (A.lineTrigCfg i) A.lineTrigCfg_eventEn = true → (s.events.filter fun e => e.source == 69).length < 1024 →
        t.events = s.events ++ [Event.mk 69 0x102 (s.fget A.lineCtl A.lineCtl_part) false (coarse s) ts
          (i + (if rising then 16 else 0)) none]) ∧
      Kept [A.lineTrigStat, A.thimbleSleepStatus, A.thimbleSleepCtl] s t) ∧
    ((∃ l, (trigIn s i).last = some l ∧ ts ≤ l + 20) → Runs (.trigAccept i) s fun t =>
      t.trigFifo = s.trigFifo ∧ (trigIn t i).pending = none ∧
      t.fget A.lineTrigStat A.lineTrigStat_glitch = satTo 16 (s.fget A.lineTrigStat A.lineTrigStat_glitch + 1) ∧
      Kept [A.lineTrigStat] s t)) ∧
  (∀ (who : Who) (s : State), (who = .firmware ∨ who = .part (s.fget A.lineCtl A.lineCtl_part)) →
    (∀ (e : TrigEntry) (r : List TrigEntry), s.trigFifo = e :: r → Runs (.lineTrigPop who) s fun t => t.trigFifo = r ∧
      t.busData = leBytes 8 (e.input + (if e.rising then 16 else 0) + 2 ^ 63) ∧ Kept [] s t) ∧
    (s.trigFifo = [] → Runs (.lineTrigPop who) s fun t => t.trigFifo = [] ∧ t.busData = leBytes 8 0 ∧ Kept [] s t))

/-- The timebase: a time set takes force at a multiple of 1,024 ticks with V continued and pending steps applied, an offset result
steps forward or is slewed and moves the state by Table 10-3, never stepping backwards; TB_ADJ gives one, TB_RATE is clamped, three
seconds without one make HOLDOVER (R616, R619 to R621, R634). With no command waiting and the die on, a step is one tick
of the reference clock: N advances by one, no command moves, and memory stays (the model's reading of time between commands, log 1). -/
def Obligations.Timebase : Prop :=
  ((∀ (n : Nat) (s : State), dieOn s = true → n = (s.tb.n / 1024 + 1) * 1024 →
    Runs .timeSetBoundary s fun t =>
      t.tb.n = n ∧ t.tb.n0 = n ∧ now t = (vAt s n / 2 ^ 32 + s.tb.step) % 2 ^ 64 ∧ t.tb.rate = s.tb.newRate.getD s.tb.rate ∧
      t.tb.step = 0 ∧ t.tb.newRate = none ∧ Kept [A.tbRate] s t ∧ 
      t = { s with tb := t.tb, regs := t.regs, tracked := (s.passTicks (n - s.tb.n)).tracked }) ∧
  (∀ (rate shift : Nat) (slew : Int), (slewPart rate shift slew).natAbs ≤ rate / 2 ^ shift) ∧
  (∀ r, 0xA00000000 - 21474836 ≤ clampRate r ∧ clampRate r ≤ 0xA00000000 + 21474836) ∧
  (∀ (o : Int) (s : State), dieOn s = true → paired s = false → s.flag A.tbCtl A.tbCtl_servoEn = false →
    Runs (.offsetResult o) s fun t =>
      t.tb.step = (if (s.fget A.tbCtl A.tbCtl_stepMinNs : Int) ≤ o then s.tb.step + o.toNat else s.tb.step) ∧
      t.tb.slew = (if (s.fget A.tbCtl A.tbCtl_stepMinNs : Int) ≤ o then s.tb.slew else s.tb.slew + o * 2 ^ 32) ∧
      t.tb.lastAt = s.tb.n ∧ now t = now s ∧
      (s.fget A.tbStatus A.tbStatus_state = 0 → t.fget A.tbStatus A.tbStatus_state = 1 ∧ t.fget A.tbStatus A.tbStatus_coarse = 0) ∧
      (s.fget A.tbStatus A.tbStatus_state = 3 → t.fget A.tbStatus A.tbStatus_state = 1) ∧
      (s.fget A.tbStatus A.tbStatus_state = 2 → 1000 ≤ o.natAbs →
        t.fget A.tbStatus A.tbStatus_state = 1 ∧ t.fget A.tbStatus A.tbStatus_synced = 0) ∧
      (s.fget A.tbStatus A.tbStatus_state = 2 → o.natAbs < 1000 → t.fget A.tbStatus A.tbStatus_state = 2) ∧
      (s.fget A.tbStatus A.tbStatus_state = 1 → o.natAbs < 100 → s.tb.good = 7 →
        t.fget A.tbStatus A.tbStatus_state = 2 ∧ t.fget A.tbStatus A.tbStatus_synced = 1) ∧
      (s.fget A.tbStatus A.tbStatus_state = 1 → 100 ≤ o.natAbs → t.fget A.tbStatus A.tbStatus_state = 1 ∧ t.tb.good = 0) ∧
      ((s.fget A.tbCtl A.tbCtl_stepMinNs : Int) ≤ o → s.fget A.tbStatus A.tbStatus_state ≠ 1 → RaisedM 65 0x200 o.toNat s t) ∧
      Kept [A.tbStatus, A.tbLastOffset, A.tbLastSync] s t) ∧
  (∀ (val : Nat) (s : State), dieOn s = true → paired s = false →
    exec (.tbAdj .firmware val) { s with ptpIn := [] } = exec (.offsetResult (ofS64 val)) s ∧ ∃ t, exec (.tbAdj .firmware val) s = .next t) ∧
  (∀ (val : Nat) (s : State), s.flag A.tbCtl A.tbCtl_servoEn = false →
    Runs (.tbRate .firmware val) s fun t => t.tb.newRate = some (clampRate (val % 2 ^ 64)) ∧ t.reg A.tbRate = clampRate (val % 2 ^ 64) ∧
      t.tb.rate = s.tb.rate ∧ Kept [A.tbRate] s t ∧ t = { s with tb := t.tb, regs := t.regs }) ∧
  (∀ s : State, (s.fget A.tbStatus A.tbStatus_state = 1 ∨ s.fget A.tbStatus A.tbStatus_state = 2) →
    s.tb.lastAt + 300000000 ≤ s.tb.n → dieOn s = true →
    Runs .tbHoldover s fun t => t.fget A.tbStatus A.tbStatus_state = 3 ∧ t.fget A.tbStatus A.tbStatus_synced = 0 ∧
      RaisedM 65 0x201 0 s t ∧ t.tb = s.tb ∧ Kept [A.tbStatus] s t) ∧
  (∀ val, FwOnly (fun w => .tbAdj w val)) ∧ (∀ val, FwOnly (fun w => .tbRate w val))) ∧
  (∀ s : State, s.pending = [] → dieOn s = true →
    ∃ t, step s = .next t ∧ t.tb.n = s.tb.n + 1 ∧ t.pending = [] ∧ t.tracked = (s.passTicks 1).tracked ∧ t.events = s.events ∧ t.mem = s.mem ∧
      (s.teardowns = [] → (s.tb.n + 1) % 1024 ≠ 0 →
        now t = (vAt s s.tb.n + effRate s) / 2 ^ 32 % 2 ^ 64 ∨ s.tb.n < s.tb.n0))

/-! ### Warp links -/

/-- A link trains through the states of Table 11-1: enabled and lit it goes to SIGNAL, FEC lock leads to CALIB or past it, IDENT checks
in order and brings it UP with counters at 1, each failure to FAILED with its cause, and losses of light or lock back (R640 to
R647, R657). -/
def Obligations.LinkTraining : Prop :=
  (∀ (j : Nat) (s : State), j < 8 →
    (∀ val : Nat, val.testBit 0 = true → Runs (.linkEnable .firmware j val) s fun t =>
      t.flag (lkCtl j) A.wpLinkCtl_en = true ∧ (linkState s j ≠ 0 → linkState t j = linkState s j) ∧
      Kept [lkCtl j, lkStatus j] s t ∧ t = { s with regs := t.regs, links := t.links }) ∧
    (∀ val : Nat, val.testBit 0 = false → linkState s j ≠ 4 → Runs (.linkEnable .firmware j val) s fun t =>
      t.flag (lkCtl j) A.wpLinkCtl_en = false ∧ linkState t j = 0 ∧ Kept [lkCtl j, lkStatus j] s t) ∧
    (linkState s j = 5 → laserOn s j = true → Runs (.retrain .firmware j) s fun t =>
      linkState t j = (if (link s j).light then 1 else 0) ∧ t.flag (lkCtl j) A.wpLinkCtl_retrain = false ∧
      Kept [lkCtl j, lkStatus j] s t) ∧
    (linkState s j ≠ 5 → RunsRegs (.retrain .firmware j) s [lkCtl j] fun t => t.flag (lkCtl j) A.wpLinkCtl_retrain = true) ∧
    (RunsRegs (.recal .firmware j) s [lkCtl j] fun t => t.flag (lkCtl j) A.wpLinkCtl_recal = true) ∧
    (linkState s j = 0 → laserOn s j = true → Runs (.lightOnBothLanes j true) s fun t => linkState t j = 1 ∧
      (link t j).light = true ∧ (link t j).enteredAt = s.tb.n ∧ Kept [lkCtl j, lkStatus j] s t) ∧
    (dieOn s = true → linkState s j ≠ 0 → Runs (.lightOnBothLanes j false) s fun t => linkState t j = linkState s j ∧
      (link t j).light = false ∧ (link t j).lightLost = true ∧ Kept [lkStatus j] s t) ∧
    (∀ far : Nat, linkState s j = 1 → laserOn s j = true → (link s j).skip = false → Runs (.fecLock j far) s fun t =>
      linkState t j = 2 ∧ t.reg (A.wpFarId (j / 4) (j % 4)) = far % 2 ^ 64 ∧ t.flag (lkStatus j) A.wpLinkStatus_calSkipped = false ∧
      Kept [A.wpFarId (j / 4) (j % 4), lkStatus j] s t) ∧
    (∀ far : Nat, linkState s j = 1 → laserOn s j = true → (link s j).skip = true → (link s j).calSerial = some (far % 2 ^ 64) →
      s.flag (lkCtl j) A.wpLinkCtl_recal = false → Runs (.fecLock j far) s fun t =>
        linkState t j = 3 ∧ Emit.ident j (ownIdent t j) ∈ t.out ∧ t.flag (lkStatus j) A.wpLinkStatus_calSkipped = true ∧
        Kept [A.wpFarId (j / 4) (j % 4), lkStatus j, A.cfgStartSkip] s t) ∧
    (linkState s j = 1 → (link s j).enteredAt + 10000000 ≤ s.tb.n → Runs (.fecLockTimeout j) s fun t =>
      linkState t j = 5 ∧ t.fget (lkStatus j) A.wpLinkStatus_cause = 1 ∧ Kept [lkStatus j] s t) ∧
    (linkState s j = 2 → laserOn s j = true → Runs (.calibDone j true) s (fun t => linkState t j = 3 ∧
        (link t j).calSerial = some ((link s j).farSerial % 2 ^ 64) ∧ Emit.ident j (ownIdent t j) ∈ t.out ∧ t.flag (lkCtl j) A.wpLinkCtl_recal = false ∧
        Kept [lkCtl j, lkStatus j] s t) ∧
      Runs (.calibDone j false) s (fun t => linkState t j = 5 ∧ t.fget (lkStatus j) A.wpLinkStatus_cause = 2 ∧
        Kept [lkStatus j] s t)) ∧
    (linkState s j = 5 → (s.fget (lkStatus j) A.wpLinkStatus_cause = 1 ∨ s.fget (lkStatus j) A.wpLinkStatus_cause = 2) →
      (link s j).enteredAt + 100000000 ≤ s.tb.n → laserOn s j = true → Runs (.failedRetry j) s fun t =>
        linkState t j = (if (link s j).light then 1 else 0) ∧ Kept [lkCtl j, lkStatus j] s t) ∧
    (linkState s j = 4 → Runs (.linkLoss j) s fun t => linkState t j = 1) ∧
    (linkState s j = 4 → s.tracked = [] → paired s = false → Runs (.linkLoss j) s fun t =>
      linkState t j = 1 ∧ (link t j).retry = [] ∧ RaisedM (58 + j / 4) 0x601 j s t ∧ t.reports = s.reports ++ [(126 + j, 2, 0)] ∧
      Kept [lkStatus j] s t)) ∧
  (∀ (j ver : Nat) (r : IdentRec) (tag : List Byte) (s : State), j < 8 → linkState s j = 3 → laserOn s j = true →
    ver = min 0x21 r.verHi →
    (0x20 ≤ ver → r.verLo ≤ ver → r.fabric = s.fabric → tag = keyConfirm s r (ownIdent s j) → roleOk r.manager r.module_ = true →
      roleOk (isManager s) (moduleId s) = true → r.pair = s.flag (lkCtl j) A.wpLinkCtl_pair →
      s.flag (A.wpPlan (j / 4) (j % 4)) A.wpPlan_valid = false →
      Runs (.ident j ⟨r, tag⟩) s fun t =>
        linkState t j = 4 ∧ t.reg (lkTx j) = 1 ∧ t.reg (lkRx j) = 1 ∧
        t.reg (A.wpCrypt (j / 4) (j % 4)) = (max (tgetD (link s j).epochs (link s j).farSerial 0) r.epoch + 1) % 2 ^ 32 ∧
        (link t j).retry = [] ∧ (link t j).farNonce = r.nonce ∧ Emit.confirm j (keyConfirm s (ownIdent s j) r) ∈ t.out ∧
        RaisedM (58 + j / 4) 0x600 (j + ver / 16 * 2 ^ 8 + (ver % 16) * 2 ^ 16) s t ∧ MemKept s t) ∧
    ((ver < 0x20 ∨ ver < r.verLo) → Runs (.ident j ⟨r, tag⟩) s fun t => linkState t j = 5 ∧
      t.fget (lkStatus j) A.wpLinkStatus_cause = 3 ∧ RaisedM (58 + j / 4) 0x601 (j + 3 * 2 ^ 8) s t ∧ MemKept s t) ∧
    (0x20 ≤ ver → r.verLo ≤ ver → r.fabric ≠ s.fabric → Runs (.ident j ⟨r, tag⟩) s fun t => linkState t j = 5 ∧
      t.fget (lkStatus j) A.wpLinkStatus_cause = 4 ∧ RaisedM (58 + j / 4) 0x601 (j + 4 * 2 ^ 8) s t ∧ MemKept s t) ∧
    (0x20 ≤ ver → r.verLo ≤ ver → r.fabric = s.fabric → tag ≠ keyConfirm s r (ownIdent s j) → Runs (.ident j ⟨r, tag⟩) s fun t =>
      linkState t j = 5 ∧ t.fget (lkStatus j) A.wpLinkStatus_cause = 5 ∧ RaisedM (58 + j / 4) 0x601 (j + 5 * 2 ^ 8) s t ∧
      MemKept s t) ∧
    (0x20 ≤ ver → r.verLo ≤ ver → r.fabric = s.fabric → tag = keyConfirm s r (ownIdent s j) →
      (roleOk r.manager r.module_ && roleOk (isManager s) (moduleId s)) = false ∨ r.pair ≠ s.flag (lkCtl j) A.wpLinkCtl_pair →
      Runs (.ident j ⟨r, tag⟩) s fun t => linkState t j = 5 ∧ t.fget (lkStatus j) A.wpLinkStatus_cause = 6 ∧
        RaisedM (58 + j / 4) 0x601 (j + 6 * 2 ^ 8) s t ∧ MemKept s t) ∧
    (0x20 ≤ ver → r.verLo ≤ ver → r.fabric = s.fabric → tag = keyConfirm s r (ownIdent s j) → roleOk r.manager r.module_ = true →
      roleOk (isManager s) (moduleId s) = true → r.pair = s.flag (lkCtl j) A.wpLinkCtl_pair →
      s.flag (A.wpPlan (j / 4) (j % 4)) A.wpPlan_valid = true →
      s.fget (A.wpPlan (j / 4) (j % 4)) A.wpPlan_farModule ≠ r.module_ → s.flag (A.wpCtl 0) A.wpCtl_planEnforce = true →
      Runs (.ident j ⟨r, tag⟩) s fun t => linkState t j = 5 ∧ t.fget (lkStatus j) A.wpLinkStatus_cause = 7 ∧
        t.flag (lkStatus j) A.wpLinkStatus_miswired = true ∧ MemKept s t)) ∧
  (∀ (j rx0 rx1 l0 l1 : Nat) (s : State), j < 8 → 2 ≤ linkState s j → linkState s j ≤ 4 →
    l0 = lossOf (s.fget (A.wpLoss (j / 4) (j % 4)) A.wpLoss_farTx0) (rx0 % 2 ^ 16) →
    l1 = lossOf (s.fget (A.wpLoss (j / 4) (j % 4)) A.wpLoss_farTx1) (rx1 % 2 ^ 16) →
    Runs (.opticsSample j rx0 rx1) s fun t =>
      t.fget (A.wpLoss (j / 4) (j % 4)) A.wpLoss_loss0 = l0 ∧ t.fget (A.wpLoss (j / 4) (j % 4)) A.wpLoss_loss1 = l1 ∧
      t.fget (A.wpOptics (j / 4) (j % 4)) A.wpOptics_rx0 = rx0 % 2 ^ 16 ∧
      (s.fget (lkCtl j) A.wpLinkCtl_lossMax < max l0 l1 → t.flag (lkStatus j) A.wpLinkStatus_lossHigh = true) ∧
      (max l0 l1 + 5 ≤ s.fget (lkCtl j) A.wpLinkCtl_lossMax → t.flag (lkStatus j) A.wpLinkStatus_lossHigh = false) ∧
      Kept [A.wpOptics (j / 4) (j % 4), A.wpLoss (j / 4) (j % 4), lkStatus j] s t) ∧
  (∀ j val, FwOnly (fun w => .linkEnable w j val) ∧ FwOnly (fun w => .retrain w j) ∧ FwOnly (fun w => .recal w j))

/-- Warp frames: the next one of a link is taken, acknowledged and does what its type says at its module; another is refused with NAK;
ACK frees, NAK sends again; after a freeze point a frame does nothing (R653, R654, R872). WSEND, WRECV, BARRIER and WSUBMIT send and take them (R667 to R676). -/
def Obligations.WarpFramesAndCommands : Prop :=
  (∀ (j : Nat) (f : WarpFrame) (s : State), FrameComes s j f → f.dst = moduleId s →
    (∀ l : Landing, s.landings = [l] → l.part = f.part → l.src = f.src → l.chan = f.chan → Runs (.data j f) s fun t =>
      FrameTaken j s t ∧ Kept ([lkRx j] ++ gcntRegs) s t ∧ t.landings =
        [if f.tileEnd then { l with hdr := none, gather := [], granted := l.granted - 1
                                    tiles := l.tiles ++ [tileOf (l.hdr.getD f.info) (l.gather ++ f.payload)] }
         else { l with hdr := some (l.hdr.getD f.info), gather := l.gather ++ f.payload }]) ∧
    (Runs (.credit j f) s fun t => FrameTaken j s t ∧ creditsFor t f.src f.part f.chan = creditsFor s f.src f.part f.chan + 1 ∧
      Kept ([lkRx j] ++ gcntRegs) s t) ∧
    (∀ q a : Nat, q = cmdQueue f → a = s.reg (A.loomSqBase q) + 64 * (s.fget (A.loomSqTail q) A.loomSqTail_tail % 2 ^ sqLog2 s q) → sqFull s q = false →
      Writable s a 64 → Runs (.cmd j f) s fun t =>
        FrameTaken j s t ∧ Stored a (f.payload.take 64) s t ∧ t.fget (A.loomSqTail q) A.loomSqTail_tail =
          (s.fget (A.loomSqTail q) A.loomSqTail_tail + 1) % 2 ^ sqLog2 s q ∧ RegsKept ([lkRx j, A.loomSqTail q, A.thimbleSleepStatus, A.thimbleSleepCtl] ++ gcntRegs) s t) ∧
    (∀ q : Nat, q = cmdQueue f → sqFull s q = true → Idle (.cmd j f) s) ∧
    (∀ a next : Nat, a = fld (s.reg A.wpRcqBase) 47 6 * 64 + 64 * s.fget A.wpRcqTail A.wpRcqTail_tail →
      next = (s.fget A.wpRcqTail A.wpRcqTail_tail + 1) % 2 ^ rcqLog2 s → next ≠ s.fget A.wpRcqHead A.wpRcqHead_head →
      Writable s a 64 → f.payload.length = 32 → Runs (.cpl j f) s fun t =>
        FrameTaken j s t ∧ Stored a (f.payload ++ [BitVec.ofNat 8 f.src, BitVec.ofNat 8 f.chan] ++ List.replicate 30 0) s t ∧
        t.fget A.wpRcqTail A.wpRcqTail_tail = next ∧ RegsKept ([lkRx j, A.wpRcqTail] ++ gcntRegs) s t) ∧
    (∀ (b ts : Nat) (co pace : Bool), b < 65536 → (∀ x ∈ s.barriers, x.id ≠ b) → s.barriers.length < 16 → s.waitArrive = [] →
      Runs (.arrive j f b ts co pace) s fun t => FrameTaken j s t ∧
        t.barriers = s.barriers ++ [Barrier.mk b 0 s.tb.n [Arrival.mk f.src ts co pace]] ∧ Kept ([lkRx j] ++ gcntRegs) s t) ∧
    (∀ (b slot : Nat) (c : Tracked), b < 65536 → arrivedCmds s b = [slot] → s.cmd? slot = some c → c.outs = [] → c.phase = .running →
      c.rerun = false → c.compl = .none →
      Runs (.release j f b false) s (fun t => Reached slot 0 0 t) ∧ Runs (.release j f b true) s (fun t => Reached slot 4 0x1E3 t)) ∧
    (∀ part epoch : Nat, part < 8 → Runs (.partEpoch j f part epoch) s fun t => FrameTaken j s t ∧
      t.fget (A.wpPart 0 part) A.wpPart_epoch = epoch % 2 ^ 32 ∧ tget t.epochAt part = some s.tb.n ∧
      Kept ([lkRx j, A.wpPart 0 part] ++ gcntRegs) s t) ∧
    (∀ e : Nat, e = s.fget (A.wpCrypt (j / 4) (j % 4)) A.wpCrypt_epoch + 1 → safe s = false → Runs (.keyUpdate j f) s fun t =>
      t.reg (lkTx j) = 1 ∧ t.reg (lkRx j) = 1 ∧ t.reg (A.wpCrypt (j / 4) (j % 4)) = e % 2 ^ 32 ∧ (link t j).retry = [] ∧
      RaisedM (58 + j / 4) 0x604 (j + e * 2 ^ 32) s t ∧ Kept ([lkTx j, lkRx j, A.wpCrypt (j / 4) (j % 4)] ++ gcntRegs) s t)) ∧
  (∀ (j : Nat) (f : WarpFrame) (s : State), linkHears s j = true → f.tagOk = true → f.counter ≠ s.reg (lkRx j) →
    (link s j).ctr1 + 1 < 2 ^ 48 →
    Runs (.data j f) s fun t => t.reg (lkRx j) = s.reg (lkRx j) ∧ t.landings = s.landings ∧ (link t j).dropped = true ∧
      (∃ a : WarpFrame, a.info = s.reg (lkRx j) ∧ t.out = s.out ++ [Emit.warp j 8 a]) ∧ Kept gcntRegs s t) ∧
  (∀ (j n part epoch : Nat) (f : WarpFrame) (s : State), s.frozen = true →
    ∀ c ∈ [Instr.data j f, .credit j f, .cmd j f, .cpl j f, .arrive j f part n false false, .release j f part false, .partEpoch j f part epoch, .keyUpdate j f, .warpAck j n,
      .warpNak j n], Idle c s) ∧
  (∀ (j n : Nat) (s : State), linkHears s j = true →
    Runs (.warpAck j n) s (fun t => link t j = { link s j with
        retry := (link s j).retry.filter (fun x => decide (n < x.2.counter)), attempts := 0 } ∧
      Kept [] s t ∧ t = { s with links := t.links }) ∧
    (safe s = true → Idle (.warpNak j n) s) ∧
    (safe s = false → (if (link s j).nakFor = n then (link s j).attempts + 1 else 1) < 8 → Runs (.warpNak j n) s fun t =>
      t.out = s.out ++ ((link s j).retry.filter (fun x => decide (n ≤ x.2.counter))).map (fun x => Emit.warp j x.1 x.2) ∧
      (link t j).retry = (link s j).retry ∧ Kept gcntRegs s t) ∧
    (safe s = false → 8 ≤ (if (link s j).nakFor = n then (link s j).attempts + 1 else 1) → s.tracked = [] → paired s = false →
      Runs (.warpNak j n) s fun t => linkState t j = 1 ∧ (link t j).retry = [] ∧ RaisedM (58 + j / 4) 0x601 j s t)) ∧
  (∀ (id : Nat) (b : Barrier) (s : State), (s.barriers.find? fun b => b.id == id) = some b → s.waitArrive = [] →
    b.first + s.fget A.wpBarrierCtl A.wpBarrierCtl_timeoutUs * 100 ≤ s.tb.n →
    Runs (.barrierTimeout id) s fun t => t.barriers = s.barriers.filter (fun b => b.id != id)) ∧
  (∀ (slot : Nat) (s : State) (t : Tracked), t.work.opened = false →
    (warpCheck s t (opw t.opb 4 5 0) true = none → (runningCmd s slot 0x7C = some t → Runs (.wsend slot) s fun t' =>
        (∃ u : Tracked, t'.cmd? slot = some u ∧ u.work.opened = true) ∧ Kept [] s t') ∧
      (runningCmd s slot 0x7F = some t → Runs (.wsubmit slot) s fun t' =>
        (∃ u : Tracked, t'.cmd? slot = some u ∧ u.work.opened = true) ∧ Kept [] s t')) ∧
    (warpCheck s t (opw t.opb 4 5 0) false = none → runningCmd s slot 0x7D = some t → Runs (.wrecv slot) s fun t' =>
      (∃ u : Tracked, t'.cmd? slot = some u ∧ u.work.opened = true) ∧ Kept [] s t' ∧
      t'.landings = s.landings ++ [{ slot := slot, part := t.part, src := opw t.opb 4 5 0, chan := opw t.opb 4 31 16
                                     slots := opw t.opb 4 37 32 + 1, granted := 0, hdr := none, gather := [], tiles := [] }])) ∧
  (∀ (slot dest j chan : Nat) (s : State) (t : Tracked) (x : Tile), runningCmd s slot 0x7C = some t → t.work.opened = true →
    dest = opw t.opb 4 5 0 → chan = opw t.opb 4 31 16 → t.head? 0 = some x → CanSend s dest j 1 t.part → x.last = false →
    0 < creditsFor s dest t.part chan → 0 < x.payload.length → x.payload.length ≤ 4096 →
    Runs (.wsend slot) s fun t' =>
      (∃ f : WarpFrame, t'.out = s.out ++ [Emit.warp j 1 f] ∧ f.payload = x.payload ∧ f.tileEnd = true ∧ f.info = tileHeader x ∧
        f.dst = dest ∧ f.src = moduleId s ∧ f.part = t.part ∧ f.chan = chan ∧ f.counter = s.reg (lkTx j) ∧
        (link t' j).retry = (link s j).retry ++ [(1, f)]) ∧
      creditsFor t' dest t.part chan = creditsFor s dest t.part chan - 1 ∧ t'.reg (lkTx j) = s.reg (lkTx j) + 1 ∧
      t'.events = s.events ∧ Kept ([lkTx j] ++ gcntRegs) s t') ∧
  (∀ (slot dest j : Nat) (s : State) (t : Tracked) (x : Tile), runningCmd s slot 0x7F = some t → t.work.opened = true →
    dest = opw t.opb 4 5 0 → t.head? 0 = some x → tileRowBytes x = 64 → tileRows x = 1 → CanSend s dest j 1 t.part →
    x.last = false →
    Runs (.wsubmit slot) s fun t' =>
      (∃ f : WarpFrame, t'.out = s.out ++ [Emit.warp j 3 f] ∧ f.payload = rowOf x 0 ∧ f.dst = dest ∧ f.chan = opw t.opb 4 11 8) ∧
      t'.events = s.events ∧ Kept ([lkTx j] ++ gcntRegs) s t') ∧
  (∀ (slot j : Nat) (s : State) (t : Tracked) (l : Landing), runningCmd s slot 0x7D = some t → t.work.opened = true →
    s.landings = [l] → l.slot = slot → CanSend s (opw t.opb 4 5 0) j 1 t.part →
    l.granted + l.tiles.length + outHeld s t < l.slots →
    Runs (.wrecv slot) s fun t' => t'.landings = [{ l with granted := l.granted + 1 }] ∧
      (∃ f : WarpFrame, t'.out = s.out ++ [Emit.warp j 2 f] ∧ f.dst = opw t.opb 4 5 0 ∧ f.chan = opw t.opb 4 31 16 ∧ f.part = t.part) ∧
      Kept ([lkTx j] ++ gcntRegs) s t') ∧
  (∀ (slot : Nat) (s : State) (t : Tracked), runningCmd s slot 0x7E = some t → s.flag (A.wpPart 0 t.part) A.wpPart_en = true →
    (opw t.opb 5 63 0).testBit 0 = true → t.station = 58 →
    (t.work.opened = false → isManager s = true → Runs (.barrier slot) s fun t' =>
      (∃ u : Tracked, t'.cmd? slot = some u ∧ u.work.opened = true) ∧ Kept [] s t') ∧
    (∀ j : Nat, t.work.opened = true → t.work.aux2 ≠ 1 → t.head? 0 = none → t.ins.all (fun b => b.lastIn) = true →
      isManager s = false → CanSend s 0 j 1 8 → Runs (.barrier slot) s fun t' =>
        (∃ u : Tracked, t'.cmd? slot = some u ∧ u.work.aux2 = 1) ∧
        (∃ f : WarpFrame, t'.out = s.out ++ [Emit.warp j 5 f] ∧ f.dst = 0 ∧ fld f.info 15 0 = opw t.opb 4 15 0) ∧ Kept ([lkTx j] ++ gcntRegs) s t'))

/-! ### Active and standby pairs -/

/-- The lease of a pair: LEASE keeps a standby and moves another by Table 12-1, the holder renews with its heartbeat or misses, an
expired lease stops it, a lapsed or released one is taken over at the next epoch, and roles swap in step (R698, R702 to R709, R717
to R719). -/
def Obligations.PairLease : Prop :=
  (∀ (j : Nat) (f : WarpFrame) (r : LeaseRec) (s : State), PairFrame s j f → s.store.starting = none → r.epoch = s.reg A.pairEpoch →
    (pairSt s = 3 → Runs (.lease j f r) s fun t =>
      FrameTaken j s t ∧ pairSt t = 3 ∧ t.pair.partnerUntil = s.tb.n + 200000 ∧ t.pair.noLeaseSince = s.tb.n ∧
      t.pair.releaseAt = (if r.release then some (s.tb.n + 10000) else s.pair.releaseAt) ∧ t.tb.lastAt = s.tb.n ∧ MemKept s t) ∧
    (pairSt s = 1 → r.release = false → Runs (.lease j f r) s fun t =>
      pairSt t = 2 ∧ t.fget A.pairStatus A.pairStatus_joinPhase = 0 ∧ t.pair.partnerUntil = s.tb.n + 200000 ∧ MemKept s t)) ∧
  (∀ (j : Nat) (f : WarpFrame) (r : LeaseRec) (s : State), PairFrame s j f → s.store.starting = none →
    (pairSt s = 4 ∨ pairSt s = 5) →
    (r.epoch < s.reg A.pairEpoch → Runs (.lease j f r) s fun t => FrameTaken j s t ∧ t.pair = s.pair ∧ Kept ([lkRx j] ++ gcntRegs) s t) ∧
    (s.reg A.pairEpoch < r.epoch → Runs (.lease j f r) s fun t => t.reg (lkRx j) = s.reg (lkRx j) + 1 ∧ t.reg A.pairEpoch = r.epoch % 2 ^ 32 ∧
      t.flag A.pairStatus A.pairStatus_leaseHeld = false ∧ t.pair.higher = true ∧ RaisedM 58 0x645 (r.epoch % 2 ^ 32) s t)) ∧
  (∀ (port : Nat) (h : CtlHdr) (b : PairLeaseBody) (s : State), h.type = 0x20 → dieOn s = true → s.frozen = false →
    (port = 2 → s.pair.partnerSerial = some b.serial → b.tag = leaseTag s b.serial h b → s.pair.lastMlease = none → paired s = true →
      s.store.starting = none → pairSt s = 3 → b.epoch = s.reg A.pairEpoch → Runs (.pairLease port h b) s fun t =>
        t.pair.lastMlease = some (b.epoch, h.frameSeq) ∧ t.pair.partnerUntil = s.tb.n + 200000 ∧ pairSt t = 3 ∧ Kept [] s t) ∧
    ((port ≠ 2 ∨ s.pair.partnerSerial ≠ some b.serial ∨ b.tag ≠ leaseTag s b.serial h b) → Runs (.pairLease port h b) s fun t =>
      t.fget A.pairMleaseDrop A.pairMleaseDrop_count = satTo 32 (s.fget A.pairMleaseDrop A.pairMleaseDrop_count + 1) ∧
      t.pair = s.pair ∧ Kept [A.pairMleaseDrop] s t)) ∧
  (∀ s : State, paired s = true → (pairSt s = 4 ∨ pairSt s = 5) → dieOn s = true → s.pair.renewAt ≤ s.tb.n → s.pair.joinAsked = false →
    (safe s = false → s.pair.higher = false → s.pair.heartbeat = true → Runs .leaseRenewal s fun t =>
      t.pair.ownUntil = s.tb.n + 200000 ∧ t.pair.renewAt = s.tb.n + 50000 ∧ t.pair.heartbeat = false ∧
      (∃ b, b.epoch = s.reg A.pairEpoch ∧ b.left = 200000 ∧ b.release = false ∧
        b.tag = leaseTag s (s.pair.partnerSerial.getD 0) (leaseHdr (s.pair.mleaseSeq + 1)) b ∧
        Emit.pairLease (s.pair.mleaseSeq + 1) b ∈ t.out) ∧
      t.events = s.events ∧ MemKept s t) ∧
    (safe s = false → s.pair.higher = false → s.pair.heartbeat = false → Runs .leaseRenewal s fun t =>
      t.pair.ownUntil = s.pair.ownUntil ∧ RaisedM 58 0x642 1 s t ∧
      t.fget A.pairCounts A.pairCounts_renewMiss = satTo 32 (s.fget A.pairCounts A.pairCounts_renewMiss + 1) ∧
      Kept [A.pairCounts] s t)) ∧
  (∀ s : State, paired s = true → (pairSt s = 4 ∨ pairSt s = 5) → s.pair.ownUntil ≤ s.tb.n → Runs .leaseExpiry s fun t =>
    pairSt t = 1 ∧ mayEmit t = false ∧ t.pair.lapsedHere = true ∧ RaisedM 58 0x641 (s.reg A.pairEpoch) s t ∧
    Kept (A.pairStatus :: (List.range 8).map A.gnPartCtl) s t) ∧
  (∀ s : State, paired s = true → pairSt s = 2 → s.pair.partnerUntil ≤ s.tb.n → Runs .leaseLapse s fun t => pairSt t = 1 ∧
    Kept (A.pairStatus :: (List.range 8).map A.gnPartCtl) s t) ∧
  (∀ s : State, paired s = true → pairSt s = 3 → s.pair.partnerUntil + 10000 ≤ s.tb.n →
    s.pair.work = [] → s.pair.held = [] → 
    Runs .leaseLapse s (TookLease (s.reg A.pairEpoch + 1) 5 0 s)) ∧
  (∀ (at_ : Nat) (s : State), paired s = true → pairSt s = 3 → s.pair.releaseAt = some at_ → at_ ≤ s.tb.n →
    s.pair.work = [] → s.pair.held = [] → 
    Runs .releaseTakeover s (TookLease (s.reg A.pairEpoch + 1) 5 2 s)) ∧
  (∀ s : State, paired s = true → pairSt s = 1 → s.store.starting = none → dieOn s = true →
    s.pair.noLeaseSince + 1000000000 ≤ s.tb.n → s.pair.heartbeat = true →
    s.pair.work = [] → s.pair.held = [] → 
    Runs .leaseWaitTimeout s (TookLease (s.reg A.pairEpoch + 1) 5 0 s)) ∧
  (∀ (who : Who) (s : State), Runs (.pairHeartbeat who) s fun t => t.pair.heartbeat = true ∧ Kept [] s t ∧
    t = { s with pair := t.pair }) ∧
  (∀ s : State, (pairSt s = 4 → paired s = true → s.pair.decisionSent ≤ s.pair.decisionDone → Runs (.swapReq .firmware) s fun t =>
      pairSt t = 3 ∧ t.flag A.pairStatus A.pairStatus_leaseHeld = false ∧ t.reg A.pairEpoch = (s.reg A.pairEpoch + 1) % 2 ^ 32 ∧
      t.pair.swapping = false ∧ t.events = s.events ∧ MemKept s t) ∧
    (pairSt s ≠ 4 → RunsRegs (.swapReq .firmware) s [A.pairStatus, A.pairCtl] fun t =>
      t.fget A.pairStatus A.pairStatus_cause = 7 ∧ pairSt t = pairSt s) ∧
    (pairSt s = 4 → paired s = true → s.pair.decisionSent ≤ s.pair.decisionDone → s.reg A.pairSwapAt ≠ 0 →
      s.reg A.pairSwapAt ≤ now s → dieOn s = true → Runs .swapAt s fun t => pairSt t = 3 ∧
        t.reg A.pairSwapAt = (if s.fget A.pairCtl A.pairCtl_swapPeriodH = 0 then s.reg A.pairSwapAt
          else (s.reg A.pairSwapAt + s.fget A.pairCtl A.pairCtl_swapPeriodH * 3600 * 10 ^ 9) % 2 ^ 64))) ∧
  (∀ (j epoch : Nat) (f : WarpFrame) (s : State), PairFrame s j f → pairSt s = 3 → s.reg A.pairEpoch < epoch →
    s.pair.work = [] → s.pair.held = [] → 
    Runs (.swap j f epoch) s (TookLease epoch 4 1 s)) ∧
  FwOnly .swapReq

/-- The records of a pair: the standby writes JOURNAL and applies DECISION, each confirmed, and its steps and teardowns wait for their
records and boundaries; the active begins a step with its DECISION and releases what waited for a
confirmation; packets asked for are sent, and placed, or missed, a joining module writes what is copied, and LINE_READ marks verdicts (R574,
R692 to R694, R696, R699, R700, R715, R812). -/
def Obligations.PairRecords : Prop :=
  (∀ (j num : Nat) (f : WarpFrame) (s : State), PairFrame s j f → safe s = false →
    s.pair.work = [] → s.pair.held = [] → 
    (∀ (req : Nat) (r : Request), pairSt s = 3 → Runs (.journal j f num [.request req r]) s fun t =>
      tget t.requests req = some { r with state := .prefill, journal := 0 } ∧
      t.pair.journalDone = max s.pair.journalDone num ∧ Emit.pair 0x12 [num] ∈ t.out ∧ Kept ([lkRx j, lkTx j] ++ gcntRegs) s t) ∧
    (∀ (part g lag : Nat), pairSt s = 3 → lag ≤ s.fget A.pairLagMax A.pairLagMax_us → lag < 2 ^ 32 →
      Runs (.decision j f num lag [.groupCancel part g]) s fun t =>
        (part, g) ∈ t.cancelled ∧ t.pair.decisionDone = max s.pair.decisionDone num ∧ Emit.pair 0x14 [num] ∈ t.out ∧
        t.fget A.pairLag A.pairLag_lagUs = lag ∧ pairSt t = 3 ∧ Kept ([lkRx j, lkTx j, A.pairLag] ++ gcntRegs) s t) ∧
    (∀ lag : Nat, pairSt s = 3 → s.fget A.pairLagMax A.pairLagMax_us < lag → Runs (.decision j f num lag []) s fun t =>
      pairSt t = 1 ∧ t.fget A.pairStatus A.pairStatus_cause = 3 ∧ RaisedM 58 0x644 3 s t) ∧
    (∀ (req : Nat) (r : Request), pairSt s = 4 → s.requests = [(req, r)] → r.state = .held → r.journal ≤ num → s.heldOut = [] →
      Runs (.journalConfirm j f num) s fun t =>
        t.pair.journalDone = max s.pair.journalDone num ∧ (tget t.requests req).map Request.state = some .prefill ∧
        Kept ([lkRx j, lkTx j] ++ gcntRegs) s t) ∧
    (pairSt s = 4 → s.heldOut = [] → s.pair.swapping = false → Runs (.decisionConfirm j f num) s fun t =>
      t.pair.decisionDone = max s.pair.decisionDone num ∧
      t.pair.decisions = s.pair.decisions.filter (fun d => decide (num < d.1)) ∧ Kept ([lkRx j] ++ gcntRegs) s t) ∧
    (∀ (vd chan : Nat) (qs : List Nat), mayEmit s = true → Runs (.pktFetch j f vd chan qs) s fun t =>
      (∀ q ∈ qs, Emit.pktData vd chan q
        ((s.pair.copies.find? fun c => c.1 == vd && c.2.1 == chan && c.2.2.ext == q).map fun c => c.2.2) ∈ t.out) ∧
      t.pair = s.pair ∧ t.tracked = s.tracked ∧ Kept ([lkRx j, lkTx j] ++ gcntRegs) s t) ∧
    (∀ vd chan q : Nat, pairSt s = 3 → (vd, chan, q) ∈ s.pair.fetching → Runs (.pktData j f vd chan q none) s fun t =>
      pairSt t = 1 ∧ t.fget A.pairStatus A.pairStatus_cause = 6 ∧ RaisedM 58 0x644 6 s t ∧ Kept ([lkRx j, A.pairStatus] ++ gcntRegs) s t) ∧
    (∀ (vd chan q : Nat) (k : Pkt) (c : VChan), pairSt s = 3 → (vd, chan, q) ∈ s.pair.fetching → vchan? s vd chan false = some c →
      c.vd = vd → c.chan = chan → c.encode = false → Runs (.pktData j f vd chan q (some k)) s fun t =>
        (vd, chan, q) ∉ t.pair.fetching ∧ pairSt t = 3 ∧ t.events = s.events ∧ Kept ([lkRx j, A.vdLateDrop vd] ++ gcntRegs) s t ∧
        ∃ c' : VChan, vchan? t vd chan false = some c' ∧
          (s.pair.waiting = [] → c' = { c with pkts := c.pkts ++ [{ k with ext := q }] }) ∧
          (∀ (first : Nat) (seqs : List Nat), s.pair.waiting = [(vd, chan, first, seqs)] →
            (∀ x ∈ seqs, x = q ∨ (c.pkts.any fun k => k.ext == x) = true) → t.pair.waiting = [] ∧ ∃ p : Pic, c'.ready = c.ready ++ [p] ∧
              p.pkts = (c.pkts ++ [{ k with ext := q }]).filter fun k => seqs.contains k.ext)) ∧
    (∀ (a : Nat) (bs : List Byte), pairSt s = 2 → Writable s a bs.length → Runs (.joinData j f (.memory a bs)) s fun t =>
      Stored a bs s t ∧ RegsKept ([lkRx j] ++ gcntRegs) s t) ∧
    (∀ phase digest major : Nat, pairSt s = 2 → phase < 4 → Runs (.joinCtl j f phase digest major) s fun t =>
      t.fget A.pairStatus A.pairStatus_joinPhase = phase ∧ pairSt t = 2 ∧ Kept ([lkRx j, lkTx j, A.pairStatus] ++ gcntRegs) s t) ∧
    (∀ digest major : Nat, pairSt s = 2 → Runs (.joinCtl j f 6 digest major) s fun t =>
      pairSt t = 1 ∧ t.fget A.pairStatus A.pairStatus_cause = 2 ∧ Kept ([lkRx j, A.pairStatus] ++ gcntRegs) s t) ∧
    (∀ digest major : Nat, pairSt s = 2 → channelsReady s = true → Runs (.joinCtl j f 4 digest major) s fun t =>
      pairSt t = 3 ∧ t.pair.copied = true ∧ RaisedM 58 0x643 (s.pair.partnerSerial.getD 0) s t) ∧
    (∀ e : LineReadEntry, mayEmit s = false → e.tag < 65536 →
      ((s.reg (A.lineVerdict e.tag)).testBit 16 = true → fld (s.reg (A.lineVerdict e.tag)) 15 0 = e.q →
        Runs (.lineRead j f [e]) s fun t => (if s.flag A.lineCtl A.lineCtl_clearOnRead
          then t.flag (A.lineVerdict e.tag) A.lineVerdict_valid = false else t.flag (A.lineVerdict e.tag) A.lineVerdict_read = true) ∧
          t.linePend = s.linePend ∧ Kept ([lkRx j, A.lineVerdict e.tag] ++ gcntRegs) s t) ∧
      ((s.reg (A.lineVerdict e.tag)).testBit 16 = false → Runs (.lineRead j f [e]) s fun t =>
        t.linePend = s.linePend ++ [PendingRead.mk e.tag e.q s.tb.n] ∧ Kept ([lkRx j] ++ gcntRegs) s t)) ∧
    (∀ p : Nat, pairSt s = 3 → partValid s p = true → partState s p = 1 →
      (stepBusy s = false → Runs (.journal j f num [.teardown p]) s fun t =>
        partState t p = 2 ∧ t.teardowns = s.teardowns ++ [Teardown.mk p s.tb.n 0] ∧ t.pair.work = []) ∧
      (stepBusy s = true → Runs (.journal j f num [.teardown p]) s fun t =>
        partState t p = 1 ∧ t.teardowns = s.teardowns ∧ t.pair.work = [PairWork.teardown p]))) ∧
  (∀ (j num lag q old : Nat) (f : WarpFrame) (s : State), PairFrame s j f → safe s = false → s.pair.work = [] →
    s.pair.held = [(q, old)] → pairSt s = 3 → lag ≤ s.fget A.pairLagMax A.pairLagMax_us →
    Runs (.decision j f num lag [Outcome2.step]) s fun t => t.pair.held = [] ∧ t.pair.work = [] ∧ pairSt t = 3) ∧
  (∀ (j q tail : Nat) (who : Who) (s : State), paired s = true → pairSt s = 4 → mayUseQueue s who q = true → s.pair.work = [] →
    s.pair.held = [] → s.pair.swapping = false → pairLink s = some j → linkState s j = 4 → safe s = false →
    tail % 2 ^ 16 % 2 ^ sqLog2 s q ≠ s.fget (A.loomSqTail q) A.loomSqTail_tail % 2 ^ sqLog2 s q →
    Runs (.loomSqTail who q tail) s fun t => t.pair.held = [] ∧ t.pair.stepReqs = stepRequests s ∧
      ∃ outs, Outcome2.step ∈ outs ∧ Emit.decision (s.pair.decisionSent + 1) outs ∈ t.out)

/-! ### Power and power states -/

/-- The power manager: caps by lease, fallback and warnings, the cap loop and its excess, phase loops, steps of the operating
point, droop, thermal limits, the trip and the regulator's alert (R725, R728 to R730, R736, R737, R740 to R742, R745, R746, R748 to
R753). -/
def Obligations.PowerManager : Prop :=
  (∀ (w : Nat) (s : State), Runs (.capSet w) s fun t =>
    t.power.leaseUntil = some (s.tb.n + 10 ^ 9) ∧ t.fget A.pmCap A.pmCap_leaseW = w % 65536 ∧ t.flag A.pmStatus A.pmStatus_lease = true ∧
    effCap t ≤ max 210 (w % 65536) ∧ (w % 65536 < 210 → t.flag A.pmStatus A.pmStatus_capFloor = true) ∧
    (∃ l, t.events = s.events ++ Event.mk 63 0x403 0 true (coarse s) (now s) (w % 65536) none :: l) ∧
    Kept [A.pmCap, A.pmStatus, A.pmOp, A.pmCapLag, A.wpStatus 0] s t) ∧
  (∀ (u : Nat) (s : State), s.power.leaseUntil = some u → u ≤ s.tb.n → Runs .capLeaseExpired s fun t =>
    t.power.leaseUntil = none ∧ t.flag A.pmStatus A.pmStatus_lease = false ∧
    effCap t ≤ max 210 (s.fget A.pmCap A.pmCap_fallbackW) ∧
    ∃ l, t.events = s.events ++ Event.mk 63 0x404 0 true (coarse s) (now s) 0 none :: l) ∧
  (∀ (c : Bool) (s : State), let warn (p : Power) : Bool := if c then p.warnCool else p.warnShelf
    let hold (p : Power) : Option Nat := if c then p.holdCool else p.holdShelf
    let f := if c then A.pmStatus_coolantWarn else A.pmStatus_shelfWarn
    (warn s.power = false → Runs (.warnAssert c) s fun t => warn t.power = true ∧ t.flag A.pmStatus f = true ∧
      effCap t ≤ max 210 (s.fget A.pmCap A.pmCap_fallbackW) ∧
      ∃ l, t.events = s.events ++ Event.mk 63 0x405 0 true (coarse s) (now s) (if c then 2 else 1) none :: l) ∧
    (warn s.power = true → Idle (.warnAssert c) s) ∧
    (warn s.power = true → Runs (.warnClear c) s fun t => warn t.power = false ∧ hold t.power = some (s.tb.n + 10 ^ 8) ∧
      effCap t = effCap s ∧ RaisedM 63 0x406 (if c then 2 else 1) s t ∧ Kept [] s t) ∧
    (∀ h, hold s.power = some h → (h ≤ s.tb.n → Runs (.warnHoldExpiry c) s fun t => hold t.power = none ∧
        t.flag A.pmStatus f = false) ∧ (s.tb.n < h → Idle (.warnHoldExpiry c) s))) ∧
  (∀ (pm : Nat) (s : State), pmOn s = true → pm < 65536 → Runs (.capLoop pm) s fun t =>
    t.fget A.pmPower A.pmPower_pmDw = pm ∧
    t.fget A.pmPower A.pmPower_peakDw = max (s.fget A.pmPower A.pmPower_peakDw) pm ∧
    t.fget A.pmCapLag A.pmCapLag_lagW = (pm - 10 * effCap s) / 10 ∧
    t.flag A.pmStatus A.pmStatus_capLag = decide (10 * effCap s < pm) ∧
    (10 * effCap s < pm → s.flag A.pmStatus A.pmStatus_capLag = false → RaisedM 63 0x401 ((pm - 10 * effCap s) / 10) s t) ∧
    (pm ≤ 10 * effCap s → s.flag A.pmStatus A.pmStatus_capLag = true →
      RaisedM 63 0x402 s.power.lagPeak s t) ∧
    (10 * effCap s < pm → t.power.capPoint = if mayStepDown s (opNow s) then opNow s - 1 else min s.power.capPoint (opNow s)) ∧
    Kept [A.pmPower, A.pmStatus, A.pmOp, A.pmCapLag, A.wpStatus 0] s t) ∧
  (∀ (busy : List Nat) (s : State), pmOn s = true →
    s.power.windowAt + max 100 (s.fget A.pmLoopCtl A.pmLoopCtl_windowUs) * 100 ≤ s.tb.n → Runs (.phaseWindow busy) s fun t =>
    ∀ n, n < 5 → let v := s.fget (A.pmPhaseState n) A.pmPhaseState_value
      let v' := t.fget (A.pmPhaseState n) A.pmPhaseState_value
      (phaseHasEngine s n = false → v' = phasePref s n) ∧
      (phaseHasEngine s n = true → s.flag (A.pmPhase n) A.pmPhase_pin = true → v' = phasePref s n) ∧
      (phaseHasEngine s n = true → s.flag (A.pmPhase n) A.pmPhase_pin = false →
        (busy.getD n 0 < s.fget A.pmLoopCtl A.pmLoopCtl_low → v' = max (phaseFloor s n) (v - 1)) ∧
        (s.fget A.pmLoopCtl A.pmLoopCtl_low ≤ busy.getD n 0 → s.fget A.pmLoopCtl A.pmLoopCtl_high ≤ busy.getD n 0 →
          v' = min (phaseCeil s n) (v + 1)) ∧
        (s.fget A.pmLoopCtl A.pmLoopCtl_low ≤ busy.getD n 0 → busy.getD n 0 < s.fget A.pmLoopCtl A.pmLoopCtl_high → v' = v))) ∧
  (∀ (who : Who) (k val : Nat) (s : State), pmOn s = true → k < 4 → Runs (.pmStationPhase who k val) s fun t =>
    t.reg (A.pmStationPhase k) = val % 2 ^ 64 &&& 0x7777777777777777 ∧
    (∀ n, n < 5 → t.fget (A.pmPhaseState n) A.pmPhaseState_stations = (phaseStations t n).length ∧
      t.fget (A.pmPhaseState n) A.pmPhaseState_value = if phaseStations s n = [] ∧ phaseStations t n ≠ [] then phasePref s n
        else s.fget (A.pmPhaseState n) A.pmPhaseState_value) ∧ t.events = s.events ∧ MemKept s t) ∧
  (∀ (k : Nat) (s : State), s.power.stepTo = some k → pmOn s = true →
    (s.power.droopOn = true → Idle .opStepDone s) ∧
    (s.power.droopOn = false → Runs .opStepDone s fun t => opNow t = k % 8 ∧
      RaisedM 63 0x400 (k + s.fget A.pmOp A.pmOp_requested * 256 + s.fget A.pmStatus A.pmStatus_cause * 65536) s t ∧
      Kept [A.pmOp, A.pmStatus, A.wpStatus 0, A.spMaskWait] s t)) ∧
  (∀ (c : Nat) (s : State), pmOn s = true → s.power.droopAt + 100000 ≤ s.tb.n → Runs (.droop c) s fun t =>
    t.power.droopOn = true ∧ t.flag A.pmStatus A.pmStatus_stretching = true ∧ RaisedM 63 0x40A c s t ∧
    t.fget A.pmDroop A.pmDroop_stretched = satTo 32 (s.fget A.pmDroop A.pmDroop_stretched + c) ∧ opNow t = opNow s ∧
    Kept [A.pmDroop, A.pmStatus, A.pmOp, A.wpStatus 0] s t) ∧
  (∀ s : State, Runs .droopClear s fun t => t.power.droopOn = false ∧ t.flag A.pmStatus A.pmStatus_stretching = false ∧
    t.events = s.events ∧ Kept [A.pmStatus, A.pmOp, A.wpStatus 0] s t) ∧
  (∀ (j c : Nat) (s : State), pmOn s = true → j < 256 → c < 256 →
    Runs (.thermalSample j c) s (fun t => t.fget A.pmThermal A.pmThermal_junctionC = j ∧ t.fget A.pmThermal A.pmThermal_coolantC = c ∧
      t.flag A.pmStatus A.pmStatus_coolantHot = decide (45 < c) ∧ opNow t = opNow s ∧
      (j ≤ throttleC s → throttleC s - hystC s ≤ j → t.power.thermal = s.power.thermal ∧
        (45 < c → s.flag A.pmStatus A.pmStatus_coolantHot = false → RaisedM 63 0x40C c s t) ∧ (c ≤ 45 → t.events = s.events)) ∧
      (throttleC s < j → s.power.thermalAt + 100000 ≤ s.tb.n → t.power.thermal = s.power.thermal - 1) ∧
      (j < throttleC s - hystC s → s.power.thermalAt + 100000 ≤ s.tb.n → s.power.thermal ≤ 7 →
        t.power.thermal = min 7 (s.power.thermal + 1)) ∧
      (throttleC s < j → s.power.thermalAt + 100000 ≤ s.tb.n → 0 < s.power.thermal → c ≤ 45 →
        RaisedM 63 0x409 (j + (s.power.thermal - 1) * 256) s t))) ∧
  (∀ s : State, pmOn s = true →
    ((lld s).testBit 0 = true → Runs .thermalTrip s fun t => t.pins.thermTripN = false ∧ dieOn t = false ∧ safe t = true) ∧
    ((lld s).testBit 0 = false → Idle .thermalTrip s) ∧
    ((lld s).testBit 1 = true → Runs .alert s fun t => t.power.alertOn = true ∧ opNow t = 0 ∧ t.flag A.pmStatus A.pmStatus_alert = true ∧
      t.power.stepTo = none ∧ t.fget A.pmAlertCount A.pmAlertCount_count = satTo 32 (s.fget A.pmAlertCount A.pmAlertCount_count + 1) ∧
      (∃ l, t.events = s.events ++ Event.mk 63 0x407 0 true (coarse s) (now s) 0 none :: l) ∧
      Kept [A.pmAlertCount, A.pmStatus, A.pmOp, A.wpStatus 0, A.spMaskWait] s t) ∧
    ((lld s).testBit 1 = false → Runs .alert s fun t => opNow t = opNow s ∧ safe t = true ∧ t.power.alertOn = s.power.alertOn) ∧
    (∀ u, s.power.alertClr = some u → u + 1000000 ≤ s.tb.n → Runs .alertClear s fun t => t.power.alertOn = false ∧
      t.flag A.pmStatus A.pmStatus_alert = false ∧ RaisedM 63 0x408 0 s t ∧ Kept [A.pmStatus, A.pmOp, A.wpStatus 0] s t))

/-- R759: a request for DOZE, WATCH or DORMANT while a condition of Table 14-2 holds changes nothing of the power state, gives RESULT =
REFUSED with the CAUSE of that condition, and raises SLEEP_REFUSED. -/
def Obligations.SleepRefused : Prop :=
  ∀ s : State, dieOn s = true → s.frozen = false → s.thimble.state = .run → s.store.starting = none → s.stopAt = none →
    s.flag A.thimbleSleepCtl A.thimbleSleepCtl_req = false →
    let holds (c : Nat) : Prop := match c with
      | 1 => s.flag A.pairCtl A.pairCtl_en = true
      | 2 => loomIdle s = false ∨ ledgerIdle s = false
      | 3 => s.vchans ≠ []
      | 4 => safe s = true
      | 5 => ∃ e ∈ restoreList s, restorable e.2 = false
      | _ => False
    (∃ c, holds c) → ∀ i ∈ [Instr.dozeRequest .firmware, .watchRequest .firmware, .dormantRequest .firmware],
      ∃ c, holds c ∧ Runs i s fun t => t.thimble = s.thimble ∧ t.fget A.thimbleSleepStatus A.thimbleSleepStatus_result = 2 ∧
        t.fget A.thimbleSleepStatus A.thimbleSleepStatus_cause = c ∧ RaisedM 70 0x502 c s t ∧
        Kept [A.thimbleSleepCtl, A.thimbleSleepStatus] s t ∧ t = { s with regs := t.regs, events := t.events }

/-- The power states: a request that nothing refuses is taken, DOZE is entered and left, WATCH and DORMANT are entered
through tick W0 and the entry window, the wake sources wake, and a wake restores RUN or becomes a COLD start (R758, R760 to R766, R770,
R771, R774 to R784). -/
def Obligations.PowerStates : Prop :=
  (∀ s : State, dieOn s = true → s.frozen = false → s.thimble.state = .run → s.store.starting = none → s.stopAt = none →
    s.flag A.thimbleSleepCtl A.thimbleSleepCtl_req = false →
    (sleepRefusal s = none →
      Runs (.dozeRequest .firmware) s (fun t => t.thimble.state = .dozeWait ∧ t.events = s.events ∧
        t.reg A.thimbleSleepCtl % 4 = 1 ∧ t.flag A.thimbleSleepCtl A.thimbleSleepCtl_req = true ∧ Kept [A.thimbleSleepCtl] s t) ∧
      Runs (.watchRequest .firmware) s (fun t => t.thimble.state = .entering false ∧ RaisedM 70 0x500 3 s t ∧
        t.reg A.thimbleSleepCtl % 4 = 2 ∧ t.flag A.thimbleSleepCtl A.thimbleSleepCtl_req = true ∧ Kept [A.thimbleSleepCtl] s t) ∧
      Runs (.dormantRequest .firmware) s (fun t => t.thimble.state = .entering true ∧ RaisedM 70 0x500 4 s t ∧
        t.reg A.thimbleSleepCtl % 4 = 3 ∧ t.flag A.thimbleSleepCtl A.thimbleSleepCtl_req = true ∧ Kept [A.thimbleSleepCtl] s t))) ∧
  FwOnly .dozeRequest ∧ FwOnly .watchRequest ∧ FwOnly .dormantRequest ∧
  (∀ s : State, s.thimble.state = .dozeWait → s.frozen = false → Runs .waitForInterrupt s fun t => t.thimble.state = .doze ∧
    opNow t = 0 ∧ t.fget A.thimbleSleepStatus A.thimbleSleepStatus_state = 2 ∧
    (∀ n, n < 16 → t.flag (A.lodeStatus n) A.lodeStatus_selfRefresh = true) ∧ MemKept s t) ∧
  (∀ s : State, s.thimble.state = .dozeExit → Runs .dozeExit s fun t => t.thimble.state = .run ∧
    t.fget A.thimbleSleepStatus A.thimbleSleepStatus_state = 0 ∧ t.fget A.thimbleSleepStatus A.thimbleSleepStatus_result = 1 ∧
    (∀ n, n < 16 → t.flag (A.lodeStatus n) A.lodeStatus_selfRefresh = false) ∧ t.events = s.events ∧ MemKept s t) ∧
  (∀ (d : Bool) (s : State), s.thimble.state = .entering d → s.frozen = false →
    (Runs .tickW0 s fun t => t.thimble.state = .window d ∧ t.thimble.w0 = s.thimble.ticks ∧
      t.fget A.thimbleSelvage A.thimbleSelvage_held = 0x3F ∧
      ((∀ e ∈ restoreList s, restorable e.2 = true) → ∀ e ∈ restoreList s, t.reg (A.thimbleRestoreVal e.1) = s.reg e.2)) ∧
    (s.flag A.thimbleWakeCtl A.thimbleWakeCtl_mctpEn = true → Runs .mctpWake s fun t => t.thimble.state = .run ∧
      t.fget A.thimbleSleepStatus A.thimbleSleepStatus_result = 3 ∧
      t.flag A.thimbleSleepCtl A.thimbleSleepCtl_req = false ∧ t.events.map Event.type = s.events.map Event.type ++ [0x503] ∧
      MemKept s t)) ∧
  (∀ (d : Bool) (s : State), s.thimble.state = .window d →
    (s.flag A.thimbleWakeCtl A.thimbleWakeCtl_mctpEn = true → Idle .mctpWake s) ∧
    (s.thimble.ticks < s.thimble.w0 + 6 → Idle .entryWindowEnd s) ∧
    (s.thimble.w0 + 6 ≤ s.thimble.ticks → activePins s 1 s.thimble.pinLast = [] → Runs .entryWindowEnd s fun t =>
      t.thimble.state = (if d then .dormant else .watch) ∧ dieOn t = false ∧
      t.fget A.thimbleSleepStatus A.thimbleSleepStatus_state = (if d then 4 else 3) ∧
      (∀ a, lpddrTop ≤ a → byteAt t a = 0)) ∧
    (s.thimble.w0 + 6 ≤ s.thimble.ticks → activePins s 1 s.thimble.pinLast ≠ [] → Runs .entryWindowEnd s fun t =>
      t.thimble.state = .waking d)) ∧
  (∀ (pins i : Nat) (s : State), s.thimble.state = .watch → i < 8 → (pinCfg s i).testBit 0 = true →
    pins.testBit i = (pinCfg s i).testBit 1 →
    ((pinCfg s i).testBit 2 = false ∧ s.thimble.pinLast.testBit i ≠ (pinCfg s i).testBit 1 ∨
      (pinCfg s i).testBit 2 = true ∧ s.thimble.pinLast.testBit i = (pinCfg s i).testBit 1) →
    Runs (.wakePin pins) s fun t => t.thimble.state = .waking false ∧ t.thimble.pinLast = pins % 256 ∧
      (t.reg A.thimbleSleepStatus).testBit (16 + i) = true ∧ t.fget A.thimbleWakeStatus A.thimbleWakeStatus_level = pins % 256) ∧
  (∀ (pins : Nat) (s : State), s.thimble.state = .run → Runs (.wakePin pins) s fun t => t.thimble.state = .run ∧
    t.thimble.pinLast = pins % 256 ∧ Kept [A.thimbleWakeStatus] s t) ∧
  (∀ (d : Bool) (s : State), s.thimble.state = (if d then .dormant else .watch) →
    (s.flag A.thimbleWakeCtl A.thimbleWakeCtl_mctpEn = true → Runs .mctpWake s fun t => t.thimble.state = .waking d ∧
      (t.reg A.thimbleSleepStatus).testBit 26 = true ∧ Kept [A.thimbleSleepStatus] s t) ∧
    (s.flag A.thimbleWakeCtl A.thimbleWakeCtl_mctpEn = false → Idle .mctpWake s) ∧
    (s.flag A.thimbleWakeCtl A.thimbleWakeCtl_alarmEn = true → s.reg A.thimbleAlarm ≤ now s → Runs .alarm s fun t =>
      t.thimble.state = .waking d ∧ (t.reg A.thimbleSleepStatus).testBit 25 = true ∧ Kept [A.thimbleSleepStatus] s t) ∧
    ((s.flag A.thimbleWakeCtl A.thimbleWakeCtl_alarmEn = false ∨ now s < s.reg A.thimbleAlarm) → Idle .alarm s)) ∧
  (∀ (trig c : Nat) (s : State), s.thimble.state = .watch → trig < 65536 → c < 256 →
    s.thimble.sampleAt + max 1 (s.fget A.thimbleWatchCtl A.thimbleWatchCtl_period) ≤ s.thimble.ticks →
    Runs (.watchSample trig c) s fun t => t.thimble.sampleAt = s.thimble.ticks ∧
      t.fget A.thimbleWatchLast A.thimbleWatchLast_trig = trig ∧ t.fget A.thimbleWatchLast A.thimbleWatchLast_coolantC = c ∧
      (sampleMatches s trig c = false → t.thimble.matches_ = 0 ∧ t.thimble.state = .watch) ∧
      (sampleMatches s trig c = true → t.thimble.matches_ = s.thimble.matches_ + 1 ∧ t.thimble.lastMatch = now s ∧
        t.thimble.state = if max 1 (s.fget A.thimbleWatchCtl A.thimbleWatchCtl_matchCount) ≤ s.thimble.matches_ + 1
          then .waking false else .watch)) ∧
  (∀ (d : Bool) (s : State), s.thimble.state = .waking d → s.store.powered = true → s.power.tripped = false →
    (s.tampered = false → stageState s ≠ 4 → Runs (.wake true) s fun t => t.thimble.state = .run ∧ dieOn t = true ∧
      t.fget A.thimbleSleepStatus A.thimbleSleepStatus_result = 1 ∧ t.store.starting = s.store.starting ∧
      ∃ e ∈ t.events, e.source = 70 ∧ e.type = 0x501 ∧ e.payload % 256 = if d then 4 else 3) ∧
    (Runs (.wake false) s fun t => t.store.starting = some true ∧ t.thimble.state = .run ∧ t.mem = [] ∧
      t.fget A.thimbleSleepStatus A.thimbleSleepStatus_result = 4 ∧ t.fget A.cfgStartStatus A.cfgStartStatus_cause = 7)) ∧
  (∀ (bits : Nat) (s : State), dieOn s = true → s.frozen = false → s.thimble.state = .run →
    Runs (.selvageRelease .firmware bits) s fun t => (∀ i, i < 6 →
      (t.fget A.thimbleSelvage A.thimbleSelvage_held).testBit i =
        ((s.fget A.thimbleSelvage A.thimbleSelvage_held).testBit i && !bits.testBit i)) ∧
      (bits.testBit 0 = true → t.pins.lineClkOn = true) ∧ MemKept s t) ∧
  (∀ bits : Nat, FwOnly fun w => .selvageRelease w bits)

/-! ### Partitions and Garnet -/

/-- Partitions: created or refused by R793, torn down in steps from the stop over the drain to FREE, measured and certified; and the
states of Garnet (R788, R793, R794, R801, R803, R804, R809 to R811, R813, R814; the layout of GN_ATTEST_REQ is the model's, log 75). -/
def Obligations.PartitionsAndGarnet : Prop :=
  (∀ (p val : Nat) (s : State), dieOn s = true → s.frozen = false → p < 8 →
    (val.testBit 0 = true → modeAllows s p (val.testBit 1) = true → exclusive s p = true → partState s p = 0 →
      s.flag (A.memPartKey p) A.memPartKey_valid = true → Runs (.partitionCreate .firmware p val) s fun t =>
        partValid t p = true ∧ partState t p = 1 ∧ confidential t p = val.testBit 1 ∧ (∀ w, w < 4 → t.reg (A.gnMeas p w) = 0) ∧
        Kept (A.gnPartCtl p :: (List.range 4).map (A.gnMeas p)) s t ∧ t = { s with regs := t.regs }) ∧
    (val.testBit 0 = true → (modeAllows s p (val.testBit 1) = false ∨ exclusive s p = false ∨ partState s p ≠ 0 ∨
        s.flag (A.memPartKey p) A.memPartKey_valid = false) →
      RunsRegs (.partitionCreate .firmware p val) s [A.gnPartCfg] fun t => t.flag A.gnPartCfg A.gnPartCfg_err = true) ∧
    (val.testBit 0 = false → partValid s p = true → Idle (.partitionCreate .firmware p val) s) ∧
    (val.testBit 0 = false → partValid s p = false → RunsRegs (.partitionCreate .firmware p val) s [A.gnPartCtl p] fun t =>
      t.flag (A.gnPartCtl p) A.gnPartCtl_confidential = val.testBit 1 ∧ partValid t p = false) ∧
    (partValid s p = true → partState s p = 1 → inStep s = false → Runs (.teardown .firmware p) s fun t =>
      t.teardowns = s.teardowns ++ [Teardown.mk p s.tb.n 0] ∧ partState t p = 2 ∧ t.tracked = s.tracked ∧ t.events = s.events ∧
      (∀ k (q : QPair), tget t.qps k = some q → q.part = p → q.state = 2 ∧ q.ops = []) ∧ Kept [A.gnPartCtl p] s t) ∧
    (partValid s p = true → partState s p = 1 → inStep s = true → s.pair.work = [] →
      (stepBusy s = true → Runs (.teardown .firmware p) s fun t =>
        t = { s with pair := { s.pair with work := [PairWork.teardown p] } }) ∧
      (stepBusy s = false → s.pair.held = [] → Runs (.teardown .firmware p) s fun t =>
        t.teardowns = s.teardowns ++ [Teardown.mk p s.tb.n 0] ∧ partState t p = 2 ∧ t.tracked = s.tracked ∧ t.pair.work = [])) ∧
    (partState s p ≠ 1 → Idle (.teardown .firmware p) s)) ∧
  (∀ (p at_ : Nat) (s : State), p < 8 → dieOn s = true → s.frozen = false →
    (s.teardowns = [Teardown.mk p at_ 1] → at_ + 20000 ≤ s.tb.n → (∀ st, st < 48 → straggling s p st = false) →
      Runs (.stragglerTimeout p) s fun t => t.flag (A.gnPartCtl p) A.gnPartCtl_fencedStragglers = true ∧ seamFlits t p = 0 ∧
        t.tracked = s.tracked ∧ Kept [A.gnPartCtl p] s t) ∧
    (s.teardowns = [Teardown.mk p at_ 1] →
      (drained s p = true ∨ s.flag (A.gnPartCtl p) A.gnPartCtl_fencedStragglers = true) → Runs (.drainDone p) s fun t =>
        t.teardowns = [Teardown.mk p at_ 2] ∧ partState t p = 4 ∧ (∀ u ∈ t.tracked, u.slot ∉ slotsOf s p) ∧
        (∀ n, n < 64 → t.flag (A.memRegionBase n) A.memRegionBase_valid = true →
          t.fget (A.memRegionBase n) A.memRegionBase_owner ≠ p) ∧
        t.flag (A.memPartKey p) A.memPartKey_valid = false ∧
        t.fget (A.wpPart 0 p) A.wpPart_epoch = (s.fget (A.wpPart 0 p) A.wpPart_epoch + 1) % 2 ^ 32) ∧
    (s.teardowns = [Teardown.mk p at_ 2] → Runs (.cleanDone p) s fun t =>
      t.teardowns = [] ∧ partValid t p = false ∧ partState t p = 0 ∧ tget t.tdFree p = some (s.tb.n + 100000) ∧
      (∀ w, w < 4 → t.reg (A.gnMeas p w) = 0) ∧ Kept (A.gnPartCtl p :: (List.range 4).map (A.gnMeas p)) s t) ∧
    (s.teardowns = [] → Idle (.stragglerTimeout p) s ∧ Idle (.drainDone p) s ∧ Idle (.cleanDone p) s)) ∧
  (∀ (val addr : Nat) (s : State), dieOn s = true → s.frozen = false →
    (RunsRegs (.gnMeasExtend .firmware val) s ((List.range 4).map (A.gnMeas (fld val 50 48))) fun t => ∀ w, w < 4 →
      t.reg (A.gnMeas (fld val 50 48) w) =
        leNat (((Config.sha3 (measurement s (fld val 50 48) ++ readBytes s (fld val 47 0) 32)).drop (8 * w)).take 8)) ∧
    (s.attest.length < 8 → Runs (.gnAttestReq .firmware addr) s fun t => Kept [] s t ∧ t = { s with attest := t.attest } ∧
      ∃ r : AttReq, t.attest = s.attest ++ [r] ∧ r.nonce = (readBytes s (addr % 2 ^ 48) 64).take 32 ∧ r.buf.isSome = true) ∧
    (8 ≤ s.attest.length → RunsRegs (.gnAttestReq .firmware addr) s [A.gnAttestStatus] fun t =>
      t.flag A.gnAttestStatus A.gnAttestStatus_overflow = true)) ∧
  (∀ (r : AttReq) (rest : List AttReq) (s : State), s.attest = r :: rest →
    let cert := (Config.certificate (attestSeed s) (certFields s r.part) r.nonce).take 4608
    (s.fget A.gnStatus A.gnStatus_state ≠ 2 → Idle .certIssued s) ∧
    (s.fget A.gnStatus A.gnStatus_state = 2 → dieOn s = true → s.frozen = false →
      (r.buf = none → Runs .certIssued s fun t => t.attest = rest ∧ t.issued = (s.issued + 1) % 2 ^ 32 ∧
        t.fget A.gnAttestStatus A.gnAttestStatus_issued = satTo 32 (s.fget A.gnAttestStatus A.gnAttestStatus_issued + 1) ∧
        (mayEmit s = true → r.port = 2 → paired s = false → ∃ u : Response, u.type = 0x0D ∧ u.status = 0 ∧ u.body = [] ∧
          u.bytes = cert ∧ t.out = s.out ++ leaves s 2 (Emit.reply 2 (respHdr t r.session u) u)) ∧ MemKept s t) ∧
      (∀ a n, r.buf = some (a, n) → Writable s a (cert.take n).length → Runs .certIssued s fun t => t.attest = rest ∧
        t.issued = (s.issued + 1) % 2 ^ 32 ∧ Stored a (cert.take n) s t ∧ RegsKept [A.gnAttestStatus] s t))) ∧
  (∀ s : State, dieOn s = true → s.frozen = false → s.store.starting = none → s.fget A.gnStatus A.gnStatus_state = 2 →
    Runs (.selftest .firmware) s (fun t => t.fget A.gnStatus A.gnStatus_state = 1 ∧
      t.flag A.gnStatus A.gnStatus_approved = false ∧ safe t = true) ∧
    (∀ val, fld val 15 8 = 0x5A → Runs (.zeroise .firmware val) s fun t => t.fget A.gnStatus A.gnStatus_state = 4 ∧
      t.flag A.gnStatus A.gnStatus_approved = false ∧ t.thimble.retOk = false ∧ t.tampered = s.tampered ∧ safe t = true) ∧
    (∀ val, fld val 15 8 ≠ 0x5A → Idle (.zeroise .firmware val) s) ∧
    (∀ src, 1 ≤ src → src ≤ 3 → Runs (.tamper src) s fun t => t.fget A.gnStatus A.gnStatus_state = 4 ∧
      (t.reg A.gnTamper).testBit src = true ∧ t.thimble.retOk = false ∧ t.tampered = s.tampered ∧ safe t = true) ∧
    (∀ test, Runs (.healthTestFail test) s fun t => t.fget A.gnStatus A.gnStatus_state = 3 ∧
      t.fget A.gnStatus A.gnStatus_failTest = test % 9 + 1 ∧ t.flag A.gnStatus A.gnStatus_approved = false ∧ safe t = true)) ∧
  (∀ s : State, Runs (.tamper 0) s fun t => t.tampered = true ∧ t.fget A.gnStatus A.gnStatus_state = 4 ∧
    t.flag A.gnStatus A.gnStatus_tampered = true ∧ (t.reg A.gnTamper).testBit 0 = true ∧ t.thimble.retOk = false) ∧
  (∀ s : State, s.fget A.gnStatus A.gnStatus_state = 1 → dieOn s = true →
    (RunsRegs (.selftestDone none) s [A.gnCtl, A.gnStatus, A.gnSelftest] fun t => t.fget A.gnStatus A.gnStatus_state = 2 ∧
      t.flag A.gnStatus A.gnStatus_approved = !s.flag A.gnStatus A.gnStatus_factoryMode ∧
      t.fget A.gnSelftest A.gnSelftest_pass = 0x1FF) ∧
    (∀ k, k < 9 → Runs (.selftestDone (some k)) s fun t => t.fget A.gnStatus A.gnStatus_state = 3 ∧
      t.fget A.gnStatus A.gnStatus_failTest = k + 1 ∧ t.flag A.gnStatus A.gnStatus_approved = false)) ∧
  (∀ p val : Nat, FwOnly (fun w => .partitionCreate w p val) ∧ FwOnly (fun w => .teardown w p) ∧
    FwOnly (fun w => .gnMeasExtend w val) ∧ FwOnly (fun w => .gnAttestReq w val) ∧ FwOnly (fun w => .zeroise w val)) ∧
  FwOnly .selftest

/-! ### Fault collection and debug -/

/-- The fault collector: a report is latched at its level and answered by the level's reaction, FATAL and the safe-state causes reach
the safe state, UNIT resets end, in-service tests are requested, begun and ended (R807, R817,
R820, R822, R823, R825, R830, R832, R836 to R838, R840). -/
def Obligations.FaultCollector : Prop :=
  (∀ (src cls bits : Nat) (s : State), collectorOn s = true →
    (∀ level, src < 160 → reportLevel s src cls = some level → Runs (.faultReport src cls bits) s fun t =>
      (t.reg (A.fcStatus (src / 64))).testBit (src % 64) = true ∧
      t.fget (A.fcLevel (src / 32)) (2 * (src % 32) + 1, 2 * (src % 32)) =
        max (s.fget (A.fcLevel (src / 32)) (2 * (src % 32) + 1, 2 * (src % 32))) level ∧
      Event.mk 62 0x300 0 true (coarse s) (now s) (src + level * 256 + cls * 1024 + bits % 65536 * 65536) none ∈ t.events ∧
      (level = 0 → t.fget A.fcCount A.fcCount_logged = satTo 32 (s.fget A.fcCount A.fcCount_logged + 1)) ∧
      (level = 0 → cls < 2 → t.tracked = s.tracked ∧ t.pair = s.pair ∧ MemKept s t) ∧ (level = 3 → safe t = true) ∧
      (level = 3 → safe s = false → t.fget A.fcSummary A.fcSummary_safeCause = 1 ∧ t.fget A.fcSummary A.fcSummary_safeSrc = src)) ∧
    (safe s = false → Runs (.faultReport 160 cls bits) s fun t => safe t = true ∧ t.fget A.fcSummary A.fcSummary_safeCause = 2)) ∧
  (∀ (src cls bits : Nat) (s : State), collectorOn s = false → Idle (.faultReport src cls bits) s ∧ Idle .collectorFault s ∧
    Idle (.safeReq .firmware) s) ∧
  (∀ s : State, collectorOn s = true → safe s = false →
    Runs (.safeReq .firmware) s (fun t => safe t = true ∧ t.fget A.fcSummary A.fcSummary_safeCause = 3 ∧
      (heldGroup s 1 = false → t.pins.safeN = false) ∧
      t.fget A.pmOp A.pmOp_granted = 0) ∧
    Runs .collectorFault s (fun t => safe t = true ∧ t.fget A.fcSummary A.fcSummary_safeCause = 2 ∧
      (heldGroup s 1 = false → t.pins.safeN = false))) ∧
  (∀ (val : Nat) (s : State), collectorOn s = true →
    (s.flag A.gnStatus A.gnStatus_factoryMode = false → Idle (.fcInject .firmware val) s) ∧
    (∀ level, s.flag A.gnStatus A.gnStatus_factoryMode = true → fld val 7 0 < 160 →
      reportLevel s (fld val 7 0) (fld val 9 8) = some level → Runs (.fcInject .firmware val) s fun t =>
        (t.reg (A.fcStatus (fld val 7 0 / 64))).testBit (fld val 7 0 % 64) = true ∧ (level = 3 → safe t = true))) ∧
  (∀ (st : Nat) (s : State), s.resets = [UnitReset.mk st false] → Runs (.unitResetDone st) s fun t => t.resets = [] ∧
    (48 ≤ st → RaisedM 62 0x302 st s t ∧ Kept [] s t ∧ t.tracked = s.tracked) ∧
    (st < 48 → (s.reg A.fcRetired).testBit st = false → (t.reg A.loomFenced).testBit st = false ∧
      t.flag (A.ceStatus st) A.ceStatus_fenced = false ∧
      Event.mk 62 0x302 0 true (coarse s) (now s) st none ∈ t.events) ∧
    (st < 48 → (s.reg A.fcRetired).testBit st = true → t.reg A.loomFenced = s.reg A.loomFenced ∧ t.events = s.events)) ∧
  (∀ (st : Nat) (s : State), st < 48 → s.resets = [UnitReset.mk st true] → s.test = none → (s.reg A.fcRetired).testBit st = false →
    Runs (.unitResetDone st) s fun t => t.resets = [] ∧ t.test = some (TestRun.mk st false true s.tb.n false) ∧
      RaisedM 62 0x304 st s t ∧ t.flag A.fcTestStatus A.fcTestStatus_busy = true) ∧
  (∀ s : State, (s.flag A.fcTestCtl A.fcTestCtl_en = false → Idle .testSchedule s) ∧
    (s.flag A.fcTestCtl A.fcTestCtl_en = true → s.test = none → collectorOn s = true → safe s = false → s.testAt ≤ s.tb.n →
      s.thimble.state = .run → s.testNext < 48 → engineOut s s.testNext = false → passOver s s.testNext = false →
      Runs .testSchedule s fun t => t.test = some (TestRun.mk s.testNext false false s.tb.n false) ∧
        (t.reg A.loomTesting).testBit s.testNext = true ∧ t.testNext = (s.testNext + 1) % 48 ∧ t.testAt = s.tb.n + testGap s ∧
        Kept [A.loomTesting] s t)) ∧
  (∀ (u : Nat) (s : State), collectorOn s = true →
    (s.test = none → u < 48 → (s.reg A.loomFenced).testBit u = false → (s.reg A.fcRetired).testBit u = false →
      Runs (.fcTestReq .firmware u) s fun t => t.test = some (TestRun.mk u true false s.tb.n false) ∧
        (t.reg A.loomTesting).testBit u = true ∧ Kept [A.loomTesting] s t) ∧
    ((s.test.isSome = true ∨ 48 ≤ u ∨ (s.reg A.loomFenced).testBit u = true ∨ (s.reg A.fcRetired).testBit u = true) →
      RunsRegs (.fcTestReq .firmware u) s [A.fcTestStatus] fun t => t.flag A.fcTestStatus A.fcTestStatus_refused = true)) ∧
  (∀ (x : TestRun) (s : State), s.test = some x → x.station < 48 → collectorOn s = true →
    (tileOpen s x.station = true → Idle .testStart s) ∧
    (x.started = false → safe s = false → tileOpen s x.station = false → Runs .testStart s fun t =>
      t.test = some { x with started := true, at_ := s.tb.n, failed := false } ∧ t.flag A.fcTestStatus A.fcTestStatus_busy = true ∧
      t.fget A.fcTestStatus A.fcTestStatus_unit = x.station ∧
      Event.mk 62 0x304 0 true (coarse s) (now s) (x.station + if x.requested then 256 else 0) none ∈ t.events) ∧
    (x.started = true → Runs (.testDone true) s fun t => t.test = none ∧ t.flag A.fcTestStatus A.fcTestStatus_busy = false ∧
      t.fget A.fcTestStatus A.fcTestStatus_lastUnit = x.station ∧
      t.fget A.fcTestStatus A.fcTestStatus_lastResult = (if x.failed then 2 else 1) ∧
      (t.reg A.loomTesting).testBit x.station = false ∧ (t.reg A.loomFenced).testBit x.station = x.failed ∧
      (x.failed = true → (t.reg A.fcRetired).testBit x.station = true)) ∧
    (x.started = true → Runs (.testDone false) s fun t => t.test = none ∧
      t.fget A.fcTestStatus A.fcTestStatus_lastResult = 2 ∧ (t.reg A.fcRetired).testBit x.station = true ∧
      (t.reg A.loomFenced).testBit x.station = true ∧
      Event.mk 62 0x303 0 true (coarse s) (now s) (x.station + 256) none ∈ t.events)) ∧
  (∀ k val : Nat, FwOnly (fun w => .fcTestReq w k) ∧ FwOnly (fun w => .fcInject w val) ∧ FwOnly (fun w => .fcStatus w k val)) ∧
  FwOnly .safeReq

/-- R843: a bit of FC_STATUS_k written 1 is cleared with its source's level, and a report that comes with the clear, after it, sets both
again. -/
def Obligations.FaultStatusCleared : Prop :=
  (∀ (k val : Nat) (s : State), k < 4 → Runs (.fcStatus .firmware k val) s fun t =>
    (∀ i, i < 64 → (t.reg (A.fcStatus k)).testBit i = ((s.reg (A.fcStatus k)).testBit i && !val.testBit i)) ∧
    (∀ i, i < 64 → let n := 64 * k + i
      t.fget (A.fcLevel (n / 32)) (2 * (n % 32) + 1, 2 * (n % 32)) = if (s.reg (A.fcStatus k)).testBit i && val.testBit i then 0
        else s.fget (A.fcLevel (n / 32)) (2 * (n % 32) + 1, 2 * (n % 32))) ∧
    t.events = s.events ∧ Kept [A.fcStatus k, A.fcLevel (2 * k), A.fcLevel (2 * k + 1), A.fcSummary] s t) ∧
  (∀ (src cls bits val level : Nat) (s t : State), src < 160 → collectorOn s = true → reportLevel s src cls = some level →
    exec (.fcStatus .firmware (src / 64) val) s = .next t → val.testBit (src % 64) = true →
    (s.reg (A.fcStatus (src / 64))).testBit (src % 64) = true → Runs (.faultReport src cls bits) t fun u =>
      (u.reg (A.fcStatus (src / 64))).testBit (src % 64) = true ∧
      u.fget (A.fcLevel (src / 32)) (2 * (src % 32) + 1, 2 * (src % 32)) = level)

/-- Counters, trace, watchdogs and the hang dump: a block is cleared by its owner, samples are counted, MARKER and the drain move
records, a kick restarts a watchdog, its warning and expiry report, and a dump stops the die at its tick and is written (R656, R845,
R847, R849, R854 to R856, R862, R863, R866 to R869, R871, R873 to R877; the places of a dump's sections and fields are the model's,
log 76). -/
def Obligations.DebugBlocks : Prop :=
  (∀ (who : Who) (st : Nat) (s : State), ftOn s = true →
    (ownsBlock s who st = true → RunsRegs (.clear who st) s ((List.range 8).map (A.dbgCnt st)) fun t =>
      ∀ i, i < 8 → t.reg (A.dbgCnt st i) = 0) ∧
    (ownsBlock s who st = false → Idle (.clear who st) s)) ∧
  (∀ s : State, ftOn s = true → (s.flag A.dbgSmpCtl A.dbgSmpCtl_en = false → Idle .sampleTick s) ∧
    (s.flag A.dbgSmpCtl A.dbgSmpCtl_en = true → vAt s (s.tb.n - 1) / 2 ^ 32 / smpInterval s < now s / smpInterval s →
      s.smpLast ≠ now s / smpInterval s → Runs .sampleTick s fun t => t.smpLast = now s / smpInterval s ∧
        t.smpCount = s.smpCount + 1 ∧
        ((∀ st, st < 61 → s.flag (A.dbgCntCtl st) A.dbgCntCtl_sampleEn = false) → Kept [] s t))) ∧
  (∀ (st p base size tail : Nat) (s : State), blockPart s st = some p → s.flag (A.dbgCntCtl st) A.dbgCntCtl_sampleEn = true →
    confidential s p = false → smpRing s p = (base, size) → base ≠ 0 → tail = s.fget (A.dbgRingTail p) A.dbgRingTail_smp →
    (tail + 1) % size ≠ s.fget (A.dbgRingHead p) A.dbgRingHead_smp % size → Writable s (base + 128 * tail) 128 →
    Stored (base + 128 * tail) (sampleBytes s st p) s (s.sampleBlock st) ∧
      (s.sampleBlock st).fget (A.dbgRingTail p) A.dbgRingTail_smp = (tail + 1) % size ∧
      RegsKept [A.dbgRingTail p] s (s.sampleBlock st)) ∧
  (∀ (who : Who) (st p val : Nat) (s : State), blockPart s st = some p → ownsBlock s who st = true → ftOn s = true →
    s.flag (A.dbgTrcCtl st) A.dbgTrcCtl_en = true → confidential s p = false → tgetD s.trcDropped st 0 = 0 →
    (tgetD s.traces st []).length < 191 → Runs (.dbgTrcMark who st val) s fun t =>
      tgetD t.traces st [] = tgetD s.traces st [] ++
        [TraceRec.mk p (now s) (11 + p * 2 ^ 8 + (if coarse s then 2 ^ 11 else 0) + st * 2 ^ 13) 0 (val % 2 ^ 64)] ∧
      t.traceHold = s.traceHold ∧ Kept [] s t) ∧
  (∀ (st base size tail : Nat) (r : TraceRec) (l : List TraceRec) (s : State), st ≤ 60 → ftOn s = true → tget s.traces st = some (r :: l) →
    trcRoom s r.part = true → trcRing s r.part = (base, size) → tail = s.fget (A.dbgRingTail r.part) A.dbgRingTail_trc →
    Writable s (base + 32 * tail) 32 → Runs (.traceDrain st 1) s fun t => tgetD t.traces st [] = l ∧
      Stored (base + 32 * tail) (leBytes 8 r.w0 ++ leBytes 8 r.w1 ++ leBytes 8 r.w2 ++ leBytes 8 r.w3) s t ∧
      t.fget (A.dbgRingTail r.part) A.dbgRingTail_trc = (tail + 1) % size ∧ RegsKept [A.dbgRingTail r.part] s t) ∧
  (∀ (w p : Nat) (s : State), w < 4 → ftOn s = true →
    (w ≠ 1 → Runs (.dbgWdKick .firmware w) s fun t => wdFrom t w = s.tb.n ∧ (∀ k, k ≠ w → wdFrom t k = wdFrom s k) ∧
      t = { s with wdStart := t.wdStart }) ∧
    Idle (.dbgWdKick .firmware 1) s ∧ (w ≠ 1 → Idle (.dbgWdKick (.part p) w) s) ∧
    (p < 8 → (s.fget (A.dbgWdCtl 1) A.dbgWdCtl_kickMask).testBit p = true →
      ((∀ q ∈ notKicked s, q = p) → Runs (.dbgWdKick (.part p) 1) s fun t => wdFrom t 1 = s.tb.n ∧ t.wdKicked = [] ∧ Kept [] s t) ∧
      ((∃ q ∈ notKicked s, q ≠ p) → Runs (.dbgWdKick (.part p) 1) s fun t => p ∈ t.wdKicked ∧ t.wdStart = s.wdStart ∧
        Kept [] s t))) ∧
  (∀ (w : Nat) (s : State), wdRuns s w = true → tget s.wdMark w = none →
    (s.fget (A.dbgWdCtl w) A.dbgWdCtl_warnMs ≠ 0 → wdFrom s w + s.fget (A.dbgWdCtl w) A.dbgWdCtl_warnMs * 100000 ≤ s.tb.n →
      Runs (.wdWarn w) s fun t => (t.reg A.dbgWdStatus).testBit (4 + w) = true ∧ RaisedM 62 0x308 w s t ∧
        Emit.wdIrq w ∈ t.out ∧ wdFrom t w = wdFrom s w ∧ Kept [A.dbgWdStatus] s t) ∧
    (s.tb.n ≤ wdFrom s w + max 1 (s.fget (A.dbgWdCtl w) A.dbgWdCtl_timeoutMs) * 100000 → Idle (.watchdogExpiry w) s) ∧
    (wdFrom s w + max 1 (s.fget (A.dbgWdCtl w) A.dbgWdCtl_timeoutMs) * 100000 < s.tb.n → s.store.trial = false →
      Runs (.watchdogExpiry w) s fun t => (t.reg A.dbgWdStatus).testBit w = true ∧
        (t.reg (A.fcStatus 2)).testBit (28 + w) = true ∧
        (reportLevel s (156 + w) 0 = some 0 → wdFrom t w = s.tb.n) ∧ (reportLevel s (156 + w) 0 = some 3 → safe t = true))) ∧
  (∀ s : State, ftOn s = true → safe s = false → s.stopAt = none →
    Runs (.dumpReq .firmware) s (fun t => safe t = true ∧ t.stopAt = some (s.tb.n + 200) ∧
      t.fget A.dbgDumpStatus A.dbgDumpStatus_trigger = 2) ∧
    Runs .dump s (fun t => safe t = true ∧ t.stopAt = some (s.tb.n + 200) ∧
      t.fget A.dbgDumpStatus A.dbgDumpStatus_trigger = 3)) ∧
  (∀ s : State, ftOn s = false → Idle .dump s) ∧ FwOnly .dumpReq ∧
  (∀ (n : Nat) (s : State), s.stopAt = some n → (s.tb.n < n → Idle .stopTick s) ∧
    (n ≤ s.tb.n → Runs .stopTick s fun t => t.frozen = true ∧ t.stopAt = none ∧ Kept [A.dbgDumpStatus] s t ∧
      ((s.flag A.dbgDumpStatus A.dbgDumpStatus_valid && !s.flag A.dbgDumpCtl A.dbgDumpCtl_overwrite) = true →
        t.flag A.dbgDumpStatus A.dbgDumpStatus_skipped = true) ∧
      ((s.flag A.dbgDumpStatus A.dbgDumpStatus_valid && !s.flag A.dbgDumpCtl A.dbgDumpCtl_overwrite) = false →
        t.flag A.dbgDumpStatus A.dbgDumpStatus_busy = true))) ∧
  (∀ (bytes : Nat) (s : State), (s.flag A.dbgDumpStatus A.dbgDumpStatus_busy = false → Idle (.dumpDone bytes) s) ∧
    (s.flag A.dbgDumpStatus A.dbgDumpStatus_busy = true → s.flag A.dbgDumpCtl A.dbgDumpCtl_autoWarm = false →
      ∀ sram, sram = s.flag A.dbgDumpCtl A.dbgDumpCtl_dumpSram →
      (headerOnly s = true → Runs (.dumpDone bytes) s fun t =>
        t.flag A.dbgDumpStatus A.dbgDumpStatus_valid = true ∧ t.flag A.dbgDumpStatus A.dbgDumpStatus_headerOnly = true ∧
        t.fget A.dbgDumpStatus A.dbgDumpStatus_kib = 4 ∧ t.flag A.dbgDumpStatus A.dbgDumpStatus_busy = false ∧
        t.thimble = { s.thimble with dumpHead := (List.range 4096).map (dumpByteAt s sram 4096) } ∧ t.tracked = s.tracked ∧
        t.events = s.events ∧ Kept [A.dbgDumpStatus] s t) ∧
      (headerOnly s = false → ∀ base n, base = s.fget A.dbgDumpBase A.dbgDumpBase_base →
        n = min bytes (s.fget A.dbgDumpSize A.dbgDumpSize_mib * 2 ^ 20) → Writable s base n → Runs (.dumpDone bytes) s fun t =>
        t.flag A.dbgDumpStatus A.dbgDumpStatus_valid = true ∧ t.flag A.dbgDumpStatus A.dbgDumpStatus_busy = false ∧
        t.flag A.dbgDumpStatus A.dbgDumpStatus_truncated = decide (s.fget A.dbgDumpSize A.dbgDumpSize_mib * 2 ^ 20 < bytes) ∧
        t.fget A.dbgDumpStatus A.dbgDumpStatus_kib = n / 1024 ∧
        Stored base ((List.range n).map (dumpByteAt s sram n)) s t ∧ RegsKept [A.dbgDumpStatus] s t)))

/-! ### Starts and registers -/

/-- Starts: what a WARM and a COLD start lose and keep, each cause in CFG_START_STATUS, requests while one runs, an activation that copies
the staged image and boots it on trial, or rejects it, the trial and its end, the completion, the store's reads, and power (R434, R435, R767, R882 to R885, R887, R888, R894, R904, R906, R907, R918, R919, R925; which
areas make a device fail is the model's, log 102). -/
def Obligations.Starts : Prop :=
  (∀ s : State, s.store.starting = none → s.flag A.dbgDumpStatus A.dbgDumpStatus_busy = false → s.power.tripped = false →
    s.store.powered = true → s.thimble.retOk = true → s.thimble.srOk = true →
    let warm (cause : Nat) (t : State) : Prop := t.store.starting = some false ∧
      t.fget A.cfgStartStatus A.cfgStartStatus_cause = cause ∧ t.flag A.cfgStartStatus A.cfgStartStatus_kind = true ∧
      t.flag A.cfgStartStatus A.cfgStartStatus_ready = false ∧ t.store.startCount = (s.store.startCount + 1) % 2 ^ 32 ∧
      t.tracked = [] ∧ t.events = [] ∧ t.sessions = s.sessions ∧ t.requests = s.requests ∧ t.thimble.state = .run ∧
      (MemInv s → ∀ a, byteAt t a = if a < lpddrTop then byteAt s a else 0)
    let cold (cause : Nat) (t : State) : Prop := t.store.starting = some true ∧
      t.fget A.cfgStartStatus A.cfgStartStatus_cause = cause ∧ t.flag A.cfgStartStatus A.cfgStartStatus_kind = false ∧
      t.flag A.cfgStartStatus A.cfgStartStatus_ready = false ∧ t.store.startCount = (s.store.startCount + 1) % 2 ^ 32 ∧
      t.tracked = [] ∧ t.events = [] ∧ t.sessions = [] ∧ t.requests = [] ∧ t.mem = [] ∧ t.reg A.fcRetired = 0 ∧ now t = 0 ∧
      t.thimble.state = .run
    (dieOn s = true → s.frozen = false → ∀ areas,
      Runs (.warmReq ⟨.firmware, areas⟩) s (warm 3) ∧ Runs (.coldReq ⟨.firmware, areas⟩) s (cold 2)) ∧
    Runs (.reset false) s (warm 6) ∧ Runs (.reset true) s (cold 6) ∧
    (activationDue s = true → dieOn s = true → s.frozen = false → s.stopAt = none → s.keysOk = true → s.store.mark = 0 →
      manufactureReads s s.store.coldAct = true → Runs .activation s fun t =>
        (if s.store.coldAct = true then cold 5 t else warm 5 t) ∧ t.reg A.cfgActivateAt = 0 ∧ t.store.staging = s.store.staging ∧
        ((stagedImage s).valid = true → areaReads s 7 = true → t.store.mark = 1 ∧ t.store.trial = true ∧ t.store.noImage = false ∧
          t.flag A.cfgStartStatus A.cfgStartStatus_trial = true ∧ stageState t = 4) ∧
        ((stagedImage s).valid = false ∨ areaReads s 7 = false → stageState t = 5 ∧
          t.flag A.cfgStartStatus A.cfgStartStatus_stageRejected = true)) ∧
    (s.store.trial = true → s.store.trialAt + 12000000000 ≤ s.tb.n → dieOn s = true → Runs .trialTimeout s (warm 9))) ∧
  (∀ s : State, s.store.starting = none → s.flag A.dbgDumpStatus A.dbgDumpStatus_busy = false → s.power.tripped = false →
    s.store.powered = true → s.thimble.retOk = false → Runs (.reset false) s fun t => t.store.starting = some true ∧
      t.fget A.cfgStartStatus A.cfgStartStatus_cause = 8 ∧ t.mem = []) ∧
  (∀ s : State, (s.store.starting.isSome = true ∨ s.flag A.dbgDumpStatus A.dbgDumpStatus_busy = true) →
    (∀ areas, Idle (.warmReq ⟨.firmware, areas⟩) s ∧ Idle (.coldReq ⟨.firmware, areas⟩) s) ∧ Idle (.reset true) s ∧ Idle (.reset false) s ∧
    Idle .activation s ∧ Idle .trialTimeout s) ∧
  (∀ s : State, (activationDue s = false → Idle .activation s) ∧ (s.store.trial = false → Idle .trialTimeout s) ∧
    (s.store.starting = none → Idle .startComplete s)) ∧
  (∀ s : State, dieOn s = true → s.frozen = false →
    (s.store.trial = true → Runs (.confirm .firmware) s fun t => t.store.trial = false ∧
      t.flag A.cfgStartStatus A.cfgStartStatus_trial = false ∧ Kept [A.cfgStartStatus] s t) ∧
    (s.store.trial = false → Idle (.confirm .firmware) s)) ∧
  (∀ areas, FwOnly (fun w => .warmReq ⟨w, areas⟩) ∧ FwOnly (fun w => .coldReq ⟨w, areas⟩)) ∧ FwOnly .confirm ∧
  (∀ (c : Bool) (s : State), s.store.starting = some c →
    (s.store.noImage = true → Runs .startComplete s fun t =>
      t = State.freeDue { s with store := { s.store with starting := none } }) ∧
    (s.store.noImage = false → s.fget A.gnStatus A.gnStatus_state ≠ 2 → Runs .startComplete s fun t => t.store.starting = none ∧
      t.flag A.cfgStartStatus A.cfgStartStatus_ready = s.flag A.cfgStartStatus A.cfgStartStatus_ready) ∧
    (s.store.noImage = false → s.fget A.gnStatus A.gnStatus_state = 2 → Runs .startComplete s fun t => t.store.starting = none ∧
      t.flag A.cfgStartStatus A.cfgStartStatus_ready = true ∧ t.thimble.retOk = true ∧
      (∀ n, n < 16 → t.flag (A.lodeStatus n) A.lodeStatus_ready = true) ∧
      (safe s = false → heldGroup s 1 = false → t.pins.safeN = true) ∧
      (c = true → ∃ f, ∀ k, k < 16 → t.fget (A.memSlot k) A.memSlot_epoch = Config.random (f + k) % 2 ^ 32))) ∧
  (∀ s : State, Runs .powerOnReset s fun t => t.store.powered = true ∧ t.store.starting = some true ∧
    t.fget A.cfgStartStatus A.cfgStartStatus_cause = 1 ∧ t.mem = [] ∧ t.tracked = [] ∧ now t = 0 ∧ t.power.tripped = false ∧
    t.thimble.state = .run ∧ t.pins.safeN = false ∧ (3 < Config.storeFails 0 s.free → t.store.noImage = true ∧
      t.flag A.cfgStoreErr A.cfgStoreErr_dev0Fail = true)) ∧
  (∀ s : State, Runs .vin54Loss s fun t => t.store.powered = false ∧ dieOn t = false ∧ t.mem = s.mem ∧ t.thimble = s.thimble ∧
    t.pins = { s.pins with thermTripN := true, faultN := true, safeN := true })

/-- The staging of an image and of settings on a management session: DATA programs a block once, VERIFY, ACTIVATE, CANCEL and
DISCARD move the staging area through its states, STATUS reports them, another session is refused, and the erase ends (R896 to
R901, R904, R905, R908, R912). -/
def Obligations.ImageUpdate : Prop :=
  (∀ (port : Nat) (h : CtlHdr) (s : State) (ss : Session), FreshFrame s port h ss 1 0 → ss.mgmt = true →
    let op (c : FwBody → Instr) (b : FwBody) (st : Nat) (P : State → Prop) : Prop := Runs (c b) s fun t =>
      Answered port h (mkResp 0x0D st []) s t ∧ t.fget A.cfgStageStatus A.cfgStageStatus_result = st ∧ P t ∧
      OtherSessions h.session s t ∧ Kept [A.cfgStageStatus, A.cfgStageImage, A.cfgActivateAt] s t
    let same (t : State) : Prop := stageState t = stageState s ∧ t.store = s.store
    (∀ b : FwBody, b.fails = false → blockStatus s b = 0 → forSettings b = false → (stageState s = 0 ∨ stageState s = 1) →
      (tget s.store.staging (b.offset / 4096) = none → op (.fwData port h) b 0 fun t =>
        tget t.store.staging (b.offset / 4096) = some b.data ∧ (stageState t = 1 ∨ stageState t = 2)) ∧
      (tget s.store.staging (b.offset / 4096) = some b.data → op (.fwData port h) b 0 same) ∧
      (∀ old, tget s.store.staging (b.offset / 4096) = some old → old ≠ b.data → op (.fwData port h) b 18 same)) ∧
    (∀ b : FwBody, forSettings b = false → stageState s ≠ 0 → stageState s ≠ 1 → op (.fwData port h) b 16 same) ∧
    (∀ b : FwBody, b.fails = true → blockStatus s b = 0 → forSettings b = false → (stageState s = 0 ∨ stageState s = 1) →
      tget s.store.staging (b.offset / 4096) = none → Runs (.fwData port h b) s fun t => t.store.staging = s.store.staging ∧
        t.fget A.cfgStageStatus A.cfgStageStatus_result = 22 ∧ (t.reg (A.fcStatus 2)).testBit 27 = true) ∧
    (∀ b : FwBody, b.fails = false → blockStatus s b = 0 → forSettings b = true → tget s.store.settings (b.offset / 4096) = none →
      op (.fwData port h) b 0 fun t => tget t.store.settings (b.offset / 4096) = some b.data ∧ t.store.staging = s.store.staging) ∧
    (∀ b : FwBody, b.len = 0 → forSettings b = false →
      (stageState s = 2 → op (.fwVerify port h) b (imageStatus s (stageBytes s.store.staging)) fun t =>
        stageState t = (if imageStatus s (stageBytes s.store.staging) = 0 then 3 else 5) ∧ t.store = s.store) ∧
      ((stageState s = 0 ∨ stageState s = 1) → op (.fwVerify port h) b 19 same) ∧
      ((stageState s = 1 ∨ stageState s = 2 ∨ stageState s = 3) → op (.fwDiscard port h) b 0 fun t => stageState t = 5) ∧
      ((stageState s = 0 ∨ stageState s = 4 ∨ stageState s = 5) → op (.fwDiscard port h) b 16 same)) ∧
    (∀ b : FwBody, b.fails = false → b.len = 0 → forSettings b = true → targetDone s true = true →
      op (.fwVerify port h) b (if (settingsOf (stageBytes s.store.settings)).isSome then 0 else 24) fun t =>
        t.store.settings = [] ∧ t.store.inForce = s.store.inForce ∧ ∀ r, settingsOf (stageBytes s.store.settings) = some r →
          (if s.fget A.cfgSettingsStatus A.cfgSettingsStatus_slot = 0 then t.store.slotB = some r ∧ t.store.slotA = s.store.slotA
            else t.store.slotA = some r ∧ t.store.slotB = s.store.slotB)) ∧
    (∀ b : FwBody, b.len = 0 →
      (stageState s ≠ 3 → op (.fwActivate port h) b 16 same) ∧
      (stageState s = 3 → b.time < now s + 10 ^ 9 → op (.fwActivate port h) b 23 same) ∧
      (stageState s = 3 → now s + 10 ^ 9 ≤ b.time → s.fget A.tbStatus A.tbStatus_state ≠ 0 →
        (b.flags.testBit 1 = true ∨ (stagedHdr s).map (fun x => fld x.version 31 24) = some (imageMajor s)) →
        op (.fwActivate port h) b 0 fun t => stageState t = 4 ∧ t.reg A.cfgActivateAt = b.time % 2 ^ 64 ∧
          t.store.coldAct = b.flags.testBit 1) ∧
      (stageState s = 4 → op (.fwCancel port h) b 0 fun t => stageState t = 3 ∧ t.reg A.cfgActivateAt = 0) ∧
      (stageState s ≠ 4 → op (.fwCancel port h) b 16 same)) ∧
    (∀ b : FwBody, Runs (.fwStatus port h b) s fun t =>
      Answered port h (mkResp 0x0D 0 [0, 0, s.reg A.cfgStageStatus]) s t ∧ t.store = s.store ∧ Kept [] s t)) ∧
  (∀ (port : Nat) (h : CtlHdr) (s : State) (ss : Session) (b : FwBody), FreshFrame s port h ss 1 0 → ss.mgmt = false →
    ∀ c ∈ [Instr.fwData port h b, .fwVerify port h b, .fwActivate port h b, .fwCancel port h b, .fwDiscard port h b,
      .fwStatus port h b], Runs c s fun t => Answered port h (mkResp 0x0D 15 []) s t ∧ t.store = s.store ∧ Kept [] s t) ∧
  (∀ s : State, (stageState s ≠ 5 → ∀ ok, Idle (.eraseDone ok) s) ∧
    (stageState s = 5 → dieOn s = true →
      (Runs (.eraseDone true) s fun t => t.store.staging = [] ∧ stageState t = 0 ∧ t.reg A.cfgStageImage = 0 ∧
        Kept [A.cfgStageStatus, A.cfgStageImage] s t) ∧
      (Runs (.eraseDone false) s fun t => stageState t = 5 ∧ t.store.staging = s.store.staging ∧
        (t.reg (A.fcStatus 2)).testBit 27 = true)))

/-- Registers: a write takes the access codes of the fields, for who may write; commands with a register of their own act as the
write of it; a read returns the value and clears RC fields; and the events that change registers alone: port links, gate control
lists, clock gating, images (R27, R28, R404, R591, R757, R772; the second clause is the model's, log 79). -/
def Obligations.RegisterAccess : Prop :=
  (∀ (who : Who) (a val : Nat) (d : RegDef) (ij : Nat × Nat) (s : State), ftOn s = true → mayWrite s who a = true →
    findReg (homeAddr a) = some (d, ij) → ownWriteA who a (val % 2 ^ 64) s = none → ownWriteB who a (val % 2 ^ 64) s = none →
    ownWriteC who a (val % 2 ^ 64) s = none → writeOpen s a = true → commandBits a = 0 → winOf a ≠ 62 →
    a ∉ [A.pmCap, A.gnPartCfg, A.nxQbvBase 0, A.nxQbvBase 1] → (d.base ≠ A.nxFlow 0 0 ∨ d.rw = 0) →
    Runs (.registerWrite who a val) s fun t =>
      (∀ i, i < 64 → (t.reg a).testBit i =
        ((s.reg a).testBit i && !d.rw.testBit i && !d.wo.testBit i && !(val.testBit i && d.w1c.testBit i) ||
          val.testBit i && (d.rw.testBit i || d.w1s.testBit i || d.wo.testBit i))) ∧
      RegsKept [homeAddr a] s t ∧ t = { s with regs := t.regs, pins := t.pins } ∧
      (a ≠ A.lineDefault ∨ (mayEmit s = true ∧ safe s = false) → t.pins = s.pins)) ∧
  (∀ (who : Who) (val : Nat) (s : State), ftOn s = true →
    exec (.registerWrite who A.tbAdj val) s = exec (.tbAdj who (val % 2 ^ 64)) s ∧
    exec (.registerWrite who A.loomAbort val) s = exec (.loomAbort who (val % 2 ^ 64)) s ∧
    (∀ k, k < 4 → exec (.registerWrite who (A.pmStationPhase k) val) s = exec (.pmStationPhase who k (val % 2 ^ 64)) s ∧
      exec (.registerWrite who (A.fcStatus k) val) s = exec (.fcStatus who k (val % 2 ^ 64)) s)) ∧
  (∀ (who : Who) (a val : Nat) (s : State), (ftOn s = false → Idle (.registerWrite who a val) s ∧ Idle (.rcRead who a) s) ∧
    (ownWriteA who a (val % 2 ^ 64) s = none → ownWriteB who a (val % 2 ^ 64) s = none → ownWriteC who a (val % 2 ^ 64) s = none →
      (mayWrite s who a = false ∨ findReg (homeAddr a) = none) → Idle (.registerWrite who a val) s)) ∧
  (∀ (who : Who) (a : Nat) (d : RegDef) (ij : Nat × Nat) (s : State), ftOn s = true → a ≠ A.lineTrigPop →
    findReg (homeAddr a) = some (d, ij) →
    (mayRead s who a = true → hiddenReg s who a = false → Runs (.rcRead who a) s fun t =>
      t.busData = leBytes 8 (liveReg s a - (liveReg s a &&& d.wo)) ∧ t.busErr = false ∧
      (∀ i, i < 64 → (t.reg a).testBit i = if d.rc.testBit i then (regReset (homeAddr a)).testBit i else (s.reg a).testBit i) ∧
      RegsKept [homeAddr a] s t ∧ t = { s with regs := t.regs, busData := t.busData, busErr := t.busErr }) ∧
    (mayRead s who a = false → Runs (.rcRead who a) s fun t => t.busData = leBytes 8 0 ∧ Kept [] s t ∧
      t = { s with busData := t.busData, busErr := t.busErr })) ∧
  (∀ (n : Nat) (up : Bool) (s : State), n < 3 → ftOn s = true → RunsRegs (.portLinkUp n up) s [portBase n + 0x10] fun t =>
    t.flag (portBase n + 0x10) A.nxStatus_linkUp = up) ∧
  (∀ (n : Nat) (s : State), n < 2 → ftOn s = true → s.flag (A.nxQbvCtl n) A.nxQbvCtl_pending = true →
    (s.reg (A.nxQbvBase n) ≤ now s → RunsRegs (.gateControlListLoad n) s [A.nxQbvCtl n] fun t =>
      t.flag (A.nxQbvCtl n) A.nxQbvCtl_pending = false) ∧
    (now s < s.reg (A.nxQbvBase n) → Idle (.gateControlListLoad n) s)) ∧
  (∀ (st : Nat) (s : State), st < 48 → ftOn s = true → s.gated.contains st = false →
    (∀ u ∈ s.tracked, u.place.map Prod.fst ≠ some st) →
    (tgetD s.busyAt st 0 + gateTicks s ≤ s.tb.n → Runs (.clockGating st) s fun t => t = { s with gated := s.gated ++ [st] }) ∧
    (s.tb.n < tgetD s.busyAt st 0 + gateTicks s → Idle (.clockGating st) s)) ∧
  (∀ (req : Nat) (im : Image) (s : State), tget s.images req = some im →
    ((im.complete = true ∨ s.coldQ.head? ≠ some { req := req, resume := false, ready := true }) → Idle (.imageComplete req) s) ∧
    (im.complete = false → ftOn s = true → s.fget A.gnStatus A.gnStatus_state = 2 →
      s.coldQ = [{ req := req, resume := false, ready := true }] → s.duePauses = [] → s.pair.work = [] → s.pair.held = [] →
      Runs (.imageComplete req) s fun t =>
        tget t.images req = some { im with complete := true, doneAt := now s, aged := 0 } ∧ t.coldBytes = s.coldBytes + im.bytes ∧
        (∀ k, k ≠ req → tget t.images k = tget s.images k) ∧ t.coldQ = [] ∧
        (∀ r, tget s.requests req = some r → (tget t.requests req).map Request.state =
          some (if r.state = .decode then .paused else r.state)) ∧
        (im.entry ≠ [] → tget t.samp (fld (leNat (im.entry.take 8)) 13 0) = some { SampSeq.empty with owner := some im.part }) ∧
        ((im.words = [] ∨ ∀ r, seqRec s (fld (leNat (im.entry.take 8)) 13 0) = some r → r.owner ≠ im.part) →
          t = { s with images := t.images, coldBytes := t.coldBytes, coldQ := t.coldQ, samp := t.samp, requests := t.requests })))

/-! ### The whole machine -/

/-- The state after reset: a COLD start runs with nothing waiting, tracked, open or raised, every register reads the value of its
table, the module is at OP0 in RUN and not in the safe state, V is 0, and on-die memory reads zero; the invariants hold there (R434,
R767, R882, R888 and the register tables; that the start has begun and what it chose is the model's, log 1 and 73). -/
def Obligations.ResetState : Prop :=
  State.reset.pending = [] ∧ State.reset.tracked = [] ∧ State.reset.events = [] ∧ State.reset.sessions = [] ∧ State.reset.vchans = [] ∧
  State.reset.requests = [] ∧ State.reset.out = [] ∧ State.reset.store.starting = some true ∧ State.reset.thimble.state = .run ∧
  (∀ a, State.reset.reg a = regReset (homeAddr a)) ∧ now State.reset = 0 ∧ opNow State.reset = 0 ∧ safe State.reset = false ∧
  effCap State.reset = 260 ∧ lld State.reset = 3 ∧ throttleC State.reset = 100 ∧ State.reset.eaNext = 0 ∧
  (∀ a, lpddrTop ≤ a → byteAt State.reset a = 0) ∧ MemInv State.reset ∧ ∀ x ∈ State.reset.facets, LanesOk x.2

/-- Every step keeps the invariants: memory in its canonical form, and 256 lanes in each vector and predicate register of every unit
(R188, R189). -/
def Obligations.StepKeepsTheInvariants : Prop :=
  ∀ s t : State, MemInv s → (∀ x ∈ s.facets, LanesOk x.2) → step s = .next t → MemInv t ∧ ∀ x ∈ t.facets, LanesOk x.2

/-- Every command has an effect in every state but for the one stop, firmware's access to an address that Table 7-1 does not give the
module (log 17); and what no command changes: the commands that wait behind it, the module's serial number and its fabric; a
breach of the enclosure is never undone (R813, Table 15-6). -/
def Obligations.WhatNoCommandChanges : Prop :=
  ∀ (c : Instr) (s : State),
    (¬ Stops c s → Runs c s fun t =>
      t.pending = s.pending ∧ t.serial = s.serial ∧ t.fabric = s.fabric ∧ (s.tampered = true → t.tampered = true)) ∧
    (Stops c s → ∃ a, exec c s = .fault (.noSuchAddress a))
end

