-- ==== Sys2Proof/Laws/State.lean ====
section
/-! SUPPORT. Each plain update of the state changes one field: one lemma for each other field, true by definition, and one for
the field changed. -/

namespace Sys2Proof.Machine

open Sys2Proof

variable (s : State)

/-! `State.setReg` -/

@[simp] theorem State.setReg_pending (a v : Nat) : (s.setReg a v).pending = s.pending := rfl
@[simp] theorem State.setReg_serial (a v : Nat) : (s.setReg a v).serial = s.serial := rfl
@[simp] theorem State.setReg_fabric (a v : Nat) : (s.setReg a v).fabric = s.fabric := rfl
@[simp] theorem State.setReg_mem (a v : Nat) : (s.setReg a v).mem = s.mem := rfl
@[simp] theorem State.setReg_keyTag (a v : Nat) : (s.setReg a v).keyTag = s.keyTag := rfl
@[simp] theorem State.setReg_badLines (a v : Nat) : (s.setReg a v).badLines = s.badLines := rfl
@[simp] theorem State.setReg_pprRows (a v : Nat) : (s.setReg a v).pprRows = s.pprRows := rfl
@[simp] theorem State.setReg_clearing (a v : Nat) : (s.setReg a v).clearing = s.clearing := rfl
@[simp] theorem State.setReg_memWaits (a v : Nat) : (s.setReg a v).memWaits = s.memWaits := rfl
@[simp] theorem State.setReg_scrubAt (a v : Nat) : (s.setReg a v).scrubAt = s.scrubAt := rfl
@[simp] theorem State.setReg_busData (a v : Nat) : (s.setReg a v).busData = s.busData := rfl
@[simp] theorem State.setReg_busErr (a v : Nat) : (s.setReg a v).busErr = s.busErr := rfl
@[simp] theorem State.setReg_free (a v : Nat) : (s.setReg a v).free = s.free := rfl
@[simp] theorem State.setReg_tb (a v : Nat) : (s.setReg a v).tb = s.tb := rfl
@[simp] theorem State.setReg_events (a v : Nat) : (s.setReg a v).events = s.events := rfl
@[simp] theorem State.setReg_eaNext (a v : Nat) : (s.setReg a v).eaNext = s.eaNext := rfl
@[simp] theorem State.setReg_eaLast (a v : Nat) : (s.setReg a v).eaLast = s.eaLast := rfl
@[simp] theorem State.setReg_tracked (a v : Nat) : (s.setReg a v).tracked = s.tracked := rfl
@[simp] theorem State.setReg_recQ (a v : Nat) : (s.setReg a v).recQ = s.recQ := rfl
@[simp] theorem State.setReg_traceHold (a v : Nat) : (s.setReg a v).traceHold = s.traceHold := rfl
@[simp] theorem State.setReg_nextSlot (a v : Nat) : (s.setReg a v).nextSlot = s.nextSlot := rfl
@[simp] theorem State.setReg_chans (a v : Nat) : (s.setReg a v).chans = s.chans := rfl
@[simp] theorem State.setReg_lingering (a v : Nat) : (s.setReg a v).lingering = s.lingering := rfl
@[simp] theorem State.setReg_settling (a v : Nat) : (s.setReg a v).settling = s.settling := rfl
@[simp] theorem State.setReg_queues (a v : Nat) : (s.setReg a v).queues = s.queues := rfl
@[simp] theorem State.setReg_wrrAt (a v : Nat) : (s.setReg a v).wrrAt = s.wrrAt := rfl
@[simp] theorem State.setReg_mapCe (a v : Nat) : (s.setReg a v).mapCe = s.mapCe := rfl
@[simp] theorem State.setReg_mapDe (a v : Nat) : (s.setReg a v).mapDe = s.mapDe := rfl
@[simp] theorem State.setReg_abort (a v : Nat) : (s.setReg a v).abort = s.abort := rfl
@[simp] theorem State.setReg_tasks (a v : Nat) : (s.setReg a v).tasks = s.tasks := rfl
@[simp] theorem State.setReg_nextTask (a v : Nat) : (s.setReg a v).nextTask = s.nextTask := rfl
@[simp] theorem State.setReg_facets (a v : Nat) : (s.setReg a v).facets = s.facets := rfl
@[simp] theorem State.setReg_facetBank (a v : Nat) : (s.setReg a v).facetBank = s.facetBank := rfl
@[simp] theorem State.setReg_bobbin (a v : Nat) : (s.setReg a v).bobbin = s.bobbin := rfl
@[simp] theorem State.setReg_flushes (a v : Nat) : (s.setReg a v).flushes = s.flushes := rfl
@[simp] theorem State.setReg_poolWaits (a v : Nat) : (s.setReg a v).poolWaits = s.poolWaits := rfl
@[simp] theorem State.setReg_seqUsed (a v : Nat) : (s.setReg a v).seqUsed = s.seqUsed := rfl
@[simp] theorem State.setReg_classInit (a v : Nat) : (s.setReg a v).classInit = s.classInit := rfl
@[simp] theorem State.setReg_retired (a v : Nat) : (s.setReg a v).retired = s.retired := rfl
@[simp] theorem State.setReg_samp (a v : Nat) : (s.setReg a v).samp = s.samp := rfl
@[simp] theorem State.setReg_cancels (a v : Nat) : (s.setReg a v).cancels = s.cancels := rfl
@[simp] theorem State.setReg_cancelled (a v : Nat) : (s.setReg a v).cancelled = s.cancelled := rfl
@[simp] theorem State.setReg_cancelDue (a v : Nat) : (s.setReg a v).cancelDue = s.cancelDue := rfl
@[simp] theorem State.setReg_requests (a v : Nat) : (s.setReg a v).requests = s.requests := rfl
@[simp] theorem State.setReg_nextReq (a v : Nat) : (s.setReg a v).nextReq = s.nextReq := rfl
@[simp] theorem State.setReg_clientOps (a v : Nat) : (s.setReg a v).clientOps = s.clientOps := rfl
@[simp] theorem State.setReg_duePauses (a v : Nat) : (s.setReg a v).duePauses = s.duePauses := rfl
@[simp] theorem State.setReg_images (a v : Nat) : (s.setReg a v).images = s.images := rfl
@[simp] theorem State.setReg_oldImages (a v : Nat) : (s.setReg a v).oldImages = s.oldImages := rfl
@[simp] theorem State.setReg_coldQ (a v : Nat) : (s.setReg a v).coldQ = s.coldQ := rfl
@[simp] theorem State.setReg_resuming (a v : Nat) : (s.setReg a v).resuming = s.resuming := rfl
@[simp] theorem State.setReg_restoring (a v : Nat) : (s.setReg a v).restoring = s.restoring := rfl
@[simp] theorem State.setReg_coldGen (a v : Nat) : (s.setReg a v).coldGen = s.coldGen := rfl
@[simp] theorem State.setReg_coldBytes (a v : Nat) : (s.setReg a v).coldBytes = s.coldBytes := rfl
@[simp] theorem State.setReg_vchans (a v : Nat) : (s.setReg a v).vchans = s.vchans := rfl
@[simp] theorem State.setReg_shuttles (a v : Nat) : (s.setReg a v).shuttles = s.shuttles := rfl
@[simp] theorem State.setReg_cbSeen (a v : Nat) : (s.setReg a v).cbSeen = s.cbSeen := rfl
@[simp] theorem State.setReg_cbNext (a v : Nat) : (s.setReg a v).cbNext = s.cbNext := rfl
@[simp] theorem State.setReg_meters (a v : Nat) : (s.setReg a v).meters = s.meters := rfl
@[simp] theorem State.setReg_qps (a v : Nat) : (s.setReg a v).qps = s.qps := rfl
@[simp] theorem State.setReg_sessions (a v : Nat) : (s.setReg a v).sessions = s.sessions := rfl
@[simp] theorem State.setReg_nextSess (a v : Nat) : (s.setReg a v).nextSess = s.nextSess := rfl
@[simp] theorem State.setReg_reasm (a v : Nat) : (s.setReg a v).reasm = s.reasm := rfl
@[simp] theorem State.setReg_inbox (a v : Nat) : (s.setReg a v).inbox = s.inbox := rfl
@[simp] theorem State.setReg_rdmaIn (a v : Nat) : (s.setReg a v).rdmaIn = s.rdmaIn := rfl
@[simp] theorem State.setReg_cnpIn (a v : Nat) : (s.setReg a v).cnpIn = s.cnpIn := rfl
@[simp] theorem State.setReg_ptpIn (a v : Nat) : (s.setReg a v).ptpIn = s.ptpIn := rfl
@[simp] theorem State.setReg_links (a v : Nat) : (s.setReg a v).links = s.links := rfl
@[simp] theorem State.setReg_landings (a v : Nat) : (s.setReg a v).landings = s.landings := rfl
@[simp] theorem State.setReg_txCredits (a v : Nat) : (s.setReg a v).txCredits = s.txCredits := rfl
@[simp] theorem State.setReg_epochAt (a v : Nat) : (s.setReg a v).epochAt = s.epochAt := rfl
@[simp] theorem State.setReg_barriers (a v : Nat) : (s.setReg a v).barriers = s.barriers := rfl
@[simp] theorem State.setReg_waitArrive (a v : Nat) : (s.setReg a v).waitArrive = s.waitArrive := rfl
@[simp] theorem State.setReg_pair (a v : Nat) : (s.setReg a v).pair = s.pair := rfl
@[simp] theorem State.setReg_heldOut (a v : Nat) : (s.setReg a v).heldOut = s.heldOut := rfl
@[simp] theorem State.setReg_out (a v : Nat) : (s.setReg a v).out = s.out := rfl
@[simp] theorem State.setReg_trigs (a v : Nat) : (s.setReg a v).trigs = s.trigs := rfl
@[simp] theorem State.setReg_trigFifo (a v : Nat) : (s.setReg a v).trigFifo = s.trigFifo := rfl
@[simp] theorem State.setReg_lastEdge (a v : Nat) : (s.setReg a v).lastEdge = s.lastEdge := rfl
@[simp] theorem State.setReg_verdictQ (a v : Nat) : (s.setReg a v).verdictQ = s.verdictQ := rfl
@[simp] theorem State.setReg_linePend (a v : Nat) : (s.setReg a v).linePend = s.linePend := rfl
@[simp] theorem State.setReg_pins (a v : Nat) : (s.setReg a v).pins = s.pins := rfl
@[simp] theorem State.setReg_power (a v : Nat) : (s.setReg a v).power = s.power := rfl
@[simp] theorem State.setReg_gated (a v : Nat) : (s.setReg a v).gated = s.gated := rfl
@[simp] theorem State.setReg_thimble (a v : Nat) : (s.setReg a v).thimble = s.thimble := rfl
@[simp] theorem State.setReg_teardowns (a v : Nat) : (s.setReg a v).teardowns = s.teardowns := rfl
@[simp] theorem State.setReg_tdFree (a v : Nat) : (s.setReg a v).tdFree = s.tdFree := rfl
@[simp] theorem State.setReg_attest (a v : Nat) : (s.setReg a v).attest = s.attest := rfl
@[simp] theorem State.setReg_issued (a v : Nat) : (s.setReg a v).issued = s.issued := rfl
@[simp] theorem State.setReg_tampered (a v : Nat) : (s.setReg a v).tampered = s.tampered := rfl
@[simp] theorem State.setReg_keysOk (a v : Nat) : (s.setReg a v).keysOk = s.keysOk := rfl
@[simp] theorem State.setReg_slotId (a v : Nat) : (s.setReg a v).slotId = s.slotId := rfl
@[simp] theorem State.setReg_repeats (a v : Nat) : (s.setReg a v).repeats = s.repeats := rfl
@[simp] theorem State.setReg_reports (a v : Nat) : (s.setReg a v).reports = s.reports := rfl
@[simp] theorem State.setReg_test (a v : Nat) : (s.setReg a v).test = s.test := rfl
@[simp] theorem State.setReg_testNext (a v : Nat) : (s.setReg a v).testNext = s.testNext := rfl
@[simp] theorem State.setReg_testAt (a v : Nat) : (s.setReg a v).testAt = s.testAt := rfl
@[simp] theorem State.setReg_resets (a v : Nat) : (s.setReg a v).resets = s.resets := rfl
@[simp] theorem State.setReg_busyAt (a v : Nat) : (s.setReg a v).busyAt = s.busyAt := rfl
@[simp] theorem State.setReg_traces (a v : Nat) : (s.setReg a v).traces = s.traces := rfl
@[simp] theorem State.setReg_trcDropped (a v : Nat) : (s.setReg a v).trcDropped = s.trcDropped := rfl
@[simp] theorem State.setReg_wdStart (a v : Nat) : (s.setReg a v).wdStart = s.wdStart := rfl
@[simp] theorem State.setReg_wdKicked (a v : Nat) : (s.setReg a v).wdKicked = s.wdKicked := rfl
@[simp] theorem State.setReg_wdMark (a v : Nat) : (s.setReg a v).wdMark = s.wdMark := rfl
@[simp] theorem State.setReg_smpLast (a v : Nat) : (s.setReg a v).smpLast = s.smpLast := rfl
@[simp] theorem State.setReg_smpCount (a v : Nat) : (s.setReg a v).smpCount = s.smpCount := rfl
@[simp] theorem State.setReg_frozen (a v : Nat) : (s.setReg a v).frozen = s.frozen := rfl
@[simp] theorem State.setReg_stopAt (a v : Nat) : (s.setReg a v).stopAt = s.stopAt := rfl
@[simp] theorem State.setReg_store (a v : Nat) : (s.setReg a v).store = s.store := rfl
@[simp] theorem State.setReg_calNext (a v : Nat) : (s.setReg a v).calNext = s.calNext := rfl

/-! `State.fset` -/

@[simp] theorem State.fset_pending (a : Nat) (f : Nat × Nat) (v : Nat) : (s.fset a f v).pending = s.pending := rfl
@[simp] theorem State.fset_serial (a : Nat) (f : Nat × Nat) (v : Nat) : (s.fset a f v).serial = s.serial := rfl
@[simp] theorem State.fset_fabric (a : Nat) (f : Nat × Nat) (v : Nat) : (s.fset a f v).fabric = s.fabric := rfl
@[simp] theorem State.fset_mem (a : Nat) (f : Nat × Nat) (v : Nat) : (s.fset a f v).mem = s.mem := rfl
@[simp] theorem State.fset_keyTag (a : Nat) (f : Nat × Nat) (v : Nat) : (s.fset a f v).keyTag = s.keyTag := rfl
@[simp] theorem State.fset_badLines (a : Nat) (f : Nat × Nat) (v : Nat) : (s.fset a f v).badLines = s.badLines := rfl
@[simp] theorem State.fset_pprRows (a : Nat) (f : Nat × Nat) (v : Nat) : (s.fset a f v).pprRows = s.pprRows := rfl
@[simp] theorem State.fset_clearing (a : Nat) (f : Nat × Nat) (v : Nat) : (s.fset a f v).clearing = s.clearing := rfl
@[simp] theorem State.fset_memWaits (a : Nat) (f : Nat × Nat) (v : Nat) : (s.fset a f v).memWaits = s.memWaits := rfl
@[simp] theorem State.fset_scrubAt (a : Nat) (f : Nat × Nat) (v : Nat) : (s.fset a f v).scrubAt = s.scrubAt := rfl
@[simp] theorem State.fset_busData (a : Nat) (f : Nat × Nat) (v : Nat) : (s.fset a f v).busData = s.busData := rfl
@[simp] theorem State.fset_busErr (a : Nat) (f : Nat × Nat) (v : Nat) : (s.fset a f v).busErr = s.busErr := rfl
@[simp] theorem State.fset_free (a : Nat) (f : Nat × Nat) (v : Nat) : (s.fset a f v).free = s.free := rfl
@[simp] theorem State.fset_tb (a : Nat) (f : Nat × Nat) (v : Nat) : (s.fset a f v).tb = s.tb := rfl
@[simp] theorem State.fset_events (a : Nat) (f : Nat × Nat) (v : Nat) : (s.fset a f v).events = s.events := rfl
@[simp] theorem State.fset_eaNext (a : Nat) (f : Nat × Nat) (v : Nat) : (s.fset a f v).eaNext = s.eaNext := rfl
@[simp] theorem State.fset_eaLast (a : Nat) (f : Nat × Nat) (v : Nat) : (s.fset a f v).eaLast = s.eaLast := rfl
@[simp] theorem State.fset_tracked (a : Nat) (f : Nat × Nat) (v : Nat) : (s.fset a f v).tracked = s.tracked := rfl
@[simp] theorem State.fset_recQ (a : Nat) (f : Nat × Nat) (v : Nat) : (s.fset a f v).recQ = s.recQ := rfl
@[simp] theorem State.fset_traceHold (a : Nat) (f : Nat × Nat) (v : Nat) : (s.fset a f v).traceHold = s.traceHold := rfl
@[simp] theorem State.fset_nextSlot (a : Nat) (f : Nat × Nat) (v : Nat) : (s.fset a f v).nextSlot = s.nextSlot := rfl
@[simp] theorem State.fset_chans (a : Nat) (f : Nat × Nat) (v : Nat) : (s.fset a f v).chans = s.chans := rfl
@[simp] theorem State.fset_lingering (a : Nat) (f : Nat × Nat) (v : Nat) : (s.fset a f v).lingering = s.lingering := rfl
@[simp] theorem State.fset_settling (a : Nat) (f : Nat × Nat) (v : Nat) : (s.fset a f v).settling = s.settling := rfl
@[simp] theorem State.fset_queues (a : Nat) (f : Nat × Nat) (v : Nat) : (s.fset a f v).queues = s.queues := rfl
@[simp] theorem State.fset_wrrAt (a : Nat) (f : Nat × Nat) (v : Nat) : (s.fset a f v).wrrAt = s.wrrAt := rfl
@[simp] theorem State.fset_mapCe (a : Nat) (f : Nat × Nat) (v : Nat) : (s.fset a f v).mapCe = s.mapCe := rfl
@[simp] theorem State.fset_mapDe (a : Nat) (f : Nat × Nat) (v : Nat) : (s.fset a f v).mapDe = s.mapDe := rfl
@[simp] theorem State.fset_abort (a : Nat) (f : Nat × Nat) (v : Nat) : (s.fset a f v).abort = s.abort := rfl
@[simp] theorem State.fset_tasks (a : Nat) (f : Nat × Nat) (v : Nat) : (s.fset a f v).tasks = s.tasks := rfl
@[simp] theorem State.fset_nextTask (a : Nat) (f : Nat × Nat) (v : Nat) : (s.fset a f v).nextTask = s.nextTask := rfl
@[simp] theorem State.fset_facets (a : Nat) (f : Nat × Nat) (v : Nat) : (s.fset a f v).facets = s.facets := rfl
@[simp] theorem State.fset_facetBank (a : Nat) (f : Nat × Nat) (v : Nat) : (s.fset a f v).facetBank = s.facetBank := rfl
@[simp] theorem State.fset_bobbin (a : Nat) (f : Nat × Nat) (v : Nat) : (s.fset a f v).bobbin = s.bobbin := rfl
@[simp] theorem State.fset_flushes (a : Nat) (f : Nat × Nat) (v : Nat) : (s.fset a f v).flushes = s.flushes := rfl
@[simp] theorem State.fset_poolWaits (a : Nat) (f : Nat × Nat) (v : Nat) : (s.fset a f v).poolWaits = s.poolWaits := rfl
@[simp] theorem State.fset_seqUsed (a : Nat) (f : Nat × Nat) (v : Nat) : (s.fset a f v).seqUsed = s.seqUsed := rfl
@[simp] theorem State.fset_classInit (a : Nat) (f : Nat × Nat) (v : Nat) : (s.fset a f v).classInit = s.classInit := rfl
@[simp] theorem State.fset_retired (a : Nat) (f : Nat × Nat) (v : Nat) : (s.fset a f v).retired = s.retired := rfl
@[simp] theorem State.fset_samp (a : Nat) (f : Nat × Nat) (v : Nat) : (s.fset a f v).samp = s.samp := rfl
@[simp] theorem State.fset_cancels (a : Nat) (f : Nat × Nat) (v : Nat) : (s.fset a f v).cancels = s.cancels := rfl
@[simp] theorem State.fset_cancelled (a : Nat) (f : Nat × Nat) (v : Nat) : (s.fset a f v).cancelled = s.cancelled := rfl
@[simp] theorem State.fset_cancelDue (a : Nat) (f : Nat × Nat) (v : Nat) : (s.fset a f v).cancelDue = s.cancelDue := rfl
@[simp] theorem State.fset_requests (a : Nat) (f : Nat × Nat) (v : Nat) : (s.fset a f v).requests = s.requests := rfl
@[simp] theorem State.fset_nextReq (a : Nat) (f : Nat × Nat) (v : Nat) : (s.fset a f v).nextReq = s.nextReq := rfl
@[simp] theorem State.fset_clientOps (a : Nat) (f : Nat × Nat) (v : Nat) : (s.fset a f v).clientOps = s.clientOps := rfl
@[simp] theorem State.fset_duePauses (a : Nat) (f : Nat × Nat) (v : Nat) : (s.fset a f v).duePauses = s.duePauses := rfl
@[simp] theorem State.fset_images (a : Nat) (f : Nat × Nat) (v : Nat) : (s.fset a f v).images = s.images := rfl
@[simp] theorem State.fset_oldImages (a : Nat) (f : Nat × Nat) (v : Nat) : (s.fset a f v).oldImages = s.oldImages := rfl
@[simp] theorem State.fset_coldQ (a : Nat) (f : Nat × Nat) (v : Nat) : (s.fset a f v).coldQ = s.coldQ := rfl
@[simp] theorem State.fset_resuming (a : Nat) (f : Nat × Nat) (v : Nat) : (s.fset a f v).resuming = s.resuming := rfl
@[simp] theorem State.fset_restoring (a : Nat) (f : Nat × Nat) (v : Nat) : (s.fset a f v).restoring = s.restoring := rfl
@[simp] theorem State.fset_coldGen (a : Nat) (f : Nat × Nat) (v : Nat) : (s.fset a f v).coldGen = s.coldGen := rfl
@[simp] theorem State.fset_coldBytes (a : Nat) (f : Nat × Nat) (v : Nat) : (s.fset a f v).coldBytes = s.coldBytes := rfl
@[simp] theorem State.fset_vchans (a : Nat) (f : Nat × Nat) (v : Nat) : (s.fset a f v).vchans = s.vchans := rfl
@[simp] theorem State.fset_shuttles (a : Nat) (f : Nat × Nat) (v : Nat) : (s.fset a f v).shuttles = s.shuttles := rfl
@[simp] theorem State.fset_cbSeen (a : Nat) (f : Nat × Nat) (v : Nat) : (s.fset a f v).cbSeen = s.cbSeen := rfl
@[simp] theorem State.fset_cbNext (a : Nat) (f : Nat × Nat) (v : Nat) : (s.fset a f v).cbNext = s.cbNext := rfl
@[simp] theorem State.fset_meters (a : Nat) (f : Nat × Nat) (v : Nat) : (s.fset a f v).meters = s.meters := rfl
@[simp] theorem State.fset_qps (a : Nat) (f : Nat × Nat) (v : Nat) : (s.fset a f v).qps = s.qps := rfl
@[simp] theorem State.fset_sessions (a : Nat) (f : Nat × Nat) (v : Nat) : (s.fset a f v).sessions = s.sessions := rfl
@[simp] theorem State.fset_nextSess (a : Nat) (f : Nat × Nat) (v : Nat) : (s.fset a f v).nextSess = s.nextSess := rfl
@[simp] theorem State.fset_reasm (a : Nat) (f : Nat × Nat) (v : Nat) : (s.fset a f v).reasm = s.reasm := rfl
@[simp] theorem State.fset_inbox (a : Nat) (f : Nat × Nat) (v : Nat) : (s.fset a f v).inbox = s.inbox := rfl
@[simp] theorem State.fset_rdmaIn (a : Nat) (f : Nat × Nat) (v : Nat) : (s.fset a f v).rdmaIn = s.rdmaIn := rfl
@[simp] theorem State.fset_cnpIn (a : Nat) (f : Nat × Nat) (v : Nat) : (s.fset a f v).cnpIn = s.cnpIn := rfl
@[simp] theorem State.fset_ptpIn (a : Nat) (f : Nat × Nat) (v : Nat) : (s.fset a f v).ptpIn = s.ptpIn := rfl
@[simp] theorem State.fset_links (a : Nat) (f : Nat × Nat) (v : Nat) : (s.fset a f v).links = s.links := rfl
@[simp] theorem State.fset_landings (a : Nat) (f : Nat × Nat) (v : Nat) : (s.fset a f v).landings = s.landings := rfl
@[simp] theorem State.fset_txCredits (a : Nat) (f : Nat × Nat) (v : Nat) : (s.fset a f v).txCredits = s.txCredits := rfl
@[simp] theorem State.fset_epochAt (a : Nat) (f : Nat × Nat) (v : Nat) : (s.fset a f v).epochAt = s.epochAt := rfl
@[simp] theorem State.fset_barriers (a : Nat) (f : Nat × Nat) (v : Nat) : (s.fset a f v).barriers = s.barriers := rfl
@[simp] theorem State.fset_waitArrive (a : Nat) (f : Nat × Nat) (v : Nat) : (s.fset a f v).waitArrive = s.waitArrive := rfl
@[simp] theorem State.fset_pair (a : Nat) (f : Nat × Nat) (v : Nat) : (s.fset a f v).pair = s.pair := rfl
@[simp] theorem State.fset_heldOut (a : Nat) (f : Nat × Nat) (v : Nat) : (s.fset a f v).heldOut = s.heldOut := rfl
@[simp] theorem State.fset_out (a : Nat) (f : Nat × Nat) (v : Nat) : (s.fset a f v).out = s.out := rfl
@[simp] theorem State.fset_trigs (a : Nat) (f : Nat × Nat) (v : Nat) : (s.fset a f v).trigs = s.trigs := rfl
@[simp] theorem State.fset_trigFifo (a : Nat) (f : Nat × Nat) (v : Nat) : (s.fset a f v).trigFifo = s.trigFifo := rfl
@[simp] theorem State.fset_lastEdge (a : Nat) (f : Nat × Nat) (v : Nat) : (s.fset a f v).lastEdge = s.lastEdge := rfl
@[simp] theorem State.fset_verdictQ (a : Nat) (f : Nat × Nat) (v : Nat) : (s.fset a f v).verdictQ = s.verdictQ := rfl
@[simp] theorem State.fset_linePend (a : Nat) (f : Nat × Nat) (v : Nat) : (s.fset a f v).linePend = s.linePend := rfl
@[simp] theorem State.fset_pins (a : Nat) (f : Nat × Nat) (v : Nat) : (s.fset a f v).pins = s.pins := rfl
@[simp] theorem State.fset_power (a : Nat) (f : Nat × Nat) (v : Nat) : (s.fset a f v).power = s.power := rfl
@[simp] theorem State.fset_gated (a : Nat) (f : Nat × Nat) (v : Nat) : (s.fset a f v).gated = s.gated := rfl
@[simp] theorem State.fset_thimble (a : Nat) (f : Nat × Nat) (v : Nat) : (s.fset a f v).thimble = s.thimble := rfl
@[simp] theorem State.fset_teardowns (a : Nat) (f : Nat × Nat) (v : Nat) : (s.fset a f v).teardowns = s.teardowns := rfl
@[simp] theorem State.fset_tdFree (a : Nat) (f : Nat × Nat) (v : Nat) : (s.fset a f v).tdFree = s.tdFree := rfl
@[simp] theorem State.fset_attest (a : Nat) (f : Nat × Nat) (v : Nat) : (s.fset a f v).attest = s.attest := rfl
@[simp] theorem State.fset_issued (a : Nat) (f : Nat × Nat) (v : Nat) : (s.fset a f v).issued = s.issued := rfl
@[simp] theorem State.fset_tampered (a : Nat) (f : Nat × Nat) (v : Nat) : (s.fset a f v).tampered = s.tampered := rfl
@[simp] theorem State.fset_keysOk (a : Nat) (f : Nat × Nat) (v : Nat) : (s.fset a f v).keysOk = s.keysOk := rfl
@[simp] theorem State.fset_slotId (a : Nat) (f : Nat × Nat) (v : Nat) : (s.fset a f v).slotId = s.slotId := rfl
@[simp] theorem State.fset_repeats (a : Nat) (f : Nat × Nat) (v : Nat) : (s.fset a f v).repeats = s.repeats := rfl
@[simp] theorem State.fset_reports (a : Nat) (f : Nat × Nat) (v : Nat) : (s.fset a f v).reports = s.reports := rfl
@[simp] theorem State.fset_test (a : Nat) (f : Nat × Nat) (v : Nat) : (s.fset a f v).test = s.test := rfl
@[simp] theorem State.fset_testNext (a : Nat) (f : Nat × Nat) (v : Nat) : (s.fset a f v).testNext = s.testNext := rfl
@[simp] theorem State.fset_testAt (a : Nat) (f : Nat × Nat) (v : Nat) : (s.fset a f v).testAt = s.testAt := rfl
@[simp] theorem State.fset_resets (a : Nat) (f : Nat × Nat) (v : Nat) : (s.fset a f v).resets = s.resets := rfl
@[simp] theorem State.fset_busyAt (a : Nat) (f : Nat × Nat) (v : Nat) : (s.fset a f v).busyAt = s.busyAt := rfl
@[simp] theorem State.fset_traces (a : Nat) (f : Nat × Nat) (v : Nat) : (s.fset a f v).traces = s.traces := rfl
@[simp] theorem State.fset_trcDropped (a : Nat) (f : Nat × Nat) (v : Nat) : (s.fset a f v).trcDropped = s.trcDropped := rfl
@[simp] theorem State.fset_wdStart (a : Nat) (f : Nat × Nat) (v : Nat) : (s.fset a f v).wdStart = s.wdStart := rfl
@[simp] theorem State.fset_wdKicked (a : Nat) (f : Nat × Nat) (v : Nat) : (s.fset a f v).wdKicked = s.wdKicked := rfl
@[simp] theorem State.fset_wdMark (a : Nat) (f : Nat × Nat) (v : Nat) : (s.fset a f v).wdMark = s.wdMark := rfl
@[simp] theorem State.fset_smpLast (a : Nat) (f : Nat × Nat) (v : Nat) : (s.fset a f v).smpLast = s.smpLast := rfl
@[simp] theorem State.fset_smpCount (a : Nat) (f : Nat × Nat) (v : Nat) : (s.fset a f v).smpCount = s.smpCount := rfl
@[simp] theorem State.fset_frozen (a : Nat) (f : Nat × Nat) (v : Nat) : (s.fset a f v).frozen = s.frozen := rfl
@[simp] theorem State.fset_stopAt (a : Nat) (f : Nat × Nat) (v : Nat) : (s.fset a f v).stopAt = s.stopAt := rfl
@[simp] theorem State.fset_store (a : Nat) (f : Nat × Nat) (v : Nat) : (s.fset a f v).store = s.store := rfl
@[simp] theorem State.fset_calNext (a : Nat) (f : Nat × Nat) (v : Nat) : (s.fset a f v).calNext = s.calNext := rfl

/-! `State.bump` -/

@[simp] theorem State.bump_pending (a : Nat) (f : Nat × Nat) (v : Nat) : (s.bump a f v).pending = s.pending := rfl
@[simp] theorem State.bump_serial (a : Nat) (f : Nat × Nat) (v : Nat) : (s.bump a f v).serial = s.serial := rfl
@[simp] theorem State.bump_fabric (a : Nat) (f : Nat × Nat) (v : Nat) : (s.bump a f v).fabric = s.fabric := rfl
@[simp] theorem State.bump_mem (a : Nat) (f : Nat × Nat) (v : Nat) : (s.bump a f v).mem = s.mem := rfl
@[simp] theorem State.bump_keyTag (a : Nat) (f : Nat × Nat) (v : Nat) : (s.bump a f v).keyTag = s.keyTag := rfl
@[simp] theorem State.bump_badLines (a : Nat) (f : Nat × Nat) (v : Nat) : (s.bump a f v).badLines = s.badLines := rfl
@[simp] theorem State.bump_pprRows (a : Nat) (f : Nat × Nat) (v : Nat) : (s.bump a f v).pprRows = s.pprRows := rfl
@[simp] theorem State.bump_clearing (a : Nat) (f : Nat × Nat) (v : Nat) : (s.bump a f v).clearing = s.clearing := rfl
@[simp] theorem State.bump_memWaits (a : Nat) (f : Nat × Nat) (v : Nat) : (s.bump a f v).memWaits = s.memWaits := rfl
@[simp] theorem State.bump_scrubAt (a : Nat) (f : Nat × Nat) (v : Nat) : (s.bump a f v).scrubAt = s.scrubAt := rfl
@[simp] theorem State.bump_busData (a : Nat) (f : Nat × Nat) (v : Nat) : (s.bump a f v).busData = s.busData := rfl
@[simp] theorem State.bump_busErr (a : Nat) (f : Nat × Nat) (v : Nat) : (s.bump a f v).busErr = s.busErr := rfl
@[simp] theorem State.bump_free (a : Nat) (f : Nat × Nat) (v : Nat) : (s.bump a f v).free = s.free := rfl
@[simp] theorem State.bump_tb (a : Nat) (f : Nat × Nat) (v : Nat) : (s.bump a f v).tb = s.tb := rfl
@[simp] theorem State.bump_events (a : Nat) (f : Nat × Nat) (v : Nat) : (s.bump a f v).events = s.events := rfl
@[simp] theorem State.bump_eaNext (a : Nat) (f : Nat × Nat) (v : Nat) : (s.bump a f v).eaNext = s.eaNext := rfl
@[simp] theorem State.bump_eaLast (a : Nat) (f : Nat × Nat) (v : Nat) : (s.bump a f v).eaLast = s.eaLast := rfl
@[simp] theorem State.bump_tracked (a : Nat) (f : Nat × Nat) (v : Nat) : (s.bump a f v).tracked = s.tracked := rfl
@[simp] theorem State.bump_recQ (a : Nat) (f : Nat × Nat) (v : Nat) : (s.bump a f v).recQ = s.recQ := rfl
@[simp] theorem State.bump_traceHold (a : Nat) (f : Nat × Nat) (v : Nat) : (s.bump a f v).traceHold = s.traceHold := rfl
@[simp] theorem State.bump_nextSlot (a : Nat) (f : Nat × Nat) (v : Nat) : (s.bump a f v).nextSlot = s.nextSlot := rfl
@[simp] theorem State.bump_chans (a : Nat) (f : Nat × Nat) (v : Nat) : (s.bump a f v).chans = s.chans := rfl
@[simp] theorem State.bump_lingering (a : Nat) (f : Nat × Nat) (v : Nat) : (s.bump a f v).lingering = s.lingering := rfl
@[simp] theorem State.bump_settling (a : Nat) (f : Nat × Nat) (v : Nat) : (s.bump a f v).settling = s.settling := rfl
@[simp] theorem State.bump_queues (a : Nat) (f : Nat × Nat) (v : Nat) : (s.bump a f v).queues = s.queues := rfl
@[simp] theorem State.bump_wrrAt (a : Nat) (f : Nat × Nat) (v : Nat) : (s.bump a f v).wrrAt = s.wrrAt := rfl
@[simp] theorem State.bump_mapCe (a : Nat) (f : Nat × Nat) (v : Nat) : (s.bump a f v).mapCe = s.mapCe := rfl
@[simp] theorem State.bump_mapDe (a : Nat) (f : Nat × Nat) (v : Nat) : (s.bump a f v).mapDe = s.mapDe := rfl
@[simp] theorem State.bump_abort (a : Nat) (f : Nat × Nat) (v : Nat) : (s.bump a f v).abort = s.abort := rfl
@[simp] theorem State.bump_tasks (a : Nat) (f : Nat × Nat) (v : Nat) : (s.bump a f v).tasks = s.tasks := rfl
@[simp] theorem State.bump_nextTask (a : Nat) (f : Nat × Nat) (v : Nat) : (s.bump a f v).nextTask = s.nextTask := rfl
@[simp] theorem State.bump_facets (a : Nat) (f : Nat × Nat) (v : Nat) : (s.bump a f v).facets = s.facets := rfl
@[simp] theorem State.bump_facetBank (a : Nat) (f : Nat × Nat) (v : Nat) : (s.bump a f v).facetBank = s.facetBank := rfl
@[simp] theorem State.bump_bobbin (a : Nat) (f : Nat × Nat) (v : Nat) : (s.bump a f v).bobbin = s.bobbin := rfl
@[simp] theorem State.bump_flushes (a : Nat) (f : Nat × Nat) (v : Nat) : (s.bump a f v).flushes = s.flushes := rfl
@[simp] theorem State.bump_poolWaits (a : Nat) (f : Nat × Nat) (v : Nat) : (s.bump a f v).poolWaits = s.poolWaits := rfl
@[simp] theorem State.bump_seqUsed (a : Nat) (f : Nat × Nat) (v : Nat) : (s.bump a f v).seqUsed = s.seqUsed := rfl
@[simp] theorem State.bump_classInit (a : Nat) (f : Nat × Nat) (v : Nat) : (s.bump a f v).classInit = s.classInit := rfl
@[simp] theorem State.bump_retired (a : Nat) (f : Nat × Nat) (v : Nat) : (s.bump a f v).retired = s.retired := rfl
@[simp] theorem State.bump_samp (a : Nat) (f : Nat × Nat) (v : Nat) : (s.bump a f v).samp = s.samp := rfl
@[simp] theorem State.bump_cancels (a : Nat) (f : Nat × Nat) (v : Nat) : (s.bump a f v).cancels = s.cancels := rfl
@[simp] theorem State.bump_cancelled (a : Nat) (f : Nat × Nat) (v : Nat) : (s.bump a f v).cancelled = s.cancelled := rfl
@[simp] theorem State.bump_cancelDue (a : Nat) (f : Nat × Nat) (v : Nat) : (s.bump a f v).cancelDue = s.cancelDue := rfl
@[simp] theorem State.bump_requests (a : Nat) (f : Nat × Nat) (v : Nat) : (s.bump a f v).requests = s.requests := rfl
@[simp] theorem State.bump_nextReq (a : Nat) (f : Nat × Nat) (v : Nat) : (s.bump a f v).nextReq = s.nextReq := rfl
@[simp] theorem State.bump_clientOps (a : Nat) (f : Nat × Nat) (v : Nat) : (s.bump a f v).clientOps = s.clientOps := rfl
@[simp] theorem State.bump_duePauses (a : Nat) (f : Nat × Nat) (v : Nat) : (s.bump a f v).duePauses = s.duePauses := rfl
@[simp] theorem State.bump_images (a : Nat) (f : Nat × Nat) (v : Nat) : (s.bump a f v).images = s.images := rfl
@[simp] theorem State.bump_oldImages (a : Nat) (f : Nat × Nat) (v : Nat) : (s.bump a f v).oldImages = s.oldImages := rfl
@[simp] theorem State.bump_coldQ (a : Nat) (f : Nat × Nat) (v : Nat) : (s.bump a f v).coldQ = s.coldQ := rfl
@[simp] theorem State.bump_resuming (a : Nat) (f : Nat × Nat) (v : Nat) : (s.bump a f v).resuming = s.resuming := rfl
@[simp] theorem State.bump_restoring (a : Nat) (f : Nat × Nat) (v : Nat) : (s.bump a f v).restoring = s.restoring := rfl
@[simp] theorem State.bump_coldGen (a : Nat) (f : Nat × Nat) (v : Nat) : (s.bump a f v).coldGen = s.coldGen := rfl
@[simp] theorem State.bump_coldBytes (a : Nat) (f : Nat × Nat) (v : Nat) : (s.bump a f v).coldBytes = s.coldBytes := rfl
@[simp] theorem State.bump_vchans (a : Nat) (f : Nat × Nat) (v : Nat) : (s.bump a f v).vchans = s.vchans := rfl
@[simp] theorem State.bump_shuttles (a : Nat) (f : Nat × Nat) (v : Nat) : (s.bump a f v).shuttles = s.shuttles := rfl
@[simp] theorem State.bump_cbSeen (a : Nat) (f : Nat × Nat) (v : Nat) : (s.bump a f v).cbSeen = s.cbSeen := rfl
@[simp] theorem State.bump_cbNext (a : Nat) (f : Nat × Nat) (v : Nat) : (s.bump a f v).cbNext = s.cbNext := rfl
@[simp] theorem State.bump_meters (a : Nat) (f : Nat × Nat) (v : Nat) : (s.bump a f v).meters = s.meters := rfl
@[simp] theorem State.bump_qps (a : Nat) (f : Nat × Nat) (v : Nat) : (s.bump a f v).qps = s.qps := rfl
@[simp] theorem State.bump_sessions (a : Nat) (f : Nat × Nat) (v : Nat) : (s.bump a f v).sessions = s.sessions := rfl
@[simp] theorem State.bump_nextSess (a : Nat) (f : Nat × Nat) (v : Nat) : (s.bump a f v).nextSess = s.nextSess := rfl
@[simp] theorem State.bump_reasm (a : Nat) (f : Nat × Nat) (v : Nat) : (s.bump a f v).reasm = s.reasm := rfl
@[simp] theorem State.bump_inbox (a : Nat) (f : Nat × Nat) (v : Nat) : (s.bump a f v).inbox = s.inbox := rfl
@[simp] theorem State.bump_rdmaIn (a : Nat) (f : Nat × Nat) (v : Nat) : (s.bump a f v).rdmaIn = s.rdmaIn := rfl
@[simp] theorem State.bump_cnpIn (a : Nat) (f : Nat × Nat) (v : Nat) : (s.bump a f v).cnpIn = s.cnpIn := rfl
@[simp] theorem State.bump_ptpIn (a : Nat) (f : Nat × Nat) (v : Nat) : (s.bump a f v).ptpIn = s.ptpIn := rfl
@[simp] theorem State.bump_links (a : Nat) (f : Nat × Nat) (v : Nat) : (s.bump a f v).links = s.links := rfl
@[simp] theorem State.bump_landings (a : Nat) (f : Nat × Nat) (v : Nat) : (s.bump a f v).landings = s.landings := rfl
@[simp] theorem State.bump_txCredits (a : Nat) (f : Nat × Nat) (v : Nat) : (s.bump a f v).txCredits = s.txCredits := rfl
@[simp] theorem State.bump_epochAt (a : Nat) (f : Nat × Nat) (v : Nat) : (s.bump a f v).epochAt = s.epochAt := rfl
@[simp] theorem State.bump_barriers (a : Nat) (f : Nat × Nat) (v : Nat) : (s.bump a f v).barriers = s.barriers := rfl
@[simp] theorem State.bump_waitArrive (a : Nat) (f : Nat × Nat) (v : Nat) : (s.bump a f v).waitArrive = s.waitArrive := rfl
@[simp] theorem State.bump_pair (a : Nat) (f : Nat × Nat) (v : Nat) : (s.bump a f v).pair = s.pair := rfl
@[simp] theorem State.bump_heldOut (a : Nat) (f : Nat × Nat) (v : Nat) : (s.bump a f v).heldOut = s.heldOut := rfl
@[simp] theorem State.bump_out (a : Nat) (f : Nat × Nat) (v : Nat) : (s.bump a f v).out = s.out := rfl
@[simp] theorem State.bump_trigs (a : Nat) (f : Nat × Nat) (v : Nat) : (s.bump a f v).trigs = s.trigs := rfl
@[simp] theorem State.bump_trigFifo (a : Nat) (f : Nat × Nat) (v : Nat) : (s.bump a f v).trigFifo = s.trigFifo := rfl
@[simp] theorem State.bump_lastEdge (a : Nat) (f : Nat × Nat) (v : Nat) : (s.bump a f v).lastEdge = s.lastEdge := rfl
@[simp] theorem State.bump_verdictQ (a : Nat) (f : Nat × Nat) (v : Nat) : (s.bump a f v).verdictQ = s.verdictQ := rfl
@[simp] theorem State.bump_linePend (a : Nat) (f : Nat × Nat) (v : Nat) : (s.bump a f v).linePend = s.linePend := rfl
@[simp] theorem State.bump_pins (a : Nat) (f : Nat × Nat) (v : Nat) : (s.bump a f v).pins = s.pins := rfl
@[simp] theorem State.bump_power (a : Nat) (f : Nat × Nat) (v : Nat) : (s.bump a f v).power = s.power := rfl
@[simp] theorem State.bump_gated (a : Nat) (f : Nat × Nat) (v : Nat) : (s.bump a f v).gated = s.gated := rfl
@[simp] theorem State.bump_thimble (a : Nat) (f : Nat × Nat) (v : Nat) : (s.bump a f v).thimble = s.thimble := rfl
@[simp] theorem State.bump_teardowns (a : Nat) (f : Nat × Nat) (v : Nat) : (s.bump a f v).teardowns = s.teardowns := rfl
@[simp] theorem State.bump_tdFree (a : Nat) (f : Nat × Nat) (v : Nat) : (s.bump a f v).tdFree = s.tdFree := rfl
@[simp] theorem State.bump_attest (a : Nat) (f : Nat × Nat) (v : Nat) : (s.bump a f v).attest = s.attest := rfl
@[simp] theorem State.bump_issued (a : Nat) (f : Nat × Nat) (v : Nat) : (s.bump a f v).issued = s.issued := rfl
@[simp] theorem State.bump_tampered (a : Nat) (f : Nat × Nat) (v : Nat) : (s.bump a f v).tampered = s.tampered := rfl
@[simp] theorem State.bump_keysOk (a : Nat) (f : Nat × Nat) (v : Nat) : (s.bump a f v).keysOk = s.keysOk := rfl
@[simp] theorem State.bump_slotId (a : Nat) (f : Nat × Nat) (v : Nat) : (s.bump a f v).slotId = s.slotId := rfl
@[simp] theorem State.bump_repeats (a : Nat) (f : Nat × Nat) (v : Nat) : (s.bump a f v).repeats = s.repeats := rfl
@[simp] theorem State.bump_reports (a : Nat) (f : Nat × Nat) (v : Nat) : (s.bump a f v).reports = s.reports := rfl
@[simp] theorem State.bump_test (a : Nat) (f : Nat × Nat) (v : Nat) : (s.bump a f v).test = s.test := rfl
@[simp] theorem State.bump_testNext (a : Nat) (f : Nat × Nat) (v : Nat) : (s.bump a f v).testNext = s.testNext := rfl
@[simp] theorem State.bump_testAt (a : Nat) (f : Nat × Nat) (v : Nat) : (s.bump a f v).testAt = s.testAt := rfl
@[simp] theorem State.bump_resets (a : Nat) (f : Nat × Nat) (v : Nat) : (s.bump a f v).resets = s.resets := rfl
@[simp] theorem State.bump_busyAt (a : Nat) (f : Nat × Nat) (v : Nat) : (s.bump a f v).busyAt = s.busyAt := rfl
@[simp] theorem State.bump_traces (a : Nat) (f : Nat × Nat) (v : Nat) : (s.bump a f v).traces = s.traces := rfl
@[simp] theorem State.bump_trcDropped (a : Nat) (f : Nat × Nat) (v : Nat) : (s.bump a f v).trcDropped = s.trcDropped := rfl
@[simp] theorem State.bump_wdStart (a : Nat) (f : Nat × Nat) (v : Nat) : (s.bump a f v).wdStart = s.wdStart := rfl
@[simp] theorem State.bump_wdKicked (a : Nat) (f : Nat × Nat) (v : Nat) : (s.bump a f v).wdKicked = s.wdKicked := rfl
@[simp] theorem State.bump_wdMark (a : Nat) (f : Nat × Nat) (v : Nat) : (s.bump a f v).wdMark = s.wdMark := rfl
@[simp] theorem State.bump_smpLast (a : Nat) (f : Nat × Nat) (v : Nat) : (s.bump a f v).smpLast = s.smpLast := rfl
@[simp] theorem State.bump_smpCount (a : Nat) (f : Nat × Nat) (v : Nat) : (s.bump a f v).smpCount = s.smpCount := rfl
@[simp] theorem State.bump_frozen (a : Nat) (f : Nat × Nat) (v : Nat) : (s.bump a f v).frozen = s.frozen := rfl
@[simp] theorem State.bump_stopAt (a : Nat) (f : Nat × Nat) (v : Nat) : (s.bump a f v).stopAt = s.stopAt := rfl
@[simp] theorem State.bump_store (a : Nat) (f : Nat × Nat) (v : Nat) : (s.bump a f v).store = s.store := rfl
@[simp] theorem State.bump_calNext (a : Nat) (f : Nat × Nat) (v : Nat) : (s.bump a f v).calNext = s.calNext := rfl

/-! `State.tickFree` -/

@[simp] theorem State.tickFree_pending : (s.tickFree).pending = s.pending := rfl
@[simp] theorem State.tickFree_serial : (s.tickFree).serial = s.serial := rfl
@[simp] theorem State.tickFree_fabric : (s.tickFree).fabric = s.fabric := rfl
@[simp] theorem State.tickFree_regs : (s.tickFree).regs = s.regs := rfl
@[simp] theorem State.tickFree_mem : (s.tickFree).mem = s.mem := rfl
@[simp] theorem State.tickFree_keyTag : (s.tickFree).keyTag = s.keyTag := rfl
@[simp] theorem State.tickFree_badLines : (s.tickFree).badLines = s.badLines := rfl
@[simp] theorem State.tickFree_pprRows : (s.tickFree).pprRows = s.pprRows := rfl
@[simp] theorem State.tickFree_clearing : (s.tickFree).clearing = s.clearing := rfl
@[simp] theorem State.tickFree_memWaits : (s.tickFree).memWaits = s.memWaits := rfl
@[simp] theorem State.tickFree_scrubAt : (s.tickFree).scrubAt = s.scrubAt := rfl
@[simp] theorem State.tickFree_busData : (s.tickFree).busData = s.busData := rfl
@[simp] theorem State.tickFree_busErr : (s.tickFree).busErr = s.busErr := rfl
@[simp] theorem State.tickFree_tb : (s.tickFree).tb = s.tb := rfl
@[simp] theorem State.tickFree_events : (s.tickFree).events = s.events := rfl
@[simp] theorem State.tickFree_eaNext : (s.tickFree).eaNext = s.eaNext := rfl
@[simp] theorem State.tickFree_eaLast : (s.tickFree).eaLast = s.eaLast := rfl
@[simp] theorem State.tickFree_tracked : (s.tickFree).tracked = s.tracked := rfl
@[simp] theorem State.tickFree_recQ : (s.tickFree).recQ = s.recQ := rfl
@[simp] theorem State.tickFree_traceHold : (s.tickFree).traceHold = s.traceHold := rfl
@[simp] theorem State.tickFree_nextSlot : (s.tickFree).nextSlot = s.nextSlot := rfl
@[simp] theorem State.tickFree_chans : (s.tickFree).chans = s.chans := rfl
@[simp] theorem State.tickFree_lingering : (s.tickFree).lingering = s.lingering := rfl
@[simp] theorem State.tickFree_settling : (s.tickFree).settling = s.settling := rfl
@[simp] theorem State.tickFree_queues : (s.tickFree).queues = s.queues := rfl
@[simp] theorem State.tickFree_wrrAt : (s.tickFree).wrrAt = s.wrrAt := rfl
@[simp] theorem State.tickFree_mapCe : (s.tickFree).mapCe = s.mapCe := rfl
@[simp] theorem State.tickFree_mapDe : (s.tickFree).mapDe = s.mapDe := rfl
@[simp] theorem State.tickFree_abort : (s.tickFree).abort = s.abort := rfl
@[simp] theorem State.tickFree_tasks : (s.tickFree).tasks = s.tasks := rfl
@[simp] theorem State.tickFree_nextTask : (s.tickFree).nextTask = s.nextTask := rfl
@[simp] theorem State.tickFree_facets : (s.tickFree).facets = s.facets := rfl
@[simp] theorem State.tickFree_facetBank : (s.tickFree).facetBank = s.facetBank := rfl
@[simp] theorem State.tickFree_bobbin : (s.tickFree).bobbin = s.bobbin := rfl
@[simp] theorem State.tickFree_flushes : (s.tickFree).flushes = s.flushes := rfl
@[simp] theorem State.tickFree_poolWaits : (s.tickFree).poolWaits = s.poolWaits := rfl
@[simp] theorem State.tickFree_seqUsed : (s.tickFree).seqUsed = s.seqUsed := rfl
@[simp] theorem State.tickFree_classInit : (s.tickFree).classInit = s.classInit := rfl
@[simp] theorem State.tickFree_retired : (s.tickFree).retired = s.retired := rfl
@[simp] theorem State.tickFree_samp : (s.tickFree).samp = s.samp := rfl
@[simp] theorem State.tickFree_cancels : (s.tickFree).cancels = s.cancels := rfl
@[simp] theorem State.tickFree_cancelled : (s.tickFree).cancelled = s.cancelled := rfl
@[simp] theorem State.tickFree_cancelDue : (s.tickFree).cancelDue = s.cancelDue := rfl
@[simp] theorem State.tickFree_requests : (s.tickFree).requests = s.requests := rfl
@[simp] theorem State.tickFree_nextReq : (s.tickFree).nextReq = s.nextReq := rfl
@[simp] theorem State.tickFree_clientOps : (s.tickFree).clientOps = s.clientOps := rfl
@[simp] theorem State.tickFree_duePauses : (s.tickFree).duePauses = s.duePauses := rfl
@[simp] theorem State.tickFree_images : (s.tickFree).images = s.images := rfl
@[simp] theorem State.tickFree_oldImages : (s.tickFree).oldImages = s.oldImages := rfl
@[simp] theorem State.tickFree_coldQ : (s.tickFree).coldQ = s.coldQ := rfl
@[simp] theorem State.tickFree_resuming : (s.tickFree).resuming = s.resuming := rfl
@[simp] theorem State.tickFree_restoring : (s.tickFree).restoring = s.restoring := rfl
@[simp] theorem State.tickFree_coldGen : (s.tickFree).coldGen = s.coldGen := rfl
@[simp] theorem State.tickFree_coldBytes : (s.tickFree).coldBytes = s.coldBytes := rfl
@[simp] theorem State.tickFree_vchans : (s.tickFree).vchans = s.vchans := rfl
@[simp] theorem State.tickFree_shuttles : (s.tickFree).shuttles = s.shuttles := rfl
@[simp] theorem State.tickFree_cbSeen : (s.tickFree).cbSeen = s.cbSeen := rfl
@[simp] theorem State.tickFree_cbNext : (s.tickFree).cbNext = s.cbNext := rfl
@[simp] theorem State.tickFree_meters : (s.tickFree).meters = s.meters := rfl
@[simp] theorem State.tickFree_qps : (s.tickFree).qps = s.qps := rfl
@[simp] theorem State.tickFree_sessions : (s.tickFree).sessions = s.sessions := rfl
@[simp] theorem State.tickFree_nextSess : (s.tickFree).nextSess = s.nextSess := rfl
@[simp] theorem State.tickFree_reasm : (s.tickFree).reasm = s.reasm := rfl
@[simp] theorem State.tickFree_inbox : (s.tickFree).inbox = s.inbox := rfl
@[simp] theorem State.tickFree_rdmaIn : (s.tickFree).rdmaIn = s.rdmaIn := rfl
@[simp] theorem State.tickFree_cnpIn : (s.tickFree).cnpIn = s.cnpIn := rfl
@[simp] theorem State.tickFree_ptpIn : (s.tickFree).ptpIn = s.ptpIn := rfl
@[simp] theorem State.tickFree_links : (s.tickFree).links = s.links := rfl
@[simp] theorem State.tickFree_landings : (s.tickFree).landings = s.landings := rfl
@[simp] theorem State.tickFree_txCredits : (s.tickFree).txCredits = s.txCredits := rfl
@[simp] theorem State.tickFree_epochAt : (s.tickFree).epochAt = s.epochAt := rfl
@[simp] theorem State.tickFree_barriers : (s.tickFree).barriers = s.barriers := rfl
@[simp] theorem State.tickFree_waitArrive : (s.tickFree).waitArrive = s.waitArrive := rfl
@[simp] theorem State.tickFree_pair : (s.tickFree).pair = s.pair := rfl
@[simp] theorem State.tickFree_heldOut : (s.tickFree).heldOut = s.heldOut := rfl
@[simp] theorem State.tickFree_out : (s.tickFree).out = s.out := rfl
@[simp] theorem State.tickFree_trigs : (s.tickFree).trigs = s.trigs := rfl
@[simp] theorem State.tickFree_trigFifo : (s.tickFree).trigFifo = s.trigFifo := rfl
@[simp] theorem State.tickFree_lastEdge : (s.tickFree).lastEdge = s.lastEdge := rfl
@[simp] theorem State.tickFree_verdictQ : (s.tickFree).verdictQ = s.verdictQ := rfl
@[simp] theorem State.tickFree_linePend : (s.tickFree).linePend = s.linePend := rfl
@[simp] theorem State.tickFree_pins : (s.tickFree).pins = s.pins := rfl
@[simp] theorem State.tickFree_power : (s.tickFree).power = s.power := rfl
@[simp] theorem State.tickFree_gated : (s.tickFree).gated = s.gated := rfl
@[simp] theorem State.tickFree_thimble : (s.tickFree).thimble = s.thimble := rfl
@[simp] theorem State.tickFree_teardowns : (s.tickFree).teardowns = s.teardowns := rfl
@[simp] theorem State.tickFree_tdFree : (s.tickFree).tdFree = s.tdFree := rfl
@[simp] theorem State.tickFree_attest : (s.tickFree).attest = s.attest := rfl
@[simp] theorem State.tickFree_issued : (s.tickFree).issued = s.issued := rfl
@[simp] theorem State.tickFree_tampered : (s.tickFree).tampered = s.tampered := rfl
@[simp] theorem State.tickFree_keysOk : (s.tickFree).keysOk = s.keysOk := rfl
@[simp] theorem State.tickFree_slotId : (s.tickFree).slotId = s.slotId := rfl
@[simp] theorem State.tickFree_repeats : (s.tickFree).repeats = s.repeats := rfl
@[simp] theorem State.tickFree_reports : (s.tickFree).reports = s.reports := rfl
@[simp] theorem State.tickFree_test : (s.tickFree).test = s.test := rfl
@[simp] theorem State.tickFree_testNext : (s.tickFree).testNext = s.testNext := rfl
@[simp] theorem State.tickFree_testAt : (s.tickFree).testAt = s.testAt := rfl
@[simp] theorem State.tickFree_resets : (s.tickFree).resets = s.resets := rfl
@[simp] theorem State.tickFree_busyAt : (s.tickFree).busyAt = s.busyAt := rfl
@[simp] theorem State.tickFree_traces : (s.tickFree).traces = s.traces := rfl
@[simp] theorem State.tickFree_trcDropped : (s.tickFree).trcDropped = s.trcDropped := rfl
@[simp] theorem State.tickFree_wdStart : (s.tickFree).wdStart = s.wdStart := rfl
@[simp] theorem State.tickFree_wdKicked : (s.tickFree).wdKicked = s.wdKicked := rfl
@[simp] theorem State.tickFree_wdMark : (s.tickFree).wdMark = s.wdMark := rfl
@[simp] theorem State.tickFree_smpLast : (s.tickFree).smpLast = s.smpLast := rfl
@[simp] theorem State.tickFree_smpCount : (s.tickFree).smpCount = s.smpCount := rfl
@[simp] theorem State.tickFree_frozen : (s.tickFree).frozen = s.frozen := rfl
@[simp] theorem State.tickFree_stopAt : (s.tickFree).stopAt = s.stopAt := rfl
@[simp] theorem State.tickFree_store : (s.tickFree).store = s.store := rfl
@[simp] theorem State.tickFree_calNext : (s.tickFree).calNext = s.calNext := rfl

/-! `State.answer` -/

@[simp] theorem State.answer_pending (v : Nat) : (s.answer v).pending = s.pending := rfl
@[simp] theorem State.answer_serial (v : Nat) : (s.answer v).serial = s.serial := rfl
@[simp] theorem State.answer_fabric (v : Nat) : (s.answer v).fabric = s.fabric := rfl
@[simp] theorem State.answer_regs (v : Nat) : (s.answer v).regs = s.regs := rfl
@[simp] theorem State.answer_mem (v : Nat) : (s.answer v).mem = s.mem := rfl
@[simp] theorem State.answer_keyTag (v : Nat) : (s.answer v).keyTag = s.keyTag := rfl
@[simp] theorem State.answer_badLines (v : Nat) : (s.answer v).badLines = s.badLines := rfl
@[simp] theorem State.answer_pprRows (v : Nat) : (s.answer v).pprRows = s.pprRows := rfl
@[simp] theorem State.answer_clearing (v : Nat) : (s.answer v).clearing = s.clearing := rfl
@[simp] theorem State.answer_memWaits (v : Nat) : (s.answer v).memWaits = s.memWaits := rfl
@[simp] theorem State.answer_scrubAt (v : Nat) : (s.answer v).scrubAt = s.scrubAt := rfl
@[simp] theorem State.answer_free (v : Nat) : (s.answer v).free = s.free := rfl
@[simp] theorem State.answer_tb (v : Nat) : (s.answer v).tb = s.tb := rfl
@[simp] theorem State.answer_events (v : Nat) : (s.answer v).events = s.events := rfl
@[simp] theorem State.answer_eaNext (v : Nat) : (s.answer v).eaNext = s.eaNext := rfl
@[simp] theorem State.answer_eaLast (v : Nat) : (s.answer v).eaLast = s.eaLast := rfl
@[simp] theorem State.answer_tracked (v : Nat) : (s.answer v).tracked = s.tracked := rfl
@[simp] theorem State.answer_recQ (v : Nat) : (s.answer v).recQ = s.recQ := rfl
@[simp] theorem State.answer_traceHold (v : Nat) : (s.answer v).traceHold = s.traceHold := rfl
@[simp] theorem State.answer_nextSlot (v : Nat) : (s.answer v).nextSlot = s.nextSlot := rfl
@[simp] theorem State.answer_chans (v : Nat) : (s.answer v).chans = s.chans := rfl
@[simp] theorem State.answer_lingering (v : Nat) : (s.answer v).lingering = s.lingering := rfl
@[simp] theorem State.answer_settling (v : Nat) : (s.answer v).settling = s.settling := rfl
@[simp] theorem State.answer_queues (v : Nat) : (s.answer v).queues = s.queues := rfl
@[simp] theorem State.answer_wrrAt (v : Nat) : (s.answer v).wrrAt = s.wrrAt := rfl
@[simp] theorem State.answer_mapCe (v : Nat) : (s.answer v).mapCe = s.mapCe := rfl
@[simp] theorem State.answer_mapDe (v : Nat) : (s.answer v).mapDe = s.mapDe := rfl
@[simp] theorem State.answer_abort (v : Nat) : (s.answer v).abort = s.abort := rfl
@[simp] theorem State.answer_tasks (v : Nat) : (s.answer v).tasks = s.tasks := rfl
@[simp] theorem State.answer_nextTask (v : Nat) : (s.answer v).nextTask = s.nextTask := rfl
@[simp] theorem State.answer_facets (v : Nat) : (s.answer v).facets = s.facets := rfl
@[simp] theorem State.answer_facetBank (v : Nat) : (s.answer v).facetBank = s.facetBank := rfl
@[simp] theorem State.answer_bobbin (v : Nat) : (s.answer v).bobbin = s.bobbin := rfl
@[simp] theorem State.answer_flushes (v : Nat) : (s.answer v).flushes = s.flushes := rfl
@[simp] theorem State.answer_poolWaits (v : Nat) : (s.answer v).poolWaits = s.poolWaits := rfl
@[simp] theorem State.answer_seqUsed (v : Nat) : (s.answer v).seqUsed = s.seqUsed := rfl
@[simp] theorem State.answer_classInit (v : Nat) : (s.answer v).classInit = s.classInit := rfl
@[simp] theorem State.answer_retired (v : Nat) : (s.answer v).retired = s.retired := rfl
@[simp] theorem State.answer_samp (v : Nat) : (s.answer v).samp = s.samp := rfl
@[simp] theorem State.answer_cancels (v : Nat) : (s.answer v).cancels = s.cancels := rfl
@[simp] theorem State.answer_cancelled (v : Nat) : (s.answer v).cancelled = s.cancelled := rfl
@[simp] theorem State.answer_cancelDue (v : Nat) : (s.answer v).cancelDue = s.cancelDue := rfl
@[simp] theorem State.answer_requests (v : Nat) : (s.answer v).requests = s.requests := rfl
@[simp] theorem State.answer_nextReq (v : Nat) : (s.answer v).nextReq = s.nextReq := rfl
@[simp] theorem State.answer_clientOps (v : Nat) : (s.answer v).clientOps = s.clientOps := rfl
@[simp] theorem State.answer_duePauses (v : Nat) : (s.answer v).duePauses = s.duePauses := rfl
@[simp] theorem State.answer_images (v : Nat) : (s.answer v).images = s.images := rfl
@[simp] theorem State.answer_oldImages (v : Nat) : (s.answer v).oldImages = s.oldImages := rfl
@[simp] theorem State.answer_coldQ (v : Nat) : (s.answer v).coldQ = s.coldQ := rfl
@[simp] theorem State.answer_resuming (v : Nat) : (s.answer v).resuming = s.resuming := rfl
@[simp] theorem State.answer_restoring (v : Nat) : (s.answer v).restoring = s.restoring := rfl
@[simp] theorem State.answer_coldGen (v : Nat) : (s.answer v).coldGen = s.coldGen := rfl
@[simp] theorem State.answer_coldBytes (v : Nat) : (s.answer v).coldBytes = s.coldBytes := rfl
@[simp] theorem State.answer_vchans (v : Nat) : (s.answer v).vchans = s.vchans := rfl
@[simp] theorem State.answer_shuttles (v : Nat) : (s.answer v).shuttles = s.shuttles := rfl
@[simp] theorem State.answer_cbSeen (v : Nat) : (s.answer v).cbSeen = s.cbSeen := rfl
@[simp] theorem State.answer_cbNext (v : Nat) : (s.answer v).cbNext = s.cbNext := rfl
@[simp] theorem State.answer_meters (v : Nat) : (s.answer v).meters = s.meters := rfl
@[simp] theorem State.answer_qps (v : Nat) : (s.answer v).qps = s.qps := rfl
@[simp] theorem State.answer_sessions (v : Nat) : (s.answer v).sessions = s.sessions := rfl
@[simp] theorem State.answer_nextSess (v : Nat) : (s.answer v).nextSess = s.nextSess := rfl
@[simp] theorem State.answer_reasm (v : Nat) : (s.answer v).reasm = s.reasm := rfl
@[simp] theorem State.answer_inbox (v : Nat) : (s.answer v).inbox = s.inbox := rfl
@[simp] theorem State.answer_rdmaIn (v : Nat) : (s.answer v).rdmaIn = s.rdmaIn := rfl
@[simp] theorem State.answer_cnpIn (v : Nat) : (s.answer v).cnpIn = s.cnpIn := rfl
@[simp] theorem State.answer_ptpIn (v : Nat) : (s.answer v).ptpIn = s.ptpIn := rfl
@[simp] theorem State.answer_links (v : Nat) : (s.answer v).links = s.links := rfl
@[simp] theorem State.answer_landings (v : Nat) : (s.answer v).landings = s.landings := rfl
@[simp] theorem State.answer_txCredits (v : Nat) : (s.answer v).txCredits = s.txCredits := rfl
@[simp] theorem State.answer_epochAt (v : Nat) : (s.answer v).epochAt = s.epochAt := rfl
@[simp] theorem State.answer_barriers (v : Nat) : (s.answer v).barriers = s.barriers := rfl
@[simp] theorem State.answer_waitArrive (v : Nat) : (s.answer v).waitArrive = s.waitArrive := rfl
@[simp] theorem State.answer_pair (v : Nat) : (s.answer v).pair = s.pair := rfl
@[simp] theorem State.answer_heldOut (v : Nat) : (s.answer v).heldOut = s.heldOut := rfl
@[simp] theorem State.answer_out (v : Nat) : (s.answer v).out = s.out := rfl
@[simp] theorem State.answer_trigs (v : Nat) : (s.answer v).trigs = s.trigs := rfl
@[simp] theorem State.answer_trigFifo (v : Nat) : (s.answer v).trigFifo = s.trigFifo := rfl
@[simp] theorem State.answer_lastEdge (v : Nat) : (s.answer v).lastEdge = s.lastEdge := rfl
@[simp] theorem State.answer_verdictQ (v : Nat) : (s.answer v).verdictQ = s.verdictQ := rfl
@[simp] theorem State.answer_linePend (v : Nat) : (s.answer v).linePend = s.linePend := rfl
@[simp] theorem State.answer_pins (v : Nat) : (s.answer v).pins = s.pins := rfl
@[simp] theorem State.answer_power (v : Nat) : (s.answer v).power = s.power := rfl
@[simp] theorem State.answer_gated (v : Nat) : (s.answer v).gated = s.gated := rfl
@[simp] theorem State.answer_thimble (v : Nat) : (s.answer v).thimble = s.thimble := rfl
@[simp] theorem State.answer_teardowns (v : Nat) : (s.answer v).teardowns = s.teardowns := rfl
@[simp] theorem State.answer_tdFree (v : Nat) : (s.answer v).tdFree = s.tdFree := rfl
@[simp] theorem State.answer_attest (v : Nat) : (s.answer v).attest = s.attest := rfl
@[simp] theorem State.answer_issued (v : Nat) : (s.answer v).issued = s.issued := rfl
@[simp] theorem State.answer_tampered (v : Nat) : (s.answer v).tampered = s.tampered := rfl
@[simp] theorem State.answer_keysOk (v : Nat) : (s.answer v).keysOk = s.keysOk := rfl
@[simp] theorem State.answer_slotId (v : Nat) : (s.answer v).slotId = s.slotId := rfl
@[simp] theorem State.answer_repeats (v : Nat) : (s.answer v).repeats = s.repeats := rfl
@[simp] theorem State.answer_reports (v : Nat) : (s.answer v).reports = s.reports := rfl
@[simp] theorem State.answer_test (v : Nat) : (s.answer v).test = s.test := rfl
@[simp] theorem State.answer_testNext (v : Nat) : (s.answer v).testNext = s.testNext := rfl
@[simp] theorem State.answer_testAt (v : Nat) : (s.answer v).testAt = s.testAt := rfl
@[simp] theorem State.answer_resets (v : Nat) : (s.answer v).resets = s.resets := rfl
@[simp] theorem State.answer_busyAt (v : Nat) : (s.answer v).busyAt = s.busyAt := rfl
@[simp] theorem State.answer_traces (v : Nat) : (s.answer v).traces = s.traces := rfl
@[simp] theorem State.answer_trcDropped (v : Nat) : (s.answer v).trcDropped = s.trcDropped := rfl
@[simp] theorem State.answer_wdStart (v : Nat) : (s.answer v).wdStart = s.wdStart := rfl
@[simp] theorem State.answer_wdKicked (v : Nat) : (s.answer v).wdKicked = s.wdKicked := rfl
@[simp] theorem State.answer_wdMark (v : Nat) : (s.answer v).wdMark = s.wdMark := rfl
@[simp] theorem State.answer_smpLast (v : Nat) : (s.answer v).smpLast = s.smpLast := rfl
@[simp] theorem State.answer_smpCount (v : Nat) : (s.answer v).smpCount = s.smpCount := rfl
@[simp] theorem State.answer_frozen (v : Nat) : (s.answer v).frozen = s.frozen := rfl
@[simp] theorem State.answer_stopAt (v : Nat) : (s.answer v).stopAt = s.stopAt := rfl
@[simp] theorem State.answer_store (v : Nat) : (s.answer v).store = s.store := rfl
@[simp] theorem State.answer_calNext (v : Nat) : (s.answer v).calNext = s.calNext := rfl

/-! `State.emit` -/

@[simp] theorem State.emit_pending (e : Emit) : (s.emit e).pending = s.pending := rfl
@[simp] theorem State.emit_serial (e : Emit) : (s.emit e).serial = s.serial := rfl
@[simp] theorem State.emit_fabric (e : Emit) : (s.emit e).fabric = s.fabric := rfl
@[simp] theorem State.emit_regs (e : Emit) : (s.emit e).regs = s.regs := rfl
@[simp] theorem State.emit_mem (e : Emit) : (s.emit e).mem = s.mem := rfl
@[simp] theorem State.emit_keyTag (e : Emit) : (s.emit e).keyTag = s.keyTag := rfl
@[simp] theorem State.emit_badLines (e : Emit) : (s.emit e).badLines = s.badLines := rfl
@[simp] theorem State.emit_pprRows (e : Emit) : (s.emit e).pprRows = s.pprRows := rfl
@[simp] theorem State.emit_clearing (e : Emit) : (s.emit e).clearing = s.clearing := rfl
@[simp] theorem State.emit_memWaits (e : Emit) : (s.emit e).memWaits = s.memWaits := rfl
@[simp] theorem State.emit_scrubAt (e : Emit) : (s.emit e).scrubAt = s.scrubAt := rfl
@[simp] theorem State.emit_busData (e : Emit) : (s.emit e).busData = s.busData := rfl
@[simp] theorem State.emit_busErr (e : Emit) : (s.emit e).busErr = s.busErr := rfl
@[simp] theorem State.emit_free (e : Emit) : (s.emit e).free = s.free := rfl
@[simp] theorem State.emit_tb (e : Emit) : (s.emit e).tb = s.tb := rfl
@[simp] theorem State.emit_events (e : Emit) : (s.emit e).events = s.events := rfl
@[simp] theorem State.emit_eaNext (e : Emit) : (s.emit e).eaNext = s.eaNext := rfl
@[simp] theorem State.emit_eaLast (e : Emit) : (s.emit e).eaLast = s.eaLast := rfl
@[simp] theorem State.emit_tracked (e : Emit) : (s.emit e).tracked = s.tracked := rfl
@[simp] theorem State.emit_recQ (e : Emit) : (s.emit e).recQ = s.recQ := rfl
@[simp] theorem State.emit_traceHold (e : Emit) : (s.emit e).traceHold = s.traceHold := rfl
@[simp] theorem State.emit_nextSlot (e : Emit) : (s.emit e).nextSlot = s.nextSlot := rfl
@[simp] theorem State.emit_chans (e : Emit) : (s.emit e).chans = s.chans := rfl
@[simp] theorem State.emit_lingering (e : Emit) : (s.emit e).lingering = s.lingering := rfl
@[simp] theorem State.emit_settling (e : Emit) : (s.emit e).settling = s.settling := rfl
@[simp] theorem State.emit_queues (e : Emit) : (s.emit e).queues = s.queues := rfl
@[simp] theorem State.emit_wrrAt (e : Emit) : (s.emit e).wrrAt = s.wrrAt := rfl
@[simp] theorem State.emit_mapCe (e : Emit) : (s.emit e).mapCe = s.mapCe := rfl
@[simp] theorem State.emit_mapDe (e : Emit) : (s.emit e).mapDe = s.mapDe := rfl
@[simp] theorem State.emit_abort (e : Emit) : (s.emit e).abort = s.abort := rfl
@[simp] theorem State.emit_tasks (e : Emit) : (s.emit e).tasks = s.tasks := rfl
@[simp] theorem State.emit_nextTask (e : Emit) : (s.emit e).nextTask = s.nextTask := rfl
@[simp] theorem State.emit_facets (e : Emit) : (s.emit e).facets = s.facets := rfl
@[simp] theorem State.emit_facetBank (e : Emit) : (s.emit e).facetBank = s.facetBank := rfl
@[simp] theorem State.emit_bobbin (e : Emit) : (s.emit e).bobbin = s.bobbin := rfl
@[simp] theorem State.emit_flushes (e : Emit) : (s.emit e).flushes = s.flushes := rfl
@[simp] theorem State.emit_poolWaits (e : Emit) : (s.emit e).poolWaits = s.poolWaits := rfl
@[simp] theorem State.emit_seqUsed (e : Emit) : (s.emit e).seqUsed = s.seqUsed := rfl
@[simp] theorem State.emit_classInit (e : Emit) : (s.emit e).classInit = s.classInit := rfl
@[simp] theorem State.emit_retired (e : Emit) : (s.emit e).retired = s.retired := rfl
@[simp] theorem State.emit_samp (e : Emit) : (s.emit e).samp = s.samp := rfl
@[simp] theorem State.emit_cancels (e : Emit) : (s.emit e).cancels = s.cancels := rfl
@[simp] theorem State.emit_cancelled (e : Emit) : (s.emit e).cancelled = s.cancelled := rfl
@[simp] theorem State.emit_cancelDue (e : Emit) : (s.emit e).cancelDue = s.cancelDue := rfl
@[simp] theorem State.emit_requests (e : Emit) : (s.emit e).requests = s.requests := rfl
@[simp] theorem State.emit_nextReq (e : Emit) : (s.emit e).nextReq = s.nextReq := rfl
@[simp] theorem State.emit_clientOps (e : Emit) : (s.emit e).clientOps = s.clientOps := rfl
@[simp] theorem State.emit_duePauses (e : Emit) : (s.emit e).duePauses = s.duePauses := rfl
@[simp] theorem State.emit_images (e : Emit) : (s.emit e).images = s.images := rfl
@[simp] theorem State.emit_oldImages (e : Emit) : (s.emit e).oldImages = s.oldImages := rfl
@[simp] theorem State.emit_coldQ (e : Emit) : (s.emit e).coldQ = s.coldQ := rfl
@[simp] theorem State.emit_resuming (e : Emit) : (s.emit e).resuming = s.resuming := rfl
@[simp] theorem State.emit_restoring (e : Emit) : (s.emit e).restoring = s.restoring := rfl
@[simp] theorem State.emit_coldGen (e : Emit) : (s.emit e).coldGen = s.coldGen := rfl
@[simp] theorem State.emit_coldBytes (e : Emit) : (s.emit e).coldBytes = s.coldBytes := rfl
@[simp] theorem State.emit_vchans (e : Emit) : (s.emit e).vchans = s.vchans := rfl
@[simp] theorem State.emit_shuttles (e : Emit) : (s.emit e).shuttles = s.shuttles := rfl
@[simp] theorem State.emit_cbSeen (e : Emit) : (s.emit e).cbSeen = s.cbSeen := rfl
@[simp] theorem State.emit_cbNext (e : Emit) : (s.emit e).cbNext = s.cbNext := rfl
@[simp] theorem State.emit_meters (e : Emit) : (s.emit e).meters = s.meters := rfl
@[simp] theorem State.emit_qps (e : Emit) : (s.emit e).qps = s.qps := rfl
@[simp] theorem State.emit_sessions (e : Emit) : (s.emit e).sessions = s.sessions := rfl
@[simp] theorem State.emit_nextSess (e : Emit) : (s.emit e).nextSess = s.nextSess := rfl
@[simp] theorem State.emit_reasm (e : Emit) : (s.emit e).reasm = s.reasm := rfl
@[simp] theorem State.emit_inbox (e : Emit) : (s.emit e).inbox = s.inbox := rfl
@[simp] theorem State.emit_rdmaIn (e : Emit) : (s.emit e).rdmaIn = s.rdmaIn := rfl
@[simp] theorem State.emit_cnpIn (e : Emit) : (s.emit e).cnpIn = s.cnpIn := rfl
@[simp] theorem State.emit_ptpIn (e : Emit) : (s.emit e).ptpIn = s.ptpIn := rfl
@[simp] theorem State.emit_links (e : Emit) : (s.emit e).links = s.links := rfl
@[simp] theorem State.emit_landings (e : Emit) : (s.emit e).landings = s.landings := rfl
@[simp] theorem State.emit_txCredits (e : Emit) : (s.emit e).txCredits = s.txCredits := rfl
@[simp] theorem State.emit_epochAt (e : Emit) : (s.emit e).epochAt = s.epochAt := rfl
@[simp] theorem State.emit_barriers (e : Emit) : (s.emit e).barriers = s.barriers := rfl
@[simp] theorem State.emit_waitArrive (e : Emit) : (s.emit e).waitArrive = s.waitArrive := rfl
@[simp] theorem State.emit_pair (e : Emit) : (s.emit e).pair = s.pair := rfl
@[simp] theorem State.emit_heldOut (e : Emit) : (s.emit e).heldOut = s.heldOut := rfl
@[simp] theorem State.emit_trigs (e : Emit) : (s.emit e).trigs = s.trigs := rfl
@[simp] theorem State.emit_trigFifo (e : Emit) : (s.emit e).trigFifo = s.trigFifo := rfl
@[simp] theorem State.emit_lastEdge (e : Emit) : (s.emit e).lastEdge = s.lastEdge := rfl
@[simp] theorem State.emit_verdictQ (e : Emit) : (s.emit e).verdictQ = s.verdictQ := rfl
@[simp] theorem State.emit_linePend (e : Emit) : (s.emit e).linePend = s.linePend := rfl
@[simp] theorem State.emit_pins (e : Emit) : (s.emit e).pins = s.pins := rfl
@[simp] theorem State.emit_power (e : Emit) : (s.emit e).power = s.power := rfl
@[simp] theorem State.emit_gated (e : Emit) : (s.emit e).gated = s.gated := rfl
@[simp] theorem State.emit_thimble (e : Emit) : (s.emit e).thimble = s.thimble := rfl
@[simp] theorem State.emit_teardowns (e : Emit) : (s.emit e).teardowns = s.teardowns := rfl
@[simp] theorem State.emit_tdFree (e : Emit) : (s.emit e).tdFree = s.tdFree := rfl
@[simp] theorem State.emit_attest (e : Emit) : (s.emit e).attest = s.attest := rfl
@[simp] theorem State.emit_issued (e : Emit) : (s.emit e).issued = s.issued := rfl
@[simp] theorem State.emit_tampered (e : Emit) : (s.emit e).tampered = s.tampered := rfl
@[simp] theorem State.emit_keysOk (e : Emit) : (s.emit e).keysOk = s.keysOk := rfl
@[simp] theorem State.emit_slotId (e : Emit) : (s.emit e).slotId = s.slotId := rfl
@[simp] theorem State.emit_repeats (e : Emit) : (s.emit e).repeats = s.repeats := rfl
@[simp] theorem State.emit_reports (e : Emit) : (s.emit e).reports = s.reports := rfl
@[simp] theorem State.emit_test (e : Emit) : (s.emit e).test = s.test := rfl
@[simp] theorem State.emit_testNext (e : Emit) : (s.emit e).testNext = s.testNext := rfl
@[simp] theorem State.emit_testAt (e : Emit) : (s.emit e).testAt = s.testAt := rfl
@[simp] theorem State.emit_resets (e : Emit) : (s.emit e).resets = s.resets := rfl
@[simp] theorem State.emit_busyAt (e : Emit) : (s.emit e).busyAt = s.busyAt := rfl
@[simp] theorem State.emit_traces (e : Emit) : (s.emit e).traces = s.traces := rfl
@[simp] theorem State.emit_trcDropped (e : Emit) : (s.emit e).trcDropped = s.trcDropped := rfl
@[simp] theorem State.emit_wdStart (e : Emit) : (s.emit e).wdStart = s.wdStart := rfl
@[simp] theorem State.emit_wdKicked (e : Emit) : (s.emit e).wdKicked = s.wdKicked := rfl
@[simp] theorem State.emit_wdMark (e : Emit) : (s.emit e).wdMark = s.wdMark := rfl
@[simp] theorem State.emit_smpLast (e : Emit) : (s.emit e).smpLast = s.smpLast := rfl
@[simp] theorem State.emit_smpCount (e : Emit) : (s.emit e).smpCount = s.smpCount := rfl
@[simp] theorem State.emit_frozen (e : Emit) : (s.emit e).frozen = s.frozen := rfl
@[simp] theorem State.emit_stopAt (e : Emit) : (s.emit e).stopAt = s.stopAt := rfl
@[simp] theorem State.emit_store (e : Emit) : (s.emit e).store = s.store := rfl
@[simp] theorem State.emit_calNext (e : Emit) : (s.emit e).calNext = s.calNext := rfl

/-! `State.setCmd` -/

@[simp] theorem State.setCmd_pending (t : Tracked) : (s.setCmd t).pending = s.pending := rfl
@[simp] theorem State.setCmd_serial (t : Tracked) : (s.setCmd t).serial = s.serial := rfl
@[simp] theorem State.setCmd_fabric (t : Tracked) : (s.setCmd t).fabric = s.fabric := rfl
@[simp] theorem State.setCmd_regs (t : Tracked) : (s.setCmd t).regs = s.regs := rfl
@[simp] theorem State.setCmd_mem (t : Tracked) : (s.setCmd t).mem = s.mem := rfl
@[simp] theorem State.setCmd_keyTag (t : Tracked) : (s.setCmd t).keyTag = s.keyTag := rfl
@[simp] theorem State.setCmd_badLines (t : Tracked) : (s.setCmd t).badLines = s.badLines := rfl
@[simp] theorem State.setCmd_pprRows (t : Tracked) : (s.setCmd t).pprRows = s.pprRows := rfl
@[simp] theorem State.setCmd_clearing (t : Tracked) : (s.setCmd t).clearing = s.clearing := rfl
@[simp] theorem State.setCmd_memWaits (t : Tracked) : (s.setCmd t).memWaits = s.memWaits := rfl
@[simp] theorem State.setCmd_scrubAt (t : Tracked) : (s.setCmd t).scrubAt = s.scrubAt := rfl
@[simp] theorem State.setCmd_busData (t : Tracked) : (s.setCmd t).busData = s.busData := rfl
@[simp] theorem State.setCmd_busErr (t : Tracked) : (s.setCmd t).busErr = s.busErr := rfl
@[simp] theorem State.setCmd_free (t : Tracked) : (s.setCmd t).free = s.free := rfl
@[simp] theorem State.setCmd_tb (t : Tracked) : (s.setCmd t).tb = s.tb := rfl
@[simp] theorem State.setCmd_events (t : Tracked) : (s.setCmd t).events = s.events := rfl
@[simp] theorem State.setCmd_eaNext (t : Tracked) : (s.setCmd t).eaNext = s.eaNext := rfl
@[simp] theorem State.setCmd_eaLast (t : Tracked) : (s.setCmd t).eaLast = s.eaLast := rfl
@[simp] theorem State.setCmd_recQ (t : Tracked) : (s.setCmd t).recQ = s.recQ := rfl
@[simp] theorem State.setCmd_traceHold (t : Tracked) : (s.setCmd t).traceHold = s.traceHold := rfl
@[simp] theorem State.setCmd_nextSlot (t : Tracked) : (s.setCmd t).nextSlot = s.nextSlot := rfl
@[simp] theorem State.setCmd_chans (t : Tracked) : (s.setCmd t).chans = s.chans := rfl
@[simp] theorem State.setCmd_lingering (t : Tracked) : (s.setCmd t).lingering = s.lingering := rfl
@[simp] theorem State.setCmd_settling (t : Tracked) : (s.setCmd t).settling = s.settling := rfl
@[simp] theorem State.setCmd_queues (t : Tracked) : (s.setCmd t).queues = s.queues := rfl
@[simp] theorem State.setCmd_wrrAt (t : Tracked) : (s.setCmd t).wrrAt = s.wrrAt := rfl
@[simp] theorem State.setCmd_mapCe (t : Tracked) : (s.setCmd t).mapCe = s.mapCe := rfl
@[simp] theorem State.setCmd_mapDe (t : Tracked) : (s.setCmd t).mapDe = s.mapDe := rfl
@[simp] theorem State.setCmd_abort (t : Tracked) : (s.setCmd t).abort = s.abort := rfl
@[simp] theorem State.setCmd_tasks (t : Tracked) : (s.setCmd t).tasks = s.tasks := rfl
@[simp] theorem State.setCmd_nextTask (t : Tracked) : (s.setCmd t).nextTask = s.nextTask := rfl
@[simp] theorem State.setCmd_facets (t : Tracked) : (s.setCmd t).facets = s.facets := rfl
@[simp] theorem State.setCmd_facetBank (t : Tracked) : (s.setCmd t).facetBank = s.facetBank := rfl
@[simp] theorem State.setCmd_bobbin (t : Tracked) : (s.setCmd t).bobbin = s.bobbin := rfl
@[simp] theorem State.setCmd_flushes (t : Tracked) : (s.setCmd t).flushes = s.flushes := rfl
@[simp] theorem State.setCmd_poolWaits (t : Tracked) : (s.setCmd t).poolWaits = s.poolWaits := rfl
@[simp] theorem State.setCmd_seqUsed (t : Tracked) : (s.setCmd t).seqUsed = s.seqUsed := rfl
@[simp] theorem State.setCmd_classInit (t : Tracked) : (s.setCmd t).classInit = s.classInit := rfl
@[simp] theorem State.setCmd_retired (t : Tracked) : (s.setCmd t).retired = s.retired := rfl
@[simp] theorem State.setCmd_samp (t : Tracked) : (s.setCmd t).samp = s.samp := rfl
@[simp] theorem State.setCmd_cancels (t : Tracked) : (s.setCmd t).cancels = s.cancels := rfl
@[simp] theorem State.setCmd_cancelled (t : Tracked) : (s.setCmd t).cancelled = s.cancelled := rfl
@[simp] theorem State.setCmd_cancelDue (t : Tracked) : (s.setCmd t).cancelDue = s.cancelDue := rfl
@[simp] theorem State.setCmd_requests (t : Tracked) : (s.setCmd t).requests = s.requests := rfl
@[simp] theorem State.setCmd_nextReq (t : Tracked) : (s.setCmd t).nextReq = s.nextReq := rfl
@[simp] theorem State.setCmd_clientOps (t : Tracked) : (s.setCmd t).clientOps = s.clientOps := rfl
@[simp] theorem State.setCmd_duePauses (t : Tracked) : (s.setCmd t).duePauses = s.duePauses := rfl
@[simp] theorem State.setCmd_images (t : Tracked) : (s.setCmd t).images = s.images := rfl
@[simp] theorem State.setCmd_oldImages (t : Tracked) : (s.setCmd t).oldImages = s.oldImages := rfl
@[simp] theorem State.setCmd_coldQ (t : Tracked) : (s.setCmd t).coldQ = s.coldQ := rfl
@[simp] theorem State.setCmd_resuming (t : Tracked) : (s.setCmd t).resuming = s.resuming := rfl
@[simp] theorem State.setCmd_restoring (t : Tracked) : (s.setCmd t).restoring = s.restoring := rfl
@[simp] theorem State.setCmd_coldGen (t : Tracked) : (s.setCmd t).coldGen = s.coldGen := rfl
@[simp] theorem State.setCmd_coldBytes (t : Tracked) : (s.setCmd t).coldBytes = s.coldBytes := rfl
@[simp] theorem State.setCmd_vchans (t : Tracked) : (s.setCmd t).vchans = s.vchans := rfl
@[simp] theorem State.setCmd_shuttles (t : Tracked) : (s.setCmd t).shuttles = s.shuttles := rfl
@[simp] theorem State.setCmd_cbSeen (t : Tracked) : (s.setCmd t).cbSeen = s.cbSeen := rfl
@[simp] theorem State.setCmd_cbNext (t : Tracked) : (s.setCmd t).cbNext = s.cbNext := rfl
@[simp] theorem State.setCmd_meters (t : Tracked) : (s.setCmd t).meters = s.meters := rfl
@[simp] theorem State.setCmd_qps (t : Tracked) : (s.setCmd t).qps = s.qps := rfl
@[simp] theorem State.setCmd_sessions (t : Tracked) : (s.setCmd t).sessions = s.sessions := rfl
@[simp] theorem State.setCmd_nextSess (t : Tracked) : (s.setCmd t).nextSess = s.nextSess := rfl
@[simp] theorem State.setCmd_reasm (t : Tracked) : (s.setCmd t).reasm = s.reasm := rfl
@[simp] theorem State.setCmd_inbox (t : Tracked) : (s.setCmd t).inbox = s.inbox := rfl
@[simp] theorem State.setCmd_rdmaIn (t : Tracked) : (s.setCmd t).rdmaIn = s.rdmaIn := rfl
@[simp] theorem State.setCmd_cnpIn (t : Tracked) : (s.setCmd t).cnpIn = s.cnpIn := rfl
@[simp] theorem State.setCmd_ptpIn (t : Tracked) : (s.setCmd t).ptpIn = s.ptpIn := rfl
@[simp] theorem State.setCmd_links (t : Tracked) : (s.setCmd t).links = s.links := rfl
@[simp] theorem State.setCmd_landings (t : Tracked) : (s.setCmd t).landings = s.landings := rfl
@[simp] theorem State.setCmd_txCredits (t : Tracked) : (s.setCmd t).txCredits = s.txCredits := rfl
@[simp] theorem State.setCmd_epochAt (t : Tracked) : (s.setCmd t).epochAt = s.epochAt := rfl
@[simp] theorem State.setCmd_barriers (t : Tracked) : (s.setCmd t).barriers = s.barriers := rfl
@[simp] theorem State.setCmd_waitArrive (t : Tracked) : (s.setCmd t).waitArrive = s.waitArrive := rfl
@[simp] theorem State.setCmd_pair (t : Tracked) : (s.setCmd t).pair = s.pair := rfl
@[simp] theorem State.setCmd_heldOut (t : Tracked) : (s.setCmd t).heldOut = s.heldOut := rfl
@[simp] theorem State.setCmd_out (t : Tracked) : (s.setCmd t).out = s.out := rfl
@[simp] theorem State.setCmd_trigs (t : Tracked) : (s.setCmd t).trigs = s.trigs := rfl
@[simp] theorem State.setCmd_trigFifo (t : Tracked) : (s.setCmd t).trigFifo = s.trigFifo := rfl
@[simp] theorem State.setCmd_lastEdge (t : Tracked) : (s.setCmd t).lastEdge = s.lastEdge := rfl
@[simp] theorem State.setCmd_verdictQ (t : Tracked) : (s.setCmd t).verdictQ = s.verdictQ := rfl
@[simp] theorem State.setCmd_linePend (t : Tracked) : (s.setCmd t).linePend = s.linePend := rfl
@[simp] theorem State.setCmd_pins (t : Tracked) : (s.setCmd t).pins = s.pins := rfl
@[simp] theorem State.setCmd_power (t : Tracked) : (s.setCmd t).power = s.power := rfl
@[simp] theorem State.setCmd_gated (t : Tracked) : (s.setCmd t).gated = s.gated := rfl
@[simp] theorem State.setCmd_thimble (t : Tracked) : (s.setCmd t).thimble = s.thimble := rfl
@[simp] theorem State.setCmd_teardowns (t : Tracked) : (s.setCmd t).teardowns = s.teardowns := rfl
@[simp] theorem State.setCmd_tdFree (t : Tracked) : (s.setCmd t).tdFree = s.tdFree := rfl
@[simp] theorem State.setCmd_attest (t : Tracked) : (s.setCmd t).attest = s.attest := rfl
@[simp] theorem State.setCmd_issued (t : Tracked) : (s.setCmd t).issued = s.issued := rfl
@[simp] theorem State.setCmd_tampered (t : Tracked) : (s.setCmd t).tampered = s.tampered := rfl
@[simp] theorem State.setCmd_keysOk (t : Tracked) : (s.setCmd t).keysOk = s.keysOk := rfl
@[simp] theorem State.setCmd_slotId (t : Tracked) : (s.setCmd t).slotId = s.slotId := rfl
@[simp] theorem State.setCmd_repeats (t : Tracked) : (s.setCmd t).repeats = s.repeats := rfl
@[simp] theorem State.setCmd_reports (t : Tracked) : (s.setCmd t).reports = s.reports := rfl
@[simp] theorem State.setCmd_test (t : Tracked) : (s.setCmd t).test = s.test := rfl
@[simp] theorem State.setCmd_testNext (t : Tracked) : (s.setCmd t).testNext = s.testNext := rfl
@[simp] theorem State.setCmd_testAt (t : Tracked) : (s.setCmd t).testAt = s.testAt := rfl
@[simp] theorem State.setCmd_resets (t : Tracked) : (s.setCmd t).resets = s.resets := rfl
@[simp] theorem State.setCmd_busyAt (t : Tracked) : (s.setCmd t).busyAt = s.busyAt := rfl
@[simp] theorem State.setCmd_traces (t : Tracked) : (s.setCmd t).traces = s.traces := rfl
@[simp] theorem State.setCmd_trcDropped (t : Tracked) : (s.setCmd t).trcDropped = s.trcDropped := rfl
@[simp] theorem State.setCmd_wdStart (t : Tracked) : (s.setCmd t).wdStart = s.wdStart := rfl
@[simp] theorem State.setCmd_wdKicked (t : Tracked) : (s.setCmd t).wdKicked = s.wdKicked := rfl
@[simp] theorem State.setCmd_wdMark (t : Tracked) : (s.setCmd t).wdMark = s.wdMark := rfl
@[simp] theorem State.setCmd_smpLast (t : Tracked) : (s.setCmd t).smpLast = s.smpLast := rfl
@[simp] theorem State.setCmd_smpCount (t : Tracked) : (s.setCmd t).smpCount = s.smpCount := rfl
@[simp] theorem State.setCmd_frozen (t : Tracked) : (s.setCmd t).frozen = s.frozen := rfl
@[simp] theorem State.setCmd_stopAt (t : Tracked) : (s.setCmd t).stopAt = s.stopAt := rfl
@[simp] theorem State.setCmd_store (t : Tracked) : (s.setCmd t).store = s.store := rfl
@[simp] theorem State.setCmd_calNext (t : Tracked) : (s.setCmd t).calNext = s.calNext := rfl

/-! `State.updCmd` -/

@[simp] theorem State.updCmd_pending (x : Nat) (f : Tracked → Tracked) : (s.updCmd x f).pending = s.pending := rfl
@[simp] theorem State.updCmd_serial (x : Nat) (f : Tracked → Tracked) : (s.updCmd x f).serial = s.serial := rfl
@[simp] theorem State.updCmd_fabric (x : Nat) (f : Tracked → Tracked) : (s.updCmd x f).fabric = s.fabric := rfl
@[simp] theorem State.updCmd_regs (x : Nat) (f : Tracked → Tracked) : (s.updCmd x f).regs = s.regs := rfl
@[simp] theorem State.updCmd_mem (x : Nat) (f : Tracked → Tracked) : (s.updCmd x f).mem = s.mem := rfl
@[simp] theorem State.updCmd_keyTag (x : Nat) (f : Tracked → Tracked) : (s.updCmd x f).keyTag = s.keyTag := rfl
@[simp] theorem State.updCmd_badLines (x : Nat) (f : Tracked → Tracked) : (s.updCmd x f).badLines = s.badLines := rfl
@[simp] theorem State.updCmd_pprRows (x : Nat) (f : Tracked → Tracked) : (s.updCmd x f).pprRows = s.pprRows := rfl
@[simp] theorem State.updCmd_clearing (x : Nat) (f : Tracked → Tracked) : (s.updCmd x f).clearing = s.clearing := rfl
@[simp] theorem State.updCmd_memWaits (x : Nat) (f : Tracked → Tracked) : (s.updCmd x f).memWaits = s.memWaits := rfl
@[simp] theorem State.updCmd_scrubAt (x : Nat) (f : Tracked → Tracked) : (s.updCmd x f).scrubAt = s.scrubAt := rfl
@[simp] theorem State.updCmd_busData (x : Nat) (f : Tracked → Tracked) : (s.updCmd x f).busData = s.busData := rfl
@[simp] theorem State.updCmd_busErr (x : Nat) (f : Tracked → Tracked) : (s.updCmd x f).busErr = s.busErr := rfl
@[simp] theorem State.updCmd_free (x : Nat) (f : Tracked → Tracked) : (s.updCmd x f).free = s.free := rfl
@[simp] theorem State.updCmd_tb (x : Nat) (f : Tracked → Tracked) : (s.updCmd x f).tb = s.tb := rfl
@[simp] theorem State.updCmd_events (x : Nat) (f : Tracked → Tracked) : (s.updCmd x f).events = s.events := rfl
@[simp] theorem State.updCmd_eaNext (x : Nat) (f : Tracked → Tracked) : (s.updCmd x f).eaNext = s.eaNext := rfl
@[simp] theorem State.updCmd_eaLast (x : Nat) (f : Tracked → Tracked) : (s.updCmd x f).eaLast = s.eaLast := rfl
@[simp] theorem State.updCmd_recQ (x : Nat) (f : Tracked → Tracked) : (s.updCmd x f).recQ = s.recQ := rfl
@[simp] theorem State.updCmd_traceHold (x : Nat) (f : Tracked → Tracked) : (s.updCmd x f).traceHold = s.traceHold := rfl
@[simp] theorem State.updCmd_nextSlot (x : Nat) (f : Tracked → Tracked) : (s.updCmd x f).nextSlot = s.nextSlot := rfl
@[simp] theorem State.updCmd_chans (x : Nat) (f : Tracked → Tracked) : (s.updCmd x f).chans = s.chans := rfl
@[simp] theorem State.updCmd_lingering (x : Nat) (f : Tracked → Tracked) : (s.updCmd x f).lingering = s.lingering := rfl
@[simp] theorem State.updCmd_settling (x : Nat) (f : Tracked → Tracked) : (s.updCmd x f).settling = s.settling := rfl
@[simp] theorem State.updCmd_queues (x : Nat) (f : Tracked → Tracked) : (s.updCmd x f).queues = s.queues := rfl
@[simp] theorem State.updCmd_wrrAt (x : Nat) (f : Tracked → Tracked) : (s.updCmd x f).wrrAt = s.wrrAt := rfl
@[simp] theorem State.updCmd_mapCe (x : Nat) (f : Tracked → Tracked) : (s.updCmd x f).mapCe = s.mapCe := rfl
@[simp] theorem State.updCmd_mapDe (x : Nat) (f : Tracked → Tracked) : (s.updCmd x f).mapDe = s.mapDe := rfl
@[simp] theorem State.updCmd_abort (x : Nat) (f : Tracked → Tracked) : (s.updCmd x f).abort = s.abort := rfl
@[simp] theorem State.updCmd_tasks (x : Nat) (f : Tracked → Tracked) : (s.updCmd x f).tasks = s.tasks := rfl
@[simp] theorem State.updCmd_nextTask (x : Nat) (f : Tracked → Tracked) : (s.updCmd x f).nextTask = s.nextTask := rfl
@[simp] theorem State.updCmd_facets (x : Nat) (f : Tracked → Tracked) : (s.updCmd x f).facets = s.facets := rfl
@[simp] theorem State.updCmd_facetBank (x : Nat) (f : Tracked → Tracked) : (s.updCmd x f).facetBank = s.facetBank := rfl
@[simp] theorem State.updCmd_bobbin (x : Nat) (f : Tracked → Tracked) : (s.updCmd x f).bobbin = s.bobbin := rfl
@[simp] theorem State.updCmd_flushes (x : Nat) (f : Tracked → Tracked) : (s.updCmd x f).flushes = s.flushes := rfl
@[simp] theorem State.updCmd_poolWaits (x : Nat) (f : Tracked → Tracked) : (s.updCmd x f).poolWaits = s.poolWaits := rfl
@[simp] theorem State.updCmd_seqUsed (x : Nat) (f : Tracked → Tracked) : (s.updCmd x f).seqUsed = s.seqUsed := rfl
@[simp] theorem State.updCmd_classInit (x : Nat) (f : Tracked → Tracked) : (s.updCmd x f).classInit = s.classInit := rfl
@[simp] theorem State.updCmd_retired (x : Nat) (f : Tracked → Tracked) : (s.updCmd x f).retired = s.retired := rfl
@[simp] theorem State.updCmd_samp (x : Nat) (f : Tracked → Tracked) : (s.updCmd x f).samp = s.samp := rfl
@[simp] theorem State.updCmd_cancels (x : Nat) (f : Tracked → Tracked) : (s.updCmd x f).cancels = s.cancels := rfl
@[simp] theorem State.updCmd_cancelled (x : Nat) (f : Tracked → Tracked) : (s.updCmd x f).cancelled = s.cancelled := rfl
@[simp] theorem State.updCmd_cancelDue (x : Nat) (f : Tracked → Tracked) : (s.updCmd x f).cancelDue = s.cancelDue := rfl
@[simp] theorem State.updCmd_requests (x : Nat) (f : Tracked → Tracked) : (s.updCmd x f).requests = s.requests := rfl
@[simp] theorem State.updCmd_nextReq (x : Nat) (f : Tracked → Tracked) : (s.updCmd x f).nextReq = s.nextReq := rfl
@[simp] theorem State.updCmd_clientOps (x : Nat) (f : Tracked → Tracked) : (s.updCmd x f).clientOps = s.clientOps := rfl
@[simp] theorem State.updCmd_duePauses (x : Nat) (f : Tracked → Tracked) : (s.updCmd x f).duePauses = s.duePauses := rfl
@[simp] theorem State.updCmd_images (x : Nat) (f : Tracked → Tracked) : (s.updCmd x f).images = s.images := rfl
@[simp] theorem State.updCmd_oldImages (x : Nat) (f : Tracked → Tracked) : (s.updCmd x f).oldImages = s.oldImages := rfl
@[simp] theorem State.updCmd_coldQ (x : Nat) (f : Tracked → Tracked) : (s.updCmd x f).coldQ = s.coldQ := rfl
@[simp] theorem State.updCmd_resuming (x : Nat) (f : Tracked → Tracked) : (s.updCmd x f).resuming = s.resuming := rfl
@[simp] theorem State.updCmd_restoring (x : Nat) (f : Tracked → Tracked) : (s.updCmd x f).restoring = s.restoring := rfl
@[simp] theorem State.updCmd_coldGen (x : Nat) (f : Tracked → Tracked) : (s.updCmd x f).coldGen = s.coldGen := rfl
@[simp] theorem State.updCmd_coldBytes (x : Nat) (f : Tracked → Tracked) : (s.updCmd x f).coldBytes = s.coldBytes := rfl
@[simp] theorem State.updCmd_vchans (x : Nat) (f : Tracked → Tracked) : (s.updCmd x f).vchans = s.vchans := rfl
@[simp] theorem State.updCmd_shuttles (x : Nat) (f : Tracked → Tracked) : (s.updCmd x f).shuttles = s.shuttles := rfl
@[simp] theorem State.updCmd_cbSeen (x : Nat) (f : Tracked → Tracked) : (s.updCmd x f).cbSeen = s.cbSeen := rfl
@[simp] theorem State.updCmd_cbNext (x : Nat) (f : Tracked → Tracked) : (s.updCmd x f).cbNext = s.cbNext := rfl
@[simp] theorem State.updCmd_meters (x : Nat) (f : Tracked → Tracked) : (s.updCmd x f).meters = s.meters := rfl
@[simp] theorem State.updCmd_qps (x : Nat) (f : Tracked → Tracked) : (s.updCmd x f).qps = s.qps := rfl
@[simp] theorem State.updCmd_sessions (x : Nat) (f : Tracked → Tracked) : (s.updCmd x f).sessions = s.sessions := rfl
@[simp] theorem State.updCmd_nextSess (x : Nat) (f : Tracked → Tracked) : (s.updCmd x f).nextSess = s.nextSess := rfl
@[simp] theorem State.updCmd_reasm (x : Nat) (f : Tracked → Tracked) : (s.updCmd x f).reasm = s.reasm := rfl
@[simp] theorem State.updCmd_inbox (x : Nat) (f : Tracked → Tracked) : (s.updCmd x f).inbox = s.inbox := rfl
@[simp] theorem State.updCmd_rdmaIn (x : Nat) (f : Tracked → Tracked) : (s.updCmd x f).rdmaIn = s.rdmaIn := rfl
@[simp] theorem State.updCmd_cnpIn (x : Nat) (f : Tracked → Tracked) : (s.updCmd x f).cnpIn = s.cnpIn := rfl
@[simp] theorem State.updCmd_ptpIn (x : Nat) (f : Tracked → Tracked) : (s.updCmd x f).ptpIn = s.ptpIn := rfl
@[simp] theorem State.updCmd_links (x : Nat) (f : Tracked → Tracked) : (s.updCmd x f).links = s.links := rfl
@[simp] theorem State.updCmd_landings (x : Nat) (f : Tracked → Tracked) : (s.updCmd x f).landings = s.landings := rfl
@[simp] theorem State.updCmd_txCredits (x : Nat) (f : Tracked → Tracked) : (s.updCmd x f).txCredits = s.txCredits := rfl
@[simp] theorem State.updCmd_epochAt (x : Nat) (f : Tracked → Tracked) : (s.updCmd x f).epochAt = s.epochAt := rfl
@[simp] theorem State.updCmd_barriers (x : Nat) (f : Tracked → Tracked) : (s.updCmd x f).barriers = s.barriers := rfl
@[simp] theorem State.updCmd_waitArrive (x : Nat) (f : Tracked → Tracked) : (s.updCmd x f).waitArrive = s.waitArrive := rfl
@[simp] theorem State.updCmd_pair (x : Nat) (f : Tracked → Tracked) : (s.updCmd x f).pair = s.pair := rfl
@[simp] theorem State.updCmd_heldOut (x : Nat) (f : Tracked → Tracked) : (s.updCmd x f).heldOut = s.heldOut := rfl
@[simp] theorem State.updCmd_out (x : Nat) (f : Tracked → Tracked) : (s.updCmd x f).out = s.out := rfl
@[simp] theorem State.updCmd_trigs (x : Nat) (f : Tracked → Tracked) : (s.updCmd x f).trigs = s.trigs := rfl
@[simp] theorem State.updCmd_trigFifo (x : Nat) (f : Tracked → Tracked) : (s.updCmd x f).trigFifo = s.trigFifo := rfl
@[simp] theorem State.updCmd_lastEdge (x : Nat) (f : Tracked → Tracked) : (s.updCmd x f).lastEdge = s.lastEdge := rfl
@[simp] theorem State.updCmd_verdictQ (x : Nat) (f : Tracked → Tracked) : (s.updCmd x f).verdictQ = s.verdictQ := rfl
@[simp] theorem State.updCmd_linePend (x : Nat) (f : Tracked → Tracked) : (s.updCmd x f).linePend = s.linePend := rfl
@[simp] theorem State.updCmd_pins (x : Nat) (f : Tracked → Tracked) : (s.updCmd x f).pins = s.pins := rfl
@[simp] theorem State.updCmd_power (x : Nat) (f : Tracked → Tracked) : (s.updCmd x f).power = s.power := rfl
@[simp] theorem State.updCmd_gated (x : Nat) (f : Tracked → Tracked) : (s.updCmd x f).gated = s.gated := rfl
@[simp] theorem State.updCmd_thimble (x : Nat) (f : Tracked → Tracked) : (s.updCmd x f).thimble = s.thimble := rfl
@[simp] theorem State.updCmd_teardowns (x : Nat) (f : Tracked → Tracked) : (s.updCmd x f).teardowns = s.teardowns := rfl
@[simp] theorem State.updCmd_tdFree (x : Nat) (f : Tracked → Tracked) : (s.updCmd x f).tdFree = s.tdFree := rfl
@[simp] theorem State.updCmd_attest (x : Nat) (f : Tracked → Tracked) : (s.updCmd x f).attest = s.attest := rfl
@[simp] theorem State.updCmd_issued (x : Nat) (f : Tracked → Tracked) : (s.updCmd x f).issued = s.issued := rfl
@[simp] theorem State.updCmd_tampered (x : Nat) (f : Tracked → Tracked) : (s.updCmd x f).tampered = s.tampered := rfl
@[simp] theorem State.updCmd_keysOk (x : Nat) (f : Tracked → Tracked) : (s.updCmd x f).keysOk = s.keysOk := rfl
@[simp] theorem State.updCmd_slotId (x : Nat) (f : Tracked → Tracked) : (s.updCmd x f).slotId = s.slotId := rfl
@[simp] theorem State.updCmd_repeats (x : Nat) (f : Tracked → Tracked) : (s.updCmd x f).repeats = s.repeats := rfl
@[simp] theorem State.updCmd_reports (x : Nat) (f : Tracked → Tracked) : (s.updCmd x f).reports = s.reports := rfl
@[simp] theorem State.updCmd_test (x : Nat) (f : Tracked → Tracked) : (s.updCmd x f).test = s.test := rfl
@[simp] theorem State.updCmd_testNext (x : Nat) (f : Tracked → Tracked) : (s.updCmd x f).testNext = s.testNext := rfl
@[simp] theorem State.updCmd_testAt (x : Nat) (f : Tracked → Tracked) : (s.updCmd x f).testAt = s.testAt := rfl
@[simp] theorem State.updCmd_resets (x : Nat) (f : Tracked → Tracked) : (s.updCmd x f).resets = s.resets := rfl
@[simp] theorem State.updCmd_busyAt (x : Nat) (f : Tracked → Tracked) : (s.updCmd x f).busyAt = s.busyAt := rfl
@[simp] theorem State.updCmd_traces (x : Nat) (f : Tracked → Tracked) : (s.updCmd x f).traces = s.traces := rfl
@[simp] theorem State.updCmd_trcDropped (x : Nat) (f : Tracked → Tracked) : (s.updCmd x f).trcDropped = s.trcDropped := rfl
@[simp] theorem State.updCmd_wdStart (x : Nat) (f : Tracked → Tracked) : (s.updCmd x f).wdStart = s.wdStart := rfl
@[simp] theorem State.updCmd_wdKicked (x : Nat) (f : Tracked → Tracked) : (s.updCmd x f).wdKicked = s.wdKicked := rfl
@[simp] theorem State.updCmd_wdMark (x : Nat) (f : Tracked → Tracked) : (s.updCmd x f).wdMark = s.wdMark := rfl
@[simp] theorem State.updCmd_smpLast (x : Nat) (f : Tracked → Tracked) : (s.updCmd x f).smpLast = s.smpLast := rfl
@[simp] theorem State.updCmd_smpCount (x : Nat) (f : Tracked → Tracked) : (s.updCmd x f).smpCount = s.smpCount := rfl
@[simp] theorem State.updCmd_frozen (x : Nat) (f : Tracked → Tracked) : (s.updCmd x f).frozen = s.frozen := rfl
@[simp] theorem State.updCmd_stopAt (x : Nat) (f : Tracked → Tracked) : (s.updCmd x f).stopAt = s.stopAt := rfl
@[simp] theorem State.updCmd_store (x : Nat) (f : Tracked → Tracked) : (s.updCmd x f).store = s.store := rfl
@[simp] theorem State.updCmd_calNext (x : Nat) (f : Tracked → Tracked) : (s.updCmd x f).calNext = s.calNext := rfl

/-! `State.raiseP` -/

@[simp] theorem State.raiseP_pending (src ty p pay : Nat) (slot : Option Nat) : (s.raiseP src ty p pay slot).pending = s.pending := rfl
@[simp] theorem State.raiseP_serial (src ty p pay : Nat) (slot : Option Nat) : (s.raiseP src ty p pay slot).serial = s.serial := rfl
@[simp] theorem State.raiseP_fabric (src ty p pay : Nat) (slot : Option Nat) : (s.raiseP src ty p pay slot).fabric = s.fabric := rfl
@[simp] theorem State.raiseP_regs (src ty p pay : Nat) (slot : Option Nat) : (s.raiseP src ty p pay slot).regs = s.regs := rfl
@[simp] theorem State.raiseP_mem (src ty p pay : Nat) (slot : Option Nat) : (s.raiseP src ty p pay slot).mem = s.mem := rfl
@[simp] theorem State.raiseP_keyTag (src ty p pay : Nat) (slot : Option Nat) : (s.raiseP src ty p pay slot).keyTag = s.keyTag := rfl
@[simp] theorem State.raiseP_badLines (src ty p pay : Nat) (slot : Option Nat) : (s.raiseP src ty p pay slot).badLines = s.badLines := rfl
@[simp] theorem State.raiseP_pprRows (src ty p pay : Nat) (slot : Option Nat) : (s.raiseP src ty p pay slot).pprRows = s.pprRows := rfl
@[simp] theorem State.raiseP_clearing (src ty p pay : Nat) (slot : Option Nat) : (s.raiseP src ty p pay slot).clearing = s.clearing := rfl
@[simp] theorem State.raiseP_memWaits (src ty p pay : Nat) (slot : Option Nat) : (s.raiseP src ty p pay slot).memWaits = s.memWaits := rfl
@[simp] theorem State.raiseP_scrubAt (src ty p pay : Nat) (slot : Option Nat) : (s.raiseP src ty p pay slot).scrubAt = s.scrubAt := rfl
@[simp] theorem State.raiseP_busData (src ty p pay : Nat) (slot : Option Nat) : (s.raiseP src ty p pay slot).busData = s.busData := rfl
@[simp] theorem State.raiseP_busErr (src ty p pay : Nat) (slot : Option Nat) : (s.raiseP src ty p pay slot).busErr = s.busErr := rfl
@[simp] theorem State.raiseP_free (src ty p pay : Nat) (slot : Option Nat) : (s.raiseP src ty p pay slot).free = s.free := rfl
@[simp] theorem State.raiseP_tb (src ty p pay : Nat) (slot : Option Nat) : (s.raiseP src ty p pay slot).tb = s.tb := rfl
@[simp] theorem State.raiseP_eaNext (src ty p pay : Nat) (slot : Option Nat) : (s.raiseP src ty p pay slot).eaNext = s.eaNext := rfl
@[simp] theorem State.raiseP_eaLast (src ty p pay : Nat) (slot : Option Nat) : (s.raiseP src ty p pay slot).eaLast = s.eaLast := rfl
@[simp] theorem State.raiseP_tracked (src ty p pay : Nat) (slot : Option Nat) : (s.raiseP src ty p pay slot).tracked = s.tracked := rfl
@[simp] theorem State.raiseP_recQ (src ty p pay : Nat) (slot : Option Nat) : (s.raiseP src ty p pay slot).recQ = s.recQ := rfl
@[simp] theorem State.raiseP_traceHold (src ty p pay : Nat) (slot : Option Nat) : (s.raiseP src ty p pay slot).traceHold = s.traceHold := rfl
@[simp] theorem State.raiseP_nextSlot (src ty p pay : Nat) (slot : Option Nat) : (s.raiseP src ty p pay slot).nextSlot = s.nextSlot := rfl
@[simp] theorem State.raiseP_chans (src ty p pay : Nat) (slot : Option Nat) : (s.raiseP src ty p pay slot).chans = s.chans := rfl
@[simp] theorem State.raiseP_lingering (src ty p pay : Nat) (slot : Option Nat) : (s.raiseP src ty p pay slot).lingering = s.lingering := rfl
@[simp] theorem State.raiseP_settling (src ty p pay : Nat) (slot : Option Nat) : (s.raiseP src ty p pay slot).settling = s.settling := rfl
@[simp] theorem State.raiseP_queues (src ty p pay : Nat) (slot : Option Nat) : (s.raiseP src ty p pay slot).queues = s.queues := rfl
@[simp] theorem State.raiseP_wrrAt (src ty p pay : Nat) (slot : Option Nat) : (s.raiseP src ty p pay slot).wrrAt = s.wrrAt := rfl
@[simp] theorem State.raiseP_mapCe (src ty p pay : Nat) (slot : Option Nat) : (s.raiseP src ty p pay slot).mapCe = s.mapCe := rfl
@[simp] theorem State.raiseP_mapDe (src ty p pay : Nat) (slot : Option Nat) : (s.raiseP src ty p pay slot).mapDe = s.mapDe := rfl
@[simp] theorem State.raiseP_abort (src ty p pay : Nat) (slot : Option Nat) : (s.raiseP src ty p pay slot).abort = s.abort := rfl
@[simp] theorem State.raiseP_tasks (src ty p pay : Nat) (slot : Option Nat) : (s.raiseP src ty p pay slot).tasks = s.tasks := rfl
@[simp] theorem State.raiseP_nextTask (src ty p pay : Nat) (slot : Option Nat) : (s.raiseP src ty p pay slot).nextTask = s.nextTask := rfl
@[simp] theorem State.raiseP_facets (src ty p pay : Nat) (slot : Option Nat) : (s.raiseP src ty p pay slot).facets = s.facets := rfl
@[simp] theorem State.raiseP_facetBank (src ty p pay : Nat) (slot : Option Nat) : (s.raiseP src ty p pay slot).facetBank = s.facetBank := rfl
@[simp] theorem State.raiseP_bobbin (src ty p pay : Nat) (slot : Option Nat) : (s.raiseP src ty p pay slot).bobbin = s.bobbin := rfl
@[simp] theorem State.raiseP_flushes (src ty p pay : Nat) (slot : Option Nat) : (s.raiseP src ty p pay slot).flushes = s.flushes := rfl
@[simp] theorem State.raiseP_poolWaits (src ty p pay : Nat) (slot : Option Nat) : (s.raiseP src ty p pay slot).poolWaits = s.poolWaits := rfl
@[simp] theorem State.raiseP_seqUsed (src ty p pay : Nat) (slot : Option Nat) : (s.raiseP src ty p pay slot).seqUsed = s.seqUsed := rfl
@[simp] theorem State.raiseP_classInit (src ty p pay : Nat) (slot : Option Nat) : (s.raiseP src ty p pay slot).classInit = s.classInit := rfl
@[simp] theorem State.raiseP_retired (src ty p pay : Nat) (slot : Option Nat) : (s.raiseP src ty p pay slot).retired = s.retired := rfl
@[simp] theorem State.raiseP_samp (src ty p pay : Nat) (slot : Option Nat) : (s.raiseP src ty p pay slot).samp = s.samp := rfl
@[simp] theorem State.raiseP_cancels (src ty p pay : Nat) (slot : Option Nat) : (s.raiseP src ty p pay slot).cancels = s.cancels := rfl
@[simp] theorem State.raiseP_cancelled (src ty p pay : Nat) (slot : Option Nat) : (s.raiseP src ty p pay slot).cancelled = s.cancelled := rfl
@[simp] theorem State.raiseP_cancelDue (src ty p pay : Nat) (slot : Option Nat) : (s.raiseP src ty p pay slot).cancelDue = s.cancelDue := rfl
@[simp] theorem State.raiseP_requests (src ty p pay : Nat) (slot : Option Nat) : (s.raiseP src ty p pay slot).requests = s.requests := rfl
@[simp] theorem State.raiseP_nextReq (src ty p pay : Nat) (slot : Option Nat) : (s.raiseP src ty p pay slot).nextReq = s.nextReq := rfl
@[simp] theorem State.raiseP_clientOps (src ty p pay : Nat) (slot : Option Nat) : (s.raiseP src ty p pay slot).clientOps = s.clientOps := rfl
@[simp] theorem State.raiseP_duePauses (src ty p pay : Nat) (slot : Option Nat) : (s.raiseP src ty p pay slot).duePauses = s.duePauses := rfl
@[simp] theorem State.raiseP_images (src ty p pay : Nat) (slot : Option Nat) : (s.raiseP src ty p pay slot).images = s.images := rfl
@[simp] theorem State.raiseP_oldImages (src ty p pay : Nat) (slot : Option Nat) : (s.raiseP src ty p pay slot).oldImages = s.oldImages := rfl
@[simp] theorem State.raiseP_coldQ (src ty p pay : Nat) (slot : Option Nat) : (s.raiseP src ty p pay slot).coldQ = s.coldQ := rfl
@[simp] theorem State.raiseP_resuming (src ty p pay : Nat) (slot : Option Nat) : (s.raiseP src ty p pay slot).resuming = s.resuming := rfl
@[simp] theorem State.raiseP_restoring (src ty p pay : Nat) (slot : Option Nat) : (s.raiseP src ty p pay slot).restoring = s.restoring := rfl
@[simp] theorem State.raiseP_coldGen (src ty p pay : Nat) (slot : Option Nat) : (s.raiseP src ty p pay slot).coldGen = s.coldGen := rfl
@[simp] theorem State.raiseP_coldBytes (src ty p pay : Nat) (slot : Option Nat) : (s.raiseP src ty p pay slot).coldBytes = s.coldBytes := rfl
@[simp] theorem State.raiseP_vchans (src ty p pay : Nat) (slot : Option Nat) : (s.raiseP src ty p pay slot).vchans = s.vchans := rfl
@[simp] theorem State.raiseP_shuttles (src ty p pay : Nat) (slot : Option Nat) : (s.raiseP src ty p pay slot).shuttles = s.shuttles := rfl
@[simp] theorem State.raiseP_cbSeen (src ty p pay : Nat) (slot : Option Nat) : (s.raiseP src ty p pay slot).cbSeen = s.cbSeen := rfl
@[simp] theorem State.raiseP_cbNext (src ty p pay : Nat) (slot : Option Nat) : (s.raiseP src ty p pay slot).cbNext = s.cbNext := rfl
@[simp] theorem State.raiseP_meters (src ty p pay : Nat) (slot : Option Nat) : (s.raiseP src ty p pay slot).meters = s.meters := rfl
@[simp] theorem State.raiseP_qps (src ty p pay : Nat) (slot : Option Nat) : (s.raiseP src ty p pay slot).qps = s.qps := rfl
@[simp] theorem State.raiseP_sessions (src ty p pay : Nat) (slot : Option Nat) : (s.raiseP src ty p pay slot).sessions = s.sessions := rfl
@[simp] theorem State.raiseP_nextSess (src ty p pay : Nat) (slot : Option Nat) : (s.raiseP src ty p pay slot).nextSess = s.nextSess := rfl
@[simp] theorem State.raiseP_reasm (src ty p pay : Nat) (slot : Option Nat) : (s.raiseP src ty p pay slot).reasm = s.reasm := rfl
@[simp] theorem State.raiseP_inbox (src ty p pay : Nat) (slot : Option Nat) : (s.raiseP src ty p pay slot).inbox = s.inbox := rfl
@[simp] theorem State.raiseP_rdmaIn (src ty p pay : Nat) (slot : Option Nat) : (s.raiseP src ty p pay slot).rdmaIn = s.rdmaIn := rfl
@[simp] theorem State.raiseP_cnpIn (src ty p pay : Nat) (slot : Option Nat) : (s.raiseP src ty p pay slot).cnpIn = s.cnpIn := rfl
@[simp] theorem State.raiseP_ptpIn (src ty p pay : Nat) (slot : Option Nat) : (s.raiseP src ty p pay slot).ptpIn = s.ptpIn := rfl
@[simp] theorem State.raiseP_links (src ty p pay : Nat) (slot : Option Nat) : (s.raiseP src ty p pay slot).links = s.links := rfl
@[simp] theorem State.raiseP_landings (src ty p pay : Nat) (slot : Option Nat) : (s.raiseP src ty p pay slot).landings = s.landings := rfl
@[simp] theorem State.raiseP_txCredits (src ty p pay : Nat) (slot : Option Nat) : (s.raiseP src ty p pay slot).txCredits = s.txCredits := rfl
@[simp] theorem State.raiseP_epochAt (src ty p pay : Nat) (slot : Option Nat) : (s.raiseP src ty p pay slot).epochAt = s.epochAt := rfl
@[simp] theorem State.raiseP_barriers (src ty p pay : Nat) (slot : Option Nat) : (s.raiseP src ty p pay slot).barriers = s.barriers := rfl
@[simp] theorem State.raiseP_waitArrive (src ty p pay : Nat) (slot : Option Nat) : (s.raiseP src ty p pay slot).waitArrive = s.waitArrive := rfl
@[simp] theorem State.raiseP_pair (src ty p pay : Nat) (slot : Option Nat) : (s.raiseP src ty p pay slot).pair = s.pair := rfl
@[simp] theorem State.raiseP_heldOut (src ty p pay : Nat) (slot : Option Nat) : (s.raiseP src ty p pay slot).heldOut = s.heldOut := rfl
@[simp] theorem State.raiseP_out (src ty p pay : Nat) (slot : Option Nat) : (s.raiseP src ty p pay slot).out = s.out := rfl
@[simp] theorem State.raiseP_trigs (src ty p pay : Nat) (slot : Option Nat) : (s.raiseP src ty p pay slot).trigs = s.trigs := rfl
@[simp] theorem State.raiseP_trigFifo (src ty p pay : Nat) (slot : Option Nat) : (s.raiseP src ty p pay slot).trigFifo = s.trigFifo := rfl
@[simp] theorem State.raiseP_lastEdge (src ty p pay : Nat) (slot : Option Nat) : (s.raiseP src ty p pay slot).lastEdge = s.lastEdge := rfl
@[simp] theorem State.raiseP_verdictQ (src ty p pay : Nat) (slot : Option Nat) : (s.raiseP src ty p pay slot).verdictQ = s.verdictQ := rfl
@[simp] theorem State.raiseP_linePend (src ty p pay : Nat) (slot : Option Nat) : (s.raiseP src ty p pay slot).linePend = s.linePend := rfl
@[simp] theorem State.raiseP_pins (src ty p pay : Nat) (slot : Option Nat) : (s.raiseP src ty p pay slot).pins = s.pins := rfl
@[simp] theorem State.raiseP_power (src ty p pay : Nat) (slot : Option Nat) : (s.raiseP src ty p pay slot).power = s.power := rfl
@[simp] theorem State.raiseP_gated (src ty p pay : Nat) (slot : Option Nat) : (s.raiseP src ty p pay slot).gated = s.gated := rfl
@[simp] theorem State.raiseP_thimble (src ty p pay : Nat) (slot : Option Nat) : (s.raiseP src ty p pay slot).thimble = s.thimble := rfl
@[simp] theorem State.raiseP_teardowns (src ty p pay : Nat) (slot : Option Nat) : (s.raiseP src ty p pay slot).teardowns = s.teardowns := rfl
@[simp] theorem State.raiseP_tdFree (src ty p pay : Nat) (slot : Option Nat) : (s.raiseP src ty p pay slot).tdFree = s.tdFree := rfl
@[simp] theorem State.raiseP_attest (src ty p pay : Nat) (slot : Option Nat) : (s.raiseP src ty p pay slot).attest = s.attest := rfl
@[simp] theorem State.raiseP_issued (src ty p pay : Nat) (slot : Option Nat) : (s.raiseP src ty p pay slot).issued = s.issued := rfl
@[simp] theorem State.raiseP_tampered (src ty p pay : Nat) (slot : Option Nat) : (s.raiseP src ty p pay slot).tampered = s.tampered := rfl
@[simp] theorem State.raiseP_keysOk (src ty p pay : Nat) (slot : Option Nat) : (s.raiseP src ty p pay slot).keysOk = s.keysOk := rfl
@[simp] theorem State.raiseP_slotId (src ty p pay : Nat) (slot : Option Nat) : (s.raiseP src ty p pay slot).slotId = s.slotId := rfl
@[simp] theorem State.raiseP_repeats (src ty p pay : Nat) (slot : Option Nat) : (s.raiseP src ty p pay slot).repeats = s.repeats := rfl
@[simp] theorem State.raiseP_reports (src ty p pay : Nat) (slot : Option Nat) : (s.raiseP src ty p pay slot).reports = s.reports := rfl
@[simp] theorem State.raiseP_test (src ty p pay : Nat) (slot : Option Nat) : (s.raiseP src ty p pay slot).test = s.test := rfl
@[simp] theorem State.raiseP_testNext (src ty p pay : Nat) (slot : Option Nat) : (s.raiseP src ty p pay slot).testNext = s.testNext := rfl
@[simp] theorem State.raiseP_testAt (src ty p pay : Nat) (slot : Option Nat) : (s.raiseP src ty p pay slot).testAt = s.testAt := rfl
@[simp] theorem State.raiseP_resets (src ty p pay : Nat) (slot : Option Nat) : (s.raiseP src ty p pay slot).resets = s.resets := rfl
@[simp] theorem State.raiseP_busyAt (src ty p pay : Nat) (slot : Option Nat) : (s.raiseP src ty p pay slot).busyAt = s.busyAt := rfl
@[simp] theorem State.raiseP_traces (src ty p pay : Nat) (slot : Option Nat) : (s.raiseP src ty p pay slot).traces = s.traces := rfl
@[simp] theorem State.raiseP_trcDropped (src ty p pay : Nat) (slot : Option Nat) : (s.raiseP src ty p pay slot).trcDropped = s.trcDropped := rfl
@[simp] theorem State.raiseP_wdStart (src ty p pay : Nat) (slot : Option Nat) : (s.raiseP src ty p pay slot).wdStart = s.wdStart := rfl
@[simp] theorem State.raiseP_wdKicked (src ty p pay : Nat) (slot : Option Nat) : (s.raiseP src ty p pay slot).wdKicked = s.wdKicked := rfl
@[simp] theorem State.raiseP_wdMark (src ty p pay : Nat) (slot : Option Nat) : (s.raiseP src ty p pay slot).wdMark = s.wdMark := rfl
@[simp] theorem State.raiseP_smpLast (src ty p pay : Nat) (slot : Option Nat) : (s.raiseP src ty p pay slot).smpLast = s.smpLast := rfl
@[simp] theorem State.raiseP_smpCount (src ty p pay : Nat) (slot : Option Nat) : (s.raiseP src ty p pay slot).smpCount = s.smpCount := rfl
@[simp] theorem State.raiseP_frozen (src ty p pay : Nat) (slot : Option Nat) : (s.raiseP src ty p pay slot).frozen = s.frozen := rfl
@[simp] theorem State.raiseP_stopAt (src ty p pay : Nat) (slot : Option Nat) : (s.raiseP src ty p pay slot).stopAt = s.stopAt := rfl
@[simp] theorem State.raiseP_store (src ty p pay : Nat) (slot : Option Nat) : (s.raiseP src ty p pay slot).store = s.store := rfl
@[simp] theorem State.raiseP_calNext (src ty p pay : Nat) (slot : Option Nat) : (s.raiseP src ty p pay slot).calNext = s.calNext := rfl

/-! `State.raiseAt` -/

@[simp] theorem State.raiseAt_pending (src ty p pay ts : Nat) : (s.raiseAt src ty p pay ts).pending = s.pending := rfl
@[simp] theorem State.raiseAt_serial (src ty p pay ts : Nat) : (s.raiseAt src ty p pay ts).serial = s.serial := rfl
@[simp] theorem State.raiseAt_fabric (src ty p pay ts : Nat) : (s.raiseAt src ty p pay ts).fabric = s.fabric := rfl
@[simp] theorem State.raiseAt_regs (src ty p pay ts : Nat) : (s.raiseAt src ty p pay ts).regs = s.regs := rfl
@[simp] theorem State.raiseAt_mem (src ty p pay ts : Nat) : (s.raiseAt src ty p pay ts).mem = s.mem := rfl
@[simp] theorem State.raiseAt_keyTag (src ty p pay ts : Nat) : (s.raiseAt src ty p pay ts).keyTag = s.keyTag := rfl
@[simp] theorem State.raiseAt_badLines (src ty p pay ts : Nat) : (s.raiseAt src ty p pay ts).badLines = s.badLines := rfl
@[simp] theorem State.raiseAt_pprRows (src ty p pay ts : Nat) : (s.raiseAt src ty p pay ts).pprRows = s.pprRows := rfl
@[simp] theorem State.raiseAt_clearing (src ty p pay ts : Nat) : (s.raiseAt src ty p pay ts).clearing = s.clearing := rfl
@[simp] theorem State.raiseAt_memWaits (src ty p pay ts : Nat) : (s.raiseAt src ty p pay ts).memWaits = s.memWaits := rfl
@[simp] theorem State.raiseAt_scrubAt (src ty p pay ts : Nat) : (s.raiseAt src ty p pay ts).scrubAt = s.scrubAt := rfl
@[simp] theorem State.raiseAt_busData (src ty p pay ts : Nat) : (s.raiseAt src ty p pay ts).busData = s.busData := rfl
@[simp] theorem State.raiseAt_busErr (src ty p pay ts : Nat) : (s.raiseAt src ty p pay ts).busErr = s.busErr := rfl
@[simp] theorem State.raiseAt_free (src ty p pay ts : Nat) : (s.raiseAt src ty p pay ts).free = s.free := rfl
@[simp] theorem State.raiseAt_tb (src ty p pay ts : Nat) : (s.raiseAt src ty p pay ts).tb = s.tb := rfl
@[simp] theorem State.raiseAt_eaNext (src ty p pay ts : Nat) : (s.raiseAt src ty p pay ts).eaNext = s.eaNext := rfl
@[simp] theorem State.raiseAt_eaLast (src ty p pay ts : Nat) : (s.raiseAt src ty p pay ts).eaLast = s.eaLast := rfl
@[simp] theorem State.raiseAt_tracked (src ty p pay ts : Nat) : (s.raiseAt src ty p pay ts).tracked = s.tracked := rfl
@[simp] theorem State.raiseAt_recQ (src ty p pay ts : Nat) : (s.raiseAt src ty p pay ts).recQ = s.recQ := rfl
@[simp] theorem State.raiseAt_traceHold (src ty p pay ts : Nat) : (s.raiseAt src ty p pay ts).traceHold = s.traceHold := rfl
@[simp] theorem State.raiseAt_nextSlot (src ty p pay ts : Nat) : (s.raiseAt src ty p pay ts).nextSlot = s.nextSlot := rfl
@[simp] theorem State.raiseAt_chans (src ty p pay ts : Nat) : (s.raiseAt src ty p pay ts).chans = s.chans := rfl
@[simp] theorem State.raiseAt_lingering (src ty p pay ts : Nat) : (s.raiseAt src ty p pay ts).lingering = s.lingering := rfl
@[simp] theorem State.raiseAt_settling (src ty p pay ts : Nat) : (s.raiseAt src ty p pay ts).settling = s.settling := rfl
@[simp] theorem State.raiseAt_queues (src ty p pay ts : Nat) : (s.raiseAt src ty p pay ts).queues = s.queues := rfl
@[simp] theorem State.raiseAt_wrrAt (src ty p pay ts : Nat) : (s.raiseAt src ty p pay ts).wrrAt = s.wrrAt := rfl
@[simp] theorem State.raiseAt_mapCe (src ty p pay ts : Nat) : (s.raiseAt src ty p pay ts).mapCe = s.mapCe := rfl
@[simp] theorem State.raiseAt_mapDe (src ty p pay ts : Nat) : (s.raiseAt src ty p pay ts).mapDe = s.mapDe := rfl
@[simp] theorem State.raiseAt_abort (src ty p pay ts : Nat) : (s.raiseAt src ty p pay ts).abort = s.abort := rfl
@[simp] theorem State.raiseAt_tasks (src ty p pay ts : Nat) : (s.raiseAt src ty p pay ts).tasks = s.tasks := rfl
@[simp] theorem State.raiseAt_nextTask (src ty p pay ts : Nat) : (s.raiseAt src ty p pay ts).nextTask = s.nextTask := rfl
@[simp] theorem State.raiseAt_facets (src ty p pay ts : Nat) : (s.raiseAt src ty p pay ts).facets = s.facets := rfl
@[simp] theorem State.raiseAt_facetBank (src ty p pay ts : Nat) : (s.raiseAt src ty p pay ts).facetBank = s.facetBank := rfl
@[simp] theorem State.raiseAt_bobbin (src ty p pay ts : Nat) : (s.raiseAt src ty p pay ts).bobbin = s.bobbin := rfl
@[simp] theorem State.raiseAt_flushes (src ty p pay ts : Nat) : (s.raiseAt src ty p pay ts).flushes = s.flushes := rfl
@[simp] theorem State.raiseAt_poolWaits (src ty p pay ts : Nat) : (s.raiseAt src ty p pay ts).poolWaits = s.poolWaits := rfl
@[simp] theorem State.raiseAt_seqUsed (src ty p pay ts : Nat) : (s.raiseAt src ty p pay ts).seqUsed = s.seqUsed := rfl
@[simp] theorem State.raiseAt_classInit (src ty p pay ts : Nat) : (s.raiseAt src ty p pay ts).classInit = s.classInit := rfl
@[simp] theorem State.raiseAt_retired (src ty p pay ts : Nat) : (s.raiseAt src ty p pay ts).retired = s.retired := rfl
@[simp] theorem State.raiseAt_samp (src ty p pay ts : Nat) : (s.raiseAt src ty p pay ts).samp = s.samp := rfl
@[simp] theorem State.raiseAt_cancels (src ty p pay ts : Nat) : (s.raiseAt src ty p pay ts).cancels = s.cancels := rfl
@[simp] theorem State.raiseAt_cancelled (src ty p pay ts : Nat) : (s.raiseAt src ty p pay ts).cancelled = s.cancelled := rfl
@[simp] theorem State.raiseAt_cancelDue (src ty p pay ts : Nat) : (s.raiseAt src ty p pay ts).cancelDue = s.cancelDue := rfl
@[simp] theorem State.raiseAt_requests (src ty p pay ts : Nat) : (s.raiseAt src ty p pay ts).requests = s.requests := rfl
@[simp] theorem State.raiseAt_nextReq (src ty p pay ts : Nat) : (s.raiseAt src ty p pay ts).nextReq = s.nextReq := rfl
@[simp] theorem State.raiseAt_clientOps (src ty p pay ts : Nat) : (s.raiseAt src ty p pay ts).clientOps = s.clientOps := rfl
@[simp] theorem State.raiseAt_duePauses (src ty p pay ts : Nat) : (s.raiseAt src ty p pay ts).duePauses = s.duePauses := rfl
@[simp] theorem State.raiseAt_images (src ty p pay ts : Nat) : (s.raiseAt src ty p pay ts).images = s.images := rfl
@[simp] theorem State.raiseAt_oldImages (src ty p pay ts : Nat) : (s.raiseAt src ty p pay ts).oldImages = s.oldImages := rfl
@[simp] theorem State.raiseAt_coldQ (src ty p pay ts : Nat) : (s.raiseAt src ty p pay ts).coldQ = s.coldQ := rfl
@[simp] theorem State.raiseAt_resuming (src ty p pay ts : Nat) : (s.raiseAt src ty p pay ts).resuming = s.resuming := rfl
@[simp] theorem State.raiseAt_restoring (src ty p pay ts : Nat) : (s.raiseAt src ty p pay ts).restoring = s.restoring := rfl
@[simp] theorem State.raiseAt_coldGen (src ty p pay ts : Nat) : (s.raiseAt src ty p pay ts).coldGen = s.coldGen := rfl
@[simp] theorem State.raiseAt_coldBytes (src ty p pay ts : Nat) : (s.raiseAt src ty p pay ts).coldBytes = s.coldBytes := rfl
@[simp] theorem State.raiseAt_vchans (src ty p pay ts : Nat) : (s.raiseAt src ty p pay ts).vchans = s.vchans := rfl
@[simp] theorem State.raiseAt_shuttles (src ty p pay ts : Nat) : (s.raiseAt src ty p pay ts).shuttles = s.shuttles := rfl
@[simp] theorem State.raiseAt_cbSeen (src ty p pay ts : Nat) : (s.raiseAt src ty p pay ts).cbSeen = s.cbSeen := rfl
@[simp] theorem State.raiseAt_cbNext (src ty p pay ts : Nat) : (s.raiseAt src ty p pay ts).cbNext = s.cbNext := rfl
@[simp] theorem State.raiseAt_meters (src ty p pay ts : Nat) : (s.raiseAt src ty p pay ts).meters = s.meters := rfl
@[simp] theorem State.raiseAt_qps (src ty p pay ts : Nat) : (s.raiseAt src ty p pay ts).qps = s.qps := rfl
@[simp] theorem State.raiseAt_sessions (src ty p pay ts : Nat) : (s.raiseAt src ty p pay ts).sessions = s.sessions := rfl
@[simp] theorem State.raiseAt_nextSess (src ty p pay ts : Nat) : (s.raiseAt src ty p pay ts).nextSess = s.nextSess := rfl
@[simp] theorem State.raiseAt_reasm (src ty p pay ts : Nat) : (s.raiseAt src ty p pay ts).reasm = s.reasm := rfl
@[simp] theorem State.raiseAt_inbox (src ty p pay ts : Nat) : (s.raiseAt src ty p pay ts).inbox = s.inbox := rfl
@[simp] theorem State.raiseAt_rdmaIn (src ty p pay ts : Nat) : (s.raiseAt src ty p pay ts).rdmaIn = s.rdmaIn := rfl
@[simp] theorem State.raiseAt_cnpIn (src ty p pay ts : Nat) : (s.raiseAt src ty p pay ts).cnpIn = s.cnpIn := rfl
@[simp] theorem State.raiseAt_ptpIn (src ty p pay ts : Nat) : (s.raiseAt src ty p pay ts).ptpIn = s.ptpIn := rfl
@[simp] theorem State.raiseAt_links (src ty p pay ts : Nat) : (s.raiseAt src ty p pay ts).links = s.links := rfl
@[simp] theorem State.raiseAt_landings (src ty p pay ts : Nat) : (s.raiseAt src ty p pay ts).landings = s.landings := rfl
@[simp] theorem State.raiseAt_txCredits (src ty p pay ts : Nat) : (s.raiseAt src ty p pay ts).txCredits = s.txCredits := rfl
@[simp] theorem State.raiseAt_epochAt (src ty p pay ts : Nat) : (s.raiseAt src ty p pay ts).epochAt = s.epochAt := rfl
@[simp] theorem State.raiseAt_barriers (src ty p pay ts : Nat) : (s.raiseAt src ty p pay ts).barriers = s.barriers := rfl
@[simp] theorem State.raiseAt_waitArrive (src ty p pay ts : Nat) : (s.raiseAt src ty p pay ts).waitArrive = s.waitArrive := rfl
@[simp] theorem State.raiseAt_pair (src ty p pay ts : Nat) : (s.raiseAt src ty p pay ts).pair = s.pair := rfl
@[simp] theorem State.raiseAt_heldOut (src ty p pay ts : Nat) : (s.raiseAt src ty p pay ts).heldOut = s.heldOut := rfl
@[simp] theorem State.raiseAt_out (src ty p pay ts : Nat) : (s.raiseAt src ty p pay ts).out = s.out := rfl
@[simp] theorem State.raiseAt_trigs (src ty p pay ts : Nat) : (s.raiseAt src ty p pay ts).trigs = s.trigs := rfl
@[simp] theorem State.raiseAt_trigFifo (src ty p pay ts : Nat) : (s.raiseAt src ty p pay ts).trigFifo = s.trigFifo := rfl
@[simp] theorem State.raiseAt_lastEdge (src ty p pay ts : Nat) : (s.raiseAt src ty p pay ts).lastEdge = s.lastEdge := rfl
@[simp] theorem State.raiseAt_verdictQ (src ty p pay ts : Nat) : (s.raiseAt src ty p pay ts).verdictQ = s.verdictQ := rfl
@[simp] theorem State.raiseAt_linePend (src ty p pay ts : Nat) : (s.raiseAt src ty p pay ts).linePend = s.linePend := rfl
@[simp] theorem State.raiseAt_pins (src ty p pay ts : Nat) : (s.raiseAt src ty p pay ts).pins = s.pins := rfl
@[simp] theorem State.raiseAt_power (src ty p pay ts : Nat) : (s.raiseAt src ty p pay ts).power = s.power := rfl
@[simp] theorem State.raiseAt_gated (src ty p pay ts : Nat) : (s.raiseAt src ty p pay ts).gated = s.gated := rfl
@[simp] theorem State.raiseAt_thimble (src ty p pay ts : Nat) : (s.raiseAt src ty p pay ts).thimble = s.thimble := rfl
@[simp] theorem State.raiseAt_teardowns (src ty p pay ts : Nat) : (s.raiseAt src ty p pay ts).teardowns = s.teardowns := rfl
@[simp] theorem State.raiseAt_tdFree (src ty p pay ts : Nat) : (s.raiseAt src ty p pay ts).tdFree = s.tdFree := rfl
@[simp] theorem State.raiseAt_attest (src ty p pay ts : Nat) : (s.raiseAt src ty p pay ts).attest = s.attest := rfl
@[simp] theorem State.raiseAt_issued (src ty p pay ts : Nat) : (s.raiseAt src ty p pay ts).issued = s.issued := rfl
@[simp] theorem State.raiseAt_tampered (src ty p pay ts : Nat) : (s.raiseAt src ty p pay ts).tampered = s.tampered := rfl
@[simp] theorem State.raiseAt_keysOk (src ty p pay ts : Nat) : (s.raiseAt src ty p pay ts).keysOk = s.keysOk := rfl
@[simp] theorem State.raiseAt_slotId (src ty p pay ts : Nat) : (s.raiseAt src ty p pay ts).slotId = s.slotId := rfl
@[simp] theorem State.raiseAt_repeats (src ty p pay ts : Nat) : (s.raiseAt src ty p pay ts).repeats = s.repeats := rfl
@[simp] theorem State.raiseAt_reports (src ty p pay ts : Nat) : (s.raiseAt src ty p pay ts).reports = s.reports := rfl
@[simp] theorem State.raiseAt_test (src ty p pay ts : Nat) : (s.raiseAt src ty p pay ts).test = s.test := rfl
@[simp] theorem State.raiseAt_testNext (src ty p pay ts : Nat) : (s.raiseAt src ty p pay ts).testNext = s.testNext := rfl
@[simp] theorem State.raiseAt_testAt (src ty p pay ts : Nat) : (s.raiseAt src ty p pay ts).testAt = s.testAt := rfl
@[simp] theorem State.raiseAt_resets (src ty p pay ts : Nat) : (s.raiseAt src ty p pay ts).resets = s.resets := rfl
@[simp] theorem State.raiseAt_busyAt (src ty p pay ts : Nat) : (s.raiseAt src ty p pay ts).busyAt = s.busyAt := rfl
@[simp] theorem State.raiseAt_traces (src ty p pay ts : Nat) : (s.raiseAt src ty p pay ts).traces = s.traces := rfl
@[simp] theorem State.raiseAt_trcDropped (src ty p pay ts : Nat) : (s.raiseAt src ty p pay ts).trcDropped = s.trcDropped := rfl
@[simp] theorem State.raiseAt_wdStart (src ty p pay ts : Nat) : (s.raiseAt src ty p pay ts).wdStart = s.wdStart := rfl
@[simp] theorem State.raiseAt_wdKicked (src ty p pay ts : Nat) : (s.raiseAt src ty p pay ts).wdKicked = s.wdKicked := rfl
@[simp] theorem State.raiseAt_wdMark (src ty p pay ts : Nat) : (s.raiseAt src ty p pay ts).wdMark = s.wdMark := rfl
@[simp] theorem State.raiseAt_smpLast (src ty p pay ts : Nat) : (s.raiseAt src ty p pay ts).smpLast = s.smpLast := rfl
@[simp] theorem State.raiseAt_smpCount (src ty p pay ts : Nat) : (s.raiseAt src ty p pay ts).smpCount = s.smpCount := rfl
@[simp] theorem State.raiseAt_frozen (src ty p pay ts : Nat) : (s.raiseAt src ty p pay ts).frozen = s.frozen := rfl
@[simp] theorem State.raiseAt_stopAt (src ty p pay ts : Nat) : (s.raiseAt src ty p pay ts).stopAt = s.stopAt := rfl
@[simp] theorem State.raiseAt_store (src ty p pay ts : Nat) : (s.raiseAt src ty p pay ts).store = s.store := rfl
@[simp] theorem State.raiseAt_calNext (src ty p pay ts : Nat) : (s.raiseAt src ty p pay ts).calNext = s.calNext := rfl

/-! `State.raiseM` -/

@[simp] theorem State.raiseM_pending (src ty pay : Nat) : (s.raiseM src ty pay).pending = s.pending := rfl
@[simp] theorem State.raiseM_serial (src ty pay : Nat) : (s.raiseM src ty pay).serial = s.serial := rfl
@[simp] theorem State.raiseM_fabric (src ty pay : Nat) : (s.raiseM src ty pay).fabric = s.fabric := rfl
@[simp] theorem State.raiseM_regs (src ty pay : Nat) : (s.raiseM src ty pay).regs = s.regs := rfl
@[simp] theorem State.raiseM_mem (src ty pay : Nat) : (s.raiseM src ty pay).mem = s.mem := rfl
@[simp] theorem State.raiseM_keyTag (src ty pay : Nat) : (s.raiseM src ty pay).keyTag = s.keyTag := rfl
@[simp] theorem State.raiseM_badLines (src ty pay : Nat) : (s.raiseM src ty pay).badLines = s.badLines := rfl
@[simp] theorem State.raiseM_pprRows (src ty pay : Nat) : (s.raiseM src ty pay).pprRows = s.pprRows := rfl
@[simp] theorem State.raiseM_clearing (src ty pay : Nat) : (s.raiseM src ty pay).clearing = s.clearing := rfl
@[simp] theorem State.raiseM_memWaits (src ty pay : Nat) : (s.raiseM src ty pay).memWaits = s.memWaits := rfl
@[simp] theorem State.raiseM_scrubAt (src ty pay : Nat) : (s.raiseM src ty pay).scrubAt = s.scrubAt := rfl
@[simp] theorem State.raiseM_busData (src ty pay : Nat) : (s.raiseM src ty pay).busData = s.busData := rfl
@[simp] theorem State.raiseM_busErr (src ty pay : Nat) : (s.raiseM src ty pay).busErr = s.busErr := rfl
@[simp] theorem State.raiseM_free (src ty pay : Nat) : (s.raiseM src ty pay).free = s.free := rfl
@[simp] theorem State.raiseM_tb (src ty pay : Nat) : (s.raiseM src ty pay).tb = s.tb := rfl
@[simp] theorem State.raiseM_eaNext (src ty pay : Nat) : (s.raiseM src ty pay).eaNext = s.eaNext := rfl
@[simp] theorem State.raiseM_eaLast (src ty pay : Nat) : (s.raiseM src ty pay).eaLast = s.eaLast := rfl
@[simp] theorem State.raiseM_tracked (src ty pay : Nat) : (s.raiseM src ty pay).tracked = s.tracked := rfl
@[simp] theorem State.raiseM_recQ (src ty pay : Nat) : (s.raiseM src ty pay).recQ = s.recQ := rfl
@[simp] theorem State.raiseM_traceHold (src ty pay : Nat) : (s.raiseM src ty pay).traceHold = s.traceHold := rfl
@[simp] theorem State.raiseM_nextSlot (src ty pay : Nat) : (s.raiseM src ty pay).nextSlot = s.nextSlot := rfl
@[simp] theorem State.raiseM_chans (src ty pay : Nat) : (s.raiseM src ty pay).chans = s.chans := rfl
@[simp] theorem State.raiseM_lingering (src ty pay : Nat) : (s.raiseM src ty pay).lingering = s.lingering := rfl
@[simp] theorem State.raiseM_settling (src ty pay : Nat) : (s.raiseM src ty pay).settling = s.settling := rfl
@[simp] theorem State.raiseM_queues (src ty pay : Nat) : (s.raiseM src ty pay).queues = s.queues := rfl
@[simp] theorem State.raiseM_wrrAt (src ty pay : Nat) : (s.raiseM src ty pay).wrrAt = s.wrrAt := rfl
@[simp] theorem State.raiseM_mapCe (src ty pay : Nat) : (s.raiseM src ty pay).mapCe = s.mapCe := rfl
@[simp] theorem State.raiseM_mapDe (src ty pay : Nat) : (s.raiseM src ty pay).mapDe = s.mapDe := rfl
@[simp] theorem State.raiseM_abort (src ty pay : Nat) : (s.raiseM src ty pay).abort = s.abort := rfl
@[simp] theorem State.raiseM_tasks (src ty pay : Nat) : (s.raiseM src ty pay).tasks = s.tasks := rfl
@[simp] theorem State.raiseM_nextTask (src ty pay : Nat) : (s.raiseM src ty pay).nextTask = s.nextTask := rfl
@[simp] theorem State.raiseM_facets (src ty pay : Nat) : (s.raiseM src ty pay).facets = s.facets := rfl
@[simp] theorem State.raiseM_facetBank (src ty pay : Nat) : (s.raiseM src ty pay).facetBank = s.facetBank := rfl
@[simp] theorem State.raiseM_bobbin (src ty pay : Nat) : (s.raiseM src ty pay).bobbin = s.bobbin := rfl
@[simp] theorem State.raiseM_flushes (src ty pay : Nat) : (s.raiseM src ty pay).flushes = s.flushes := rfl
@[simp] theorem State.raiseM_poolWaits (src ty pay : Nat) : (s.raiseM src ty pay).poolWaits = s.poolWaits := rfl
@[simp] theorem State.raiseM_seqUsed (src ty pay : Nat) : (s.raiseM src ty pay).seqUsed = s.seqUsed := rfl
@[simp] theorem State.raiseM_classInit (src ty pay : Nat) : (s.raiseM src ty pay).classInit = s.classInit := rfl
@[simp] theorem State.raiseM_retired (src ty pay : Nat) : (s.raiseM src ty pay).retired = s.retired := rfl
@[simp] theorem State.raiseM_samp (src ty pay : Nat) : (s.raiseM src ty pay).samp = s.samp := rfl
@[simp] theorem State.raiseM_cancels (src ty pay : Nat) : (s.raiseM src ty pay).cancels = s.cancels := rfl
@[simp] theorem State.raiseM_cancelled (src ty pay : Nat) : (s.raiseM src ty pay).cancelled = s.cancelled := rfl
@[simp] theorem State.raiseM_cancelDue (src ty pay : Nat) : (s.raiseM src ty pay).cancelDue = s.cancelDue := rfl
@[simp] theorem State.raiseM_requests (src ty pay : Nat) : (s.raiseM src ty pay).requests = s.requests := rfl
@[simp] theorem State.raiseM_nextReq (src ty pay : Nat) : (s.raiseM src ty pay).nextReq = s.nextReq := rfl
@[simp] theorem State.raiseM_clientOps (src ty pay : Nat) : (s.raiseM src ty pay).clientOps = s.clientOps := rfl
@[simp] theorem State.raiseM_duePauses (src ty pay : Nat) : (s.raiseM src ty pay).duePauses = s.duePauses := rfl
@[simp] theorem State.raiseM_images (src ty pay : Nat) : (s.raiseM src ty pay).images = s.images := rfl
@[simp] theorem State.raiseM_oldImages (src ty pay : Nat) : (s.raiseM src ty pay).oldImages = s.oldImages := rfl
@[simp] theorem State.raiseM_coldQ (src ty pay : Nat) : (s.raiseM src ty pay).coldQ = s.coldQ := rfl
@[simp] theorem State.raiseM_resuming (src ty pay : Nat) : (s.raiseM src ty pay).resuming = s.resuming := rfl
@[simp] theorem State.raiseM_restoring (src ty pay : Nat) : (s.raiseM src ty pay).restoring = s.restoring := rfl
@[simp] theorem State.raiseM_coldGen (src ty pay : Nat) : (s.raiseM src ty pay).coldGen = s.coldGen := rfl
@[simp] theorem State.raiseM_coldBytes (src ty pay : Nat) : (s.raiseM src ty pay).coldBytes = s.coldBytes := rfl
@[simp] theorem State.raiseM_vchans (src ty pay : Nat) : (s.raiseM src ty pay).vchans = s.vchans := rfl
@[simp] theorem State.raiseM_shuttles (src ty pay : Nat) : (s.raiseM src ty pay).shuttles = s.shuttles := rfl
@[simp] theorem State.raiseM_cbSeen (src ty pay : Nat) : (s.raiseM src ty pay).cbSeen = s.cbSeen := rfl
@[simp] theorem State.raiseM_cbNext (src ty pay : Nat) : (s.raiseM src ty pay).cbNext = s.cbNext := rfl
@[simp] theorem State.raiseM_meters (src ty pay : Nat) : (s.raiseM src ty pay).meters = s.meters := rfl
@[simp] theorem State.raiseM_qps (src ty pay : Nat) : (s.raiseM src ty pay).qps = s.qps := rfl
@[simp] theorem State.raiseM_sessions (src ty pay : Nat) : (s.raiseM src ty pay).sessions = s.sessions := rfl
@[simp] theorem State.raiseM_nextSess (src ty pay : Nat) : (s.raiseM src ty pay).nextSess = s.nextSess := rfl
@[simp] theorem State.raiseM_reasm (src ty pay : Nat) : (s.raiseM src ty pay).reasm = s.reasm := rfl
@[simp] theorem State.raiseM_inbox (src ty pay : Nat) : (s.raiseM src ty pay).inbox = s.inbox := rfl
@[simp] theorem State.raiseM_rdmaIn (src ty pay : Nat) : (s.raiseM src ty pay).rdmaIn = s.rdmaIn := rfl
@[simp] theorem State.raiseM_cnpIn (src ty pay : Nat) : (s.raiseM src ty pay).cnpIn = s.cnpIn := rfl
@[simp] theorem State.raiseM_ptpIn (src ty pay : Nat) : (s.raiseM src ty pay).ptpIn = s.ptpIn := rfl
@[simp] theorem State.raiseM_links (src ty pay : Nat) : (s.raiseM src ty pay).links = s.links := rfl
@[simp] theorem State.raiseM_landings (src ty pay : Nat) : (s.raiseM src ty pay).landings = s.landings := rfl
@[simp] theorem State.raiseM_txCredits (src ty pay : Nat) : (s.raiseM src ty pay).txCredits = s.txCredits := rfl
@[simp] theorem State.raiseM_epochAt (src ty pay : Nat) : (s.raiseM src ty pay).epochAt = s.epochAt := rfl
@[simp] theorem State.raiseM_barriers (src ty pay : Nat) : (s.raiseM src ty pay).barriers = s.barriers := rfl
@[simp] theorem State.raiseM_waitArrive (src ty pay : Nat) : (s.raiseM src ty pay).waitArrive = s.waitArrive := rfl
@[simp] theorem State.raiseM_pair (src ty pay : Nat) : (s.raiseM src ty pay).pair = s.pair := rfl
@[simp] theorem State.raiseM_heldOut (src ty pay : Nat) : (s.raiseM src ty pay).heldOut = s.heldOut := rfl
@[simp] theorem State.raiseM_out (src ty pay : Nat) : (s.raiseM src ty pay).out = s.out := rfl
@[simp] theorem State.raiseM_trigs (src ty pay : Nat) : (s.raiseM src ty pay).trigs = s.trigs := rfl
@[simp] theorem State.raiseM_trigFifo (src ty pay : Nat) : (s.raiseM src ty pay).trigFifo = s.trigFifo := rfl
@[simp] theorem State.raiseM_lastEdge (src ty pay : Nat) : (s.raiseM src ty pay).lastEdge = s.lastEdge := rfl
@[simp] theorem State.raiseM_verdictQ (src ty pay : Nat) : (s.raiseM src ty pay).verdictQ = s.verdictQ := rfl
@[simp] theorem State.raiseM_linePend (src ty pay : Nat) : (s.raiseM src ty pay).linePend = s.linePend := rfl
@[simp] theorem State.raiseM_pins (src ty pay : Nat) : (s.raiseM src ty pay).pins = s.pins := rfl
@[simp] theorem State.raiseM_power (src ty pay : Nat) : (s.raiseM src ty pay).power = s.power := rfl
@[simp] theorem State.raiseM_gated (src ty pay : Nat) : (s.raiseM src ty pay).gated = s.gated := rfl
@[simp] theorem State.raiseM_thimble (src ty pay : Nat) : (s.raiseM src ty pay).thimble = s.thimble := rfl
@[simp] theorem State.raiseM_teardowns (src ty pay : Nat) : (s.raiseM src ty pay).teardowns = s.teardowns := rfl
@[simp] theorem State.raiseM_tdFree (src ty pay : Nat) : (s.raiseM src ty pay).tdFree = s.tdFree := rfl
@[simp] theorem State.raiseM_attest (src ty pay : Nat) : (s.raiseM src ty pay).attest = s.attest := rfl
@[simp] theorem State.raiseM_issued (src ty pay : Nat) : (s.raiseM src ty pay).issued = s.issued := rfl
@[simp] theorem State.raiseM_tampered (src ty pay : Nat) : (s.raiseM src ty pay).tampered = s.tampered := rfl
@[simp] theorem State.raiseM_keysOk (src ty pay : Nat) : (s.raiseM src ty pay).keysOk = s.keysOk := rfl
@[simp] theorem State.raiseM_slotId (src ty pay : Nat) : (s.raiseM src ty pay).slotId = s.slotId := rfl
@[simp] theorem State.raiseM_repeats (src ty pay : Nat) : (s.raiseM src ty pay).repeats = s.repeats := rfl
@[simp] theorem State.raiseM_reports (src ty pay : Nat) : (s.raiseM src ty pay).reports = s.reports := rfl
@[simp] theorem State.raiseM_test (src ty pay : Nat) : (s.raiseM src ty pay).test = s.test := rfl
@[simp] theorem State.raiseM_testNext (src ty pay : Nat) : (s.raiseM src ty pay).testNext = s.testNext := rfl
@[simp] theorem State.raiseM_testAt (src ty pay : Nat) : (s.raiseM src ty pay).testAt = s.testAt := rfl
@[simp] theorem State.raiseM_resets (src ty pay : Nat) : (s.raiseM src ty pay).resets = s.resets := rfl
@[simp] theorem State.raiseM_busyAt (src ty pay : Nat) : (s.raiseM src ty pay).busyAt = s.busyAt := rfl
@[simp] theorem State.raiseM_traces (src ty pay : Nat) : (s.raiseM src ty pay).traces = s.traces := rfl
@[simp] theorem State.raiseM_trcDropped (src ty pay : Nat) : (s.raiseM src ty pay).trcDropped = s.trcDropped := rfl
@[simp] theorem State.raiseM_wdStart (src ty pay : Nat) : (s.raiseM src ty pay).wdStart = s.wdStart := rfl
@[simp] theorem State.raiseM_wdKicked (src ty pay : Nat) : (s.raiseM src ty pay).wdKicked = s.wdKicked := rfl
@[simp] theorem State.raiseM_wdMark (src ty pay : Nat) : (s.raiseM src ty pay).wdMark = s.wdMark := rfl
@[simp] theorem State.raiseM_smpLast (src ty pay : Nat) : (s.raiseM src ty pay).smpLast = s.smpLast := rfl
@[simp] theorem State.raiseM_smpCount (src ty pay : Nat) : (s.raiseM src ty pay).smpCount = s.smpCount := rfl
@[simp] theorem State.raiseM_frozen (src ty pay : Nat) : (s.raiseM src ty pay).frozen = s.frozen := rfl
@[simp] theorem State.raiseM_stopAt (src ty pay : Nat) : (s.raiseM src ty pay).stopAt = s.stopAt := rfl
@[simp] theorem State.raiseM_store (src ty pay : Nat) : (s.raiseM src ty pay).store = s.store := rfl
@[simp] theorem State.raiseM_calNext (src ty pay : Nat) : (s.raiseM src ty pay).calNext = s.calNext := rfl

/-! `State.pinReport` -/

@[simp] theorem State.pinReport_pending (src cls bits : Nat) : (s.pinReport src cls bits).pending = s.pending := rfl
@[simp] theorem State.pinReport_serial (src cls bits : Nat) : (s.pinReport src cls bits).serial = s.serial := rfl
@[simp] theorem State.pinReport_fabric (src cls bits : Nat) : (s.pinReport src cls bits).fabric = s.fabric := rfl
@[simp] theorem State.pinReport_regs (src cls bits : Nat) : (s.pinReport src cls bits).regs = s.regs := rfl
@[simp] theorem State.pinReport_mem (src cls bits : Nat) : (s.pinReport src cls bits).mem = s.mem := rfl
@[simp] theorem State.pinReport_keyTag (src cls bits : Nat) : (s.pinReport src cls bits).keyTag = s.keyTag := rfl
@[simp] theorem State.pinReport_badLines (src cls bits : Nat) : (s.pinReport src cls bits).badLines = s.badLines := rfl
@[simp] theorem State.pinReport_pprRows (src cls bits : Nat) : (s.pinReport src cls bits).pprRows = s.pprRows := rfl
@[simp] theorem State.pinReport_clearing (src cls bits : Nat) : (s.pinReport src cls bits).clearing = s.clearing := rfl
@[simp] theorem State.pinReport_memWaits (src cls bits : Nat) : (s.pinReport src cls bits).memWaits = s.memWaits := rfl
@[simp] theorem State.pinReport_scrubAt (src cls bits : Nat) : (s.pinReport src cls bits).scrubAt = s.scrubAt := rfl
@[simp] theorem State.pinReport_busData (src cls bits : Nat) : (s.pinReport src cls bits).busData = s.busData := rfl
@[simp] theorem State.pinReport_busErr (src cls bits : Nat) : (s.pinReport src cls bits).busErr = s.busErr := rfl
@[simp] theorem State.pinReport_free (src cls bits : Nat) : (s.pinReport src cls bits).free = s.free := rfl
@[simp] theorem State.pinReport_tb (src cls bits : Nat) : (s.pinReport src cls bits).tb = s.tb := rfl
@[simp] theorem State.pinReport_events (src cls bits : Nat) : (s.pinReport src cls bits).events = s.events := rfl
@[simp] theorem State.pinReport_eaNext (src cls bits : Nat) : (s.pinReport src cls bits).eaNext = s.eaNext := rfl
@[simp] theorem State.pinReport_eaLast (src cls bits : Nat) : (s.pinReport src cls bits).eaLast = s.eaLast := rfl
@[simp] theorem State.pinReport_tracked (src cls bits : Nat) : (s.pinReport src cls bits).tracked = s.tracked := rfl
@[simp] theorem State.pinReport_recQ (src cls bits : Nat) : (s.pinReport src cls bits).recQ = s.recQ := rfl
@[simp] theorem State.pinReport_traceHold (src cls bits : Nat) : (s.pinReport src cls bits).traceHold = s.traceHold := rfl
@[simp] theorem State.pinReport_nextSlot (src cls bits : Nat) : (s.pinReport src cls bits).nextSlot = s.nextSlot := rfl
@[simp] theorem State.pinReport_chans (src cls bits : Nat) : (s.pinReport src cls bits).chans = s.chans := rfl
@[simp] theorem State.pinReport_lingering (src cls bits : Nat) : (s.pinReport src cls bits).lingering = s.lingering := rfl
@[simp] theorem State.pinReport_settling (src cls bits : Nat) : (s.pinReport src cls bits).settling = s.settling := rfl
@[simp] theorem State.pinReport_queues (src cls bits : Nat) : (s.pinReport src cls bits).queues = s.queues := rfl
@[simp] theorem State.pinReport_wrrAt (src cls bits : Nat) : (s.pinReport src cls bits).wrrAt = s.wrrAt := rfl
@[simp] theorem State.pinReport_mapCe (src cls bits : Nat) : (s.pinReport src cls bits).mapCe = s.mapCe := rfl
@[simp] theorem State.pinReport_mapDe (src cls bits : Nat) : (s.pinReport src cls bits).mapDe = s.mapDe := rfl
@[simp] theorem State.pinReport_abort (src cls bits : Nat) : (s.pinReport src cls bits).abort = s.abort := rfl
@[simp] theorem State.pinReport_tasks (src cls bits : Nat) : (s.pinReport src cls bits).tasks = s.tasks := rfl
@[simp] theorem State.pinReport_nextTask (src cls bits : Nat) : (s.pinReport src cls bits).nextTask = s.nextTask := rfl
@[simp] theorem State.pinReport_facets (src cls bits : Nat) : (s.pinReport src cls bits).facets = s.facets := rfl
@[simp] theorem State.pinReport_facetBank (src cls bits : Nat) : (s.pinReport src cls bits).facetBank = s.facetBank := rfl
@[simp] theorem State.pinReport_bobbin (src cls bits : Nat) : (s.pinReport src cls bits).bobbin = s.bobbin := rfl
@[simp] theorem State.pinReport_flushes (src cls bits : Nat) : (s.pinReport src cls bits).flushes = s.flushes := rfl
@[simp] theorem State.pinReport_poolWaits (src cls bits : Nat) : (s.pinReport src cls bits).poolWaits = s.poolWaits := rfl
@[simp] theorem State.pinReport_seqUsed (src cls bits : Nat) : (s.pinReport src cls bits).seqUsed = s.seqUsed := rfl
@[simp] theorem State.pinReport_classInit (src cls bits : Nat) : (s.pinReport src cls bits).classInit = s.classInit := rfl
@[simp] theorem State.pinReport_retired (src cls bits : Nat) : (s.pinReport src cls bits).retired = s.retired := rfl
@[simp] theorem State.pinReport_samp (src cls bits : Nat) : (s.pinReport src cls bits).samp = s.samp := rfl
@[simp] theorem State.pinReport_cancels (src cls bits : Nat) : (s.pinReport src cls bits).cancels = s.cancels := rfl
@[simp] theorem State.pinReport_cancelled (src cls bits : Nat) : (s.pinReport src cls bits).cancelled = s.cancelled := rfl
@[simp] theorem State.pinReport_cancelDue (src cls bits : Nat) : (s.pinReport src cls bits).cancelDue = s.cancelDue := rfl
@[simp] theorem State.pinReport_requests (src cls bits : Nat) : (s.pinReport src cls bits).requests = s.requests := rfl
@[simp] theorem State.pinReport_nextReq (src cls bits : Nat) : (s.pinReport src cls bits).nextReq = s.nextReq := rfl
@[simp] theorem State.pinReport_clientOps (src cls bits : Nat) : (s.pinReport src cls bits).clientOps = s.clientOps := rfl
@[simp] theorem State.pinReport_duePauses (src cls bits : Nat) : (s.pinReport src cls bits).duePauses = s.duePauses := rfl
@[simp] theorem State.pinReport_images (src cls bits : Nat) : (s.pinReport src cls bits).images = s.images := rfl
@[simp] theorem State.pinReport_oldImages (src cls bits : Nat) : (s.pinReport src cls bits).oldImages = s.oldImages := rfl
@[simp] theorem State.pinReport_coldQ (src cls bits : Nat) : (s.pinReport src cls bits).coldQ = s.coldQ := rfl
@[simp] theorem State.pinReport_resuming (src cls bits : Nat) : (s.pinReport src cls bits).resuming = s.resuming := rfl
@[simp] theorem State.pinReport_restoring (src cls bits : Nat) : (s.pinReport src cls bits).restoring = s.restoring := rfl
@[simp] theorem State.pinReport_coldGen (src cls bits : Nat) : (s.pinReport src cls bits).coldGen = s.coldGen := rfl
@[simp] theorem State.pinReport_coldBytes (src cls bits : Nat) : (s.pinReport src cls bits).coldBytes = s.coldBytes := rfl
@[simp] theorem State.pinReport_vchans (src cls bits : Nat) : (s.pinReport src cls bits).vchans = s.vchans := rfl
@[simp] theorem State.pinReport_shuttles (src cls bits : Nat) : (s.pinReport src cls bits).shuttles = s.shuttles := rfl
@[simp] theorem State.pinReport_cbSeen (src cls bits : Nat) : (s.pinReport src cls bits).cbSeen = s.cbSeen := rfl
@[simp] theorem State.pinReport_cbNext (src cls bits : Nat) : (s.pinReport src cls bits).cbNext = s.cbNext := rfl
@[simp] theorem State.pinReport_meters (src cls bits : Nat) : (s.pinReport src cls bits).meters = s.meters := rfl
@[simp] theorem State.pinReport_qps (src cls bits : Nat) : (s.pinReport src cls bits).qps = s.qps := rfl
@[simp] theorem State.pinReport_sessions (src cls bits : Nat) : (s.pinReport src cls bits).sessions = s.sessions := rfl
@[simp] theorem State.pinReport_nextSess (src cls bits : Nat) : (s.pinReport src cls bits).nextSess = s.nextSess := rfl
@[simp] theorem State.pinReport_reasm (src cls bits : Nat) : (s.pinReport src cls bits).reasm = s.reasm := rfl
@[simp] theorem State.pinReport_inbox (src cls bits : Nat) : (s.pinReport src cls bits).inbox = s.inbox := rfl
@[simp] theorem State.pinReport_rdmaIn (src cls bits : Nat) : (s.pinReport src cls bits).rdmaIn = s.rdmaIn := rfl
@[simp] theorem State.pinReport_cnpIn (src cls bits : Nat) : (s.pinReport src cls bits).cnpIn = s.cnpIn := rfl
@[simp] theorem State.pinReport_ptpIn (src cls bits : Nat) : (s.pinReport src cls bits).ptpIn = s.ptpIn := rfl
@[simp] theorem State.pinReport_links (src cls bits : Nat) : (s.pinReport src cls bits).links = s.links := rfl
@[simp] theorem State.pinReport_landings (src cls bits : Nat) : (s.pinReport src cls bits).landings = s.landings := rfl
@[simp] theorem State.pinReport_txCredits (src cls bits : Nat) : (s.pinReport src cls bits).txCredits = s.txCredits := rfl
@[simp] theorem State.pinReport_epochAt (src cls bits : Nat) : (s.pinReport src cls bits).epochAt = s.epochAt := rfl
@[simp] theorem State.pinReport_barriers (src cls bits : Nat) : (s.pinReport src cls bits).barriers = s.barriers := rfl
@[simp] theorem State.pinReport_waitArrive (src cls bits : Nat) : (s.pinReport src cls bits).waitArrive = s.waitArrive := rfl
@[simp] theorem State.pinReport_pair (src cls bits : Nat) : (s.pinReport src cls bits).pair = s.pair := rfl
@[simp] theorem State.pinReport_heldOut (src cls bits : Nat) : (s.pinReport src cls bits).heldOut = s.heldOut := rfl
@[simp] theorem State.pinReport_out (src cls bits : Nat) : (s.pinReport src cls bits).out = s.out := rfl
@[simp] theorem State.pinReport_trigs (src cls bits : Nat) : (s.pinReport src cls bits).trigs = s.trigs := rfl
@[simp] theorem State.pinReport_trigFifo (src cls bits : Nat) : (s.pinReport src cls bits).trigFifo = s.trigFifo := rfl
@[simp] theorem State.pinReport_lastEdge (src cls bits : Nat) : (s.pinReport src cls bits).lastEdge = s.lastEdge := rfl
@[simp] theorem State.pinReport_verdictQ (src cls bits : Nat) : (s.pinReport src cls bits).verdictQ = s.verdictQ := rfl
@[simp] theorem State.pinReport_linePend (src cls bits : Nat) : (s.pinReport src cls bits).linePend = s.linePend := rfl
@[simp] theorem State.pinReport_pins (src cls bits : Nat) : (s.pinReport src cls bits).pins = s.pins := rfl
@[simp] theorem State.pinReport_power (src cls bits : Nat) : (s.pinReport src cls bits).power = s.power := rfl
@[simp] theorem State.pinReport_gated (src cls bits : Nat) : (s.pinReport src cls bits).gated = s.gated := rfl
@[simp] theorem State.pinReport_thimble (src cls bits : Nat) : (s.pinReport src cls bits).thimble = s.thimble := rfl
@[simp] theorem State.pinReport_teardowns (src cls bits : Nat) : (s.pinReport src cls bits).teardowns = s.teardowns := rfl
@[simp] theorem State.pinReport_tdFree (src cls bits : Nat) : (s.pinReport src cls bits).tdFree = s.tdFree := rfl
@[simp] theorem State.pinReport_attest (src cls bits : Nat) : (s.pinReport src cls bits).attest = s.attest := rfl
@[simp] theorem State.pinReport_issued (src cls bits : Nat) : (s.pinReport src cls bits).issued = s.issued := rfl
@[simp] theorem State.pinReport_tampered (src cls bits : Nat) : (s.pinReport src cls bits).tampered = s.tampered := rfl
@[simp] theorem State.pinReport_keysOk (src cls bits : Nat) : (s.pinReport src cls bits).keysOk = s.keysOk := rfl
@[simp] theorem State.pinReport_slotId (src cls bits : Nat) : (s.pinReport src cls bits).slotId = s.slotId := rfl
@[simp] theorem State.pinReport_repeats (src cls bits : Nat) : (s.pinReport src cls bits).repeats = s.repeats := rfl
@[simp] theorem State.pinReport_test (src cls bits : Nat) : (s.pinReport src cls bits).test = s.test := rfl
@[simp] theorem State.pinReport_testNext (src cls bits : Nat) : (s.pinReport src cls bits).testNext = s.testNext := rfl
@[simp] theorem State.pinReport_testAt (src cls bits : Nat) : (s.pinReport src cls bits).testAt = s.testAt := rfl
@[simp] theorem State.pinReport_resets (src cls bits : Nat) : (s.pinReport src cls bits).resets = s.resets := rfl
@[simp] theorem State.pinReport_busyAt (src cls bits : Nat) : (s.pinReport src cls bits).busyAt = s.busyAt := rfl
@[simp] theorem State.pinReport_traces (src cls bits : Nat) : (s.pinReport src cls bits).traces = s.traces := rfl
@[simp] theorem State.pinReport_trcDropped (src cls bits : Nat) : (s.pinReport src cls bits).trcDropped = s.trcDropped := rfl
@[simp] theorem State.pinReport_wdStart (src cls bits : Nat) : (s.pinReport src cls bits).wdStart = s.wdStart := rfl
@[simp] theorem State.pinReport_wdKicked (src cls bits : Nat) : (s.pinReport src cls bits).wdKicked = s.wdKicked := rfl
@[simp] theorem State.pinReport_wdMark (src cls bits : Nat) : (s.pinReport src cls bits).wdMark = s.wdMark := rfl
@[simp] theorem State.pinReport_smpLast (src cls bits : Nat) : (s.pinReport src cls bits).smpLast = s.smpLast := rfl
@[simp] theorem State.pinReport_smpCount (src cls bits : Nat) : (s.pinReport src cls bits).smpCount = s.smpCount := rfl
@[simp] theorem State.pinReport_frozen (src cls bits : Nat) : (s.pinReport src cls bits).frozen = s.frozen := rfl
@[simp] theorem State.pinReport_stopAt (src cls bits : Nat) : (s.pinReport src cls bits).stopAt = s.stopAt := rfl
@[simp] theorem State.pinReport_store (src cls bits : Nat) : (s.pinReport src cls bits).store = s.store := rfl
@[simp] theorem State.pinReport_calNext (src cls bits : Nat) : (s.pinReport src cls bits).calNext = s.calNext := rfl

/-! `State.pokeRaw` -/

@[simp] theorem State.pokeRaw_pending (a : Nat) (b : Byte) : (s.pokeRaw a b).pending = s.pending := rfl
@[simp] theorem State.pokeRaw_serial (a : Nat) (b : Byte) : (s.pokeRaw a b).serial = s.serial := rfl
@[simp] theorem State.pokeRaw_fabric (a : Nat) (b : Byte) : (s.pokeRaw a b).fabric = s.fabric := rfl
@[simp] theorem State.pokeRaw_regs (a : Nat) (b : Byte) : (s.pokeRaw a b).regs = s.regs := rfl
@[simp] theorem State.pokeRaw_keyTag (a : Nat) (b : Byte) : (s.pokeRaw a b).keyTag = s.keyTag := rfl
@[simp] theorem State.pokeRaw_badLines (a : Nat) (b : Byte) : (s.pokeRaw a b).badLines = s.badLines := rfl
@[simp] theorem State.pokeRaw_pprRows (a : Nat) (b : Byte) : (s.pokeRaw a b).pprRows = s.pprRows := rfl
@[simp] theorem State.pokeRaw_clearing (a : Nat) (b : Byte) : (s.pokeRaw a b).clearing = s.clearing := rfl
@[simp] theorem State.pokeRaw_memWaits (a : Nat) (b : Byte) : (s.pokeRaw a b).memWaits = s.memWaits := rfl
@[simp] theorem State.pokeRaw_scrubAt (a : Nat) (b : Byte) : (s.pokeRaw a b).scrubAt = s.scrubAt := rfl
@[simp] theorem State.pokeRaw_busData (a : Nat) (b : Byte) : (s.pokeRaw a b).busData = s.busData := rfl
@[simp] theorem State.pokeRaw_busErr (a : Nat) (b : Byte) : (s.pokeRaw a b).busErr = s.busErr := rfl
@[simp] theorem State.pokeRaw_free (a : Nat) (b : Byte) : (s.pokeRaw a b).free = s.free := rfl
@[simp] theorem State.pokeRaw_tb (a : Nat) (b : Byte) : (s.pokeRaw a b).tb = s.tb := rfl
@[simp] theorem State.pokeRaw_events (a : Nat) (b : Byte) : (s.pokeRaw a b).events = s.events := rfl
@[simp] theorem State.pokeRaw_eaNext (a : Nat) (b : Byte) : (s.pokeRaw a b).eaNext = s.eaNext := rfl
@[simp] theorem State.pokeRaw_eaLast (a : Nat) (b : Byte) : (s.pokeRaw a b).eaLast = s.eaLast := rfl
@[simp] theorem State.pokeRaw_tracked (a : Nat) (b : Byte) : (s.pokeRaw a b).tracked = s.tracked := rfl
@[simp] theorem State.pokeRaw_recQ (a : Nat) (b : Byte) : (s.pokeRaw a b).recQ = s.recQ := rfl
@[simp] theorem State.pokeRaw_traceHold (a : Nat) (b : Byte) : (s.pokeRaw a b).traceHold = s.traceHold := rfl
@[simp] theorem State.pokeRaw_nextSlot (a : Nat) (b : Byte) : (s.pokeRaw a b).nextSlot = s.nextSlot := rfl
@[simp] theorem State.pokeRaw_chans (a : Nat) (b : Byte) : (s.pokeRaw a b).chans = s.chans := rfl
@[simp] theorem State.pokeRaw_lingering (a : Nat) (b : Byte) : (s.pokeRaw a b).lingering = s.lingering := rfl
@[simp] theorem State.pokeRaw_settling (a : Nat) (b : Byte) : (s.pokeRaw a b).settling = s.settling := rfl
@[simp] theorem State.pokeRaw_queues (a : Nat) (b : Byte) : (s.pokeRaw a b).queues = s.queues := rfl
@[simp] theorem State.pokeRaw_wrrAt (a : Nat) (b : Byte) : (s.pokeRaw a b).wrrAt = s.wrrAt := rfl
@[simp] theorem State.pokeRaw_mapCe (a : Nat) (b : Byte) : (s.pokeRaw a b).mapCe = s.mapCe := rfl
@[simp] theorem State.pokeRaw_mapDe (a : Nat) (b : Byte) : (s.pokeRaw a b).mapDe = s.mapDe := rfl
@[simp] theorem State.pokeRaw_abort (a : Nat) (b : Byte) : (s.pokeRaw a b).abort = s.abort := rfl
@[simp] theorem State.pokeRaw_tasks (a : Nat) (b : Byte) : (s.pokeRaw a b).tasks = s.tasks := rfl
@[simp] theorem State.pokeRaw_nextTask (a : Nat) (b : Byte) : (s.pokeRaw a b).nextTask = s.nextTask := rfl
@[simp] theorem State.pokeRaw_facets (a : Nat) (b : Byte) : (s.pokeRaw a b).facets = s.facets := rfl
@[simp] theorem State.pokeRaw_facetBank (a : Nat) (b : Byte) : (s.pokeRaw a b).facetBank = s.facetBank := rfl
@[simp] theorem State.pokeRaw_bobbin (a : Nat) (b : Byte) : (s.pokeRaw a b).bobbin = s.bobbin := rfl
@[simp] theorem State.pokeRaw_flushes (a : Nat) (b : Byte) : (s.pokeRaw a b).flushes = s.flushes := rfl
@[simp] theorem State.pokeRaw_poolWaits (a : Nat) (b : Byte) : (s.pokeRaw a b).poolWaits = s.poolWaits := rfl
@[simp] theorem State.pokeRaw_seqUsed (a : Nat) (b : Byte) : (s.pokeRaw a b).seqUsed = s.seqUsed := rfl
@[simp] theorem State.pokeRaw_classInit (a : Nat) (b : Byte) : (s.pokeRaw a b).classInit = s.classInit := rfl
@[simp] theorem State.pokeRaw_retired (a : Nat) (b : Byte) : (s.pokeRaw a b).retired = s.retired := rfl
@[simp] theorem State.pokeRaw_samp (a : Nat) (b : Byte) : (s.pokeRaw a b).samp = s.samp := rfl
@[simp] theorem State.pokeRaw_cancels (a : Nat) (b : Byte) : (s.pokeRaw a b).cancels = s.cancels := rfl
@[simp] theorem State.pokeRaw_cancelled (a : Nat) (b : Byte) : (s.pokeRaw a b).cancelled = s.cancelled := rfl
@[simp] theorem State.pokeRaw_cancelDue (a : Nat) (b : Byte) : (s.pokeRaw a b).cancelDue = s.cancelDue := rfl
@[simp] theorem State.pokeRaw_requests (a : Nat) (b : Byte) : (s.pokeRaw a b).requests = s.requests := rfl
@[simp] theorem State.pokeRaw_nextReq (a : Nat) (b : Byte) : (s.pokeRaw a b).nextReq = s.nextReq := rfl
@[simp] theorem State.pokeRaw_clientOps (a : Nat) (b : Byte) : (s.pokeRaw a b).clientOps = s.clientOps := rfl
@[simp] theorem State.pokeRaw_duePauses (a : Nat) (b : Byte) : (s.pokeRaw a b).duePauses = s.duePauses := rfl
@[simp] theorem State.pokeRaw_images (a : Nat) (b : Byte) : (s.pokeRaw a b).images = s.images := rfl
@[simp] theorem State.pokeRaw_oldImages (a : Nat) (b : Byte) : (s.pokeRaw a b).oldImages = s.oldImages := rfl
@[simp] theorem State.pokeRaw_coldQ (a : Nat) (b : Byte) : (s.pokeRaw a b).coldQ = s.coldQ := rfl
@[simp] theorem State.pokeRaw_resuming (a : Nat) (b : Byte) : (s.pokeRaw a b).resuming = s.resuming := rfl
@[simp] theorem State.pokeRaw_restoring (a : Nat) (b : Byte) : (s.pokeRaw a b).restoring = s.restoring := rfl
@[simp] theorem State.pokeRaw_coldGen (a : Nat) (b : Byte) : (s.pokeRaw a b).coldGen = s.coldGen := rfl
@[simp] theorem State.pokeRaw_coldBytes (a : Nat) (b : Byte) : (s.pokeRaw a b).coldBytes = s.coldBytes := rfl
@[simp] theorem State.pokeRaw_vchans (a : Nat) (b : Byte) : (s.pokeRaw a b).vchans = s.vchans := rfl
@[simp] theorem State.pokeRaw_shuttles (a : Nat) (b : Byte) : (s.pokeRaw a b).shuttles = s.shuttles := rfl
@[simp] theorem State.pokeRaw_cbSeen (a : Nat) (b : Byte) : (s.pokeRaw a b).cbSeen = s.cbSeen := rfl
@[simp] theorem State.pokeRaw_cbNext (a : Nat) (b : Byte) : (s.pokeRaw a b).cbNext = s.cbNext := rfl
@[simp] theorem State.pokeRaw_meters (a : Nat) (b : Byte) : (s.pokeRaw a b).meters = s.meters := rfl
@[simp] theorem State.pokeRaw_qps (a : Nat) (b : Byte) : (s.pokeRaw a b).qps = s.qps := rfl
@[simp] theorem State.pokeRaw_sessions (a : Nat) (b : Byte) : (s.pokeRaw a b).sessions = s.sessions := rfl
@[simp] theorem State.pokeRaw_nextSess (a : Nat) (b : Byte) : (s.pokeRaw a b).nextSess = s.nextSess := rfl
@[simp] theorem State.pokeRaw_reasm (a : Nat) (b : Byte) : (s.pokeRaw a b).reasm = s.reasm := rfl
@[simp] theorem State.pokeRaw_inbox (a : Nat) (b : Byte) : (s.pokeRaw a b).inbox = s.inbox := rfl
@[simp] theorem State.pokeRaw_rdmaIn (a : Nat) (b : Byte) : (s.pokeRaw a b).rdmaIn = s.rdmaIn := rfl
@[simp] theorem State.pokeRaw_cnpIn (a : Nat) (b : Byte) : (s.pokeRaw a b).cnpIn = s.cnpIn := rfl
@[simp] theorem State.pokeRaw_ptpIn (a : Nat) (b : Byte) : (s.pokeRaw a b).ptpIn = s.ptpIn := rfl
@[simp] theorem State.pokeRaw_links (a : Nat) (b : Byte) : (s.pokeRaw a b).links = s.links := rfl
@[simp] theorem State.pokeRaw_landings (a : Nat) (b : Byte) : (s.pokeRaw a b).landings = s.landings := rfl
@[simp] theorem State.pokeRaw_txCredits (a : Nat) (b : Byte) : (s.pokeRaw a b).txCredits = s.txCredits := rfl
@[simp] theorem State.pokeRaw_epochAt (a : Nat) (b : Byte) : (s.pokeRaw a b).epochAt = s.epochAt := rfl
@[simp] theorem State.pokeRaw_barriers (a : Nat) (b : Byte) : (s.pokeRaw a b).barriers = s.barriers := rfl
@[simp] theorem State.pokeRaw_waitArrive (a : Nat) (b : Byte) : (s.pokeRaw a b).waitArrive = s.waitArrive := rfl
@[simp] theorem State.pokeRaw_pair (a : Nat) (b : Byte) : (s.pokeRaw a b).pair = s.pair := rfl
@[simp] theorem State.pokeRaw_heldOut (a : Nat) (b : Byte) : (s.pokeRaw a b).heldOut = s.heldOut := rfl
@[simp] theorem State.pokeRaw_out (a : Nat) (b : Byte) : (s.pokeRaw a b).out = s.out := rfl
@[simp] theorem State.pokeRaw_trigs (a : Nat) (b : Byte) : (s.pokeRaw a b).trigs = s.trigs := rfl
@[simp] theorem State.pokeRaw_trigFifo (a : Nat) (b : Byte) : (s.pokeRaw a b).trigFifo = s.trigFifo := rfl
@[simp] theorem State.pokeRaw_lastEdge (a : Nat) (b : Byte) : (s.pokeRaw a b).lastEdge = s.lastEdge := rfl
@[simp] theorem State.pokeRaw_verdictQ (a : Nat) (b : Byte) : (s.pokeRaw a b).verdictQ = s.verdictQ := rfl
@[simp] theorem State.pokeRaw_linePend (a : Nat) (b : Byte) : (s.pokeRaw a b).linePend = s.linePend := rfl
@[simp] theorem State.pokeRaw_pins (a : Nat) (b : Byte) : (s.pokeRaw a b).pins = s.pins := rfl
@[simp] theorem State.pokeRaw_power (a : Nat) (b : Byte) : (s.pokeRaw a b).power = s.power := rfl
@[simp] theorem State.pokeRaw_gated (a : Nat) (b : Byte) : (s.pokeRaw a b).gated = s.gated := rfl
@[simp] theorem State.pokeRaw_thimble (a : Nat) (b : Byte) : (s.pokeRaw a b).thimble = s.thimble := rfl
@[simp] theorem State.pokeRaw_teardowns (a : Nat) (b : Byte) : (s.pokeRaw a b).teardowns = s.teardowns := rfl
@[simp] theorem State.pokeRaw_tdFree (a : Nat) (b : Byte) : (s.pokeRaw a b).tdFree = s.tdFree := rfl
@[simp] theorem State.pokeRaw_attest (a : Nat) (b : Byte) : (s.pokeRaw a b).attest = s.attest := rfl
@[simp] theorem State.pokeRaw_issued (a : Nat) (b : Byte) : (s.pokeRaw a b).issued = s.issued := rfl
@[simp] theorem State.pokeRaw_tampered (a : Nat) (b : Byte) : (s.pokeRaw a b).tampered = s.tampered := rfl
@[simp] theorem State.pokeRaw_keysOk (a : Nat) (b : Byte) : (s.pokeRaw a b).keysOk = s.keysOk := rfl
@[simp] theorem State.pokeRaw_slotId (a : Nat) (b : Byte) : (s.pokeRaw a b).slotId = s.slotId := rfl
@[simp] theorem State.pokeRaw_repeats (a : Nat) (b : Byte) : (s.pokeRaw a b).repeats = s.repeats := rfl
@[simp] theorem State.pokeRaw_reports (a : Nat) (b : Byte) : (s.pokeRaw a b).reports = s.reports := rfl
@[simp] theorem State.pokeRaw_test (a : Nat) (b : Byte) : (s.pokeRaw a b).test = s.test := rfl
@[simp] theorem State.pokeRaw_testNext (a : Nat) (b : Byte) : (s.pokeRaw a b).testNext = s.testNext := rfl
@[simp] theorem State.pokeRaw_testAt (a : Nat) (b : Byte) : (s.pokeRaw a b).testAt = s.testAt := rfl
@[simp] theorem State.pokeRaw_resets (a : Nat) (b : Byte) : (s.pokeRaw a b).resets = s.resets := rfl
@[simp] theorem State.pokeRaw_busyAt (a : Nat) (b : Byte) : (s.pokeRaw a b).busyAt = s.busyAt := rfl
@[simp] theorem State.pokeRaw_traces (a : Nat) (b : Byte) : (s.pokeRaw a b).traces = s.traces := rfl
@[simp] theorem State.pokeRaw_trcDropped (a : Nat) (b : Byte) : (s.pokeRaw a b).trcDropped = s.trcDropped := rfl
@[simp] theorem State.pokeRaw_wdStart (a : Nat) (b : Byte) : (s.pokeRaw a b).wdStart = s.wdStart := rfl
@[simp] theorem State.pokeRaw_wdKicked (a : Nat) (b : Byte) : (s.pokeRaw a b).wdKicked = s.wdKicked := rfl
@[simp] theorem State.pokeRaw_wdMark (a : Nat) (b : Byte) : (s.pokeRaw a b).wdMark = s.wdMark := rfl
@[simp] theorem State.pokeRaw_smpLast (a : Nat) (b : Byte) : (s.pokeRaw a b).smpLast = s.smpLast := rfl
@[simp] theorem State.pokeRaw_smpCount (a : Nat) (b : Byte) : (s.pokeRaw a b).smpCount = s.smpCount := rfl
@[simp] theorem State.pokeRaw_frozen (a : Nat) (b : Byte) : (s.pokeRaw a b).frozen = s.frozen := rfl
@[simp] theorem State.pokeRaw_stopAt (a : Nat) (b : Byte) : (s.pokeRaw a b).stopAt = s.stopAt := rfl
@[simp] theorem State.pokeRaw_store (a : Nat) (b : Byte) : (s.pokeRaw a b).store = s.store := rfl
@[simp] theorem State.pokeRaw_calNext (a : Nat) (b : Byte) : (s.pokeRaw a b).calNext = s.calNext := rfl

end Sys2Proof.Machine
end

