-- ==== Sys2Proof/Laws/Tables.lean ====
section
/-! SUPPORT. What the table operations do: an entry set is the entry read, and no other entry changes. -/

namespace Sys2Proof.Machine

open Sys2Proof

variable {α : Type}

@[simp] theorem tget_nil (k : Nat) : tget ([] : Tab α) k = none := rfl

@[simp] theorem tget_tset_self (t : Tab α) (k : Nat) (v : α) : tget (tset t k v) k = some v := by
  induction t with
  | nil => simp [tset, tget]
  | cons x r ih =>
    obtain ⟨i, a⟩ := x
    by_cases h1 : k < i
    · simp [tset, tget, h1]
    · by_cases h2 : k = i
      · simp [tset, tget, h2]
      · have h3 : ¬ i = k := fun h => h2 h.symm
        simp [tset, tget, h1, h2, h3, ih]

theorem tget_tset_ne (t : Tab α) {k j : Nat} (v : α) (h : k ≠ j) : tget (tset t k v) j = tget t j := by
  induction t with
  | nil => simp [tset, tget, h]
  | cons x r ih =>
    obtain ⟨i, a⟩ := x
    by_cases h1 : k < i
    · simp [tset, tget, h1, h]
    · by_cases h2 : k = i
      · subst h2; simp [tset, tget, h]
      · simp [tset, tget, h1, h2, ih]

theorem tget_tset (t : Tab α) (k j : Nat) (v : α) :
    tget (tset t k v) j = if k = j then some v else tget t j := by
  by_cases h : k = j
  · subst h; simp
  · simp [tget_tset_ne t v h, h]

@[simp] theorem tget_tdel_self (t : Tab α) (k : Nat) : tget (tdel t k) k = none := by
  induction t with
  | nil => rfl
  | cons x r ih =>
    obtain ⟨i, a⟩ := x
    by_cases h : i = k
    · simp [tdel, h, ih]
    · simp [tdel, tget, h, ih]

theorem tget_tdel_ne (t : Tab α) {k j : Nat} (h : k ≠ j) : tget (tdel t k) j = tget t j := by
  induction t with
  | nil => rfl
  | cons x r ih =>
    obtain ⟨i, a⟩ := x
    by_cases h1 : i = k
    · subst h1; simp [tdel, tget, h, ih]
    · simp [tdel, tget, h1, ih]

@[simp] theorem tgetD_tset_self (t : Tab α) (k : Nat) (v d : α) : tgetD (tset t k v) k d = v := by simp [tgetD]

theorem tgetD_tset_ne (t : Tab α) {k j : Nat} (v d : α) (h : k ≠ j) : tgetD (tset t k v) j d = tgetD t j d := by
  simp [tgetD, tget_tset_ne t v h]

end Sys2Proof.Machine
end

