-- ==== Sys2Proof/Laws/Registers.lean ====
section
/-! SUPPORT. What setting a register or a field does to every register and field, and what a byte of memory depends on. -/

namespace Sys2Proof.Machine

open Sys2Proof

variable (s : State)

/-- The register set holds the 64 bits written; every register of another home address keeps its value. -/
theorem reg_setReg (a v b : Nat) : (s.setReg a v).reg b = if homeAddr a = homeAddr b then v % 2 ^ 64 else s.reg b := by
  unfold State.reg State.setReg
  simp only [tget_tset]
  by_cases h : homeAddr a = homeAddr b <;> simp [h]

@[simp] theorem reg_setReg_self (a v : Nat) : (s.setReg a v).reg a = v % 2 ^ 64 := by simp [reg_setReg]

theorem reg_setReg_ne {a b : Nat} (v : Nat) (h : homeAddr a ≠ homeAddr b) : (s.setReg a v).reg b = s.reg b := by
  simp [reg_setReg, h]

/-- Bits below 64 of a number survive the register's width. -/
theorem fld_mod64 (n : Nat) {hi lo : Nat} (h : hi < 64) (hl : lo ≤ hi) : fld (n % 2 ^ 64) hi lo = fld n hi lo := by
  apply Nat.eq_of_testBit_eq
  intro i
  simp only [fld, Nat.testBit_mod_two_pow, Nat.testBit_shiftRight]
  by_cases hi' : i < hi + 1 - lo
  · have : lo + i < 64 := by omega
    simp [hi', this]
  · simp [hi']

theorem setFld_eq (n : Nat) {hi lo : Nat} (v : Nat) :
    setFld n hi lo v = n % 2 ^ lo + (v % 2 ^ (hi + 1 - lo)) * 2 ^ lo + n / 2 ^ lo / 2 ^ (hi + 1 - lo) * 2 ^ (hi + 1 - lo) * 2 ^ lo := by
  unfold setFld fld
  simp only [Nat.shiftRight_eq_div_pow, Nat.shiftLeft_eq]
  have h1 := Nat.mod_add_div n (2 ^ lo)
  have h2 := Nat.mod_add_div (n / 2 ^ lo) (2 ^ (hi + 1 - lo))
  generalize hA : n / 2 ^ lo = m at *
  generalize hB : 2 ^ (hi + 1 - lo) = k at *
  generalize hC : 2 ^ lo = c at *
  have : n = n % c + c * (m % k) + c * (k * (m / k)) := by
    conv_lhs => rw [← h1, ← h2]
    ring
  have e : n - m % k * c = n % c + c * (k * (m / k)) := by
    have : m % k * c = c * (m % k) := by ring
    omega
  rw [e]; ring

/-- Every bit of a number after one of its fields is set. -/
theorem testBit_setFld (n : Nat) {hi lo : Nat} (hl : lo ≤ hi) (v i : Nat) :
    (setFld n hi lo v).testBit i = if lo ≤ i ∧ i ≤ hi then v.testBit (i - lo) else n.testBit i := by
  rw [setFld_eq]
  set w := hi + 1 - lo with hw
  have e : n % 2 ^ lo + v % 2 ^ w * 2 ^ lo + n / 2 ^ lo / 2 ^ w * 2 ^ w * 2 ^ lo =
      2 ^ lo * (2 ^ w * (n / 2 ^ lo / 2 ^ w) + v % 2 ^ w) + n % 2 ^ lo := by ring
  rw [e, Nat.testBit_two_pow_mul_add _ (Nat.mod_lt _ (by positivity))]
  split
  · rename_i h
    have : ¬ (lo ≤ i ∧ i ≤ hi) := by omega
    simp [this, h]
  · rename_i h
    rw [Nat.testBit_two_pow_mul_add _ (Nat.mod_lt _ (by positivity))]
    split
    · rename_i h2
      have : lo ≤ i ∧ i ≤ hi := by omega
      simp [this, h2]
    · rename_i h2
      have : ¬ (lo ≤ i ∧ i ≤ hi) := by omega
      simp only [this, if_false]
      rw [Nat.testBit_div_two_pow, Nat.testBit_div_two_pow]
      congr 1; omega

/-- A field set is the value written, cut to the field's width. -/
theorem fld_setFld_self (n v : Nat) {hi lo : Nat} (hl : lo ≤ hi) : fld (setFld n hi lo v) hi lo = v % 2 ^ (hi + 1 - lo) := by
  apply Nat.eq_of_testBit_eq
  intro i
  simp only [fld, Nat.testBit_mod_two_pow, Nat.testBit_shiftRight, testBit_setFld n hl]
  by_cases h : i < hi + 1 - lo
  · have : lo ≤ lo + i ∧ lo + i ≤ hi := by omega
    simp [h, this]
  · simp [h]

/-- A field of other bits keeps its value. -/
theorem fld_setFld_ne (n v : Nat) {hi lo hi' lo' : Nat} (hl : lo ≤ hi) (h : hi' < lo ∨ hi < lo') :
    fld (setFld n hi lo v) hi' lo' = fld n hi' lo' := by
  apply Nat.eq_of_testBit_eq
  intro i
  simp only [fld, Nat.testBit_mod_two_pow, Nat.testBit_shiftRight, testBit_setFld n hl]
  by_cases h' : i < hi' + 1 - lo'
  · have : ¬ (lo ≤ lo' + i ∧ lo' + i ≤ hi) := by omega
    simp [this]
  · simp [h']

theorem fget_fset_self (a v : Nat) {f : Nat × Nat} (hl : f.2 ≤ f.1) (h : f.1 < 64) :
    (s.fset a f v).fget a f = v % 2 ^ (f.1 + 1 - f.2) := by
  unfold State.fset State.fget
  rw [reg_setReg_self, fld_mod64 _ h hl, fld_setFld_self _ _ hl]

theorem fget_fset_other (a v : Nat) {f g : Nat × Nat} (hl : f.2 ≤ f.1) (hg : g.2 ≤ g.1) (h : g.1 < 64)
    (hd : g.1 < f.2 ∨ f.1 < g.2) : (s.fset a f v).fget a g = s.fget a g := by
  unfold State.fset State.fget
  rw [reg_setReg_self, fld_mod64 _ h hg, fld_setFld_ne _ _ hl hd]

theorem reg_fset_ne {a b : Nat} (f : Nat × Nat) (v : Nat) (h : homeAddr a ≠ homeAddr b) : (s.fset a f v).reg b = s.reg b :=
  reg_setReg_ne s _ h

theorem fget_fset_ne {a b : Nat} (f g : Nat × Nat) (v : Nat) (h : homeAddr a ≠ homeAddr b) :
    (s.fset a f v).fget b g = s.fget b g := by
  unfold State.fget; rw [reg_fset_ne s f v h]

/-- A register is a function of the register file. -/
theorem reg_congr {s t : State} (h : t.regs = s.regs) (a : Nat) : t.reg a = s.reg a := by unfold State.reg; rw [h]

theorem fget_congr {s t : State} {a : Nat} (h : t.reg a = s.reg a) (f : Nat × Nat) : t.fget a f = s.fget a f := by
  unfold State.fget; rw [h]

theorem flag_congr {s t : State} {a : Nat} (h : t.reg a = s.reg a) (f : Nat × Nat) : t.flag a f = s.flag a f := by
  unfold State.flag; rw [fget_congr h]

/-- What a line decrypts to under another key is a function of its cells and the root key. -/
theorem wrongLine_congr {s t : State} {l : Nat} (hm : ∀ i, i < 64 → cellGet t.mem (64 * l + i) = cellGet s.mem (64 * l + i))
    (hr : rootKey t = rootKey s) (k k' : Nat × Nat) : wrongLine t l k k' = wrongLine s l k k' := by
  have hp : linePlain t l k = linePlain s l k :=
    List.map_congr_left fun i hi => by rw [hm i (List.mem_range.mp hi)]
  unfold wrongLine memKey
  rw [hp, hr]

/-- A byte read is a function of its line's cells, tag and key, and the root key. -/
theorem byteAt_of_line {s t : State} {c : Nat}
    (hm : ∀ i, i < 64 → cellGet t.mem (64 * (c / 64) + i) = cellGet s.mem (64 * (c / 64) + i))
    (ht : tget t.keyTag (c / 64) = tget s.keyTag (c / 64)) (hk : keyAt t c = keyAt s c) (hr : rootKey t = rootKey s) :
    byteAt t c = byteAt s c := by
  have hc : cellGet t.mem c = cellGet s.mem c := by
    have := hm (c % 64) (Nat.mod_lt _ (by decide))
    rwa [Nat.div_add_mod] at this
  unfold byteAt
  simp only [hc, ht, hk, wrongLine_congr hm hr]

/-- A byte of memory is a function of the cells, the key tags, the root key, and the region and key registers of the MEM block. -/
theorem byteAt_congr {s t : State} (hm : t.mem = s.mem) (hk : t.keyTag = s.keyTag) (hrk : rootKey t = rootKey s)
    (hb : ∀ n, n < 64 → t.reg (A.memRegionBase n) = s.reg (A.memRegionBase n))
    (hl : ∀ n, n < 64 → t.reg (A.memRegionLimit n) = s.reg (A.memRegionLimit n))
    (hp : ∀ p, p < 8 → t.reg (A.memPartKey p) = s.reg (A.memPartKey p))
    (hs : ∀ k, k < 16 → t.reg (A.memSlot k) = s.reg (A.memSlot k)) (a : Nat) : byteAt t a = byteAt s a := by
  have hr : ∀ n, n < 64 → regionHas t a n = regionHas s a n := by
    intro n hn
    unfold regionHas
    rw [hb n hn, fget_congr (hl n hn)]
  have hf : ∀ l : List Nat, (∀ n ∈ l, n < 64) →
      (l.find? (regionHas t a)).map (fun n => t.fget (A.memRegionBase n) A.memRegionBase_owner) =
      (l.find? (regionHas s a)).map (fun n => s.fget (A.memRegionBase n) A.memRegionBase_owner) := by
    intro l hl
    induction l with
    | nil => rfl
    | cons x r ih =>
      have hx := hl x (by simp)
      rw [List.find?_cons, List.find?_cons, hr x hx]
      split
      · rw [Option.map_some, Option.map_some, fget_congr (hb x hx)]
      · exact ih fun n hn => hl n (by simp [hn])
  have ho : ownerAt t a = ownerAt s a := hf _ fun n hn => List.mem_range.mp hn
  have hlt : ∀ p, ownerAt s a = some p → p < 8 := by
    intro p h
    unfold ownerAt at h
    obtain ⟨n, -, rfl⟩ := Option.map_eq_some_iff.mp h
    exact Nat.mod_lt _ (by decide)
  have hks : keySlot t (ownerAt s a) = keySlot s (ownerAt s a) := by
    cases h : ownerAt s a with
    | none => rfl
    | some p =>
      have e := hp p (hlt p h)
      simp only [keySlot, flag_congr e, fget_congr e]
  have hk16 : keySlot s (ownerAt s a) < 16 := by
    cases h : ownerAt s a with
    | none => simp [keySlot]
    | some p =>
      simp only [keySlot]
      split
      · exact Nat.mod_lt _ (by decide)
      · decide
  have hkey : keyAt t a = keyAt s a := by
    unfold keyAt
    simp only [ho, hks]
    rw [fget_congr (hs _ hk16)]
  exact byteAt_of_line (fun i _ => by rw [hm]) (by rw [hk]) hkey hrk

theorem homeAddr_low {a : Nat} (h : a < 0x030003902000) : homeAddr a = a := by
  unfold homeAddr
  rw [if_neg (by omega), if_neg (by omega)]

/-- Where the cells, the key tags and the region and key registers of the MEM block are kept, every byte of memory is. -/
theorem memKept_of_regsKept {l : List Nat} {s t : State} (h : RegsKept l s t) (hm : t.mem = s.mem) (hk : t.keyTag = s.keyTag)
    (hr : rootKey t = rootKey s) (hl : ∀ a ∈ l, a < 0x030003008100 ∨ 0x03000300A000 ≤ a) : MemKept s t := by
  have k : ∀ a, 0x030003008100 ≤ a → a < 0x03000300A000 → t.reg a = s.reg a := by
    intro a h1 h2
    refine h a ?_
    rw [homeAddr_low (by omega)]
    intro hc
    have := hl a hc
    omega
  intro a
  refine byteAt_congr hm hk hr ?_ ?_ ?_ ?_ a <;> intro n hn <;> exact k _ (by simp only [A.memRegionBase, A.memRegionLimit, A.memPartKey, A.memSlot]; omega)
    (by simp only [A.memRegionBase, A.memRegionLimit, A.memPartKey, A.memSlot]; omega)

theorem kept_of_regsKept {l : List Nat} {s t : State} (h : RegsKept l s t) (hm : t.mem = s.mem) (hk : t.keyTag = s.keyTag)
    (hr : rootKey t = rootKey s) (hl : ∀ a ∈ l, a < 0x030003008100 ∨ 0x03000300A000 ≤ a) : Kept l s t :=
  ⟨h, memKept_of_regsKept h hm hk hr hl⟩

end Sys2Proof.Machine

namespace Sys2Proof

open Sys2Proof.Machine

/-! Frames, composed one update at a time. -/

theorem RegsKept.refl (l : List Nat) (s : State) : RegsKept l s s := fun _ _ => rfl

theorem RegsKept.trans {l : List Nat} {s t u : State} (h : RegsKept l s t) (h' : RegsKept l t u) : RegsKept l s u :=
  fun a ha => (h' a ha).trans (h a ha)

theorem RegsKept.mono {l l' : List Nat} {s t : State} (h : RegsKept l s t) (hs : ∀ a ∈ l, a ∈ l') : RegsKept l' s t :=
  fun a ha => h a fun c => ha (hs _ c)

theorem RegsKept.of_regs {l : List Nat} {s t : State} (h : t.regs = s.regs) : RegsKept l s t := fun a _ => reg_congr h a

theorem RegsKept.setReg {l : List Nat} {s t : State} {a : Nat} (v : Nat) (h : RegsKept l s t) (ha : homeAddr a ∈ l) :
    RegsKept l s (t.setReg a v) := by
  intro b hb
  rw [reg_setReg_ne, h b hb]
  intro e; exact hb (e ▸ ha)

theorem RegsKept.fset {l : List Nat} {s t : State} {a : Nat} (f : Nat × Nat) (v : Nat) (h : RegsKept l s t)
    (ha : homeAddr a ∈ l) : RegsKept l s (t.fset a f v) := h.setReg _ ha

theorem RegsKept.bump {l : List Nat} {s t : State} {a : Nat} (f : Nat × Nat) (n : Nat) (h : RegsKept l s t)
    (ha : homeAddr a ∈ l) : RegsKept l s (t.bump a f n) := h.fset _ _ ha

end Sys2Proof
end

