-- ==== Sys2Proof/Laws/Memory.lean ====
section
/-! SUPPORT. Memory: every operation keeps its canonical form; a byte written is the byte read, and no other byte changes. -/

namespace Sys2Proof.Machine

open Sys2Proof

/-! ### Cells -/

/-- The canonical form, one cell at a time: the first cell is not what an unlisted one holds, lies below the rest, and the rest is in
the form. -/
theorem wf_cons (x : Host.Cell) (r : List Host.Cell) :
    Memory.wf (x :: r) = true ↔ memDefault x.1 ≠ some x.2 ∧ (∀ y ∈ r, x.1 < y.1) ∧ Memory.wf r = true := by
  induction r generalizing x with
  | nil => obtain ⟨a, b⟩ := x; simp [Memory.wf]
  | cons y r ih =>
    obtain ⟨a, b⟩ := x
    obtain ⟨a', b'⟩ := y
    have e : Memory.wf ((a, b) :: (a', b') :: r) = (decide (a < a') && memDefault a != some b && Memory.wf ((a', b') :: r)) := rfl
    rw [e]
    simp only [Bool.and_eq_true, decide_eq_true_eq, bne_iff_ne, ne_eq, List.mem_cons, forall_eq_or_imp]
    constructor
    · rintro ⟨⟨h1, h2⟩, h3⟩
      exact ⟨h2, ⟨h1, fun y hy => Nat.lt_trans h1 (((ih (a', b')).mp h3).2.1 y hy)⟩, h3⟩
    · rintro ⟨h2, ⟨h1, -⟩, h3⟩
      exact ⟨⟨h1, h2⟩, h3⟩

@[simp] theorem wf_nil : Memory.wf [] = true := rfl

/-- A byte set lies at an address that was listed, or at the address set. -/
theorem mem_cellSet {l : List Host.Cell} {k : Nat} {v : Byte} {y : Host.Cell} (h : y ∈ cellSet l k v) : y ∈ l ∨ y = (k, v) := by
  induction l with
  | nil =>
    simp only [cellSet] at h
    split at h <;> simp_all
  | cons x r ih =>
    obtain ⟨i, b⟩ := x
    simp only [cellSet] at h
    split at h
    · split at h <;> simp_all
      rcases h with h | h | h <;> simp [h]
    · split at h
      · split at h <;> simp_all
        rcases h with h | h <;> simp [h]
      · simp only [List.mem_cons] at h ⊢
        rcases h with h | h
        · exact .inl (.inl h)
        · rcases ih h with h | h
          · exact .inl (.inr h)
          · exact .inr h

/-- Setting a byte keeps the canonical form. -/
theorem wf_cellSet {l : List Host.Cell} (k : Nat) (v : Byte) (h : Memory.wf l = true) : Memory.wf (cellSet l k v) = true := by
  induction l with
  | nil =>
    simp only [cellSet]
    split
    · rfl
    · rename_i hd; simpa [Memory.wf] using hd
  | cons x r ih =>
    obtain ⟨i, b⟩ := x
    have hx := (wf_cons (i, b) r).mp h
    simp only [cellSet]
    split
    · rename_i hk
      split
      · exact h
      · rename_i hd
        refine (wf_cons _ _).mpr ⟨hd, ?_, h⟩
        intro y hy
        rcases List.mem_cons.mp hy with rfl | hy
        · exact hk
        · exact Nat.lt_trans hk (hx.2.1 y hy)
    · rename_i hk
      split
      · rename_i he
        subst he
        split
        · exact hx.2.2
        · rename_i hd
          exact (wf_cons _ _).mpr ⟨hd, hx.2.1, hx.2.2⟩
      · rename_i hne
        refine (wf_cons _ _).mpr ⟨hx.1, ?_, ih hx.2.2⟩
        intro y hy
        rcases mem_cellSet hy with hy | rfl
        · exact hx.2.1 y hy
        · simp only; omega

/-- Leaving cells out keeps the canonical form. -/
theorem wf_filter {l : List Host.Cell} (p : Host.Cell → Bool) (h : Memory.wf l = true) : Memory.wf (l.filter p) = true := by
  induction l with
  | nil => rfl
  | cons x r ih =>
    have hx := (wf_cons x r).mp h
    by_cases hp : p x = true
    · rw [List.filter_cons_of_pos hp]
      exact (wf_cons _ _).mpr ⟨hx.1, fun y hy => hx.2.1 y (List.mem_of_mem_filter hy), ih hx.2.2⟩
    · rw [List.filter_cons_of_neg hp]
      exact ih hx.2.2

/-- An address below every listed one is not listed. -/
theorem cellGet_none {l : List Host.Cell} {k : Nat} (h : ∀ y ∈ l, k < y.1) : cellGet l k = none := by
  cases l with
  | nil => rfl
  | cons x r =>
    obtain ⟨i, b⟩ := x
    have : k < i := h (i, b) (by simp)
    simp only [cellGet]
    rw [if_neg (by omega), if_pos this]

/-- A byte set is listed unless it is what an unlisted one holds; every other address is listed as before. -/
theorem cellGet_cellSet {l : List Host.Cell} (k : Nat) (v : Byte) (h : Memory.wf l = true) (j : Nat) :
    cellGet (cellSet l k v) j = if j = k then (if memDefault k = some v then none else some v) else cellGet l j := by
  induction l with
  | nil =>
    simp only [cellSet]
    split <;> by_cases hj : j = k <;> simp [cellGet, hj]
    intro h; omega
  | cons x r ih =>
    obtain ⟨i, b⟩ := x
    have hx := (wf_cons (i, b) r).mp h
    simp only [cellSet]
    split
    · rename_i hk
      by_cases hj : j = k
      · subst hj
        split
        · simp only [cellGet, ↓reduceIte]; rw [if_neg (by omega), if_pos hk]
        · simp [cellGet]
      · rw [if_neg hj]
        split
        · rfl
        · rw [show cellGet ((k, v) :: (i, b) :: r) j = if k = j then some v else if j < k then none else cellGet ((i, b) :: r) j from rfl]
          rw [if_neg (by omega)]
          split
          · simp only [cellGet]; rw [if_neg (by omega), if_pos (by omega)]
          · rfl
    · rename_i hk
      split
      · rename_i he
        subst he
        by_cases hj : j = k
        · subst hj
          split
          · simp only [↓reduceIte]
            exact cellGet_none hx.2.1
          · simp [cellGet]
        · rw [if_neg hj]
          split
          · by_cases hlt : j < k
            · rw [cellGet_none (fun y hy => Nat.lt_trans hlt (hx.2.1 y hy))]
              simp only [cellGet]; rw [if_neg (by omega), if_pos hlt]
            · simp only [cellGet]; rw [if_neg (by omega), if_neg hlt]
          · simp only [cellGet]; rw [if_neg (Ne.symm hj)]; rw [if_neg (Ne.symm hj)]
      · rename_i hne
        simp only [cellGet, ih hx.2.2]
        by_cases hj : j = k
        · subst hj
          rw [if_pos rfl, if_neg (by omega), if_neg (by omega)]
          simp
        · rw [if_neg hj, if_neg hj]

/-- Two lists in canonical form that list the same bytes are the same list. -/
theorem cells_ext {l m : List Host.Cell} (hl : Memory.wf l = true) (hm : Memory.wf m = true)
    (h : ∀ k, cellGet l k = cellGet m k) : l = m := by
  induction l generalizing m with
  | nil =>
    cases m with
    | nil => rfl
    | cons y r => have := h y.1; simp [cellGet] at this
  | cons x r ih =>
    cases m with
    | nil => have := h x.1; simp [cellGet] at this
    | cons y q =>
      have hx := (wf_cons x r).mp hl
      have hy := (wf_cons y q).mp hm
      obtain ⟨i, b⟩ := x
      obtain ⟨j, c⟩ := y
      have hi := h i
      have hj := h j
      simp only [cellGet, ↓reduceIte] at hi hj
      have hij : i = j := by
        by_contra hne
        by_cases hlt : i < j
        · rw [if_neg (by omega), if_pos hlt] at hi; simp at hi
        · rw [if_neg hne, if_pos (by omega)] at hj; simp at hj
      subst hij
      simp only [↓reduceIte, Option.some.injEq] at hi
      subst hi
      congr 1
      refine ih hx.2.2 hy.2.2 fun k => ?_
      by_cases hk : k ≤ i
      · rw [cellGet_none (fun y hy => by have := hx.2.1 y hy; simp only at this; omega),
          cellGet_none (fun y h' => by have := hy.2.1 y h'; simp only at this; omega)]
      · have := h k
        simp only [cellGet] at this
        rwa [if_neg (by omega), if_neg (by omega), if_neg (by omega), if_neg (by omega)] at this

/-! ### The memory operations keep the canonical form -/

theorem memInv_of_mem {s t : State} (h : t.mem = s.mem) (hs : MemInv s) : MemInv t := by unfold MemInv; rw [h]; exact hs

theorem memInv_pokeRaw (s : State) (a : Nat) (b : Byte) (h : MemInv s) : MemInv (s.pokeRaw a b) := wf_cellSet a b h

theorem memInv_pokeAll (s : State) (a : Nat) (bs : List Byte) (h : MemInv s) : MemInv (s.pokeAll a bs) := by
  induction bs generalizing s a with
  | nil => exact h
  | cons b r ih => exact ih _ _ (memInv_pokeRaw s a b h)

@[simp] theorem State.markDirty_mem (s : State) (a : Nat) : (s.markDirty a).mem = s.mem := by
  unfold State.markDirty; dsimp only; split <;> rfl

theorem memInv_writeLine (s : State) (a : Nat) (bs : List Byte) (h : MemInv s) : MemInv (s.writeLine a bs) := by
  have hd : ∀ k, MemInv (s.markDirty k) := fun k => memInv_of_mem (State.markDirty_mem s k) h
  unfold State.writeLine
  dsimp only
  split
  · apply memInv_pokeAll
    split <;> exact hd a
  · split
    · exact hd a
    · split
      · split
        · exact memInv_pokeAll _ _ _ (hd a)
        · exact memInv_pokeAll _ _ _ (memInv_pokeAll _ _ _ (hd a))
      · exact memInv_pokeAll _ _ _ (hd a)

theorem memInv_writeFuel (s : State) (a : Nat) (bs : List Byte) (f : Nat) (h : MemInv s) : MemInv (s.writeFuel a bs f) := by
  induction f generalizing s a bs with
  | zero => exact h
  | succ f ih =>
    unfold State.writeFuel
    split
    · exact h
    · apply ih
      split
      · exact memInv_writeLine _ _ _ h
      · exact h

/-- Writing bytes keeps the canonical form. -/
theorem memInv_writeBytes (s : State) (a : Nat) (bs : List Byte) (h : MemInv s) : MemInv (s.writeBytes a bs) :=
  memInv_writeFuel s a bs _ h

/-- A fold of updates that keep the canonical form keeps it. -/
theorem memInv_foldl {α : Type} (f : State → α → State) (hf : ∀ s x, MemInv s → MemInv (f s x)) (l : List α) (s : State)
    (h : MemInv s) : MemInv (l.foldl f s) := by
  induction l generalizing s with
  | nil => exact h
  | cons x r ih => exact ih _ (hf s x h)

/-- Storing bytes keeps the canonical form. -/
theorem memInv_storeBytes (s : State) (a : Nat) (bs : List Byte) (h : MemInv s) : MemInv (s.storeBytes a bs) := by
  unfold State.storeBytes
  dsimp only
  apply memInv_writeBytes
  refine memInv_foldl _ ?_ _ _ h
  intro s x hs
  exact hs

/-- Zeroing the Commons bytes of a region keeps the canonical form. -/
theorem memInv_zeroBlocks (s : State) (ks : List Nat) (h : MemInv s) : MemInv (s.zeroBlocks ks) := wf_filter _ h

/-- What a COLD start leaves of memory is in canonical form: nothing is listed. -/
theorem forgetMemory_mem (s : State) : s.forgetMemory.mem = [] := by
  rfl

theorem memInv_forgetMemory (s : State) : MemInv s.forgetMemory := by unfold MemInv; rw [forgetMemory_mem]; rfl

/-- Reset memory is in canonical form. -/
theorem memInv_reset : MemInv State.reset := rfl

/-! ### What a store changes beside memory: nothing but the tags and error marks of lines, and the pages a join must copy again -/

/-- From `s` to `t` nothing changed but memory, the keys and error marks of its lines, and the pages marked for a join. -/
def MemOnly (s t : State) : Prop :=
  t = { s with mem := t.mem, keyTag := t.keyTag, badLines := t.badLines, pair := { s.pair with dirty := t.pair.dirty } }

theorem MemOnly.refl (s : State) : MemOnly s s := rfl

theorem MemOnly.trans {s t u : State} (h : MemOnly s t) (h' : MemOnly t u) : MemOnly s u := by
  unfold MemOnly at *; rw [h'] at *; rw [h]

theorem MemOnly.regs {s t : State} (h : MemOnly s t) : t.regs = s.regs := by rw [h]

theorem MemOnly.rootKey {s t : State} (h : MemOnly s t) : rootKey t = rootKey s := by rw [h]; rfl

theorem memOnly_markDirty (s : State) (a : Nat) : MemOnly s (s.markDirty a) := by
  unfold State.markDirty; dsimp only; split <;> rfl

theorem memOnly_pokeAll (s : State) (a : Nat) (bs : List Byte) : MemOnly s (s.pokeAll a bs) := by
  induction bs generalizing s a with
  | nil => rfl
  | cons b r ih => exact MemOnly.trans (t := s.pokeRaw a b) rfl (ih (s.pokeRaw a b) (a + 1))

theorem memOnly_writeLine (s : State) (a : Nat) (bs : List Byte) : MemOnly s (s.writeLine a bs) := by
  have hd := memOnly_markDirty s a
  unfold State.writeLine
  dsimp only
  split
  · refine .trans (.trans hd ?_) (memOnly_pokeAll _ _ _)
    split <;> rfl
  · split
    · exact hd
    · split
      · split
        · refine .trans hd (.trans ?_ (memOnly_pokeAll _ _ _)); rfl
        · refine .trans hd (.trans (.trans ?_ (memOnly_pokeAll _ _ _)) (memOnly_pokeAll _ _ _)); rfl
      · exact .trans hd (memOnly_pokeAll _ _ _)

theorem memOnly_writeFuel (s : State) (a : Nat) (bs : List Byte) (f : Nat) : MemOnly s (s.writeFuel a bs f) := by
  induction f generalizing s a bs with
  | zero => rfl
  | succ f ih =>
    unfold State.writeFuel
    split
    · rfl
    · dsimp only
      split
      · exact .trans (memOnly_writeLine _ _ _) (ih _ _ _)
      · exact ih _ _ _

theorem memOnly_writeBytes (s : State) (a : Nat) (bs : List Byte) : MemOnly s (s.writeBytes a bs) := memOnly_writeFuel s a bs _

/-! ### A byte written is the byte read -/

/-- The pages of an owner and the pages of a key have the grain of 64 KiB: two addresses of one 64-byte line have one key. -/
theorem keyAt_line (s : State) {a c : Nat} (h : a / 64 = c / 64) : keyAt s a = keyAt s c := by
  have hr : ∀ n, regionHas s a n = regionHas s c n := by
    intro n
    unfold regionHas
    dsimp only
    congr 1
    · congr 1
      exact decide_eq_decide.mpr (by constructor <;> intro <;> omega)
    · exact decide_eq_decide.mpr (by constructor <;> intro <;> omega)
  have ho : ownerAt s a = ownerAt s c := by unfold ownerAt; rw [show regionHas s a = regionHas s c from funext hr]
  unfold keyAt; rw [ho]

theorem keyAt_congr {s t : State} (h : t.regs = s.regs) (a : Nat) : keyAt t a = keyAt s a := by
  unfold keyAt keySlot ownerAt regionHas State.flag State.fget State.reg
  rw [h]

theorem cellGet_pokeAll (s : State) (a : Nat) (bs : List Byte) (h : MemInv s) (c : Nat) :
    cellGet (s.pokeAll a bs).mem c =
      if a ≤ c ∧ c < a + bs.length then
        (if memDefault c = some (bs.getD (c - a) 0) then none else some (bs.getD (c - a) 0))
      else cellGet s.mem c := by
  induction bs generalizing s a with
  | nil => rw [if_neg (by simp)]; rfl
  | cons b r ih =>
    have e : (s.pokeAll a (b :: r)) = (s.pokeRaw a b).pokeAll (a + 1) r := rfl
    rw [e, ih _ _ (memInv_pokeRaw s a b h)]
    have hc : cellGet (s.pokeRaw a b).mem c = if c = a then (if memDefault a = some b then none else some b) else cellGet s.mem c :=
      cellGet_cellSet a b h c
    rw [hc]
    simp only [List.length_cons]
    by_cases h1 : c = a
    · subst h1
      have p1 : ¬ (c + 1 ≤ c ∧ c < c + 1 + r.length) := by omega
      have p2 : c ≤ c ∧ c < c + (r.length + 1) := by omega
      rw [if_neg p1, if_pos p2, if_pos rfl]
      simp
    · have p2 : (a ≤ c ∧ c < a + (r.length + 1)) ↔ (a + 1 ≤ c ∧ c < a + 1 + r.length) := by omega
      rw [if_neg h1]
      by_cases h2 : a + 1 ≤ c ∧ c < a + 1 + r.length
      · rw [if_pos h2, if_pos (p2.mpr h2)]
        have h3 : c - a = (c - (a + 1)) + 1 := by omega
        rw [h3]
        simp only [List.getD_cons_succ]
      · rw [if_neg h2, if_neg (fun h => h2 (p2.mp h))]

@[simp] theorem pokeAll_keyTag (s : State) (a : Nat) (bs : List Byte) : (s.pokeAll a bs).keyTag = s.keyTag := by
  induction bs generalizing s a with
  | nil => rfl
  | cons b r ih => exact ih (s.pokeRaw a b) (a + 1)

@[simp] theorem pokeAll_badLines (s : State) (a : Nat) (bs : List Byte) : (s.pokeAll a bs).badLines = s.badLines := by
  induction bs generalizing s a with
  | nil => rfl
  | cons b r ih => exact ih (s.pokeRaw a b) (a + 1)

@[simp] theorem pokeAll_regs (s : State) (a : Nat) (bs : List Byte) : (s.pokeAll a bs).regs = s.regs := (memOnly_pokeAll s a bs).regs

/-- A byte stored in a line whose tag is the present key, or outside LPDDR5X, is the byte read. -/
theorem byteAt_pokeAll (s : State) (a : Nat) (bs : List Byte) (h : MemInv s) (c : Nat)
    (ht : ∀ d, d < lpddrTop → a ≤ d ∧ d < a + bs.length → tget s.keyTag (d / 64) = some (keyAt s d)) :
    byteAt (s.pokeAll a bs) c = if a ≤ c ∧ c < a + bs.length then bs.getD (c - a) 0 else byteAt s c := by
  have hkey : keyAt (s.pokeAll a bs) c = keyAt s c := keyAt_congr (pokeAll_regs s a bs) c
  by_cases hc : a ≤ c ∧ c < a + bs.length
  · unfold byteAt
    rw [hkey, pokeAll_keyTag, cellGet_pokeAll s a bs h]
    simp only [if_pos hc]
    by_cases hl : c < lpddrTop
    · simp only [if_pos hl, memDefault, ht c hl hc]
      simp
    · simp only [if_neg hl, memDefault]
      generalize bs.getD (c - a) 0 = v
      by_cases hz : v = 0
      · subst hz; rfl
      · have hz' : ¬ ((some 0 : Option Byte) = some v) := fun h => hz (Option.some.inj h).symm
        rw [if_neg hz']; rfl
  · rw [if_neg hc]
    by_cases ho : ∃ d, d / 64 = c / 64 ∧ d < lpddrTop ∧ a ≤ d ∧ d < a + bs.length
    · obtain ⟨d, hd, hl, hr⟩ := ho
      have hcl : c < lpddrTop := by unfold lpddrTop at *; omega
      have htag : tget s.keyTag (c / 64) = some (keyAt s c) := by rw [← hd, ht d hl hr]; exact congrArg some (keyAt_line s hd)
      unfold byteAt
      rw [hkey, pokeAll_keyTag, cellGet_pokeAll s a bs h, if_neg hc, htag]
      simp
    · by_cases hl : c < lpddrTop
      · refine byteAt_of_line (fun i hi => ?_) (by rw [pokeAll_keyTag]) hkey (memOnly_pokeAll s a bs).rootKey
        rw [cellGet_pokeAll s a bs h, if_neg]
        intro hr
        exact ho ⟨64 * (c / 64) + i, by omega, by unfold lpddrTop at *; omega, hr⟩
      · unfold byteAt
        rw [cellGet_pokeAll s a bs h, if_neg hc, if_neg hl, if_neg hl]

@[simp] theorem State.markDirty_keyTag (s : State) (a : Nat) : (s.markDirty a).keyTag = s.keyTag := by
  unfold State.markDirty; dsimp only; split <;> rfl

@[simp] theorem State.markDirty_badLines (s : State) (a : Nat) : (s.markDirty a).badLines = s.badLines := by
  unfold State.markDirty; dsimp only; split <;> rfl

@[simp] theorem State.markDirty_regs (s : State) (a : Nat) : (s.markDirty a).regs = s.regs := (memOnly_markDirty s a).regs

theorem byteAt_markDirty (s : State) (a c : Nat) : byteAt (s.markDirty a) c = byteAt s c := by
  exact byteAt_of_line (fun i _ => by rw [State.markDirty_mem]) (by rw [State.markDirty_keyTag]) (keyAt_congr (s.markDirty_regs a) c)
    (memOnly_markDirty s a).rootKey

/-- The tag of a line set to the present key changes no byte read, where the line had that key or none. -/
theorem byteAt_retag (s : State) (l : Nat) (k : Nat × Nat) (hk : ∀ c, c / 64 = l → keyAt s c = k)
    (hl : tget s.keyTag l = some k ∨ tget s.keyTag l = none) (c : Nat) :
    byteAt { s with keyTag := tset s.keyTag l k } c = byteAt s c := by
  have hkey : keyAt { s with keyTag := tset s.keyTag l k } c = keyAt s c := keyAt_congr rfl c
  by_cases he : l = c / 64
  · unfold byteAt
    rw [hkey]
    by_cases hc : c < lpddrTop
    · simp only [if_pos hc, tget_tset]
      rw [if_pos he, hk c he.symm]
      rw [← he]
      rcases hl with hl | hl <;> rw [hl]
      · simp
      · cases cellGet s.mem c <;> simp
    · simp only [if_neg hc]
  · exact byteAt_of_line (fun i _ => rfl) (tget_tset_ne _ _ he) hkey rfl

/-- Bytes of one line written, the line not in error: the bytes are read, every other byte reads as before. -/
theorem byteAt_writeLine (s : State) (a : Nat) (bs : List Byte) (h : MemInv s) (hn : a % 64 + bs.length ≤ 64)
    (hb : s.badLines.contains (codeword a) = false) (c : Nat) :
    byteAt (s.writeLine a bs) c = if a ≤ c ∧ c < a + bs.length then bs.getD (c - a) 0 else byteAt s c := by
  have hline : ∀ c, a ≤ c ∧ c < a + bs.length → c / 64 = a / 64 := fun c hc => by omega
  have hkey : ∀ (u : State), u.regs = s.regs → ∀ c, c / 64 = a / 64 → keyAt u c = keyAt s a := fun u hu c hc => by
    rw [keyAt_congr hu]; exact keyAt_line s hc
  have hMd : MemInv (s.markDirty a) := memInv_of_mem (State.markDirty_mem s a) h
  have hKd : keyAt (s.markDirty a) a = keyAt s a := keyAt_congr (s.markDirty_regs a) a
  have hRd : (s.markDirty a).regs = s.regs := s.markDirty_regs a
  have hBd := byteAt_markDirty s a
  have hTd : (s.markDirty a).keyTag = s.keyTag := s.markDirty_keyTag a
  have hLd : (s.markDirty a).badLines = s.badLines := s.markDirty_badLines a
  unfold State.writeLine
  generalize s.markDirty a = d at *
  dsimp only
  split
  · rename_i h64
    by_cases hl : a < lpddrTop
    · simp only [if_pos hl]
      rw [byteAt_pokeAll]
      rotate_left
      · exact hMd
      rotate_left
      · by_cases hc : a ≤ c ∧ c < a + bs.length
        · simp only [if_pos hc]
        · simp only [if_neg hc]
          have hne : a / 64 ≠ c / 64 := by rw [codeBytes, if_pos hl] at h64; omega
          refine .trans ?_ (hBd c)
          exact byteAt_of_line (fun i _ => rfl) (tget_tset_ne _ _ hne) (keyAt_congr rfl c) rfl
      · intro x _ hc
        have := hline x hc
        simp only [this, tget_tset_self]
        exact congrArg some (.trans (keyAt_congr (s := d) rfl a) (.trans hKd (hkey _ (by exact hRd) x this).symm))
    · simp only [if_neg hl]
      rw [byteAt_pokeAll]
      rotate_left
      · exact hMd
      rotate_left
      · by_cases hc : a ≤ c ∧ c < a + bs.length
        · simp only [if_pos hc]
        · simp only [if_neg hc]
          exact hBd c
      · intro x hlt hc
        have := hline x hc
        unfold lpddrTop at *; omega
  · have hb' : d.badLines.contains (codeword a) = false := by rw [hLd]; exact hb
    rw [hb']
    simp only [Bool.false_eq_true, if_false]
    split
    · rename_i hl
      split
      · rename_i ht
        have hre := byteAt_retag d (a / 64) (keyAt d a) (fun c hc => by rw [hkey _ hRd c hc, hKd]) ht c
        rw [byteAt_pokeAll, hre, hBd c]
        · exact hMd
        intro x _ hc
        have := hline x hc
        simp only [this, tget_tset_self]
        exact congrArg some (.trans (keyAt_congr (s := d) rfl a) (.trans hKd (hkey _ (by exact hRd) x this).symm))
      · have e1 : ∀ c, byteAt (({ d with keyTag := tset d.keyTag (a / 64) (keyAt d a) } : State).pokeAll (a / 64 * 64)
            ((List.range 64).map fun i => byteAt d (a / 64 * 64 + i))) c = byteAt d c := by
          intro c
          rw [byteAt_pokeAll]
          rotate_left
          · exact hMd
          rotate_left
          · simp only [List.length_map, List.length_range]
            by_cases hc : a / 64 * 64 ≤ c ∧ c < a / 64 * 64 + 64
            · rw [if_pos hc]
              have : c - a / 64 * 64 < 64 := by omega
              rw [List.getD_eq_getElem?_getD, List.getElem?_map, List.getElem?_range this]
              simp only [Option.map_some, Option.getD_some]
              congr 1; omega
            · rw [if_neg hc]
              have hne : a / 64 ≠ c / 64 := by omega
              exact byteAt_of_line (fun i _ => rfl) (tget_tset_ne _ _ hne) (keyAt_congr rfl c) rfl
          · simp only [List.length_map, List.length_range]
            intro x _ hc
            have hc' : x / 64 = a / 64 := by omega
            simp only [hc', tget_tset_self]
            exact congrArg some (.trans hKd (hkey _ (by exact hRd) x hc').symm)
        rw [byteAt_pokeAll, e1, hBd c]
        · exact memInv_pokeAll _ _ _ hMd
        · intro x _ hc
          have := hline x hc
          rw [pokeAll_keyTag, this, tget_tset_self, hkey _ _ x this]
          · exact congrArg some hKd
          · rw [pokeAll_regs]; exact hRd
    · rename_i hl
      rw [byteAt_pokeAll _ _ _ hMd, hBd c]
      intro x hlt hc
      have := hline x hc
      unfold lpddrTop at *; omega

/-- The three views of memory, in plain numbers (R419 to R421, R453). -/
theorem canon_eq (a : Nat) : canon a =
    if a < 412316860416 then some a
    else if 1099511627776 ≤ a ∧ a < 1511828488192 then
      some (((a - 1099511627776) % 25769803776 / 4096 * 16 + (a - 1099511627776) / 25769803776) * 4096 +
        (a - 1099511627776) % 25769803776 % 4096)
    else if 2199023255552 ≤ a ∧ a < 2199056809984 then some a
    else none := by
  unfold canon
  simp only [lpddrTop, commonsBase, commonsSize, Nat.shiftRight_eq_div_pow, Nat.reducePow, Nat.reduceAdd, Nat.reduceMul]

/-- Addresses of one 64-byte line lie in one line of memory, in order. -/
theorem canon_line {a c i : Nat} (h : canon a = some c) (hi : a % 64 + i < 64) : canon (a + i) = some (c + i) ∧ c % 64 = a % 64 := by
  rw [canon_eq] at h ⊢
  by_cases h1 : a < 412316860416
  · rw [if_pos h1] at h
    obtain rfl := Option.some.inj h
    have h2 : a + i < 412316860416 := by omega
    rw [if_pos h2]; exact ⟨rfl, rfl⟩
  · have h1' : ¬ a + i < 412316860416 := by omega
    rw [if_neg h1] at h
    rw [if_neg h1']
    by_cases h2 : 1099511627776 ≤ a ∧ a < 1511828488192
    · rw [if_pos h2] at h
      have h2' : 1099511627776 ≤ a + i ∧ a + i < 1511828488192 := by omega
      rw [if_pos h2']
      have h3 := Option.some.inj h
      obtain ⟨x, rfl⟩ : ∃ x, a = 1099511627776 + x := ⟨a - 1099511627776, by omega⟩
      rw [show 1099511627776 + x + i - 1099511627776 = x + i by omega]
      rw [show 1099511627776 + x - 1099511627776 = x by omega] at h3
      have q1 : (x + i) / 25769803776 = x / 25769803776 := by omega
      have q2 : (x + i) % 25769803776 = x % 25769803776 + i := by omega
      have q3 : x % 25769803776 % 64 = x % 64 := Nat.mod_mod_of_dvd x (by decide)
      have q4 : (1099511627776 + x) % 64 = x % 64 := by omega
      rw [q4] at hi ⊢
      rw [q1, q2]
      generalize x % 25769803776 = y at *
      generalize x / 25769803776 = q at *
      subst h3
      clear h h1 h1' h2 h2' q1 q2 q4
      constructor
      · apply congrArg; omega
      · omega
    · rw [if_neg h2] at h
      have h2' : ¬ (1099511627776 ≤ a + i ∧ a + i < 1511828488192) := by omega
      rw [if_neg h2']
      by_cases h3 : 2199023255552 ≤ a ∧ a < 2199056809984
      · rw [if_pos h3] at h
        have h4 := Option.some.inj h
        have h3' : 2199023255552 ≤ a + i ∧ a + i < 2199056809984 := by omega
        rw [if_pos h3', h4]; exact ⟨rfl, rfl⟩
      · rw [if_neg h3] at h; simp at h

/-- In which view an address lies: 0 interleaved, 1 by lode, 2 Commons, 3 none. -/
theorem canon_cases (a : Nat) :
    (a < 412316860416 ∧ canon a = some a) ∨
    (1099511627776 ≤ a ∧ a < 1511828488192 ∧ canon a =
      some (((a - 1099511627776) % 25769803776 / 4096 * 16 + (a - 1099511627776) / 25769803776) * 4096 +
        (a - 1099511627776) % 25769803776 % 4096)) ∨
    (2199023255552 ≤ a ∧ a < 2199056809984 ∧ canon a = some a) ∨
    (canon a = none ∧ 412316860416 ≤ a ∧ (a < 1099511627776 ∨ 1511828488192 ≤ a) ∧ (a < 2199023255552 ∨ 2199056809984 ≤ a)) := by
  have e := canon_eq a
  by_cases h1 : a < 412316860416
  · rw [if_pos h1] at e; exact .inl ⟨h1, e⟩
  · rw [if_neg h1] at e
    by_cases h2 : 1099511627776 ≤ a ∧ a < 1511828488192
    · rw [if_pos h2] at e; exact .inr (.inl ⟨h2.1, h2.2, e⟩)
    · rw [if_neg h2] at e
      by_cases h3 : 2199023255552 ≤ a ∧ a < 2199056809984
      · rw [if_pos h3] at e; exact .inr (.inr (.inl ⟨h3.1, h3.2, e⟩))
      · rw [if_neg h3] at e; exact .inr (.inr (.inr ⟨e, by omega, by omega, by omega⟩))

/-- No two addresses of a range that is memory throughout name one byte. -/
theorem canon_inj {a n i j : Nat} (h : ∀ k, k < n → (canon (a + k)).isSome = true) (hi : i < n) (hj : j < n)
    (e : canon (a + i) = canon (a + j)) : i = j := by
  have gap : ∀ z, a ≤ z → z < a + n → canon z ≠ none := fun z h1 h2 hz => by
    have := h (z - a) (by omega)
    rw [show a + (z - a) = z by omega, hz] at this
    cases this
  have g1 : canon 412316860416 = none := by rw [canon_eq]; rfl
  have g2 : canon 1511828488192 = none := by rw [canon_eq]; rfl
  have top : a + n ≤ 412316860416 ∨ 412316860416 < a := by
    by_contra hc; exact gap _ (by omega) (by omega) g1
  have mid : a + n ≤ 1511828488192 ∨ 1511828488192 < a := by
    by_contra hc; exact gap _ (by omega) (by omega) g2
  rcases canon_cases (a + i) with ⟨_, q⟩ | ⟨_, _, q⟩ | ⟨_, _, q⟩ | ⟨q, _⟩ <;>
    rcases canon_cases (a + j) with ⟨_, r⟩ | ⟨_, _, r⟩ | ⟨_, _, r⟩ | ⟨r, _⟩ <;>
    first
    | exact absurd q (gap _ (by omega) (by omega))
    | exact absurd r (gap _ (by omega) (by omega))
    | (rw [q, r] at e; have := Option.some.inj e; omega)

/-- No line gains an error mark by a write. -/
theorem badLines_writeLine (s : State) (a : Nat) (bs : List Byte) (l : Nat) (h : s.badLines.contains l = false) :
    (s.writeLine a bs).badLines.contains l = false := by
  have hd : (s.markDirty a).badLines.contains l = false := by rw [State.markDirty_badLines]; exact h
  unfold State.writeLine
  generalize s.markDirty a = d at *
  dsimp only
  split
  · rw [pokeAll_badLines]
    have : (d.badLines.filter (· != codeword a)).contains l = false := by
      simp only [List.contains_eq_mem, decide_eq_false_iff_not] at hd ⊢
      exact fun hm => hd (List.mem_of_mem_filter hm)
    split <;> exact this
  · split
    · exact hd
    · split
      · split <;> simp only [pokeAll_badLines] <;> exact hd
      · rw [pokeAll_badLines]; exact hd

/-- The 8-byte word of an address of memory lies in memory, in order. -/
theorem canon_word {x c : Nat} (h : canon x = some c) : canon (x / 8 * 8) = some (c - x % 8) ∧ c % 64 = x % 64 := by
  have h0 := canon_line (i := 0) h (by omega)
  refine ⟨?_, h0.2⟩
  obtain ⟨l, hl⟩ : ∃ l, x / 8 = l := ⟨_, rfl⟩
  obtain ⟨r, hr, e⟩ : ∃ r, r < 8 ∧ x = l * 8 + r := ⟨x % 8, by omega, by omega⟩
  have hc8 : c % 8 = x % 8 := by have := h0.2; omega
  have hq : (canon (l * 8)).isSome = true := by
    rw [canon_eq] at h ⊢
    by_cases h1 : l * 8 < 412316860416
    · rw [if_pos h1]; rfl
    · rw [if_neg h1]
      by_cases h2 : 1099511627776 ≤ l * 8 ∧ l * 8 < 1511828488192
      · rw [if_pos h2]; rfl
      · rw [if_neg h2]
        by_cases h3 : 2199023255552 ≤ l * 8 ∧ l * 8 < 2199056809984
        · rw [if_pos h3]; rfl
        · rw [if_neg (by omega), if_neg (by omega), if_neg (by omega)] at h; simp at h
  obtain ⟨d, hd⟩ := Option.isSome_iff_exists.mp hq
  have := (canon_line (i := r) hd (by omega)).1
  rw [← e, h] at this
  have := Option.some.inj this
  rw [hl, hd]
  congr 1
  omega

/-- Addresses of one 8-byte word lie in one codeword. -/
theorem codeword_word {c r : Nat} (h : c % 8 = 0) (hr : r < 8) : codeword (c + r) = codeword c := by
  unfold codeword codeBytes
  by_cases hc : c < lpddrTop
  · rw [if_pos hc, if_pos (by unfold lpddrTop at *; omega)]; omega
  · rw [if_neg hc, if_neg (by unfold lpddrTop at *; omega)]; omega

theorem codeBytes_cases (c : Nat) : codeBytes c = 64 ∨ codeBytes c = 8 := by unfold codeBytes; split <;> simp

/-- The codewords of a range are those of its bytes. -/
theorem mem_codewords {a n d : Nat} :
    (∃ v, (v, d) ∈ codewords a n) ↔ ∃ i c, i < n ∧ canon (a + i) = some c ∧ d = codeword c := by
  unfold codewords
  by_cases hn : n = 0
  · rw [if_pos hn]; simp; omega
  rw [if_neg hn]
  simp only [List.mem_dedup, List.mem_filterMap, List.mem_range, Option.map_eq_some_iff, Prod.mk.injEq]
  constructor
  · rintro ⟨v, k, hk, c, hc, -, rfl⟩
    have h8 : c % 8 = 0 := by have := (canon_word hc).2; omega
    obtain ⟨x, hx, hx1, hx2, hx3⟩ : ∃ x, x = max ((a / 8 + k) * 8) a ∧ (a / 8 + k) * 8 ≤ x ∧ x < (a / 8 + k) * 8 + 8 ∧ x < a + n :=
      ⟨_, rfl, by omega, by omega, by omega⟩
    refine ⟨x - a, c + (x - (a / 8 + k) * 8), by omega, ?_, (codeword_word h8 (by omega)).symm⟩
    rw [show a + (x - a) = (a / 8 + k) * 8 + (x - (a / 8 + k) * 8) by omega]
    exact (canon_line hc (by omega)).1
  · rintro ⟨i, c, hi, hc, rfl⟩
    obtain ⟨hw, hm⟩ := canon_word hc
    refine ⟨_, (a + i) / 8 - a / 8, by omega, c - (a + i) % 8, ?_, rfl, ?_⟩
    · rw [← hw]; congr 1; omega
    · have := codeword_word (c := c - (a + i) % 8) (r := (a + i) % 8) (by omega) (by omega)
      rw [← this]; congr 1; omega

/-- A range without error is one none of whose bytes lies in a codeword with an uncorrectable error. -/
theorem badRange_eq_false {s : State} {a n : Nat} :
    badRange s a n = false ↔ ∀ i c, i < n → canon (a + i) = some c → s.badLines.contains (codeword c) = false := by
  unfold badRange
  rw [List.any_eq_false]
  constructor
  · intro h i c hi hc
    obtain ⟨v, hv⟩ := mem_codewords.mpr ⟨i, c, hi, hc, rfl⟩
    simpa using h _ hv
  · intro h v hv
    obtain ⟨i, c, hi, hc, e⟩ := mem_codewords.mp ⟨v.1, hv⟩
    rw [e, h i c hi hc]; simp

/-- What a write does to the bytes of memory (R419 to R421, R440): the range's bytes are those given, in every view; every other
byte reads as before; and no line gains an error mark. -/
theorem writeFuel_bytes (f : Nat) : ∀ (s : State) (a : Nat) (bs : List Byte), bs.length < f → Writable s a bs.length →
    (∀ i c, i < bs.length → canon (a + i) = some c → byteAt (s.writeFuel a bs f) c = bs.getD i 0) ∧
    MemKeptBut a bs.length s (s.writeFuel a bs f) ∧
    ∀ l, s.badLines.contains l = false → (s.writeFuel a bs f).badLines.contains l = false := by
  induction f with
  | zero => intro s a bs h; omega
  | succ f ih =>
    intro s a bs hf ⟨hm, hw⟩
    unfold State.writeFuel
    by_cases he : bs.isEmpty = true
    · rw [if_pos he]
      have : bs = [] := by simpa using he
      subst this
      exact ⟨fun i c h => absurd h (by simp), fun c _ => rfl, fun l h => h⟩
    · rw [if_neg he]
      have hlen : 0 < bs.length := by
        cases bs with
        | nil => simp at he
        | cons b r => simp
      obtain ⟨c0, hc0⟩ := Option.isSome_iff_exists.mp (hw.1 0 hlen)
      rw [Nat.add_zero] at hc0
      simp only [hc0]
      have hnr : 0 < codeBytes c0 - c0 % codeBytes c0 ∧ a % 64 + (codeBytes c0 - c0 % codeBytes c0) ≤ 64 := by
        have h64 : c0 % 64 = a % 64 := (canon_line (i := 0) hc0 (by omega)).2
        rcases codeBytes_cases c0 with e | e <;> rw [e] <;> omega
      generalize codeBytes c0 - c0 % codeBytes c0 = n at *
      obtain ⟨hn0, hn64⟩ := hnr
      have hT : (bs.take n).length = min n bs.length := List.length_take
      have hD : (bs.drop n).length = bs.length - n := List.length_drop
      have hline := fun i (hi : a % 64 + i < 64) => canon_line hc0 hi
      have hc64 : c0 % 64 = a % 64 := (hline 0 (by omega)).2
      have hbl : s.badLines.contains (codeword c0) = false :=
        badRange_eq_false.mp hw.2 0 c0 hlen (by rw [Nat.add_zero]; exact hc0)
      have hwl := byteAt_writeLine s c0 (bs.take n) hm (by rw [hT]; omega) hbl
      have hmi := memInv_writeLine s c0 (bs.take n) hm
      have hbad := badLines_writeLine s c0 (bs.take n)
      generalize s.writeLine c0 (bs.take n) = t at *
      have hw' : (∀ i, i < (bs.drop n).length → (canon (a + n + i)).isSome = true) ∧ badRange t (a + n) (bs.drop n).length = false := by
        rw [hD]
        refine ⟨fun i hi => ?_, ?_⟩
        · rw [Nat.add_assoc]; exact hw.1 (n + i) (by omega)
        · refine badRange_eq_false.mpr fun i c hi hc => hbad _ (badRange_eq_false.mp hw.2 (n + i) c (by omega) ?_)
          rw [← Nat.add_assoc]; exact hc
      have IH := ih t (a + n) (bs.drop n) (by rw [hD]; omega) ⟨hmi, hw'⟩
      refine ⟨fun i c hi hc => ?_, fun c hc => ?_, fun l h => IH.2.2 l (hbad l h)⟩
      · by_cases hin : i < n
        · have hout : ∀ j, j < (bs.drop n).length → canon (a + n + j) ≠ some c := by
            intro j hj hcj
            rw [hD] at hj
            have := canon_inj hw.1 (i := i) (j := n + j) hi (by omega) (by rw [hc, ← hcj, Nat.add_assoc])
            omega
          rw [IH.2.1 c hout, hwl c]
          have hci : c = c0 + i := by
            have := (hline i (by omega)).1
            rw [hc] at this
            exact Option.some.inj this
          rw [if_pos (by rw [hT]; omega)]
          have : c - c0 = i := by omega
          rw [this, List.getD_eq_getElem?_getD, List.getElem?_take_of_lt hin, List.getD_eq_getElem?_getD]
        · have := IH.1 (i - n) c (by rw [hD]; omega) (by rw [show a + n + (i - n) = a + i by omega]; exact hc)
          rw [this, List.getD_eq_getElem?_getD, List.getElem?_drop, List.getD_eq_getElem?_getD, show n + (i - n) = i by omega]
      · rw [IH.2.1 c (fun j hj => by rw [hD] at hj; rw [Nat.add_assoc]; exact hc (n + j) (by omega)), hwl c]
        rw [if_neg]
        rw [hT]
        rintro ⟨h1, h2⟩
        have := (hline (c - c0) (by omega)).1
        rw [show c0 + (c - c0) = c by omega] at this
        exact hc (c - c0) (by omega) this

/-- A range of reads is the bytes at its addresses. -/
theorem readBytes_eq {s : State} {a : Nat} {bs : List Byte} (h : ∀ i, i < bs.length → (canon (a + i)).isSome = true)
    (hb : ∀ i c, i < bs.length → canon (a + i) = some c → byteAt s c = bs.getD i 0) : readBytes s a bs.length = bs := by
  unfold readBytes
  apply List.ext_getElem
  · simp
  · intro i h1 h2
    obtain ⟨c, hc⟩ := Option.isSome_iff_exists.mp (h i h2)
    simp only [List.getElem_map, List.getElem_range, hc]
    rw [hb i c h2 hc, List.getD_eq_getElem?_getD, List.getElem?_eq_getElem h2, Option.getD_some]

/-- Bytes written to a range that is memory without error are read there, and every other byte reads as before. -/
theorem stored_writeBytes (s : State) (a : Nat) (bs : List Byte) (hw : Writable s a bs.length) :
    Stored a bs s (s.writeBytes a bs) := by
  have h := writeFuel_bytes (bs.length + 1) s a bs (by omega) hw
  exact ⟨readBytes_eq hw.2.1 h.1, h.2.1⟩

/-- A store to a range without error reports nothing: it is the write. -/
theorem storeBytes_eq (s : State) (a : Nat) (bs : List Byte) (hb : badRange s a bs.length = false) :
    s.storeBytes a bs = s.writeBytes a bs := by
  unfold State.storeBytes
  dsimp only
  rw [List.filter_eq_nil_iff.mpr]
  · rfl
  intro v hv
  obtain ⟨i, c, hi, hc, e⟩ := mem_codewords.mp ⟨v.1, hv⟩
  rw [e, badRange_eq_false.mp hb i c hi hc]
  simp

/-- Bytes stored to a range that is memory without error are read there, and every other byte reads as before. -/
theorem stored_storeBytes (s : State) (a : Nat) (bs : List Byte) (hw : Writable s a bs.length) :
    Stored a bs s (s.storeBytes a bs) := by
  rw [storeBytes_eq s a bs hw.2.2]; exact stored_writeBytes s a bs hw

/-- Such a store changes memory alone. -/
theorem memOnly_storeBytes (s : State) (a : Nat) (bs : List Byte) (hb : badRange s a bs.length = false) :
    MemOnly s (s.storeBytes a bs) := by
  rw [storeBytes_eq s a bs hb]; exact memOnly_writeBytes s a bs

end Sys2Proof.Machine
end

