-- ==== Sys2Proof/WellFormed.lean ====
section
/-! DEFINITION. Well-formed commands: every operand lies in the range that its field of the manual has. -/

namespace Sys2Proof

/-- A number below a bound. -/
def below (n k : Nat) : Bool := decide (n < k)

/-- Software of one of the partitions 0 to 7, or firmware (R788, R789). -/
def Who.wf (w : Who) : Bool := match w with | .firmware => true | .part p => below p 8

/-- A start request of well-formed software, with areas of the configuration store, 0 to 7 (Table 18-3). -/
def StartReq.wf (r : StartReq) : Bool := r.who.wf && r.areas.all fun x => below x.1 8

/-- The fields of an operation record (R327): operation, class, lode, sequence, argument. -/
def OpRec.wf (r : OpRec) : Bool := below r.op 256 && below r.cls 16 && below r.lode 16 && below r.seq (2 ^ 14) && below r.arg (2 ^ 32) && below r.word1 (2 ^ 64)

/-- A memory request: a station 0 to 63, a 48-bit address, at least one byte. -/
def MemReq.wf (r : MemReq) : Bool := below r.station 64 && r.who.wf && below r.addr (2 ^ 48) && below 0 r.len

/-- The header fields of a control frame in their widths (Table 9-5). -/
def CtlHdr.wf (h : CtlHdr) : Bool :=
  below h.magic (2 ^ 16) && below h.verMaj 256 && below h.verMin 256 && below h.type (2 ^ 16) && below h.status (2 ^ 16) && below h.session (2 ^ 32) &&
    below h.len (2 ^ 32) && below h.frameSeq (2 ^ 64) && below h.ack (2 ^ 64)

/-- The header fields of a Warp frame, and a payload of at most 4,096 bytes (Table 11-4). -/
def WarpFrame.wf (f : WarpFrame) : Bool :=
  below f.counter (2 ^ 64) && below f.part 8 && below f.src 64 && below f.dst 64 && below f.chan 256 && below f.payload.length 4097

/-- An Ethernet frame's PCP, VLAN and source address in their widths. -/
def EthFrame.wf (f : EthFrame) : Bool := below f.pcp 8 && below f.vlan 4096 && below f.srcMac (2 ^ 48) && below f.len (2 ^ 16)

/-- The words of a SUBMIT (Table 9-7). -/
def SubmitBody.wf (b : SubmitBody) : Bool :=
  below b.w0 (2 ^ 64) && below b.w1 (2 ^ 64) && below b.w2 (2 ^ 64) && below b.w3 (2 ^ 64) && below b.w4 (2 ^ 64) && below b.w5 (2 ^ 64) &&
    below b.w6 (2 ^ 64) && below b.w7 (2 ^ 64)

/-- The body of OPEN (Table 9-6). -/
def OpenBody.wf (b : OpenBody) : Bool :=
  below b.part 256 && below b.token (2 ^ 128) && below b.ringAddr (2 ^ 64) && below b.rkey (2 ^ 32) && below b.ringLog2 256 && below b.clientQpn (2 ^ 24)

/-- The body of FW_BLOCK: at most 4,096 bytes of data (R897). -/
def FwBody.wf (b : FwBody) : Bool := below b.offset (2 ^ 32) && below b.op 256 && below b.flags 256 && below b.time (2 ^ 64) && below b.data.length 4097

/-- An identity record (Table 11-2). -/
def IdentRec.wf (r : IdentRec) : Bool := below r.serial (2 ^ 64) && below r.module_ 64 && below r.link 8 && below r.slot 64 && below r.nonce (2 ^ 128) && below r.epoch (2 ^ 32)

/-- What an end of a link sends in IDENT: a record, and a confirmation of at most 256 bits (R798). -/
def IdentMsg.wf (m : IdentMsg) : Bool := m.toIdentRec.wf && below m.tag.length 33

/-- The content of a LEASE frame (Table 12-2). -/
def LeaseRec.wf (r : LeaseRec) : Bool := below r.serial (2 ^ 64) && below r.epoch (2 ^ 32) && below r.left (2 ^ 32) && below r.time (2 ^ 64)

/-- A command is well formed. -/
def Instr.wf (i : Instr) : Bool :=
  match i with
  | .loomSqTail who q tail => who.wf && below q 64 && below tail (2 ^ 16)
  | .loomSqBase who q base => who.wf && below q 64 && below base (2 ^ 48)
  | .loomSqCtl who q val => who.wf && below q 64 && below val (2 ^ 64)
  | .descriptorAccept _ => true
  | .dispatch st unit => below st 64 && (below unit 2 || ((st == 54 || st == 55) && below unit 73))
  | .tileSend _ out => below out 2
  | .tileArrive _ inp => below inp 4
  | .creditReturn _ inp => below inp 4
  | .loomStall _ => true
  | .loomAbort who val => who.wf && below val (2 ^ 64)
  | .eventGrant => true
  | .completionRecordWrite q => below q 64
  | .nop _ => true
  | .tload _ => true
  | .tstore _ => true
  | .htask _ => true
  | .htaskHandover _ => true
  | .hcTaskDone who cluster task status => who.wf && below cluster 2 && below task (2 ^ 32) && below status (2 ^ 8)
  | .gemm _ => true
  | .accreduce _ => true
  | .convert _ => true
  | .facet _ _ => true
  | .facetNop st _ => below st 48
  | .halt st _ => below st 48
  | .br st _ => below st 48
  | .bez st _ => below st 48
  | .bnz st _ => below st 48
  | .loop st _ => below st 48
  | .sadd st _ => below st 48
  | .ssub st _ => below st 48
  | .smul st _ => below st 48
  | .sand st _ => below st 48
  | .sor st _ => below st 48
  | .sxor st _ => below st 48
  | .sshl st _ => below st 48
  | .sshr st _ => below st 48
  | .ssra st _ => below st 48
  | .sslt st _ => below st 48
  | .ssltu st _ => below st 48
  | .smin st _ => below st 48
  | .smax st _ => below st 48
  | .movi st _ => below st 48
  | .vadd st _ => below st 48
  | .vsub st _ => below st 48
  | .vmul st _ => below st 48
  | .vfma st _ => below st 48
  | .vmin st _ => below st 48
  | .vmax st _ => below st 48
  | .vabs st _ => below st 48
  | .vneg st _ => below st 48
  | .vdiv st _ => below st 48
  | .vsqrt st _ => below st 48
  | .vcvtfi st _ => below st 48
  | .vcvtif st _ => below st 48
  | .vmov st _ => below st 48
  | .vsel st _ => below st 48
  | .viadd st _ => below st 48
  | .visub st _ => below st 48
  | .vimul st _ => below st 48
  | .vand st _ => below st 48
  | .vor st _ => below st 48
  | .vxor st _ => below st 48
  | .vshl st _ => below st 48
  | .vshr st _ => below st 48
  | .vsra st _ => below st 48
  | .vimin st _ => below st 48
  | .vimax st _ => below st 48
  | .vceq st _ => below st 48
  | .vclt st _ => below st 48
  | .vcle st _ => below st 48
  | .vcun st _ => below st 48
  | .viceq st _ => below st 48
  | .viclt st _ => below st 48
  | .pand st _ => below st 48
  | .por st _ => below st 48
  | .pxor st _ => below st 48
  | .pnot st _ => below st 48
  | .planes st _ => below st 48
  | .exp st _ => below st 48
  | .exp2 st _ => below st 48
  | .log st _ => below st 48
  | .log2 st _ => below st 48
  | .recip st _ => below st 48
  | .rsqrt st _ => below st 48
  | .sigmoid st _ => below st 48
  | .tanh st _ => below st 48
  | .erf st _ => below st 48
  | .geluTanh st _ => below st 48
  | .geluErf st _ => below st 48
  | .silu st _ => below st 48
  | .vrsum st _ => below st 48
  | .vrmax st _ => below st 48
  | .vrmin st _ => below st 48
  | .vriadd st _ => below st 48
  | .vbcast st _ => below st 48
  | .vext st _ => below st 48
  | .vslide st _ => below st 48
  | .vidx st _ => below st 48
  | .vperm st _ => below st 48
  | .vld st _ => below st 48
  | .vst st _ => below st 48
  | .vldt st _ => below st 48
  | .vstt st _ => below st 48
  | .twait st _ => below st 48
  | .trel st _ => below st 48
  | .topen st _ => below st 48
  | .temit st _ => below st 48
  | .conv _ => true
  | .pool _ => true
  | .argmax _ => true
  | .fused _ => true
  | .attn _ => true
  | .attnBwd _ => true
  | .kvop _ => true
  | .seqOpen part r res => below part 8 && r.wf && below res (2 ^ 48)
  | .seqClose part r res => below part 8 && r.wf && below res (2 ^ 48)
  | .share part r res => below part 8 && r.wf && below res (2 ^ 48)
  | .drop part r res => below part 8 && r.wf && below res (2 ^ 48)
  | .cow part r res => below part 8 && r.wf && below res (2 ^ 48)
  | .pin part r res => below part 8 && r.wf && below res (2 ^ 48)
  | .unpin part r res => below part 8 && r.wf && below res (2 ^ 48)
  | .resolve part r res => below part 8 && r.wf && below res (2 ^ 48)
  | .tick part r res => below part 8 && r.wf && below res (2 ^ 48)
  | .noevict part r res => below part 8 && r.wf && below res (2 ^ 48)
  | .kvopQuery part r res => below part 8 && r.wf && below res (2 ^ 48)
  | .alloc part r res => below part 8 && r.wf && below res (2 ^ 48)
  | .decref part r res => below part 8 && r.wf && below res (2 ^ 48)
  | .flush seq layer => below seq (2 ^ 14) && below layer (2 ^ 16)
  | .ledgerClassValid who n val => who.wf && below n 16 && below val (2 ^ 64)
  | .sample _ => true
  | .sctl _ => true
  | .groupCancel part r res => below part 8 && r.wf && below res (2 ^ 48)
  | .groupClear part r res => below part 8 && r.wf && below res (2 ^ 48)
  | .seqReset part r res => below part 8 && r.wf && below res (2 ^ 48)
  | .seqLoop part r res => below part 8 && r.wf && below res (2 ^ 48)
  | .seqQuery part r res => below part 8 && r.wf && below res (2 ^ 48)
  | .memoryRead req _ => req.wf
  | .memoryWrite req _ _ => req.wf
  | .lodeScrub unit _ => below unit 20
  | .lodeCal lode => below lode 16
  | .memRegionWrite who n _ val => who.wf && below n 64 && below val (2 ^ 64)
  | .cmClearDone => true
  | .memPartKey who p val => who.wf && below p 8 && below val (2 ^ 64)
  | .retire who k => who.wf && below k 16
  | .vchan _ => true
  | .vchanOpen vd part r res => below vd 2 && below part 8 && r.wf && below res (2 ^ 48)
  | .vchanClose vd part r res => below vd 2 && below part 8 && r.wf && below res (2 ^ 48)
  | .keypic vd part r res => below vd 2 && below part 8 && r.wf && below res (2 ^ 48)
  | .vchanQuery vd part r res => below vd 2 && below part 8 && r.wf && below res (2 ^ 48)
  | .vdec _ => true
  | .venc _ => true
  | .packetTake vd chan => below vd 2 && below chan 40
  | .pictureComplete vd chan => below vd 2 && below chan 40
  | .fwTimeout vd chan => below vd 2 && below chan 40
  | .frameReceive port f => below port 3 && f.wf
  | .classify port shuttle => below port 3 && below shuttle 8
  | .reassemblyTimeout _ => true
  | .rread _ => true
  | .rwrite _ => true
  | .rdmaResponse qpn _ => below qpn 1024
  | .rdmaRetryTimeout qpn => below qpn 1024
  | .congestionNotification qpn => below qpn 1024
  | .rateIncrease qpn => below qpn 1024
  | .result _ => true
  | .resultRingWrite _ => true
  | .openSession port h b => below port 3 && h.wf && b.wf
  | .closeSession port h => below port 3 && h.wf
  | .submit port h b => below port 3 && h.wf && b.wf
  | .ack port h => below port 3 && h.wf
  | .cancel port h _ => below port 3 && h.wf
  | .pause port h _ ttl => below port 3 && h.wf && below ttl (2 ^ 32)
  | .resume port h _ => below port 3 && h.wf
  | .ttlExpiry _ => true
  | .inventory port h => below port 3 && h.wf
  | .attestCert port h _ => below port 3 && h.wf
  | .sessionState port h => below port 3 && h.wf
  | .dumpRead port h offset => below port 3 && h.wf && below offset (2 ^ 32)
  | .fwData port h b => below port 3 && h.wf && b.wf
  | .fwVerify port h b => below port 3 && h.wf && b.wf
  | .fwActivate port h b => below port 3 && h.wf && b.wf
  | .fwCancel port h b => below port 3 && h.wf && b.wf
  | .fwDiscard port h b => below port 3 && h.wf && b.wf
  | .fwStatus port h b => below port 3 && h.wf && b.wf
  | .eraseDone _ => true
  | .pairLease port h _ => below port 3 && h.wf
  | .strobe tag _ edge => below tag (2 ^ 16) && below edge (2 ^ 64)
  | .tagAnnouncement tag => below tag (2 ^ 16)
  | .verdictWrite part tag val => below part 8 && below tag (2 ^ 16) && below val (2 ^ 64)
  | .trigEdge input _ ts => below input 16 && below ts (2 ^ 64)
  | .trigAccept input => below input 16
  | .lineTrigPop who => who.wf
  | .timeSetBoundary => true
  | .offsetResult _ => true
  | .tbAdj who val => who.wf && below val (2 ^ 64)
  | .tbRate who val => who.wf && below val (2 ^ 64)
  | .tbHoldover => true
  | .linkEnable who j val => who.wf && below j 8 && below val (2 ^ 64)
  | .retrain who j => who.wf && below j 8
  | .recal who j => who.wf && below j 8
  | .fecLock j farSerial => below j 8 && below farSerial (2 ^ 64)
  | .fecLockTimeout j => below j 8
  | .calibDone j _ => below j 8
  | .ident j r => below j 8 && r.wf
  | .failedRetry j => below j 8
  | .linkLoss j => below j 8
  | .opticsSample j rx0 rx1 => below j 8 && below rx0 (2 ^ 16) && below rx1 (2 ^ 16)
  | .data j f => below j 8 && f.wf
  | .credit j f => below j 8 && f.wf
  | .cmd j f => below j 8 && f.wf
  | .cpl j f => below j 8 && f.wf
  | .arrive j f bid ts _ _ => below j 8 && f.wf && below bid (2 ^ 16) && below ts (2 ^ 64)
  | .release j f bid _ => below j 8 && f.wf && below bid (2 ^ 16)
  | .warpAck j counter => below j 8 && below counter (2 ^ 64)
  | .warpNak j counter => below j 8 && below counter (2 ^ 64)
  | .keyUpdate j f => below j 8 && f.wf
  | .partEpoch j f part epoch => below j 8 && f.wf && below part 8 && below epoch (2 ^ 32)
  | .wsend _ => true
  | .wrecv _ => true
  | .barrier _ => true
  | .barrierTimeout id => below id (2 ^ 16)
  | .wsubmit _ => true
  | .lease j f r => below j 8 && f.wf && r.wf
  | .journal j f _ _ => below j 8 && f.wf
  | .journalConfirm j f _ => below j 8 && f.wf
  | .decision j f _ _ _ => below j 8 && f.wf
  | .decisionConfirm j f _ => below j 8 && f.wf
  | .pktFetch j f vd chan _ => below j 8 && f.wf && below vd 2 && below chan 64
  | .pktData j f vd chan seq _ => below j 8 && f.wf && below vd 2 && below chan 64 && below seq (2 ^ 16)
  | .joinData j f _ => below j 8 && f.wf
  | .joinCtl j f _ _ _ => below j 8 && f.wf
  | .swap j f epoch => below j 8 && f.wf && below epoch (2 ^ 32)
  | .lineRead j f _ => below j 8 && f.wf
  | .leaseRenewal => true
  | .leaseExpiry => true
  | .leaseLapse => true
  | .releaseTakeover => true
  | .leaseWaitTimeout => true
  | .pairHeartbeat who => who.wf
  | .swapReq who => who.wf
  | .swapAt => true
  | .capSet watts => below watts (2 ^ 16)
  | .capLeaseExpired => true
  | .capLoop pmDw => below pmDw (2 ^ 16)
  | .phaseWindow _ => true
  | .pmStationPhase who k val => who.wf && below k 4 && below val (2 ^ 64)
  | .opStepDone => true
  | .warnAssert _ => true
  | .warnClear _ => true
  | .warnHoldExpiry _ => true
  | .droop cycles => below cycles (2 ^ 32)
  | .droopClear => true
  | .thermalSample junction coolantC => below junction (2 ^ 8) && below coolantC (2 ^ 8)
  | .thermalTrip => true
  | .alert => true
  | .alertClear => true
  | .dozeRequest who => who.wf
  | .watchRequest who => who.wf
  | .dormantRequest who => who.wf
  | .tickW0 => true
  | .entryWindowEnd => true
  | .wakePin pins => below pins (2 ^ 8)
  | .mctpWake => true
  | .alarm => true
  | .watchSample trig coolantC => below trig (2 ^ 16) && below coolantC (2 ^ 8)
  | .wake _ => true
  | .dozeExit => true
  | .selvageRelease who bits => who.wf && below bits 64
  | .partitionCreate who p val => who.wf && below p 8 && below val (2 ^ 64)
  | .teardown who p => who.wf && below p 8
  | .drainDone p => below p 8
  | .stragglerTimeout p => below p 8
  | .cleanDone p => below p 8
  | .gnMeasExtend who val => who.wf && below val (2 ^ 64)
  | .gnAttestReq who addr => who.wf && below addr (2 ^ 48)
  | .certIssued => true
  | .selftest who => who.wf
  | .selftestDone _ => true
  | .zeroise who val => who.wf && below val (2 ^ 64)
  | .tamper source => below source 4
  | .healthTestFail test => below test 9
  | .faultReport source cls bits => below source 161 && below cls 4 && below bits (2 ^ 16)
  | .safeReq who => who.wf
  | .collectorFault => true
  | .unitResetDone st => below st 64
  | .testSchedule => true
  | .fcTestReq who unit => who.wf && below unit 64
  | .testStart => true
  | .testDone _ => true
  | .fcInject who val => who.wf && below val (2 ^ 64)
  | .fcStatus who k val => who.wf && below k 4 && below val (2 ^ 64)
  | .clear who st => who.wf && below st 64
  | .sampleTick => true
  | .dbgTrcMark who st val => who.wf && below st 64 && below val (2 ^ 64)
  | .dbgWdKick who w => who.wf && below w 4
  | .wdWarn w => below w 4
  | .watchdogExpiry w => below w 4
  | .dumpReq who => who.wf
  | .dump => true
  | .stopTick => true
  | .dumpDone _ => true
  | .warmReq r => r.wf
  | .coldReq r => r.wf
  | .confirm who => who.wf
  | .reset _ => true
  | .activation => true
  | .trialTimeout => true
  | .startComplete => true
  | .powerOnReset => true
  | .vin54Loss => true
  | .registerWrite who addr val => who.wf && below addr (2 ^ 48) && below val (2 ^ 64)
  | .rcRead who addr => who.wf && below addr (2 ^ 48)
  | .lightOnBothLanes j _ => below j 8
  | .portLinkUp n _ => below n 3
  | .gateControlListLoad n => below n 2
  | .pendingEntryDiscard => true
  | .clockGating st => below st 64
  | .classInitDone n => below n 16
  | .imageComplete _ => true
  | .traceDrain st n => below st 64 && below n 257
  | .waitForInterrupt => true

end Sys2Proof
end

