-- ==== Sys2Proof/Tests/Slice0.lean ====
section
/-! SUPPORT. The model's own tests: ill-formed commands that the check refuses, and, for each statement with hypotheses, states
and operands that meet them. -/

namespace Sys2Proof.Tests

set_option Elab.async false

open Sys2Proof Sys2Proof.Machine

/-! ### Small states -/

def zDesc (op cls part : Nat) : Desc := ⟨BitVec.ofNat 64 (op + part * 2 ^ 8 + cls * 2 ^ 12), 5, 0, 0, 0, 0, 0, 0⟩
def zWork : Work := { pos := 0, fails := 0, bytes := 0, flags := 0, sat := 0, aux := 0, aux2 := 0, opened := false, lost := false, attn := none }
/-- A running command of an opcode in slot 7. -/
def zCmd (op cls st : Nat) : Tracked :=
  { slot := 7, queue := 0, desc := zDesc op cls 0, opb := List.replicate 128 0, phase := .running, compl := .none,
    place := some (st, 0), started := true, ins := [], outs := [], work := zWork, loaded := [], status := none, abortReq := false,
    upstream := false, replayed := false, rerun := false, arrivals := [], moved := 0, stallSent := false, tilesOut := 0,
    record := none, venc := none }
def zTile : Tile :=
  { stream := 1, index := 0, rowsM1 := 0, rowBytesM1 := 63, format := 0, last := false, zc := false, tent := false, layer := 0,
    reserved := 0, payload := List.replicate 64 9 }
def zIn (w : List Tile) : InBind := { stream := 1, next := 0, window := w, taken := [], released := 0, lastIn := false, discard := false }
def zOut (q : List Tile) : OutBind := { stream := 2, ncons := 1, formed := 0, queue := q, sent := 0, ceased := false }
def zState : State := { State.reset with store := { State.reset.store with starting := none } }
def zRun (c : Tracked) : State := { zState with tracked := [c] }
/-- Partition 0 valid, owning every station and the first 16 MiB of memory. -/
def zPart (s : State) : State :=
  (((s.setReg (A.gnPartCtl 0) 1).setReg (A.gnPartStations 0) (2 ^ 61 - 1)).setReg (A.memRegionBase 0) 1).setReg (A.memRegionLimit 0)
    0x1000000

/-- A state after a step, if there is one, meets a test. -/
def post (o : Host.Outcome State Fault Refusal) (p : State → Bool) : Bool :=
  match o with | .next t => p t | _ => false

/-! ### Stream programs, stations and the Seam -/

theorem test_wit_queue : (zState.fget (A.loomSqCtl 4) A.loomSqCtl_part = 0) ∧ zState.thimble.state = .run := by decide +kernel

/-- Queue 3 of partition 0 enabled, one descriptor at address 0: a NOP for the station of class 3. -/
def zQueue (d : Desc) : State :=
  let s := zPart ((((zState.setReg A.loomCtl 1).setReg (A.loomSqCtl 3) 0x41).setReg (A.loomSqTail 3) 1).setReg (A.loomPartQuota 0) 9)
  s.writeBytes 0 ((leBytes 8 d.w0.toNat) ++ leBytes 8 d.w1.toNat ++ List.replicate 48 0)

theorem test_wit_accept :
    let s := zQueue (zDesc 0 3 0)
    pickQueue s = some (3, 1) ∧ badRange s (headAddr s 3) 64 = false ∧
      formCheck (Desc.ofBytes (readBytes s (headAddr s 3) 64)) = none ∧
      stateCheck (s.fetched 3 1) 3 (Desc.ofBytes (readBytes s (headAddr s 3) 64)) = none := by decide +kernel

theorem test_wit_accept_bad :
    let s := zQueue (zDesc 0x05 3 0)
    pickQueue s = some (3, 1) ∧ badRange s (headAddr s 3) 64 = false ∧
      formCheck (Desc.ofBytes (readBytes s (headAddr s 3) 64)) = some 1 := by decide +kernel

/-- A NOP that waits for station 52. -/
def zWaiting : State :=
  zPart ({ zState with tracked := [{ zCmd 0 3 52 with phase := .waiting, place := none, started := false }] }.setReg A.loomCtl 1)

theorem test_wit_dispatch :
    zWaiting.flag A.loomCtl A.loomCtl_enable = true ∧ halted zWaiting = false ∧ stationShut zWaiting 52 = false ∧
      zWaiting.thimble.state = .run ∧ unitCmd zWaiting 52 0 Phase.onUnit = none ∧
      (zWaiting.tracked.find? fun t => t.phase == .waiting && (t.compl == .none || t.rerun) && t.status == none &&
        physical zWaiting t.logical == 52 && unitOf t == 0 && eligible zWaiting t && samplerTurn zWaiting t &&
        !stopping zWaiting t.part && landingFree zWaiting 52 t).isSome = true := by decide +kernel

def zChan : Chan := { prod := 7, out := 0, cons := 8, inp := 0, credits := 4, net := 1, flight := [Flit.mk 0 zTile] }
/-- A producer on station 0 with one tile formed, and its consumer on station 1. -/
def zSeam : State :=
  { zState with tracked := [{ zCmd 0x01 0 0 with outs := [zOut [zTile]] }, { zCmd 0x02 0 1 with slot := 8, ins := [zIn []] }]
                chans := [zChan] }

theorem test_wit_seam :
    (zSeam.cmd? 7).isSome = true ∧ (outChans zSeam 7 0).length = 1 ∧ (∀ k ∈ outChans zSeam 7 0, 0 < k.credits) ∧
      (inChan? zSeam 8 0).isSome = true ∧ stopping zSeam 0 = false ∧ zTile.index = (zIn []).next ∧ zTile.index < 1 ∧
      wholeRow zTile.format (tileRowBytes zTile) = true ∧ stopping zSeam 1 = false ∧ tgetD zSeam.tdFree 1 0 ≤ zSeam.tb.n := by
  decide +kernel

def zStalled : State := { zRun (zCmd 0x10 0 0) with tb := { zState.tb with n := 1000 } }.setReg A.loomStallLimit 10

theorem test_wit_stall :
    zStalled.fget A.loomStallLimit A.loomStallLimit_limitUs = 10 ∧ (zStalled.cmd? 7) = some (zCmd 0x10 0 0) ∧
      zStalled.abort = none ∧ stopping zStalled 0 = false := by decide +kernel

def zEvent (ty : Nat) : Event := Event.mk 67 ty 0 false false 3 5 (some 7)
def zGrant (ty : Nat) : State := { zRun { zCmd 0x10 0 0 with status := some (0, 0), compl := .raised, phase := .ended } with events := [zEvent ty] }

theorem test_wit_grant :
    dieOn (zGrant 3) = true ∧ nextSource (zGrant 3) = some 67 ∧ (zGrant 3).flag A.eaCtl A.eaCtl_logEn = false ∧
      ((zGrant 3).events.find? fun e => e.source == 67) = some (zEvent 3) := by decide +kernel

theorem test_wit_grant_completion :
    nextSource (zGrant 1) = some 67 ∧ ((zGrant 1).events.find? fun e => e.source == 67) = some (zEvent 1) ∧
      (zGrant 1).cmd? 7 = some { zCmd 0x10 0 0 with status := some (0, 0), compl := .raised, phase := .ended } ∧
      stopping (zGrant 1) 0 = false ∧ (∀ u ∈ (zGrant 1).tracked, u.phase ≠ .draining) := by decide +kernel

def zHeld : State :=
  { zRun { zCmd 0x10 0 0 with record := some (CplRec.mk 0 0 4 9 0), compl := .granted, phase := .ended } with recQ := [7] }.setReg
    (A.loomCqCtl 0) 0x41

theorem test_wit_record :
    (heldRecord zHeld 0).isSome = true ∧ cqRoom zHeld 0 = true ∧ dieOn zHeld = true ∧
      Writable zHeld (zHeld.reg (A.loomCqBase 0) + 32 * zHeld.reg (A.loomCqTail 0)) 32 := by decide +kernel

theorem test_wit_nop : runningCmd (zRun (zCmd 0 3 52)) 7 0 = some (zCmd 0 3 52) := by decide +kernel

/-- The operand block of a TLOAD of three tiles of one 64-byte row, or of a TSTORE, at address 0x1000. -/
def zOpbLd : List Byte := leBytes 8 (0x1000 + 63 * 2 ^ 55) ++ leBytes 8 64 ++ leBytes 8 (3 + 64 * 2 ^ 32) ++ leBytes 8 0
def zLoad : Tracked := { zCmd 0x01 0 0 with opb := zOpbLd, outs := [zOut []] }

theorem test_wit_tload :
    runningCmd (zPart (zRun zLoad)) 7 0x01 = some zLoad ∧ tloadOwned (zPart (zRun zLoad)) zLoad = true ∧ roomFor (zPart (zRun zLoad)) zLoad = true ∧
      (∀ a ∈ (tloadRows zLoad 0).1, badRange (zPart (zRun zLoad)) a (tloadRows zLoad 0).2 = false ∧
        ownsRange (zPart (zRun zLoad)) 0 a (tloadRows zLoad 0).2 = true ∧ clearingAt (zPart (zRun zLoad)) a (tloadRows zLoad 0).2 = false) ∧ 1 < opw zLoad.opb 6 31 0 ∧
      tloadOwned (zRun zLoad) zLoad = false := by decide +kernel

def zStore : Tracked := { zCmd 0x02 0 0 with opb := zOpbLd, ins := [zIn [zTile]] }

def zHtask (w : Work) (l : List Tile) : Tracked :=
  { zCmd 0x70 3 52 with opb := leBytes 8 0 ++ leBytes 8 (0x1000 + 2 ^ 48) ++ leBytes 8 (0x2000 + 2 ^ 48) ++ leBytes 8 0, work := w
                        ins := [{ zIn l with lastIn := l.isEmpty }], arrivals := if l.isEmpty then [] else [0], outs := [zOut []] }
def zHin : Tracked := zHtask { zWork with opened := true } [zTile]
def zHgive : Tracked := zHtask { zWork with opened := true } []
def zHdone : State := { zRun (zHtask { zWork with opened := true, aux2 := 1 } []) with tasks := [HTask.mk 0 5 0 7] }

theorem test_wit_tstore :
    runningCmd (zPart (zRun zStore)) 7 0x02 = some zStore ∧
      ownsRange (zPart (zRun zStore)) 0 (opw zStore.opb 4 47 0) (tileRowBytes zTile) = true ∧
      inVerdicts (opw zStore.opb 4 47 0) = false ∧ tileRows zTile = 1 ∧ MemInv (zPart (zRun zStore)) ∧
      MemInv (zRun zHgive) := by decide +kernel

theorem test_wit_htask :
    runningCmd (zPart (zRun zHin)) 7 0x70 = some zHin ∧ (tileRecord zTile).length ≤ opw zHin.opb 5 63 48 * 1024 ∧
      Writable (zPart (zRun zHin)) (opw zHin.opb 5 47 0) (tileRecord zTile).length ∧
      ownsRange (zPart (zRun zHin)) 0 (opw zHin.opb 5 47 0) (tileRecord zTile).length = true ∧
      clearingAt (zPart (zRun zHin)) (opw zHin.opb 5 47 0) (tileRecord zTile).length = false ∧
      runningCmd (zRun zHgive) 7 0x70 = some zHgive ∧ zHgive.inputsDone = true ∧
      ((zRun zHgive).fget (A.hcTaskTail 0 0) A.hcTaskTail_tail + 1) % 2 ^ (taskRing (zRun zHgive) 0 0).2 ≠
        (zRun zHgive).fget (A.hcTaskHead 0 0) A.hcTaskHead_head ∧
      (zHdone.tasks.find? fun j => j.slot == 7) = some (HTask.mk 0 5 0 7) ∧ (zHdone.cmd? 7).isSome = true := by decide +kernel

/-- A tile of a higher index than the input expects, of a lower one, and one of another partition. -/
theorem test_wit_arrive :
    let s (f : Flit) : State := { zSeam with chans := [{ zChan with flight := [f] }] }
    ((s (Flit.mk 0 { zTile with index := 2 })).cmd? 8).isSome = true ∧ (zIn []).next < 2 ∧
      post (exec (.tileArrive 8 0) (s (Flit.mk 0 { zTile with index := 2 }))) (fun t => (t.reg (A.ceErrStatus 1)).testBit 4) = true ∧
      post (exec (.tileArrive 8 0) (s (Flit.mk 1 zTile))) (fun t => t.fget A.loomTagDrop A.loomTagDrop_count == tileFlits zTile) = true ∧
      tileFlits zTile = 2 := by decide +kernel

/-- An entry whose read data never comes, and one in error, set FETCH_ERR; a persistent parity error is fatal (R936, R946). -/
theorem test_fetch_errors :
    let s := zQueue (zDesc 0 3 0)
    (canon (headAddr s 3)).isSome = true ∧ clearingAt s (headAddr s 3) 64 = false ∧
      post (exec (.descriptorAccept (.symbols 2)) s) (fun t => t.fget (A.loomSqHead 3) A.loomSqHead_fetchErr == 1 && t.tracked == []) = true ∧
      post (exec (.descriptorAccept .ctlParity) s) (fun t => t.fget (A.loomSqHead 3) A.loomSqHead_fetchErr == 1) = true ∧
      post (exec (.descriptorAccept .clean) { s with badLines := [0] }) (fun t => t.fget (A.loomSqHead 3) A.loomSqHead_fetchErr == 1) =
        true := by decide +kernel

/-! ### Matrix -/

/-- A 1 × 1 × 2 product of INT8 with binary32 output, open, its operand tiles taken: A is [3, 5], B is [7, 2]. -/
def zGopb : List Byte := leBytes 8 (2 ^ 24) ++ leBytes 8 (0x0D * 2 ^ 10) ++ List.replicate 112 0
def zRow (l : List Byte) : Tile := { zTile with rowBytesM1 := l.length - 1, payload := l, last := true }
def zGemm : Tracked :=
  { zCmd 0x10 0 0 with opb := zGopb, work := { zWork with opened := true }, outs := [zOut []]
                       ins := [{ zIn [] with taken := [zRow [3, 5]] }, { zIn [] with taken := [zRow [7, 2]] }] }

theorem test_gemm :
    runningCmd (zRun zGemm) 7 0x10 = some zGemm ∧
      post (exec (.gemm 7) (zRun zGemm)) (fun t => (t.cmd? 7).any fun u => u.status == some (0, 0)) = true := by decide +kernel

/-- The same with two rows of output blocks to come (N of 65 columns of binary32). -/
def zGopb2 : List Byte := leBytes 8 (2 ^ 24 + 64 * 2 ^ 48) ++ leBytes 8 (0x0D * 2 ^ 10) ++ List.replicate 112 0
def zGemm2 : Tracked :=
  { zGemm with opb := zGopb2
               ins := [{ zIn [] with taken := [zRow [3, 5]] },
                 { zIn [] with taken := [{ zRow [7, 2] with rowsM1 := 64, payload := List.replicate 130 1 }] }] }

theorem test_wit_gemm :
    runningCmd (zRun zGemm2) 7 0x10 = some zGemm2 ∧ roomFor (zRun zGemm2) zGemm2 = true ∧
      (gemmCfg zGemm2.opb).any (fun c => c.lora == 0 && !c.stat && !c.acc &&
        slicesOf c.k (sliceSizes c.k [{ zRow [7, 2] with rowsM1 := 64 }]) == some 1 && gemmBadTile zGemm2 c == none && ceilDiv c.n 128 == 1 &&
        ceilDiv c.n (outWidth c.e.out) * ceilDiv c.m 128 == 2) = true ∧
      post (exec (.gemm 7) (zRun zGemm2)) (fun t => (t.cmd? 7).any fun u => (u.outs[0]?).any fun p =>
        p.queue.map (fun x => (x.index, x.last, x.payload.take 4)) == [(0, false, [0, 0, 0, 0x41])]) = true := by decide +kernel

def zOpen (op : Nat) (opb : List Byte) : Tracked := { zCmd op 0 0 with opb := opb, ins := [zIn [], zIn []], outs := [zOut []] }

theorem test_wit_matrix_open :
    runningCmd (zRun (zOpen 0x10 zGopb)) 7 0x10 = some (zOpen 0x10 zGopb) ∧ gemmCheck (zOpen 0x10 zGopb) = none ∧
      ((gemmCfg zGopb).any fun c => c.lora == 0 && c.e.biasBytes c.n == 0 && c.e.scaleBytes c.n == 0) = true ∧
      gemmCheck (zOpen 0x10 (leBytes 8 0 ++ leBytes 8 (3 * 2 ^ 15) ++ List.replicate 112 0)) = some 0x104 ∧
      (reduceCheck (zRun (zOpen 0x11 zGopb)) 7 (zOpen 0x11 zGopb)).isSome = true ∧
      runningCmd (zRun (zOpen 0x12 zGopb)) 7 0x12 = some (zOpen 0x12 zGopb) ∧
      convertFields (List.replicate 128 0) true = true ∧ (Epi.of (List.replicate 128 0) 5).scMode < 2 ∧
      (Epi.of (List.replicate 128 0) 5).out < 0x0F ∧ 2 ≤ (Epi.of (leBytes 8 0 ++ leBytes 8 (3 * 2 ^ 20) ++ leBytes 112 0) 5).scMode ∧
      convertFields (leBytes 8 0 ++ leBytes 8 (3 * 2 ^ 20) ++ leBytes 112 0) true = true := by decide +kernel

/-- A partial tile of one column: of 1 row where it is the last, of a whole M-block of 128 where another follows. -/
def zPartial (l : Bool) : Tile :=
  { zTile with format := 0x0F, rowBytesM1 := 15, rowsM1 := if l then 0 else 127,
               payload := List.replicate (if l then 16 else 2048) 1, last := l }
def zRopb : List Byte := leBytes 8 0 ++ leBytes 8 (0x0D * 2 ^ 10) ++ List.replicate 112 0
def zReduce (w t : List Tile) : Tracked :=
  { zCmd 0x11 0 0 with opb := zRopb, work := { zWork with opened := true }, outs := [zOut []]
                       ins := [{ zIn w with taken := t }, { zIn [] with taken := t }] }

theorem test_wit_accreduce :
    runningCmd (zRun (zReduce [zPartial true] [])) 7 0x11 = some (zReduce [zPartial true] []) ∧
      ((gemmCfg zRopb).any fun c => partialOk c 0 none (zPartial true) && ceilDiv c.n c.pr.laneWidth == 1 &&
        ceilDiv c.n (outWidth c.e.out) == 1) = true ∧
      runningCmd (zRun (zReduce [] [zPartial false])) 7 0x11 = some (zReduce [] [zPartial false]) ∧
      roomFor (zRun (zReduce [] [zPartial false])) (zReduce [] [zPartial false]) = true ∧
      ((gemmCfg zRopb).any fun c => !reduceBadTile (zReduce [] [zPartial true]) c && !reduceBadTile (zReduce [zPartial true] []) c) = true ∧
      post (exec (.accreduce 7) (zRun (zReduce [] [zPartial false]))) (fun t => (t.cmd? 7).any fun u => u.work.pos == 1 && u.status.isNone) = true ∧
      post (exec (.accreduce 7) (zRun (zReduce [] [zPartial true]))) (fun t => (t.cmd? 7).any fun u => u.status == some (0, 0) &&
        (u.outs[0]?).any fun p => p.queue.map Tile.last == [true]) = true := by decide +kernel

def zConv : Tracked :=
  { zCmd 0x12 0 0 with opb := zRopb, work := { zWork with opened := true }, outs := [zOut []], ins := [zIn [{ zRow [3, 5] with last := false }]] }

theorem test_wit_convert :
    runningCmd (zRun zConv) 7 0x12 = some zConv ∧ roomFor (zRun zConv) zConv = true ∧ convertTileBad zConv.opb (zRow [3, 5]) = none ∧
      post (exec (.convert 7) (zRun zConv)) (fun t => (t.cmd? 7).any fun u => (u.outs[0]?).any fun p =>
        p.queue.map Tile.payload == [[0, 0, 0x40, 0x40, 0, 0, 0xA0, 0x40]]) = true := by decide +kernel

/-! ### Facet -/

def zFins (i : Bool) (lo : Nat) : FIns := { d := 0, a := 0, b := 0, p := 0, pn := false, i := i, lo := BitVec.ofNat 32 lo }
def zUnit : FacetUnit := FacetUnit.fresh 7 (List.replicate 128 0) [] [] 0
def zKern (u : FacetUnit) : State := { zRun { zCmd 0x30 0 2 with ins := [zIn [zTile]], outs := [zOut []] } with facets := [(2, u)] }

theorem test_wit_facet :
    (facetOn (zKern zUnit) 2).any (fun x => x.2 == zUnit && !x.1.abortReq) = true ∧ zUnit.limit = 0 ∧
      useNone.illegal (zFins false 0) = false ∧ useBr.illegal (zFins true 5) = false ∧ useBz.illegal (zFins true 5) = false ∧
      useLoop.illegal (zFins true (5 + 2 ^ 12)) = false ∧ useSab.illegal (zFins false 0) = false ∧
      useMovi.illegal (zFins true 0) = false ∧ useV1.illegal (zFins false 0) = false ∧ useV2.illegal (zFins false 0) = false ∧
      useV3.illegal (zFins false 0) = false ∧ useVmov.illegal (zFins false 0) = false ∧ useVext.illegal (zFins false 0) = false ∧
      useVidx.illegal (zFins false 0) = false ∧ useMem.illegal (zFins false 0) = false ∧ useVt.illegal (zFins false 0) = false ∧
      useTwait.illegal (zFins false 0) = false ∧ useTsrc.illegal (zFins false 0) = false ∧ useNone.illegal (zFins true 0) = false ∧
      useNone.illegal { zFins false 0 with a := 1 } = true := by decide +kernel

theorem test_wit_lanes : LanesOk zUnit := by
  unfold LanesOk
  decide +kernel

/-- The unit with s1 = 5, s2 = 7 runs SSUB s3, s1, s2; SADD of an immediate wraps; s0 stays zero. -/
def zScal : State := zKern { zUnit with s := [(1, 5), (2, 7)] }
theorem test_ssub :
    post (exec (.ssub 2 { zFins false 0 with d := 3, a := 1, b := 2 }) zScal) (fun t => (tget t.facets 2).any fun u =>
      u.sget 3 == 0xFFFFFFFE && u.pc == 1 && u.retired == 1) = true ∧
    post (exec (.sadd 2 { zFins true 0xFFFFFFFF with d := 0, a := 1 }) zScal) (fun t => (tget t.facets 2).any fun u =>
      u.sget 0 == 0) = true := by decide +kernel

/-- 1.0 + 2.0 in every lane of the immediate's vector, only where p1 holds. -/
theorem test_vadd :
    post (exec (.vadd 2 { zFins true 0x40000000 with d := 3, a := 1, p := 1 })
      (zKern { zUnit with v := [(1, List.replicate 256 0x3F800000)], p := [(1, true :: List.replicate 255 false)] }))
      (fun t => (tget t.facets 2).any fun u => (u.vget 3).take 2 == [0x40400000, 0]) = true := by decide +kernel

theorem test_transcendentals :
    f32Exp 0 = (0x3F800000, 0) ∧ f32Exp2 0 = (0x3F800000, 0) ∧ f32LogOp true 0x3F800000 = (0, 0) ∧
      f32Recip 0 = (0x7F800000, 0x80) ∧ f32LogOp false 0x3F800000 = (0, 0) ∧ f32Recip 0x40000000 = (0x3F000000, 0) := by decide +kernel

theorem test_wit_facet_tiles :
    facetAddrOk false 0 = true ∧ facetAddrOk true 0x10000 = true ∧ tget zUnit.handles 0 = none ∧ zUnit.inHandles 0 < 4 ∧
      zUnit.lastBound.contains 0 = false ∧ facetZc (zCmd 0x30 0 2) 0 = false ∧ wholeRow 0 64 = true ∧
      post (exec (.twait 2 { zFins false 0 with d := 4 }) (zKern zUnit)) (fun t => (tget t.facets 2).any fun u =>
        u.sget 4 == 0x3F00 && tget u.handles 0 == some (.inTile 0 zTile)) = true ∧
      post (exec (.topen 2 (zFins true 0x3F00)) (zKern zUnit)) (fun t => (tget t.facets 2).any fun u =>
        (tget u.handles 0).isSome) = true := by decide +kernel

def zBound (h : Handle) : State := { zKern { zUnit with handles := [(0, h)] } with tracked :=
  [{ zCmd 0x30 0 2 with ins := [{ zIn [] with taken := [zTile] }], outs := [zOut []] }] }
theorem test_wit_handles :
    (facetOn (zBound (.inTile 0 zTile)) 2).isSome = true ∧ (facetOn (zBound (.outTile 0 zTile)) 2).isSome = true ∧
      isMx zTile.format = false ∧ (0 : W32).toNat < tileRows zTile ∧
      post (exec (.trel 2 (zFins false 0)) (zBound (.inTile 0 zTile))) (fun t => (t.cmd? 7).any fun c =>
        (c.ins[0]?).any fun b => b.released == 1) = true ∧
      post (exec (.temit 2 (zFins true 0x200000)) (zBound (.outTile 0 zTile))) (fun t => (t.cmd? 7).any fun c =>
        (c.outs[0]?).any fun b => b.queue.map Tile.last == [true]) = true := by decide +kernel

/-- A kernel of two words at address 0x1000 of partition 0: MOVI s1, 9 and HALT. -/
def zFopb : List Byte := leBytes 8 (0x1000 + 2 ^ 48) ++ List.replicate 120 0
def zKload : State :=
  (zPart (zRun { zCmd 0x30 0 2 with opb := zFopb })).writeBytes 0x1000
    (leBytes 8 (2 ^ 60 + 13 * 2 ^ 54 + 2 ^ 49 + 2 ^ 34 + 9) ++ leBytes 8 (2 ^ 54))
/-- The states after a command, if it runs. -/
def after (c : Instr) (s : State) : State := match exec c s with | .next t => t | _ => s
theorem test_wit_kernel :
    facetCheck zKload { zCmd 0x30 0 2 with opb := zFopb } = none ∧ badRange zKload 0x1000 16 = false ∧
      ((after (.facet 7 0) zKload).cmd? 7).any (fun c => c.work.opened && c.loaded.map List.length == [16, 0]) = true ∧
      post (exec (.facet 7 1) (after (.facet 7 0) (after (.facet 7 0) zKload))) (fun t => (tget t.facets 2).any fun u =>
        u.sget 1 == 9 && u.pc == 1) = true ∧
      post (exec (.facet 7 2) (after (.facet 7 0) (after (.facet 7 0) zKload))) (fun t => (t.cmd? 7).any fun c =>
        c.status == some (0, 0)) = true := by decide +kernel

/-- A kernel of a staged command loads while another runs on the unit (R196). -/
theorem test_wit_staged_kernel :
    let c : Tracked := { zCmd 0x30 0 2 with opb := zFopb, slot := 8, phase := .staged }
    let s : State := { zKload with tracked := [zCmd 0x10 0 2, c] }
    runningCmd s 8 0x30 = none ∧ stagedFacet s 8 = some c ∧ facetCheck s c = none ∧ badRange s 0x1000 16 = false := by decide +kernel

/-! ### Image -/

/-- A 2 × 1 × 1 INT8 map of two rows for an ARGMAX over 2 channels: tiles of one pixel of two channels. -/
def zAopb : List Byte := leBytes 8 (2 ^ 16 + 2 ^ 32) ++ List.replicate 120 0
def zPix (l : List Byte) (last : Bool) : Tile := { zTile with rowBytesM1 := l.length - 1, payload := l, last := last }
def zArg : Tracked :=
  { zCmd 0x42 0 0 with opb := zAopb, work := { zWork with opened := true }, outs := [zOut []]
                       ins := [{ zIn [] with taken := [zPix [3, 9] false] }] }
theorem test_argmax :
    runningCmd (zRun zArg) 7 0x42 = some zArg ∧ 1 < (argmaxDim zArg.opb).h * (argmaxDim zArg.opb).segs ∧
      (argmaxDim zArg.opb).slices ≤ 1 ∧ roomFor (zRun zArg) zArg = true ∧
      post (exec (.argmax 7) (zRun zArg)) (fun t => (t.cmd? 7).any fun u => (u.outs[0]?).any fun p =>
        p.queue.map Tile.payload == [[1, 0]]) = true := by decide +kernel

/-- A 1 × 1 maximum POOL and a 1 × 1 CONV with weight 3 over an INT8 map of 2 rows of one pixel of one channel. -/
def zPopb : List Byte := leBytes 8 (2 ^ 16) ++ List.replicate 120 0
def zPool : Tracked :=
  { zCmd 0x41 0 0 with opb := zPopb, work := { zWork with opened := true }, outs := [zOut []]
                       ins := [{ zIn [] with taken := [zPix [5] false] }] }
theorem test_pool :
    runningCmd (zRun zPool) 7 0x41 = some zPool ∧ 1 < (PoolCfg.of zPopb).out.tiles ∧ (PoolCfg.of zPopb).geo.needTiles 0 ≤ 1 ∧
      post (exec (.pool 7) (zRun zPool)) (fun t => (t.cmd? 7).any fun u => (u.outs[0]?).any fun p =>
        p.queue.map Tile.payload == [[5]]) = true := by decide +kernel

def zCopb : List Byte := leBytes 8 (2 ^ 16) ++ leBytes 8 0 ++ leBytes 8 (2 ^ 15) ++ List.replicate 104 0
def zConvl : Tracked :=
  { zCmd 0x40 0 0 with opb := zCopb, work := { zWork with opened := true }, outs := [zOut []]
                       ins := [{ zIn [] with taken := [zPix [5] false] }, { zIn [] with taken := [zPix [3] true] }] }
theorem test_conv :
    runningCmd (zRun zConvl) 7 0x40 = some zConvl ∧
      ((ConvCfg.of zCopb).any fun c => slicesOf c.kg (sliceSizes c.kg [zPix [3] true]) == some 1 && ceilDiv c.geo.cout 128 == 1 &&
        c.out.tiles == 2 && c.geo.needTiles 0 == 1) = true ∧
      post (exec (.conv 7) (zRun zConvl)) (fun t => (t.cmd? 7).any fun u => (u.outs[0]?).any fun p =>
        p.queue.map Tile.payload == [[15]]) = true := by decide +kernel

def zFuopb : List Byte := leBytes 8 1 ++ List.replicate 24 0 ++ leBytes 8 0x41 ++ leBytes 8 (2 ^ 16) ++ List.replicate 64 0
def zFused : Tracked :=
  { zCmd 0x43 0 0 with opb := zFuopb, work := { zWork with opened := true }, outs := [zOut []]
                       ins := [{ zIn [] with taken := [zPix [5] false] }] }
theorem test_fused :
    let ls := fusedLayers zFuopb
    runningCmd (zRun zFused) 7 0x43 = some zFused ∧
      findBlock (blockTilesOut zFuopb ls) (blockCount zFuopb (fusedOut ls)) 0 0 = (0, 0) ∧
      tilesBefore (blockTilesOut zFuopb ls) (blockCount zFuopb (fusedOut ls)) = 2 ∧ tilesBefore (blockTilesIn zFuopb ls) 1 = 1 ∧
      post (exec (.fused 7) (zRun zFused)) (fun t => (t.cmd? 7).any fun u => (u.outs[0]?).any fun p =>
        p.queue.map Tile.payload == [[5]]) = true := by decide +kernel

/-! ### Attention and the ledger -/

def zCls : Nat := 1 + 12 * 2 + 3 * 2 ^ 17
/-- The ledger with class 0 valid (one position of 128 bytes per page, two frames per lode), frame 0 LIVE with two references, and
sequence 5 of length 1 whose slot 0 holds it. -/
def zLed (len : Nat) : State :=
  let s := ((((((((zPart zState).setReg (A.memRegionBase 1) (0x020000000000 + 1)).setReg (A.memRegionLimit 1) 0x020002000000).setReg A.ledgerCtl 1).setReg (A.ledgerClass 0) zCls).setReg (A.ledgerPool 0) (2 * 2 ^ 36 + 0x400000)).setReg
    (A.ledgerEntryBase 0) 0x020000020000).setReg A.ledgerSeqBase 0x020000010000).setReg A.ledgerBobbinCfg (8 * 2 ^ 20)
  let s := s.writeBytes 0x020000020000 (leBytes 8 (2 + 2 ^ 35 + 2 ^ 38))
  let s := s.writeBytes (0x020000010000 + 32 * 5) (leBytes 8 1 ++ leBytes 8 (len + 4 * 2 ^ 32) ++ leBytes 8 0x020000030000)
  if len = 0 then s else s.writeBytes 0x020000030000 (leBytes 8 (2 ^ 32))
def zRec (op seq arg w1 : Nat) : OpRec := { op := op, cls := 0, lode := 0, seq := seq, arg := arg, word1 := w1 }
def zH : Nat := 2 ^ 32

theorem test_wit_ledger_page :
    ledgerOn (zLed 1) = true ∧ pageRefused (zLed 1) 0 zH = none ∧
      (pageEntry (zLed 1) 0 0).pins < 4095 ∧ (pageEntry (zLed 1) 0 0).ref = 2 ∧ pageRefused (zLed 1) 1 zH = some 2 ∧
      (∀ op ∈ [6, 7, 10, 11, 13], SoundReads (zLed 1) op (zRec op 0 0 zH)) ∧
      ¬ SoundReads { zLed 1 with badLines := [0x020000020000] } 6 (zRec 6 0 0 zH) ∧ Writable (zLed 1) (entryAddr (zLed 1) 0 0) 8 ∧ Writable (zLed 1) 0x020000041000 8 ∧
      post (exec (.pin 0 (zRec 6 0 0 zH) 0x020000041000) (zLed 1)) (fun t => post (exec (.unpin 0 (zRec 7 0 0 zH) 0x020000041000) t) fun u =>
        (pageEntry t 0 0).pins == 1 && (pageEntry u 0 0).pins == 0) = true := by decide +kernel

theorem test_wit_apart : Apart (zLed 1) [(entryAddr (zLed 1) 0 0, 8), (0x020000041000, 8)] := by
  unfold Apart
  decide +kernel

theorem test_wit_ledger_seq :
    seqRec (zLed 1) 6 = none ∧ clsValid (zLed 1) 0 = true ∧ ownsRange (zLed 1) 0 0x020000040000 32 = true ∧
      ((seqRec (zLed 1) 5).any fun q => q.owner == 0 && q.length == 1 && pgPos (zLed 1) q.cls == 1 && q.layers == 1) = true ∧
      slotHandle (zLed 1) ((seqRec (zLed 1) 5).getD (SeqRec.ofWords 0 0 0)) 0 = zH ∧ handleMatches (zLed 1) zH = true ∧
      (pageEntry (zLed 1) 0 0).live = 1 ∧
      ((seqRec (zLed 0) 5).any fun q => (List.range 4).all fun i => slotHandle (zLed 0) q i == 0) = true ∧
      (∀ op ∈ [1, 2, 3, 4, 5, 8], SoundReads (zLed 1) op (zRec op 5 0 0x020000040000)) ∧
      post (exec (.seqOpen 1 (zRec 1 5 0 0x020000040000) 0x020000041000) (zPart (zLed 1))) (fun t => t.tracked == []) = true ∧
      post (exec (.drop 0 (zRec 4 5 1 0) 0x020000041000) (zLed 1)) (fun t => readBytes t 0x020000041000 8 == leBytes 8 7) = true := by
  decide +kernel

theorem test_seq_open :
    let s := (zLed 1).writeBytes 0x020000040000 (leBytes 8 0 ++ leBytes 8 (2 * 2 ^ 32) ++ leBytes 8 0x020000032000)
    post (exec (.seqOpen 0 (zRec 1 6 0 0x020000040000) 0x020000041000) s) (fun t => (seqRec t 6).any fun q =>
      q.cap == 2 && q.length == 0 && q.list == 0x020000032000) = true := by decide +kernel

/-- A second sequence, empty, that shares the first page; and the first with its one slot dropped, and copied on write. -/
theorem test_share_drop_cow :
    let s := (zLed 1).writeBytes (0x020000010000 + 32 * 6) (leBytes 8 1 ++ leBytes 8 (4 * 2 ^ 32) ++ leBytes 8 0x020000031000)
    post (exec (.share 0 (zRec 3 6 (5 + 2 ^ 14) 0) 0x020000041000) s) (fun t => (pageEntry t 0 0).ref == 3 &&
      (seqRec t 6).any fun q => q.length == 1 && slotHandle t q 0 == zH) = true ∧
    post (exec (.drop 0 (zRec 4 5 0 0) 0x020000041000) (zLed 1)) (fun t => (pageEntry t 0 0).ref == 1 &&
      (seqRec t 5).any fun q => slotHandle t q 0 == 0) = true ∧
    post (exec (.cow 0 (zRec 5 5 0 0) 0x020000041000) ((zLed 1).writeBytes 0x020000020000 (leBytes 8 (1 + 2 ^ 35 + 2 ^ 38)))) (fun t =>
      readBytes t 0x020000041000 8 == leBytes 8 (zH * 256)) = true := by decide +kernel

theorem test_wit_pools :
    (freeFrames (zLed 1) 0 0 = [] ∨ freeFrames (zLed 1) 0 1 ≠ []) ∧ freeFrames (zLed 1) 0 1 ≠ [] ∧
      (∀ m, m < 16 → m ≠ 0 → clsValid (zLed 1) m = false) ∧ ((zLed 1).setReg A.ledgerScoreCtl 0).fget A.ledgerScoreCtl A.ledgerScoreCtl_decayShift = 0 ∧
      (zLed 1).flag (A.ledgerLoop 0) A.ledgerLoop_evictEn = false ∧ classOk zCls = true ∧ classOk 0 = false ∧
      classBusy zState 3 = false ∧ (zState.reg (A.ledgerClass 3)).testBit 0 = false ∧
      Writable zState (entryAddr zState 3 0) (8 * (16 * perLode zState 3)) := by decide +kernel

theorem test_wit_flush :
    let s := { zLed 1 with flushes := [(5, 0, 1)] }
    s.duePauses = [] ∧ s.coldQ = [] ∧ s.pair.work = [] ∧ s.pair.held = [] ∧ (∀ x ∈ flushReads s 5 0 1, badRange s x.1 x.2 = false) ∧
    (seqRec s 5).any (fun q => freeFrames s q.cls q.home != [] && (s.flushes.find? fun f => f.1 == 5 && f.2.1 == 0) == some (5, 0, 1)) =
      true ∧
    (seqRec ({ zLed 1 with flushes := [(5, 0, 1)] }.setReg (A.ledgerPool 0) 0) 5).any (fun q =>
      freeFrames ({ zLed 1 with flushes := [(5, 0, 1)] }.setReg (A.ledgerPool 0) 0) q.cls q.home == []) = true := by decide +kernel

/-- A KVOP of two records, a QUERY first, at 0x020000040000 with results at 0x020000041000. -/
def zKvop (w : Work) : Tracked :=
  { zCmd 0x52 2 48 with opb := leBytes 8 0x020000040000 ++ leBytes 8 0x020000041000 ++ leBytes 8 1 ++ leBytes 8 0, work := w }
def zKs (t : Tracked) : State := { (zLed 1).writeBytes 0x020000040000 (leBytes 8 0x0B ++ leBytes 8 zH) with tracked := [t] }
def zKv (w : Work) : State := zKs (zKvop w)
theorem test_wit_kvop :
    runningCmd (zKv zWork) 7 0x52 = some (zKvop zWork) ∧ ownsRange (zKv zWork) 0 0x020000040000 32 = true ∧
      ownsRange (zKv zWork) 0 0x020000041000 16 = true ∧ badRange (zKv zWork) 0x020000040000 16 = false ∧
      (opRecOf (readBytes (zKv zWork) 0x020000040000 16)).op = 0x0B ∧
      post (exec (.kvop 7) (zKv { zWork with opened := true })) (fun t => (t.cmd? 7).any fun u => u.work.pos == 1 &&
        readBytes t 0x020000041000 8 == leBytes 8 (2 + 2 ^ 35 + 2 ^ 38)) = true := by decide +kernel

/-- The last of its two records is applied, and a tile of its order stream is taken. -/
theorem test_wit_kvop_ends :
    let s := zKv { zWork with opened := true, pos := 1 }
    let o := { zKvop { zWork with opened := true } with ins := [zIn [zTile]] }
    clearingAt s 0x020000040010 16 = false ∧ clearingAt s 0x020000041008 8 = false ∧ ownsRange s 0 0x020000040010 16 = true ∧
      badRange s 0x020000040010 16 = false ∧ lopReads s (opRecOf (softBytes s 0x020000040010 16)) = [] ∧
      post (exec (.kvop 7) s) (fun t => (t.cmd? 7).any fun u => u.status == some (0, 0)) = true ∧
      post (exec (.kvop 7) (zKs o)) (fun t => (t.cmd? 7).any fun u => u.ins.map InBind.window == [[]] && u.work.pos == 0) = true := by
  decide +kernel

/-- An ATTN of one sequence that appends one row: 64-byte keys and values of FP8. -/
def zAtOpb (app : Nat) : List Byte :=
  leBytes 8 (0x0B * 2 ^ 26 + 0x0B * 2 ^ 31 + 0x0D * 2 ^ 36 + app * 2 ^ 42) ++ leBytes 8 0x700000 ++ leBytes 8 0 ++ leBytes 8 0
def zAttn (app aux : Nat) (q : List Tile) (v : Option SeqView) (rows : List AttnRow) : Tracked :=
  { zCmd 0x50 0 0 with opb := zAtOpb app, outs := [zOut []], loaded := [leBytes 8 (5 + 2 ^ 32) ++ leBytes 8 0]
                       work := { zWork with opened := true, aux := aux, attn := some (AttnRun.mk 0 1 v rows) }
                       ins := [{ zIn [] with taken := q }, { zIn [] with taken := [zTile] }, { zIn [] with taken := [zTile] }] }
def zAt (t : Tracked) : State := { zLed 1 with tracked := [t] }

theorem test_wit_attn_append :
    let c := AttnCfg.of (zAtOpb 1)
    let t := zAttn 1 0 [] none []
    runningCmd (zAt t) 7 0x50 = some t ∧ rowOwner (attnEnts t c) 0 0 = some ({ seq := 5, rows := 1, pos0 := 1, tent := 0 }, 0, 0) ∧
      rowsTaken 64 [zTile] = 1 ∧ clsDim (zAt t) 0 = 64 ∧ c.hq = 1 ∧ (freeLineList ((zAt t).withoutEntry 5 0 1)).length = 8 ∧
      attnNext (attnEnts t c) 0 0 0 = none ∧
      (entryOf (zAt t) 0 (streamRow [zTile] 64 0) (streamRow [zTile] 64 0)).length = 128 := by decide +kernel

def zQ : Tile := { zTile with rowBytesM1 := 127, payload := List.replicate 128 0 }
/-- The ledger of `zAt` with so many pins of its page. -/
def zPins (n : Nat) (t : Tracked) : State :=
  (zAt t).writeBytes (entryAddr (zAt t) 0 0) (leBytes 8 { pageEntry (zAt t) 0 0 with pins := n }.word)
/-- A sequence begins: its one page is pinned as its list is read, or the engine waits for a pin. -/
theorem test_wit_attn_begin :
    let c := AttnCfg.of (zAtOpb 0)
    let t := zAttn 0 0 [zQ] none []
    let e : SeqEnt := { seq := 5, rows := 1, pos0 := 1, tent := 0 }
    attnNext (attnEnts t c) 0 1 1 = some (e, 0) ∧ ledgerOn (zAt t) = true ∧
      ((seqRec (zAt t) 5).any fun r => heldPlaces (zAt t) 5 r 0 (attnLimit c r e) == [(0, zH)]) = true ∧
      (∀ x ∈ attnReads (zAt t) c e, badRange (zAt t) x.1 x.2 = false) ∧ handleMatches (zAt t) zH = true ∧
      (pageEntry (zAt t) 0 0).live = 1 ∧ (pageEntry (zAt t) 0 0).pins < 4095 ∧ Writable (zAt t) (entryAddr (zAt t) 0 0) 8 ∧
      post (exec (.attn 7) (zAt t)) (fun s => (pageEntry s 0 0).pins == 1 && (s.cmd? 7).any fun u =>
        (u.work.attn.bind AttnRun.seq).any fun v => v.todo == [(0, zH)] && v.pinned == [zH]) = true := by
  decide +kernel

theorem test_wit_attn_pin_wait :
    let c := AttnCfg.of (zAtOpb 0)
    let s := zPins 4095 (zAttn 0 0 [zQ] none [])
    (∀ x ∈ attnReads s c { seq := 5, rows := 1, pos0 := 1, tent := 0 }, badRange s x.1 x.2 = false) ∧ handleMatches s zH = true ∧
      badRange s (entryAddr s 0 0) 8 = false ∧ (pageEntry s 0 0).live = 1 ∧ (pageEntry s 0 0).pins = 4095 ∧
      post (exec (.attn 7) s) (fun t => t.fget A.ledgerWaits A.ledgerWaits_pinWait == 1) = true := by decide +kernel

def zView (todo : List (Nat × Nat)) (pinned : List Nat) : SeqView :=
  { fixed := 1, todo := todo, pinned := pinned, bob := [], held := [], seen := [] }
/-- The page's chunk enters; then the row is computed and the page unpinned. -/
theorem test_wit_attn_read :
    let t (v : SeqView) := zAttn 0 0 [zQ] (some v) []
    let c := AttnCfg.of (zAtOpb 0)
    badRange (zLed 1) (pageRange (zLed 1) 0 zH).1 (pageRange (zLed 1) 0 zH).2 = false ∧
      (rowOwner (attnEnts (t (zView [] [])) c) 0 0).isSome = true ∧ c.score = false ∧ AttnDry (t (zView [] [])) c ∧
      handleMatches (zPins 1 (t (zView [] [zH]))) zH = true ∧ (pageEntry (zPins 1 (t (zView [] [zH]))) 0 0).pins = 1 ∧
      ((after (.attn 7) (zAt (t (zView [(0, zH)] [zH])))).cmd? 7).any (fun u => (u.work.attn.bind AttnRun.seq).any fun v =>
        v.todo == [] && v.held.map Prod.fst == [0]) = true ∧
      post (exec (.attn 7) (zPins 1 (t (zView [] [zH])))) (fun s => (pageEntry s 0 0).pins == 0 && (s.cmd? 7).any fun u =>
        (attnRows u).length == 1) = true := by
  decide +kernel

def zAtRow : AttnRow := { m := 0, l := 0, bytes := List.replicate 256 7, flags := 0, sat := 0, tent := false }
theorem test_wit_attn_form :
    let t := zAttn 0 0 [zQ] none [zAtRow]
    let c := AttnCfg.of (zAtOpb 0)
    0 < min (rowsPerTile (clsDim (zAt t) 0 * unitBytes c.out)) (totalRows (attnEnts t c) * c.hq) ∧ roomFor (zAt t) t = true ∧
      post (exec (.attn 7) (zAt t)) (fun s => (s.cmd? 7).any fun u => (u.outs[0]?).any fun o =>
        o.queue.map (fun x => (x.last, x.payload.length)) == [(true, 256)]) = true := by decide +kernel

/-- Every operation of the ledger can meet a read in error. -/
theorem test_wit_error_rows :
    ((List.range 13).all fun i => !decide (SoundReads { zLed 1 with badLines := [0x020000020000, 0x0200000100A0] } (i + 1)
      (zRec (i + 1) 5 0 zH))) = true := by decide +kernel

/-! ### Serving -/

/-- Sequence 5 at the sampler: of partition 0, with one draft of token 3. -/
def zSeq : SampSeq := { SampSeq.empty with owner := some 0, buf := [3], dmax := 4 }
def zSv : State := { zPart zState with samp := [(5, zSeq)], cancels := [(0, 9)] }

theorem test_wit_sampler_ops :
    Writable zSv 0x1000 8 ∧ (sampSeq zSv 5).owner = some 0 ∧ (sampSeq zSv 6).owner = none ∧
      post (exec (.groupCancel 0 (zRec 1 0 7 0) 0x1000) zSv) (fun t => t.cancels == [(0, 9), (0, 7)] && t.events.length == 1) = true ∧
      post (exec (.groupClear 0 (zRec 2 0 9 0) 0x1000) zSv) (fun t => t.cancels == []) = true ∧
      post (exec (.seqReset 0 (zRec 3 6 0 0) 0x1000) zSv) (fun t => (sampSeq t 6).owner == some 0) = true ∧
      post (exec (.seqReset 1 (zRec 3 5 0 0) 0x1000) zSv) (fun t => readBytes t 0x1000 8 == leBytes 8 2) = true ∧
      post (exec (.seqLoop 0 (zRec 4 5 0 (1 + 8 * 2 ^ 8)) 0x1000) zSv) (fun t => (sampSeq t 5).length == 8) = true ∧
      post (exec (.seqQuery 0 (zRec 5 5 0 0) 0x1000) zSv) (fun t => readBytes t 0x1000 8 == leBytes 8 0x10000) = true := by
  decide +kernel

def zSctl (w : Work) : Tracked :=
  { zCmd 0x61 4 60 with opb := leBytes 8 0x2000 ++ leBytes 8 0x3000 ++ leBytes 8 1 ++ leBytes 8 0, work := w }
def zSct (w : Work) : State := { zSv.writeBytes 0x2000 (leBytes 8 5 ++ leBytes 8 0 ++ leBytes 16 0) with tracked := [zSctl w] }
theorem test_wit_sctl :
    runningCmd (zSct zWork) 7 0x61 = some (zSctl zWork) ∧ ownsRange (zSct zWork) 0 0x2000 32 = true ∧
      ownsRange (zSct zWork) 0 0x3000 16 = true ∧ badRange (zSct zWork) 0x2000 16 = false ∧
      (opRecOf (readBytes (zSct zWork) 0x2000 16)).op = 5 ∧
      post (exec (.sctl 7) (zSct { zWork with opened := true })) (fun t => (t.cmd? 7).any fun u => u.work.pos == 1) = true ∧
      ownsRange (zSct zWork) 0 0x2010 16 = true ∧ badRange (zSct zWork) 0x2010 16 = false ∧
      post (exec (.sctl 7) (zSct { zWork with opened := true, pos := 1 })) (fun t => (t.cmd? 7).any fun u =>
        u.status == some (0, 0)) = true := by
  decide +kernel

/-- A greedy MAIN entry of sequence 5 with one draft, and logits of BF16 with the largest at 3 in both rows. -/
def zSmOpb : List Byte := leBytes 8 0x2000 ++ leBytes 8 (77 + 0x0B * 2 ^ 48) ++ leBytes 8 127 ++ leBytes 8 0
def zSmEnt : List Byte :=
  leBytes 8 (5 + 2 ^ 16) ++ leBytes 8 0xABC ++ leBytes 8 0 ++ leBytes 8 (0x3F800000 * 2 ^ 32) ++ leBytes 8 0 ++
    leBytes 8 (100 + 101 * 2 ^ 32) ++ leBytes 8 (9 * 2 ^ 32) ++ leBytes 8 0
def zLogit : Tile :=
  { zTile with format := 0x0B, rowsM1 := 1, rowBytesM1 := 255, last := true
               payload := (List.range 2).flatMap fun _ => List.replicate 6 0 ++ [0x80, 0x3F] ++ List.replicate 248 0 }
def zSmp (w : Work) (win tk : List Tile) (ld : List (List Byte)) : Tracked :=
  { zCmd 0x60 4 60 with opb := zSmOpb, work := w, outs := [zOut []], loaded := ld
                        ins := [{ zIn win with taken := tk, lastIn := true }] }
def zSm (w : Work) (win tk : List Tile) (ld : List (List Byte)) : State :=
  { zSv.writeBytes 0x2000 zSmEnt with tracked := [zSmp w win tk ld] }
def zSmO : Work := { zWork with opened := true }

theorem test_wit_sample :
    runningCmd (zSm zWork [] [] []) 7 0x60 = some (zSmp zWork [] [] []) ∧ smEntAddr zSmOpb % 64 = 0 ∧ smCount zSmOpb = 1 ∧
      ownsRange (zSm zWork [] [] []) 0 0x2000 64 = true ∧ badRange (zSm zWork [] [] []) 0x2000 64 = false ∧
      sampCheck (zSm zWork [] [] []) (zSmp zWork [] [] []) (sampEnts 1 zSmEnt) = none ∧
      sampTileOk 0x0B (logitTiles 0x0B 128 * ((sampEnts 1 zSmEnt).map SampEnt.rows).sum) 0 zLogit = true ∧
      post (exec (.sample 7) (zSm zWork [] [] [])) (fun t => (t.cmd? 7).any fun u => u.loaded == [zSmEnt]) = true ∧
      post (exec (.sample 7) (zSm zSmO [zLogit] [] [zSmEnt])) (fun t => (t.cmd? 7).any fun u => u.ins.any fun b =>
        b.taken == [zLogit]) = true ∧
      ceilDiv (leBytes 8 77).length 4096 = 1 ∧
      post (exec (.sample 7) (zSm { zSmO with aux := 1 } [] [zLogit] [zSmEnt, leBytes 8 77, []])) (fun t => (t.cmd? 7).any fun u =>
        u.outs.any fun o => o.queue.length == 1) = true := by decide +kernel

/-- The draft is accepted, and the next row's token follows it: two records, the first with DRAFT. -/
theorem test_sample_accepts :
    post (exec (.sample 7) (zSm zSmO [] [zLogit] [zSmEnt])) (fun t => (t.cmd? 7).any fun u =>
      (u.loaded[2]?.getD []) == leBytes 4 3 && (u.loaded[1]?.getD []).length == 96 && (sampSeq t 5).length == 2) = true := by
  decide +kernel

/-- The loop: all accepted at the ceiling clashes; a pin stands. -/
theorem test_draft_loop :
    (zSeq.loop 4 4).1.length = 4 ∧ (zSeq.loop 4 4).2 = true ∧ (zSeq.loop 4 1).1.length = 2 ∧
      ({ zSeq with pin := true, pinVal := 2 }.loop 4 4).1.length = 2 ∧ ({ zSeq with zero := 63 }.loop 0 0).1.length = 1 := by
  decide +kernel


def zCanc : Request :=
  { session := 4, part := 0, tag := 77, body := ⟨77, 1, 0, 0, 0, 0, 0, 0⟩, degraded := false, state := .decode, highest := none
    endSeq := none, journal := 0, port := 0, seq := 1, cancelled := true, entry := [], tokens := [] }
def zEntG : List Byte := leBytes 8 (5 + 2 ^ 16 + 7 * 2 ^ 36) ++ zSmEnt.drop 8
/-- A sample of a request that was cancelled marks its group. -/
theorem test_wit_sample_cancelled :
    (sampEnts 1 zEntG).map (fun e => (e.group, e.reqSeq, e.draft)) = [(7, 2748, false)] ∧
      post (exec (.sample 7) { zSm zSmO [] [zLogit] [zEntG] with requests := [(2748, zCanc)], cancelDue := [(2748, 3)] }) (fun t =>
        t.cancels.contains (0, 7)) = true := by decide +kernel

/-! ### Memory -/

/-- Lodes 0 and 3 ready, Garnet OPERATIONAL; partition 1 confidential, owning the second 16 MiB. -/
def zMem : State :=
  let s := (((((zPart zState).setReg (A.cmStatus 0) 1).setReg (A.cmStatus 1) 1).setReg (A.lodeStatus 0) 1).setReg (A.lodeStatus 3) 1).setReg A.gnStatus 2
  ((s.setReg (A.memRegionBase 1) (3 + 0x1000000)).setReg (A.memRegionLimit 1) 0x2000000).setReg (A.gnPartCtl 1) 3
def zMreq (who : Who) (a n : Nat) : MemReq := { station := 60, who := who, slot := none, addr := a, len := n }

theorem test_wit_memory :
    memRange 0x2000 64 = true ∧ canon 0x10000 = some 0x10000 ∧ memServes zMem 0x10000 = true ∧ clearingAt zMem 0x10000 64 = false ∧
      reqPart zMem (zMreq (.part 0) 0x10000 64) = some 0 ∧ ownsRange zMem 0 0x10000 64 = true ∧ badRange zMem 0x10000 64 = false ∧
      Writable zMem 0x10000 64 ∧ ownsRange zMem 1 0x10000 64 = false ∧ stopping zMem 1 = false ∧ tgetD zMem.tdFree 1 0 ≤ zMem.tb.n ∧
      reqPart zMem (zMreq .firmware 0x1000000 8) = none ∧ ownerAt zMem 0x1000000 = some 1 ∧ confidential zMem 1 = true ∧
      memServes zMem 0x1000000 = true ∧ clearingAt zMem 0x1000000 8 = false ∧ memRange 0x7000000000 8 = false ∧
      memServes zMem 0x1000 = false := by decide +kernel

theorem test_memory_read_write :
    post (exec (.memoryWrite (zMreq (.part 0) 0x10000 8) (leBytes 8 0x1122334455667788) .clean) zMem) (fun t =>
      post (exec (.memoryRead (zMreq (.part 0) 0x010000001000 4) .clean) t) fun u => u.busData == [0x88, 0x77, 0x66, 0x55]) = true ∧
    post (exec (.memoryRead (zMreq .firmware 0x1000000 4) .clean) zMem) (fun u => u.busData == [0, 0, 0, 0]) = true ∧
    (match exec (.memoryRead (zMreq .firmware 0x7000000000 4) .clean) zMem with
      | .fault (.noSuchAddress a) => a == 0x7000000000
      | _ => false) = true := by decide +kernel

theorem test_wit_scrub :
    (zMem.setReg (A.lodeScrubCtl 3) 1).flag (scrubRegs 3).2.1 A.lodeScrubCtl_en = true ∧ dieOn zMem = true ∧
      memServes zMem (scrubAddr 3 0) = true ∧ badRange zMem (scrubAddr 3 0) 64 = false ∧ scrubDue (zMem.setReg (A.lodeScrubCtl 3) 1) 3 = true ∧
      tgetD zMem.calNext 3 0 / 8 ≤ zMem.tb.n ∧
      post (exec (.lodeScrub 3 (.symbols 1)) (zMem.setReg (A.lodeScrubCtl 3) 1)) (fun t => t.reg (A.lodeScrubPos 3) == 1 &&
        t.fget (A.lodeErrCount 3) A.lodeErrCount_corrected == 1) = true ∧
      post (exec (.lodeScrub 3 (.symbols 2)) (zMem.setReg (A.lodeScrubCtl 3) 1)) (fun t => t.badLines == [scrubAddr 3 0]) = true ∧
      scrubDue { zMem.setReg (A.lodeScrubCtl 3) 1 with scrubAt := [(3, 5)] } 3 = false ∧
      post (exec (.lodeCal 3) zMem) (fun t => tgetD t.calNext 3 0 == 1) = true := by decide +kernel

theorem test_wit_regions :
    regionOk 0 0x100 = true ∧ regionOk 0x200 0x200 = false ∧ (fld 3 3 0).testBit 0 = true ∧ MemInv zMem ∧ hasRegion zMem 0 = true ∧
      hasRegion zMem 5 = false ∧ slotNamed zMem 3 (some 5) = false ∧ slotNamed zMem 3 none = false ∧
      post (exec (.memPartKey .firmware 5 (3 + 16)) zMem) (fun t => slotNamed t 3 none && keySlot t (some 5) == 3) = true ∧
      post (exec (.retire .firmware 3) zMem) (fun t => t.fget (A.memSlot 3) A.memSlot_epoch ==
        (zMem.fget (A.memSlot 3) A.memSlot_epoch + 1) % 2 ^ 32) = true := by
  unfold MemInv
  decide +kernel

/-- A Commons byte reads zero once its owner changes. -/
theorem test_region_clears :
    post (exec (.memRegionWrite .firmware 2 true 0x020000010000) (((zMem.setReg (A.memRegionBase 2) (5 + 0x020000000000)).pokeRaw
      0x020000000000 7))) (fun t => byteAt t 0x020000000000 == 0 && !t.clearing.isEmpty && t.flag A.memStatus A.memStatus_cmClearing) =
      true := by decide +kernel

/-- A partition's access to no memory is dropped; one to bytes being zeroed waits, and is served when they are; a tile-store window
ignores a write and reads zero to a partition that owns no engine there (R123, R426, R437). -/
theorem test_wit_memory_edges :
    let z : State := { (zMem.setReg (A.memRegionBase 2) (1 + 0x020000000000)).setReg (A.memRegionLimit 2) 0x020000010000 with
      clearing := [Clearing.mk 0x020000000000 0x020000010000] }
    let r := zMreq (.part 0) 0x020000000040 8
    memRange 0x7000000000 8 = false ∧ storeWindow 0x7000000000 = none ∧ reqPart zMem (zMreq (.part 0) 0x7000000000 8) = some 0 ∧
      toNowhere zMem (zMreq .firmware 0x7000000000 8) ∧
      post (exec (.memoryRead (zMreq (.part 0) 0x7000000000 8) .clean) zMem) (fun t => t.busErr) = true ∧
      clearingAt z r.addr 8 = true ∧ memServes z 0x020000000040 = true ∧
      (after (.memoryWrite r (leBytes 8 5) .clean) z).memWaits = [(r, some (leBytes 8 5), .clean)] ∧
      post (exec .cmClearDone (after (.memoryWrite r (leBytes 8 5) .clean) z)) (fun t => readBytes t r.addr 8 == leBytes 8 5 &&
        t.memWaits == []) = true ∧
      storeWindow 0x021001000008 = some (1, 8) ∧ storeMapped 1 0x500000 = false ∧ storeMapped 1 8 = true ∧
      reqPart zMem (zMreq (.part 3) 0x021001000008 8) = some 3 ∧ blockPart zMem 1 ≠ some 3 ∧
      post (exec (.memoryRead (zMreq (.part 3) 0x021001000008 4) .clean) zMem) (fun t => t.busData == [0, 0, 0, 0]) = true := by
  decide +kernel

/-! ### Video -/

/-- A channel of 64 x 64 pictures at 30 a second: H.264 decode channel 3, or encode channel 2, of VD 0, of partition 0, with its packet
ring at 0x8000. -/
def zRecW (enc : Bool) : List Nat :=
  [(if enc then 1 else 2) + 63 * 2 ^ 3 + 63 * 2 ^ 15 + 30 * 2 ^ 27, 0x10000, 0x10000, if enc then 0 else 0x8000 + 6 * 2 ^ 48,
   if enc then 96 * 2 ^ 32 + 1000 * 2 ^ 40 else 100 * 2 ^ 40 + 96 * 2 ^ 32, if enc then 2 ^ 48 else 0, if enc then 51 * 2 ^ 8 else 0, 0]
def zVch (enc : Bool) : VChan :=
  { vd := 0, chan := if enc then 2 else 3, encode := enc, recWords := zRecW enc, owner := 0, priv := false, cost := 30,
    waitIrap := false, pics := 0, base := 0, ringPos := 0, ringPut := 0, ssrc := none, highest := none, lastDone := none, doneTs := [],
    foreign := 0, pkts := [], ready := [], history := [], prior := [], metas := [], prevRec := [], longRef := none, qp := 30, sinceIdr := 0,
    idrNext := false, slice := 0, band := [], rtpSeq := 0, bits := 0, sliceAt := 0, missed := false }
def zVd : State := { zPart zState with vchans := [(3, zVch false), (42, zVch true)] }
def zVrec (enc : Bool) : State := zVd.writeBytes 0x4000 ((zRecW enc).flatMap (leBytes 8))

theorem test_wit_vchan_ops :
    opChan (zRec 1 0 5 0x4000) = some (5, false) ∧ vchan? zVd 0 5 false = none ∧ ownsRange (zVrec false) 0 0x4000 64 = true ∧
      (List.range 8).map (fun i => word64 (zVrec false) (0x4000 + 8 * i)) = zRecW false ∧
      recordOk (zVrec false) 0 false (zRecW false) = true ∧ recordOk (zVrec true) 0 true (zRecW true) = true ∧
      Writable (zVrec false) 0x1000 8 ∧ chanBusy zVd (zVch false) = false ∧ opChan (zRec 1 0 40 0) = none ∧
      ctuCost (fld ((zRecW false).getD 0 0) 14 3 + 1) 64 30 = 30 ∧ ctuCost 4096 2176 120 = 261120 ∧
      post (exec (.vchanOpen 0 0 (zRec 1 0 5 0x4000) 0x1000) (zVrec false)) (fun t => (vchan? t 0 5 false).any fun c =>
        c.width == 64 && c.cost == 30 && c.waitIrap) = true ∧
      post (exec (.vchanClose 0 0 (zRec 2 0 3 0) 0x1000) zVd) (fun t => (vchan? t 0 3 false).isNone) = true ∧
      post (exec (.keypic 0 0 (zRec 3 0 66 0) 0x1000) zVd) (fun t => t.events.map Event.type == [0x20]) = true ∧
      post (exec (.vchanQuery 0 0 (zRec 4 0 66 0) 0x1000) zVd) (fun t => word64 t 0x1000 == 0x1E00010000) = true ∧
      post (exec (.vchanClose 0 1 (zRec 2 0 3 0) 0x1000) zVd) (fun t => word64 t 0x1000 == 2) = true := by decide +kernel

def zVchan (w : Work) : Tracked :=
  { zCmd 0x68 6 54 with opb := leBytes 8 0x2000 ++ leBytes 8 0x3000 ++ leBytes 8 1 ++ leBytes 8 0, work := w }
def zVc (w : Work) : State := { zVd.writeBytes 0x2000 (leBytes 8 (4 + 66 * 2 ^ 32) ++ leBytes 24 0) with tracked := [zVchan w] }
theorem test_wit_vchan :
    runningCmd (zVc zWork) 7 0x68 = some (zVchan zWork) ∧ ownsRange (zVc zWork) 0 0x2000 32 = true ∧
      ownsRange (zVc zWork) 0 0x3000 16 = true ∧ (opRecOf (readBytes (zVc zWork) 0x2000 16)).op = 4 ∧
      post (exec (.vchan 7) (zVc { zWork with opened := true })) (fun t => word64 t 0x3000 == 0x1E00010000 &&
        (t.cmd? 7).any fun u => u.work.pos == 1) = true ∧
      ownsRange (zVc zWork) 0 0x2010 16 = true ∧ badRange (zVc zWork) 0x2010 16 = false ∧
      vopReads (zVc zWork) (opRecOf (softBytes (zVc zWork) 0x2010 16)) = [] ∧
      post (exec (.vchan 7) (zVc { zWork with opened := true, pos := 1 })) (fun t => (t.cmd? 7).any fun u =>
        u.status == some (0, 0)) = true := by decide +kernel

/-- A list whose next record is being zeroed, and one whose next record is in error (R437, R446). -/
theorem test_wit_list_edges :
    let s (z : List Clearing) (b : List Nat) : State := { zVc { zWork with opened := true } with clearing := z, badLines := b }
    clearingAt (s [Clearing.mk 0x2000 0x3000] []) 0x2000 16 = true ∧ badRange (s [] [0x2000]) 0x2000 16 = true ∧
      post (exec (.vchan 7) (s [Clearing.mk 0x2000 0x3000] [])) (fun t => (t.cmd? 7).any fun u => u.work.pos == 0 && u.status == none) = true ∧
      post (exec (.vchan 7) (s [] [0x2000])) (fun t => (t.cmd? 7).any fun u => u.status == some (St.aborted, Det.faultContained)) =
        true := by decide +kernel

/-- An RTP packet with its marker, of payload type 96, in the channel's first ring slot. -/
def zRtp : List Byte := [0x80, 0xE0, 0, 1, 0, 0, 0, 9, 0, 0, 0, 7, 0x65, 1, 2, 3]
def zRing : State := zVd.writeBytes 0x8000 (leBytes 8 (16 + 2 ^ 63) ++ leBytes 8 77 ++ zRtp)
def zPkt : Pkt := { ext := 65537, ts := 9, arrival := 77, marker := true, bytes := [0x65, 1, 2, 3] }
def zPic : Pic := { ts := 9, arrival := 77, pkts := [zPkt], lost := 0, first := 65537, byJitter := false, at_ := 0, late := [] }
def zVpk (pk : List Pkt) (rd : List Pic) : State := { zVd with vchans := [(3, { zVch false with pkts := pk, ready := rd })] }
theorem test_wit_packets :
    ringAddr (zVch false) = 0x8000 ∧ ringSlots (zVch false) = 64 ∧ (word64 zRing 0x8000).testBit 63 = true ∧
      pictureEnd (zVpk [zPkt] []) { zVch false with pkts := [zPkt] } = some (65537, false) ∧
      post (exec (.packetTake 0 3) zRing) (fun t => (vchan? t 0 3 false).any (fun c => c.pkts == [zPkt]) &&
        word64 t 0x8000 == 16) = true ∧
      post (exec (.pictureComplete 0 3) (zVpk [zPkt] [])) (fun t => (vchan? t 0 3 false).any fun c => c.ready == [zPic]) = true ∧
      (sliceNals (zVch false).codec (picBits (codecH264 (zVch false).codec) zPic)).length = 1 := by decide +kernel

/-- 2 ms after a picture is complete, and after a slice of an encoder began, the firmware may be late. -/
def zFwLate : State :=
  { zVpk [] [zPic] with
    vchans := [(3, { zVch false with ready := [zPic] }), (42, { zVch true with slice := 2, band := [1] })]
    tb := { zState.tb with n := 200000 } }
theorem test_wit_fw_timeout :
    post (exec (.fwTimeout 0 3) zFwLate) (fun t => t.reports == [(120, 2, 8)]) = true ∧
      post (exec (.fwTimeout 0 42) zFwLate) (fun t => t.reports == [(120, 2, 8)] && (vchan? t 0 2 true).any VChan.missed) = true := by
  decide +kernel

theorem test_wit_ring_slot : Writable zRing 0x8000 2048 := by
  refine ⟨by decide +kernel, fun i hi => ?_, by decide +kernel⟩
  have h : 0x8000 + i < lpddrTop := by simp only [lpddrTop]; omega
  simp [canon, h]

def zVdec : Tracked := { zCmd 0x69 6 54 with opb := leBytes 8 3 ++ List.replicate 24 0, outs := [zOut []] }
def zVdc (n : Nat) : State := { zVd with tracked := [zVdec], vchans := [(3, { zVch false with ready := [zPic], pics := n })] }
theorem test_wit_vdec :
    runningCmd (zVdc 5) 7 0x69 = some zVdec ∧ opw zVdec.opb 4 5 0 = 3 ∧ opw zVdec.opb 4 34 32 = 0 ∧ roomFor (zVdc 5) zVdec = true ∧
      vchan? (zVdc 5) 0 3 false = some { zVch false with ready := [zPic], pics := 5 } ∧
      vchan? { zState with tracked := [zVdec] } 0 3 false = none := by decide +kernel
/-- With as many pictures emitted as released, the next picture is decoded. -/
theorem test_wit_vdec_decodes :
    let n := Config.released (plainCodec (zVch false).codec) []
    vchan? (zVdc n) 0 3 false = some { zVch false with ready := [zPic], pics := n } ∧ n ≤ n - (zVch false).base :=
  ⟨rfl, Nat.le_refl _⟩

def zPlane : Tile := { zTile with format := 1, rowsM1 := 63, payload := [] }
def zVenc : Tracked := { zCmd 0x6A 6 54 with opb := leBytes 8 2 ++ List.replicate 24 0, outs := [zOut []], ins := [zIn [zPlane]] }
def zVeOf (t : Tracked) (k : Nat) : State := { zVd with tracked := [t], vchans := [(42, { zVch true with slice := k })] }
def zVe (k : Nat) : State := zVeOf (if k = 0 then zVenc else { zVenc with venc := some (zVenc.vencRun (zVch true)) }) k
/-- The same run again after it completed, on a channel of its own. -/
def zVenc2 : Tracked := { zVenc with rerun := true, venc := some (zVenc.vencRun (zVch true)) }
theorem test_wit_venc :
    runningCmd (zVe 0) 7 0x6A = some zVenc ∧ planeShape (zVch true).width (zVch true).height 1 0 = (64, 64, 0, true, 0) ∧
      tileRows zPlane = 64 ∧ tileRowBytes zPlane = 64 ∧
      post (exec (.venc 7) (zVe 0)) (fun t => t.events.map Event.type == [0x21]) = true ∧
      post (exec (.venc 7) (zVe 3)) (fun t => (t.cmd? 7).any fun u => u.work.aux == 1) = true ∧
      runningCmd (zVeOf zVenc2 0) 7 0x6A = some zVenc2 ∧
      post (exec (.venc 7) (zVeOf zVenc2 0)) (fun t => (t.cmd? 7).any (fun u => u.venc.any fun v => v.cur.slice == 2) &&
        t.events == []) = true := by decide +kernel

/-- A VDEC and a VENC of another partition's channel, and a VDEC of a mode that Table 8-4 has not. -/
theorem test_wit_video_refused :
    let s (t : Tracked) : State := { zVdc 5 with tracked := [t] }
    let bad : Tracked := { zVdec with opb := leBytes 8 (3 + 7 * 2 ^ 32) ++ List.replicate 24 0 }
    runningCmd (s bad) 7 0x69 = some bad ∧
      post (exec (.vdec 7) (s bad)) (fun t => (t.cmd? 7).any fun u => u.status == some (4, 0x1A2)) = true ∧
      post (exec (.venc 7) { zVeOf zVenc 0 with vchans := [] }) (fun t => (t.cmd? 7).any fun u => u.status == some (4, 0x1A1)) = true := by
  decide +kernel

/-- A picture of more than twice its target raises QP by 2. -/
theorem test_qp : nextQp (zVch true) false 100000 = (32, false) ∧ (zVch true).wd 6 13 8 = 51 ∧ (zVch true).wd 6 24 24 = 0 := by
  decide +kernel

/-! ### Host link -/

def zLen (n : Nat) (b : FrameBody) : EthFrame :=
  { len := n, tagged := false, pcp := 0, vlan := 0, srcMac := 0, cbSeq := none, fcsOk := true, body := b }
def zHdr (ty sid seq ack : Nat) : CtlHdr :=
  { magic := 0x4352, verMaj := 2, verMin := 1, type := ty, status := 0, session := sid, len := 64, frameSeq := seq, ack := ack }
def zSess : Session :=
  { part := 0, mgmt := false, verMaj := 2, verMin := 1, ringAddr := 0x9000, rkey := 5, ringLog2 := 6, qpn := 3, clientIp := 0
    seen := [1], answers := [(1, mkResp 7 0 [])], txSeq := 1, nextRes := 3, acked := 0, written := 0
    retained := [⟨1, 0, 9, [1], 0, 0⟩, ⟨2, 0, 9, [2], 0, 0⟩], closed := false, closeStatus := 0 }
def zQp : QPair :=
  { part := 0, port := 0, state := 1, mtu := 1024, psn := 10, acked := 10, retries := 0, rate := 2 ^ 31, rateAt := 0, sentAt := 0,
    timeout := 0, ops := [] }
def zReqs : Request :=
  { session := 4, part := 0, tag := 77, body := ⟨77, 1, 0, 0, 0, 0, 0, 0⟩, degraded := true, state := .decode, highest := none
    endSeq := none, journal := 0, port := 0, seq := 1, cancelled := false, entry := [], tokens := [] }
/-- Ports 0 and 2 up, session 4 open on queue pair 3, request 9 of it in decode. -/
def zNet : State :=
  { ((((zPart zVd).setReg (portBase 0 + 0x8) 1).setReg (portBase 0 + 0x10) 1).setReg (portBase 2 + 0x8) 1) with
    sessions := [(4, zSess)], qps := [(3, zQp)], requests := [(9, zReqs)], nextReq := 10, nextSess := 5 }
def zShut (f : EthFrame) : State := { zNet with shuttles := [(0, [ShFrame.mk f 33])] }
def zCtl : CtlFrame := { hdr := zHdr 7 4 2 0, body := .none }

theorem test_wit_frames :
    portOn zNet 0 = true ∧ shuttleOf 0 (zLen 100 .gptp) = 0 ∧ shuttleUsed zNet 0 + frameWords (maxFrame zNet 0) ≤ shuttleSize 0 ∧
      100 ≤ maxFrame zNet 0 ∧ (forEndpoint (zLen 100 .gptp) && zNet.flag A.thimbleWakeCtl A.thimbleWakeCtl_netEn) = false ∧ maxFrame zNet 0 < 9999 ∧
      shuttleSize 0 < shuttleUsed { zNet with shuttles := [(0, [⟨zLen 60000 .gptp, 0⟩])] } 0 + frameWords (maxFrame zNet 0) ∧
      dieOn zNet = true ∧ tgetD (zShut (zLen 100 .roceRequest)).shuttles 0 [] = [ShFrame.mk (zLen 100 .roceRequest) 33] ∧
      post (exec (.frameReceive 0 (zLen 100 .gptp)) zNet) (fun t => (tgetD t.shuttles 0 []).length == 1) = true ∧
      post (exec (.classify 0 0) (zShut (zLen 100 (.control (cpPort zNet 0) zCtl)))) (fun t => t.inbox == [(0, zCtl)]) = true ∧
      post (exec (.classify 0 0) (zShut (zLen 100 .roceRequest))) (fun t =>
        t.fget (A.nxRdmaDrop 0) A.nxRdmaDrop_inboundReq == 1) = true ∧ recovered [7] 7 = none ∧ recovered [7] 8 = some [8, 7] := by
  decide +kernel

/-- A camera packet of UDP port 5004 for decode channel 3 of VD 0. -/
def zFlow : State := (zShut (zLen 100 (.udp 5004 [1, 2, 3]))).setReg (A.nxFlow 0 2) (1 + 3 * 4 + 5004 * 2 ^ 24) |>.writeBytes 0x8000 (leBytes 8 0)
theorem test_wit_flow :
    flowOf zFlow 0 5004 (zLen 100 (.udp 5004 [1, 2, 3])) = some 2 ∧ zFlow.fget (A.nxFlow 0 2) A.nxFlow_chan = 3 ∧
      (word64 zFlow 0x8000).testBit 63 = false ∧
      post (exec (.classify 0 0) zFlow) (fun t => word64 t 0x8000 == 3 + 2 ^ 63 && word64 t 0x8008 == 33 &&
        readBytes t 0x8010 3 == [1, 2, 3]) = true := by decide +kernel

theorem test_wit_cb :
    let f : EthFrame := { zLen 100 .gptp with tagged := true, vlan := 6, cbSeq := some 7 }
    let s := (zShut f).setReg (A.nxCbS 0 1) (setFld (setFld 0 A.nxCbS_en.1 A.nxCbS_en.2 1) A.nxCbS_vlan.1 A.nxCbS_vlan.2 6)
    filterOf s 0 f = none ∧ cbStream s f = some 1 ∧
      post (exec (.classify 0 0) { s with cbSeen := [(1, [7])] }) (fun t => tgetD t.shuttles 0 [] == [] && t.fget (portBase 0 + 0x30) A.nxRxDrop_fcs == 0) = true := by
  decide +kernel

theorem test_wit_reasm :
    post (exec (.reassemblyTimeout 6) { zNet with reasm := [(6, ⟨2, [0], zCtl, 0⟩)], tb := { zNet.tb with n := 10000000 } }) (fun t =>
      (tget t.reasm 6).isNone) = true := by decide +kernel

/-- An RREAD of two tiles of 64 bytes, and an RWRITE, on queue pair 3. -/
def zRd : Tracked :=
  { zCmd 0x78 6 52 with opb := leBytes 8 (3 + 63 * 2 ^ 17 + 2 ^ 25 + 5 * 2 ^ 32) ++ leBytes 8 0x7000 ++ leBytes 8 2 ++ leBytes 8 0
                        outs := [zOut []] }
def zWr : Tracked := { zRd with desc := zDesc 0x79 6 0, ins := [zIn [zTile]], outs := [] }
def zOp : RdmaOp := { psn := 10, npkts := 1, read := true, addr := 0x7000, rkey := 5, len := 64, bytes := List.replicate 64 3, slot := some 7 }
def zRdma (t : Tracked) (q : QPair) : State := { zNet with tracked := [t], qps := [(3, q)] }
theorem test_wit_rdma :
    runningCmd (zRdma zRd zQp) 7 0x78 = some zRd ∧ readyQp (zRdma zRd zQp) zRd = some zQp ∧ wholeRow (opw zRd.opb 4 29 25) 64 = true ∧
      fullOp zQp 7 = none ∧ fullOp { zQp with ops := [zOp] } 7 = some zOp ∧ opw zRd.opb 6 31 0 = 2 ∧ roomFor (zRdma zRd zQp) zRd = true ∧
      psnOf 10 11 = some 11 ∧ readyQp (zRdma zRd { zQp with state := 0 }) zRd = none ∧
      runningCmd (zRdma zWr zQp) 7 0x79 = some zWr ∧ mayEmit zNet = true ∧
      post (exec (.rread 7) (zRdma zRd zQp)) (fun t => (tget t.qps 3).any fun q => q.psn == 11 && q.ops.map RdmaOp.len == [64]) = true ∧
      post (exec (.rread 7) (zRdma zRd { zQp with ops := [zOp] })) (fun t => (t.cmd? 7).any fun u => u.outs.any fun o =>
        o.queue.map Tile.payload == [zOp.bytes]) = true ∧
      post (exec (.rwrite 7) (zRdma zWr zQp)) (fun t => (tget t.qps 3).any fun q => q.ops.map RdmaOp.bytes == [zTile.payload]) = true ∧
      post (exec (.rdmaResponse 3 (.ack 11)) zNet) (fun t => (tget t.qps 3).any fun q => q.acked == 12) = true ∧
      post (exec (.congestionNotification 3) zNet) (fun t => (tget t.qps 3).any fun q => q.rate == 2 ^ 30) = true ∧
      post (exec (.rateIncrease 3) { zNet with tb := { zNet.tb with n := 5500 } }) (fun t => (tget t.qps 3).any fun q =>
        q.rate == 2 ^ 31 + 2 ^ 28) = true ∧
      post (exec (.rdmaRetryTimeout 3) { zNet with qps := [(3, { zQp with ops := [{ zOp with bytes := [] }] })] }) (fun t =>
        (tget t.qps 3).any fun q => q.retries == 1) = true := by decide +kernel

/-- A token record of request 9: token 42 at index 0. -/
def zRecord : List Byte := leBytes 8 9 ++ leBytes 8 42 ++ leBytes 8 0 ++ leBytes 8 2
def zRes : Tracked := { zCmd 0x7A 6 52 with ins := [zIn [{ zTile with rowBytesM1 := 31, payload := zRecord }]] }
theorem test_wit_result :
    runningCmd { zNet with tracked := [zRes] } 7 0x7A = some zRes ∧ rowOf { zTile with rowBytesM1 := 31, payload := zRecord } 0 = zRecord ∧
      leNat (zRecord.take 8) = 9 ∧ leNat ((zRecord.drop 24).take 1) = 2 ∧ zSess.retained.length + 1 ≤ setting zNet 12 65536 ∧
      confirmed zNet 0 0 = true ∧
      post (exec (.result 7) { zNet with tracked := [zRes] }) (fun t => (tget t.sessions 4).any fun x => x.nextRes == 4 &&
        x.retained.length == 3) = true ∧
      post (exec (.resultRingWrite 4) zNet) (fun t => (tget t.sessions 4).any (fun x => x.written == 1) &&
        (tget t.qps 3).any fun q => q.ops.map RdmaOp.addr == [0x9000 + 64]) = true := by decide +kernel

theorem test_wit_sessions :
    FreshFrame zNet 0 (zHdr 4 4 2 0) zSess 2 0 ∧ FreshFrame zNet 0 (zHdr 4 4 2 0) zSess 1 0 ∧ listening zNet 0 1 = true ∧
      chooseVersion 2 1 = some (2, 1) ∧ tokenOk zNet false ⟨0, 0, 0x9000, 5, 6, 1, 0, 0⟩ = true ∧
      tokenOk zNet false ⟨0, 1, 0x9000, 5, 6, 1, 0, 0⟩ = false ∧ seqFresh zSess.seen 1 = false ∧
      tget zSess.answers 1 = some (mkResp 7 0 []) ∧ min 2 (zSess.nextRes - 1) = 2 ∧
      submitVersionOk zSess ⟨78, 1, 0, 0, 0, 0, 0, 0⟩ = true ∧ submitFormOk ⟨78, 1, 0, 0, 0, 0, 0, 0⟩ = true ∧
      journalUsed zNet + 1 < setting zNet 11 65536 ∧ paired zNet = false := by
  unfold FreshFrame
  decide +kernel

theorem test_sessions :
    post (exec (.openSession 0 (zHdr 1 0 1 0) ⟨0, 0, 0x9000, 5, 6, 1, 0, 0⟩) zNet) (fun t => t.nextSess == 6 && t.out.length == 1) = true ∧
      post (exec (.ack 0 (zHdr 7 4 2 1)) zNet) (fun t => (tget t.sessions 4).any fun x => x.acked == 1 && x.retained.length == 1) = true ∧
      post (exec (.closeSession 0 (zHdr 3 4 2 0)) zNet) (fun t => (tget t.sessions 4).any fun x => x.closed) = true ∧
      post (exec (.sessionState 0 (zHdr 12 4 2 0)) zNet) (fun t => t.out == [.reply 0 (respHdr t 4 { mkResp 0x0D 0 [3, 0, 2, 1] with seq := 2 }) { mkResp 0x0D 0 [3, 0, 2, 1] with seq := 2 }]) = true ∧
      post (exec (.inventory 0 (zHdr 12 4 2 0)) zNet) (fun t => t.out.length == 1) = true ∧
      post (exec (.submit 0 (zHdr 4 4 2 0) ⟨78, 1, 0, 0, 0, 0, 0, 0⟩) zNet) (fun t => t.nextReq == 11 &&
        t.out == [.reply 0 (respHdr t 4 { mkResp 5 0 [78, 10, 1] with seq := 2 }) { mkResp 5 0 [78, 10, 1] with seq := 2 }]) = true ∧
      post (exec (.submit 0 (zHdr 4 4 2 0) ⟨77, 1, 0, 0, 0, 0, 0, 0⟩) zNet) (fun t => t.nextReq == 10 &&
        t.out == [.reply 0 (respHdr t 4 { mkResp 5 0 [77, 9, 1] with seq := 2 }) { mkResp 5 0 [77, 9, 1] with seq := 2 }]) = true ∧
      post (exec (.pause 0 (zHdr 9 4 2 0) 9 60) zNet) (fun t => t.events.map Event.type == [0x30]) = true := by decide +kernel

def zImg : Image := 
  { part := 0, bytes := 100, ttl := 1, doneAt := 0, aged := 0, complete := true, gen := 0, words := [], pages := []
    tokens := [], entry := [], loop := SampSeq.empty }
theorem test_wit_ttl :
    let s := { zNet with images := [(9, zImg)], tb := { zNet.tb with n := 100000001 } }
    nextDue s 9 = some zImg ∧ zImg.ttl * 10 ^ 9 ≤ zImg.age s ∧ post (exec (.ttlExpiry 9) s) (fun t => t.events.map Event.type == [0x31]) = true := by
  decide +kernel


/-- A closed session still frees results, and a SUBMIT sent again brings its ACK too. -/
theorem test_wit_acks :
    let s : State := { zNet with sessions := [(4, { zSess with closed := true })] }
    listening s 0 7 = true ∧ mirrors s = false ∧ seqFresh zSess.seen 1 = false ∧
      post (exec (.ack 0 (zHdr 7 4 2 1)) s) (fun t => (tget t.sessions 4).any fun x => x.closed && x.acked == 1 && x.retained.length == 1) =
        true ∧
      post (exec (.submit 0 (zHdr 4 4 1 2) ⟨78, 1, 0, 0, 0, 0, 0, 0⟩) zNet) (fun t => t.out.length == 1 &&
        (tget t.sessions 4).any fun x => x.acked == 2) = true := by decide +kernel

/-! ### The Line Port and the timebase -/

/-- The port enabled for partition 3, with verdict 0x31 for tag 0x2A17 and events of tags and misses. -/
def zLine : State :=
  ((zState.setReg A.lineCtl (1 + 3 * 2 + 32 + 64)).setReg (A.lineVerdict 0x2A17) (0x31 + 2 ^ 16)).setReg A.lineDefault 5
theorem test_wit_line :
    lineOn zLine = true ∧ mayEmit zLine = true ∧ paired zLine = false ∧ safe zLine = false ∧
      (zLine.flag A.lineCtl A.lineCtl_enable && (zLine.reg (A.lineVerdict 0x2A17)).testBit 16) = true ∧
      (zLine.reg (A.lineVerdict 7)).testBit 16 = false ∧ zLine.flag A.lineCtl A.lineCtl_tagEvents = true ∧ zLine.linePend = [] ∧
      zLine.fget A.lineCtl A.lineCtl_part = 3 ∧ mayEmit ((zLine.setReg A.pairCtl 1)) = false ∧
      post (exec (.strobe 0x2A17 true 9) zLine) (fun t => t.pins.lineQ == 0x31 && t.pins.lineAck &&
        t.flag (A.lineVerdict 0x2A17) A.lineVerdict_read) = true ∧
      post (exec (.strobe 7 true 9) zLine) (fun t => t.pins.lineQ == 5 && !t.pins.lineAck && t.events.map Event.payload == [7]) = true ∧
      post (exec (.strobe 7 true 9) { zLine with lastEdge := some 6 }) (fun t => t.fget A.lineStat A.lineStat_early == 1) = true ∧
      post (exec (.verdictWrite 3 7 0x10044) zLine) (fun t => t.reg (A.lineVerdict 7) == 0x10044) = true ∧
      post (exec (.verdictWrite 3 7 0x10044) { zLine with linePend := [⟨7, 0x44, 0⟩] }) (fun t => t.linePend == [] &&
        t.flag (A.lineVerdict 7) A.lineVerdict_read) = true ∧
      post (exec (.verdictWrite 3 7 0x10044) { zLine with linePend := [⟨7, 0x43, 0⟩] }) (fun t => t.linePend == [] &&
        !t.flag (A.lineVerdict 7) A.lineVerdict_read) = true ∧
      post (exec (.tagAnnouncement 7) zLine) (fun t => t.events.map Event.type == [0x100]) = true := by decide +kernel

def zTrig (l : Option Nat) : State :=
  { zLine.setReg (A.lineTrigCfg 2) (1 + 2) with trigs := [(2, { level := true, pending := some (true, 0), last := l })] }
theorem test_wit_trigger :
    0 + (zTrig none).fget (A.lineTrigCfg 2) A.lineTrigCfg_filterNs ≤ now (zTrig none) ∧
      (zTrig none).flag (A.lineTrigCfg 2) A.lineTrigCfg_eventEn = false ∧
      post (exec (.trigEdge 2 true 40) (zTrig none)) (fun t => (trigIn t 2).pending == some (true, 40)) = true ∧
      post (exec (.trigAccept 2) (zTrig none)) (fun t => t.trigFifo == [TrigEntry.mk 2 true 0]) = true ∧
      post (exec (.trigAccept 2) (zTrig (some 0))) (fun t => t.fget A.lineTrigStat A.lineTrigStat_glitch == 1) = true ∧
      post (exec (.lineTrigPop (.part 3)) { zLine with trigFifo := [TrigEntry.mk 2 true 0] }) (fun t =>
        t.busData == leBytes 8 (18 + 2 ^ 63)) = true := by decide +kernel

def zTb (st good : Nat) : State := { zState.setReg A.tbStatus st with tb := { zState.tb with good := good } }
theorem test_wit_timebase :
    (zTb 1 7).flag A.tbCtl A.tbCtl_servoEn = true ∧ ((zTb 1 7).setReg A.tbCtl 0).flag A.tbCtl A.tbCtl_servoEn = false ∧
      dieOn (zTb 1 7) = true ∧ paired (zTb 1 7) = false ∧ (zTb 2 0).fget A.tbStatus A.tbStatus_state = 2 ∧
      post (exec (.offsetResult 50) ((zTb 1 7).setReg A.tbCtl (1000 * 2 ^ 16))) (fun t => t.fget A.tbStatus A.tbStatus_state == 2 &&
        t.tb.slew == 50 * 2 ^ 32) = true ∧
      post (exec (.offsetResult 2000) ((zTb 2 0).setReg A.tbCtl (1000 * 2 ^ 16))) (fun t => t.fget A.tbStatus A.tbStatus_state == 1 &&
        t.tb.step == 2000) = true ∧
      post (exec .timeSetBoundary { zState with tb := { zState.tb with step := 9 } }) (fun t => t.tb.n == 1024 && now t == 10249) = true ∧
      post (exec (.tbRate .firmware 7) ((zTb 1 7).setReg A.tbCtl 0)) (fun t => t.reg A.tbRate == 0xA00000000 - 21474836) = true ∧
      post (exec .tbHoldover { zTb 2 0 with tb := { zState.tb with n := 300000000 } }) (fun t =>
        t.fget A.tbStatus A.tbStatus_state == 3) = true ∧ ofS64 (2 ^ 64 - 5) = -5 := by decide +kernel

/-! ### Warp links -/

/-- Link 1 in a state, enabled, with light as given; this module is number 2, a worker unless `man`. -/
def zLk (st : Nat) (light : Bool) (man : Bool) : State :=
  let s := ((zPart zState).setReg (lkCtl 1) (1 + 50 * 2 ^ 8)).setReg (lkStatus 1) st
  let s := ((s.setReg (lkTx 1) 10).setReg (lkRx 1) 20).setReg (A.wpCtl 0) (if man then 0 else 2)
  let s := (s.setReg (A.wpStatus 0) (if man then 1 else 0)).setReg (A.wpPart 0 0) 1
  let s := (s.setReg (A.wpRoute 0 5) 9).setReg (A.wpRoute 0 0) (if man then 0 else 9)
  { s.setReg A.thimbleSelvage 0 with links := [(1, { Link.new with light := light })] }
def zIdent : IdentRec :=
  { serial := 99, fabric := zState.fabric, module_ := 5, link := 1, slot := 0, manager := false, pair := false, verLo := 0x20, verHi := 0x21,
    launch0 := 1000, launch1 := 1000, nonce := 8, epoch := 3 }

theorem test_wit_training :
    laserOn (zLk 0 true false) 1 = true ∧ linkState (zLk 5 true false) 1 = 5 ∧ (link (zLk 5 true false) 1).skip = false ∧
      (zLk 0 true false).tracked = [] ∧ paired (zLk 0 true false) = false ∧
      post (exec (.linkEnable .firmware 1 1) (zLk 0 true false)) (fun t => linkState t 1 == 1) = true ∧
      post (exec (.linkEnable .firmware 1 0) (zLk 3 true false)) (fun t => linkState t 1 == 0) = true ∧
      post (exec (.retrain .firmware 1) (zLk 5 true false)) (fun t => linkState t 1 == 1) = true ∧
      post (exec (.lightOnBothLanes 1 true) (zLk 0 false false)) (fun t => linkState t 1 == 1) = true ∧
      post (exec (.fecLock 1 99) (zLk 1 true false)) (fun t => linkState t 1 == 2) = true ∧
      post (exec (.fecLockTimeout 1) { zLk 1 true false with tb := { zState.tb with n := 10000000 } }) (fun t => linkState t 1 == 5) = true ∧
      post (exec (.calibDone 1 true) (zLk 2 true false)) (fun t => linkState t 1 == 3) = true ∧
      post (exec (.failedRetry 1) { (zLk 5 true false).setReg (lkStatus 1) (5 + 2 * 8) with tb := { zState.tb with n := 100000000 } })
        (fun t => linkState t 1 == 1) = true ∧
      post (exec (.linkLoss 1) (zLk 4 true false)) (fun t => linkState t 1 == 1 && t.events.map Event.type == [0x601]) = true := by
  decide +kernel

theorem test_wit_ident :
    (zLk 3 true false).flag (A.wpPlan 0 1) A.wpPlan_valid = false ∧ min 0x21 zIdent.verHi = 0x21 ∧ roleOk false 5 = true ∧
      roleOk (isManager (zLk 3 true false)) (moduleId (zLk 3 true false)) = true ∧ roleOk true 5 = false ∧
      zIdent.pair = (zLk 3 true false).flag (lkCtl 1) A.wpLinkCtl_pair ∧
      (((zLk 3 true false).setReg (A.wpPlan 0 1) 1).setReg (A.wpCtl 0) (2 + 2 ^ 8)).flag (A.wpPlan 0 1) A.wpPlan_valid = true ∧
      ((zLk 3 true false).setReg (A.wpPlan 0 1) 1).fget (A.wpPlan 0 1) A.wpPlan_farModule ≠ zIdent.module_ ∧
      ((zLk 3 true false).fset (A.wpCtl 0) A.wpCtl_planEnforce 1).flag (A.wpCtl 0) A.wpCtl_planEnforce = true ∧
      post (exec (.ident 1 ⟨{ zIdent with verHi := 0x1F }, []⟩) (zLk 3 true false)) (fun t => t.fget (lkStatus 1) A.wpLinkStatus_cause == 3) = true ∧
      post (exec (.ident 1 ⟨{ zIdent with fabric := zState.fabric + 1 }, []⟩) (zLk 3 true false)) (fun t =>
        t.fget (lkStatus 1) A.wpLinkStatus_cause == 4) = true := by decide +kernel

/-- The far end's confirmation is the one that its keys give, and there is one that is not. -/
theorem test_wit_confirm :
    ∃ good bad : List Byte, good = keyConfirm (zLk 3 true false) zIdent (ownIdent (zLk 3 true false) 1) ∧
      bad ≠ keyConfirm (zLk 3 true false) zIdent (ownIdent (zLk 3 true false) 1) :=
  ⟨_, 0 :: keyConfirm (zLk 3 true false) zIdent (ownIdent (zLk 3 true false) 1), rfl, fun h => by
    have := congrArg List.length h
    simp at this⟩

/-- A link whose far end is the one that it was calibrated with skips the calibration. -/
theorem test_wit_skip :
    let s : State := { zLk 1 true false with links := [(1, { Link.new with light := true, skip := true, calSerial := some 99 })] }
    linkState s 1 = 1 ∧ laserOn s 1 = true ∧ (link s 1).skip = true ∧ s.flag (lkCtl 1) A.wpLinkCtl_recal = false ∧
      post (exec (.fecLock 1 99) s) (fun t => linkState t 1 == 3 && t.flag (lkStatus 1) A.wpLinkStatus_calSkipped) = true := by
  decide +kernel

/-- A tenth of the launched power is received: a loss of 10 dB, in units of 0.1 dB. -/
theorem test_optics :
    lossOf 1000 1000 = 0 ∧ lossOf 1000 500 = 30 ∧
      post (exec (.opticsSample 1 100 1000) ((zLk 4 true false).setReg (A.wpLoss 0 1) (1000 + 1000 * 2 ^ 16))) (fun t =>
        t.fget (A.wpLoss 0 1) A.wpLoss_loss0 == 100 && t.flag (lkStatus 1) A.wpLinkStatus_lossHigh) = true := by decide +kernel

def zFr (ctr chan info : Nat) (e : Bool) (p : List Byte) : WarpFrame :=
  { counter := ctr, part := 0, tileEnd := e, src := 5, dst := 2, chan := chan, info := info, payload := p, tagOk := true }
def zLand : Landing := { slot := 7, part := 0, src := 5, chan := 6, slots := 2, granted := 1, hdr := none, gather := [], tiles := [] }
def zUp : State := { zLk 4 true false with landings := [zLand] }
theorem test_wit_frames_warp :
    FrameComes zUp 1 (zFr 20 6 0 true []) ∧ moduleId zUp = 2 ∧ sqFull zUp (cmdQueue (zFr 20 6 0 true [])) = false ∧
      Writable zUp (zUp.reg (A.loomSqBase 54) + 64 * zUp.fget (A.loomSqTail 54) A.loomSqTail_tail) 64 ∧
      (zUp.fget A.wpRcqTail A.wpRcqTail_tail + 1) % 2 ^ rcqLog2 zUp ≠ zUp.fget A.wpRcqHead A.wpRcqHead_head ∧
      Writable zUp (fld (zUp.reg A.wpRcqBase) 47 6 * 64 + 64 * zUp.fget A.wpRcqTail A.wpRcqTail_tail) 64 ∧
      post (exec (.data 1 (zFr 20 6 (tileHeader zTile) true [1, 2])) zUp) (fun t => t.landings.map (fun l => l.tiles.map Tile.payload) ==
        [[[1, 2]]] && t.reg (lkRx 1) == 21) = true ∧
      post (exec (.data 1 (zFr 21 6 0 true [1, 2])) zUp) (fun t => t.landings == [zLand] && t.reg (lkRx 1) == 20) = true ∧
      post (exec (.credit 1 (zFr 20 6 0 true [])) zUp) (fun t => creditsFor t 5 0 6 == 1) = true ∧
      post (exec (.partEpoch 1 (zFr 20 6 0 true []) 3 9) zUp) (fun t => t.fget (A.wpPart 0 3) A.wpPart_epoch == 9) = true ∧
      post (exec (.keyUpdate 1 (zFr 20 6 0 true [])) zUp) (fun t => t.reg (lkRx 1) == 1 && t.reg (A.wpCrypt 0 1) == 1) = true ∧
      post (exec (.arrive 1 (zFr 20 0 0 false []) 8 4 false false) zUp) (fun t => t.barriers.length == 1) = true := by
  unfold FrameComes
  decide +kernel

def zBar : Tracked :=
  { zCmd 0x7E 5 58 with opb := leBytes 8 8 ++ leBytes 8 1 ++ List.replicate 16 0, work := { zWork with aux2 := 1, opened := true } }
theorem test_wit_barriers :
    arrivedCmds { zUp with tracked := [zBar] } 8 = [7] ∧
      post (exec (.release 1 (zFr 20 0 8 false []) 8 false) { zUp with tracked := [zBar] }) (fun t => (t.cmd? 7).any fun u =>
        u.status == some (0, 0)) = true ∧
      post (exec (.barrierTimeout 8) { zUp with barriers := [⟨8, 0, 0, []⟩], tb := { zUp.tb with n := 2 ^ 50 } }) (fun t =>
        t.barriers == []) = true := by decide +kernel

theorem test_wit_ack_nak :
    let s := { zUp with links := [(1, { Link.new with retry := [(1, zFr 8 0 0 true []), (1, zFr 9 0 0 true [])] })] }
    post (exec (.warpAck 1 8) s) (fun t => (link t 1).retry.length == 1) = true ∧
      post (exec (.warpNak 1 9) s) (fun t => t.out.length == 1) = true ∧
      post (exec (.warpNak 1 9) { s with links := [(1, { Link.new with nakFor := 9, attempts := 7 })] }) (fun t => linkState t 1 == 1) =
        true ∧
      linkHears s 1 = true ∧ safe s = false ∧ safe (s.fset A.fcSummary A.fcSummary_safe 1) = true ∧
      post (exec (.warpNak 1 9) (s.fset A.fcSummary A.fcSummary_safe 1)) (fun t => t.out == []) = true ∧
      post (exec (.data 1 (zFr 20 6 0 true [1])) { s with frozen := true }) (fun t => t.out == [] && t.reg (lkRx 1) == 20) = true ∧
      post (exec (.warpNak 1 9) ((s.setReg (A.dbgGcntSel 0) (8 + 2 ^ 8)))) (fun t => t.fget (A.dbgGcnt 0) A.dbgGcnt_value == 48) =
        true := by decide +kernel

/-- WSEND, WSUBMIT, WRECV and BARRIER on WP 0 (station 58), to or from module 5, channel 6. -/
def zWarp (op : Nat) (w : Work) : Tracked :=
  { zCmd op 5 58 with opb := leBytes 8 (5 + 6 * 2 ^ 16 + 2 ^ 32) ++ leBytes 8 1 ++ List.replicate 16 0, work := w, ins := [zIn [zTile]], outs := [] }
def zWs (op : Nat) (w : Work) : State := { zUp with tracked := [zWarp op w], txCredits := [⟨5, 0, 6, 2⟩] }
def zWo : Work := { zWork with opened := true }
theorem test_wit_warp_commands :
    warpCheck (zWs 0x7C zWork) (zWarp 0x7C zWork) 5 true = none ∧ warpCheck (zWs 0x7D zWork) (zWarp 0x7D zWork) 5 false = none ∧
      runningCmd (zWs 0x7C zWork) 7 0x7C = some (zWarp 0x7C zWork) ∧ (zWarp 0x7C zWo).head? 0 = some zTile ∧
      CanSend (zWs 0x7C zWo) 5 1 1 0 ∧ creditsFor (zWs 0x7C zWo) 5 0 6 = 2 ∧ tileRowBytes zTile = 64 ∧ tileRows zTile = 1 ∧
      1 + 0 + outHeld (zWs 0x7D zWo) (zWarp 0x7D zWo) < 2 ∧ CanSend (zWs 0x7E zWo) 0 1 1 8 ∧ isManager (zWs 0x7E zWo) = false ∧
      isManager (zLk 4 true true) = true ∧ (opw (zWarp 0x7E zWo).opb 5 63 0).testBit 0 = true ∧
      post (exec (.wsend 7) (zWs 0x7C zWo)) (fun t => t.out.length == 1 && t.reg (lkTx 1) == 11 && creditsFor t 5 0 6 == 1) = true ∧
      post (exec (.wsubmit 7) (zWs 0x7F zWo)) (fun t => t.out.length == 1) = true ∧
      post (exec (.wrecv 7) (zWs 0x7D zWo)) (fun t => t.landings.map Landing.granted == [2]) = true ∧
      post (exec (.barrier 7) { zUp with tracked := [{ zBar with work := zWo }] }) (fun t => t.out.length == 1) = true := by
  unfold CanSend
  decide +kernel

/-! ### The pair -/

/-- Link 1 is the pair link of a paired module in pair state `st`, at epoch 6, holding the lease where asked. -/
def zPr (st : Nat) (held : Bool) : State :=
  let s := ((zLk 4 true false).fset (lkCtl 1) A.wpLinkCtl_pair 1).fset A.pairCtl A.pairCtl_en 1
  let s := ((s.pairTo st).fset A.pairStatus A.pairStatus_leaseHeld (if held then 1 else 0)).setReg A.pairEpoch 6
  s.setReg A.pairLagMax 1000
def zLease (e : Nat) (rel : Bool) : LeaseRec :=
  { serial := 99, epoch := e, left := 200000, time := 5000, decision := 0, release := rel, fibreM := 10 }
def zPf : WarpFrame := zFr 20 0 0 true []
def zPh : CtlHdr :=
  { magic := 0x4352, verMaj := 2, verMin := 1, type := 0x20, status := 0, session := 0, len := 64, frameSeq := 3, ack := 0 }
def zPb (e : Nat) (tag : List Byte) : PairLeaseBody :=
  { serial := 99, epoch := e, left := 200000, time := 5000, decision := 0, release := false, tag := tag }
/-- The same state later, with the heartbeat as given. -/
def zLate (s : State) (hb : Bool) : State :=
  { s with tb := { s.tb with n := 10 ^ 10 }, pair := { s.pair with heartbeat := hb, partnerSerial := some 99, releaseAt := some 5 } }

theorem test_wit_lease :
    PairFrame (zPr 3 false) 1 zPf ∧ PairFrame (zPr 1 false) 1 zPf ∧ PairFrame (zPr 4 true) 1 zPf ∧
      (zPr 3 false).store.starting = none ∧ dieOn (zPr 3 false) = true ∧ (zPr 3 false).frozen = false ∧
      safe (zPr 4 true) = false ∧ (zPr 4 true).pair.joinAsked = false ∧
      post (exec (.lease 1 zPf (zLease 6 true)) (zPr 3 false)) (fun t => pairSt t == 3 && t.pair.releaseAt == some (t.tb.n + 10000)) = true ∧
      post (exec (.lease 1 zPf (zLease 6 false)) (zPr 1 false)) (fun t => pairSt t == 2) = true ∧
      post (exec (.lease 1 zPf (zLease 5 false)) (zPr 4 true)) (fun t => pairSt t == 4 && t.reg A.pairEpoch == 6) = true ∧
      post (exec (.lease 1 zPf (zLease 7 false)) (zPr 4 true)) (fun t => t.pair.higher && t.reg A.pairEpoch == 7) = true ∧
      post (exec (.pairLease 1 zPh (zPb 6 [])) (zLate (zPr 3 false) true)) (fun t =>
        t.fget A.pairMleaseDrop A.pairMleaseDrop_count == 1) = true := by
  unfold PairFrame FrameComes
  decide +kernel

/-- A PAIR_LEASE with the partner's TAG, and one with another. -/
theorem test_wit_lease_tag :
    let s := zLate (zPr 3 false) true
    ∃ good bad : PairLeaseBody, good.tag = leaseTag s good.serial zPh good ∧ bad.tag ≠ leaseTag s bad.serial zPh bad ∧
      good.epoch = s.reg A.pairEpoch ∧ s.pair.partnerSerial = some good.serial ∧ s.pair.lastMlease = none ∧ paired s = true :=
  ⟨zPb 6 (leaseTag (zLate (zPr 3 false) true) 99 zPh (zPb 6 [])), zPb 6 (0 :: leaseTag (zLate (zPr 3 false) true) 99 zPh (zPb 6 [])), rfl,
    fun h => by have := congrArg List.length h; simp [zPb, leaseTag, leaseBytes] at this, by decide +kernel, by decide +kernel,
    by decide +kernel, by decide +kernel⟩

theorem test_wit_lease_timers :
    post (exec .leaseRenewal (zLate (zPr 4 true) true)) (fun t => t.pair.ownUntil == 10 ^ 10 + 200000 && t.events == []) = true ∧
      post (exec .leaseRenewal (zLate (zPr 4 true) false)) (fun t => t.events.map Event.type == [0x642]) = true ∧
      post (exec .leaseExpiry (zLate (zPr 4 true) false)) (fun t => pairSt t == 1 && !mayEmit t) = true ∧
      post (exec .leaseLapse (zLate (zPr 2 false) false)) (fun t => pairSt t == 1) = true ∧
      post (exec .leaseLapse (zLate (zPr 3 false) false)) (fun t => pairSt t == 5 && t.reg A.pairEpoch == 7 && mayEmit t) = true ∧
      post (exec .releaseTakeover (zLate (zPr 3 false) false)) (fun t => pairSt t == 5 && mayEmit t) = true ∧
      post (exec .leaseWaitTimeout (zLate (zPr 1 false) true)) (fun t => pairSt t == 5 && mayEmit t) = true ∧
      post (exec (.pairHeartbeat .firmware) (zPr 4 true)) (fun t => t.pair.heartbeat) = true := by decide +kernel

theorem test_wit_swap :
    (zPr 4 true).pair.decisionSent ≤ (zPr 4 true).pair.decisionDone ∧
      post (exec (.swapReq .firmware) (zPr 4 true)) (fun t => pairSt t == 3 && t.reg A.pairEpoch == 7 && !mayEmit t) = true ∧
      post (exec (.swapReq .firmware) (zPr 3 false)) (fun t => pairSt t == 3 && t.fget A.pairStatus A.pairStatus_cause == 7) = true ∧
      post (exec .swapAt (((zLate (zPr 4 true) true).setReg A.pairSwapAt 50).fset A.pairCtl A.pairCtl_swapPeriodH 1)) (fun t =>
        pairSt t == 3 && t.reg A.pairSwapAt == 50 + 3600 * 10 ^ 9) = true ∧
      post (exec (.swap 1 zPf 7) (zPr 3 false)) (fun t => pairSt t == 4 && t.reg A.pairEpoch == 7 && mayEmit t) = true := by
  decide +kernel

def zSub : SubmitBody := ⟨9, 0, 0, 0, 0, 0, 0, 0⟩
def zReq : Request :=
  { session := 1, part := 0, tag := 9, body := zSub, degraded := false, state := .held, highest := none, endSeq := none,
    journal := 4, port := 0, seq := 2, cancelled := false, entry := [], tokens := [] }
theorem test_wit_pair_records :
    (zPr 3 false).pair.work = [] ∧ (zPr 3 false).pair.held = [] ∧ channelsReady (zPr 2 false) = true ∧ Writable (zPr 2 false) 0x2000 2 ∧ mayEmit (zPr 3 false) = false ∧ mayEmit (zPr 4 true) = true ∧
      (zPr 4 true).heldOut = [] ∧ (zPr 4 true).pair.swapping = false ∧ (zPr 4 true).pair.copies = [] ∧
      post (exec (.journal 1 zPf 5 [.request 1 zReq]) (zPr 3 false)) (fun t => t.pair.journalDone == 5 && t.requests.length == 1) = true ∧
      post (exec (.decision 1 zPf 5 900 [.groupCancel 2 3]) (zPr 3 false)) (fun t => t.cancelled == [(2, 3)] && pairSt t == 3) = true ∧
      post (exec (.decision 1 zPf 5 1001 []) (zPr 3 false)) (fun t => pairSt t == 1) = true ∧
      post (exec (.journalConfirm 1 zPf 4) { zPr 4 true with requests := [(1, zReq)] }) (fun t =>
        t.requests.map (fun x => x.2.state) == [.prefill]) = true ∧
      post (exec (.decisionConfirm 1 zPf 4) { zPr 4 true with pair := { (zPr 4 true).pair with decisions := [(4, []), (5, [])] } })
        (fun t => t.pair.decisions == [(5, [])]) = true ∧
      post (exec (.pktFetch 1 zPf 0 1 [7]) (zPr 4 true)) (fun t => t.out.contains (Emit.pktData 0 1 7 none)) = true ∧
      post (exec (.pktData 1 zPf 0 1 7 none) { zPr 3 false with pair := { (zPr 3 false).pair with fetching := [(0, 1, 7)] } })
        (fun t => pairSt t == 1) = true ∧
      post (exec (.joinData 1 zPf (.memory 0x2000 [7, 8])) (zPr 2 false)) (fun t => readBytes t 0x2000 2 == [7, 8]) = true ∧
      post (exec (.joinCtl 1 zPf 3 0 0) (zPr 2 false)) (fun t => t.fget A.pairStatus A.pairStatus_joinPhase == 3) = true ∧
      post (exec (.joinCtl 1 zPf 6 0 0) (zPr 2 false)) (fun t => pairSt t == 1) = true ∧
      post (exec (.joinCtl 1 zPf 4 0 0) (zPr 2 false)) (fun t => pairSt t == 3) = true ∧
      post (exec (.lineRead 1 zPf [⟨5, 1, 0⟩]) ((zPr 3 false).setReg (A.lineVerdict 5) (2 ^ 16 + 1))) (fun t => t.linePend == []) = true ∧
      post (exec (.lineRead 1 zPf [⟨5, 1, 0⟩]) (zPr 3 false)) (fun t => t.linePend.length == 1) = true := by decide +kernel

/-- Partition 2 is in state VALID, and a command runs where `busy`. -/
def zPar2 (s : State) (busy : Bool) : State :=
  { (s.fset (A.gnPartCtl 2) A.gnPartCtl_valid 1).fset (A.gnPartCtl 2) A.gnPartCtl_state 1 with
    tracked := if busy then [zCmd 0x7C 5 58] else [] }
/-- A standby holds a step back until its DECISION, and tears a partition down at a step boundary. -/
theorem test_wit_standby_steps :
    partValid (zPar2 (zPr 3 false) false) 2 = true ∧ stepBusy (zPar2 (zPr 3 false) true) = true ∧
      post (exec (.journal 1 zPf 5 [.teardown 2]) (zPar2 (zPr 3 false) false)) (fun t => partState t 2 == 2 && t.pair.work == []) = true ∧
      post (exec (.journal 1 zPf 5 [.teardown 2]) (zPar2 (zPr 3 false) true)) (fun t =>
        partState t 2 == 1 && t.pair.work == [PairWork.teardown 2]) = true ∧
      post (exec (.loomSqTail .firmware 3 4) (zPr 3 false)) (fun t => t.pair.held == [(3, 0)]) = true ∧
      post (exec (.decision 1 zPf 5 900 [Outcome2.step]) { zPr 3 false with pair := { (zPr 3 false).pair with held := [(3, 0)] } })
        (fun t => t.pair.held == [] && t.pair.work == []) = true := by decide +kernel

/-- The active begins a step with its DECISION. -/
theorem test_wit_active_step :
    let s := { zPr 4 true with requests := [(1, { zReq with state := .decode })] }
    pairLink s = some 1 ∧ linkState s 1 = 4 ∧ safe s = false ∧ mayUseQueue s .firmware 3 = true ∧
      post (exec (.loomSqTail .firmware 3 4) s) (fun t => t.pair.held == [] && t.pair.stepReqs == [1] &&
        t.out.contains (Emit.decision 1 [Outcome2.join 1, Outcome2.step])) = true := by decide +kernel

/-- The active sends a packet that it holds a copy of; the standby places it, and closes the picture that waited for it. -/
theorem test_wit_packets_of_a_pair :
    let k := { zPkt with ext := 7 }
    let s : State := { zPr 3 false with
      vchans := [(3, zVch false)], pair := { (zPr 3 false).pair with fetching := [(0, 3, 7)], waiting := [(0, 3, 7, [7])] } }
    mayEmit (zPr 4 true) = true ∧ PairFrame s 1 zPf ∧ vchan? s 0 3 false = some (zVch false) ∧ pairSt s = 3 ∧ safe s = false ∧
      post (exec (.pktFetch 1 zPf 0 3 [7]) { zPr 4 true with pair := { (zPr 4 true).pair with copies := [(0, 3, k)] } }) (fun t =>
        t.out.contains (Emit.pktData 0 3 7 (some k))) = true ∧
      post (exec (.pktData 1 zPf 0 3 7 (some k)) { s with pair := { s.pair with waiting := [] } }) (fun t => t.pair.fetching == [] &&
        (vchan? t 0 3 false).any fun c => c.pkts == [k] && c.ready == []) = true ∧
      post (exec (.pktData 1 zPf 0 3 7 (some k)) s) (fun t => t.pair.waiting == [] &&
        (vchan? t 0 3 false).any fun c => c.ready.map Pic.pkts == [[k]]) = true := by
  unfold PairFrame FrameComes
  decide +kernel

/-! ### Power -/

/-- At operating point `k`, 10^10 ticks on. -/
def zPm (k : Nat) : State := { zState.fset A.pmOp A.pmOp_current k with tb := { zState.tb with n := 10 ^ 10 } }
def zPw (k : Nat) (f : Power → Power) : State := { zPm k with power := f (zPm k).power }

theorem test_wit_caps :
    pmOn (zPm 3) = true ∧ effCap (zPm 3) = 260 ∧
      post (exec (.capSet 100) (zPm 3)) (fun t => t.events.map Event.type == [0x403] && effCap t == 210) = true ∧
      post (exec .capLeaseExpired (zPw 3 fun p => { p with leaseUntil := some 5 })) (fun t => t.events.map Event.type == [0x404]) = true ∧
      post (exec (.warnAssert true) (zPm 3)) (fun t => t.power.warnCool && t.events.map Event.payload == [2]) = true ∧
      post (exec (.warnClear false) (zPw 3 fun p => { p with warnShelf := true })) (fun t => t.power.holdShelf.isSome) = true ∧
      post (exec (.warnHoldExpiry false) (zPw 3 fun p => { p with holdShelf := some 7 })) (fun t => t.power.holdShelf.isNone) = true ∧
      post (exec (.capLoop 2800) (zPm 3)) (fun t => t.events.map Event.payload == [20] && t.power.capPoint == 2) = true ∧
      post (exec (.capLoop 2600) ((zPm 3).fset A.pmStatus A.pmStatus_capLag 1)) (fun t => t.events.map Event.type == [0x402]) = true := by
  decide +kernel

/-- Station 0 decodes (phase 2), its loop value 3; FLOOR 1, CEIL 5, PREF 4. -/
def zPh2 : State :=
  (((zPm 3).setReg (A.pmStationPhase 0) 2).setReg (A.pmPhase 2) (4 + 1 * 16 + 5 * 256)).fset (A.pmPhaseState 2) A.pmPhaseState_value 3
theorem test_wit_phases :
    phaseHasEngine zPh2 2 = true ∧ phaseHasEngine zPh2 1 = false ∧ zPh2.flag (A.pmPhase 2) A.pmPhase_pin = false ∧
      zPh2.power.windowAt + max 100 (zPh2.fget A.pmLoopCtl A.pmLoopCtl_windowUs) * 100 ≤ zPh2.tb.n ∧
      post (exec (.phaseWindow [0, 0, 255]) zPh2) (fun t => t.fget (A.pmPhaseState 2) A.pmPhaseState_value == 4) = true ∧
      post (exec (.phaseWindow [0, 0, 0]) zPh2) (fun t => t.fget (A.pmPhaseState 2) A.pmPhaseState_value == 2) = true ∧
      post (exec (.phaseWindow []) (zPh2.fset (A.pmPhase 2) A.pmPhase_pin 1)) (fun t =>
        t.fget (A.pmPhaseState 2) A.pmPhaseState_value == 4) = true ∧
      post (exec (.pmStationPhase .firmware 0 0xA2) zPh2) (fun t => t.reg (A.pmStationPhase 0) == 0x22 &&
        t.fget (A.pmPhaseState 2) A.pmPhaseState_stations == 2) = true := by decide +kernel

theorem test_wit_points :
    lld (zPm 3) = 3 ∧ throttleC (zPm 3) = 100 ∧ hystC (zPm 3) = 5 ∧
      post (exec .opStepDone (zPw 3 fun p => { p with stepTo := some 4 })) (fun t => opNow t == 4 && t.events.length == 1) = true ∧
      post (exec (.droop 9) (zPm 3)) (fun t => t.power.droopOn && t.events.map Event.payload == [9]) = true ∧
      post (exec .droopClear (zPm 3)) (fun t => !t.power.droopOn) = true ∧
      post (exec (.thermalSample 101 30) (zPw 3 fun p => { p with thermal := 6 })) (fun t => t.power.thermal == 5 &&
        t.events.map Event.payload == [101 + 5 * 256]) = true ∧
      post (exec (.thermalSample 97 46) (zPw 3 fun p => { p with thermal := 6 })) (fun t => t.power.thermal == 6 &&
        t.events.map Event.type == [0x40C]) = true ∧
      post (exec (.thermalSample 90 30) (zPw 3 fun p => { p with thermal := 5 })) (fun t => t.power.thermal == 6) = true ∧
      post (exec .thermalTrip (zPm 3)) (fun t => !t.pins.thermTripN && safe t && !dieOn t) = true ∧
      post (exec .alert (zPm 3)) (fun t => opNow t == 0 && t.events.map Event.type == [0x407, 0x400]) = true ∧
      post (exec .alert ((zPm 3).fset A.pmStatus A.pmStatus_lld 1)) (fun t => opNow t == 3 && safe t) = true ∧
      post (exec .alertClear (zPw 0 fun p => { p with alertOn := true, alertClr := some 5 })) (fun t =>
        t.events.map Event.type == [0x408]) = true := by decide +kernel

/-! ### Power states -/

def zTh (st : SleepState) : State :=
  { zState.fset A.ledgerStatus A.ledgerStatus_idle 1 with
    tb := { zState.tb with n := 10 ^ 6 }, thimble := { zState.thimble with state := st, ticks := 1000 } }
def zWk (st : SleepState) : State :=
  (((zTh st).setReg A.thimbleWakeCtl 12).setReg A.thimbleWakeCfg (3 + 7 * 16)).setReg A.thimbleRestoreCtl 0

theorem test_wit_sleep :
    sleepRefusal (zTh .run) = none ∧ sleepRefusal ((zTh .run).fset A.pairCtl A.pairCtl_en 1) = some 1 ∧ dieOn (zTh .run) = true ∧
      (zTh .run).frozen = false ∧ (zTh .run).stopAt = none ∧
      post (exec (.dozeRequest .firmware) (zTh .run)) (fun t => t.thimble.state == .dozeWait) = true ∧
      post (exec (.watchRequest .firmware) ((zTh .run).fset A.pairCtl A.pairCtl_en 1)) (fun t => t.events.map Event.payload == [1]) = true ∧
      post (exec (.dormantRequest .firmware) (zTh .run)) (fun t => t.thimble.state == .entering true &&
        t.events.map Event.payload == [4]) = true ∧
      post (exec .waitForInterrupt (zTh .dozeWait)) (fun t => t.thimble.state == .doze) = true ∧
      post (exec .dozeExit (zTh .dozeExit)) (fun t => t.thimble.state == .run) = true ∧
      post (exec .tickW0 (zTh (.entering true))) (fun t => t.thimble.state == .window true && t.thimble.w0 == 1000) = true ∧
      post (exec .mctpWake (zWk (.entering true))) (fun t => t.thimble.state == .run && t.events.map Event.type == [0x503]) = true ∧
      post (exec .entryWindowEnd (zTh (.window false))) (fun t => t.thimble.state == .watch && !dieOn t) = true ∧
      activePins { zWk (.window true) with thimble := { (zWk (.window true)).thimble with pinLast := 2 } } 1 2 = [1] ∧
      post (exec .entryWindowEnd { zWk (.window true) with thimble := { (zWk (.window true)).thimble with pinLast := 2 } })
        (fun t => t.thimble.state == .waking true) = true := by decide +kernel

theorem test_restore_list :
    let s := (((zTh (.entering false)).setReg A.thimbleRestoreCtl 1).setReg (A.thimbleRestoreAddr 0) (A.loomSqBase 3)).setReg (A.loomSqBase 3) 0x4000
    restoreList s = [(0, A.loomSqBase 3)] ∧ restorable (A.loomSqBase 3) = true ∧
      post (exec .tickW0 s) (fun t => t.reg (A.thimbleRestoreVal 0) == 0x4000) = true := by decide +kernel

theorem test_wit_wake :
    pinCfg (zWk .watch) 0 = 3 ∧ pinCfg (zWk .watch) 1 = 7 ∧ stageState (zWk .watch) ≠ 4 ∧ sampleMatches (zWk .watch) 0 0 = false ∧
      sampleMatches ((zWk .watch).setReg A.thimbleWatchCtl (1 + 2 ^ 16 + 2 ^ 32 + 2 ^ 48)) 1 0 = true ∧
      post (exec (.wakePin 1) (zWk .watch)) (fun t => t.thimble.state == .waking false) = true ∧
      post (exec (.wakePin 2) { zWk .watch with thimble := { (zWk .watch).thimble with pinLast := 2 } }) (fun t =>
        t.thimble.state == .waking false && t.fget A.thimbleSleepStatus A.thimbleSleepStatus_wakeSrc == 2) = true ∧
      post (exec (.wakePin 1) (zWk .run)) (fun t => t.thimble.pinLast == 1) = true ∧
      post (exec .mctpWake (zWk .dormant)) (fun t => t.thimble.state == .waking true) = true ∧
      post (exec .alarm (zWk .watch)) (fun t => t.thimble.state == .waking false) = true ∧
      post (exec (.watchSample 5 20) ((zWk .watch).setReg A.thimbleWatchCtl 1)) (fun t => t.thimble.state == .watch && t.thimble.sampleAt == 1000) = true ∧
      post (exec (.watchSample 1 20) ((zWk .watch).setReg A.thimbleWatchCtl (1 + 2 ^ 16 + 2 ^ 32 + 2 ^ 48))) (fun t =>
        t.thimble.state == .waking false) = true ∧
      post (exec (.wake true) (zWk (.waking true))) (fun t => t.thimble.state == .run && t.events.map Event.type == [0x501]) = true ∧
      post (exec (.wake false) (zWk (.waking true))) (fun t => t.store.starting == some true &&
        t.fget A.cfgStartStatus A.cfgStartStatus_cause == 7) = true ∧
      post (exec (.selvageRelease .firmware 3) ((zTh .run).fset A.thimbleSelvage A.thimbleSelvage_held 0x3F)) (fun t =>
        t.fget A.thimbleSelvage A.thimbleSelvage_held == 0x3C && t.pins.lineClkOn) = true := by decide +kernel

/-! ### Partitions and Garnet -/

/-- Partition 2 may be created: PARTITIONED, its key valid; Garnet in state `g`. -/
def zGn (g : Nat) : State :=
  ((zPart zState).fset A.gnPartCfg A.gnPartCfg_mode 1 |>.fset (A.memPartKey 2) A.memPartKey_valid 1).fset A.gnStatus A.gnStatus_state g
def zTd (stage : Nat) : State :=
  { (zGn 2).setReg (A.gnPartCtl 2) 9 with teardowns := [⟨2, 5, stage⟩], tb := { zState.tb with n := 10 ^ 6 } }

theorem test_wit_partition :
    dieOn (zGn 2) = true ∧ (zGn 2).frozen = false ∧ modeAllows (zGn 2) 2 true = true ∧ exclusive (zGn 2) 2 = true ∧
      partState (zGn 2) 2 = 0 ∧ partValid (zGn 2) 2 = false ∧
      post (exec (.partitionCreate .firmware 2 3) (zGn 2)) (fun t => partValid t 2 && confidential t 2 && partState t 2 == 1) = true ∧
      post (exec (.partitionCreate .firmware 3 1) (zGn 2)) (fun t => t.flag A.gnPartCfg A.gnPartCfg_err) = true ∧
      post (exec (.partitionCreate .firmware 2 2) (zGn 2)) (fun t => t.flag (A.gnPartCtl 2) A.gnPartCtl_confidential) = true ∧
      post (exec (.teardown .firmware 2) { zTd 0 with teardowns := [] }) (fun t => t.teardowns == [⟨2, 10 ^ 6, 0⟩]) = true := by
  decide +kernel

theorem test_wit_teardown :
    (∀ st, st < 48 → straggling (zTd 1) 2 st = false) ∧ drained (zTd 1) 2 = true ∧
      post (exec (.stragglerTimeout 2) (zTd 1)) (fun t => t.flag (A.gnPartCtl 2) A.gnPartCtl_fencedStragglers) = true ∧
      post (exec (.drainDone 2) (zTd 1)) (fun t => t.teardowns == [⟨2, 5, 2⟩] && !t.flag (A.memPartKey 2) A.memPartKey_valid &&
        t.fget (A.wpPart 0 2) A.wpPart_epoch == 2) = true ∧
      post (exec (.cleanDone 2) (zTd 2)) (fun t => t.teardowns == [] && !partValid t 2) = true := by decide +kernel

/-- In a pair a teardown waits for the step boundary. -/
theorem test_wit_teardown_in_step :
    inStep (zPar2 (zPr 4 true) true) = true ∧ inStep (zTd 0) = false ∧ (zPar2 (zPr 4 true) true).pair.work = [] ∧
      dieOn (zPar2 (zPr 4 true) true) = true ∧ stepBusy (zPar2 (zPr 4 true) false) = false ∧
      post (exec (.teardown .firmware 2) (zPar2 (zPr 4 true) true)) (fun t => t.teardowns == [] && t.pair.work == [PairWork.teardown 2]) = true ∧
      post (exec (.teardown .firmware 2) (zPar2 (zPr 4 true) false)) (fun t => t.teardowns.length == 1 && t.pair.work == []) = true := by
  decide +kernel

theorem test_wit_attest :
    let r : AttReq := { part := 0, nonce := [], port := 2, session := 1, seq := 1, buf := none }
    mayEmit (zGn 2) = true ∧ paired (zGn 2) = false ∧
      post (exec (.gnAttestReq .firmware 0x2000) (zGn 2)) (fun t => t.attest.length == 1) = true ∧
      post (exec (.gnAttestReq .firmware 0x2000) { zGn 2 with attest := List.replicate 8 r }) (fun t =>
        t.flag A.gnAttestStatus A.gnAttestStatus_overflow) = true ∧
      post (exec .certIssued { zGn 2 with attest := [r] }) (fun t => t.attest == [] && t.issued == 1) = true ∧
      post (exec .certIssued { zGn 2 with attest := [{ r with buf := some (0x2000, 0) }] }) (fun t => t.issued == 1) = true ∧
      post (exec .certIssued { zGn 3 with attest := [r] }) (fun t => t.issued == 0) = true ∧
      post (exec (.gnMeasExtend .firmware (0x2000 + 2 * 2 ^ 48)) (zGn 2)) (fun _ => true) = true := by decide +kernel

theorem test_wit_garnet :
    (zGn 2).store.starting = none ∧
      post (exec (.selftest .firmware) (zGn 2)) (fun t => t.fget A.gnStatus A.gnStatus_state == 1 && safe t) = true ∧
      post (exec (.zeroise .firmware 0x5A00) (zGn 2)) (fun t => t.fget A.gnStatus A.gnStatus_state == 4 && safe t) = true ∧
      post (exec (.tamper 2) (zGn 2)) (fun t => t.fget A.gnTamper A.gnTamper_source == 4 && !t.tampered) = true ∧
      post (exec (.tamper 0) (zGn 2)) (fun t => t.tampered) = true ∧
      post (exec (.healthTestFail 3) (zGn 2)) (fun t => t.fget A.gnStatus A.gnStatus_failTest == 4) = true ∧
      post (exec (.selftestDone none) (zGn 1)) (fun t => t.fget A.gnStatus A.gnStatus_state == 2 &&
        t.flag A.gnStatus A.gnStatus_approved) = true ∧
      post (exec (.selftestDone (some 3)) (zGn 1)) (fun t => t.fget A.gnStatus A.gnStatus_state == 3) = true := by decide +kernel

/-! ### Faults and debug -/

def zFc : State := { zPart zState with tb := { zState.tb with n := 10 ^ 12 } }
def zTest (started failed : Bool) : State :=
  { zFc.setReg A.loomTesting 8 with test := some { station := 3, requested := true, started := started, at_ := 0, failed := failed } }

theorem test_wit_reports :
    collectorOn zFc = true ∧ safe zFc = false ∧ 
      heldGroup (zFc.setReg A.thimbleSelvage 0) 1 = false ∧ reportLevel zFc 5 1 = some 0 ∧ reportLevel zFc 137 3 = some 3 ∧
      post (exec (.faultReport 5 1 3) zFc) (fun t => t.reg (A.fcStatus 0) == 32 && t.events.map Event.type == [0x300]) = true ∧
      post (exec (.faultReport 137 3 0) zFc) (fun t => safe t && t.fget A.fcSummary A.fcSummary_safeSrc == 137) = true ∧
      post (exec (.faultReport 160 3 0) zFc) (fun t => t.fget A.fcSummary A.fcSummary_safeCause == 2) = true ∧
      post (exec (.safeReq .firmware) (zFc.setReg A.thimbleSelvage 0)) (fun t => !t.pins.safeN) = true ∧
      post (exec .collectorFault zFc) (fun t => safe t) = true ∧
      post (exec (.fcInject .firmware 0x389) (zFc.fset A.gnStatus A.gnStatus_factoryMode 1)) (fun t => safe t) = true ∧
      post (exec (.fcStatus .firmware 0 33) ((zFc.setReg (A.fcStatus 0) 35).setReg (A.fcLevel 0) 3)) (fun t =>
        t.reg (A.fcStatus 0) == 2 && t.reg (A.fcLevel 0) == 0) = true := by decide +kernel

theorem test_wit_inservice :
    engineOut zFc 0 = false ∧ passOver zFc 0 = false ∧
      post (exec (.unitResetDone 56) { zFc with resets := [⟨56, false⟩] }) (fun t => t.events.map Event.payload == [56]) = true ∧
      post (exec (.unitResetDone 3) { zFc.setReg A.loomFenced 12 with resets := [⟨3, false⟩] }) (fun t => t.reg A.loomFenced == 4) = true ∧
      post (exec (.unitResetDone 3) { zFc.setReg A.fcRetired 8 with resets := [⟨3, false⟩] }) (fun t => t.resets == []) = true ∧
      post (exec (.unitResetDone 3) { zFc with resets := [⟨3, true⟩] }) (fun t => t.test.isSome) = true ∧
      post (exec .testSchedule { zFc.fset A.fcTestCtl A.fcTestCtl_en 1 with testAt := 0 }) (fun t =>
        t.test.map TestRun.station == some 0) = true ∧
      post (exec (.fcTestReq .firmware 3) zFc) (fun t => t.reg A.loomTesting == 8) = true ∧
      post (exec (.fcTestReq .firmware 48) zFc) (fun t => t.flag A.fcTestStatus A.fcTestStatus_refused) = true ∧
      post (exec .testStart (zTest false false)) (fun t => t.events.map Event.payload == [3 + 256]) = true ∧
      post (exec (.testDone true) (zTest true false)) (fun t => t.reg A.loomTesting == 0 && t.reg A.fcRetired == 0) = true ∧
      post (exec (.testDone true) (zTest true true)) (fun t => t.reg A.fcRetired == 8 && t.reg A.loomFenced == 8) = true ∧
      post (exec (.testDone false) (zTest true false)) (fun t => t.reg A.fcRetired == 8) = true := by decide +kernel

/-- An engine with an open output tile does not begin its test. -/
theorem test_wit_tile_open :
    let s : State := { zTest false false with facets := [(3, { zUnit with handles := [(4, .outTile 0 zTile)] })] }
    tileOpen s 3 = true ∧ collectorOn s = true ∧ post (exec .testStart s) (fun t => t.test == s.test && t.events == []) = true ∧
      tileOpen (zTest false false) 3 = false := by decide +kernel

/-- Station 60 counts for partition 0, tracing and sampling into rings at 64 KiB and 128 KiB. -/
def zDb : State :=
  (((zFc.setReg (A.dbgCntCtl 60) 3).setReg (A.dbgTrcCtl 60) 1).setReg (A.dbgTrcBase 0) (0x10000 + 8 * 2 ^ 48)).setReg (A.dbgSmpBase 0)
    (0x20000 + 6 * 2 ^ 48)
def zRecT : TraceRec := ⟨0, 1, 2, 3, 4⟩
theorem test_wit_debug :
    ftOn zDb = true ∧ ownsBlock zDb .firmware 60 = true ∧ blockPart zDb 60 = some 0 ∧ confidential zDb 0 = false ∧
      smpRing zDb 0 = (0x20000, 64) ∧ trcRing zDb 0 = (0x10000, 256) ∧ trcRoom zDb 0 = true ∧ Writable zDb 0x10000 32 ∧
      Writable zDb 0x20000 128 ∧
      post (exec (.clear .firmware 60) (zDb.setReg (A.dbgCnt 60 2) 9)) (fun t => t.reg (A.dbgCnt 60 2) == 0) = true ∧
      post (exec (.dbgTrcMark .firmware 60 77) zDb) (fun t => (tgetD t.traces 60 []).map TraceRec.w3 == [77]) = true ∧
      post (exec (.traceDrain 60 1) { zDb with traces := [(60, [zRecT])] }) (fun t => readBytes t 0x10000 32 ==
        leBytes 8 1 ++ leBytes 8 2 ++ leBytes 8 3 ++ leBytes 8 4) = true := by decide +kernel

theorem test_wit_sample_tick :
    let s := { (zDb.setReg A.dbgSmpCtl (1 + 10 * 256)).setReg (A.dbgCntCtl 60) 0 with smpLast := 5 }
    s.flag A.dbgSmpCtl A.dbgSmpCtl_en = true ∧ vAt s (s.tb.n - 1) / 2 ^ 32 / smpInterval s < now s / smpInterval s ∧
      post (exec .sampleTick s) (fun t => t.smpCount == s.smpCount + 1) = true := by decide +kernel

def zWd (w : Nat) : State := (zDb.setReg (A.dbgWdCtl w) (1 + 5 * 2 ^ 8 + 2 * 2 ^ 24 + 2 ^ 40))
theorem test_wit_watchdogs :
    wdRuns (zWd 1) 1 = true ∧ notKicked (zWd 1) = [0] ∧ (zWd 1).store.trial = false ∧
      notKicked ((zWd 1).fset (A.dbgWdCtl 1) A.dbgWdCtl_kickMask 5) = [0, 2] ∧
      post (exec (.dbgWdKick .firmware 2) (zWd 2)) (fun t => wdFrom t 2 == 10 ^ 12) = true ∧
      post (exec (.dbgWdKick (.part 0) 1) (zWd 1)) (fun t => wdFrom t 1 == 10 ^ 12 && t.wdKicked == []) = true ∧
      post (exec (.dbgWdKick (.part 2) 1) ((zWd 1).fset (A.dbgWdCtl 1) A.dbgWdCtl_kickMask 5)) (fun t => t.wdKicked == [2]) = true ∧
      post (exec (.wdWarn 2) (zWd 2)) (fun t => t.reg A.dbgWdStatus == 64 && t.out == [.wdIrq 2]) = true ∧
      post (exec (.watchdogExpiry 2) (zWd 2)) (fun t => t.fget A.dbgWdStatus A.dbgWdStatus_expired == 4 &&
        (t.reg (A.fcStatus 2)).testBit 30) = true := by decide +kernel

/-- Every Lode is ready and Garnet OPERATIONAL: a dump to memory at 8 MiB, of at most 1 MiB. -/
def zDump : State :=
  (((List.range 16).foldl (fun s n => s.fset (A.lodeStatus n) A.lodeStatus_ready 1)
    ((zDb.fset A.gnStatus A.gnStatus_state 2).fset A.dbgDumpStatus A.dbgDumpStatus_busy 1)).fset A.dbgDumpBase A.dbgDumpBase_base 0x800000).fset
      A.dbgDumpSize A.dbgDumpSize_mib 1 |>.setReg A.dbgDumpCtl 0
theorem test_wit_dump_memory :
    headerOnly zDump = false ∧ zDump.flag A.dbgDumpCtl A.dbgDumpCtl_autoWarm = false ∧
      Writable zDump (zDump.fget A.dbgDumpBase A.dbgDumpBase_base) 1024 ∧
      post (exec (.dumpDone 1024) zDump) (fun t => t.fget A.dbgDumpStatus A.dbgDumpStatus_kib == 1 &&
        t.flag A.dbgDumpStatus A.dbgDumpStatus_valid && !t.flag A.dbgDumpStatus A.dbgDumpStatus_headerOnly) = true := by decide +kernel

theorem test_wit_dump :
    headerOnly zDb = true ∧
      headerOnly ((List.range 16).foldl (fun s n => s.fset (A.lodeStatus n) A.lodeStatus_ready 1)
        (zDb.fset A.gnStatus A.gnStatus_state 2)) = false ∧
      post (exec (.dumpReq .firmware) zDb) (fun t => t.stopAt == some (10 ^ 12 + 200) && safe t) = true ∧
      post (exec .dump zDb) (fun t => t.fget A.dbgDumpStatus A.dbgDumpStatus_trigger == 3) = true ∧
      post (exec .stopTick { zDb with stopAt := some 5 }) (fun t => t.frozen && t.flag A.dbgDumpStatus A.dbgDumpStatus_busy) = true ∧
      post (exec .stopTick { zDb.setReg A.dbgDumpStatus 1 with stopAt := some 5 }) (fun t =>
        t.flag A.dbgDumpStatus A.dbgDumpStatus_skipped) = true ∧
      post (exec (.dumpDone 5000) ((zDb.setReg A.dbgDumpStatus 2).setReg A.dbgDumpCtl 0)) (fun t =>
        t.fget A.dbgDumpStatus A.dbgDumpStatus_kib == 4) = true := by decide +kernel

/-! ### Starts, updates, registers -/

/-- A running module, every line of memory as at reset, with what the Thimble retains good or bad. -/
def zSt (ret : Bool) : State :=
  { (zPart zState).setReg A.fcRetired 8 with
    thimble := { zState.thimble with retOk := ret, srOk := true }, tb := { zState.tb with n := 10 ^ 12, v0 := 10 ^ 13 }
    store := { zState.store with coldAct := true }, keysOk := true }
def zAct : State := ((zSt true).fset A.cfgStageStatus A.cfgStageStatus_state 4).setReg A.cfgActivateAt 5
def zBegun (gn : Nat) : State :=
  { (zSt true).fset A.gnStatus A.gnStatus_state gn with store := { (zSt true).store with starting := some true } }

theorem test_wit_starts :
    MemInv (zSt true) ∧ (zSt true).flag A.dbgDumpStatus A.dbgDumpStatus_busy = false ∧ (zSt true).power.tripped = false ∧
      dieOn (zSt true) = true ∧ activationDue zAct = true ∧ zAct.store.mark = 0 ∧ zAct.keysOk = true ∧
      zAct.stopAt = none ∧ zAct.frozen = false ∧ manufactureReads zAct zAct.store.coldAct = true ∧ (stagedImage zAct).valid = false ∧
      post (exec (.warmReq ⟨.firmware, []⟩) (zSt true)) (fun t => t.store.starting == some false &&
        t.fget A.cfgStartStatus A.cfgStartStatus_cause == 3 && t.reg A.fcRetired == 8 && now t == now (zSt true)) = true ∧
      post (exec (.coldReq ⟨.firmware, []⟩) (zSt true)) (fun t => t.fget A.cfgStartStatus A.cfgStartStatus_cause == 2 && now t == 0 &&
        t.reg A.fcRetired == 0) = true ∧
      post (exec (.reset false) (zSt false)) (fun t => t.fget A.cfgStartStatus A.cfgStartStatus_cause == 8) = true ∧
      post (exec (.reset true) (zSt true)) (fun t => t.fget A.cfgStartStatus A.cfgStartStatus_cause == 6) = true ∧
      post (exec .activation zAct) (fun t => t.fget A.cfgStartStatus A.cfgStartStatus_cause == 5 && stageState t == 5) = true ∧
      post (exec .trialTimeout { zSt true with store := { (zSt true).store with trial := true } }) (fun t =>
        t.fget A.cfgStartStatus A.cfgStartStatus_cause == 9) = true ∧
      post (exec (.warmReq ⟨.firmware, []⟩) (zBegun 2)) (fun t => t.store.startCount == (zBegun 2).store.startCount) = true := by
  unfold MemInv
  decide +kernel

theorem test_wit_start_ends :
    (zBegun 2).store.noImage = false ∧
      post (exec (.confirm .firmware) { zSt true with store := { (zSt true).store with trial := true } }) (fun t => !t.store.trial) = true ∧
      post (exec .startComplete (zBegun 2)) (fun t => t.flag A.cfgStartStatus A.cfgStartStatus_ready && t.store.starting.isNone && t.pins.safeN) = true ∧
      safe (zBegun 2) = false ∧ heldGroup (zBegun 2) 1 = false ∧
      post (exec .startComplete (zBegun 3)) (fun t => !t.flag A.cfgStartStatus A.cfgStartStatus_ready) = true ∧
      post (exec .startComplete { zBegun 2 with store := { (zBegun 2).store with noImage := true } }) (fun t =>
        t.store.starting.isNone) = true ∧
      post (exec (.coldReq ⟨.firmware, [(0, 4)]⟩) (zSt true)) (fun t => t.store.noImage && t.flag A.cfgStoreErr A.cfgStoreErr_dev0Fail &&
        !t.pins.safeN && t.fget A.cfgStoreErr A.cfgStoreErr_readRetry == 3) = true ∧
      post (exec .vin54Loss { zSt true with pins := { (zSt true).pins with safeN := false } }) (fun t => !dieOn t && t.pins.safeN) = true ∧
      manufactureReads zAct true = true ∧ (zSt true).store.powered = true := by decide +kernel

/-- A management session 4 on port 2; the staging area in state `st`. -/
def zUps (st : Nat) : State :=
  { zNet.fset A.cfgStageStatus A.cfgStageStatus_state st with sessions := [(4, { zSess with mgmt := true })] }
def zUh : CtlHdr := zHdr 0x0C 4 2 0
def zFw (off : Nat) (flags : Nat) (d : List Byte) : FwBody := { offset := off, len := d.length, op := 1, flags := flags, time := 10 ^ 10, data := d }
def zBlock : List Byte := List.replicate 8 0 ++ [12, 0, 0, 0]
def zSets : State := { zUps 0 with store := { (zUps 0).store with settings := [(0, zBlock)] } }

theorem test_wit_update :
    FreshFrame (zUps 0) 2 zUh { zSess with mgmt := true } 1 0 ∧ FreshFrame zNet 0 (zHdr 0x0C 4 2 0) zSess 1 0 ∧
      blockStatus (zUps 0) (zFw 0 0 (List.replicate 4096 3)) = 0 ∧ blockStatus (zUps 0) (zFw 0 1 zBlock) = 0 ∧
      imageStatus (zUps 2) (stageBytes (zUps 2).store.staging) = 22 ∧ targetDone zSets true = true ∧ now (zUps 3) + 10 ^ 9 ≤ 10 ^ 10 := by
  unfold FreshFrame
  decide +kernel

theorem test_wit_update_runs :
    post (exec (.fwData 2 zUh (zFw 0 0 (List.replicate 4096 3))) (zUps 0)) (fun t => stageState t == 1) = true ∧
      post (exec (.fwData 2 zUh { zFw 0 0 (List.replicate 4096 3) with fails := true }) (zUps 0)) (fun t => t.store.staging == [] &&
        (t.reg (A.fcStatus 2)).testBit 27 && t.fget A.cfgStageStatus A.cfgStageStatus_result == 22) = true ∧
      post (exec (.fwData 2 zUh (zFw 0 0 zBlock)) (zUps 3)) (fun t => t.fget A.cfgStageStatus A.cfgStageStatus_result == 16) = true ∧
      post (exec (.fwVerify 2 zUh (zFw 0 0 [])) (zUps 2)) (fun t => stageState t == 5) = true ∧
      post (exec (.fwVerify 2 zUh (zFw 0 1 [])) zSets) (fun t => t.store.settings == [] &&
        t.fget A.cfgStageStatus A.cfgStageStatus_result == 24) = true ∧
      post (exec (.fwDiscard 2 zUh (zFw 0 0 [])) (zUps 3)) (fun t => stageState t == 5) = true ∧
      post (exec (.fwActivate 2 zUh (zFw 0 2 [])) ((zUps 3).fset A.tbStatus A.tbStatus_state 2)) (fun t => stageState t == 4 &&
        t.reg A.cfgActivateAt == 10 ^ 10) = true ∧
      post (exec (.fwActivate 2 zUh { zFw 0 2 [] with time := 5 }) (zUps 3)) (fun t =>
        t.fget A.cfgStageStatus A.cfgStageStatus_result == 23) = true ∧
      post (exec (.fwCancel 2 zUh (zFw 0 0 [])) (zUps 4)) (fun t => stageState t == 3) = true ∧
      post (exec (.fwStatus 2 zUh (zFw 0 0 [])) (zUps 4)) (fun t => t.out.length == 1) = true ∧
      post (exec (.fwCancel 0 (zHdr 0x0C 4 2 0) (zFw 0 0 [])) zNet) (fun t => t.out.length == 1 && stageState t == stageState zNet) = true ∧
      post (exec (.eraseDone true) (zUps 5)) (fun t => stageState t == 0) = true ∧
      post (exec (.eraseDone false) (zUps 5)) (fun t => stageState t == 5 && (t.reg (A.fcStatus 2)).testBit 27) = true := by
  decide +kernel

/-- EA_LOG_HEAD has no command of its own; EA_STATUS.1 is cleared by a 1; CE_FLAGS of station 0 holds an RC field. -/
theorem test_wit_registers :
    let s := zPart zState
    ftOn s = true ∧ mayWrite s .firmware A.eaLogHead = true ∧ (ownWriteA .firmware A.eaLogHead 7 s).isNone = true ∧
      (ownWriteB .firmware A.eaLogHead 7 s).isNone = true ∧ (ownWriteC .firmware A.eaLogHead 7 s).isNone = true ∧
      writeOpen s A.eaLogHead = true ∧ commandBits A.eaLogHead = 0 ∧ (findReg (homeAddr A.eaLogHead)).isSome = true ∧
      post (exec (.registerWrite .firmware A.eaLogHead 7) s) (fun t => t.reg A.eaLogHead == 7) = true ∧
      post (exec (.registerWrite (.part 0) A.eaLogHead 7) s) (fun t => t.reg A.eaLogHead == s.reg A.eaLogHead) = true ∧
      post (exec (.rcRead .firmware A.spMaskWait) (s.setReg A.spMaskWait 9)) (fun t => t.busData == leBytes 8 9 &&
        t.reg A.spMaskWait == 0) = true ∧
      mayRead s (.part 3) A.eaLogHead = false ∧ hiddenReg s .firmware A.spMaskWait = false := by decide +kernel

theorem test_wit_events_of_registers :
    let im : Image :=
      { part := 0, bytes := 64, ttl := 5, doneAt := 0, complete := false, aged := 0, gen := 0, words := [], pages := [],
        tokens := [], entry := [], loop := SampSeq.empty }
    let s : State := { zFc.fset A.gnStatus A.gnStatus_state 2 with coldQ := [{ req := 9, resume := false, ready := true }], images := [(9, im)] }
    post (exec (.portLinkUp 1 true) s) (fun t => t.flag (portBase 1 + 0x10) A.nxStatus_linkUp) = true ∧
      post (exec (.gateControlListLoad 0) (s.fset (A.nxQbvCtl 0) A.nxQbvCtl_pending 1)) (fun t =>
        !t.flag (A.nxQbvCtl 0) A.nxQbvCtl_pending) = true ∧
      post (exec (.clockGating 5) s) (fun t => t.gated == [5]) = true ∧
      post (exec (.imageComplete 9) s) (fun t => t.coldBytes == s.coldBytes + 64 && t.coldQ == []) = true := by decide +kernel

/-! ### The whole machine -/

theorem test_wit_reset :
    effCap State.reset = 260 ∧ opNow State.reset = 0 ∧ now State.reset = 0 ∧ MemInv State.reset ∧ throttleC State.reset = 100 ∧
      lld State.reset = 3 ∧ safe State.reset = false := by
  unfold MemInv
  decide +kernel

theorem test_wit_step :
    MemInv { zState with pending := [.clear .firmware 3] } ∧ (zRun (zCmd 0 5 58)).facets = [] ∧
      post (step { zState with pending := [.clear .firmware 3] }) (fun t => t.pending == []) = true ∧
      post (exec (.tamper 0) zState) (fun t => t.tampered && t.serial == zState.serial) = true := by
  unfold MemInv
  decide +kernel

/-! ### Ill-formed commands, one for each check -/

def yFi : FIns := ⟨0, 0, 0, 0, false, false, 0⟩
def yOp : OpRec := ⟨0, 0, 0, 0, 0, 0⟩
def yH : CtlHdr := ⟨0, 0, 0, 0, 0, 0, 0, 0, 0⟩
def yWf : WarpFrame := ⟨0, 0, false, 0, 0, 0, 0, [], true⟩
def yEth : EthFrame := ⟨64, false, 0, 0, 0, none, true, .other⟩
def yMr : MemReq := ⟨0, .firmware, none, 0, 1⟩
def ySb : SubmitBody := ⟨0, 0, 0, 0, 0, 0, 0, 0⟩
def yOb : OpenBody := ⟨0, 0, 0, 0, 0, 0, 0, 0⟩
def yFb : FwBody := ⟨0, 0, 0, 0, 0, [], false⟩
def yId : IdentRec := ⟨0, 0, 0, 0, 0, false, false, 0, 0, 0, 0, 0, 0⟩
def yIm : IdentMsg := ⟨yId, []⟩
def yLr : LeaseRec := ⟨0, 0, 0, 0, 0, false, 0⟩
def yObs : MemObs := .clean
def yPlb : PairLeaseBody := ⟨0, 0, 0, 0, 0, false, []⟩
def yRi : RdmaResp := .ack 0

/-- What the ill-formed commands are built from is itself well formed. -/
theorem test_smoke_parts_well_formed :
    (Instr.loomSqTail .firmware 0 0).wf = true ∧ yOp.wf = true ∧ yH.wf = true ∧ yWf.wf = true ∧ yEth.wf = true ∧ yMr.wf = true ∧
      ySb.wf = true ∧ yOb.wf = true ∧ yFb.wf = true ∧ yIm.wf = true ∧ yLr.wf = true := by decide +kernel

theorem test_ill_formed_0 :
  ([
    .loomSqTail (.part 8) 0 0, .loomSqTail .firmware 64 0, .loomSqTail .firmware 0 (2 ^ 16), .loomSqBase (.part 8) 0 0,
    .loomSqBase .firmware 64 0, .loomSqBase .firmware 0 (2 ^ 48), .loomSqCtl (.part 8) 0 0, .loomSqCtl .firmware 64 0,
    .loomSqCtl .firmware 0 (2 ^ 64), .dispatch 64 0, .dispatch 0 2, .tileSend 0 2, .tileArrive 0 4, .creditReturn 0 4,
    .loomAbort (.part 8) 0, .loomAbort .firmware (2 ^ 64), .completionRecordWrite 64, .hcTaskDone (.part 8) 0 0 0,
    .hcTaskDone .firmware 2 0 0, .hcTaskDone .firmware 0 (2 ^ 32) 0, .hcTaskDone .firmware 0 0 (2 ^ 8), .facetNop 48 yFi,
    .halt 48 yFi, .br 48 yFi, .bez 48 yFi, .bnz 48 yFi, .loop 48 yFi, .sadd 48 yFi, .ssub 48 yFi, .smul 48 yFi, .sand 48 yFi,
    .sor 48 yFi, .sxor 48 yFi, .sshl 48 yFi, .sshr 48 yFi] : List Instr).all (fun c => !c.wf) = true := by decide +kernel

theorem test_ill_formed_1 :
  ([
    .ssra 48 yFi, .sslt 48 yFi, .ssltu 48 yFi, .smin 48 yFi, .smax 48 yFi, .movi 48 yFi, .vadd 48 yFi, .vsub 48 yFi,
    .vmul 48 yFi, .vfma 48 yFi, .vmin 48 yFi, .vmax 48 yFi, .vabs 48 yFi, .vneg 48 yFi, .vdiv 48 yFi, .vsqrt 48 yFi,
    .vcvtfi 48 yFi, .vcvtif 48 yFi, .vmov 48 yFi, .vsel 48 yFi, .viadd 48 yFi, .visub 48 yFi, .vimul 48 yFi, .vand 48 yFi,
    .vor 48 yFi, .vxor 48 yFi, .vshl 48 yFi, .vshr 48 yFi, .vsra 48 yFi, .vimin 48 yFi, .vimax 48 yFi, .vceq 48 yFi,
    .vclt 48 yFi, .vcle 48 yFi, .vcun 48 yFi] : List Instr).all (fun c => !c.wf) = true := by decide +kernel

theorem test_ill_formed_2 :
  ([
    .viceq 48 yFi, .viclt 48 yFi, .pand 48 yFi, .por 48 yFi, .pxor 48 yFi, .pnot 48 yFi, .planes 48 yFi, .exp 48 yFi,
    .exp2 48 yFi, .log 48 yFi, .log2 48 yFi, .recip 48 yFi, .rsqrt 48 yFi, .sigmoid 48 yFi, .tanh 48 yFi, .erf 48 yFi,
    .geluTanh 48 yFi, .geluErf 48 yFi, .silu 48 yFi, .vrsum 48 yFi, .vrmax 48 yFi, .vrmin 48 yFi, .vriadd 48 yFi,
    .vbcast 48 yFi, .vext 48 yFi, .vslide 48 yFi, .vidx 48 yFi, .vperm 48 yFi, .vld 48 yFi, .vst 48 yFi, .vldt 48 yFi,
    .vstt 48 yFi, .twait 48 yFi, .trel 48 yFi, .topen 48 yFi] : List Instr).all (fun c => !c.wf) = true := by decide +kernel

theorem test_ill_formed_3 :
  ([
    .temit 48 yFi, .seqOpen 8 yOp 0, .seqOpen 0 { yOp with op := 256 } 0, .seqOpen 0 yOp (2 ^ 48), .seqClose 8 yOp 0,
    .seqClose 0 { yOp with op := 256 } 0, .seqClose 0 yOp (2 ^ 48), .share 8 yOp 0, .share 0 { yOp with op := 256 } 0,
    .share 0 yOp (2 ^ 48), .drop 8 yOp 0, .drop 0 { yOp with op := 256 } 0, .drop 0 yOp (2 ^ 48), .cow 8 yOp 0,
    .cow 0 { yOp with op := 256 } 0, .cow 0 yOp (2 ^ 48), .pin 8 yOp 0, .pin 0 { yOp with op := 256 } 0, .pin 0 yOp (2 ^ 48),
    .unpin 8 yOp 0, .unpin 0 { yOp with op := 256 } 0, .unpin 0 yOp (2 ^ 48), .resolve 8 yOp 0,
    .resolve 0 { yOp with op := 256 } 0, .resolve 0 yOp (2 ^ 48), .tick 8 yOp 0, .tick 0 { yOp with op := 256 } 0,
    .tick 0 yOp (2 ^ 48), .noevict 8 yOp 0, .noevict 0 { yOp with op := 256 } 0, .noevict 0 yOp (2 ^ 48), .kvopQuery 8 yOp 0,
    .kvopQuery 0 { yOp with op := 256 } 0, .kvopQuery 0 yOp (2 ^ 48), .alloc 8 yOp 0] : List Instr).all (fun c => !c.wf) = true := by decide +kernel

theorem test_ill_formed_4 :
  ([
    .alloc 0 { yOp with op := 256 } 0, .alloc 0 yOp (2 ^ 48), .decref 8 yOp 0, .decref 0 { yOp with op := 256 } 0,
    .decref 0 yOp (2 ^ 48), .flush (2 ^ 14) 0, .flush 0 (2 ^ 16), .ledgerClassValid (.part 8) 0 0,
    .ledgerClassValid .firmware 16 0, .ledgerClassValid .firmware 0 (2 ^ 64), .groupCancel 8 yOp 0,
    .groupCancel 0 { yOp with op := 256 } 0, .groupCancel 0 yOp (2 ^ 48), .groupClear 8 yOp 0,
    .groupClear 0 { yOp with op := 256 } 0, .groupClear 0 yOp (2 ^ 48), .seqReset 8 yOp 0,
    .seqReset 0 { yOp with op := 256 } 0, .seqReset 0 yOp (2 ^ 48), .seqLoop 8 yOp 0, .seqLoop 0 { yOp with op := 256 } 0,
    .seqLoop 0 yOp (2 ^ 48), .seqQuery 8 yOp 0, .seqQuery 0 { yOp with op := 256 } 0, .seqQuery 0 yOp (2 ^ 48),
    .memoryRead { yMr with len := 0 } yObs, .memoryWrite { yMr with len := 0 } [] yObs, .lodeScrub 20 yObs, .lodeCal 16,
    .memRegionWrite (.part 8) 0 false 0, .memRegionWrite .firmware 64 false 0, .memRegionWrite .firmware 0 false (2 ^ 64),
    .memPartKey (.part 8) 0 0, .memPartKey .firmware 8 0, .memPartKey .firmware 0 (2 ^ 64)] : List Instr).all (fun c => !c.wf) = true := by decide +kernel

theorem test_ill_formed_5 :
  ([
    .retire (.part 8) 0, .retire .firmware 16, .vchanOpen 2 0 yOp 0, .vchanOpen 0 8 yOp 0,
    .vchanOpen 0 0 { yOp with op := 256 } 0, .vchanOpen 0 0 yOp (2 ^ 48), .vchanClose 2 0 yOp 0, .vchanClose 0 8 yOp 0,
    .vchanClose 0 0 { yOp with op := 256 } 0, .vchanClose 0 0 yOp (2 ^ 48), .keypic 2 0 yOp 0, .keypic 0 8 yOp 0,
    .keypic 0 0 { yOp with op := 256 } 0, .keypic 0 0 yOp (2 ^ 48), .vchanQuery 2 0 yOp 0, .vchanQuery 0 8 yOp 0,
    .vchanQuery 0 0 { yOp with op := 256 } 0, .vchanQuery 0 0 yOp (2 ^ 48), .packetTake 2 0, .packetTake 0 40,
    .pictureComplete 2 0, .pictureComplete 0 40, .fwTimeout 2 0, .fwTimeout 0 40, .frameReceive 3 yEth,
    .frameReceive 0 { yEth with pcp := 8 }, .classify 3 0, .classify 0 8, .rdmaResponse 1024 yRi, .rdmaRetryTimeout 1024,
    .congestionNotification 1024, .rateIncrease 1024, .openSession 3 yH yOb, .openSession 0 { yH with magic := 2 ^ 16 } yOb,
    .openSession 0 yH { yOb with ringLog2 := 256 }] : List Instr).all (fun c => !c.wf) = true := by decide +kernel

theorem test_ill_formed_6 :
  ([
    .closeSession 3 yH, .closeSession 0 { yH with magic := 2 ^ 16 }, .submit 3 yH ySb,
    .submit 0 { yH with magic := 2 ^ 16 } ySb, .submit 0 yH { ySb with w0 := 2 ^ 64 }, .ack 3 yH,
    .ack 0 { yH with magic := 2 ^ 16 }, .cancel 3 yH 0, .cancel 0 { yH with magic := 2 ^ 16 } 0, .pause 3 yH 0 0,
    .pause 0 { yH with magic := 2 ^ 16 } 0 0, .pause 0 yH 0 (2 ^ 32), .resume 3 yH 0, .resume 0 { yH with magic := 2 ^ 16 } 0,
    .inventory 3 yH, .inventory 0 { yH with magic := 2 ^ 16 }, .attestCert 3 yH [],
    .attestCert 0 { yH with magic := 2 ^ 16 } [], .sessionState 3 yH, .sessionState 0 { yH with magic := 2 ^ 16 },
    .dumpRead 3 yH 0, .dumpRead 0 { yH with magic := 2 ^ 16 } 0, .dumpRead 0 yH (2 ^ 32), .fwData 3 yH yFb,
    .fwData 0 { yH with magic := 2 ^ 16 } yFb, .fwData 0 yH { yFb with op := 256 }, .fwVerify 3 yH yFb,
    .fwVerify 0 { yH with magic := 2 ^ 16 } yFb, .fwVerify 0 yH { yFb with op := 256 }, .fwActivate 3 yH yFb,
    .fwActivate 0 { yH with magic := 2 ^ 16 } yFb, .fwActivate 0 yH { yFb with op := 256 }, .fwCancel 3 yH yFb,
    .fwCancel 0 { yH with magic := 2 ^ 16 } yFb, .fwCancel 0 yH { yFb with op := 256 }] : List Instr).all (fun c => !c.wf) = true := by decide +kernel

theorem test_ill_formed_7 :
  ([
    .fwDiscard 3 yH yFb, .fwDiscard 0 { yH with magic := 2 ^ 16 } yFb, .fwDiscard 0 yH { yFb with op := 256 },
    .fwStatus 3 yH yFb, .fwStatus 0 { yH with magic := 2 ^ 16 } yFb, .fwStatus 0 yH { yFb with op := 256 },
    .pairLease 3 yH yPlb, .pairLease 0 { yH with magic := 2 ^ 16 } yPlb, .strobe (2 ^ 16) false 0, .strobe 0 false (2 ^ 64),
    .tagAnnouncement (2 ^ 16), .verdictWrite 8 0 0, .verdictWrite 0 (2 ^ 16) 0, .verdictWrite 0 0 (2 ^ 64),
    .trigEdge 16 false 0, .trigEdge 0 false (2 ^ 64), .trigAccept 16, .lineTrigPop (.part 8), .tbAdj (.part 8) 0,
    .tbAdj .firmware (2 ^ 64), .tbRate (.part 8) 0, .tbRate .firmware (2 ^ 64), .linkEnable (.part 8) 0 0,
    .linkEnable .firmware 8 0, .linkEnable .firmware 0 (2 ^ 64), .retrain (.part 8) 0, .retrain .firmware 8,
    .recal (.part 8) 0, .recal .firmware 8, .fecLock 8 0, .fecLock 0 (2 ^ 64), .fecLockTimeout 8, .calibDone 8 false,
    .ident 8 yIm, .ident 0 ⟨{ yId with module_ := 64 }, []⟩, .ident 0 ⟨yId, List.replicate 33 0⟩] : List Instr).all (fun c => !c.wf) = true := by decide +kernel

theorem test_ill_formed_8 :
  ([
    .failedRetry 8, .linkLoss 8, .opticsSample 8 0 0, .opticsSample 0 (2 ^ 16) 0, .opticsSample 0 0 (2 ^ 16), .data 8 yWf,
    .data 0 { yWf with src := 64 }, .credit 8 yWf, .credit 0 { yWf with src := 64 }, .cmd 8 yWf, .cmd 0 { yWf with src := 64 },
    .cpl 8 yWf, .cpl 0 { yWf with src := 64 }, .arrive 8 yWf 0 0 false false, .arrive 0 { yWf with src := 64 } 0 0 false false,
    .arrive 0 yWf (2 ^ 16) 0 false false, .arrive 0 yWf 0 (2 ^ 64) false false, .release 8 yWf 0 false,
    .release 0 { yWf with src := 64 } 0 false, .release 0 yWf (2 ^ 16) false, .warpAck 8 0, .warpAck 0 (2 ^ 64), .warpNak 8 0,
    .warpNak 0 (2 ^ 64), .keyUpdate 8 yWf, .keyUpdate 0 { yWf with src := 64 }, .partEpoch 8 yWf 0 0,
    .partEpoch 0 { yWf with src := 64 } 0 0, .partEpoch 0 yWf 8 0, .partEpoch 0 yWf 0 (2 ^ 32), .barrierTimeout (2 ^ 16),
    .lease 8 yWf yLr, .lease 0 { yWf with src := 64 } yLr, .lease 0 yWf { yLr with left := 2 ^ 32 }, .journal 8 yWf 0 []] : List Instr).all (fun c => !c.wf) = true := by decide +kernel

theorem test_ill_formed_9 :
  ([
    .journal 0 { yWf with src := 64 } 0 [], .journalConfirm 8 yWf 0, .journalConfirm 0 { yWf with src := 64 } 0,
    .decision 8 yWf 0 0 [], .decision 0 { yWf with src := 64 } 0 0 [], .decisionConfirm 8 yWf 0,
    .decisionConfirm 0 { yWf with src := 64 } 0, .pktFetch 8 yWf 0 0 [], .pktFetch 0 { yWf with src := 64 } 0 0 [],
    .pktFetch 0 yWf 2 0 [], .pktFetch 0 yWf 0 64 [], .pktData 8 yWf 0 0 0 none, .pktData 0 { yWf with src := 64 } 0 0 0 none,
    .pktData 0 yWf 2 0 0 none, .pktData 0 yWf 0 64 0 none, .pktData 0 yWf 0 0 (2 ^ 16) none, .joinData 8 yWf (.memory 0 []),
    .joinData 0 { yWf with src := 64 } (.memory 0 []), .joinCtl 8 yWf 0 0 0, .joinCtl 0 { yWf with src := 64 } 0 0 0,
    .swap 8 yWf 0, .swap 0 { yWf with src := 64 } 0, .swap 0 yWf (2 ^ 32), .lineRead 8 yWf [],
    .lineRead 0 { yWf with src := 64 } [], .pairHeartbeat (.part 8), .swapReq (.part 8), .capSet (2 ^ 16), .capLoop (2 ^ 16),
    .pmStationPhase (.part 8) 0 0, .pmStationPhase .firmware 4 0, .pmStationPhase .firmware 0 (2 ^ 64), .droop (2 ^ 32),
    .thermalSample (2 ^ 8) 0, .thermalSample 0 (2 ^ 8)] : List Instr).all (fun c => !c.wf) = true := by decide +kernel

theorem test_ill_formed_10 :
  ([
    .dozeRequest (.part 8), .watchRequest (.part 8), .dormantRequest (.part 8), .wakePin (2 ^ 8), .watchSample (2 ^ 16) 0,
    .watchSample 0 (2 ^ 8), .selvageRelease (.part 8) 0, .selvageRelease .firmware 64, .partitionCreate (.part 8) 0 0,
    .partitionCreate .firmware 8 0, .partitionCreate .firmware 0 (2 ^ 64), .teardown (.part 8) 0, .teardown .firmware 8,
    .drainDone 8, .stragglerTimeout 8, .cleanDone 8, .gnMeasExtend (.part 8) 0, .gnMeasExtend .firmware (2 ^ 64),
    .gnAttestReq (.part 8) 0, .gnAttestReq .firmware (2 ^ 48), .selftest (.part 8), .zeroise (.part 8) 0,
    .zeroise .firmware (2 ^ 64), .tamper 4, .healthTestFail 9, .faultReport 161 0 0, .faultReport 0 4 0,
    .faultReport 0 0 (2 ^ 16), .safeReq (.part 8), .unitResetDone 64, .fcTestReq (.part 8) 0, .fcTestReq .firmware 64,
    .fcInject (.part 8) 0, .fcInject .firmware (2 ^ 64), .fcStatus (.part 8) 0 0] : List Instr).all (fun c => !c.wf) = true := by decide +kernel

theorem test_ill_formed_11 :
  ([
    .fcStatus .firmware 4 0, .fcStatus .firmware 0 (2 ^ 64), .clear (.part 8) 0, .clear .firmware 64,
    .dbgTrcMark (.part 8) 0 0, .dbgTrcMark .firmware 64 0, .dbgTrcMark .firmware 0 (2 ^ 64), .dbgWdKick (.part 8) 0,
    .dbgWdKick .firmware 4, .wdWarn 4, .watchdogExpiry 4, .dumpReq (.part 8), .warmReq ⟨.part 8, []⟩,
    .warmReq ⟨.firmware, [(8, 1)]⟩, .coldReq ⟨.part 8, []⟩, .coldReq ⟨.firmware, [(8, 1)]⟩, .dispatch 54 73,
    .confirm (.part 8), .registerWrite (.part 8) 0 0, .registerWrite .firmware (2 ^ 48) 0, .registerWrite .firmware 0 (2 ^ 64),
    .rcRead (.part 8) 0, .rcRead .firmware (2 ^ 48), .lightOnBothLanes 8 false, .portLinkUp 3 false, .gateControlListLoad 2,
    .clockGating 64, .classInitDone 16, .traceDrain 64 0, .traceDrain 0 257] : List Instr).all (fun c => !c.wf) = true := by decide +kernel

/-- One record for each check of the records' fields. -/
theorem test_ill_formed_records :
    ([{ yOp with cls := 16 }, { yOp with lode := 16 }, { yOp with seq := 2 ^ 14 }, { yOp with arg := 2 ^ 32 },
      { yOp with word1 := 2 ^ 64 }] : List OpRec).all (fun x => !x.wf) = true ∧
    ([{ yMr with station := 64 }, { yMr with who := .part 8 }, { yMr with addr := 2 ^ 48 }] : List MemReq).all (fun x => !x.wf) = true ∧
    ([{ yH with verMaj := 256 }, { yH with verMin := 256 }, { yH with type := 2 ^ 16 }, { yH with status := 2 ^ 16 },
      { yH with session := 2 ^ 32 }, { yH with len := 2 ^ 32 }, { yH with frameSeq := 2 ^ 64 }, { yH with ack := 2 ^ 64 }] :
        List CtlHdr).all (fun x => !x.wf) = true ∧
    ([{ yWf with counter := 2 ^ 64 }, { yWf with part := 8 }, { yWf with dst := 64 }, { yWf with chan := 256 },
      { yWf with payload := List.replicate 4097 0 }] : List WarpFrame).all (fun x => !x.wf) = true ∧
    ([{ yEth with vlan := 4096 }, { yEth with srcMac := 2 ^ 48 }, { yEth with len := 2 ^ 16 }] : List EthFrame).all (fun x => !x.wf) = true ∧
    ([{ ySb with w1 := 2 ^ 64 }, { ySb with w2 := 2 ^ 64 }, { ySb with w3 := 2 ^ 64 }, { ySb with w4 := 2 ^ 64 },
      { ySb with w5 := 2 ^ 64 }, { ySb with w6 := 2 ^ 64 }, { ySb with w7 := 2 ^ 64 }] : List SubmitBody).all (fun x => !x.wf) = true ∧
    ([{ yOb with part := 256 }, { yOb with token := 2 ^ 128 }, { yOb with ringAddr := 2 ^ 64 }, { yOb with rkey := 2 ^ 32 },
      { yOb with clientQpn := 2 ^ 24 }] : List OpenBody).all (fun x => !x.wf) = true ∧
    ([{ yFb with offset := 2 ^ 32 }, { yFb with flags := 256 }, { yFb with time := 2 ^ 64 },
      { yFb with data := List.replicate 4097 0 }] : List FwBody).all (fun x => !x.wf) = true ∧
    ([{ yId with serial := 2 ^ 64 }, { yId with link := 8 }, { yId with slot := 64 }, { yId with nonce := 2 ^ 128 },
      { yId with epoch := 2 ^ 32 }] : List IdentRec).all (fun x => !x.wf) = true ∧
    ([{ yLr with serial := 2 ^ 64 }, { yLr with epoch := 2 ^ 32 }, { yLr with left := 2 ^ 32 }, { yLr with time := 2 ^ 64 }] :
        List LeaseRec).all (fun x => !x.wf) = true := by decide +kernel

end Sys2Proof.Tests
end

section
/-! PROOFS. What a write and a read of a register leave, bit by bit, and the events that change registers alone. -/

namespace Sys2Proof.Machine

open Sys2Proof

/-! ### Bits of a number without those of a mask -/

/-- Numbers without a bit in common add without a carry. -/
theorem add_eq_or_of_and_eq_zero {m n : Nat} (h : m &&& n = 0) : m + n = m ||| n := by
  have hlt : m + n < 2 ^ (m + n) := Nat.lt_two_pow_self
  have hand : BitVec.ofNat (m + n) m &&& BitVec.ofNat (m + n) n = 0#(m + n) := by rw [← BitVec.ofNat_and, h]
  have e := congrArg BitVec.toNat (BitVec.add_eq_or_of_and_eq_zero _ _ hand)
  simp only [BitVec.toNat_add, BitVec.toNat_or, BitVec.toNat_ofNat] at e
  rwa [Nat.mod_eq_of_lt (by omega : m < _), Nat.mod_eq_of_lt (by omega : n < _), Nat.mod_eq_of_lt hlt] at e

/-- The masked bits of a number subtracted are those bits cleared. -/
theorem sub_and_eq_ldiff (n m : Nat) : n - (n &&& m) = Nat.ldiff n m := by
  have hdisj : Nat.ldiff n m &&& (n &&& m) = 0 := by
    apply Nat.eq_of_testBit_eq
    intro i
    rw [Nat.testBit_and, Nat.testBit_ldiff, Nat.testBit_and, Nat.zero_testBit]
    cases m.testBit i <;> simp
  have hsum : Nat.ldiff n m + (n &&& m) = n := by
    rw [add_eq_or_of_and_eq_zero hdisj]
    apply Nat.eq_of_testBit_eq
    intro i
    rw [Nat.testBit_or, Nat.testBit_ldiff, Nat.testBit_and, ← Bool.and_or_distrib_left, Bool.not_or_self, Bool.and_true]
  omega

@[simp] theorem testBit_sub_and (n m i : Nat) : (n - (n &&& m)).testBit i = (n.testBit i && !m.testBit i) := by
  rw [sub_and_eq_ldiff, Nat.testBit_ldiff]

/-- The bits of a mask replaced by those of another number. -/
theorem testBit_sub_and_add_and (n m r i : Nat) :
    (n - (n &&& m) + (r &&& m)).testBit i = if m.testBit i then r.testBit i else n.testBit i := by
  have hdisj : (n - (n &&& m)) &&& (r &&& m) = 0 := by
    apply Nat.eq_of_testBit_eq
    intro j
    rw [Nat.testBit_and, testBit_sub_and, Nat.testBit_and, Nat.zero_testBit]
    cases m.testBit j <;> simp
  rw [add_eq_or_of_and_eq_zero hdisj, Nat.testBit_or, testBit_sub_and, Nat.testBit_and]
  cases m.testBit i <;> simp

/-- A bit of a register below its width is the bit set. -/
theorem testBit_reg_setReg_self (s : State) (a v : Nat) {i : Nat} (hi : i < 64) :
    ((s.setReg a v).reg a).testBit i = v.testBit i := by
  rw [reg_setReg_self, Nat.testBit_mod_two_pow]
  simp [hi]

/-- The field rule of a write, bit by bit (R27). -/
theorem testBit_codeWrite (d : RegDef) (old v i : Nat) : (codeWrite d old v).testBit i =
    (old.testBit i && !d.rw.testBit i && !d.wo.testBit i && !(v.testBit i && d.w1c.testBit i) ||
      v.testBit i && (d.rw.testBit i || d.w1s.testBit i || d.wo.testBit i)) := by
  unfold codeWrite
  simp only [Nat.testBit_or, testBit_sub_and, Nat.testBit_and]
  cases v.testBit i <;> cases d.rw.testBit i <;> cases d.wo.testBit i <;> simp

/-! ### A write by the access codes -/

/-- A write of a register with a row of its own is the command of that row. -/
theorem execRegisterWrite_own {who : Who} {a val : Nat} {s : State} {r : Out} (hft : ftOn s = true)
    (h : (ownWriteA who a (val % 2 ^ 64) s <|> ownWriteB who a (val % 2 ^ 64) s <|> ownWriteC who a (val % 2 ^ 64) s) = some r) :
    execRegisterWrite who a val s = r := by
  unfold execRegisterWrite
  simp only [hft, h, not_true, if_false]

/-- A register outside the collector's window, but for GN_PART_CFG, takes its access codes where its rule leaves it open. -/
theorem plainWrite_eq_setReg {s : State} {a : Nat} (d : RegDef) (v : Nat) (hgn : a ≠ A.gnPartCfg) (hwin : winOf a ≠ 62)
    (hopen : writeOpen s a = true) : s.plainWrite d a v = s.setReg a (codeWrite d (s.reg a) (v % 2 ^ 64)) := by
  have hwd : a ≠ A.dbgWdCtl 0 := by rintro rfl; exact hwin (by decide)
  unfold State.plainWrite
  simp only [hgn, hwd, hwin, hopen, false_and, if_false, if_true]

/-- Outside the collector's window and the base times of gate control lists, a write does nothing beside its fields but to the pins. -/
theorem afterWrite_pinsOnly {s : State} (old : State) {a : Nat} (v : Nat) (hwin : winOf a ≠ 62) (h0 : a ≠ A.nxQbvBase 0)
    (h1 : a ≠ A.nxQbvBase 1) : s.afterWrite old a v = { s with pins := (s.afterWrite old a v).pins } := by
  by_cases hl : a = A.lineDefault
  · simp only [State.afterWrite, if_pos hl]
    split <;> rfl
  · simp only [State.afterWrite, if_neg hl, h0, h1, hwin, or_self, if_false]

/-- LINE_DEFAULT has no part in whether the module emits or stands in the safe state. -/
theorem mayEmit_setReg_lineDefault (s : State) (v : Nat) : mayEmit (s.setReg A.lineDefault v) = mayEmit s := by
  have hctl : (s.setReg A.lineDefault v).reg A.pairCtl = s.reg A.pairCtl := reg_setReg_ne s v (by decide)
  have hst : (s.setReg A.lineDefault v).reg A.pairStatus = s.reg A.pairStatus := reg_setReg_ne s v (by decide)
  simp only [mayEmit, paired, flag_congr hctl, flag_congr hst, fget_congr hst]

theorem safe_setReg_lineDefault (s : State) (v : Nat) : safe (s.setReg A.lineDefault v) = safe s :=
  flag_congr (reg_setReg_ne s v (by decide)) _

/-- LINE_Q follows a write of LINE_DEFAULT alone, and not while the module answers (R606). -/
theorem afterWrite_setReg_pins (s old : State) {a : Nat} (w v : Nat) (hwin : winOf a ≠ 62) (h0 : a ≠ A.nxQbvBase 0)
    (h1 : a ≠ A.nxQbvBase 1) (hl : a ≠ A.lineDefault ∨ (mayEmit s = true ∧ safe s = false)) :
    ((s.setReg a w).afterWrite old a v).pins = s.pins := by
  by_cases ha : a = A.lineDefault
  · obtain ⟨he, hs⟩ := hl.resolve_left (not_not_intro ha)
    subst ha
    have hon : mayEmit (s.setReg A.lineDefault w) = true ∧ ¬ safe (s.setReg A.lineDefault w) = true := by
      rw [mayEmit_setReg_lineDefault, safe_setReg_lineDefault, he, hs]
      decide
    unfold State.afterWrite
    rw [if_pos rfl, if_pos (Or.inl hon)]
    rfl
  · simp only [State.afterWrite, if_neg ha, h0, h1, hwin, or_self, if_false, State.setReg_pins]

/-- A register without command bits gives no command beside its fields. -/
theorem bitCommand_eq_ok {a : Nat} (s : State) (who : Who) (v : Nat) (h : commandBits a = 0) : s.bitCommand who a v = ok s := by
  unfold commandBits at h
  unfold State.bitCommand
  split_ifs at h with hfc hpair hdump hclear hstart
  have hclear' : ¬ (winOf a ≤ 60 ∧ offOf a = 0xC000 ∧ v.testBit 5 = true) := fun hc => hclear ⟨hc.1, hc.2.1⟩
  simp only [hfc, hpair, hdump, hclear', hstart, false_and, if_false]

/-- A write of a register without a row of its own, by who may write it, where nothing else watches it (R27). -/
theorem execRegisterWrite_codes {who : Who} {a val : Nat} {d : RegDef} {ij : Nat × Nat} {s : State} (hft : ftOn s = true)
    (hmay : mayWrite s who a = true) (hreg : findReg (homeAddr a) = some (d, ij)) (hA : ownWriteA who a (val % 2 ^ 64) s = none)
    (hB : ownWriteB who a (val % 2 ^ 64) s = none) (hC : ownWriteC who a (val % 2 ^ 64) s = none) (hopen : writeOpen s a = true)
    (hbits : commandBits a = 0) (hwin : winOf a ≠ 62) (hcap : a ≠ A.pmCap) (hgn : a ≠ A.gnPartCfg)
    (hflow : d.base ≠ A.nxFlow 0 0 ∨ d.rw = 0) : execRegisterWrite who a val s =
      .next ((s.setReg a (codeWrite d (s.reg a) (val % 2 ^ 64))).afterWrite s a (val % 2 ^ 64)) := by
  have hnf : ¬ (d.base = A.nxFlow 0 0 ∧ d.rw ≠ 0) := fun h => hflow.elim (fun hb => hb h.1) h.2
  unfold execRegisterWrite
  simp only [hft, hA, hB, hC, hreg, hmay, hcap, hnf, hbits, not_true, if_false, bitCommand_eq_ok _ who _ hbits,
    plainWrite_eq_setReg d _ hgn hwin hopen, Nat.and_zero, Nat.sub_zero, Nat.mod_mod]
  rfl

/-- A write that the writer is not allowed, or to no register, has no effect. -/
theorem execRegisterWrite_refused {who : Who} {a val : Nat} {s : State} (hA : ownWriteA who a (val % 2 ^ 64) s = none)
    (hB : ownWriteB who a (val % 2 ^ 64) s = none) (hC : ownWriteC who a (val % 2 ^ 64) s = none)
    (h : mayWrite s who a = false ∨ findReg (homeAddr a) = none) : execRegisterWrite who a val s = .next s := by
  unfold execRegisterWrite
  simp only [hA, hB, hC]
  rcases h with h | h
  · cases findReg (homeAddr a) <;> simp [h, ok]
  · simp [h, ok]

theorem execRegisterWrite_off (who : Who) (a val : Nat) {s : State} (h : ftOn s = false) :
    execRegisterWrite who a val s = .next s := by
  simp [execRegisterWrite, h, ok]

/-! ### Registers that have rows of their own: which row a register has is computed from its address -/

theorem execRegisterWrite_tbAdj (who : Who) (val : Nat) {s : State} (hft : ftOn s = true) :
    execRegisterWrite who A.tbAdj val s = execTbAdj who (val % 2 ^ 64) s :=
  execRegisterWrite_own hft rfl

theorem execRegisterWrite_loomAbort (who : Who) (val : Nat) {s : State} (hft : ftOn s = true) :
    execRegisterWrite who A.loomAbort val s = execLoomAbort who (val % 2 ^ 64) s :=
  execRegisterWrite_own hft rfl

theorem execRegisterWrite_pmStationPhase (who : Who) {k : Nat} (val : Nat) {s : State} (hk : k < 4) (hft : ftOn s = true) :
    execRegisterWrite who (A.pmStationPhase k) val s = execPmStationPhase who k (val % 2 ^ 64) s := by
  refine execRegisterWrite_own hft ?_
  interval_cases k <;> rfl

theorem execRegisterWrite_fcStatus (who : Who) {k : Nat} (val : Nat) {s : State} (hk : k < 4) (hft : ftOn s = true) :
    execRegisterWrite who (A.fcStatus k) val s = execFcStatus who k (val % 2 ^ 64) s := by
  refine execRegisterWrite_own hft ?_
  interval_cases k <;> rfl

/-! ### A read -/

/-- A read that the reader is allowed shows the register without its write-only bits, and its RC bits go back to their reset
value (R27). -/
theorem execRcRead_shown {who : Who} {a : Nat} {d : RegDef} {ij : Nat × Nat} {s : State} (hft : ftOn s = true)
    (hpop : a ≠ A.lineTrigPop) (hreg : findReg (homeAddr a) = some (d, ij)) (hmay : mayRead s who a = true)
    (hhid : hiddenReg s who a = false) : execRcRead who a s =
      .next ((if d.rc = 0 then s else
        s.setReg a (s.reg a - (s.reg a &&& d.rc) + (regReset (homeAddr a) &&& d.rc))).answer
          (liveReg s a - (liveReg s a &&& d.wo))) := by
  simp [execRcRead, readReg, hft, hpop, hreg, hmay, hhid, ok]

/-- A read that the reader is not allowed answers zero and clears nothing. -/
theorem execRcRead_refused {who : Who} {a : Nat} {s : State} (hft : ftOn s = true) (hpop : a ≠ A.lineTrigPop)
    (hmay : mayRead s who a = false) : execRcRead who a s = .next (s.answer 0) := by
  cases h : findReg (homeAddr a) <;> simp [execRcRead, readReg, hft, hpop, h, hmay, ok]

theorem execRcRead_off (who : Who) (a : Nat) {s : State} (h : ftOn s = false) : execRcRead who a s = .next s := by
  simp [execRcRead, h, ok]

/-- The bits of a register after its RC bits went back to their reset value. -/
theorem testBit_reg_rcClear (s : State) (a r rc : Nat) {i : Nat} (hi : i < 64) :
    ((if rc = 0 then s else s.setReg a (s.reg a - (s.reg a &&& rc) + (r &&& rc))).reg a).testBit i =
      if rc.testBit i then r.testBit i else (s.reg a).testBit i := by
  split
  · next h => simp [h]
  · rw [testBit_reg_setReg_self _ _ _ hi, testBit_sub_and_add_and]

/-! ### Frames of what registers do -/

theorem kept_answer (s : State) (v : Nat) : Kept [] s (s.answer v) := ⟨fun _ _ => rfl, fun _ => rfl⟩

/-- A register set outside the region and key registers of the MEM block: every other register and all of memory are kept. -/
theorem kept_setReg (s : State) {a : Nat} (v : Nat) (h : a < 0x030003008100 ∨ 0x03000300A000 ≤ a) (hh : homeAddr a = a) :
    Kept [a] s (s.setReg a v) :=
  kept_of_regsKept (RegsKept.setReg v (.refl _ s) (by simp [hh])) rfl rfl rfl (by simpa using h)

/-! ### Events that change registers alone -/

/-- The register in which a port shows its link: none of the copies that another register holds. -/
theorem portStatus_addr {n : Nat} (h : n < 3) :
    homeAddr (portBase n + 0x10) = portBase n + 0x10 ∧ 0x03000300A000 ≤ portBase n + 0x10 := by
  interval_cases n <;> decide

theorem nxQbvCtl_addr {n : Nat} (h : n < 2) : homeAddr (A.nxQbvCtl n) = A.nxQbvCtl n ∧ 0x03000300A000 ≤ A.nxQbvCtl n := by
  interval_cases n <;> decide

/-- A port's link shows as it came (R772). -/
theorem runsRegs_portLinkUp {n : Nat} (up : Bool) {s : State} (hn : n < 3) (hft : ftOn s = true) :
    RunsRegs (.portLinkUp n up) s [portBase n + 0x10] fun t => t.flag (portBase n + 0x10) A.nxStatus_linkUp = up := by
  obtain ⟨hhome, hhigh⟩ := portStatus_addr hn
  have hrun : exec (.portLinkUp n up) s = .next (s.fset (portBase n + 0x10) A.nxStatus_linkUp (if up then 1 else 0)) := by
    change execPortLinkUp n up s = _
    unfold execPortLinkUp
    rw [if_pos ⟨hn, hft⟩]
    rfl
  refine ⟨_, hrun, ?_, kept_setReg s _ (.inr hhigh) hhome, rfl⟩
  change (State.fget _ _ _ != 0) = _
  rw [fget_fset_self s _ _ (by decide) (by decide)]
  cases up <;> rfl

/-- A pending gate control list whose base time has come is loaded (R591). -/
theorem runsRegs_gateControlListLoad {n : Nat} {s : State} (hn : n < 2) (hft : ftOn s = true)
    (hpend : s.flag (A.nxQbvCtl n) A.nxQbvCtl_pending = true) (hdue : s.reg (A.nxQbvBase n) ≤ now s) :
    RunsRegs (.gateControlListLoad n) s [A.nxQbvCtl n] fun t => t.flag (A.nxQbvCtl n) A.nxQbvCtl_pending = false := by
  obtain ⟨hhome, hhigh⟩ := nxQbvCtl_addr hn
  have hrun : exec (.gateControlListLoad n) s = .next (s.fset (A.nxQbvCtl n) A.nxQbvCtl_pending 0) := by
    change execGateControlListLoad n s = _
    unfold execGateControlListLoad
    exact if_pos ⟨hn, hft, hpend, hdue⟩
  refine ⟨_, hrun, ?_, kept_setReg s _ (.inr hhigh) hhome, rfl⟩
  change (State.fget _ _ _ != 0) = _
  rw [fget_fset_self s _ _ (by decide) (by decide)]
  rfl

/-- Before its base time it waits. -/
theorem idle_gateControlListLoad {n : Nat} {s : State} (hearly : now s < s.reg (A.nxQbvBase n)) :
    Idle (.gateControlListLoad n) s := by
  change execGateControlListLoad n s = _
  unfold execGateControlListLoad
  exact if_neg fun h => absurd h.2.2.2 (Nat.not_le.mpr hearly)

/-- A station at which no command stands has no command on its units. -/
theorem unitCmd_eq_none {s : State} {st : Nat} (h : ∀ u ∈ s.tracked, u.place.map Prod.fst ≠ some st) (unit : Nat)
    (ph : Phase → Bool) : unitCmd s st unit ph = none := by
  unfold unitCmd
  rw [List.find?_eq_none]
  intro u hu hat
  refine h u hu ?_
  rw [Bool.and_eq_true, beq_iff_eq] at hat
  rw [hat.1]
  rfl

/-- An engine without commands gates its clocks once it was idle for long enough, and not before (R757). -/
theorem execClockGating_idleEngine {st : Nat} {s : State} (hst : st < 48) (hft : ftOn s = true) (hg : s.gated.contains st = false)
    (hfree : ∀ u ∈ s.tracked, u.place.map Prod.fst ≠ some st) : execClockGating st s =
      if s.tb.n < tgetD s.busyAt st 0 + gateTicks s then .next s else .next { s with gated := s.gated ++ [st] } := by
  have hnst : ¬ 48 ≤ st := by omega
  unfold execClockGating runsOn stagedOn
  simp only [unitCmd_eq_none hfree, hnst, hft, hg, Option.isSome_none, not_true, false_or, Bool.false_eq_true]
  rfl

end Sys2Proof.Machine
end

section
/-! PROOFS. What the ledger's closing of a sequence leaves unchanged: everything but memory, registers and its own tables. -/

namespace Sys2Proof.Machine

open Sys2Proof

/-- From `s` to `t` nothing changed but memory, registers, error reports and the ledger's own tables. -/
def LedgerOnly (s t : State) : Prop :=
  t = { s with
    regs := t.regs, mem := t.mem, keyTag := t.keyTag, badLines := t.badLines, pair := { s.pair with dirty := t.pair.dirty }
    reports := t.reports, retired := t.retired, bobbin := t.bobbin, flushes := t.flushes, poolWaits := t.poolWaits
    restoring := t.restoring, seqUsed := t.seqUsed, resuming := t.resuming }

theorem LedgerOnly.refl (s : State) : LedgerOnly s s := rfl

theorem LedgerOnly.trans {s t u : State} (h : LedgerOnly s t) (h' : LedgerOnly t u) : LedgerOnly s u := by
  unfold LedgerOnly at *; rw [h'] at *; rw [h]

theorem LedgerOnly.foldl {α : Type} {f : State → α → State} (hf : ∀ s x, LedgerOnly s (f s x)) (l : List α) (s : State) :
    LedgerOnly s (l.foldl f s) := by
  induction l generalizing s with
  | nil => exact .refl s
  | cons x r ih => exact (hf s x).trans (ih (f s x))

theorem MemOnly.ledgerOnly {s t : State} (h : MemOnly s t) : LedgerOnly s t := by
  unfold MemOnly at h; unfold LedgerOnly; rw [h]

theorem ledgerOnly_setReg (s : State) (a v : Nat) : LedgerOnly s (s.setReg a v) := rfl

theorem ledgerOnly_fset (s : State) (a : Nat) (f : Nat × Nat) (v : Nat) : LedgerOnly s (s.fset a f v) := rfl

theorem ledgerOnly_storeBytes (s : State) (a : Nat) (bs : List Byte) : LedgerOnly s (s.storeBytes a bs) := by
  refine .trans (.foldl (fun u v => ?_) _ s) (memOnly_writeBytes _ a bs).ledgerOnly
  exact .trans (ledgerOnly_setReg u _ _) rfl

theorem ledgerOnly_retired (s : State) (r : Tab Nat) : LedgerOnly s { s with retired := r } := rfl

theorem ledgerOnly_setEntry (s : State) (n f : Nat) (e : PageEntry) : LedgerOnly s (s.setEntry n f e) :=
  (ledgerOnly_storeBytes s (entryAddr s n f) (leBytes 8 e.word)).trans <|
    (ledgerOnly_fset _ _ _ _).trans <| (ledgerOnly_fset _ _ _ _).trans (ledgerOnly_retired _ _)

theorem ledgerOnly_dropRef (s : State) (h : Nat) : LedgerOnly s (s.dropRef h) := by
  unfold State.dropRef
  split
  · exact ledgerOnly_setEntry s _ _ _
  · exact .refl s

theorem ledgerOnly_freeLines (s : State) (f : BobEntry → Bool) : LedgerOnly s (s.freeLines f) := by
  unfold State.freeLines State.bobbinUse State.raiseTo
  dsimp only
  split <;> rfl

/-- The flushes of a sequence forgotten, and the sequence no longer in use or being resumed. -/
theorem ledgerOnly_forgetSeq (s : State) (f : Nat × Nat × Nat → Bool) (us : List Nat) (rs : List (Nat × Nat)) :
    LedgerOnly s { s.dropFlushes f with seqUsed := us, resuming := rs } := rfl

theorem ledgerOnly_closeSeq (s : State) (q : Nat) (r : SeqRec) : LedgerOnly s (s.closeSeq q r) :=
  (LedgerOnly.foldl (fun u i => ledgerOnly_dropRef u (slotHandle u r i)) (List.range (r.cap * r.layers)) s).trans <|
    (ledgerOnly_freeLines _ fun b => b.seq == q).trans <|
      (ledgerOnly_forgetSeq _ _ _ _).trans (ledgerOnly_storeBytes _ _ _)

end Sys2Proof.Machine
end

section
/-! PROOFS. The completion of an image of the cold tier, cut into its parts (R403, R404, R456, R459). -/

namespace Sys2Proof.Machine

open Sys2Proof

/-- The cold tier with the image of a request complete, and the front of its work done. -/
def State.imageDone (s : State) (req : Nat) (im : Image) : State :=
  { s with images := tset s.images req { im with complete := true, doneAt := now s, aged := 0 }
           coldBytes := s.coldBytes + im.bytes, coldQ := s.coldQ.drop 1 }

/-- The sequence that an image was made of. -/
def Image.seq (im : Image) : Nat := fld (leNat (im.entry.take 8)) 13 0

/-- The sequence of an image closed, where it is still the partition's. -/
def State.closeImageSeq (s : State) (im : Image) : State :=
  if im.words.isEmpty then s
  else match seqRec s im.seq with
    | some r => if r.owner = im.part then s.closeSeq im.seq r else s
    | none => s

/-- The sequence of an image reset at the sampler. -/
def State.resetImageSamp (s : State) (im : Image) : State :=
  if im.entry.isEmpty then s else s.setSamp im.seq { SampSeq.empty with owner := some im.part }

/-- A request that decodes, paused. -/
def Request.paused (r : Request) : Request := if r.state = .decode then { r with state := .paused } else r


@[simp] theorem Request.paused_state (r : Request) : r.paused.state = if r.state = .decode then .paused else r.state := by
  unfold Request.paused
  split <;> rfl

theorem ledgerOnly_closeImageSeq (s : State) (im : Image) : LedgerOnly s (s.closeImageSeq im) := by
  unfold State.closeImageSeq
  split
  · exact .refl s
  · split
    · split
      · exact ledgerOnly_closeSeq s _ _
      · exact .refl s
    · exact .refl s

/-- An image without a record, or whose sequence another partition holds, closes nothing. -/
theorem closeImageSeq_eq_self {s : State} {im : Image} (h : im.words = [] ∨ ∀ r, seqRec s im.seq = some r → r.owner ≠ im.part) :
    s.closeImageSeq im = s := by
  unfold State.closeImageSeq
  split
  · rfl
  · next hw =>
    have hown := h.resolve_left fun h0 => hw (by simp [h0])
    split
    · next r hr => exact if_neg (hown r hr)
    · rfl

theorem runCold_of_nil {s : State} (h : s.coldQ = []) : s.runCold = s := by
  unfold State.runCold
  rw [h]
  rfl

theorem runDue_of_nil {s : State} (hc : s.coldQ = []) (hd : s.duePauses = []) : s.runDue = s := by
  unfold State.runDue
  simp only [runCold_of_nil hc, hd, List.foldl_nil]

theorem runPair_of_nil {s : State} (hw : s.pair.work = []) (hh : s.pair.held = []) : s.runPair = s := by
  unfold State.runPair
  rw [hw, hh]
  rfl

/-- The entry of a request that a function changed, if there is one. -/
theorem tget_updReq_self (s : State) (req : Nat) (f : Request → Request) :
    tget (s.updReq req f).requests req = (tget s.requests req).map f := by
  unfold State.updReq
  split
  · next r h => simp [h]
  · next h => simp [h]

theorem updReq_requestsOnly (s : State) (req : Nat) (f : Request → Request) :
    s.updReq req f = { s with requests := (s.updReq req f).requests } := by
  unfold State.updReq
  split <;> rfl

/-- The cold tier with the image of a request complete, its sequence closed and reset, and its request paused: all that completing it
does but what the cold tier serves next. -/
def State.imageLeft (s : State) (req : Nat) (im : Image) : State :=
  (((s.imageDone req im).closeImageSeq im).resetImageSamp im).updReq req Request.paused

theorem completeImage_eq (s : State) (req : Nat) (im : Image) : s.completeImage req im = (s.imageLeft req im).runCold := rfl

/-- What completing an image leaves beside the ledger: the sampler's state of its sequence, and its request. -/
theorem imageLeft_eq (s : State) (req : Nat) (im : Image) : s.imageLeft req im =
    { (s.imageDone req im).closeImageSeq im with samp := (s.imageLeft req im).samp, requests := (s.imageLeft req im).requests } := by
  unfold State.imageLeft
  rw [updReq_requestsOnly]
  unfold State.resetImageSamp
  split <;> rfl

/-- The fields of the cold tier and of what waits on it are those of the tier with the image complete. -/
theorem imageLeft_cold (s : State) (req : Nat) (im : Image) :
    (s.imageLeft req im).images = (s.imageDone req im).images ∧ (s.imageLeft req im).coldBytes = (s.imageDone req im).coldBytes ∧
      (s.imageLeft req im).coldQ = (s.imageDone req im).coldQ ∧ (s.imageLeft req im).duePauses = s.duePauses ∧
      (s.imageLeft req im).pair.work = s.pair.work ∧ (s.imageLeft req im).pair.held = s.pair.held := by
  rw [imageLeft_eq, ledgerOnly_closeImageSeq (s.imageDone req im) im]
  exact ⟨rfl, rfl, rfl, rfl, rfl, rfl⟩

theorem imageLeft_request (s : State) (req : Nat) (im : Image) :
    tget (s.imageLeft req im).requests req = (tget s.requests req).map Request.paused := by
  have hsamp : (((s.imageDone req im).closeImageSeq im).resetImageSamp im).requests = s.requests := by
    rw [ledgerOnly_closeImageSeq (s.imageDone req im) im]
    unfold State.resetImageSamp
    split <;> rfl
  unfold State.imageLeft
  rw [tget_updReq_self, hsamp]

theorem imageLeft_samp (s : State) (req : Nat) {im : Image} (h : im.entry ≠ []) :
    tget (s.imageLeft req im).samp im.seq = some { SampSeq.empty with owner := some im.part } := by
  unfold State.imageLeft
  rw [updReq_requestsOnly]
  unfold State.resetImageSamp
  rw [if_neg (by simpa using h)]
  exact tget_tset_self _ _ _

/-- An image whose sequence is not closed leaves the ledger alone. -/
theorem imageLeft_openSeq (s : State) (req : Nat) {im : Image}
    (h : im.words = [] ∨ ∀ r, seqRec s im.seq = some r → r.owner ≠ im.part) : s.imageLeft req im =
      { s with images := (s.imageLeft req im).images, coldBytes := (s.imageLeft req im).coldBytes
               coldQ := (s.imageLeft req im).coldQ, samp := (s.imageLeft req im).samp
               requests := (s.imageLeft req im).requests } := by
  have hself : (s.imageDone req im).closeImageSeq im = s.imageDone req im := closeImageSeq_eq_self h
  have heq := imageLeft_eq s req im
  rw [hself] at heq
  rw [heq]
  rfl

/-- An image that stands complete, or whose turn in the cold tier's work has not come, does not complete. -/
theorem idle_imageComplete {req : Nat} {im : Image} {s : State} (him : tget s.images req = some im)
    (h : im.complete = true ∨ s.coldQ.head? ≠ some { req := req, resume := false, ready := true }) :
    Idle (.imageComplete req) s := by
  change execImageComplete req s = _
  unfold execImageComplete
  rw [him]
  exact if_pos (h.imp_right Or.inl)

/-- The image at the front of the cold tier's work completes in OPERATIONAL; with nothing else due, nothing follows (R404, R456,
R459). -/
theorem exec_imageComplete {req : Nat} {im : Image} {s : State} (him : tget s.images req = some im) (hc : im.complete = false)
    (hft : ftOn s = true) (hgn : s.fget A.gnStatus A.gnStatus_state = 2)
    (hq : s.coldQ = [{ req := req, resume := false, ready := true }]) (hd : s.duePauses = []) (hw : s.pair.work = [])
    (hh : s.pair.held = []) : exec (.imageComplete req) s = .next (s.imageLeft req im) := by
  have hrun : exec (.imageComplete req) s = .next ((s.completeImage req im).runDue.runPair) := by
    change execImageComplete req s = _
    unfold execImageComplete
    simp [him, hc, hft, hgn, hq, ok]
  obtain ⟨-, -, hq', hd', hw', hh'⟩ := imageLeft_cold s req im
  have hnil : (s.imageLeft req im).coldQ = [] := by rw [hq', State.imageDone, hq]; rfl
  rw [hrun, completeImage_eq, runCold_of_nil hnil, runDue_of_nil hnil (hd'.trans hd), runPair_of_nil (hw'.trans hw) (hh'.trans hh)]

end Sys2Proof.Machine
end

section
/-! PROOFS. Registers by access code, and the events that change registers alone: the clauses of O57 and their assembly. -/

namespace Sys2Proof

open Sys2Proof.Machine

/-- What a write of a register without a row of its own leaves: its bits, its frame, and LINE_Q where the module answers (R27,
R606). -/
theorem afterWrite_setReg_codes (s : State) {a : Nat} (val : Nat) (d : RegDef) {t : State}
    (ht : t = (s.setReg a (codeWrite d (s.reg a) (val % 2 ^ 64))).afterWrite s a (val % 2 ^ 64))
    (hwin : winOf a ≠ 62) (h0 : a ≠ A.nxQbvBase 0) (h1 : a ≠ A.nxQbvBase 1) :
    (∀ i, i < 64 → (t.reg a).testBit i =
      ((s.reg a).testBit i && !d.rw.testBit i && !d.wo.testBit i && !(val.testBit i && d.w1c.testBit i) ||
        val.testBit i && (d.rw.testBit i || d.w1s.testBit i || d.wo.testBit i))) ∧
    RegsKept [homeAddr a] s t ∧ t = { s with regs := t.regs, pins := t.pins } ∧
    (a ≠ A.lineDefault ∨ (mayEmit s = true ∧ safe s = false) → t.pins = s.pins) := by
  have hpins : t = { s.setReg a (codeWrite d (s.reg a) (val % 2 ^ 64)) with pins := t.pins } := by
    rw [ht]; exact afterWrite_pinsOnly s _ hwin h0 h1
  have hregs : t.regs = (s.setReg a (codeWrite d (s.reg a) (val % 2 ^ 64))).regs := by rw [hpins]
  refine ⟨fun i hi => ?_, fun b hb => ?_, ?_, fun hl => ?_⟩
  · rw [reg_congr hregs, testBit_reg_setReg_self _ _ _ hi, testBit_codeWrite, Nat.testBit_mod_two_pow]
    simp [hi]
  · rw [reg_congr hregs]
    exact RegsKept.setReg _ (.refl _ s) (List.mem_singleton.mpr rfl) b hb
  · rw [hpins]; rfl
  · rw [ht]; exact afterWrite_setReg_pins s s _ _ hwin h0 h1 hl

/-- A read that the reader is allowed: the value shown, the RC bits, and the frame (R27, R28). -/
theorem runs_rcRead_shown {who : Who} {a : Nat} {d : RegDef} {ij : Nat × Nat} {s : State} (hft : ftOn s = true)
    (hpop : a ≠ A.lineTrigPop) (hreg : findReg (homeAddr a) = some (d, ij)) (hmay : mayRead s who a = true)
    (hhid : hiddenReg s who a = false) : Runs (.rcRead who a) s fun t =>
      t.busData = leBytes 8 (liveReg s a - (liveReg s a &&& d.wo)) ∧ t.busErr = false ∧
      (∀ i, i < 64 → (t.reg a).testBit i = if d.rc.testBit i then (regReset (homeAddr a)).testBit i else (s.reg a).testBit i) ∧
      RegsKept [homeAddr a] s t ∧ t = { s with regs := t.regs, busData := t.busData, busErr := t.busErr } := by
  refine ⟨_, execRcRead_shown hft hpop hreg hmay hhid, rfl, rfl, fun i hi => testBit_reg_rcClear s a _ d.rc hi, ?_, ?_⟩
  · show RegsKept _ s (ite _ _ _)
    split
    · exact .refl _ s
    · exact RegsKept.setReg _ (.refl _ s) (List.mem_singleton.mpr rfl)
  · split <;> rfl

/-- The image of a request completed: it exists, its place in the cold tier's work is free, its sequence is reset at the sampler and its
request PAUSED; where its sequence is not closed nothing else changes (R403, R404, R456, R459). -/
theorem runs_imageComplete {req : Nat} {im : Image} {s : State} (him : tget s.images req = some im) (hc : im.complete = false)
    (hft : ftOn s = true) (hgn : s.fget A.gnStatus A.gnStatus_state = 2)
    (hq : s.coldQ = [{ req := req, resume := false, ready := true }]) (hd : s.duePauses = []) (hw : s.pair.work = [])
    (hh : s.pair.held = []) : Runs (.imageComplete req) s fun t =>
      tget t.images req = some { im with complete := true, doneAt := now s, aged := 0 } ∧ t.coldBytes = s.coldBytes + im.bytes ∧
      (∀ k, k ≠ req → tget t.images k = tget s.images k) ∧ t.coldQ = [] ∧
      (∀ r, tget s.requests req = some r → (tget t.requests req).map Request.state =
        some (if r.state = .decode then .paused else r.state)) ∧
      (im.entry ≠ [] → tget t.samp im.seq = some { SampSeq.empty with owner := some im.part }) ∧
      ((im.words = [] ∨ ∀ r, seqRec s im.seq = some r → r.owner ≠ im.part) →
        t = { s with images := t.images, coldBytes := t.coldBytes, coldQ := t.coldQ, samp := t.samp, requests := t.requests }) := by
  obtain ⟨himages, hbytes, hcold, -⟩ := imageLeft_cold s req im
  refine ⟨_, exec_imageComplete him hc hft hgn hq hd hw hh, ?_, hbytes, fun k hk => ?_, ?_, fun r hr => ?_,
    imageLeft_samp s req, imageLeft_openSeq s req⟩
  · rw [himages]; exact tget_tset_self _ _ _
  · rw [himages]; exact tget_tset_ne _ _ hk.symm
  · rw [hcold, State.imageDone, hq]; rfl
  · rw [imageLeft_request, hr]; simp

/-- Settles O57: each clause is the law of its command; a write and a read go bit by bit through the masks of the register's
definition, and an image completed leaves by `LedgerOnly` what the closing of its sequence cannot reach. -/
theorem registerAccess : Obligations.RegisterAccess := by
  unfold Obligations.RegisterAccess
  refine ⟨?codes, ?ownRow, ?refusedWrite, ?read, ?portLink, ?gateList, ?clocks, ?image⟩
  case codes =>
    intro who a val d ij s hft hmay hreg hA hB hC hopen hbits hwin hspecial hflow
    simp only [List.mem_cons, List.not_mem_nil, or_false, not_or] at hspecial
    obtain ⟨hcap, hgn, h0, h1⟩ := hspecial
    exact ⟨_, execRegisterWrite_codes hft hmay hreg hA hB hC hopen hbits hwin hcap hgn hflow,
      afterWrite_setReg_codes s val d rfl hwin h0 h1⟩
  case ownRow =>
    intro who val s hft
    exact ⟨execRegisterWrite_tbAdj who val hft, execRegisterWrite_loomAbort who val hft, fun k hk =>
      ⟨execRegisterWrite_pmStationPhase who val hk hft, execRegisterWrite_fcStatus who val hk hft⟩⟩
  case refusedWrite =>
    intro who a val s
    exact ⟨fun hoff => ⟨execRegisterWrite_off who a val hoff, execRcRead_off who a hoff⟩,
      fun hA hB hC h => execRegisterWrite_refused hA hB hC h⟩
  case read =>
    intro who a d ij s hft hpop hreg
    exact ⟨runs_rcRead_shown hft hpop hreg, fun hmay =>
      ⟨_, execRcRead_refused hft hpop hmay, rfl, kept_answer s 0, rfl⟩⟩
  case portLink =>
    intro n up s hn hft
    exact runsRegs_portLinkUp up hn hft
  case gateList =>
    intro n s hn hft hpend
    exact ⟨runsRegs_gateControlListLoad hn hft hpend, idle_gateControlListLoad⟩
  case clocks =>
    intro st s hst hft hg hfree
    have hrun := execClockGating_idleEngine hst hft hg hfree
    exact ⟨fun hdue => ⟨_, hrun.trans (if_neg (Nat.not_lt.mpr hdue)), rfl⟩, fun hearly => hrun.trans (if_pos hearly)⟩
  case image =>
    intro req im s him
    exact ⟨idle_imageComplete him, runs_imageComplete him⟩

end Sys2Proof
end

section
/-! PROOFS. The two statements of the family that fail: NOP and host tasks (O9), accesses of memory (O30). -/

namespace Sys2Proof

open Sys2Proof.Machine

/-- A NOP that runs in slot 0 and has no place: its COMPLETION is the Loom's, while its station reads 63, which names none (Table 1-7,
R632). -/
def placelessNop : Tracked :=
  { slot := 0, queue := 0, desc := ⟨0, 0, 0, 0, 0, 0, 0, 0⟩, opb := [], phase := .running, compl := .none, place := none
    started := true, ins := [], outs := []
    work := { pos := 0, fails := 0, bytes := 0, flags := 0, sat := 0, aux := 0, aux2 := 0, opened := false, lost := false, attn := none }
    loaded := [], status := none, abortReq := false, upstream := false, replayed := false, rerun := false, arrivals := [], moved := 0
    stallSent := false, tilesOut := 0, record := none, venc := none }

/-- The module out of its start, with that NOP alone. -/
def placelessState : State :=
  { State.reset with store := { State.reset.store with starting := none }, tracked := [placelessNop] }

theorem runningCmd_placelessNop : runningCmd placelessState 0 0x00 = some placelessNop := by decide +kernel

/-- The Loom, source 67, raises its COMPLETION. -/
theorem exec_placelessNop : ∃ t, exec (.nop 0) placelessState = .next t ∧ t.events.map Event.source = [srcLoom] :=
  ⟨_, rfl, by decide +kernel⟩

/-- Refutes O9: the clause of NOP leaves `place` open. A running NOP without a place has the Loom as the source of its COMPLETION, 67,
and not its station, 63. -/
theorem not_nopAndHostTasks : ¬ Obligations.NopAndHostTasks := by
  unfold Obligations.NopAndHostTasks
  rintro ⟨hnop, -⟩
  obtain ⟨t, ht, hevents, -⟩ := hnop 0 placelessState placelessNop runningCmd_placelessNop rfl rfl rfl rfl rfl rfl (by decide +kernel)
  obtain ⟨t', ht', hsource⟩ := exec_placelessNop
  obtain rfl : t = t' := by rw [ht] at ht'; injection ht'
  have hstation : t.events.map Event.source = [63] := by rw [hevents]; decide +kernel
  exact absurd (hsource.symm.trans hstation) (by decide)

/-- Two bytes that partition 0 reads at the end of the interleaved view, from station 0: the first lies in lode 15, behind station 47, the
second in no memory. -/
def straddlingRead : MemReq := { station := 0, who := .part 0, slot := none, addr := lpddrTop - 1, len := 2 }

/-- The read is dropped at the lode of its first byte: the PORT bit set is station 47's. -/
theorem exec_straddlingRead : ∃ t, exec (.memoryRead straddlingRead .clean) State.reset = .next t ∧
    t.reg (A.ceErrStatus 47) ≠ State.reset.reg (A.ceErrStatus 47) :=
  ⟨_, rfl, by decide +kernel⟩

/-- Refutes O30: the clause of a hole of the map keeps every PORT bit but that of the requester's station. A range that begins in memory
and ends in a hole is dropped at the lode of its first byte, and sets the bit of that lode's station. -/
theorem not_memoryAccesses : ¬ Obligations.MemoryAccesses := by
  unfold Obligations.MemoryAccesses
  rintro ⟨-, -, -, hhole, -⟩
  obtain ⟨t, ht, -, -, -, hregs, -⟩ := hhole straddlingRead .clean State.reset 0 (by decide) (by decide) (by decide) (by decide)
    (by decide) (by decide)
  obtain ⟨t', ht', hport⟩ := exec_straddlingRead
  obtain rfl : t = t' := by rw [ht] at ht'; injection ht'
  exact hport (hregs _ (by decide))

end Sys2Proof
end

section
/-! PROOFS. What counting, tracing and the flits of the Seam leave unchanged (R844 to R859). -/

namespace Sys2Proof.Machine

open Sys2Proof

/-- From `s` to `t` nothing changed but registers of a list and what the trace buffers hold. -/
def DbgOnly (l : List Nat) (s t : State) : Prop :=
  t = { s with regs := t.regs, traces := t.traces, trcDropped := t.trcDropped, traceHold := t.traceHold } ∧ RegsKept l s t

theorem DbgOnly.refl (l : List Nat) (s : State) : DbgOnly l s s := ⟨rfl, .refl l s⟩

theorem DbgOnly.trans {l : List Nat} {s t u : State} (h : DbgOnly l s t) (h' : DbgOnly l t u) : DbgOnly l s u :=
  ⟨by rw [h'.1, h.1], h.2.trans h'.2⟩

theorem DbgOnly.mono {l l' : List Nat} {s t : State} (h : DbgOnly l s t) (hs : ∀ a ∈ l, a ∈ l') : DbgOnly l' s t :=
  ⟨h.1, h.2.mono hs⟩

theorem DbgOnly.foldl {α : Type} {l : List Nat} {f : State → α → State} {xs : List α}
    (hf : ∀ s, ∀ x ∈ xs, DbgOnly l s (f s x)) (s : State) : DbgOnly l s (xs.foldl f s) := by
  induction xs generalizing s with
  | nil => exact .refl l s
  | cons x r ih => exact (hf s x (by simp)).trans (ih (fun s y hy => hf s y (by simp [hy])) _)

theorem DbgOnly.fset {l : List Nat} (s : State) {a : Nat} (f : Nat × Nat) (v : Nat) (ha : homeAddr a ∈ l) :
    DbgOnly l s (s.fset a f v) := ⟨rfl, (RegsKept.refl l s).fset f v ha⟩

theorem DbgOnly.ite {l : List Nat} {s t u : State} {p : Prop} [Decidable p] (ht : DbgOnly l s t) (hu : DbgOnly l s u) :
    DbgOnly l s (if p then t else u) := by split <;> assumption

/-- A further change that is made or not. -/
theorem DbgOnly.thenIte {l : List Nat} {s t u : State} {p : Prop} [Decidable p] (h : DbgOnly l s u) (ht : DbgOnly l u t) :
    DbgOnly l s (if p then t else u) := h.trans (.ite ht (.refl l u))

theorem DbgOnly.unlessIte {l : List Nat} {s t u : State} {p : Prop} [Decidable p] (h : DbgOnly l s u) (ht : DbgOnly l u t) :
    DbgOnly l s (if p then u else t) := h.trans (.ite (.refl l u) ht)

/-! The fields that it keeps. -/

theorem DbgOnly.mem {l : List Nat} {s t : State} (h : DbgOnly l s t) : t.mem = s.mem := by rw [h.1]
theorem DbgOnly.keyTag {l : List Nat} {s t : State} (h : DbgOnly l s t) : t.keyTag = s.keyTag := by rw [h.1]
theorem DbgOnly.badLines {l : List Nat} {s t : State} (h : DbgOnly l s t) : t.badLines = s.badLines := by rw [h.1]
theorem DbgOnly.tb {l : List Nat} {s t : State} (h : DbgOnly l s t) : t.tb = s.tb := by rw [h.1]
theorem DbgOnly.events {l : List Nat} {s t : State} (h : DbgOnly l s t) : t.events = s.events := by rw [h.1]
theorem DbgOnly.tracked {l : List Nat} {s t : State} (h : DbgOnly l s t) : t.tracked = s.tracked := by rw [h.1]
theorem DbgOnly.chans {l : List Nat} {s t : State} (h : DbgOnly l s t) : t.chans = s.chans := by rw [h.1]
theorem DbgOnly.settling {l : List Nat} {s t : State} (h : DbgOnly l s t) : t.settling = s.settling := by rw [h.1]
theorem DbgOnly.reports {l : List Nat} {s t : State} (h : DbgOnly l s t) : t.reports = s.reports := by rw [h.1]
theorem DbgOnly.rootKey {l : List Nat} {s t : State} (h : DbgOnly l s t) : rootKey t = rootKey s := by rw [h.1]; rfl

/-! The registers of the debug unit are their own homes, and none of them lies among the region and key registers. -/

theorem dbgGcnt_home {i : Nat} (h : i < 64) : homeAddr (A.dbgGcnt i) = A.dbgGcnt i := by
  simp only [homeAddr, A.dbgGcnt]; split_ifs <;> omega

theorem dbgCnt_home {st i : Nat} (hst : st ≤ 60) (h : i < 8) : homeAddr (A.dbgCnt st i) = A.dbgCnt st i := by
  simp only [homeAddr, A.dbgCnt]; split_ifs <;> omega

theorem dbgTrcStatus_home {st : Nat} (hst : st ≤ 60) : homeAddr (A.dbgTrcStatus st) = A.dbgTrcStatus st := by
  simp only [homeAddr, A.dbgTrcStatus]; split_ifs <;> omega

theorem dbgGcnt_mem_dbgRegs {st i : Nat} (h : i < 64) : A.dbgGcnt i ∈ dbgRegs st := by
  simp only [dbgRegs, List.mem_append, List.mem_map, List.mem_range]
  exact .inl (.inl ⟨i, h, rfl⟩)

theorem dbgCnt_mem_dbgRegs {st i : Nat} (h : i < 8) : A.dbgCnt st i ∈ dbgRegs st := by
  simp only [dbgRegs, List.mem_append, List.mem_map, List.mem_range]
  exact .inl (.inr ⟨i, h, rfl⟩)

theorem dbgTrcStatus_mem_dbgRegs (st : Nat) : A.dbgTrcStatus st ∈ dbgRegs st := by simp [dbgRegs]

/-- Debug registers stand apart from the region and key registers of the MEM block. -/
theorem dbgRegs_apart {st a : Nat} (h : a ∈ dbgRegs st) : a < 0x030003008100 ∨ 0x03000300A000 ≤ a := by
  simp only [dbgRegs, List.mem_append, List.mem_map, List.mem_range, List.mem_singleton] at h
  obtain (⟨i, hi, rfl⟩ | ⟨i, hi, rfl⟩) | rfl := h <;> simp only [A.dbgGcnt, A.dbgCnt, A.dbgTrcStatus] <;> omega

/-- A command that changes debug registers and memory's neighbours alone keeps all of memory. -/
theorem DbgOnly.kept {st : Nat} {s t : State} (h : DbgOnly (dbgRegs st) s t) : Kept (dbgRegs st) s t :=
  kept_of_regsKept h.2 h.mem h.keyTag h.rootKey fun _ => dbgRegs_apart

/-! ### Counters -/

theorem dbgOnly_count (s : State) (st ev n : Nat) (t : Tracked) : DbgOnly (dbgRegs st) s (s.count st ev n t) := by
  unfold State.count
  split
  · next h =>
    refine .foldl (fun u i hi => ?_) s
    have hi : i < 8 := List.mem_range.mp hi
    exact .ite (.fset u _ _ (by rw [dbgCnt_home h.2.1 hi]; exact dbgCnt_mem_dbgRegs hi)) (.refl _ u)
  · exact .refl _ s

/-- The global counters alone. -/
theorem dbgOnly_gcnt (s : State) {p : State → Nat → Prop} [∀ u i, Decidable (p u i)] {g : State → Nat → Nat} :
    DbgOnly ((List.range 64).map A.dbgGcnt) s
      ((List.range 64).foldl (fun u i => if p u i then u.fset (A.dbgGcnt i) A.dbgGcnt_value (g u i) else u) s) := by
  refine .foldl (fun u i hi => .ite (.fset u _ _ ?_) (.refl _ u)) s
  have hi : i < 64 := List.mem_range.mp hi
  rw [dbgGcnt_home hi]
  exact List.mem_map.mpr ⟨i, List.mem_range.mpr hi, rfl⟩

theorem dbgOnly_gcount (s : State) (ev idx n : Nat) (p : Option Nat) :
    DbgOnly ((List.range 64).map A.dbgGcnt) s (s.gcount ev idx n p) := by
  unfold State.gcount
  exact .ite (.refl _ s) (dbgOnly_gcnt s)

theorem dbgOnly_linkFlits (s : State) (links : List Nat) (n : Nat) (p : Option Nat) :
    DbgOnly ((List.range 64).map A.dbgGcnt) s (s.linkFlits links n p) := by
  unfold State.linkFlits
  exact .ite (.refl _ s) (dbgOnly_gcnt s)

theorem gcnt_sub_dbgRegs (st : Nat) : ∀ a ∈ (List.range 64).map A.dbgGcnt, a ∈ dbgRegs st := by
  intro a ha
  simp only [dbgRegs, List.mem_append]
  exact .inl (.inl ha)

theorem dbgOnly_countMem (s : State) (rd : Bool) (a n : Nat) (p : Option Nat) :
    DbgOnly ((List.range 64).map A.dbgGcnt) s (s.countMem rd a n p) := by
  refine .foldl (fun u r _ => ?_) s
  split
  · exact .ite (dbgOnly_gcount ..) (dbgOnly_gcount ..)
  · exact .refl _ u

theorem dbgOnly_memLinks (s : State) (rd : Bool) (st a n : Nat) (p : Option Nat) :
    DbgOnly ((List.range 64).map A.dbgGcnt) s (s.memLinks rd st a n p) := by
  refine .foldl (fun u r _ => ?_) s
  split
  · exact .ite (.refl _ u) (.ite ((dbgOnly_linkFlits ..).trans (dbgOnly_linkFlits ..)) (dbgOnly_linkFlits ..))
  · exact .refl _ u

theorem dbgOnly_memIn (s : State) (t : Tracked) (a n : Nat) : DbgOnly (dbgRegs t.station) s (s.memIn t a n) :=
  (dbgOnly_count ..).trans <| ((dbgOnly_countMem ..).mono (gcnt_sub_dbgRegs _)).trans <|
    (dbgOnly_count ..).trans ((dbgOnly_memLinks ..).mono (gcnt_sub_dbgRegs _))

theorem dbgOnly_memOut (s : State) (t : Tracked) (a n : Nat) : DbgOnly (dbgRegs t.station) s (s.memOut t a n) :=
  (dbgOnly_count ..).trans <| ((dbgOnly_countMem ..).mono (gcnt_sub_dbgRegs _)).trans <|
    (dbgOnly_count ..).trans ((dbgOnly_memLinks ..).mono (gcnt_sub_dbgRegs _))

/-! ### Traces -/

theorem dbgOnly_tracePut (s : State) {st : Nat} (r : TraceRec) (hst : st ≤ 60) :
    DbgOnly [A.dbgTrcStatus st] s (s.tracePut st r) := by
  unfold State.tracePut
  dsimp only
  split
  · exact ⟨rfl, fun a ha => RegsKept.bump _ _ (.refl _ s) (by rw [dbgTrcStatus_home hst]; simp) a ha⟩
  · exact .ite ⟨rfl, .of_regs rfl⟩ ⟨rfl, .of_regs rfl⟩

theorem dbgOnly_trace (s : State) (st ty data : Nat) (t : Tracked) : DbgOnly [A.dbgTrcStatus st] s (s.trace st ty data t) := by
  unfold State.trace
  dsimp only
  split
  · next h => exact dbgOnly_tracePut s _ h.2.1
  · exact .refl _ s

theorem dbgOnly_trace_dbgRegs (s : State) (st ty data : Nat) (t : Tracked) : DbgOnly (dbgRegs st) s (s.trace st ty data t) :=
  (dbgOnly_trace s st ty data t).mono (by simpa using dbgTrcStatus_mem_dbgRegs st)

end Sys2Proof.Machine
end

section
/-! PROOFS. Tracked commands: what a change of a command leaves, and when a command's end is not looked at. -/

namespace Sys2Proof.Machine

open Sys2Proof

theorem cmd?_congr {s t : State} (h : t.tracked = s.tracked) (k : Nat) : t.cmd? k = s.cmd? k := by unfold State.cmd?; rw [h]

theorem slot_of_cmd? {s : State} {k : Nat} {c : Tracked} (h : s.cmd? k = some c) : c.slot = k := by
  simpa using List.find?_some h

theorem mem_of_cmd? {s : State} {k : Nat} {c : Tracked} (h : s.cmd? k = some c) : c ∈ s.tracked := List.mem_of_find?_eq_some h

/-- A command changed by a function that keeps its slot, and every other command as it was. -/
theorem cmd?_updCmd (s : State) (k j : Nat) (f : Tracked → Tracked) (hf : ∀ u, (f u).slot = u.slot) :
    (s.updCmd k f).cmd? j = (s.cmd? j).map fun u => if j = k then f u else u := by
  have hslot : (fun u : Tracked => u.slot == j) ∘ (fun u => if u.slot == k then f u else u) = fun u => u.slot == j := by
    funext u
    by_cases h : u.slot = k <;> simp [h, hf]
  unfold State.cmd? State.updCmd
  dsimp only
  rw [List.find?_map, hslot]
  cases hfind : s.tracked.find? (fun u => u.slot == j) with
  | none => rfl
  | some u =>
    have hu : u.slot = j := by simpa using List.find?_some hfind
    simp [hu]

theorem cmd?_updCmd_self {s : State} {k : Nat} {f : Tracked → Tracked} {c : Tracked} (hc : s.cmd? k = some c)
    (hf : ∀ u, (f u).slot = u.slot := by intro u; rfl) : (s.updCmd k f).cmd? k = some (f c) := by
  rw [cmd?_updCmd s k k f hf, hc]
  simp

/-- A command that runs, taken apart: nothing holds it. -/
theorem runningCmd_eq_some {s : State} {slot op : Nat} {c : Tracked} (h : runningCmd s slot op = some c) :
    s.cmd? slot = some c ∧ c.phase = .running ∧ c.op = op ∧ c.status = none ∧ s.traceHold.contains c.station = false ∧
      cmdsGoOn s = true ∧ stopping s c.part = false := by
  unfold runningCmd at h
  split at h
  · simp at h
  · next t ht =>
    split at h
    · next hrun =>
      obtain rfl : t = c := Option.some.inj h
      obtain ⟨hphase, hop, hstatus, hhold, hgo, hstop⟩ := hrun
      exact ⟨ht, by simpa using hphase, hop, hstatus, by simpa using hhold, hgo, by simpa using hstop⟩
    · simp at h

/-- Only a command that drains is looked at. -/
theorem checkDrain_eq_self {s : State} {slot : Nat} {c : Tracked} (hc : s.cmd? slot = some c) (h : c.phase ≠ .draining) :
    s.checkDrain slot = s := by
  unfold State.checkDrain
  rw [hc]
  simp [h]

/-- A command that still has tiles to send stays on its unit. -/
theorem checkDrain_of_queue {s : State} {slot : Nat} {c : Tracked} (hc : s.cmd? slot = some c)
    (h : c.outs.all (fun o => o.queue.isEmpty) = false) : s.checkDrain slot = s := by
  unfold State.checkDrain
  rw [hc]
  simp [h]

/-- A list changed at one index is there what the function makes of the element. -/
theorem getElem?_mapIdx_at {α : Type} (l : List α) (i : Nat) (f : α → α) :
    (l.mapIdx fun j a => if j = i then f a else a)[i]? = l[i]?.map f := by
  simp [List.getElem?_mapIdx]

end Sys2Proof.Machine
end

section
/-! PROOFS. The stall record and the abort register (R95, R96, R945): O6. -/

namespace Sys2Proof

open Sys2Proof.Machine

theorem Desc.cmdSeq_lt (d : Desc) : d.cmdSeq < 2 ^ 48 := Nat.mod_lt _ (by decide)

theorem Desc.part_lt (d : Desc) : d.part < 8 := Nat.mod_lt _ (by decide)

theorem runs_loomStall {slot : Nat} {s : State} {c : Tracked} (hc : s.cmd? slot = some c) (hunit : c.phase.onUnit = true)
    (hplace : c.place ≠ none) (hlim : s.fget A.loomStallLimit A.loomStallLimit_limitUs ≠ 0)
    (hdue : c.moved + s.fget A.loomStallLimit A.loomStallLimit_limitUs * 100 ≤ s.tb.n) (hsent : c.stallSent = false) :
    Runs (.loomStall slot) s fun t =>
      t.reg A.loomStallSeq = c.desc.cmdSeq + c.part * 2 ^ 48 + 2 ^ 63 ∧ RaisedP 67 3 c.part c.desc.cmdSeq s t ∧
      (∃ u : Tracked, t.cmd? slot = some u ∧ u.stallSent = true) ∧ Kept [A.loomStallSeq] s t ∧
      t = { s with regs := t.regs, events := t.events, tracked := t.tracked } := by
  have hrun : exec (.loomStall slot) s = .next (((s.setReg A.loomStallSeq (c.desc.cmdSeq + c.part * 2 ^ 48 + 2 ^ 63)).raiseP srcLoom
      0x0003 c.part c.desc.cmdSeq none).updCmd slot fun u => { u with stallSent := true }) := by
    change execLoomStall slot s = _
    unfold execLoomStall
    rw [hc]
    exact if_pos ⟨hunit, Option.isSome_iff_ne_none.mpr hplace, hlim, hdue, hsent⟩
  have hhome : homeAddr A.loomStallSeq = A.loomStallSeq := by decide
  refine ⟨_, hrun, ?_, ?_, ?_, kept_setReg s _ (by decide) hhome, rfl⟩
  · have hseq := c.desc.cmdSeq_lt
    have hpart : c.part < 8 := c.desc.part_lt
    exact (reg_setReg_self s _ _).trans (Nat.mod_eq_of_lt (by omega))
  · have hcoarse : coarse (s.setReg A.loomStallSeq (c.desc.cmdSeq + c.part * 2 ^ 48 + 2 ^ 63)) = coarse s :=
      flag_congr (reg_setReg_ne s _ (by decide)) _
    unfold RaisedP
    rw [← hcoarse]
    rfl
  · exact ⟨_, cmd?_updCmd_self (s := (s.setReg _ _).raiseP _ _ _ _ _) hc, rfl⟩

theorem runs_loomAbort {who : Who} {val : Nat} {s : State} (hwho : who = .firmware ∨ who = .part (fld val 50 48))
    (hfree : s.abort = none) (hstop : stopping s (fld val 50 48) = false) : Runs (.loomAbort who val) s fun t =>
      t.abort = some (fld val 50 48, fld val 47 0) ∧ RaisedP 67 2 (fld val 50 48) (fld val 47 0) s t ∧ Kept [] s t ∧
      t = { s with abort := t.abort, events := t.events } := by
  have hmay : (who.isFw ∨ who.isPart (fld val 50 48)) ∧ s.abort = none ∧ ¬ stopping s (fld val 50 48) := by
    refine ⟨?_, hfree, by simp [hstop]⟩
    rcases hwho with rfl | rfl <;> simp [Who.isFw, Who.isPart]
  have hrun : exec (.loomAbort who val) s = .next ({ s with abort := some (fld val 50 48, fld val 47 0) }.raiseP srcLoom 0x0002
      (fld val 50 48) (fld val 47 0) none) := by
    change execLoomAbort who val s = _
    unfold execLoomAbort
    exact if_pos hmay
  exact ⟨_, hrun, rfl, rfl, ⟨fun _ _ => rfl, fun _ => rfl⟩, rfl⟩

theorem idle_loomAbort {who : Who} {val : Nat} {s : State} (h : s.abort ≠ none ∨ ∃ p, who = .part p ∧ p ≠ fld val 50 48) :
    Idle (.loomAbort who val) s := by
  change execLoomAbort who val s = _
  unfold execLoomAbort
  refine if_neg ?_
  rintro ⟨hwho, hfree, -⟩
  rcases h with h | ⟨p, rfl, hp⟩
  · exact h hfree
  · simp [Who.isFw, Who.isPart, hp.symm] at hwho

/-- Settles O6, each clause by the branch that its hypotheses choose. -/
theorem stallsAndAborts : Obligations.StallsAndAborts := by
  unfold Obligations.StallsAndAborts
  exact ⟨fun slot s c => runs_loomStall, fun who val s => runs_loomAbort, fun who val s => idle_loomAbort⟩

end Sys2Proof
end

section
/-! PROOFS. Stores followed by changes outside memory. -/

namespace Sys2Proof

open Sys2Proof.Machine

theorem readBytes_congr {s t : State} (h : MemKept s t) (a n : Nat) : readBytes t a n = readBytes s a n := by
  unfold readBytes
  refine List.map_congr_left fun i _ => ?_
  cases canon (a + i) with
  | none => rfl
  | some c => exact h c

theorem MemKept.trans {s t u : State} (h : MemKept s t) (h' : MemKept t u) : MemKept s u := fun a => (h' a).trans (h a)

theorem Kept.trans {l : List Nat} {s t u : State} (h : Kept l s t) (h' : Kept l t u) : Kept l s u :=
  ⟨h.1.trans h'.1, h.2.trans h'.2⟩

theorem Kept.mono {l l' : List Nat} {s t : State} (h : Kept l s t) (hs : ∀ a ∈ l, a ∈ l') : Kept l' s t := ⟨h.1.mono hs, h.2⟩

/-- Where neither registers nor memory and its keys change, both are kept. -/
theorem kept_of_regs {s t : State} (hregs : t.regs = s.regs) (hm : t.mem = s.mem) (hk : t.keyTag = s.keyTag)
    (hr : rootKey t = rootKey s) (l : List Nat) : Kept l s t :=
  (kept_of_regsKept (l := []) (.of_regs hregs) hm hk hr (by simp)).mono (by simp)

/-- Bytes stored stay stored where memory is kept afterwards. -/
theorem Stored.trans_memKept {a : Nat} {bs : List Byte} {s t u : State} (h : Stored a bs s t) (h' : MemKept t u) :
    Stored a bs s u :=
  ⟨(readBytes_congr h' a _).trans h.1, fun c hc => (h' c).trans (h.2 c hc)⟩

end Sys2Proof
end

section
/-! PROOFS. Completion records: the ring of a queue and the record put into it (R109 to R111, Table 1-7): O8. -/

namespace Sys2Proof.Machine

open Sys2Proof

@[simp] theorem length_leBytes (k n : Nat) : (leBytes k n).length = k := by simp [leBytes]

@[simp] theorem length_recordBytes (t : Tracked) (r : CplRec) (phase : Bool) : (recordBytes t r phase).length = 32 := by
  simp [recordBytes]

theorem loomCqTail_home {q : Nat} (h : q < 64) : homeAddr (A.loomCqTail q) = A.loomCqTail q := by
  simp only [homeAddr, A.loomCqTail]; split_ifs <;> omega

theorem log2In_le {v lo hi d : Nat} (h : d ≤ hi) : log2In v lo hi d ≤ hi := by unfold log2In; split <;> omega

/-- Where the next record of a queue goes, and the tail after it. -/
def cqSlot (s : State) (q : Nat) : Nat := s.reg (A.loomCqBase q) + 32 * s.reg (A.loomCqTail q)
def cqNext (s : State) (q : Nat) : Nat := (s.reg (A.loomCqTail q) + 1) % 2 ^ cqLog2 s q

theorem cqNext_lt (s : State) (q : Nat) : cqNext s q < 2 ^ 64 :=
  (Nat.mod_lt _ (by positivity)).trans_le (Nat.pow_le_pow_right (by decide) ((log2In_le (by decide)).trans (by decide)))

/-- A queue's state after its next record: PHASE inverts on a wrap. -/
def cqTurned (s : State) (q : Nat) : QState :=
  { qstate s q with phase := if cqNext s q = 0 then !(qstate s q).phase else (qstate s q).phase }

/-- A command's record put into the ring of a queue below 48: the store, the phase, the tail. -/
theorem putRecord_eq (s : State) {c : Tracked} (r : CplRec) (hq : c.queue < 48) : s.putRecord c r =
    let u := s.storeBytes (cqSlot s c.queue) (recordBytes c r (qstate s c.queue).phase)
    State.setReg { u with queues := tset u.queues c.queue (cqTurned s c.queue) } (A.loomCqTail c.queue) (cqNext s c.queue) := by
  unfold State.putRecord
  exact if_neg (by omega)

/-- The ring's turn and the end of the command's record touch no memory, and of the registers the tail alone. -/
theorem kept_ringTurned (u : State) (qs : Tab QState) {q : Nat} (v slot : Nat) (hq : q < 64) :
    Kept [A.loomCqTail q] u ((State.setReg { u with queues := qs } (A.loomCqTail q) v).recordDone slot) := by
  refine kept_of_regsKept ?_ rfl rfl rfl (by simp only [A.loomCqTail, List.mem_singleton, forall_eq]; omega)
  exact ((RegsKept.refl _ u).setReg v (by rw [loomCqTail_home hq]; simp)).trans (.of_regs rfl)

/-- The first held record of a queue is written where its ring has room. -/
theorem exec_completionRecordWrite {q : Nat} {s : State} {c : Tracked} {r : CplRec} (hheld : heldRecord s q = some (c, r))
    (hq : q < 48) (hroom : cqRoom s q = true) (hdie : dieOn s = true) (hfrozen : s.frozen = false) :
    exec (.completionRecordWrite q) s = .next ((s.putRecord c r).recordDone c.slot) := by
  have hcpl : cplRoom s q = true := by simp [cplRoom, hq]
  change execCompletionRecordWrite q s = _
  unfold execCompletionRecordWrite
  rw [hheld]
  exact if_pos ⟨by omega, hroom, hcpl, hdie, by simp [hfrozen]⟩

end Sys2Proof.Machine

namespace Sys2Proof

open Sys2Proof.Machine

/-- Settles O8: the record's store is followed by changes of one register and of tables outside memory. -/
theorem completionRecordWritten : Obligations.CompletionRecordWritten := by
  unfold Obligations.CompletionRecordWritten
  intro q s c r hheld hq hqueue hroom hdie hfrozen hw
  subst hqueue
  have hrun := exec_completionRecordWrite hheld hq hroom hdie hfrozen
  rw [putRecord_eq s r hq] at hrun
  have hlen : (recordBytes c r (qstate s c.queue).phase).length = 32 := length_recordBytes c r _
  have hstored := stored_storeBytes s (cqSlot s c.queue) (recordBytes c r (qstate s c.queue).phase) (by rw [hlen]; exact hw)
  have honly := memOnly_storeBytes s (cqSlot s c.queue) (recordBytes c r (qstate s c.queue).phase) (by rw [hlen]; exact hw.2.2)
  set u := s.storeBytes (cqSlot s c.queue) (recordBytes c r (qstate s c.queue).phase)
  have hkept := kept_ringTurned u (tset u.queues c.queue (cqTurned s c.queue)) (cqNext s c.queue) c.slot (q := c.queue) (by omega)
  refine ⟨_, hrun, Stored.trans_memKept hstored hkept.2, ?tail, ?phase, ?recQ, ?settling,
    (RegsKept.of_regs honly.regs).trans hkept.1⟩
  case tail => exact (reg_setReg_self u _ _).trans (Nat.mod_eq_of_lt (cqNext_lt s _))
  case phase => exact congrArg QState.phase (tgetD_tset_self u.queues _ _ _)
  case recQ =>
    have hrecQ : u.recQ = s.recQ := by rw [honly]
    rw [← hrecQ]; rfl
  case settling =>
    have hsettling : u.settling = s.settling := by rw [honly]
    rw [← hsettling]; rfl

end Sys2Proof
end

section
/-! PROOFS. Doorbells and the registers of a submission queue (R81, R82, R88, R116, R693, R761, R945, R946): O2. -/

namespace Sys2Proof.Machine

open Sys2Proof

/-! ### The addresses of a queue's registers -/

theorem loomSqTail_home {q : Nat} (h : q < 64) : homeAddr (A.loomSqTail q) = A.loomSqTail q := by
  simp only [homeAddr, A.loomSqTail]; split_ifs <;> omega

theorem loomSqHead_home {q : Nat} (h : q < 64) : homeAddr (A.loomSqHead q) = A.loomSqHead q := by
  simp only [homeAddr, A.loomSqHead]; split_ifs <;> omega

theorem loomSqCtl_home {q : Nat} (h : q < 64) : homeAddr (A.loomSqCtl q) = A.loomSqCtl q := by
  simp only [homeAddr, A.loomSqCtl]; split_ifs <;> omega

theorem loomSqBase_home {q : Nat} (h : q < 64) : homeAddr (A.loomSqBase q) = A.loomSqBase q := by
  simp only [homeAddr, A.loomSqBase]; split_ifs <;> omega

/-! ### A doorbell -/

theorem lt_of_mayUseQueue {s : State} {who : Who} {q : Nat} (h : mayUseQueue s who q = true) : q < 64 := by
  cases who <;> simp [mayUseQueue] at h <;> omega

theorem mayUseQueue_iff {s : State} {who : Who} {q : Nat} : mayUseQueue s who q = true ↔
    who = .firmware ∧ q < 64 ∨ ∃ p, who = .part p ∧ q < 32 ∧ s.fget (A.loomSqCtl q) A.loomSqCtl_part = p := by
  cases who with
  | firmware => simp [mayUseQueue]
  | part p => simp [mayUseQueue, and_comm, eq_comm (a := p)]

/-- Waking from DOZE changes the Thimble's state and its two sleep registers. -/
theorem dozeWake_eq (s : State) (bit : Nat) :
    s.dozeWake bit = { s with regs := (s.dozeWake bit).regs, thimble := (s.dozeWake bit).thimble } := by
  unfold State.dozeWake
  dsimp only
  split <;> rfl

theorem dozeWake_pair (s : State) (bit : Nat) : (s.dozeWake bit).pair = s.pair := by rw [dozeWake_eq]

theorem regsKept_dozeWake (s : State) (bit : Nat) : RegsKept [A.thimbleSleepStatus, A.thimbleSleepCtl] s (s.dozeWake bit) := by
  have hstatus : homeAddr A.thimbleSleepStatus ∈ [A.thimbleSleepStatus, A.thimbleSleepCtl] := by decide
  have hctl : homeAddr A.thimbleSleepCtl ∈ [A.thimbleSleepStatus, A.thimbleSleepCtl] := by decide
  unfold State.dozeWake
  dsimp only
  split
  · exact (RegsKept.refl _ _).setReg _ hstatus
  · exact (RegsKept.refl _ _).setReg _ hstatus
  · exact (((RegsKept.refl _ _).setReg _ hstatus).fset _ _ hstatus).fset _ _ hctl
  · exact .refl _ s

theorem dozeWake_doze {s : State} (bit : Nat) (h : s.thimble.state = .doze) : (s.dozeWake bit).thimble.state = .dozeExit := by
  unfold State.dozeWake
  rw [h]
  rfl

/-- A doorbell's write of TAIL. -/
abbrev State.rung (s : State) (q tail : Nat) : State := s.fset (A.loomSqTail q) A.loomSqTail_tail tail

theorem reg_rung_ne (s : State) {q a : Nat} (tail : Nat) (hq : q < 64) (h : homeAddr a ≠ A.loomSqTail q) :
    (s.rung q tail).reg a = s.reg a := reg_fset_ne s _ _ (by rw [loomSqTail_home hq]; exact h.symm)

theorem sqLog2_rung (s : State) {q : Nat} (tail : Nat) (hq : q < 64) : sqLog2 (s.rung q tail) q = sqLog2 s q := by
  unfold sqLog2
  rw [fget_congr (reg_rung_ne s tail hq ?_)]
  rw [loomSqCtl_home hq]; simp only [A.loomSqCtl, A.loomSqTail]; omega

/-- Whether a module acts in a pair's steps is a function of two registers. -/
theorem inStep_congr {s t : State} (hctl : t.reg A.pairCtl = s.reg A.pairCtl) (hst : t.reg A.pairStatus = s.reg A.pairStatus) :
    inStep t = inStep s ∧ follows t = follows s := by
  simp only [inStep, follows, paired, pairSt, flag_congr hctl, fget_congr hst, and_self]

theorem inStep_rung (s : State) {q : Nat} (tail : Nat) (hq : q < 64) :
    inStep (s.rung q tail) = inStep s ∧ follows (s.rung q tail) = follows s := by
  refine inStep_congr (reg_rung_ne s tail hq ?_) (reg_rung_ne s tail hq ?_)
  · rw [show homeAddr A.pairCtl = 0x30003A04000 by decide]; simp only [A.loomSqTail]; omega
  · rw [show homeAddr A.pairStatus = 0x30003A04008 by decide]; simp only [A.loomSqTail]; omega

/-- A module that follows the holder begins no step of its own accord (R693). -/
theorem runPair_of_follows {s : State} (hf : follows s = true) (hw : s.pair.work = []) : s.runPair = s := by
  have hnext : s.pairNext = none := by
    unfold State.pairNext
    rw [hw]
    cases hheld : s.pair.held <;> simp [hf]
  unfold State.runPair
  cases s.pair.work.length + s.pair.held.length with
  | zero => rfl
  | succ n => simp [State.runPairFor, hnext]

/-- A doorbell that submits nothing, or of a module in no pair, writes TAIL. -/
theorem exec_loomSqTail {who : Who} {q tail : Nat} {s : State} (hmay : mayUseQueue s who q = true)
    (h : inStep s = false ∨ tail % 2 ^ 16 % 2 ^ sqLog2 s q = s.fget (A.loomSqTail q) A.loomSqTail_tail % 2 ^ sqLog2 s q) :
    exec (.loomSqTail who q tail) s = .next ((s.rung q tail).dozeWake 12) := by
  have hq := lt_of_mayUseQueue hmay
  have hno : ¬ (inStep (s.rung q tail) ∧
      tail % 2 ^ 16 % 2 ^ sqLog2 (s.rung q tail) q ≠ s.fget (A.loomSqTail q) A.loomSqTail_tail % 2 ^ sqLog2 s q) := by
    rw [(inStep_rung s tail hq).1, sqLog2_rung s tail hq]
    rintro ⟨hin, hne⟩
    exact h.elim (fun h => by simp [h] at hin) hne
  change execLoomSqTail who q tail s = _
  unfold execLoomSqTail
  rw [if_pos hmay]
  dsimp only
  rw [if_neg hno]
  rfl

/-- The step that a doorbell submits on a module that follows is held back. -/
abbrev State.holdStep (s : State) (q tail : Nat) : State :=
  { s.rung q tail with
    pair := { s.pair with held := s.pair.held ++ [(q, s.fget (A.loomSqTail q) A.loomSqTail_tail % 2 ^ sqLog2 s q)] } }

theorem exec_loomSqTail_follows {who : Who} {q tail : Nat} {s : State} (hmay : mayUseQueue s who q = true) (hf : follows s = true)
    (hw : s.pair.work = [])
    (hne : tail % 2 ^ 16 % 2 ^ sqLog2 s q ≠ s.fget (A.loomSqTail q) A.loomSqTail_tail % 2 ^ sqLog2 s q) :
    exec (.loomSqTail who q tail) s = .next ((s.holdStep q tail).dozeWake 12) := by
  have hq := lt_of_mayUseQueue hmay
  have hin : inStep s = true := by
    unfold inStep
    have hp : paired s = true := by unfold follows at hf; simp only [Bool.and_eq_true] at hf; exact hf.1
    simp [hp, hf]
  have hyes : inStep (s.rung q tail) ∧
      tail % 2 ^ 16 % 2 ^ sqLog2 (s.rung q tail) q ≠ s.fget (A.loomSqTail q) A.loomSqTail_tail % 2 ^ sqLog2 s q := by
    rw [(inStep_rung s tail hq).1, sqLog2_rung s tail hq]
    exact ⟨hin, hne⟩
  have hrun : (s.holdStep q tail).runPair = s.holdStep q tail := runPair_of_follows ((inStep_rung s tail hq).2.trans hf) hw
  change execLoomSqTail who q tail s = _
  unfold execLoomSqTail
  rw [if_pos hmay]
  dsimp only
  rw [if_pos hyes, ← hrun]
  rfl

/-- What a doorbell leaves in the registers: TAIL as written, and the Thimble's two where it woke the module. -/
theorem doorbell_regs {s u : State} {q tail : Nat} (hq : q < 64) (hu : u.regs = (s.rung q tail).regs) (hm : u.mem = s.mem)
    (hk : u.keyTag = s.keyTag) (hr : rootKey u = rootKey s) :
    (u.dozeWake 12).fget (A.loomSqTail q) A.loomSqTail_tail = tail % 2 ^ 16 ∧
      Kept [A.loomSqTail q, A.thimbleSleepStatus, A.thimbleSleepCtl] s (u.dozeWake 12) := by
  have hwake := regsKept_dozeWake u 12
  constructor
  · refine (fget_congr (hwake (A.loomSqTail q) ?_) _).trans <|
      (fget_congr (reg_congr hu _) _).trans (fget_fset_self s _ _ (by decide) (by decide))
    rw [loomSqTail_home hq]
    simp only [A.loomSqTail, A.thimbleSleepStatus, A.thimbleSleepCtl, List.mem_cons, List.not_mem_nil, or_false]
    omega
  · refine kept_of_regsKept ?_ ?_ ?_ ?_ ?_
    · refine RegsKept.trans (t := u) ?_ (hwake.mono (by simp))
      exact ((RegsKept.refl _ s).fset A.loomSqTail_tail tail (by rw [loomSqTail_home hq]; simp)).trans (.of_regs hu)
    · rw [dozeWake_eq]; exact hm
    · rw [dozeWake_eq]; exact hk
    · rw [dozeWake_eq]; exact hr
    · simp only [A.loomSqTail, A.thimbleSleepStatus, A.thimbleSleepCtl, List.mem_cons, List.not_mem_nil, or_false, forall_eq_or_imp,
        forall_eq]
      omega

end Sys2Proof.Machine

namespace Sys2Proof

open Sys2Proof.Machine

theorem runs_doorbell {who : Who} {q tail : Nat} {s : State} (hmay : mayUseQueue s who q = true)
    (h : inStep s = false ∨ tail % 2 ^ 16 % 2 ^ sqLog2 s q = s.fget (A.loomSqTail q) A.loomSqTail_tail % 2 ^ sqLog2 s q) :
    Runs (.loomSqTail who q tail) s fun t =>
      t.fget (A.loomSqTail q) A.loomSqTail_tail = tail % 2 ^ 16 ∧
      (s.thimble.state = .doze → t.thimble.state = .dozeExit) ∧
      Kept [A.loomSqTail q, A.thimbleSleepStatus, A.thimbleSleepCtl] s t ∧
      t = { s with regs := t.regs, thimble := t.thimble } := by
  obtain ⟨htail, hkept⟩ := doorbell_regs (s := s) (u := s.rung q tail) (tail := tail) (lt_of_mayUseQueue hmay) rfl rfl rfl rfl
  exact ⟨_, exec_loomSqTail hmay h, htail, fun hd => dozeWake_doze 12 hd, hkept, dozeWake_eq _ 12⟩

theorem runs_heldDoorbell {who : Who} {q tail : Nat} {s : State} (hmay : mayUseQueue s who q = true) (hf : follows s = true)
    (hw : s.pair.work = [])
    (hne : tail % 2 ^ 16 % 2 ^ sqLog2 s q ≠ s.fget (A.loomSqTail q) A.loomSqTail_tail % 2 ^ sqLog2 s q) :
    Runs (.loomSqTail who q tail) s fun t =>
      t.fget (A.loomSqTail q) A.loomSqTail_tail = tail % 2 ^ 16 ∧
      t.pair = { s.pair with held := s.pair.held ++ [(q, s.fget (A.loomSqTail q) A.loomSqTail_tail % 2 ^ sqLog2 s q)] } ∧
      (s.fget (A.loomSqHead q) A.loomSqHead_head = s.fget (A.loomSqTail q) A.loomSqTail_tail % 2 ^ sqLog2 s q →
        queueReady t q = false) ∧
      Kept [A.loomSqTail q, A.thimbleSleepStatus, A.thimbleSleepCtl] s t ∧
      t = { s with regs := t.regs, thimble := t.thimble, pair := t.pair } := by
  have hq := lt_of_mayUseQueue hmay
  obtain ⟨htail, hkept⟩ := doorbell_regs (s := s) (u := s.holdStep q tail) (tail := tail) hq rfl rfl rfl rfl
  have hpair : ((s.holdStep q tail).dozeWake 12).pair = (s.holdStep q tail).pair := dozeWake_pair _ 12
  refine ⟨_, exec_loomSqTail_follows hmay hf hw hne, htail, hpair, fun hhead => ?_, hkept,
    by rw [hpair]; exact dozeWake_eq (s.holdStep q tail) 12⟩
  have hreg : ((s.holdStep q tail).dozeWake 12).reg (A.loomSqHead q) = s.reg (A.loomSqHead q) := by
    refine hkept.1 _ ?_
    rw [loomSqHead_home hq]
    simp only [A.loomSqHead, A.loomSqTail, A.thimbleSleepStatus, A.thimbleSleepCtl, List.mem_cons, List.not_mem_nil, or_false]
    omega
  have hheld : (q, ((s.holdStep q tail).dozeWake 12).fget (A.loomSqHead q) A.loomSqHead_head) ∈
      ((s.holdStep q tail).dozeWake 12).pair.held := by
    rw [fget_congr hreg, hhead, hpair]
    simp
  unfold queueReady
  simp [hheld]

theorem idle_doorbell_foreign {p q tail : Nat} {s : State} (h : 32 ≤ q ∨ s.fget (A.loomSqCtl q) A.loomSqCtl_part ≠ p) :
    Idle (.loomSqTail (.part p) q tail) s := by
  have hno : mayUseQueue s (.part p) q = false := by
    simp only [mayUseQueue, Bool.and_eq_false_iff, decide_eq_false_iff_not, beq_eq_false_iff_ne]
    exact h.imp Nat.not_lt.mpr id
  change execLoomSqTail _ q tail s = _
  unfold execLoomSqTail
  rw [hno]
  rfl

theorem runs_loomSqBase {q base : Nat} {s : State} (hq : q < 64) : Runs (.loomSqBase .firmware q base) s fun t =>
    t.fget (A.loomSqBase q) A.loomSqBase_base = base / 64 * 64 % 2 ^ 48 ∧ (qstate t q).ref = none ∧
    (∀ k, k ≠ q → qstate t k = qstate s k) ∧
    Kept [A.loomSqBase q] s t ∧ t = { s with regs := t.regs, queues := t.queues } := by
  have hrun : exec (.loomSqBase .firmware q base) s = .next
      { s.fset (A.loomSqBase q) A.loomSqBase_base (base / 64 * 64) with
        queues := tset s.queues q { qstate s q with ref := none } } := if_pos ⟨rfl, hq⟩
  refine ⟨_, hrun, fget_fset_self s _ _ (by decide) (by decide), ?_, fun k hk => tgetD_tset_ne s.queues _ _ hk.symm, ?_, rfl⟩
  · exact congrArg QState.ref (tgetD_tset_self s.queues q _ _)
  · refine (kept_setReg s _ ?_ (loomSqBase_home hq)).trans (kept_of_regs rfl rfl rfl rfl _)
    simp only [A.loomSqBase]; omega

/-- BASE and CTL written by a partition do nothing (R81). -/
theorem idle_loomSqBase_part (p q base : Nat) (s : State) : Idle (.loomSqBase (.part p) q base) s := by
  change execLoomSqBase _ q base s = _
  unfold execLoomSqBase
  simp [Who.isFw, ok]

theorem idle_loomSqCtl_part (p q val : Nat) (s : State) : Idle (.loomSqCtl (.part p) q val) s := by
  change execLoomSqCtl _ q val s = _
  unfold execLoomSqCtl
  simp [Who.isFw, ok]

theorem runs_loomSqCtl {q val : Nat} {s : State} (hq : q < 64) : Runs (.loomSqCtl .firmware q val) s fun t =>
    t.fget (A.loomSqCtl q) (12, 0) = val % 2 ^ 13 ∧
    t.reg (A.loomSqHead q) = (if val.testBit 0 then s.reg (A.loomSqHead q)
      else setFld (s.reg (A.loomSqHead q)) 63 63 0 % 2 ^ 64) ∧
    Kept [A.loomSqCtl q, A.loomSqHead q] s t ∧ t = { s with regs := t.regs } := by
  have hrun : exec (.loomSqCtl .firmware q val) s = .next (if val.testBit 0 then s.fset (A.loomSqCtl q) (12, 0) val
      else (s.fset (A.loomSqCtl q) (12, 0) val).fset (A.loomSqHead q) A.loomSqHead_fetchErr 0) := if_pos ⟨rfl, hq⟩
  have hne : homeAddr (A.loomSqCtl q) ≠ homeAddr (A.loomSqHead q) := by
    rw [loomSqCtl_home hq, loomSqHead_home hq]
    simp only [A.loomSqCtl, A.loomSqHead]; omega
  have hctl : (s.fset (A.loomSqCtl q) (12, 0) val).fget (A.loomSqCtl q) (12, 0) = val % 2 ^ 13 :=
    fget_fset_self s _ _ (by decide) (by decide)
  have hhead : (s.fset (A.loomSqCtl q) (12, 0) val).reg (A.loomSqHead q) = s.reg (A.loomSqHead q) := reg_fset_ne s _ _ hne
  have hkept : Kept [A.loomSqCtl q, A.loomSqHead q] s (s.fset (A.loomSqCtl q) (12, 0) val) :=
    (kept_setReg s _ (by simp only [A.loomSqCtl]; omega) (loomSqCtl_home hq)).mono (by simp)
  refine ⟨_, hrun, ?_⟩
  split
  · exact ⟨hctl, hhead, hkept, rfl⟩
  · refine ⟨(fget_fset_ne _ _ _ _ hne.symm).trans hctl, ?_, hkept.trans ?_, rfl⟩
    · exact (reg_setReg_self _ _ _).trans (by rw [hhead])
    · exact (kept_setReg _ _ (by simp only [A.loomSqHead]; omega) (loomSqHead_home hq)).mono (by simp)

/-- Settles O2: each clause is the law of its register's write. -/
theorem submissionQueueRegisters : Obligations.SubmissionQueueRegisters := by
  unfold Obligations.SubmissionQueueRegisters
  exact ⟨fun who q tail s hwho => runs_doorbell (mayUseQueue_iff.mpr hwho), fun who q tail s => runs_heldDoorbell,
    fun p q tail s => idle_doorbell_foreign, fun q base s => runs_loomSqBase, idle_loomSqBase_part, fun q val s => runs_loomSqCtl,
    idle_loomSqCtl_part⟩

end Sys2Proof
end

section
/-! PROOFS. Tiles and credits on the Seam (R41, R44 to R48, R938, R940): O5. -/

namespace Sys2Proof.Machine

open Sys2Proof

/-! ### Channels -/

theorem ends_of_inChan? {s : State} {slot inp : Nat} {k : Chan} (h : inChan? s slot inp = some k) : k.cons = slot ∧ k.inp = inp := by
  simpa using List.find?_some h

/-- Channels changed by a function that keeps their consumers' ends: the channel of an input is the function's value at the one before. -/
theorem inChan?_map {s t : State} {g : Chan → Chan} (ht : t.chans = s.chans.map g)
    (hg : ∀ c, (g c).cons = c.cons ∧ (g c).inp = c.inp) (slot inp : Nat) : inChan? t slot inp = (inChan? s slot inp).map g := by
  unfold inChan?
  rw [ht, List.find?_map]
  congr 2
  funext c
  simp [hg c]

/-- A tile taken off the Seam leaves the channel's other tiles, and returns its credit or not. -/
theorem inChan?_popFlight {s : State} {slot inp : Nat} {k : Chan} {f : Flit} {r : List Flit} (hk : inChan? s slot inp = some k)
    (hf : k.flight = f :: r) (credit : Bool) : inChan? (s.popFlight slot inp credit) slot inp =
      some { k with flight := r, net := if credit then k.net + 1 else k.net } := by
  obtain ⟨hcons, hinp⟩ := ends_of_inChan? hk
  rw [inChan?_map (s := s) rfl (fun c => by split <;> simp), hk]
  simp [hcons, hinp, hf]

theorem runs_creditReturn {slot inp : Nat} {s : State} {k : Chan} (hk : inChan? s slot inp = some k) (hnet : 0 < k.net) :
    Runs (.creditReturn slot inp) s fun t =>
      (∃ k' : Chan, inChan? t slot inp = some k' ∧ k'.credits = k.credits + 1 ∧ k'.net = k.net - 1) ∧ Kept [] s t ∧
      t = { s with chans := t.chans } := by
  obtain ⟨hcons, hinp⟩ := ends_of_inChan? hk
  refine ⟨_, rfl, ⟨{ k with net := k.net - 1, credits := k.credits + 1 }, ?_, rfl, rfl⟩, kept_of_regs rfl rfl rfl rfl _, rfl⟩
  rw [inChan?_map (s := s) rfl (fun c => by split <;> simp), hk]
  simp [hcons, hinp, hnet]

/-! ### Sending -/

/-- A tile sent to every consumer that takes tiles, and out of the command's queue. -/
def State.sentTile (s : State) (slot out : Nat) (c : Tracked) (sent : Nat) (x : Tile) (r : List Tile) : State :=
  State.updCmd { s with chans := s.chans.map fun (k : Chan) =>
      if k.prod == slot && k.out == out && takesTiles s k then
        { k with credits := k.credits - 1, flight := k.flight ++ [Flit.mk c.part x] } else k } slot fun u =>
    { u with
        tilesOut := if u.rerun ∨ x.index < sent then u.tilesOut else u.tilesOut + 1, moved := s.tb.n, stallSent := false
        outs := u.outs.mapIdx fun j p => if j = out then { p with queue := r, sent := max p.sent (x.index + 1) } else p }

/-- Beside that, a tile that leaves is counted and traced. -/
theorem exec_tileSend {slot out : Nat} {s : State} {c : Tracked} {o : OutBind} {x : Tile} {r : List Tile} (hc : s.cmd? slot = some c)
    (ho : c.outs[out]? = some o) (hq : o.queue = x :: r) (hunit : c.phase.onUnit = true)
    (hncons : (outChans s slot out).length = o.ncons) (hcred : ∀ k ∈ outChans s slot out, takesTiles s k = true → 0 < k.credits)
    (hhold : s.traceHold.contains c.station = false) (hfrozen : s.frozen = false) (hstop : stopping s c.part = false) :
    ∃ t, exec (.tileSend slot out) s = .next (t.settle slot) ∧
      DbgOnly (dbgRegs c.station) (s.sentTile slot out c o.sent x r) t := by
  have hgo : c.phase.onUnit ∧ (outChans s slot out).length = o.ncons ∧
      (((outChans s slot out).filter (takesTiles s)).all fun k => decide (0 < k.credits)) ∧ ¬ s.traceHold.contains c.station ∧
      ¬ s.frozen ∧ ¬ stopping s c.part := by
    refine ⟨hunit, hncons, ?_, by simp only [hhold]; simp, by simp [hfrozen], by simp [hstop]⟩
    simp only [List.all_eq_true, List.mem_filter, decide_eq_true_eq]
    exact fun k hk => hcred k hk.1 hk.2
  change ∃ t, execTileSend slot out s = _ ∧ _
  unfold execTileSend
  rw [hc]
  dsimp only
  rw [ho]
  dsimp only
  rw [hq]
  dsimp only
  rw [if_pos hgo]
  refine ⟨_, rfl, ?_⟩
  exact .thenIte (.thenIte (.unlessIte (.trans ((dbgOnly_linkFlits ..).mono (gcnt_sub_dbgRegs _)) (dbgOnly_count ..))
    (dbgOnly_count ..)) (dbgOnly_trace_dbgRegs ..)) (dbgOnly_trace_dbgRegs ..)

/-- What a sent tile makes of its command. -/
def Tracked.sentTile (c : Tracked) (out sent n : Nat) (x : Tile) (r : List Tile) : Tracked :=
  { c with
      tilesOut := if c.rerun ∨ x.index < sent then c.tilesOut else c.tilesOut + 1, moved := n, stallSent := false
      outs := c.outs.mapIdx fun j p => if j = out then { p with queue := r, sent := max p.sent (x.index + 1) } else p }

theorem cmd?_sentTile {s : State} {slot : Nat} {c : Tracked} (hc : s.cmd? slot = some c) (out sent : Nat) (x : Tile) (r : List Tile) :
    (s.sentTile slot out c sent x r).cmd? slot = some (c.sentTile out sent s.tb.n x r) := cmd?_updCmd_self hc

theorem outs_sentTile {c : Tracked} {out : Nat} {o : OutBind} (ho : c.outs[out]? = some o) (sent n : Nat) (x : Tile) (r : List Tile) :
    (c.sentTile out sent n x r).outs[out]? = some { o with queue := r, sent := max o.sent (x.index + 1) } := by
  refine (getElem?_mapIdx_at c.outs out fun p => { p with queue := r, sent := max p.sent (x.index + 1) }).trans ?_
  rw [ho]; rfl

/-- A command that runs, or has more tiles to send, does not leave its unit with a tile. -/
theorem settle_sentTile {t : State} {slot : Nat} {c : Tracked} {o : OutBind} {out sent n : Nat} {x : Tile} {r : List Tile}
    (ht : t.cmd? slot = some (c.sentTile out sent n x r)) (ho : c.outs[out]? = some o) (h : c.phase = .running ∨ r ≠ []) :
    t.settle slot = t := by
  rcases h with h | h
  · exact checkDrain_eq_self ht (by simp [Tracked.sentTile, h])
  · refine checkDrain_of_queue ht ?_
    rw [List.all_eq_false]
    exact ⟨_, List.mem_of_getElem? (outs_sentTile ho sent n x r), by simpa using h⟩

theorem runs_tileSend {slot out : Nat} {s : State} {c : Tracked} {o : OutBind} {x : Tile} {r : List Tile} (hc : s.cmd? slot = some c)
    (ho : c.outs[out]? = some o) (hq : o.queue = x :: r) (hunit : c.phase.onUnit = true) (hmore : c.phase = .running ∨ r ≠ [])
    (hncons : (outChans s slot out).length = o.ncons) (hcred : ∀ k ∈ outChans s slot out, takesTiles s k = true → 0 < k.credits)
    (hhold : s.traceHold.contains c.station = false) (hfrozen : s.frozen = false) (hstop : stopping s c.part = false) :
    Runs (.tileSend slot out) s fun t =>
      t.chans = s.chans.map (fun k => if k.prod = slot ∧ k.out = out ∧ takesTiles s k = true then
        { k with credits := k.credits - 1, flight := k.flight ++ [Flit.mk c.part x] } else k) ∧
      (∃ (u : Tracked) (p : OutBind), t.cmd? slot = some u ∧
        u.tilesOut = (if c.rerun = true ∨ x.index < o.sent then c.tilesOut else c.tilesOut + 1) ∧ u.moved = s.tb.n ∧
        u.outs[out]? = some p ∧ p.queue = r ∧ p.sent = max o.sent (x.index + 1)) ∧
      t.events = s.events ∧ Kept (dbgRegs c.station) s t := by
  obtain ⟨t, hrun, hdbg⟩ := exec_tileSend hc ho hq hunit hncons hcred hhold hfrozen hstop
  have hcmd : t.cmd? slot = some (c.sentTile out o.sent s.tb.n x r) := (cmd?_congr hdbg.tracked slot).trans (cmd?_sentTile hc ..)
  rw [settle_sentTile hcmd ho hmore] at hrun
  refine ⟨t, hrun, ?_, ⟨_, _, hcmd, rfl, rfl, outs_sentTile ho .., rfl, rfl⟩, hdbg.events, (kept_of_regs rfl rfl rfl rfl _).trans hdbg.kept⟩
  rw [hdbg.chans]
  refine List.map_congr_left fun k _ => ?_
  simp only [Bool.and_eq_true, beq_iff_eq, and_assoc]

/-! ### Taking -/

/-- The command with the tile that an input expects in its receive window. -/
def Tracked.acceptTile (c : Tracked) (inp n : Nat) (x : Tile) : Tracked :=
  { c with
      moved := n, stallSent := false, arrivals := c.arrivals ++ [inp]
      ins := c.ins.mapIdx fun j b =>
        if j = inp then { b with next := b.next + 1, window := b.window ++ [x], lastIn := x.last } else b }

/-- The tile taken off the Seam into its command's receive window. -/
def State.acceptTile (s : State) (slot inp : Nat) (x : Tile) : State :=
  (s.popFlight slot inp false).updCmd slot fun u => u.acceptTile inp s.tb.n x

theorem ins_acceptTile {c : Tracked} {inp : Nat} {b : InBind} (hb : c.ins[inp]? = some b) (n : Nat) (x : Tile) :
    (c.acceptTile inp n x).ins[inp]? = some { b with next := b.next + 1, window := b.window ++ [x], lastIn := x.last } := by
  refine (getElem?_mapIdx_at c.ins inp fun b => { b with next := b.next + 1, window := b.window ++ [x], lastIn := x.last }).trans ?_
  rw [hb]; rfl

/-- A header and rows that a station of a class accepts (R50, R53, R176). -/
def tileAccepted (cls : Nat) (x : Tile) : Prop :=
  x.reserved = 0 ∧ x.format < 0x10 ∧ wholeRow x.format (tileRowBytes x) = true ∧ (x.zc = true → cls ≠ 1)

/-- A tile with LAST is traced, and may end its stream's life. -/
theorem exists_latchLife_of_ite {l : List Nat} {s u v : State} {p : Prop} [Decidable p] {slot : Nat} (hu : DbgOnly l s u)
    (hv : DbgOnly l u v) :
    ∃ t w, ok (if p then v.latchLife slot else u) = .next w ∧ DbgOnly l s t ∧ (w = t ∨ w = t.latchLife slot) := by
  split
  · exact ⟨v, _, rfl, hu.trans hv, .inr rfl⟩
  · exact ⟨u, _, rfl, hu, .inl rfl⟩

theorem ceErrStatus_home {st : Nat} (h : st < 48) : homeAddr (A.ceErrStatus st) = A.ceErrStatus st := by
  simp only [homeAddr, A.ceErrStatus]; split_ifs <;> omega

theorem ceErrStatus_apart {st : Nat} (h : st < 48) : A.ceErrStatus st < 0x030003008100 ∨ 0x03000300A000 ≤ A.ceErrStatus st := by
  simp only [A.ceErrStatus]; omega

theorem satTo_lt (w n : Nat) : satTo w n < 2 ^ w := by
  have : 0 < 2 ^ w := by positivity
  unfold satTo; omega

theorem fget_bump_loomTagDrop (s : State) (n : Nat) : (s.bump A.loomTagDrop A.loomTagDrop_count n).fget A.loomTagDrop
    A.loomTagDrop_count = satTo 32 (s.fget A.loomTagDrop A.loomTagDrop_count + n) :=
  (fget_fset_self s _ _ (by decide) (by decide)).trans (Nat.mod_eq_of_lt (satTo_lt 32 _))

theorem ceErrStatus_ne_loomTagDrop {st : Nat} (h : st < 48) : homeAddr (A.ceErrStatus st) ≠ homeAddr A.loomTagDrop := by
  rw [ceErrStatus_home h, show homeAddr A.loomTagDrop = A.loomTagDrop from by decide]
  simp only [A.ceErrStatus, A.loomTagDrop]; omega

theorem loomTagDrop_not_mem_dbgGcnt : homeAddr A.loomTagDrop ∉ (List.range 64).map A.dbgGcnt := by decide

/-- A foreign tile's flits dropped while its partition is not being torn down: counted, and reported once (R41). -/
theorem tagDrop_of_running {s : State} {p : Nat} (hstop : stopping s p = false) (hfree : tgetD s.tdFree p 0 ≤ s.tb.n) (st n : Nat) :
    ∃ t, s.tagDrop st p n = t ∧
      t.fget A.loomTagDrop A.loomTagDrop_count = satTo 32 (s.fget A.loomTagDrop A.loomTagDrop_count + n) ∧
      t.reports = s.reports ++ [(dataSource st, 2, 0x10)] ∧ t.tracked = s.tracked ∧ t.chans = s.chans := by
  have hrun : ¬ (stopping s p ∨ s.tb.n < tgetD s.tdFree p 0) := by simp [hstop, hfree]
  refine ⟨_, rfl, ?_⟩
  unfold State.tagDrop
  rw [if_neg hrun]
  dsimp only
  generalize hport : (if st < 48 then s.setReg (A.ceErrStatus st) (s.reg (A.ceErrStatus st) ||| 0x10) else s) = u
  have hu : u.fget A.loomTagDrop A.loomTagDrop_count = s.fget A.loomTagDrop A.loomTagDrop_count ∧ u.reports = s.reports ∧
      u.tracked = s.tracked ∧ u.chans = s.chans := by
    subst hport
    split
    · next hst => exact ⟨fget_congr (reg_setReg_ne s _ (ceErrStatus_ne_loomTagDrop hst)) _, rfl, rfl, rfl⟩
    · exact ⟨rfl, rfl, rfl, rfl⟩
  obtain ⟨hcount, hreports, htracked, hchans⟩ := hu
  have hdbg := dbgOnly_gcount (u.bump A.loomTagDrop A.loomTagDrop_count n) 6 st n none
  generalize (u.bump A.loomTagDrop A.loomTagDrop_count n).gcount 6 st n none = v at hdbg ⊢
  refine ⟨?_, ?_, hdbg.tracked.trans htracked, hdbg.chans.trans hchans⟩
  · change v.fget A.loomTagDrop A.loomTagDrop_count = _
    refine (fget_congr (hdbg.2 A.loomTagDrop loomTagDrop_not_mem_dbgGcnt) _).trans ?_
    rw [fget_bump_loomTagDrop, hcount]
  · rw [← hreports]
    exact congrArg (· ++ [(dataSource st, 2, 0x10)]) hdbg.reports

/-- What a station does with the next tile of an input, by its tag and its index. One that is expected and accepted enters the receive
window, is counted and traced, and with LAST the life of its stream may end. -/
theorem exec_tileArrive {slot inp : Nat} {s : State} {c : Tracked} {k : Chan} {b : InBind} {f : Flit} {r : List Flit}
    (hc : s.cmd? slot = some c) (hk : inChan? s slot inp = some k) (hb : c.ins[inp]? = some b) (hf : k.flight = f :: r)
    (hfrozen : s.frozen = false) : ∃ rest : Out,
      exec (.tileArrive slot inp) s = (
        if f.tag ≠ c.part then .next ((s.popFlight slot inp true).tagDrop c.station f.tag (tileFlits f.tile))
        else if f.tile.index < b.next then .next (s.popFlight slot inp true)
        else if b.next < f.tile.index then .next ((s.popFlight slot inp true).indexGap c)
        else rest) ∧
      (b.discard = false → tileAccepted c.desc.cls f.tile → ∃ t u,
        rest = .next u ∧ DbgOnly (dbgRegs c.station) (s.acceptTile slot inp f.tile) t ∧ (u = t ∨ u = t.latchLife k.prod)) := by
  have hnot : ¬ s.frozen = true := by simp [hfrozen]
  change ∃ rest, execTileArrive slot inp s = _ ∧ _
  unfold execTileArrive
  rw [hc, hk]
  dsimp only
  rw [hb, hf]
  dsimp only
  rw [if_neg hnot]
  refine ⟨_, rfl, fun hdis hacc => ?_⟩
  obtain ⟨hres, hfmt, hrow, hzc⟩ := hacc
  have hform : ¬ (f.tile.reserved ≠ 0 ∨ 0x10 ≤ f.tile.format) := by omega
  rw [if_neg (by simp [hdis]), if_neg hform, if_neg (by simp [hrow]), if_neg (by tauto)]
  refine exists_latchLife_of_ite ?_ (dbgOnly_trace_dbgRegs ..)
  exact .thenIte (.thenIte (dbgOnly_count ..) (dbgOnly_count ..)) (dbgOnly_trace_dbgRegs ..)

theorem latchLife_eq (s : State) (p : Nat) : s.latchLife p = { s with tracked := (s.latchLife p).tracked } := by
  unfold State.latchLife
  split <;> rfl

/-- What ends a stream's life is told of its producer's outputs alone. -/
theorem ins_latchLife {s : State} {slot : Nat} {c : Tracked} (hc : s.cmd? slot = some c) (p : Nat) :
    ∃ u, (s.latchLife p).cmd? slot = some u ∧ u.ins = c.ins := by
  unfold State.latchLife
  split
  · exact ⟨c, hc, rfl⟩
  · rw [cmd?_updCmd s p slot _ (by intro u; rfl), hc]
    refine ⟨_, rfl, ?_⟩
    split <;> rfl

theorem runs_tileArrive_expected {slot inp : Nat} {s : State} {c : Tracked} {k : Chan} {b : InBind} {f : Flit} {r : List Flit}
    (hc : s.cmd? slot = some c) (hk : inChan? s slot inp = some k) (hb : c.ins[inp]? = some b) (hf : k.flight = f :: r)
    (hfrozen : s.frozen = false) (htag : f.tag = c.part) (hidx : f.tile.index = b.next) (hdis : b.discard = false)
    (hacc : tileAccepted c.desc.cls f.tile) :
    Runs (.tileArrive slot inp) s fun t =>
      (∃ (u : Tracked) (b' : InBind), t.cmd? slot = some u ∧ u.ins[inp]? = some b' ∧ b'.window = b.window ++ [f.tile] ∧
        b'.next = b.next + 1 ∧ b'.lastIn = f.tile.last) ∧
      (∃ k' : Chan, inChan? t slot inp = some k' ∧ k'.flight = r ∧ k'.net = k.net ∧ k'.credits = k.credits) ∧
      t.events = s.events ∧ Kept (dbgRegs c.station) s t := by
  obtain ⟨rest, hrun, hrest⟩ := exec_tileArrive hc hk hb hf hfrozen
  rw [if_neg (by simp [htag]), if_neg (by omega), if_neg (by omega)] at hrun
  obtain ⟨t, u, hu, hdbg, hlatch⟩ := hrest hdis hacc
  rw [hu] at hrun
  have hcmd : t.cmd? slot = some (c.acceptTile inp s.tb.n f.tile) :=
    (cmd?_congr hdbg.tracked slot).trans (cmd?_updCmd_self (s := s.popFlight slot inp false) hc)
  have hout : u = { t with tracked := u.tracked } := by
    rcases hlatch with rfl | rfl
    · rfl
    · exact latchLife_eq ..
  have hins : ∃ v, u.cmd? slot = some v ∧ v.ins = (c.acceptTile inp s.tb.n f.tile).ins := by
    rcases hlatch with rfl | rfl
    · exact ⟨_, hcmd, rfl⟩
    · exact ins_latchLife hcmd _
  obtain ⟨v, hv, hvins⟩ := hins
  refine ⟨u, hrun, ⟨v, { b with next := b.next + 1, window := b.window ++ [f.tile], lastIn := f.tile.last }, hv, ?_, rfl, rfl, rfl⟩,
    ⟨{ k with flight := r }, ?_, rfl, rfl, rfl⟩, ?_, ?_⟩
  · rw [hvins]
    exact ins_acceptTile hb ..
  · have hchans : u.chans = (s.popFlight slot inp false).chans := by rw [hout]; exact hdbg.chans
    unfold inChan?
    rw [hchans]
    exact inChan?_popFlight hk hf false
  · rw [hout]; exact hdbg.events
  · rw [hout]
    exact ((kept_of_regs rfl rfl rfl rfl _).trans hdbg.kept).trans (kept_of_regs rfl rfl rfl rfl _)

theorem runs_tileArrive_lower {slot inp : Nat} {s : State} {c : Tracked} {k : Chan} {b : InBind} {f : Flit} {r : List Flit}
    (hc : s.cmd? slot = some c) (hk : inChan? s slot inp = some k) (hb : c.ins[inp]? = some b) (hf : k.flight = f :: r)
    (hfrozen : s.frozen = false) (htag : f.tag = c.part) (hidx : f.tile.index < b.next) :
    Runs (.tileArrive slot inp) s fun t =>
      (∃ k' : Chan, inChan? t slot inp = some k' ∧ k'.flight = r ∧ k'.net = k.net + 1) ∧ Kept [] s t ∧
      t = { s with chans := t.chans } := by
  obtain ⟨rest, hrun, -⟩ := exec_tileArrive hc hk hb hf hfrozen
  rw [if_neg (by simp [htag]), if_pos hidx] at hrun
  exact ⟨_, hrun, ⟨_, inChan?_popFlight hk hf true, rfl, rfl⟩, kept_of_regs rfl rfl rfl rfl _, rfl⟩

theorem runs_tileArrive_gap {slot inp : Nat} {s : State} {c : Tracked} {k : Chan} {b : InBind} {f : Flit} {r : List Flit}
    (hc : s.cmd? slot = some c) (hk : inChan? s slot inp = some k) (hb : c.ins[inp]? = some b) (hf : k.flight = f :: r)
    (hfrozen : s.frozen = false) (htag : f.tag = c.part) (hidx : b.next < f.tile.index) (hst : c.station < 48) :
    Runs (.tileArrive slot inp) s fun t =>
      (t.reg (A.ceErrStatus c.station)).testBit 4 = true ∧ t.reports = s.reports ++ [(dataSource c.station, 2, 0x10)] ∧
      t.tracked = s.tracked ∧ Kept [A.ceErrStatus c.station] s t := by
  obtain ⟨rest, hrun, -⟩ := exec_tileArrive hc hk hb hf hfrozen
  have hgap : (s.popFlight slot inp true).indexGap c =
      ((s.popFlight slot inp true).setReg (A.ceErrStatus c.station) (s.reg (A.ceErrStatus c.station) ||| 0x10)).pinReport
        (dataSource c.station) 2 0x10 := if_pos hst
  rw [if_neg (by simp [htag]), if_neg (by omega), if_pos hidx, hgap] at hrun
  refine ⟨_, hrun, ?_, rfl, rfl, ?_⟩
  · change (State.reg (State.setReg _ _ _) _).testBit 4 = true
    rw [reg_setReg_self, Nat.testBit_mod_two_pow, Nat.testBit_or, show Nat.testBit 0x10 4 = true from by decide]
    simp
  · exact ((kept_of_regs rfl rfl rfl rfl _).trans (kept_setReg _ _ (ceErrStatus_apart hst) (ceErrStatus_home hst))).trans
      (kept_of_regs rfl rfl rfl rfl _)

theorem runs_tileArrive_foreign {slot inp : Nat} {s : State} {c : Tracked} {k : Chan} {b : InBind} {f : Flit} {r : List Flit}
    (hc : s.cmd? slot = some c) (hk : inChan? s slot inp = some k) (hb : c.ins[inp]? = some b) (hf : k.flight = f :: r)
    (hfrozen : s.frozen = false) (htag : f.tag ≠ c.part) (hstop : stopping s f.tag = false)
    (hfree : tgetD s.tdFree f.tag 0 ≤ s.tb.n) :
    Runs (.tileArrive slot inp) s fun t =>
      t.fget A.loomTagDrop A.loomTagDrop_count = satTo 32 (s.fget A.loomTagDrop A.loomTagDrop_count + tileFlits f.tile) ∧
      t.reports = s.reports ++ [(dataSource c.station, 2, 0x10)] ∧ t.tracked = s.tracked ∧
      (∃ k' : Chan, inChan? t slot inp = some k' ∧ k'.flight = r ∧ k'.net = k.net + 1) := by
  obtain ⟨rest, hrun, -⟩ := exec_tileArrive hc hk hb hf hfrozen
  rw [if_pos htag] at hrun
  obtain ⟨t, ht, hcount, hreports, htracked, hchans⟩ := tagDrop_of_running (s := s.popFlight slot inp true) hstop hfree c.station
    (tileFlits f.tile)
  rw [ht] at hrun
  refine ⟨t, hrun, hcount, hreports, htracked, { k with flight := r, net := k.net + 1 }, ?_, rfl, rfl⟩
  unfold inChan?
  rw [hchans]
  exact inChan?_popFlight hk hf true

/-- Settles O5, each clause by the branch of its instruction that its hypotheses choose. -/
theorem tilesAndCredits : Obligations.TilesAndCredits := by
  unfold Obligations.TilesAndCredits
  exact ⟨fun slot out s c o x r => runs_tileSend,
    fun slot inp s c k b f r hc hk hb hf hfrozen htag hidx hdis hres hfmt hrow hzc =>
      runs_tileArrive_expected hc hk hb hf hfrozen htag hidx hdis ⟨hres, hfmt, hrow, hzc⟩,
    fun slot inp s c k b f r => runs_tileArrive_lower, fun slot inp s c k b f r => runs_tileArrive_foreign,
    fun slot inp s c k b f r => runs_tileArrive_gap, fun slot inp s k => runs_creditReturn⟩

end Sys2Proof.Machine
end

section
/-! PROOFS. Dispatch (R43, R86, R91 to R93): O4. -/

namespace Sys2Proof.Machine

open Sys2Proof

/-- What a record in the trace buffer of a station changes leaves memory and every register but that buffer's status. -/
theorem DbgOnly.kept_trcStatus {st : Nat} {s t : State} (h : DbgOnly [A.dbgTrcStatus st] s t) : Kept [A.dbgTrcStatus st] s t :=
  kept_of_regsKept h.2 h.mem h.keyTag h.rootKey fun _ ha =>
    dbgRegs_apart (st := st) (by rw [List.mem_singleton.mp ha]; exact dbgTrcStatus_mem_dbgRegs st)

/-- The command at its station's unit, with its operand block. -/
def Tracked.staged (c : Tracked) (st unit : Nat) (lost : Bool) (opb : List Byte) : Tracked :=
  { c with place := some (st, unit), phase := .staged, started := c.started || lost, opb := opb }

/-- The command begun at an instant. -/
def Tracked.begun (c : Tracked) (n : Nat) : Tracked := { c with phase := .running, started := true, moved := n, stallSent := false }

theorem credits_openWindows (s : State) (slot : Nat) : ∀ k ∈ (s.openWindows slot).chans, k.cons = slot → k.credits = 4 ∧ k.net = 0 := by
  intro k hk hcons
  obtain ⟨k', -, rfl⟩ := List.mem_map.mp hk
  split at hcons
  · next h => simp only [if_pos h, and_self]
  · next h => exact absurd (beq_iff_eq.mpr hcons) h

/-- A command that begins: its windows are open, and its beginning is traced. -/
theorem startRun_of_cmd {s : State} {slot : Nat} {c : Tracked} (hc : s.cmd? slot = some c) :
    DbgOnly [A.dbgTrcStatus c.station] ((s.updCmd slot fun u => u.begun s.tb.n).openWindows slot) (s.startRun slot) := by
  have hbegun : ((s.updCmd slot fun u => u.begun s.tb.n).openWindows slot).cmd? slot = some (c.begun s.tb.n) := cmd?_updCmd_self hc
  have heq : s.startRun slot =
      ((s.updCmd slot fun u => u.begun s.tb.n).openWindows slot).trace c.station 2 0 (c.begun s.tb.n) := by
    change (match ((s.updCmd slot fun u => u.begun s.tb.n).openWindows slot).cmd? slot with | some t => _ | none => _) = _
    rw [hbegun]
    rfl
  rw [heq]
  exact dbgOnly_trace ..

/-- The command at the unit, staged. -/
def State.stagedCmd (s : State) (st unit : Nat) (c : Tracked) : State :=
  { s with gated := s.gated.filter (· != st) }.updCmd c.slot fun u =>
    u.staged st unit false (if u.desc.extOpb then softBytes s c.desc.opbAddr c.desc.opbLen else u.opb)

/-- Dispatch of the first eligible command to a unit where no other runs, its operand block at hand. -/
theorem exec_dispatch_free {st unit : Nat} {s : State} {c : Tracked} (henable : s.flag A.loomCtl A.loomCtl_enable = true)
    (hhalt : halted s = false) (hshut : stationShut s st = false) (hrun : s.thimble.state = .run)
    (hfree : unitCmd s st unit Phase.onUnit = none)
    (hblock : c.desc.extOpb = true → badRange s c.desc.opbAddr c.desc.opbLen = false ∧
      ownsRange s c.part c.desc.opbAddr c.desc.opbLen = true ∧ clearingAt s c.desc.opbAddr c.desc.opbLen = false)
    (hfind : (s.tracked.find? fun t => t.phase == .waiting && (t.compl == .none || t.rerun) && t.status == none &&
      physical s t.logical == st && unitOf t == unit && eligible s t && samplerTurn s t && !stopping s t.part && landingFree s st t)
      = some c) :
    ∃ t, DbgOnly [A.dbgTrcStatus st] (s.stagedCmd st unit c) t ∧ exec (.dispatch st unit) s = .next (t.startRun c.slot) := by
  have hopen : ¬ (¬ s.flag A.loomCtl A.loomCtl_enable ∨ halted s ∨ stationShut s st ∨ s.thimble.state ≠ .run) := by
    simp [henable, hhalt, hshut, hrun]
  have hidle : ¬ ((unitCmd s st unit Phase.onUnit).isSome ∧ (unitCmd s st unit (· == .staged)).isSome) := by simp [hfree]
  have hwait : ¬ (c.desc.extOpb ∧ clearingAt s c.desc.opbAddr c.desc.opbLen) := by
    rintro ⟨hext, hclear⟩
    exact absurd hclear (by simp [(hblock hext).2.2])
  have hlost : (c.desc.extOpb &&
      (!ownsRange s c.part c.desc.opbAddr c.desc.opbLen || badRange s c.desc.opbAddr c.desc.opbLen)) = false := by
    cases hext : c.desc.extOpb
    · rfl
    · simp [hblock hext]
  refine ⟨_, dbgOnly_trace _ st 1 c.logical { c with place := some (st, unit) }, ?_⟩
  change execDispatch st unit s = _
  unfold execDispatch
  rw [if_neg hopen]
  simp only [hfind]
  rw [if_neg hidle, if_neg hwait]
  have hlost' : (c.desc.extOpb && (!ownsRange { s with gated := s.gated.filter (· != st) } c.part c.desc.opbAddr c.desc.opbLen ||
      badRange { s with gated := s.gated.filter (· != st) } c.desc.opbAddr c.desc.opbLen)) = false := hlost
  simp only [hlost', hfree]
  rfl

/-- Settles O4: nothing else runs on the unit, so the command that is found is staged and begins at once. -/
theorem dispatchRunsTheCommand : Obligations.DispatchRunsTheCommand := by
  unfold Obligations.DispatchRunsTheCommand
  intro st unit s c henable hhalt hshut hrun hfree hcmd hblock hfind
  obtain ⟨t, hstaged, hexec⟩ := exec_dispatch_free henable hhalt hshut hrun hfree hblock hfind
  have hcmd' : t.cmd? c.slot = some (c.staged st unit false (if c.desc.extOpb then softBytes s c.desc.opbAddr c.desc.opbLen else c.opb)) :=
    (cmd?_congr hstaged.tracked c.slot).trans (cmd?_updCmd_self (s := { s with gated := s.gated.filter (· != st) }) hcmd)
  have hbegun := startRun_of_cmd hcmd'
  have hkept : Kept [A.dbgTrcStatus st] s (t.startRun c.slot) :=
    (((kept_of_regs rfl rfl rfl rfl _).trans hstaged.kept_trcStatus).trans (kept_of_regs rfl rfl rfl rfl _)).trans
      hbegun.kept_trcStatus
  refine ⟨_, hexec, ⟨_, (cmd?_congr hbegun.tracked c.slot).trans (cmd?_updCmd_self hcmd'), rfl, rfl, rfl, rfl⟩, ?_, ?_, hkept, ?_⟩
  · rw [hbegun.chans]
    exact credits_openWindows _ _
  · exact hbegun.events.trans hstaged.events
  · obtain ⟨hstaged, -⟩ := hstaged
    obtain ⟨hbegun, -⟩ := hbegun
    generalize t.startRun c.slot = u at hbegun ⊢
    generalize t.regs = r, t.traces = a, t.trcDropped = d, t.traceHold = h at hstaged
    subst hstaged
    generalize u.regs = r', u.traces = a', u.trcDropped = d', u.traceHold = h' at hbegun
    subst hbegun
    rfl

end Sys2Proof.Machine
end

section
/-! PROOFS. Fetching and accepting a descriptor (R82 to R90, R115, R946): O3. -/

namespace Sys2Proof.Machine

open Sys2Proof

/-! ### The error registers of lodes and banks -/

/-- The error registers of the sixteen lodes and the four Commons banks. -/
def memErrRegs : List Nat :=
  ((List.range 16).flatMap fun n => [A.lodeErrStatus n, A.lodeErrCount n, A.lodeErrAddr n]) ++
    (List.range 4).flatMap fun m => [A.cmErrStatus m, A.cmErrCount m, A.cmErrAddr m]

theorem mem_memErrRegs {a : Nat} : a ∈ memErrRegs ↔
    (∃ n < 16, a = A.lodeErrStatus n ∨ a = A.lodeErrCount n ∨ a = A.lodeErrAddr n) ∨
      ∃ m < 4, a = A.cmErrStatus m ∨ a = A.cmErrCount m ∨ a = A.cmErrAddr m := by
  simp [memErrRegs]

/-- They lie below the Loom's registers, and apart from the region and key registers. -/
theorem memErrRegs_apart {a : Nat} (h : a ∈ memErrRegs) : a < 0x030003400000 ∧ (a < 0x030003008100 ∨ 0x03000300A000 ≤ a) := by
  obtain ⟨n, hn, rfl | rfl | rfl⟩ | ⟨n, hn, rfl | rfl | rfl⟩ := mem_memErrRegs.mp h <;>
    simp only [A.lodeErrStatus, A.lodeErrCount, A.lodeErrAddr, A.cmErrStatus, A.cmErrCount, A.cmErrAddr] <;> omega

theorem memErrRegs_home {a : Nat} (h : a ∈ memErrRegs) : homeAddr a ∈ memErrRegs := by
  rw [homeAddr_low (by have := (memErrRegs_apart h).1; omega)]
  exact h

theorem errRegs_mem (c : Nat) : (errRegs c).1 ∈ memErrRegs ∧ (errRegs c).2.1 ∈ memErrRegs ∧ (errRegs c).2.2 ∈ memErrRegs := by
  simp only [mem_memErrRegs]
  unfold errRegs
  split
  · have h : (lodeOf c).1 < 16 := Nat.mod_lt _ (by decide)
    exact ⟨.inl ⟨_, h, .inl rfl⟩, .inl ⟨_, h, .inr (.inl rfl)⟩, .inl ⟨_, h, .inr (.inr rfl)⟩⟩
  · next hc =>
    have h : memStation c - 48 < 4 := by
      unfold memStation
      rw [if_neg hc]
      omega
    exact ⟨.inr ⟨_, h, .inl rfl⟩, .inr ⟨_, h, .inr (.inl rfl)⟩, .inr ⟨_, h, .inr (.inr rfl)⟩⟩

/-- From `s` to `t` nothing changed but the error registers, the reports of errors, and the codewords known as bad. -/
def ErrOnly (s t : State) : Prop :=
  t = { s with regs := t.regs, reports := t.reports, badLines := t.badLines } ∧ RegsKept memErrRegs s t

theorem ErrOnly.refl (s : State) : ErrOnly s s := ⟨rfl, .refl _ s⟩

theorem ErrOnly.trans {s t u : State} (h : ErrOnly s t) (h' : ErrOnly t u) : ErrOnly s u :=
  ⟨by rw [h'.1, h.1], h.2.trans h'.2⟩

theorem ErrOnly.tracked {s t : State} (h : ErrOnly s t) : t.tracked = s.tracked := by rw [h.1]
theorem ErrOnly.events {s t : State} (h : ErrOnly s t) : t.events = s.events := by rw [h.1]
theorem ErrOnly.mem {s t : State} (h : ErrOnly s t) : t.mem = s.mem := by rw [h.1]
theorem ErrOnly.keyTag {s t : State} (h : ErrOnly s t) : t.keyTag = s.keyTag := by rw [h.1]
theorem ErrOnly.rootKey {s t : State} (h : ErrOnly s t) : rootKey t = rootKey s := by rw [h.1]; rfl

theorem ErrOnly.kept {s t : State} (h : ErrOnly s t) : Kept memErrRegs s t :=
  kept_of_regsKept h.2 h.mem h.keyTag h.rootKey fun _ ha => (memErrRegs_apart ha).2

theorem errOnly_markBad (s : State) (c : Nat) : ErrOnly s (s.markBad c) := by
  unfold State.markBad
  split
  · exact .refl s
  · exact ⟨rfl, .refl _ s⟩

theorem errOnly_memFatal (s : State) (c bit : Nat) : ErrOnly s (s.memFatal c bit) :=
  ⟨rfl, (RegsKept.refl _ s).setReg _ (memErrRegs_home (errRegs_mem c).1)⟩

theorem errOnly_logUncorrected (s : State) (c : Nat) (part : Option Nat) : ErrOnly s (s.logUncorrected c part) := by
  obtain ⟨hst, hcnt, had⟩ := errRegs_mem c
  have h : RegsKept memErrRegs s ((s.setReg (errRegs c).1 (s.reg (errRegs c).1 ||| 2)).bump (errRegs c).2.1
      A.lodeErrCount_uncorrected 1) := ((RegsKept.refl _ s).setReg _ (memErrRegs_home hst)).bump _ _ (memErrRegs_home hcnt)
  unfold State.logUncorrected
  dsimp only
  split
  · exact ⟨rfl, h⟩
  · exact ⟨rfl, h.setReg _ (memErrRegs_home had)⟩

/-! ### An entry that cannot be read -/

theorem loomSqHead_apart {q : Nat} (hq : q < 64) : homeAddr (A.loomSqHead q) ∉ memErrRegs := by
  rw [loomSqHead_home hq]
  intro h
  have := (memErrRegs_apart h).1
  simp only [A.loomSqHead] at this
  omega

theorem badRange_markBad {s : State} {a n c : Nat} (hn : 0 < n) (hc : canon a = some c) : badRange (s.markBad c) a n = true := by
  obtain ⟨v, hv⟩ := mem_codewords.mpr ⟨0, c, hn, hc, rfl⟩
  refine List.any_eq_true.mpr ⟨_, hv, ?_⟩
  unfold State.markBad
  split
  · assumption
  · simp

/-- FETCH_ERR set, the HEAD as it was. -/
def State.unread (s : State) (q : Nat) : State := s.fset (A.loomSqHead q) A.loomSqHead_fetchErr 1

/-- Two symbols in error are detected in a line as in a word. -/
theorem observe_symbols_two (s : State) (c : Nat) : s.observe c (.symbols 2) = (s.markBad c, .bad) := by
  have h : eccClass c 2 = .detected := by
    unfold eccClass
    rw [if_neg (by decide), if_neg (by decide), if_pos (by split <;> decide)]
  unfold State.observe
  dsimp only
  rw [h]

theorem observe_clean (s : State) (c : Nat) : s.observe c .clean = (s, .data) := rfl

/-- An entry whose codeword is uncorrectable, or whose memory does not answer. -/
theorem exec_descriptorAccept_unread {obs : MemObs} {s : State} {q used : Nat} (hpick : pickQueue s = some (q, used))
    (hcanon : (canon (headAddr s q)).isSome = true) (hclear : clearingAt s (headAddr s q) 64 = false)
    (hobs : obs = .symbols 2 ∨ obs = .ctlParity ∨ obs = .clean ∧ badRange s (headAddr s q) 64 = true) :
    ∃ u v, ErrOnly s u ∧ ErrOnly (u.unread q) v ∧ exec (.descriptorAccept obs) s = .next v := by
  obtain ⟨c, hc⟩ := Option.isSome_iff_exists.mp hcanon
  change ∃ u v, _ ∧ _ ∧ execDescriptorAccept obs s = _
  unfold execDescriptorAccept
  rw [hpick]
  dsimp only
  rw [hc]
  dsimp only
  rw [if_neg (by simp [hclear])]
  rcases hobs with rfl | rfl | ⟨rfl, hbad⟩
  · rw [observe_symbols_two]
    dsimp only
    rw [if_neg (by simp), if_pos (badRange_markBad (by decide) hc)]
    exact ⟨_, _, errOnly_markBad s c, errOnly_logUncorrected .., rfl⟩
  · exact ⟨_, _, errOnly_memFatal s c 5, .refl _, rfl⟩
  · rw [observe_clean]
    dsimp only
    rw [if_neg (by simp), if_pos hbad]
    exact ⟨_, _, .refl s, errOnly_logUncorrected .., rfl⟩

theorem runs_descriptorAccept_unread {obs : MemObs} {s : State} {q used : Nat} (hpick : pickQueue s = some (q, used)) (hq : q < 64)
    (hcanon : (canon (headAddr s q)).isSome = true) (hclear : clearingAt s (headAddr s q) 64 = false)
    (hobs : obs = .symbols 2 ∨ obs = .ctlParity ∨ obs = .clean ∧ badRange s (headAddr s q) 64 = true) :
    Runs (.descriptorAccept obs) s fun t =>
      t.fget (A.loomSqHead q) A.loomSqHead_fetchErr = 1 ∧
      t.fget (A.loomSqHead q) A.loomSqHead_head = s.fget (A.loomSqHead q) A.loomSqHead_head ∧
      t.tracked = s.tracked ∧ t.events = s.events ∧ MemKept s t := by
  obtain ⟨u, v, hu, hv, hrun⟩ := exec_descriptorAccept_unread hpick hcanon hclear hobs
  have hafter := hv.2 _ (loomSqHead_apart hq)
  have hbefore := hu.2 _ (loomSqHead_apart hq)
  have hset : Kept [A.loomSqHead q] u (u.unread q) := kept_setReg u _ (by simp only [A.loomSqHead]; omega) (loomSqHead_home hq)
  refine ⟨v, hrun, ?_, ?_, hv.tracked.trans hu.tracked, hv.events.trans hu.events, ?_⟩
  · exact (fget_congr hafter _).trans (fget_fset_self u _ _ (by decide) (by decide))
  · have hhead : (u.unread q).fget (A.loomSqHead q) A.loomSqHead_head = u.fget (A.loomSqHead q) A.loomSqHead_head :=
      fget_fset_other u _ _ (by decide) (by decide) (by decide) (by decide)
    exact ((fget_congr hafter _).trans hhead).trans (fget_congr hbefore _)
  · exact (hu.kept.2.trans hset.2).trans hv.kept.2

theorem idle_descriptorAccept {obs : MemObs} {s : State} (h : pickQueue s = none) : Idle (.descriptorAccept obs) s := by
  change execDescriptorAccept obs s = _
  unfold execDescriptorAccept
  rw [h]
  rfl

/-! ### An entry that is read -/

/-- An entry that is read whole is checked, unless its operand block's bytes are being zeroed. -/
theorem exec_descriptorAccept_clean {s : State} {q used : Nat} {d : Desc} (hpick : pickQueue s = some (q, used))
    (hcanon : (canon (headAddr s q)).isSome = true) (hclear : clearingAt s (headAddr s q) 64 = false)
    (hbad : badRange s (headAddr s q) 64 = false) (hd : d = Desc.ofBytes (softBytes s (headAddr s q) 64))
    (hblock : d.extOpb = true → blockBound d.opcode = true → clearingAt s d.opbAddr d.opbLen = false) :
    exec (.descriptorAccept .clean) s = .next (s.acceptDesc q used d) := by
  obtain ⟨c, hc⟩ := Option.isSome_iff_exists.mp hcanon
  have hwait : ¬ (d.extOpb ∧ blockBound d.opcode ∧ clearingAt s d.opbAddr d.opbLen) := by
    rintro ⟨hext, hbound, hzero⟩
    exact absurd hzero (by simp [hblock hext hbound])
  change execDescriptorAccept .clean s = _
  unfold execDescriptorAccept
  rw [hpick]
  dsimp only
  rw [hc]
  dsimp only
  rw [if_neg (by simp [hclear]), observe_clean]
  dsimp only
  rw [if_neg (by simp), if_neg (by simp [hbad]), if_neg (show ¬ Seen.data = Seen.wrong by decide), ← hd, if_neg hwait]
  rfl

/-- HEAD advances by one entry in its ring. -/
theorem head_fetched (s : State) (q used : Nat) : (s.fetched q used).fget (A.loomSqHead q) A.loomSqHead_head =
    (s.fget (A.loomSqHead q) A.loomSqHead_head + 1) % 2 ^ sqLog2 s q := by
  refine (fget_fset_self s _ _ (by decide) (by decide)).trans (Nat.mod_eq_of_lt ?_)
  exact (Nat.mod_lt _ (by positivity)).trans_le (Nat.pow_le_pow_right (by decide) (log2In_le (by decide)))

theorem kept_fetched (s : State) {q : Nat} (used : Nat) (hq : q < 64) : Kept [A.loomSqHead q] s (s.fetched q used) :=
  (kept_setReg s _ (by simp only [A.loomSqHead]; omega) (loomSqHead_home hq)).trans (kept_of_regs rfl rfl rfl rfl _)

theorem coarse_fetched (s : State) {q : Nat} (used : Nat) (hq : q < 64) : coarse (s.fetched q used) = coarse s := by
  refine flag_congr ((kept_fetched s used hq).1 _ ?_) _
  rw [List.mem_singleton, show homeAddr A.tbStatus = A.tbStatus from by decide]
  simp only [A.tbStatus, A.loomSqHead]
  omega

/-! A descriptor that passes every check joins the streams it names. -/

/-- The producer of a stream has not failed where no tracked or lingering producer of the partition has. -/
theorem failed_sourceOf {s : State} {p stream : Nat} {u : Linger} (ht : ∀ k ∈ s.tracked, k.part = p → k.failed = false)
    (hl : ∀ l ∈ s.lingering, l.part = p → l.failed = false) (h : sourceOf s p stream = some u) : u.failed = false := by
  unfold sourceOf at h
  rcases Option.or_eq_some_iff.mp h with h | ⟨-, h⟩
  · obtain ⟨k, hk, hsource⟩ := List.exists_of_findSome?_eq_some h
    split at hsource
    · next hpart =>
      obtain ⟨o, -, rfl⟩ := Option.map_eq_some_iff.mp hsource
      exact ht k hk (beq_iff_eq.mp hpart)
    · cases hsource
  · have hmatch := List.find?_some h
    simp only [Bool.and_eq_true, beq_iff_eq] at hmatch
    exact hl u (List.mem_of_find?_eq_some h) hmatch.1.1

theorem joinStreams_of_alive {s : State} {t : Tracked} (ht : ∀ k ∈ s.tracked, k.part = t.part → k.failed = false)
    (hl : ∀ l ∈ s.lingering, l.part = t.part → l.failed = false) : ∃ chans, s.joinStreams t = { s with chans := chans } := by
  unfold State.joinStreams
  refine ⟨_, if_neg ?_⟩
  rw [Bool.not_eq_true, List.any_eq_false]
  intro u hu
  obtain ⟨i, -, hi⟩ := List.mem_filterMap.mp hu
  split at hi
  · obtain ⟨w, hw, hwu⟩ := Option.bind_eq_some_iff.mp hi
    split at hwu
    · cases hwu
    · cases hwu
      simp [failed_sourceOf ht hl hw]
  · cases hi

theorem acceptDesc_of_checks {s : State} {q used : Nat} {d : Desc} (hform : formCheck d = none)
    (hstate : stateCheck (s.fetched q used) q d = none) (ht : ∀ k ∈ s.tracked, k.part = d.part → k.failed = false)
    (hl : ∀ l ∈ s.lingering, l.part = d.part → l.failed = false) : ∃ chans, s.acceptDesc q used d =
      { s.fetched q used with
          nextSlot := s.nextSlot + 1, tracked := s.tracked ++ [newCmd (s.fetched q used) q d]
          queues := tset (s.fetched q used).queues q { qstate (s.fetched q used) q with ref := some d.cmdSeq }
          chans := chans } := by
  have hcheck : (formCheck d).or (stateCheck { s.fetched q used with nextSlot := (s.fetched q used).nextSlot + 1 } q d) = none := by
    rw [hform]
    exact hstate
  have hnew : ∀ k ∈ s.tracked ++ [newCmd (s.fetched q used) q d], k.part = d.part → k.failed = false := by
    intro k hk
    rcases List.mem_append.mp hk with hk | hk
    · exact ht k hk
    · rw [List.mem_singleton.mp hk]
      exact fun _ => rfl
  unfold State.acceptDesc
  dsimp only
  rw [hcheck]
  exact joinStreams_of_alive hnew hl

theorem runs_descriptorAccept_accepted {s : State} {q used : Nat} {d : Desc} (hpick : pickQueue s = some (q, used)) (hq : q < 64)
    (hcanon : (canon (headAddr s q)).isSome = true) (hclear : clearingAt s (headAddr s q) 64 = false)
    (hbad : badRange s (headAddr s q) 64 = false) (hd : d = Desc.ofBytes (softBytes s (headAddr s q) 64))
    (hblock : d.extOpb = true → blockBound d.opcode = true → clearingAt s d.opbAddr d.opbLen = false)
    (hform : formCheck d = none) (hstate : stateCheck (s.fetched q used) q d = none)
    (ht : ∀ k ∈ s.tracked, k.part = d.part → k.failed = false) (hl : ∀ l ∈ s.lingering, l.part = d.part → l.failed = false) :
    Runs (.descriptorAccept .clean) s fun t =>
      t.fget (A.loomSqHead q) A.loomSqHead_head = (s.fget (A.loomSqHead q) A.loomSqHead_head + 1) % 2 ^ sqLog2 s q ∧
      t.nextSlot = s.nextSlot + 1 ∧ t.tracked.length = s.tracked.length + 1 ∧
      (∃ n ∈ t.tracked, n.slot = s.nextSlot ∧ n.queue = q ∧ n.phase = .waiting ∧ n.compl = .none ∧ n.desc = d) ∧
      (qstate t q).ref = some d.cmdSeq ∧ t.events = s.events ∧ Kept [A.loomSqHead q] s t := by
  have hrun := exec_descriptorAccept_clean hpick hcanon hclear hbad hd hblock
  obtain ⟨chans, haccept⟩ := acceptDesc_of_checks hform hstate ht hl
  rw [haccept] at hrun
  refine ⟨_, hrun, head_fetched s q used, rfl, by simp, ⟨newCmd (s.fetched q used) q d, by simp, rfl, rfl, rfl, rfl, rfl⟩, ?_, rfl,
    (kept_fetched s used hq).trans (kept_of_regs rfl rfl rfl rfl _)⟩
  exact congrArg QState.ref (tgetD_tset_self ..)

/-! A descriptor that fails a check of its form is completed by the Loom. -/

theorem bindingCheck_ne_addrFault (op : Nat) (opb : List Byte) (ni no : Nat) : bindingCheck op opb ni no ≠ some Det.addrFault := by
  unfold bindingCheck
  split
  · decide
  · split <;> decide

theorem ne_of_ite {α : Type} {p : Prop} [Decidable p] {a b c : α} (ha : a ≠ c) (hb : b ≠ c) : (if p then a else b) ≠ c := by
  split <;> assumption

/-- No check of a descriptor's form reads memory. -/
theorem formCheck_ne_addrFault (d : Desc) : formCheck d ≠ some Det.addrFault := by
  unfold formCheck
  refine ne_of_ite (by decide) ?_
  cases opInfo d.opcode with
  | none => exact (by decide : some Det.badOpcode ≠ some Det.addrFault)
  | some o =>
    cases classStations d.cls with
    | none => exact (by decide : some Det.badClass ≠ some Det.addrFault)
    | some n =>
      dsimp only
      iterate 13 refine ne_of_ite (by decide) ?_
      exact ne_of_ite (bindingCheck_ne_addrFault _ _ _ _) (by decide)

/-- What the CANCELs of clients change. -/
def CancelsOnly (s t : State) : Prop := t = { s with cancelDue := t.cancelDue, cancels := t.cancels, events := t.events }

theorem cancelsOnly_applyCancel (s : State) (d : Nat × Nat) : CancelsOnly s (s.applyCancel d) := by
  unfold State.applyCancel State.markGroup
  split
  · rfl
  · dsimp only
    split
    · rfl
    · split <;> rfl

theorem cancelsOnly_applyCancels (s : State) : CancelsOnly s s.applyCancels := by
  unfold State.applyCancels
  suffices h : ∀ (l : List (Nat × Nat)) (u : State), CancelsOnly s u → CancelsOnly s (l.foldl State.applyCancel u) from h _ s rfl
  intro l
  induction l with
  | nil => exact fun u h => h
  | cons d r ih =>
    refine fun u h => ih _ ?_
    unfold CancelsOnly at h ⊢
    rw [cancelsOnly_applyCancel u d, h]

theorem applyCancels_of_nil {s : State} (h : s.cancelDue = []) : s.applyCancels = s := by
  unfold State.applyCancels
  rw [h]
  rfl

/-- The command of a descriptor that fails a check. -/
def rejectedCmd (s : State) (q det : Nat) (d : Desc) : Tracked :=
  { newCmd s q d with ins := [], outs := [], phase := .ended, status := some (St.cmdError, det) }

/-- The tracker slot taken and the COMPLETION raised by the Loom. -/
def State.rejected (s : State) (q det : Nat) (d : Desc) : State :=
  ({ s with nextSlot := s.nextSlot + 1, tracked := s.tracked ++ [rejectedCmd s q det d] }.updCmd s.nextSlot fun u =>
    { u with compl := .raised }).raiseP srcLoom 0x0001 d.part (d.cmdSeq + 4 * 2 ^ 48) (some s.nextSlot)

theorem acceptDesc_of_formCheck {s : State} {q det : Nat} (used : Nat) {d : Desc} (h : formCheck d = some det) :
    s.acceptDesc q used d = if d.opcode = 0x60 ∨ d.opcode = 0x61 then ((s.fetched q used).rejected q det d).applyCancels
      else (s.fetched q used).rejected q det d := by
  have hdet : ¬ (det = Det.addrFault ∧
      ownsRange { s.fetched q used with nextSlot := (s.fetched q used).nextSlot + 1 } d.part d.opbAddr d.opbLen) := by
    rintro ⟨rfl, -⟩
    exact formCheck_ne_addrFault d h
  unfold State.acceptDesc
  dsimp only
  rw [h, Option.some_or]
  dsimp only
  rw [if_neg hdet]
  rfl

/-- The command stays in its slot with its status, its COMPLETION raised. -/
theorem exists_rejected (s : State) (q det : Nat) (d : Desc) : ∃ n ∈ (s.rejected q det d).tracked,
    n.slot = s.nextSlot ∧ n.phase = .ended ∧ n.status = some (4, det) ∧ n.compl = .raised := by
  refine ⟨{ rejectedCmd s q det d with compl := .raised }, ?_, rfl, rfl, rfl, rfl⟩
  refine List.mem_map.mpr ⟨rejectedCmd s q det d, by simp, ?_⟩
  exact if_pos (beq_self_eq_true _)

theorem events_rejected {s : State} {q : Nat} (used det : Nat) (d : Desc) (hq : q < 64) :
    ((s.fetched q used).rejected q det d).events = s.events ++
      [Event.mk 67 1 d.part false (coarse s) (now s) (d.cmdSeq + 4 * 2 ^ 48) (some s.nextSlot)] := by
  rw [← coarse_fetched s used hq]
  rfl

theorem runs_descriptorAccept_rejected {s : State} {q used det : Nat} {d : Desc} (hpick : pickQueue s = some (q, used)) (hq : q < 64)
    (hcanon : (canon (headAddr s q)).isSome = true) (hclear : clearingAt s (headAddr s q) 64 = false)
    (hbad : badRange s (headAddr s q) 64 = false) (hd : d = Desc.ofBytes (softBytes s (headAddr s q) 64))
    (hblock : d.extOpb = true → blockBound d.opcode = true → clearingAt s d.opbAddr d.opbLen = false)
    (hform : formCheck d = some det) :
    Runs (.descriptorAccept .clean) s fun t =>
      t.fget (A.loomSqHead q) A.loomSqHead_head = (s.fget (A.loomSqHead q) A.loomSqHead_head + 1) % 2 ^ sqLog2 s q ∧
      (∃ n ∈ t.tracked, n.slot = s.nextSlot ∧ n.phase = .ended ∧ n.status = some (4, det) ∧ n.compl = .raised) ∧
      ((d.opcode ≠ 0x60 ∧ d.opcode ≠ 0x61 ∨ s.cancelDue = []) →
        t.events = s.events ++ [Event.mk 67 1 d.part false (coarse s) (now s) (d.cmdSeq + 4 * 2 ^ 48) (some s.nextSlot)]) ∧
      Kept [A.loomSqHead q] s t := by
  have hrun := exec_descriptorAccept_clean hpick hcanon hclear hbad hd hblock
  rw [acceptDesc_of_formCheck used hform] at hrun
  have hkept : Kept [A.loomSqHead q] s ((s.fetched q used).rejected q det d) :=
    (kept_fetched s used hq).trans (kept_of_regs rfl rfl rfl rfl _)
  by_cases hsp : d.opcode = 0x60 ∨ d.opcode = 0x61
  · rw [if_pos hsp] at hrun
    have hcancels := cancelsOnly_applyCancels ((s.fetched q used).rejected q det d)
    refine ⟨_, hrun, ?_, ?_, fun h => ?_, ?_⟩
    · rw [hcancels]
      exact head_fetched s q used
    · rw [hcancels]
      exact exists_rejected ..
    · have hnil : s.cancelDue = [] := by
        rcases h with ⟨h1, h2⟩ | h
        · exact absurd hsp (by simp [h1, h2])
        · exact h
      rw [applyCancels_of_nil (s := (s.fetched q used).rejected q det d) hnil]
      exact events_rejected used det d hq
    · rw [hcancels]
      exact hkept.trans (kept_of_regs rfl rfl rfl rfl _)
  · rw [if_neg hsp] at hrun
    exact ⟨_, hrun, head_fetched s q used, exists_rejected .., fun _ => events_rejected used det d hq, hkept⟩

/-- Settles O3, each clause by what becomes of the entry. -/
theorem descriptorAccepted : Obligations.DescriptorAccepted := by
  unfold Obligations.DescriptorAccepted
  exact ⟨fun s q used d => runs_descriptorAccept_accepted, fun s q used det d => runs_descriptorAccept_rejected,
    fun obs s q used => runs_descriptorAccept_unread, fun obs s => idle_descriptorAccept⟩

end Sys2Proof.Machine
end

section
/-! PROOFS. A command that ends early (R77, R93, R939): it keeps its status until its record is written, and memory is left alone. -/

namespace Sys2Proof.Machine

open Sys2Proof

/-- The command of a slot has reached a status and detail, its record is not yet written, it belongs to no engine that reports, and the
cells of memory are as given. -/
def Ending (slot : Nat) (sd : Nat × Nat) (m : List Host.Cell) (t : State) : Prop :=
  (∃ u, t.cmd? slot = some u ∧ u.status = some sd ∧ u.compl ≠ .kept ∧ u.op < 0x10) ∧ t.mem = m

variable {slot : Nat} {sd : Nat × Nat} {m : List Host.Cell} {s t : State}

theorem Ending.reached (h : Ending slot sd m t) : Reached slot sd.1 sd.2 t ∧ t.mem = m := by
  obtain ⟨⟨u, hu, hst, -⟩, hm⟩ := h
  exact ⟨⟨u, hu, hst⟩, hm⟩

theorem Ending.congr (h : Ending slot sd m s) (ht : t.tracked = s.tracked) (hm : t.mem = s.mem) : Ending slot sd m t := by
  obtain ⟨⟨u, hu, hrest⟩, hmem⟩ := h
  exact ⟨⟨u, (cmd?_congr ht slot).trans hu, hrest⟩, hm.trans hmem⟩

/-- A change of a command that keeps its status and does not file its record. -/
theorem Ending.updCmd (h : Ending slot sd m s) (k : Nat) (f : Tracked → Tracked)
    (hf : ∀ u, (f u).slot = u.slot ∧ (f u).status = u.status ∧ (f u).desc = u.desc ∧ ((f u).compl = u.compl ∨ (f u).compl ≠ .kept) := by
      exact fun u => ⟨rfl, rfl, rfl, .inl rfl⟩) : Ending slot sd m (s.updCmd k f) := by
  obtain ⟨⟨u, hu, hst, hcompl, hop⟩, hmem⟩ := h
  obtain ⟨hslot, hst', hdesc, hcompl'⟩ := hf u
  refine ⟨⟨if slot = k then f u else u, ?_, ?_⟩, hmem⟩
  · rw [cmd?_updCmd s k slot f fun u => (hf u).1, hu]
    rfl
  · split
    · refine ⟨hst'.trans hst, ?_, ?_⟩
      · rcases hcompl' with h | h
        · rw [h]; exact hcompl
        · exact h
      · unfold Tracked.op at hop ⊢
        rw [hdesc]
        exact hop
    · exact ⟨hst, hcompl, hop⟩

theorem Ending.startRun (h : Ending slot sd m s) (k : Nat) : Ending slot sd m (s.startRun k) := by
  unfold State.startRun
  have hopen : Ending slot sd m ((s.updCmd k fun t => { t with phase := .running, started := true, moved := s.tb.n, stallSent := false
      }).openWindows k) := (h.updCmd k _).congr rfl rfl
  dsimp only
  split
  · exact hopen.congr (dbgOnly_trace ..).tracked (dbgOnly_trace ..).mem
  · exact hopen

theorem Ending.promote (h : Ending slot sd m s) (st unit : Nat) : Ending slot sd m (s.promote st unit) := by
  unfold State.promote
  split
  · exact h
  · split
    · exact h.startRun _
    · exact h

theorem Ending.raiseP (h : Ending slot sd m s) (src ty p payload : Nat) (k : Option Nat) :
    Ending slot sd m (s.raiseP src ty p payload k) := h.congr rfl rfl

theorem Ending.applyCancels (h : Ending slot sd m s) : Ending slot sd m s.applyCancels := by
  rw [cancelsOnly_applyCancels]
  exact h.congr rfl rfl

theorem Ending.raiseCompletion (h : Ending slot sd m s) (k : Tracked) : Ending slot sd m (s.raiseCompletion k) := by
  unfold State.raiseCompletion
  dsimp only
  split
  · exact h
  · have hraised := h.updCmd k.slot (fun u => { u with compl := .raised }) fun u => ⟨rfl, rfl, rfl, .inr (by simp)⟩
    split
    · exact (hraised.raiseP ..).applyCancels
    · exact hraised.raiseP ..

theorem find?_filter_of_find? {α : Type} {p q : α → Bool} {l : List α} {a : α} (h : l.find? q = some a) (ha : p a = true) :
    (l.filter p).find? q = some a := by
  induction l with
  | nil => cases h
  | cons b r ih =>
    rw [List.find?_cons] at h
    cases hq : q b with
    | true =>
      rw [hq] at h
      cases h
      rw [List.filter_cons_of_pos ha, List.find?_cons, hq]
    | false =>
      rw [hq] at h
      cases hp : p b with
      | true => rw [List.filter_cons_of_pos hp, List.find?_cons, hq]; exact ih h
      | false => rw [List.filter_cons_of_neg (by simp [hp])]; exact ih h

/-- The sweep frees the slots of commands whose record is written. -/
theorem Ending.sweep (h : Ending slot sd m s) : Ending slot sd m s.sweep := by
  obtain ⟨⟨u, hu, hst, hcompl, hop⟩, hmem⟩ := h
  refine ⟨⟨u, find?_filter_of_find? hu ?_, hst, hcompl, hop⟩, hmem⟩
  simp [hcompl]

theorem reportEnd_of_op {k : Tracked} (h : k.op < 0x10) (s : State) : s.reportEnd k = s := by
  unfold State.reportEnd
  exact if_neg fun h' => absurd h'.2.2.1 (by omega)

theorem Ending.checkDrain (h : Ending slot sd m s) : Ending slot sd m (s.checkDrain slot) := by
  obtain ⟨⟨u, hu, hst, hcompl, hop⟩, hmem⟩ := h
  have h : Ending slot sd m s := ⟨⟨u, hu, hst, hcompl, hop⟩, hmem⟩
  unfold State.checkDrain
  rw [hu]
  dsimp only
  rw [reportEnd_of_op hop, ite_self]
  split
  · have hended := h.updCmd slot fun v => { v with phase := .ended }
    generalize s.updCmd slot (fun v => { v with phase := .ended }) = s₁ at hended ⊢
    have hbusy : Ending slot sd m (if u.station < 48 then { s₁ with busyAt := tset s₁.busyAt u.station s₁.tb.n } else s₁) := by
      split
      · exact hended.congr rfl rfl
      · exact hended
    generalize (if u.station < 48 then { s₁ with busyAt := tset s₁.busyAt u.station s₁.tb.n } else s₁) = s₂ at hbusy ⊢
    have hraised : Ending slot sd m (if u.compl == .none then s₂.raiseCompletion u else s₂) := by
      split
      · exact hbusy.raiseCompletion u
      · exact hbusy
    generalize (if u.compl == .none then s₂.raiseCompletion u else s₂) = s₃ at hraised ⊢
    refine Ending.sweep ?_
    split
    · exact hraised.promote ..
    · exact hraised
  · exact h

theorem unpinAll_of_attn {k : Tracked} (h : k.work.attn = none) (s : State) : s.unpinAll k = s := by
  unfold State.unpinAll Tracked.pinned
  rw [h]
  rfl

theorem Ending.withdrawTask (h : Ending slot sd m s) (k : Nat) : Ending slot sd m (s.withdrawTask k) := by
  unfold State.withdrawTask
  split
  · exact h
  · exact h.congr rfl rfl

theorem Ending.discardInputs (h : Ending slot sd m s) (k : Tracked) : Ending slot sd m (s.discardInputs k) := by
  unfold State.discardInputs
  refine Ending.updCmd ?_ _ _
  suffices hfold : ∀ (l : List Nat) (u : State), Ending slot sd m u → Ending slot sd m (l.foldl (fun s i =>
      s.release k.slot i (((k.ins[i]?).map InBind.held).getD 0)) u) from hfold _ s h
  intro l
  induction l with
  | nil => exact fun u hu => hu
  | cons i r ih => exact fun u hu => ih _ (hu.congr rfl rfl)

/-- A command with a status: what it has formed stands, or not. -/
def Tracked.stopped (c : Tracked) (status detail : Nat) : Tracked :=
  { c with status := some (status, detail)
           outs := if tilesStand status detail then c.outs else c.outs.map fun o => { o with queue := [] } }

/-- A running command with a status has left its unit but for its drain: its task is withdrawn, its pages are unpinned, its kernels and
landing slots are gone, and its windows are empty. -/
def State.leftUnit (s : State) (slot status detail : Nat) (c : Tracked) : State :=
  let s := s.updCmd slot fun u => u.stopped status detail
  let s := { (s.withdrawTask slot).unpinAll c with
    facets := s.facets.filter fun x => x.2.slot != slot
    landings := s.landings.filter fun l => l.slot != slot }
  (s.discardInputs c).updCmd slot fun u => { u with phase := .draining }

theorem finish_of_running {s : State} {slot : Nat} {c : Tracked} (hc : s.cmd? slot = some c) (hrun : c.phase = .running)
    (status detail : Nat) : s.finish slot status detail = (s.leftUnit slot status detail c).checkDrain slot := by
  obtain ⟨d, rfl⟩ : ∃ d : Tracked, c = { d with phase := .running } := ⟨c, by rw [← hrun]⟩
  unfold State.finish
  rw [hc]
  change State.checkDrain (match d.place with
    | some (_, _) => match (s.leftUnit slot status detail { d with phase := .running }).cmd? slot with
      | some _ => s.leftUnit slot status detail { d with phase := .running }
      | none => s.leftUnit slot status detail { d with phase := .running }
    | none => match (s.leftUnit slot status detail { d with phase := .running }).cmd? slot with
      | some _ => s.leftUnit slot status detail { d with phase := .running }
      | none => s.leftUnit slot status detail { d with phase := .running }) slot = _
  generalize s.leftUnit slot status detail { d with phase := .running } = u
  cases d.place <;> cases u.cmd? slot <;> rfl

/-- A running command of no reporting engine that ends with a status: it has it, and no byte of memory is touched. -/
theorem ending_finish {s : State} {slot : Nat} {c : Tracked} (hc : s.cmd? slot = some c) (hrun : c.phase = .running)
    (hop : c.op < 0x10) (hcompl : c.compl ≠ .kept) (hattn : c.work.attn = none) (status detail : Nat) :
    Ending slot (status, detail) s.mem (s.finish slot status detail) := by
  have hstopped : Ending slot (status, detail) s.mem (s.updCmd slot fun u => u.stopped status detail) :=
    ⟨⟨_, cmd?_updCmd_self hc, rfl, hcompl, hop⟩, rfl⟩
  have hheld := hstopped.withdrawTask slot
  rw [← unpinAll_of_attn hattn (State.withdrawTask _ slot)] at hheld
  have hleft : Ending slot (status, detail) s.mem (s.leftUnit slot status detail c) := by
    refine Ending.updCmd (Ending.discardInputs ?_ c) slot _ fun u => ⟨rfl, rfl, rfl, .inl rfl⟩
    exact hheld.congr rfl rfl
  rw [finish_of_running hc hrun]
  exact hleft.checkDrain

end Sys2Proof.Machine
end

section
/-! PROOFS. TLOAD (R68, R70) and what a read without a settled record returns (R59, R60): O10. -/

namespace Sys2Proof.Machine

open Sys2Proof

/-- With no TSTORE whose record is to be written, a read returns what memory holds. -/
theorem softBytes_of_settled {s : State} (h : s.settling = []) (a n : Nat) : softBytes s a n = readBytes s a n := by
  have hsettled : ∀ b, unsettled s b = false := fun b => by simp [unsettled, h]
  simp [softBytes, hsettled, List.mapIdx_eq_zipIdx_map, List.zipIdx_map_fst]

/-- The command with one more tile behind those that await credits on an output. -/
def Tracked.withTile (c : Tracked) (out : Nat) (x : Tile) : Tracked :=
  { c with outs := c.outs.mapIdx fun j p => if j = out then { p with formed := p.formed + 1, queue := p.queue ++ [x] } else p }

theorem outs_withTile {c : Tracked} {out : Nat} {o : OutBind} (ho : c.outs[out]? = some o) (x : Tile) :
    (c.withTile out x).outs[out]? = some { o with formed := o.formed + 1, queue := o.queue ++ [x] } := by
  refine (getElem?_mapIdx_at c.outs out fun p => { p with formed := p.formed + 1, queue := p.queue ++ [x] }).trans ?_
  rw [ho]
  rfl

/-- A command that goes on forms its next tile, stamped (R49). -/
theorem formTile_eq {s : State} {slot out : Nat} {c : Tracked} {o : OutBind} (hc : s.cmd? slot = some c) (ho : c.outs[out]? = some o)
    (hst : c.status = none) (hformed : o.formed < 2 ^ 32 - 1) (x : Tile) :
    s.formTile slot out x = s.updCmd slot fun u => u.withTile out (stampTile c o x) := by
  unfold State.formTile
  rw [hc]
  dsimp only
  rw [ho]
  dsimp only
  rw [if_neg (by simp [hst]), if_neg (by omega)]
  rfl

/-- The command with its next position. -/
def Tracked.advanced (c : Tracked) : Tracked := { c with work := { c.work with pos := c.work.pos + 1 } }

/-- The tile that a TLOAD forms at its position. -/
def tloadTile (s : State) (c : Tracked) : Tile :=
  mkTile (opw c.opb 5 36 32) (tloadRows c c.work.pos).1.length (tloadRows c c.work.pos).2 (c.work.pos + 1 == opw c.opb 6 31 0)
    ((tloadRows c c.work.pos).1.flatMap fun a => softBytes s a (tloadRows c c.work.pos).2)

theorem dbgOnly_memIns (s : State) (t : Tracked) (rows : List Nat) (n : Nat) :
    DbgOnly (dbgRegs t.station) s (rows.foldl (fun s a => s.memIn t a n) s) := .foldl (fun u a _ => dbgOnly_memIn u t a n) s

/-- A TLOAD whose rows are owned and readable, and that has room for a tile. -/
theorem exec_tload {slot : Nat} {s : State} {c : Tracked} (hrun : runningCmd s slot 0x01 = some c)
    (howned : c.work.pos = 0 → tloadOwned s c = true) (hroom : roomFor s c = true) (hmore : c.work.pos + 1 < opw c.opb 6 31 0)
    (hrows : ∀ a ∈ (tloadRows c c.work.pos).1, badRange s a (tloadRows c c.work.pos).2 = false ∧
      ownsRange s c.part a (tloadRows c c.work.pos).2 = true ∧ clearingAt s a (tloadRows c c.work.pos).2 = false) :
    ∃ t, DbgOnly (dbgRegs c.station) s t ∧ exec (.tload slot) s =
      .next (((t.updCmd slot fun u => { u with work := { u.work with pos := c.work.pos + 1 } }).formTile slot 0 (tloadTile s c)).settle
        slot) := by
  have hclear : (tloadRows c c.work.pos).1.any (fun a => clearingAt s a (tloadRows c c.work.pos).2) = false :=
    List.any_eq_false.mpr fun a ha => by simp [(hrows a ha).2.2]
  have hall : (tloadRows c c.work.pos).1.all (fun a => ownsRange s c.part a (tloadRows c c.work.pos).2) = true :=
    List.all_eq_true.mpr fun a ha => (hrows a ha).2.1
  have hgood : (tloadRows c c.work.pos).1.find? (fun a => badRange s a (tloadRows c c.work.pos).2) = none :=
    List.find?_eq_none.mpr fun a ha => by simp [(hrows a ha).1]
  have hfirst : ¬ (c.work.pos = 0 ∧ ¬ tloadOwned s c = true) := fun h => h.2 (howned h.1)
  refine ⟨_, dbgOnly_memIns s c (tloadRows c c.work.pos).1 (tloadRows c c.work.pos).2, ?_⟩
  change execTload slot s = _
  unfold execTload
  rw [hrun]
  dsimp only
  rw [if_neg hfirst, if_neg (by simp [hroom, hclear]), if_neg (by simp only [hall]; simp), hgood]
  dsimp only
  rw [if_neg (by omega)]
  rfl

theorem tloadRows_of_more {c : Tracked} (h : c.work.pos + 1 < opw c.opb 6 31 0) : tloadRows c c.work.pos =
    ((List.range (opw c.opb 4 54 48 + 1)).map fun j => opw c.opb 4 47 0 + c.work.pos * opw c.opb 6 63 32 + j * opw c.opb 5 31 0,
      opw c.opb 4 62 55 + 1) := by
  unfold tloadRows
  dsimp only
  rw [if_neg (by omega)]

theorem runs_tload {slot : Nat} {s : State} {c : Tracked} {o : OutBind} (hrun : runningCmd s slot 0x01 = some c)
    (howned : c.work.pos = 0 → tloadOwned s c = true) (hroom : roomFor s c = true) (ho : c.outs[0]? = some o)
    (hformed : o.formed < 2 ^ 32 - 1) (hmore : c.work.pos + 1 < opw c.opb 6 31 0)
    (hrows : ∀ a ∈ (tloadRows c c.work.pos).1, badRange s a (tloadRows c c.work.pos).2 = false ∧
      ownsRange s c.part a (tloadRows c c.work.pos).2 = true ∧ clearingAt s a (tloadRows c c.work.pos).2 = false) :
    Runs (.tload slot) s fun t =>
      (∃ (u : Tracked) (p : OutBind) (x : Tile), t.cmd? slot = some u ∧ u.work.pos = c.work.pos + 1 ∧ u.outs[0]? = some p ∧
        p.formed = o.formed + 1 ∧ p.queue = o.queue ++ [x] ∧ x.stream = o.stream ∧ x.index = o.formed ∧ x.layer = c.desc.layerId ∧
        x.last = false ∧ x.format = opw c.opb 5 36 32 ∧ x.rowsM1 = opw c.opb 4 54 48 ∧ x.rowBytesM1 = opw c.opb 4 62 55 ∧
        x.payload = ((List.range (opw c.opb 4 54 48 + 1)).flatMap fun j =>
          softBytes s (opw c.opb 4 47 0 + c.work.pos * opw c.opb 6 63 32 + j * opw c.opb 5 31 0) (opw c.opb 4 62 55 + 1))) ∧
      t.events = s.events ∧ Kept (dbgRegs c.station) s t := by
  obtain ⟨t, hdbg, hexec⟩ := exec_tload hrun howned hroom hmore hrows
  obtain ⟨hc, hphase, -, hstatus, -⟩ := runningCmd_eq_some hrun
  have hct : t.cmd? slot = some c := (cmd?_congr hdbg.tracked slot).trans hc
  have hadv : (t.updCmd slot fun u => { u with work := { u.work with pos := c.work.pos + 1 } }).cmd? slot = some c.advanced :=
    cmd?_updCmd_self hct
  rw [formTile_eq hadv ho hstatus hformed] at hexec
  have hend := cmd?_updCmd_self (f := fun u => u.withTile 0 (stampTile c.advanced o (tloadTile s c))) hadv
  have hphase' : (c.advanced.withTile 0 (stampTile c.advanced o (tloadTile s c))).phase ≠ .draining := by
    change c.phase ≠ .draining
    rw [hphase]; decide
  unfold State.settle at hexec
  rw [checkDrain_eq_self hend hphase'] at hexec
  refine ⟨_, hexec, ⟨_, _, stampTile c.advanced o (tloadTile s c), hend, rfl, outs_withTile ho _, rfl, rfl, rfl, rfl, rfl, ?_⟩, hdbg.events,
    hdbg.kept.trans (kept_of_regs rfl rfl rfl rfl _)⟩
  unfold stampTile tloadTile mkTile
  rw [tloadRows_of_more hmore]
  refine ⟨by simpa using hmore.ne, rfl, by simp, by simp, ?_⟩
  exact List.flatMap_map ..

/-- A TLOAD whose range leaves its partition ends before any byte. -/
theorem runs_tload_refused {slot : Nat} {s : State} {c : Tracked} (hrun : runningCmd s slot 0x01 = some c) (hpos : c.work.pos = 0)
    (howned : tloadOwned s c = false) (hcompl : c.compl = .none) (hattn : c.work.attn = none) :
    Runs (.tload slot) s fun t => Reached slot 4 0xB t ∧ t.mem = s.mem := by
  obtain ⟨hc, hphase, hop, -⟩ := runningCmd_eq_some hrun
  have hexec : exec (.tload slot) s = .next (s.finish slot St.cmdError Det.addrFault) := by
    change execTload slot s = _
    unfold execTload
    rw [hrun]
    dsimp only
    rw [if_pos ⟨hpos, by simp [howned]⟩]
    rfl
  have hend := ending_finish hc hphase (by omega) (by simp [hcompl]) hattn St.cmdError Det.addrFault
  exact ⟨_, hexec, hend.reached⟩

end Sys2Proof.Machine
end

section
/-! PROOFS. Bytes written where codewords may hold errors (R440, R444, Table 7-2): what a store leaves unchanged. -/

namespace Sys2Proof.Machine

open Sys2Proof

/-- A part of a codeword in error is discarded. -/
theorem writeLine_of_bad {s : State} {a : Nat} {bs : List Byte} (hpart : bs.length ≠ codeBytes a)
    (hbad : s.badLines.contains (codeword a) = true) : s.writeLine a bs = s.markDirty a := by
  unfold State.writeLine
  dsimp only
  rw [if_neg hpart, State.markDirty_badLines, if_pos hbad]

theorem markDirty_eq (s : State) (a : Nat) : s.markDirty a = { s with pair := (s.markDirty a).pair } := by
  unfold State.markDirty
  dsimp only
  split <;> rfl

theorem markDirty_withBadLines (s : State) (a : Nat) (l : List Nat) :
    ({ s with badLines := l } : State).markDirty a = { s.markDirty a with badLines := l } := by
  have hpair : (({ s with badLines := l } : State).markDirty a).pair = (s.markDirty a).pair := by
    unfold State.markDirty
    dsimp only
    rw [apply_ite State.pair, apply_ite State.pair]
    rfl
  rw [markDirty_eq, hpair, markDirty_eq s a]

/-- A whole codeword replaced, with the codewords still in error given. -/
def State.replaceLine (s : State) (bad : List Nat) (a : Nat) (bs : List Byte) : State :=
  let s := { s with badLines := bad }
  let s := if a < lpddrTop then { s with keyTag := tset s.keyTag (a / 64) (keyAt s a) } else s
  s.pokeAll a bs

theorem writeLine_eq_replaceLine {s : State} {a : Nat} {bs : List Byte} (hwhole : bs.length = codeBytes a) :
    s.writeLine a bs = (s.markDirty a).replaceLine (s.badLines.filter (· != codeword a)) a bs := by
  rw [← State.markDirty_badLines s a]
  exact if_pos hwhole

/-- A whole codeword replaces one in error as it replaces one that is not. -/
theorem writeLine_of_whole {s : State} {a : Nat} {bs : List Byte} (hwhole : bs.length = codeBytes a) :
    s.writeLine a bs = { s with badLines := s.badLines.filter (· != codeword a) }.writeLine a bs := by
  have hfilter : (s.badLines.filter (· != codeword a)).filter (· != codeword a) = s.badLines.filter (· != codeword a) := by
    simp [List.filter_filter]
  rw [writeLine_eq_replaceLine hwhole, writeLine_eq_replaceLine (s := { s with badLines := _ }) hwhole,
    markDirty_withBadLines s a (s.badLines.filter _), hfilter]
  rfl

/-- Bytes of a line written, in error or not: every other byte reads as before. -/
theorem byteAt_writeLine_ne {s : State} {a : Nat} {bs : List Byte} (h : MemInv s) (hn : a % 64 + bs.length ≤ 64) {c : Nat}
    (hc : ¬ (a ≤ c ∧ c < a + bs.length)) : byteAt (s.writeLine a bs) c = byteAt s c := by
  by_cases hwhole : bs.length = codeBytes a
  · rw [writeLine_of_whole hwhole]
    refine (byteAt_writeLine { s with badLines := s.badLines.filter (· != codeword a) } a bs h hn (by simp) c).trans ?_
    rw [if_neg hc]
    exact byteAt_of_line (fun _ _ => rfl) rfl rfl rfl
  · cases hbad : s.badLines.contains (codeword a) with
    | true => rw [writeLine_of_bad hwhole hbad, byteAt_markDirty]
    | false => rw [byteAt_writeLine s a bs h hn hbad, if_neg hc]

/-- What a write of bytes does codeword by codeword, in error or not: bytes outside the range read as before. -/
theorem memKeptBut_writeFuel (f : Nat) : ∀ (s : State) (a : Nat) (bs : List Byte), MemInv s →
    MemKeptBut a bs.length s (s.writeFuel a bs f) := by
  induction f with
  | zero => exact fun s a bs _ c _ => rfl
  | succ f ih =>
    intro s a bs hm
    unfold State.writeFuel
    split
    · exact fun c _ => rfl
    · cases hcanon : canon a with
      | none =>
        intro c hc
        refine ih s _ _ hm c fun i hi => ?_
        rw [List.length_drop] at hi
        rw [Nat.add_assoc]
        exact hc _ (by omega)
      | some c0 =>
        dsimp only
        have h64 : c0 % 64 = a % 64 := (canon_line (i := 0) hcanon (by omega)).2
        have hfit : a % 64 + (codeBytes c0 - c0 % codeBytes c0) ≤ 64 := by
          rcases codeBytes_cases c0 with e | e <;> rw [e] <;> omega
        generalize codeBytes c0 - c0 % codeBytes c0 = n at hfit
        have hlen : (bs.take n).length = min n bs.length := List.length_take
        intro c hc
        have hrest : byteAt ((s.writeLine c0 (bs.take n)).writeFuel (a + n) (bs.drop n) f) c = byteAt (s.writeLine c0 (bs.take n)) c := by
          refine ih _ _ _ (memInv_writeLine s c0 _ hm) c fun i hi => ?_
          rw [List.length_drop] at hi
          rw [Nat.add_assoc]
          exact hc _ (by omega)
        refine hrest.trans (byteAt_writeLine_ne hm (by omega) ?_)
        rintro ⟨hlo, hhi⟩
        have hbyte := (canon_line (i := c - c0) hcanon (by omega)).1
        rw [show c0 + (c - c0) = c by omega] at hbyte
        exact hc (c - c0) (by omega) hbyte

theorem badLines_writeFuel (f : Nat) : ∀ (s : State) (a : Nat) (bs : List Byte) (l : Nat), s.badLines.contains l = false →
    (s.writeFuel a bs f).badLines.contains l = false := by
  induction f with
  | zero => exact fun s a bs l h => h
  | succ f ih =>
    intro s a bs l h
    unfold State.writeFuel
    split
    · exact h
    · cases canon a with
      | none => exact ih s _ _ l h
      | some c => exact ih _ _ _ l (badLines_writeLine s c _ l h)

/-- The report of a part of a codeword discarded. -/
def State.partialWrite (s : State) (v : Nat × Nat) : State :=
  (s.setReg (errRegs v.2).1 (s.reg (errRegs v.2).1 ||| 4)).pinReport (memSource v.2) 2 4

theorem errOnly_partialWrites (l : List (Nat × Nat)) (s : State) :
    ErrOnly s (l.foldl State.partialWrite s) ∧ (l.foldl State.partialWrite s).badLines = s.badLines := by
  induction l generalizing s with
  | nil => exact ⟨.refl s, rfl⟩
  | cons v r ih =>
    have hone : ErrOnly s (s.partialWrite v) := ⟨rfl, (RegsKept.refl _ s).setReg _ (memErrRegs_home (errRegs_mem v.2).1)⟩
    exact ⟨hone.trans (ih _).1, (ih (s.partialWrite v)).2⟩

/-- A store reports what it must, and writes. -/
theorem storeBytes_eq_writeBytes (s : State) (a : Nat) (bs : List Byte) :
    ∃ u, ErrOnly s u ∧ u.badLines = s.badLines ∧ s.storeBytes a bs = u.writeBytes a bs :=
  ⟨_, (errOnly_partialWrites _ s).1, (errOnly_partialWrites _ s).2, rfl⟩

theorem memKeptBut_storeBytes {s : State} (hm : MemInv s) (a : Nat) (bs : List Byte) : MemKeptBut a bs.length s (s.storeBytes a bs) := by
  obtain ⟨u, hu, -, heq⟩ := storeBytes_eq_writeBytes s a bs
  intro c hc
  rw [heq]
  exact (memKeptBut_writeFuel _ u a bs (memInv_of_mem hu.mem hm) c hc).trans (hu.kept.2 c)

theorem badLines_storeBytes {s : State} {a l : Nat} {bs : List Byte} (h : s.badLines.contains l = false) :
    (s.storeBytes a bs).badLines.contains l = false := by
  obtain ⟨u, -, hbad, heq⟩ := storeBytes_eq_writeBytes s a bs
  rw [heq]
  exact badLines_writeFuel _ u a bs l (by rw [hbad]; exact h)

/-- Every address of a range that a partition owns is one of memory (R425). -/
theorem canon_of_ownsRange {s : State} {p a n i : Nat} (h : ownsRange s p a n = true) (hi : i < n) : (canon (a + i)).isSome = true := by
  have hall : ∀ k < (a + n - 1) / 4096 + 1 - a / 4096, (canon (max a ((a / 4096 + k) * 4096))).isSome = true := by
    intro k hk
    unfold ownsRange at h
    rw [Bool.or_eq_true, beq_iff_eq, List.all_eq_true] at h
    have hpiece := (h.resolve_left (by omega)) k (List.mem_range.mpr hk)
    cases hc : canon (max a ((a / 4096 + k) * 4096)) with
    | none => rw [hc] at hpiece; cases hpiece
    | some c => rfl
  have hpiece := hall ((a + i) / 4096 - a / 4096) (by omega)
  rw [show a / 4096 + ((a + i) / 4096 - a / 4096) = (a + i) / 4096 by omega] at hpiece
  rcases canon_cases (a + i) with ⟨_, e⟩ | ⟨_, _, e⟩ | ⟨_, _, e⟩ | ⟨_, hlo, hmid, hhi⟩
  · rw [e]; rfl
  · rw [e]; rfl
  · rw [e]; rfl
  · rcases canon_cases (max a ((a + i) / 4096 * 4096)) with ⟨_, e⟩ | ⟨_, _, e⟩ | ⟨_, _, e⟩ | ⟨e, _⟩
    · omega
    · omega
    · omega
    · rw [e] at hpiece; cases hpiece

end Sys2Proof.Machine
end

section
/-! PROOFS. TSTORE (R45, R69): O10. -/

namespace Sys2Proof.Machine

open Sys2Proof

/-! ### Taking a tile and giving back its slot -/

/-- The command with the head of an input's window among the tiles taken. -/
def Tracked.took (c : Tracked) (inp n : Nat) : Tracked :=
  { c with
      moved := n, stallSent := false, arrivals := c.arrivals.erase inp
      ins := c.ins.mapIdx fun j b =>
        if j = inp then
          match b.window with
          | [] => b
          | x :: r => { b with window := r, taken := b.taken ++ [x] }
        else b }

theorem cmd?_takeTile {s : State} {slot : Nat} {c : Tracked} (hc : s.cmd? slot = some c) (inp : Nat) :
    (s.takeTile slot inp).cmd? slot = some (c.took inp s.tb.n) := cmd?_updCmd_self hc

theorem ins_took {c : Tracked} {inp : Nat} {b : InBind} {x : Tile} {r : List Tile} (hb : c.ins[inp]? = some b) (hw : b.window = x :: r)
    (n : Nat) : (c.took inp n).ins[inp]? = some { b with window := r, taken := b.taken ++ [x] } := by
  refine (getElem?_mapIdx_at c.ins inp fun b =>
    match b.window with | [] => b | x :: r => { b with window := r, taken := b.taken ++ [x] }).trans ?_
  rw [hb, Option.map_some, hw]

theorem releaseTo_eq (s : State) (slot inp n : Nat) : s.releaseTo slot inp n =
    { s with tracked := (s.releaseTo slot inp n).tracked, chans := (s.releaseTo slot inp n).chans } := by
  unfold State.releaseTo
  split
  · rfl
  · split
    · rfl
    · dsimp only
      split <;> rfl

/-- Slots released change what an input has released, and no more of its command. -/
theorem cmd?_releaseTo {s : State} {slot inp : Nat} {c : Tracked} {b : InBind} (hc : s.cmd? slot = some c) (hb : c.ins[inp]? = some b)
    (n : Nat) : ∃ u b', (s.releaseTo slot inp n).cmd? slot = some u ∧ u.work = c.work ∧ u.ins[inp]? = some b' ∧
      b'.window = b.window ∧ b'.taken = b.taken := by
  unfold State.releaseTo
  rw [hc]
  dsimp only
  rw [hb]
  dsimp only
  split
  · exact ⟨c, b, hc, rfl, hb, rfl, rfl⟩
  · refine ⟨_, { b with released := min n b.taken.length }, cmd?_updCmd_self hc, rfl, ?_, rfl, rfl⟩
    refine (getElem?_mapIdx_at c.ins inp fun b' => { b' with released := min n b.taken.length }).trans ?_
    rw [hb]
    rfl

/-! ### Rows stored -/

/-- One row stored, counted, and kept as one whose record is to be written. -/
def State.storeRow (s : State) (c : Tracked) (slot n : Nat) (r : Nat × List Byte) : State :=
  { (s.storeBytes r.1 r.2).memOut c r.1 n with settling := s.settling ++ [(slot, r.1, n)] }

/-- What rows stored one after the other make of a state. -/
structure RowsStored (st slot n : Nat) (rows : List (Nat × List Byte)) (s t : State) : Prop where
  tracked : t.tracked = s.tracked
  events : t.events = s.events
  settling : t.settling = s.settling ++ rows.map fun r => (slot, r.1, n)
  memInv : MemInv s → MemInv t
  byteAt : MemInv s → ∀ a, (∀ r ∈ rows, ∀ i < r.2.length, canon (r.1 + i) ≠ some a) → byteAt t a = byteAt s a
  badLines : ∀ l, s.badLines.contains l = false → t.badLines.contains l = false
  regs : (∀ r ∈ rows, badRange s r.1 r.2.length = false) → RegsKept (dbgRegs st) s t

theorem MemOnly.tracked {s t : State} (h : MemOnly s t) : t.tracked = s.tracked := by rw [h]
theorem MemOnly.events {s t : State} (h : MemOnly s t) : t.events = s.events := by rw [h]

theorem tracked_storeBytes (s : State) (a : Nat) (bs : List Byte) : (s.storeBytes a bs).tracked = s.tracked := by
  obtain ⟨u, hu, -, heq⟩ := storeBytes_eq_writeBytes s a bs
  rw [heq]
  exact (memOnly_writeBytes u a bs).tracked.trans hu.tracked

theorem events_storeBytes (s : State) (a : Nat) (bs : List Byte) : (s.storeBytes a bs).events = s.events := by
  obtain ⟨u, hu, -, heq⟩ := storeBytes_eq_writeBytes s a bs
  rw [heq]
  exact (memOnly_writeBytes u a bs).events.trans hu.events

theorem badRange_of_badLines {s t : State} (h : ∀ l, s.badLines.contains l = false → t.badLines.contains l = false) {a n : Nat}
    (hs : badRange s a n = false) : badRange t a n = false :=
  badRange_eq_false.mpr fun i c hi hc => h _ (badRange_eq_false.mp hs i c hi hc)

theorem rowsStored_one (s : State) (c : Tracked) (slot n : Nat) (r : Nat × List Byte) :
    RowsStored c.station slot n [r] s (s.storeRow c slot n r) := by
  have hdbg := dbgOnly_memOut (s.storeBytes r.1 r.2) c r.1 n
  refine ⟨?_, ?_, rfl, fun hm => ?_, fun hm a ha => ?_, fun l hl => ?_, fun hbad => ?_⟩
  · exact hdbg.tracked.trans (tracked_storeBytes ..)
  · exact hdbg.events.trans (events_storeBytes ..)
  · exact memInv_of_mem hdbg.mem (memInv_storeBytes s r.1 r.2 hm)
  · exact (hdbg.kept.2 a).trans (memKeptBut_storeBytes hm r.1 r.2 a (ha r (by simp)))
  · change (State.memOut _ c r.1 n).badLines.contains l = false
    rw [hdbg.badLines]
    exact badLines_storeBytes hl
  · exact (RegsKept.of_regs (memOnly_storeBytes s r.1 r.2 (hbad r (by simp))).regs).trans hdbg.2

theorem RowsStored.append {st slot n : Nat} {l l' : List (Nat × List Byte)} {s t u : State} (h : RowsStored st slot n l s t)
    (h' : RowsStored st slot n l' t u) : RowsStored st slot n (l ++ l') s u := by
  refine ⟨h'.tracked.trans h.tracked, h'.events.trans h.events, ?_, fun hm => h'.memInv (h.memInv hm), fun hm a ha => ?_,
    fun l hl => h'.badLines l (h.badLines l hl), fun hbad => ?_⟩
  · rw [h'.settling, h.settling, List.map_append, List.append_assoc]
  · exact (h'.byteAt (h.memInv hm) a fun r hr => ha r (by simp [hr])).trans (h.byteAt hm a fun r hr => ha r (by simp [hr]))
  · exact (h.regs fun r hr => hbad r (by simp [hr])).trans
      (h'.regs fun r hr => badRange_of_badLines h.badLines (hbad r (by simp [hr])))

theorem rowsStored_foldl (c : Tracked) (slot n : Nat) (rows : List (Nat × List Byte)) (s : State) :
    RowsStored c.station slot n rows s (rows.foldl (fun s r => s.storeRow c slot n r) s) := by
  induction rows generalizing s with
  | nil => exact ⟨rfl, rfl, by simp, id, fun _ _ _ => rfl, fun _ => id, fun _ => .refl _ s⟩
  | cons r l ih => exact (rowsStored_one s c slot n r).append (ih _)

/-! ### The command -/

/-- The rows of a tile where a TSTORE puts them. -/
def tstoreRows (c : Tracked) (x : Tile) : List (Nat × List Byte) :=
  (List.range (tileRows x)).map fun j =>
    (opw c.opb 4 47 0 + c.work.pos * opw c.opb 6 63 32 + j * opw c.opb 5 31 0, rowOf x j)

theorem length_rowOf_le (x : Tile) (j : Nat) : (rowOf x j).length ≤ tileRowBytes x := by
  unfold rowOf
  rw [List.length_take]
  exact min_le_left ..

/-- A TSTORE whose tile is not its last, and whose rows lie in its partition's regions. -/
theorem exec_tstore {slot : Nat} {s : State} {c : Tracked} {b : InBind} {x : Tile} {r : List Tile}
    (hrun : runningCmd s slot 0x02 = some c) (hb : c.ins[0]? = some b) (hw : b.window = x :: r) (hlast : x.last = false)
    (hrows : ∀ y ∈ tstoreRows c x, inVerdicts y.1 = false ∧ clearingAt s y.1 (tileRowBytes x) = false ∧
      ownsRange s c.part y.1 (tileRowBytes x) = true) :
    exec (.tstore slot) s = .next ((((tstoreRows c x).foldl (fun s y => s.storeRow c slot (tileRowBytes x) y)
      (s.takeTile slot 0)).updCmd slot fun u => { u with work := { u.work with pos := c.work.pos + 1 } }).releaseTo slot 0
        (c.work.pos + 1)) := by
  have hclear : (tstoreRows c x).any (fun y => clearingAt s y.1 (tileRowBytes x)) = false :=
    List.any_eq_false.mpr fun y hy => by simp [(hrows y hy).2.1]
  have hstorable : (tstoreRows c x).all (fun y => rowStorable (s.takeTile slot 0) c.part y.1 (tileRowBytes x)) = true := by
    refine List.all_eq_true.mpr fun y hy => ?_
    unfold rowStorable
    rw [if_neg (by simp [(hrows y hy).1])]
    exact (hrows y hy).2.2
  have hfold : ∀ u : State, (tstoreRows c x).foldl (fun s y =>
      if inVerdicts y.1 then { s with verdictQ := s.verdictQ ++ (rowVerdicts y.1 y.2).map fun v => (c.part, v.1, v.2) }
      else s.storeRow c slot (tileRowBytes x) y) u = (tstoreRows c x).foldl (fun s y => s.storeRow c slot (tileRowBytes x) y) u :=
    fun u => List.foldl_ext _ _ _ fun s y hy => if_neg (by simp [(hrows y hy).1])
  have hhead : ((c.ins[0]?).bind fun b => b.window.head?) = some x := by rw [hb]; simp [hw]
  change execTstore slot s = _
  unfold execTstore
  rw [hrun]
  dsimp only
  rw [hhead]
  change (if (tstoreRows c x).any (fun y => clearingAt s y.1 (tileRowBytes x)) then _ else
    if (tstoreRows c x).all (fun y => rowStorable (s.takeTile slot 0) c.part y.1 (tileRowBytes x)) then _ else _) = _
  rw [if_neg (by simp only [hclear]; simp), if_pos hstorable, if_neg (by simp [hlast])]
  rw [← hfold]
  rfl

/-- A row without error is read back as it was stored. -/
theorem readBytes_storeRow {s : State} {c : Tracked} {slot n : Nat} {y : Nat × List Byte} (hm : MemInv s) (hlen : y.2.length ≤ n)
    (howned : ownsRange s c.part y.1 n = true) (hbad : badRange s y.1 n = false) :
    readBytes (s.storeRow c slot n y) y.1 y.2.length = y.2 := by
  have hgood : badRange s y.1 y.2.length = false :=
    badRange_eq_false.mpr fun i c hi hc => badRange_eq_false.mp hbad i c (by omega) hc
  have hstored := stored_storeBytes s y.1 y.2 ⟨hm, fun i hi => canon_of_ownsRange howned (by omega), hgood⟩
  exact (readBytes_congr (dbgOnly_memOut ..).kept.2 y.1 _).trans hstored.1

theorem tstoreRows_eq {c : Tracked} {x : Tile} {at_ : Nat → Nat}
    (hat : ∀ j, at_ j = opw c.opb 4 47 0 + c.work.pos * opw c.opb 6 63 32 + j * opw c.opb 5 31 0) :
    tstoreRows c x = (List.range (tileRows x)).map fun j => (at_ j, rowOf x j) :=
  List.map_congr_left fun j _ => by rw [hat j]

theorem runs_tstore {slot : Nat} {s : State} {c : Tracked} {b : InBind} {x : Tile} {r : List Tile} {at_ : Nat → Nat}
    (hrun : runningCmd s slot 0x02 = some c) (hm : MemInv s) (hb : c.ins[0]? = some b) (hw : b.window = x :: r)
    (hlast : x.last = false)
    (hat : ∀ j, at_ j = opw c.opb 4 47 0 + c.work.pos * opw c.opb 6 63 32 + j * opw c.opb 5 31 0)
    (hrows : ∀ j, j < tileRows x → inVerdicts (at_ j) = false ∧ clearingAt s (at_ j) (tileRowBytes x) = false ∧
      ownsRange s c.part (at_ j) (tileRowBytes x) = true) :
    Runs (.tstore slot) s fun t =>
      (∀ a, (∀ j i, j < tileRows x → i < tileRowBytes x → canon (at_ j + i) ≠ some a) → byteAt t a = byteAt s a) ∧
      (tileRows x = 1 → badRange s (at_ 0) (tileRowBytes x) = false → readBytes t (at_ 0) (rowOf x 0).length = rowOf x 0) ∧
      t.settling = s.settling ++ (List.range (tileRows x)).map (fun j => (slot, at_ j, tileRowBytes x)) ∧
      (∃ (u : Tracked) (b' : InBind), t.cmd? slot = some u ∧ u.work.pos = c.work.pos + 1 ∧ u.ins[0]? = some b' ∧ b'.window = r ∧
        b'.taken = b.taken ++ [x]) ∧
      t.events = s.events ∧
      ((∀ j, j < tileRows x → badRange s (at_ j) (tileRowBytes x) = false) → RegsKept (dbgRegs c.station) s t) := by
  have hmem : ∀ y ∈ tstoreRows c x, ∃ j < tileRows x, y = (at_ j, rowOf x j) := by
    intro y hy
    rw [tstoreRows_eq hat] at hy
    obtain ⟨j, hj, rfl⟩ := List.mem_map.mp hy
    exact ⟨j, List.mem_range.mp hj, rfl⟩
  have hexec := exec_tstore hrun hb hw hlast fun y hy => by
    obtain ⟨j, hj, rfl⟩ := hmem y hy
    exact hrows j hj
  obtain ⟨hc, -⟩ := runningCmd_eq_some hrun
  have hstored := rowsStored_foldl c slot (tileRowBytes x) (tstoreRows c x) (s.takeTile slot 0)
  generalize hfold : (tstoreRows c x).foldl (fun s y => s.storeRow c slot (tileRowBytes x) y) (s.takeTile slot 0) = t at hexec hstored
  have htook : t.cmd? slot = some (c.took 0 s.tb.n) := (cmd?_congr hstored.tracked slot).trans (cmd?_takeTile hc 0)
  have hadv : (t.updCmd slot fun u => { u with work := { u.work with pos := c.work.pos + 1 } }).cmd? slot = some _ :=
    cmd?_updCmd_self htook
  obtain ⟨u, b', hu, hwork, hins, hwin, htaken⟩ := cmd?_releaseTo hadv (ins_took hb hw s.tb.n) (c.work.pos + 1)
  have hframe : Kept [] t ((t.updCmd slot fun u => { u with work := { u.work with pos := c.work.pos + 1 } }).releaseTo slot 0
      (c.work.pos + 1)) := by
    rw [releaseTo_eq]
    exact kept_of_regs rfl rfl rfl rfl _
  refine ⟨_, hexec, fun a ha => ?_, fun hone hbad => ?_, ?_, ⟨u, b', hu, by rw [hwork], hins, hwin, htaken⟩, ?_, fun hbad => ?_⟩
  · refine (hframe.2 a).trans (hstored.byteAt (memInv_of_mem rfl hm) a fun y hy i hi => ?_)
    obtain ⟨j, hj, rfl⟩ := hmem y hy
    exact ha j i hj (hi.trans_le (length_rowOf_le x j))
  · have hrow : tstoreRows c x = [(at_ 0, rowOf x 0)] := by rw [tstoreRows_eq hat, hone]; rfl
    rw [hrow] at hfold
    rw [readBytes_congr hframe.2, ← hfold]
    exact readBytes_storeRow (s := s.takeTile slot 0) (y := (at_ 0, rowOf x 0)) (memInv_of_mem rfl hm) (length_rowOf_le x 0)
      (hrows 0 (by omega)).2.2 hbad
  · rw [releaseTo_eq]
    refine hstored.settling.trans ?_
    rw [tstoreRows_eq hat, List.map_map]
    rfl
  · rw [releaseTo_eq]
    exact hstored.events
  · refine RegsKept.trans (hstored.regs fun y hy => ?_) (hframe.1.mono (by simp))
    obtain ⟨j, hj, rfl⟩ := hmem y hy
    exact badRange_eq_false.mpr fun i d hi hd =>
      badRange_eq_false.mp (hbad j hj) i d (hi.trans_le (length_rowOf_le x j)) hd

/-- Settles O10: TLOAD by the frame of what its reads count, TSTORE by what each of its rows leaves unchanged. -/
theorem transfersMoveTiles : Obligations.TransfersMoveTiles := by
  unfold Obligations.TransfersMoveTiles
  exact ⟨⟨fun slot s c o => runs_tload,
    fun slot s c hrun hpos howned _ hcompl hattn => runs_tload_refused hrun hpos howned hcompl hattn,
    fun s a n h => softBytes_of_settled h a n⟩, fun slot s c b x r at_ => runs_tstore⟩

end Sys2Proof.Machine
end

section
/-! PROOFS. Exact lanes (R135 to R138): O15. -/

namespace Sys2Proof.Machine

open Sys2Proof

/-- A signed product of magnitudes is the product. -/
theorem mul_eq_ite_natAbs (a b : Int) :
    (if (decide (a < 0) != decide (b < 0)) = true then -((a.natAbs * b.natAbs : Nat) : Int) else ((a.natAbs * b.natAbs : Nat) : Int)) =
      a * b := by
  rcases lt_or_ge a 0 with ha | ha <;> rcases lt_or_ge b 0 with hb | hb
  · simp [ha, hb, abs_of_neg]
  · simp [ha, hb.not_gt, abs_of_neg, abs_of_nonneg hb]
  · simp [ha.not_gt, hb, abs_of_neg, abs_of_nonneg ha]
  · simp [ha.not_gt, hb.not_gt, abs_of_nonneg ha, abs_of_nonneg hb]

/-- The products of integers sum to their dot product, without a flag. -/
theorem sumProducts_ofInt (as bs : List Int) : sumProducts 0 (as.map (Fv.ofInt · 0)) (bs.map (Fv.ofInt · 0)) =
    ((List.zipWith (· * ·) as bs).sum, 0) := by
  induction as generalizing bs with
  | nil => rfl
  | cons a as ih =>
    cases bs with
    | nil => rfl
    | cons b bs =>
      have hmul : (Fv.ofInt a 0).mul (Fv.ofInt b 0) = .fin (decide (a < 0) != decide (b < 0)) (a.natAbs * b.natAbs) 0 := rfl
      rw [List.zipWith_cons_cons, List.sum_cons, ← mul_eq_ite_natAbs a b]
      simp only [List.map_cons, sumProducts, ih bs, hmul]
      refine Prod.ext ?_ rfl
      split <;> simp <;> omega

theorem clampTerm_of_le {t : Int} (h : t.natAbs ≤ 2 ^ 95 - 1) : clampTerm t = (t, 0) := by
  unfold clampTerm vMax
  rw [if_neg (by omega), if_neg (by omega)]

/-- The term of two unscaled rows of integers is their dot product while that stays in 96 bits. -/
theorem blockTerm_ofInt {as bs : List Int} (h : ((List.zipWith (· * ·) as bs).sum).natAbs ≤ 2 ^ 95 - 1) :
    blockTerm 0 0 (127, as.map (Fv.ofInt · 0)) (127, bs.map (Fv.ofInt · 0)) = ((List.zipWith (· * ·) as bs).sum, 0) := by
  unfold blockTerm
  rw [if_neg (by simp)]
  simp [sumProducts_ofInt, clampTerm_of_le h]

/-- A row of operands cut in two gives the lane that the whole gives (R136). -/
theorem exactDot_append (u l : Int) (ln : Lane) {a b : OpRow} (a' b' : OpRow) (h : a.length = b.length) :
    exactDot u l ln (a ++ a') (b ++ b') = exactDot u l (exactDot u l ln a b) a' b' := by
  induction a generalizing ln b with
  | nil =>
    obtain rfl : b = [] := List.length_eq_zero_iff.mp h.symm
    rfl
  | cons x a ih =>
    cases b with
    | nil => simp at h
    | cons y b => exact ih _ (by simpa using h)

/-- Settles O15: the one term of unscaled integer rows is their dot product, and a lane takes the terms one after the other. -/
theorem exactLanes : Obligations.ExactLanes := by
  unfold Obligations.ExactLanes
  refine ⟨fun ln as bs _ h => ?_, fun u l ln a b a' b' h => exactDot_append u l ln a' b' h⟩
  simp [exactDot, blockTerm_ofInt h]

end Sys2Proof.Machine
end

section
/-! PROOFS. An engine's command that ends (R174, R238, R939): whatever its pages and its flag word are, it keeps the status that it
reached, and the tiles that it formed. `Ending` says this, and that memory stays, of commands without such a report. -/

namespace Sys2Proof.Machine

open Sys2Proof

/-- From `s` to `t` the command of a slot keeps its status and its outputs, and its record is not written. -/
def EndKept (slot : Nat) (s t : State) : Prop :=
  ∀ u, s.cmd? slot = some u → ∃ v, t.cmd? slot = some v ∧ v.status = u.status ∧ v.outs = u.outs ∧
    (u.compl ≠ .kept → v.compl ≠ .kept)

variable {slot : Nat} {s t : State}

theorem EndKept.trans {r : State} (h : EndKept slot s t) (h' : EndKept slot t r) : EndKept slot s r := by
  intro u hu
  obtain ⟨v, hv, hst, houts, hcompl⟩ := h u hu
  obtain ⟨w, hw, hst', houts', hcompl'⟩ := h' v hv
  exact ⟨w, hw, hst'.trans hst, houts'.trans houts, hcompl' ∘ hcompl⟩

theorem EndKept.of_tracked (h : t.tracked = s.tracked) : EndKept slot s t :=
  fun u hu => ⟨u, (cmd?_congr h slot).trans hu, rfl, rfl, id⟩

theorem EndKept.refl (slot : Nat) (s : State) : EndKept slot s s := .of_tracked rfl

/-- A change of a command that keeps its status and its outputs, and does not file its record. -/
theorem EndKept.updCmd (s : State) (k : Nat) (f : Tracked → Tracked)
    (hf : ∀ u, (f u).slot = u.slot ∧ (f u).status = u.status ∧ (f u).outs = u.outs ∧
      (u.compl ≠ .kept → (f u).compl ≠ .kept) := by exact fun u => ⟨rfl, rfl, rfl, id⟩) : EndKept slot s (s.updCmd k f) := by
  intro u hu
  obtain ⟨-, hst, houts, hcompl⟩ := hf u
  refine ⟨if slot = k then f u else u, ?_, ?_⟩
  · rw [cmd?_updCmd s k slot f fun u => (hf u).1, hu]
    rfl
  · split
    · exact ⟨hst, houts, hcompl⟩
    · exact ⟨rfl, rfl, id⟩

/-! ### Leaving the unit -/

theorem tracked_withdrawTask (s : State) (k : Nat) : (s.withdrawTask k).tracked = s.tracked := by
  unfold State.withdrawTask
  split <;> rfl

theorem ledgerOnly_unpinPage (s : State) (h : Nat) : LedgerOnly s (s.unpinPage h) := by
  unfold State.unpinPage
  split
  · exact ledgerOnly_setEntry s _ _ _
  · exact .refl s

theorem endKept_unpinAll (s : State) (k : Tracked) : EndKept slot s (s.unpinAll k) := by
  unfold State.unpinAll
  split
  · exact .refl slot s
  · have hunpinned : LedgerOnly s (k.pinned.foldl State.unpinPage s) := .foldl ledgerOnly_unpinPage _ s
    exact (EndKept.of_tracked (by rw [hunpinned])).trans (.updCmd _ _ _)

theorem tracked_releases (k : Tracked) (l : List Nat) (s : State) : (l.foldl (fun s i =>
    s.release k.slot i (((k.ins[i]?).map InBind.held).getD 0)) s).tracked = s.tracked := by
  induction l generalizing s with
  | nil => rfl
  | cons i r ih => exact ih _

theorem endKept_discardInputs (s : State) (k : Tracked) : EndKept slot s (s.discardInputs k) :=
  (EndKept.of_tracked (tracked_releases k _ s)).trans (.updCmd _ _ _)

/-- A running command with a status has it when it has left its unit, and its outputs are those that stand. -/
theorem cmd?_leftUnit {c : Tracked} (hc : s.cmd? slot = some c) (status detail : Nat) :
    ∃ v, (s.leftUnit slot status detail c).cmd? slot = some v ∧ v.status = some (status, detail) ∧
      v.outs = (c.stopped status detail).outs ∧ (c.compl ≠ .kept → v.compl ≠ .kept) := by
  have hleft : EndKept slot (s.updCmd slot fun u => u.stopped status detail) (s.leftUnit slot status detail c) := by
    unfold State.leftUnit
    dsimp only
    generalize s.updCmd slot (fun u => u.stopped status detail) = s₁
    refine EndKept.trans (.of_tracked (tracked_withdrawTask s₁ slot)) ((endKept_unpinAll (s₁.withdrawTask slot) c).trans ?_)
    generalize (s₁.withdrawTask slot).unpinAll c = s₂
    refine EndKept.trans (t := { s₂ with
      facets := s₁.facets.filter fun x => x.2.slot != slot
      landings := s₁.landings.filter fun l => l.slot != slot }) (.of_tracked rfl) ?_
    exact (endKept_discardInputs _ c).trans (.updCmd _ _ _)
  exact hleft _ (cmd?_updCmd_self hc)

/-! ### The report and the COMPLETION -/

theorem tracked_tagDrop (s : State) (st p n : Nat) : (s.tagDrop st p n).tracked = s.tracked := by
  unfold State.tagDrop
  split
  · rfl
  · dsimp only
    have hport : (if st < 48 then s.setReg (A.ceErrStatus st) (s.reg (A.ceErrStatus st) ||| 0x10) else s).tracked = s.tracked := by
      split <;> rfl
    generalize (if st < 48 then s.setReg (A.ceErrStatus st) (s.reg (A.ceErrStatus st) ||| 0x10) else s) = u at hport ⊢
    have hdbg := dbgOnly_gcount (u.bump A.loomTagDrop A.loomTagDrop_count n) 6 st n none
    generalize (u.bump A.loomTagDrop A.loomTagDrop_count n).gcount 6 st n none = v at hdbg ⊢
    exact hdbg.tracked.trans hport

theorem tracked_storeOwned (s : State) (k : Tracked) (a : Nat) (bs : List Byte) : (s.storeOwned k a bs).tracked = s.tracked := by
  unfold State.storeOwned
  split
  · rfl
  · split
    · exact (dbgOnly_memOut ..).tracked.trans (tracked_storeBytes ..)
    · exact tracked_tagDrop ..

theorem tracked_reportFlags (s : State) (st flags sat : Nat) : (s.reportFlags st flags sat).tracked = s.tracked := by
  unfold State.reportFlags
  split <;> rfl

theorem tracked_reportEnd (s : State) (k : Tracked) : (s.reportEnd k).tracked = s.tracked := by
  unfold State.reportEnd
  split
  · have hflags := tracked_reportFlags s k.station (k.work.flags % 64) k.work.sat
    dsimp only
    split
    · exact hflags
    · split
      · exact hflags
      · exact (tracked_storeOwned ..).trans hflags
  · rfl

theorem endKept_startRun (s : State) (k : Nat) : EndKept slot s (s.startRun k) := by
  unfold State.startRun
  have hopen : EndKept slot s ((s.updCmd k fun t => { t with phase := .running, started := true, moved := s.tb.n, stallSent := false
      }).openWindows k) := .trans (.updCmd s k _) (.of_tracked rfl)
  dsimp only
  split
  · exact hopen.trans (.of_tracked (dbgOnly_trace ..).tracked)
  · exact hopen

theorem endKept_promote (s : State) (st unit : Nat) : EndKept slot s (s.promote st unit) := by
  unfold State.promote
  split
  · exact .refl slot s
  · split
    · exact endKept_startRun s _
    · exact .refl slot s

theorem endKept_raiseCompletion (s : State) (k : Tracked) : EndKept slot s (s.raiseCompletion k) := by
  unfold State.raiseCompletion
  dsimp only
  split
  · exact .refl slot s
  · have hraised : EndKept slot s (s.updCmd k.slot fun u => { u with compl := .raised }) :=
      .updCmd s k.slot _ fun u => ⟨rfl, rfl, rfl, fun _ => by simp⟩
    split
    · refine hraised.trans (.of_tracked ?_)
      rw [cancelsOnly_applyCancels]
      rfl
    · exact hraised.trans (.of_tracked rfl)

/-- The sweep frees no slot of a command whose record is not written. -/
theorem cmd?_sweep {u : Tracked} (hu : s.cmd? slot = some u) (hcompl : u.compl ≠ .kept) : s.sweep.cmd? slot = some u :=
  find?_filter_of_find? hu (by simp [hcompl])

theorem cmd?_checkDrain {u : Tracked} (hu : s.cmd? slot = some u) (hcompl : u.compl ≠ .kept) :
    ∃ v, (s.checkDrain slot).cmd? slot = some v ∧ v.status = u.status := by
  unfold State.checkDrain
  rw [hu]
  dsimp only
  split
  · have hreport : EndKept slot s (if u.compl == .none then s.reportEnd u else s) := by
      split
      · exact .of_tracked (tracked_reportEnd s u)
      · exact .refl slot s
    generalize (if u.compl == .none then s.reportEnd u else s) = s₁ at hreport ⊢
    have hended : EndKept slot s (s₁.updCmd slot fun v => { v with phase := .ended }) := hreport.trans (.updCmd s₁ slot _)
    generalize s₁.updCmd slot (fun v => { v with phase := .ended }) = s₂ at hended ⊢
    have hbusy : EndKept slot s (if u.station < 48 then { s₂ with busyAt := tset s₂.busyAt u.station s₂.tb.n } else s₂) := by
      split
      · exact hended.trans (.of_tracked rfl)
      · exact hended
    generalize (if u.station < 48 then { s₂ with busyAt := tset s₂.busyAt u.station s₂.tb.n } else s₂) = s₃ at hbusy ⊢
    have hraised : EndKept slot s (if u.compl == .none then s₃.raiseCompletion u else s₃) := by
      split
      · exact hbusy.trans (endKept_raiseCompletion s₃ u)
      · exact hbusy
    generalize (if u.compl == .none then s₃.raiseCompletion u else s₃) = s₄ at hraised ⊢
    have hpromoted : EndKept slot s (match u.place with | some (st, k) => s₄.promote st k | none => s₄) := by
      split
      · exact hraised.trans (endKept_promote s₄ _ _)
      · exact hraised
    obtain ⟨v, hv, hst, -, hkept⟩ := hpromoted u hu
    exact ⟨v, cmd?_sweep hv (hkept hcompl), hst⟩
  · exact ⟨u, hu, rfl⟩

/-- A running command that ends with a status reaches it. -/
theorem reached_finish {c : Tracked} (hc : s.cmd? slot = some c) (hrun : c.phase = .running) (hcompl : c.compl ≠ .kept)
    (status detail : Nat) : Reached slot status detail (s.finish slot status detail) := by
  obtain ⟨u, hu, hst, -, hkept⟩ := cmd?_leftUnit hc status detail
  obtain ⟨v, hv, hst'⟩ := cmd?_checkDrain hu (hkept hcompl)
  rw [finish_of_running hc hrun]
  exact ⟨v, hv, hst'.trans hst⟩

/-- A running command that ends with tiles which still await credits, and stand, stays on its unit with them. -/
theorem cmd?_finish_of_queue {c : Tracked} (hc : s.cmd? slot = some c) (hrun : c.phase = .running) {status detail : Nat}
    (hstand : tilesStand status detail = true) (hqueue : c.outs.all (fun o => o.queue.isEmpty) = false) :
    ∃ u, (s.finish slot status detail).cmd? slot = some u ∧ u.status = some (status, detail) ∧ u.outs = c.outs := by
  obtain ⟨u, hu, hst, houts, -⟩ := cmd?_leftUnit hc status detail
  have houts' : u.outs = c.outs := houts.trans (by simp [Tracked.stopped, hstand])
  rw [finish_of_running hc hrun, checkDrain_of_queue hu (by rw [houts', hqueue])]
  exact ⟨u, hu, hst, houts'⟩

end Sys2Proof.Machine
end

section
/-! PROOFS. Opening the matrix commands (R139, R154 to R156, R166, R180, R942): O11. -/

namespace Sys2Proof.Machine

open Sys2Proof

variable {slot : Nat} {s : State} {t : Tracked}

/-- Ranges that are owned, readable and not being cleared are loaded, which counts what is read. -/
theorem openRanges_of_sound (hc : s.cmd? slot = some t) (hop : t.op ≠ 0x30) {own load : List (Nat × Nat)}
    (hown : ∀ r ∈ own, ownsRange s t.part r.1 r.2 = true) (hclear : ∀ r ∈ load, clearingAt s r.1 r.2 = false)
    (hgood : ∀ r ∈ load, badRange s r.1 r.2 = false) (f : State → List (List Byte) → State) :
    ∃ u, DbgOnly (dbgRegs t.station) s u ∧ s.openRanges slot own load f = f u (load.map fun r => softBytes s r.1 r.2) := by
  have hown' : own.any (fun r => !ownsRange s t.part r.1 r.2) = false := List.any_eq_false.mpr fun r hr => by simp [hown r hr]
  have hclear' : load.any (fun r => clearingAt s r.1 r.2) = false := List.any_eq_false.mpr fun r hr => by simp [hclear r hr]
  have hgood' : load.find? (fun r => badRange s r.1 r.2) = none := List.find?_eq_none.mpr fun r hr => by simp [hgood r hr]
  refine ⟨load.foldl (fun s r => s.memIn t r.1 r.2) s, .foldl (fun u r _ => dbgOnly_memIn u t r.1 r.2) s, ?_⟩
  unfold State.openRanges
  rw [hc]
  dsimp only
  rw [hown', hclear', hgood']
  simp only [if_neg hop]
  rfl

/-- A command opened, with what it has loaded. -/
def Tracked.opened (t : Tracked) (vs : List (List Byte)) : Tracked := { t with loaded := vs, work := { t.work with opened := true } }

theorem cmd?_engineOpened (hc : s.cmd? slot = some t) (vs : List (List Byte)) :
    (s.engineOpened slot vs).cmd? slot = some (t.opened vs) := cmd?_updCmd_self hc

theorem kept_engineOpened (s : State) (slot : Nat) (vs : List (List Byte)) (l : List Nat) : Kept l s (s.engineOpened slot vs) :=
  kept_of_regs rfl rfl rfl rfl l

theorem ownsRange_zero (s : State) (p a : Nat) : ownsRange s p a 0 = true := rfl

/-! ### GEMM -/

theorem exec_gemm_unopened (hrun : runningCmd s slot 0x10 = some t) (hopen : t.work.opened = false) :
    exec (.gemm slot) s = .next (s.gemmOpen slot t) := by
  change execGemm slot s = _
  unfold execGemm
  rw [hrun]
  exact if_pos (by simp [hopen])

/-- The vectors of a GEMM's epilogue, as ranges of memory. -/
def epilogueRanges (opb : List Byte) (c : GemmCfg) : List (Nat × Nat) :=
  [(opw opb 8 47 0, c.e.biasBytes c.n), (opw opb 9 47 0, c.e.scaleBytes c.n)]

/-- Without adapters and without a flag word a GEMM loads the vectors of its epilogue. -/
theorem gemmOpen_of_check {c : GemmCfg} (hcheck : gemmCheck t = none) (hcfg : gemmCfg t.opb = some c) (hlora : c.lora = 0)
    (hflag : opw t.opb 12 47 0 = 0) : s.gemmOpen slot t =
      s.openRanges slot (epilogueRanges t.opb c ++ [(0, 0)]) (epilogueRanges t.opb c) fun s vs => s.engineOpened slot vs := by
  unfold State.gemmOpen
  rw [hcheck, hcfg]
  simp [hlora, hflag, epilogueRanges]

theorem runs_gemm_opens {c : GemmCfg} (hrun : runningCmd s slot 0x10 = some t) (hopen : t.work.opened = false)
    (hcheck : gemmCheck t = none) (hcfg : gemmCfg t.opb = some c) (hlora : c.lora = 0) (hflag : opw t.opb 12 47 0 = 0)
    (hsound : ∀ r ∈ epilogueRanges t.opb c, ownsRange s t.part r.1 r.2 = true ∧ badRange s r.1 r.2 = false ∧
      clearingAt s r.1 r.2 = false) :
    Runs (.gemm slot) s fun t' =>
      (∃ u : Tracked, t'.cmd? slot = some u ∧ u.work.opened = true ∧
        u.loaded = (epilogueRanges t.opb c).map fun r => softBytes s r.1 r.2) ∧
      t'.events = s.events ∧ Kept (dbgRegs t.station) s t' := by
  obtain ⟨hc, -, hop, -⟩ := runningCmd_eq_some hrun
  have hown : ∀ r ∈ epilogueRanges t.opb c ++ [(0, 0)], ownsRange s t.part r.1 r.2 = true := by
    intro r hr
    rcases List.mem_append.mp hr with hr | hr
    · exact (hsound r hr).1
    · rw [List.mem_singleton.mp hr]; exact ownsRange_zero ..
  obtain ⟨u, hdbg, hloaded⟩ := openRanges_of_sound hc (by simp [hop]) hown (fun r hr => (hsound r hr).2.2)
    (fun r hr => (hsound r hr).2.1) fun s vs => s.engineOpened slot vs
  have hexec := exec_gemm_unopened hrun hopen
  rw [gemmOpen_of_check hcheck hcfg hlora hflag, hloaded] at hexec
  exact ⟨_, hexec, ⟨_, cmd?_engineOpened ((cmd?_congr hdbg.tracked slot).trans hc) _, rfl, rfl⟩, hdbg.events,
    hdbg.kept.trans (kept_engineOpened ..)⟩

theorem runs_gemm_refused {d : Nat} (hrun : runningCmd s slot 0x10 = some t) (hopen : t.work.opened = false)
    (hcheck : gemmCheck t = some d) (hcompl : t.compl = .none) : Runs (.gemm slot) s fun t' => Reached slot 4 d t' := by
  obtain ⟨hc, hphase, -⟩ := runningCmd_eq_some hrun
  have hexec := exec_gemm_unopened hrun hopen
  unfold State.gemmOpen at hexec
  rw [hcheck] at hexec
  exact ⟨_, hexec, reached_finish hc hphase (by simp [hcompl]) 4 d⟩

/-! ### ACCREDUCE -/

theorem runs_accreduce_refused {d : Nat} (hrun : runningCmd s slot 0x11 = some t) (hopen : t.work.opened = false)
    (hcheck : reduceCheck s slot t = some d) (hcompl : t.compl = .none) :
    Runs (.accreduce slot) s fun t' => Reached slot 4 d t' := by
  obtain ⟨hc, hphase, -⟩ := runningCmd_eq_some hrun
  refine ⟨s.finish slot St.cmdError d, ?_, reached_finish hc hphase (by simp [hcompl]) 4 d⟩
  change execAccreduce slot s = _
  unfold execAccreduce
  rw [hrun]
  dsimp only
  rw [if_pos (by simp [hopen])]
  unfold State.reduceOpen
  rw [hcheck]
  rfl

/-! ### CONVERT -/

/-- A CONVERT with a legal field mask opens where its scale mode and its output format are legal, and else ends. -/
theorem exec_convert_unopened (hrun : runningCmd s slot 0x12 = some t) (hopen : t.work.opened = false)
    (hfields : convertFields t.opb true = true) : exec (.convert slot) s =
      .next (if 2 ≤ (Epi.of t.opb 5).scMode ∨ 0x0F ≤ (Epi.of t.opb 5).out then s.finish slot St.cmdError Mx.epilogue
        else s.engineOpened slot []) := by
  have hout : (2 ≤ (Epi.of t.opb 5).scMode ∨ (Epi.of t.opb 5).out = 0x0F ∨ 0x10 ≤ (Epi.of t.opb 5).out) ↔
      (2 ≤ (Epi.of t.opb 5).scMode ∨ 0x0F ≤ (Epi.of t.opb 5).out) := by omega
  change execConvert slot s = _
  unfold execConvert
  rw [hrun]
  dsimp only
  rw [if_pos (by simp [hopen]), if_neg (by simp [hfields]), apply_ite Host.Outcome.next]
  exact if_congr hout rfl rfl

theorem runs_convert_opens (hrun : runningCmd s slot 0x12 = some t) (hopen : t.work.opened = false)
    (hfields : convertFields t.opb true = true) (hscale : (Epi.of t.opb 5).scMode < 2) (hout : (Epi.of t.opb 5).out < 0x0F) :
    Runs (.convert slot) s fun t' =>
      (∃ u : Tracked, t'.cmd? slot = some u ∧ u.work.opened = true) ∧ t'.events = s.events ∧ Kept [] s t' ∧
      t' = { s with tracked := t'.tracked } := by
  obtain ⟨hc, -⟩ := runningCmd_eq_some hrun
  have hexec := exec_convert_unopened hrun hopen hfields
  rw [if_neg (by omega)] at hexec
  exact ⟨_, hexec, ⟨_, cmd?_engineOpened hc [], rfl⟩, rfl, kept_engineOpened .., rfl⟩

theorem runs_convert_refused (hrun : runningCmd s slot 0x12 = some t) (hopen : t.work.opened = false)
    (hfields : convertFields t.opb true = true) (hbad : 2 ≤ (Epi.of t.opb 5).scMode ∨ 0x0F ≤ (Epi.of t.opb 5).out)
    (hcompl : t.compl = .none) : Runs (.convert slot) s fun t' => Reached slot 4 0x104 t' := by
  obtain ⟨hc, hphase, -⟩ := runningCmd_eq_some hrun
  have hexec := exec_convert_unopened hrun hopen hfields
  rw [if_pos hbad] at hexec
  exact ⟨_, hexec, reached_finish hc hphase (by simp [hcompl]) 4 0x104⟩

/-- Settles O11: an unopened command ends with the detail of its first failing check, and else loads what its epilogue reads. -/
theorem matrixCommandsOpen : Obligations.MatrixCommandsOpen := by
  unfold Obligations.MatrixCommandsOpen
  refine ⟨?_, fun slot s t d hrun hopen hcheck _ => runs_gemm_refused hrun hopen hcheck,
    fun slot s t d hrun hopen hcheck _ => runs_accreduce_refused hrun hopen hcheck,
    fun slot s t => runs_convert_opens, fun slot s t hrun hopen hfields hbad _ => runs_convert_refused hrun hopen hfields hbad⟩
  intro slot s t c hrun hopen hcheck hcfg hlora hownB hbadB hownS hbadS hflag hclearB hclearS
  refine runs_gemm_opens hrun hopen hcheck hcfg hlora hflag fun r hr => ?_
  rcases List.mem_pair.mp hr with rfl | rfl
  · exact ⟨hownB, hbadB, hclearB⟩
  · exact ⟨hownS, hbadS, hclearS⟩

end Sys2Proof.Machine
end

section
/-! PROOFS. Output tiles of the engines: what taking an operand tile and forming a tile of rows make of a command (R45, R49, R172). -/

namespace Sys2Proof.Machine

open Sys2Proof

/-! ### The tile -/

/-- Compression changes the ZC bit and the payload alone (R266). -/
theorem zcTile_eq (asked : Bool) (x : Tile) :
    zcTile asked x = { x with zc := (zcTile asked x).zc, payload := (zcTile asked x).payload } := by
  unfold zcTile
  dsimp only
  split
  · split <;> rfl
  · rfl

@[simp] theorem outTile_last (e : Epi) (rows : List OutRow) (last : Bool) : (outTile e rows last).last = last := by
  unfold outTile
  rw [zcTile_eq]
  rfl

@[simp] theorem outTile_format (e : Epi) (rows : List OutRow) (last : Bool) : (outTile e rows last).format = e.out := by
  unfold outTile
  rw [zcTile_eq]
  rfl

@[simp] theorem outTile_rowsM1 (e : Epi) (rows : List OutRow) (last : Bool) : (outTile e rows last).rowsM1 = rows.length - 1 := by
  unfold outTile
  rw [zcTile_eq]
  rfl

/-- Without compression the payload is the rows' bytes. -/
theorem outTile_payload {e : Epi} (hzc : e.zc = false) (rows : List OutRow) (last : Bool) :
    (outTile e rows last).payload = rows.flatMap OutRow.bytes := by
  unfold outTile zcTile
  dsimp only
  rw [if_neg (by simp [hzc])]
  rfl

/-! ### Forming -/

/-- The command with its work at the next position, and what its rows reported. -/
def Tracked.gathered (c : Tracked) (pos flags sat : Nat) : Tracked :=
  { c with work := { c.work with pos := pos, flags := c.work.flags ||| flags, sat := c.work.sat + sat } }

/-- A tile of rows formed on output 0, and the work moved on. -/
def State.formRows (s : State) (slot pos : Nat) (e : Epi) (rows : List OutRow) (last : Bool) : State :=
  (s.gather slot pos (joinRows rows).flags (joinRows rows).sat).formTile slot 0 (outTile e rows last)

variable {slot : Nat} {s : State} {c : Tracked} {o : OutBind}

section
variable (hc : s.cmd? slot = some c) (ho : c.outs[0]? = some o) (hst : c.status = none) (hformed : o.formed < 2 ^ 32 - 1)
include hc ho hst hformed

theorem formRows_eq (pos : Nat) (e : Epi) (rows : List OutRow) (last : Bool) :
    s.formRows slot pos e rows last = (s.gather slot pos (joinRows rows).flags (joinRows rows).sat).updCmd slot fun u =>
      u.withTile 0 (stampTile c o (outTile e rows last)) := by
  have hgathered : (s.gather slot pos (joinRows rows).flags (joinRows rows).sat).cmd? slot =
      some (c.gathered pos (joinRows rows).flags (joinRows rows).sat) := cmd?_updCmd_self hc
  exact formTile_eq hgathered ho hst hformed _

theorem cmd?_formRows (pos : Nat) (e : Epi) (rows : List OutRow) (last : Bool) :
    (s.formRows slot pos e rows last).cmd? slot = some ((c.gathered pos (joinRows rows).flags (joinRows rows).sat).withTile 0
      (stampTile c o (outTile e rows last))) := by
  rw [formRows_eq hc ho hst hformed]
  exact cmd?_updCmd_self (c := c.gathered pos _ _) (cmd?_updCmd_self hc)

/-- Nothing changes but commands. -/
theorem formRows_frame (pos : Nat) (e : Epi) (rows : List OutRow) (last : Bool) :
    (s.formRows slot pos e rows last).events = s.events ∧ Kept [] s (s.formRows slot pos e rows last) ∧
      s.formRows slot pos e rows last = { s with tracked := (s.formRows slot pos e rows last).tracked } := by
  rw [formRows_eq hc ho hst hformed]
  exact ⟨rfl, kept_of_regs rfl rfl rfl rfl _, rfl⟩

/-- A running command that forms a tile stays on its unit. -/
theorem settle_formRows (hphase : c.phase = .running) (pos : Nat) (e : Epi) (rows : List OutRow) (last : Bool) :
    (s.formRows slot pos e rows last).settle slot = s.formRows slot pos e rows last := by
  refine checkDrain_eq_self (cmd?_formRows hc ho hst hformed pos e rows last) ?_
  change c.phase ≠ .draining
  simp [hphase]

/-- What is known of a tile formed of rows, for a command that stands where `t` began its step. -/
theorem formsTile_formRows {t : Tracked} (hdesc : c.desc = t.desc) (e : Epi) (rows : List OutRow) (last : Bool) {P : Tile → Prop}
    (hP : P (stampTile c o (outTile e rows last))) :
    FormsTile slot t o (s.formRows slot (t.work.pos + 1) e rows last) P := by
  refine ⟨_, _, stampTile c o (outTile e rows last), cmd?_formRows hc ho hst hformed .., rfl, outs_withTile ho _, rfl, rfl, rfl, rfl, ?_,
    hP⟩
  rw [← hdesc]
  rfl

/-- A running command that ends with the tile it forms keeps it until its credits come. -/
theorem reach_formRows (hphase : c.phase = .running) (pos : Nat) (e : Epi) (rows : List OutRow) (last : Bool) :
    ∃ u p, ((s.formRows slot pos e rows last).reach slot St.done Det.none).cmd? slot = some u ∧ u.status = some (0, 0) ∧
      u.outs[0]? = some p ∧ p.formed = o.formed + 1 ∧ p.queue = o.queue ++ [stampTile c o (outTile e rows last)] := by
  have hp := outs_withTile (c := c.gathered pos (joinRows rows).flags (joinRows rows).sat) ho (stampTile c o (outTile e rows last))
  have hqueue : ((c.gathered pos (joinRows rows).flags (joinRows rows).sat).withTile 0
      (stampTile c o (outTile e rows last))).outs.all (fun p => p.queue.isEmpty) = false :=
    List.all_eq_false.mpr ⟨_, List.mem_of_getElem? hp, by simp⟩
  obtain ⟨u, hu, hstatus, houts⟩ := cmd?_finish_of_queue (cmd?_formRows hc ho hst hformed pos e rows last) hphase
    (status := St.done) (detail := Det.none) rfl hqueue
  exact ⟨u, _, hu, hstatus, by rw [houts, hp], rfl, rfl⟩

end

/-! ### Taking -/

/-- Slots of an input released up to a count, and no more of the command changed. -/
theorem cmd?_releaseTo_eq {inp : Nat} {b : InBind} (hc : s.cmd? slot = some c) (hb : c.ins[inp]? = some b) (n : Nat) :
    ∃ l, (s.releaseTo slot inp n).cmd? slot = some { c with ins := l } ∧
      l[inp]? = some { b with released := max b.released (min n b.taken.length) } := by
  unfold State.releaseTo
  rw [hc]
  dsimp only
  rw [hb]
  dsimp only
  split
  · next hle => exact ⟨c.ins, hc, by rw [hb, max_eq_left hle]⟩
  · next hlt =>
    refine ⟨_, cmd?_updCmd_self hc, ?_⟩
    refine (getElem?_mapIdx_at c.ins inp fun b' => { b' with released := min n b.taken.length }).trans ?_
    rw [hb, max_eq_right (by omega)]
    rfl

/-- A waiting tile taken, and slots of its input released up to a count. -/
def State.takeReleased (s : State) (slot inp n : Nat) : State := (s.takeTile slot inp).releaseTo slot inp n

variable {inp : Nat} {b : InBind} {x : Tile} {r : List Tile}

/-- The command then has the tile among those taken, and keeps its work and its outputs. -/
theorem cmd?_takeReleased (hc : s.cmd? slot = some c) (hb : c.ins[inp]? = some b) (hw : b.window = x :: r) (n : Nat) :
    ∃ u, (s.takeReleased slot inp n).cmd? slot = some u ∧
      u.ins[inp]? = some { b with window := r, taken := b.taken ++ [x], released := max b.released (min n (b.taken.length + 1)) } ∧
      u.work = c.work ∧ u.outs = c.outs ∧ u.desc = c.desc ∧ u.status = c.status ∧ u.phase = c.phase := by
  obtain ⟨l, hu, hins⟩ := cmd?_releaseTo_eq (cmd?_takeTile hc inp) (ins_took hb hw s.tb.n) n
  rw [List.length_append] at hins
  exact ⟨_, hu, hins, rfl, rfl, rfl, rfl, rfl⟩

/-- Nothing else changes but commands and credits. -/
theorem takeReleased_frame (s : State) (slot inp n : Nat) :
    (s.takeReleased slot inp n).events = s.events ∧ Kept [] s (s.takeReleased slot inp n) := by
  unfold State.takeReleased
  rw [releaseTo_eq]
  exact ⟨rfl, kept_of_regs rfl rfl rfl rfl _⟩

end Sys2Proof.Machine
end

section
/-! PROOFS. The output tile of a GEMM (R151, R172): O12. -/

namespace Sys2Proof.Machine

open Sys2Proof

/-- A row without adapter and without ACC_IN is the row of dot products, through the epilogue. -/
theorem gemmRow_bytes {c : GemmCfg} (hacc : c.acc = false) (bias scale : List Byte) (acc : List Tile) (mb r c0 : Nat) (arow : OpRow)
    (brows : List OpRow) : (gemmRow c bias scale acc mb r c0 arow brows none).bytes =
      (c.e.row c.pr bias scale c0 (brows.map fun b => (c.pr.dot Lane.zero arow b).1)).bytes := by
  have hstart : ∀ col, gemmStart c acc mb r col = Lane.zero := fun col => if_neg (by simp [hacc])
  have hlanes : (brows.mapIdx fun i b => c.pr.dot (gemmStart c acc mb r (c0 + i)) arow b).map Prod.fst =
      brows.map fun b => (c.pr.dot Lane.zero arow b).1 :=
    List.ext_getElem? fun i => by simp [hstart, Function.comp_def]
  unfold gemmRow
  dsimp only
  rw [hlanes]

/-- The rows of output tile `j` of M-block `mb`, without adapters. -/
def gemmTileRows (t : Tracked) (c : GemmCfg) (xs ws acc : List Tile) (sl mb j : Nat) : List OutRow :=
  let w := outWidth c.e.out
  (List.range (min 128 (c.m - 128 * mb))).map fun r =>
    gemmRow c (t.loaded[0]?.getD []) (t.loaded[1]?.getD []) acc mb r (j * w) (operandRow c.pr.a c.k xs sl mb r)
      (((List.range (min w (c.n - j * w))).map (j * w + ·)).map fun n => operandRow c.pr.b c.k ws sl (n / 128) (n % 128)) none

/-- An output tile that is not the last leaves the command on its unit. -/
theorem gemmForm_eq {t : Tracked} {c : GemmCfg} (hlora : c.lora = 0) (hstat : c.stat = false)
    (hmore : t.work.pos + 1 < ceilDiv c.n (outWidth c.e.out) * ceilDiv c.m 128) (s : State) (slot : Nat) (xs ws acc : List Tile)
    (sl : Nat) : s.gemmForm slot t c xs ws acc sl =
      (s.formRows slot (t.work.pos + 1) c.e (gemmTileRows t c xs ws acc sl (t.work.pos / ceilDiv c.n (outWidth c.e.out))
        (t.work.pos % ceilDiv c.n (outWidth c.e.out))) false).settle slot := by
  have hlast : (t.work.pos + 1 == ceilDiv c.n (outWidth c.e.out) * ceilDiv c.m 128) = false := by simpa using hmore.ne
  have hplace : gemmPlace c (outWidth c.e.out) t.work.pos =
      (t.work.pos / ceilDiv c.n (outWidth c.e.out), t.work.pos % ceilDiv c.n (outWidth c.e.out)) := if_neg (by simp [hstat])
  unfold State.gemmForm
  dsimp only
  rw [hplace, hlast]
  dsimp only
  rw [if_neg (by simp [hlora]), if_neg hmore.ne]
  simp only [hlora]
  rfl

/-- A GEMM whose resident operand is complete and whose streamed tiles are taken forms its next output tile. -/
theorem exec_gemm_forms {slot sl : Nat} {s : State} {t : Tracked} {c : GemmCfg} {rb sb : InBind}
    (hrun : runningCmd s slot 0x10 = some t) (hopen : t.work.opened = true) (hcfg : gemmCfg t.opb = some c) (hstat : c.stat = false)
    (hacc : c.acc = false) (hrb : t.ins[1]? = some rb) (hsb : t.ins[0]? = some sb) (hgood : gemmBadTile t c = none)
    (hsl : slicesOf c.k (sliceSizes c.k rb.taken) = some sl) (hres : rb.taken.length = ceilDiv c.n 128 * sl)
    (hstr : sl * (t.work.pos / ceilDiv c.n (outWidth c.e.out) + 1) ≤ sb.taken.length) (hroom : roomFor s t = true) :
    exec (.gemm slot) s =
      .next (s.gemmForm slot t c sb.taken rb.taken (((t.ins[2]?).map fun b => b.taken).getD []) sl) := by
  have hstep : s.gemmStep slot t c = s.gemmForm slot t c sb.taken rb.taken (((t.ins[2]?).map fun b => b.taken).getD []) sl := by
    unfold State.gemmStep gemmPlace
    simp only [hstat, hacc, hrb, hsb, hsl, Bool.false_eq_true, if_false]
    rw [if_neg (by omega), if_pos ⟨hstr, by simp⟩, if_pos hroom]
  rw [← hstep]
  change execGemm slot s = _
  unfold execGemm
  rw [hrun]
  dsimp only
  rw [if_neg (by simp [hopen]), hcfg]
  dsimp only
  rw [hgood]
  rfl

/-- The payload of an output tile of a GEMM without adapters and ACC_IN. -/
theorem flatMap_bytes_gemmTileRows {c : GemmCfg} (hacc : c.acc = false) (t : Tracked) (xs ws acc : List Tile) (sl mb j : Nat) :
    (gemmTileRows t c xs ws acc sl mb j).flatMap OutRow.bytes =
      (List.range (min 128 (c.m - 128 * mb))).flatMap fun r =>
        (c.e.row c.pr (t.loaded[0]?.getD []) (t.loaded[1]?.getD []) (j * outWidth c.e.out)
          (((List.range (min (outWidth c.e.out) (c.n - j * outWidth c.e.out))).map (j * outWidth c.e.out + ·)).map fun n =>
            (c.pr.dot Lane.zero (operandRow c.pr.a c.k xs sl mb r)
              (operandRow c.pr.b c.k ws sl (n / 128) (n % 128))).1)).bytes := by
  unfold gemmTileRows
  rw [List.flatMap_map]
  simp only [gemmRow_bytes hacc, List.map_map]
  rfl

/-- Settles O12: the step forms the tile of the rows at its place. -/
theorem gemmFormsATile : Obligations.GemmFormsATile := by
  unfold Obligations.GemmFormsATile
  intro slot sl s t c rb sb o hrun hopen hcfg hlora hstat hacc hrb hsb hgood hsl hres hstr hroom ho hformed hmore
  obtain ⟨hc, hphase, -, hst, -⟩ := runningCmd_eq_some hrun
  have hexec := exec_gemm_forms hrun hopen hcfg hstat hacc hrb hsb hgood hsl hres hstr hroom
  rw [gemmForm_eq hlora hstat hmore, settle_formRows hc ho hst hformed hphase] at hexec
  refine ⟨_, hexec, formsTile_formRows hc ho hst hformed rfl c.e _ false ?_, formRows_frame hc ho hst hformed ..⟩
  refine ⟨outTile_last .., outTile_format .., (outTile_rowsM1 ..).trans (by simp [gemmTileRows]), fun hzc => ?_⟩
  exact (outTile_payload hzc _ _).trans (flatMap_bytes_gemmTileRows hacc ..)

end Sys2Proof.Machine
end

section
/-! PROOFS. ACCREDUCE takes partial tiles and forms their sums (R148, R179, R943): O13. -/

namespace Sys2Proof.Machine

open Sys2Proof

variable {slot : Nat} {s : State} {t : Tracked} {c : GemmCfg} {a b : InBind}

theorem exec_accreduce_opened (hrun : runningCmd s slot 0x11 = some t) (hopen : t.work.opened = true) (hcfg : gemmCfg t.opb = some c)
    (hgood : reduceBadTile t c = false) : exec (.accreduce slot) s = .next (s.reduceStep slot t c) := by
  change execAccreduce slot s = _
  unfold execAccreduce
  rw [hrun]
  dsimp only
  rw [if_neg (by simp [hopen]), hcfg]
  dsimp only
  rw [hgood]
  rfl

/-- With no tile of either input taken, the tile that waits on IN0 is taken. -/
theorem reduceStep_takes (ha : t.ins[0]? = some a) (hb : t.ins[1]? = some b) (hataken : a.taken = []) (hbtaken : b.taken = [])
    {x : Tile} {r : List Tile} (hw : a.window = x :: r) (hna : 0 < ceilDiv c.n c.pr.laneWidth) : s.reduceStep slot t c =
      (s.count t.station 3 (ceilDiv (tileRows x * tileRowBytes x) 256) t).takeReleased slot 0 1 := by
  have hpart : ¬ (t.work.pos / ceilDiv c.n (outWidth c.e.out) + 1) * ceilDiv c.n c.pr.laneWidth ≤ 0 :=
    Nat.not_le.mpr (Nat.mul_pos (Nat.succ_pos _) hna)
  unfold State.reduceStep
  rw [ha, hb]
  dsimp only
  rw [hataken, hbtaken, if_neg fun h => hpart h.1]
  simp [hw, State.takeReleased, hataken]

theorem runs_accreduce_takes (hrun : runningCmd s slot 0x11 = some t) (hopen : t.work.opened = true) (hcfg : gemmCfg t.opb = some c)
    (hgood : reduceBadTile t c = false) (ha : t.ins[0]? = some a) (hb : t.ins[1]? = some b) (hataken : a.taken = [])
    (hbtaken : b.taken = []) {x : Tile} {r : List Tile} (hw : a.window = x :: r) (hna : 0 < ceilDiv c.n c.pr.laneWidth) :
    Runs (.accreduce slot) s fun t' =>
      (∃ (u : Tracked) (a' : InBind), t'.cmd? slot = some u ∧ u.ins[0]? = some a' ∧ a'.taken = [x] ∧ a'.window = r ∧
        a'.released = max 1 a.released) ∧
      t'.events = s.events ∧ Kept (dbgRegs t.station) s t' := by
  obtain ⟨hc, -⟩ := runningCmd_eq_some hrun
  have hexec := exec_accreduce_opened hrun hopen hcfg hgood
  rw [reduceStep_takes ha hb hataken hbtaken hw hna] at hexec
  have hdbg := dbgOnly_count s t.station 3 (ceilDiv (tileRows x * tileRowBytes x) 256) t
  generalize s.count t.station 3 (ceilDiv (tileRows x * tileRowBytes x) 256) t = v at hdbg hexec
  obtain ⟨u, hu, hins, -⟩ := cmd?_takeReleased ((cmd?_congr hdbg.tracked slot).trans hc) ha hw 1
  obtain ⟨hevents, hkept⟩ := takeReleased_frame v slot 0 1
  refine ⟨_, hexec, ⟨u, _, hu, hins, by simp [hataken], rfl, ?_⟩, hevents.trans hdbg.events, hdbg.kept.trans (hkept.mono (by simp))⟩
  simp [hataken, max_comm]

/-- The rows of output tile `j` of M-block `mb`: as many as the M-block's first partial tile has. -/
def reduceTileRows (t : Tracked) (c : GemmCfg) (xs ys : List Tile) (x : Tile) (mb j : Nat) : List OutRow :=
  (List.range (tileRows x)).map fun r =>
    reduceRow c (t.loaded[0]?.getD []) (t.loaded[1]?.getD []) xs ys mb r (j * outWidth c.e.out)

/-- With a whole M-block of both inputs taken the next output tile is formed, and the last one of the last M-block ends the command. -/
theorem reduceStep_forms {na nj mb j : Nat} {x y : Tile} (ha : t.ins[0]? = some a) (hb : t.ins[1]? = some b)
    (hna : na = ceilDiv c.n c.pr.laneWidth) (hnj : nj = ceilDiv c.n (outWidth c.e.out)) (hmb : mb = t.work.pos / nj)
    (hj : j = t.work.pos % nj) (hat : (mb + 1) * na ≤ a.taken.length) (hbt : (mb + 1) * na ≤ b.taken.length)
    (hroom : roomFor s t = true) (hx : a.taken[mb * na]? = some x) (hy : a.taken[mb * na + na - 1]? = some y) {last : Bool}
    (hlast : (decide (j + 1 = nj) && y.last) = last) : s.reduceStep slot t c =
      if last then (s.formRows slot (t.work.pos + 1) c.e (reduceTileRows t c a.taken b.taken x mb j) last).reach slot St.done Det.none
      else (s.formRows slot (t.work.pos + 1) c.e (reduceTileRows t c a.taken b.taken x mb j) last).settle slot := by
  subst hlast hj hmb hnj hna
  unfold State.reduceStep
  rw [ha, hb]
  dsimp only
  rw [if_pos ⟨hat, hbt⟩, if_neg (by simp [hroom]), hx, hy]
  rfl

/-- Settles O13: the first tile is taken from IN0, and whole M-blocks form tiles of the rows of sums. -/
theorem accreduceTakesAndForms : Obligations.AccreduceTakesAndForms := by
  unfold Obligations.AccreduceTakesAndForms
  constructor
  · intro slot s t c a b x r hrun hopen hcfg ha hb hataken hbtaken hw _ hna hgood
    exact runs_accreduce_takes hrun hopen hcfg hgood ha hb hataken hbtaken hw hna
  · intro slot na nj mb j s t c a b o x y hrun hopen hcfg ha hb hgood hna hnj hmb hj hat hbt hroom hx hy ho hformed
    obtain ⟨hc, hphase, -, hst, -⟩ := runningCmd_eq_some hrun
    have hexec := exec_accreduce_opened hrun hopen hcfg hgood
    constructor
    · intro hmore
      have hlast : (decide (j + 1 = nj) && y.last) = false := by
        rcases hmore with h | h
        · simp [h.ne]
        · simp [h]
      rw [reduceStep_forms ha hb hna hnj hmb hj hat hbt hroom hx hy hlast, if_neg (by simp),
        settle_formRows hc ho hst hformed hphase] at hexec
      refine ⟨_, hexec, formsTile_formRows hc ho hst hformed rfl c.e _ false ?_, formRows_frame hc ho hst hformed ..⟩
      refine ⟨outTile_last .., outTile_format .., (outTile_rowsM1 ..).trans (by simp [reduceTileRows]), fun hzc => ?_⟩
      exact (outTile_payload hzc _ _).trans (List.flatMap_map ..)
    · intro hend hylast _
      have hlast : (decide (j + 1 = nj) && y.last) = true := by simp [hend, hylast]
      rw [reduceStep_forms ha hb hna hnj hmb hj hat hbt hroom hx hy hlast, if_pos rfl] at hexec
      obtain ⟨u, p, hu, hstatus, hp, hpformed, hpqueue⟩ := reach_formRows hc ho hst hformed hphase (t.work.pos + 1) c.e
        (reduceTileRows t c a.taken b.taken x mb j) true
      exact ⟨_, hexec, ⟨u, hu, hstatus⟩, u, p, _, hu, hp, hpformed, hpqueue, outTile_last .., outTile_format ..⟩

end Sys2Proof.Machine
end

section
/-! PROOFS. CONVERT (R180): O14. -/

namespace Sys2Proof.Machine

open Sys2Proof

/-- One element scaled by SCALE_MODE 1, with its flags. -/
def convertScaled (e : Epi) (v : Nat × Nat) : Nat × Nat :=
  if e.scMode = 1 then let (y, f) := f32Mul v.1 e.scale; (y, v.2 ||| (f &&& fOf)) else v

/-- The output rows of a tile that a CONVERT takes. -/
def convertRows (opb : List Byte) (x : Tile) : List OutRow :=
  (List.range (tileRows x)).map fun j =>
    let vs := (convertIn opb x.format (rowOf x j)).map (convertScaled (Epi.of opb 5))
    let o := rowOut (Epi.of opb 5).out (vs.map Prod.fst)
    { o with flags := o.flags ||| orFlags vs }

theorem flatMap_bytes_convertRows (opb : List Byte) (x : Tile) : (convertRows opb x).flatMap OutRow.bytes =
    (List.range (tileRows x)).flatMap fun j =>
      (rowOut (Epi.of opb 5).out (((convertIn opb x.format (rowOf x j)).map Prod.fst).map fun v =>
        if (Epi.of opb 5).scMode = 1 then (f32Mul v (Epi.of opb 5).scale).1 else v)).bytes := by
  have hscaled : ∀ v, (convertScaled (Epi.of opb 5) v).1 =
      if (Epi.of opb 5).scMode = 1 then (f32Mul v.1 (Epi.of opb 5).scale).1 else v.1 := by
    intro v
    unfold convertScaled
    split <;> rfl
  unfold convertRows
  rw [List.flatMap_map]
  simp only [List.map_map, Function.comp_def, hscaled]

variable {slot : Nat} {s : State} {t : Tracked} {b : InBind} {x : Tile} {r : List Tile}

/-- A waiting tile that passes the checks, and is not the last, is taken and its output tile formed. -/
theorem exec_convert_forms (hrun : runningCmd s slot 0x12 = some t) (hopen : t.work.opened = true) (hb : t.ins[0]? = some b)
    (hw : b.window = x :: r) (hroom : roomFor s t = true) (hgood : ∀ y ∈ b.window, convertTileBad t.opb y = none)
    (hlast : x.last = false) : exec (.convert slot) s =
      .next ((((s.count t.station 3 (ceilDiv (tileRows x * tileRowBytes x) 256) t).takeReleased slot 0 (t.work.pos + 1)).formRows slot
        (t.work.pos + 1) (Epi.of t.opb 5) (convertRows t.opb x) false).settle slot) := by
  have hhead : ((t.ins[0]?).bind fun b => b.window.head?) = some x := by simp [hb, hw]
  have hfind : ((t.ins[0]?).bind fun b => b.window.findSome? (convertTileBad t.opb)) = none := by
    rw [hb]
    exact List.findSome?_eq_none_iff.mpr hgood
  change execConvert slot s = _
  unfold execConvert
  rw [hrun]
  dsimp only
  rw [if_neg (by simp [hopen]), hhead]
  dsimp only
  rw [hfind]
  dsimp only
  rw [if_neg (by simp [hroom]), hlast]
  rfl

/-- Settles O14: the tile is counted and taken, and then its rows are formed. -/
theorem convertFormsATile : Obligations.ConvertFormsATile := by
  unfold Obligations.ConvertFormsATile
  intro slot s t b o x r hrun hopen hb hw hroom hgood ho hformed hlast
  obtain ⟨hc, hphase, -, hst, -⟩ := runningCmd_eq_some hrun
  have hexec := exec_convert_forms hrun hopen hb hw hroom hgood hlast
  have hdbg := dbgOnly_count s t.station 3 (ceilDiv (tileRows x * tileRowBytes x) 256) t
  generalize s.count t.station 3 (ceilDiv (tileRows x * tileRowBytes x) 256) t = v at hdbg hexec
  obtain ⟨u, hu, hins, -, houts, hdesc, hst', hphase'⟩ :=
    cmd?_takeReleased ((cmd?_congr hdbg.tracked slot).trans hc) hb hw (t.work.pos + 1)
  obtain ⟨htakeEvents, htakeKept⟩ := takeReleased_frame v slot 0 (t.work.pos + 1)
  generalize v.takeReleased slot 0 (t.work.pos + 1) = w at hu htakeEvents htakeKept hexec
  have ho' : u.outs[0]? = some o := by rw [houts, ho]
  rw [settle_formRows hu ho' (hst'.trans hst) hformed (hphase'.trans hphase)] at hexec
  obtain ⟨hevents, hkept, -⟩ :=
    formRows_frame hu ho' (hst'.trans hst) hformed (t.work.pos + 1) (Epi.of t.opb 5) (convertRows t.opb x) false
  have hend := cmd?_formRows hu ho' (hst'.trans hst) hformed (t.work.pos + 1) (Epi.of t.opb 5) (convertRows t.opb x) false
  refine ⟨_, hexec, formsTile_formRows hu ho' (hst'.trans hst) hformed hdesc _ _ false ?_, ⟨_, _, hend, hins, rfl, rfl⟩,
    hevents.trans (htakeEvents.trans hdbg.events), hdbg.kept.trans ((htakeKept.trans hkept).mono (by simp))⟩
  refine ⟨outTile_last .., outTile_format .., (outTile_rowsM1 ..).trans (by simp [convertRows, tileRows]), fun hzc => ?_⟩
  exact (outTile_payload hzc _ _).trans (flatMap_bytes_convertRows ..)

end Sys2Proof.Machine
end

section
/-! PROOFS. The registers of a vector unit (R188 to R192): what a read returns after a write to the same and to another register, and what
a write leaves unchanged. -/

namespace Sys2Proof.Machine

open Sys2Proof

section
variable (u : FacetUnit)

/-! ### Scalar registers -/

theorem sget_sset (d i : BitVec 5) (x : W32) : (u.sset d x).sget i = if i = d ∧ d ≠ 0 then x else u.sget i := by
  unfold FacetUnit.sset FacetUnit.sget
  by_cases hd : d = 0
  · simp only [hd, if_true, ne_eq, not_true_eq_false, and_false, if_false]
  · rw [if_neg hd]
    by_cases hi : i = d
    · rw [hi, if_neg hd, if_pos ⟨rfl, hd⟩]; exact tgetD_tset_self ..
    · have hne : d.toNat ≠ i.toNat := fun h => hi (BitVec.eq_of_toNat_eq h.symm)
      simp only [tgetD_tset_ne u.s x 0 hne, hi, false_and, if_false]

theorem sset_frame (d : BitVec 5) (x : W32) : u.sset d x = { u with s := (u.sset d x).s } := by
  unfold FacetUnit.sset; split <;> rfl

@[simp] theorem sset_v (d : BitVec 5) (x : W32) : (u.sset d x).v = u.v := by rw [sset_frame]
@[simp] theorem sset_p (d : BitVec 5) (x : W32) : (u.sset d x).p = u.p := by rw [sset_frame]
@[simp] theorem sset_pc (d : BitVec 5) (x : W32) : (u.sset d x).pc = u.pc := by rw [sset_frame]
@[simp] theorem sset_loops (d : BitVec 5) (x : W32) : (u.sset d x).loops = u.loops := by rw [sset_frame]
@[simp] theorem sset_retired (d : BitVec 5) (x : W32) : (u.sset d x).retired = u.retired := by rw [sset_frame]

/-! ### Vector registers -/

theorem vget_vset_self (d : BitVec 5) (m : List Bool) (xs : List W32) : (u.vset d m xs).vget d =
    laneIdx.map fun k => if m.getD k false then xs.getD k 0 else (u.vget d).getD k 0 := by
  simp only [FacetUnit.vset, FacetUnit.vget, tgetD_tset_self]

theorem vget_vset_ne {d i : BitVec 5} (h : i ≠ d) (m : List Bool) (xs : List W32) : (u.vset d m xs).vget i = u.vget i := by
  have hne : d.toNat ≠ i.toNat := fun e => h (BitVec.eq_of_toNat_eq e.symm)
  simp only [FacetUnit.vset, FacetUnit.vget]
  exact tgetD_tset_ne _ _ _ hne

theorem getD_vget_vset {k : Nat} (hk : k < 256) (d : BitVec 5) (m : List Bool) (xs : List W32) :
    ((u.vset d m xs).vget d).getD k 0 = if m.getD k false then xs.getD k 0 else (u.vget d).getD k 0 := by
  rw [vget_vset_self, List.getD_eq_getElem?_getD, List.getElem?_map, List.getElem?_range hk]
  rfl

/-! ### Predicate registers -/

theorem pget_pset_self {d : Nat} (hd : d % 8 ≠ 0) (m xs : List Bool) : (u.pset d m xs).pget d =
    laneIdx.map fun k => if m.getD k false then xs.getD k false else (u.pget d).getD k false := by
  simp only [FacetUnit.pset, FacetUnit.pget, if_neg hd, tgetD_tset_self]

theorem pget_pset_ne {d i : Nat} (h : i % 8 ≠ d % 8 ∨ i % 8 = 0) (m xs : List Bool) : (u.pset d m xs).pget i = u.pget i := by
  unfold FacetUnit.pset
  split
  · rfl
  · next hd =>
    unfold FacetUnit.pget
    split
    · rfl
    · next hi => exact tgetD_tset_ne _ _ _ fun e => (h.resolve_right hi) e.symm

theorem pget_congr {d i : Nat} (h : i % 8 = d % 8) : u.pget i = u.pget d := by simp only [FacetUnit.pget, h]

theorem getD_pget_pset {d k : Nat} (hd : d % 8 ≠ 0) (hk : k < 256) (m xs : List Bool) :
    ((u.pset d m xs).pget d).getD k false = if m.getD k false then xs.getD k false else (u.pget d).getD k false := by
  rw [pget_pset_self u hd, List.getD_eq_getElem?_getD, List.getElem?_map, List.getElem?_range hk]
  rfl

theorem pset_frame (d : Nat) (m xs : List Bool) : u.pset d m xs = { u with p := (u.pset d m xs).p } := by
  unfold FacetUnit.pset; split <;> rfl

@[simp] theorem pset_pc (d : Nat) (m xs : List Bool) : (u.pset d m xs).pc = u.pc := by rw [pset_frame]
@[simp] theorem pset_loops (d : Nat) (m xs : List Bool) : (u.pset d m xs).loops = u.loops := by rw [pset_frame]
@[simp] theorem pset_retired (d : Nat) (m xs : List Bool) : (u.pset d m xs).retired = u.retired := by rw [pset_frame]
@[simp] theorem pset_v (d : Nat) (m xs : List Bool) : (u.pset d m xs).v = u.v := by rw [pset_frame]
end

/-! ### The number of lanes -/

section
variable {u : FacetUnit}

theorem lanesOk_congr {w : FacetUnit} (hv : w.v = u.v) (hp : w.p = u.p) (h : LanesOk u) : LanesOk w := by
  unfold LanesOk FacetUnit.vget FacetUnit.pget at *
  rw [hv, hp]; exact h

theorem lanesOk_sset (d : BitVec 5) (x : W32) (h : LanesOk u) : LanesOk (u.sset d x) := lanesOk_congr (by simp) (by simp) h

theorem lanesOk_vset (d : BitVec 5) (m : List Bool) (xs : List W32) (h : LanesOk u) : LanesOk (u.vset d m xs) := by
  intro i
  refine ⟨?_, (h i).2⟩
  by_cases hi : i = d
  · subst hi; simp [vget_vset_self]
  · rw [vget_vset_ne u hi]; exact (h i).1

theorem lanesOk_pset (d : Nat) (m xs : List Bool) (h : LanesOk u) : LanesOk (u.pset d m xs) := by
  intro i
  refine ⟨by simp only [FacetUnit.vget, pset_v]; exact (h i).1, ?_⟩
  by_cases hi : i.toNat % 8 ≠ d % 8 ∨ i.toNat % 8 = 0
  · rw [pget_pset_ne u hi]; exact (h i).2
  · obtain ⟨hd, h0⟩ := not_or.mp hi
    have hd : i.toNat % 8 = d % 8 := not_not.mp hd
    rw [pget_congr _ hd, pget_pset_self u (hd ▸ h0)]
    simp only [List.length_map, List.length_range]

theorem lanesOk_fresh (slot : Nat) (opb : List Byte) (kernel : List W64) (param : List Byte) (bank : Nat) :
    LanesOk (FacetUnit.fresh slot opb kernel param bank) := by
  intro i
  simp only [FacetUnit.vget, FacetUnit.pget, FacetUnit.fresh, tgetD, tget_nil, Option.getD_none, List.length_replicate, true_and,
    ite_self]
end

end Sys2Proof.Machine
end

section
/-! PROOFS. What every operation of the module keeps: the commands that wait, the serial number and the fabric, a breach once it is seen,
memory in its canonical form, and the lanes of the vector units. -/

namespace Sys2Proof.Machine

open Sys2Proof

/-- Every vector unit has 256 lanes in each of its registers. -/
def UnitsOk (s : State) : Prop := ∀ x ∈ s.facets, LanesOk x.2

/-- From `s` to `t` the module went on: what no operation changes is as it was, and the invariants that held hold. -/
structure Evolves (s t : State) : Prop where
  pending : t.pending = s.pending
  serial : t.serial = s.serial
  fabric : t.fabric = s.fabric
  tampered : s.tampered = true → t.tampered = true
  memInv : MemInv s → MemInv t
  unitsOk : UnitsOk s → UnitsOk t

/-- A list of cells out of a canonical one is canonical. -/
theorem wf_sublist {l m : List Host.Cell} (h : l.Sublist m) (hm : Memory.wf m = true) : Memory.wf l = true := by
  induction h with
  | slnil => exact hm
  | cons x _ ih => exact ih ((wf_cons _ _).mp hm).2.2
  | cons_cons x h ih =>
    obtain ⟨hx, hlt, hr⟩ := (wf_cons _ _).mp hm
    exact (wf_cons _ _).mpr ⟨hx, fun y hy => hlt y (h.subset hy), ih hr⟩

section
variable {r s t u : State}

theorem Evolves.refl : Evolves s s := ⟨rfl, rfl, rfl, id, id, id⟩

/-- Cells and units left out, and a change of other fields. -/
theorem Evolves.fewer
    (e : { t with pending := s.pending, serial := s.serial, fabric := s.fabric, tampered := s.tampered } = t)
    (h : Evolves r s) (hm : t.mem.Sublist s.mem) (hu : t.facets.Sublist s.facets) : Evolves r t where
  pending := by rw [← e]; exact h.pending
  serial := by rw [← e]; exact h.serial
  fabric := by rw [← e]; exact h.fabric
  tampered b := by rw [← e]; exact h.tampered b
  memInv m := wf_sublist hm (h.memInv m)
  unitsOk l x hx := h.unitsOk l x (hu.subset hx)

/-- A change of other fields alone. -/
theorem Evolves.same
    (e : { t with pending := s.pending, serial := s.serial, fabric := s.fabric, tampered := s.tampered, mem := s.mem,
                  facets := s.facets } = t) (h : Evolves r s) : Evolves r t := by
  have hm : t.mem = s.mem := by rw [← e]
  have hu : t.facets = s.facets := by rw [← e]
  exact .fewer (by rw [← e]) h (hm ▸ .refl _) (hu ▸ .refl _)

theorem Evolves.ite {p : Prop} {_ : Decidable p} (hs : Evolves r s) (ht : Evolves r t) : Evolves r (if p then s else t) := by
  split <;> assumption

/-- A further operation that is done or not. -/
theorem Evolves.when {p : Prop} {_ : Decidable p} (h : Evolves r s) (hf : Evolves r s → Evolves r t) : Evolves r (if p then t else s) :=
  .ite (hf h) h

theorem Evolves.whenNot {p : Prop} {_ : Decidable p} (h : Evolves r s) (hf : Evolves r s → Evolves r t) :
    Evolves r (if p then s else t) := .ite h (hf h)

/-- A state reached that several branches go on from. -/
theorem Evolves.use {P : Prop} (h : Evolves r s) (k : Evolves r s → P) : P := k h

theorem Evolves.foldl {α : Type} {f : State → α → State} {l : List α} (h : Evolves r s) (hf : ∀ u x, Evolves r u → Evolves r (f u x)) :
    Evolves r (l.foldl f s) := by
  induction l generalizing s with
  | nil => exact h
  | cons x xs ih => exact ih (hf s x h)

end

/-- The state of a pair, which an operation answers with other values, evolved from `r`. -/
structure Yields (r : State) {α : Type} (p : State × α) : Prop where
  mk ::
  fst : Evolves r p.1

section
variable {r : State} {α β : Type}

theorem Yields.ite {c : Prop} {_ : Decidable c} {p q : State × α} (hp : Yields r p) (hq : Yields r q) : Yields r (if c then p else q) := by
  split <;> assumption

theorem Yields.foldl {f : State × α → β → State × α} {p : State × α} {l : List β} (h : Yields r p)
    (hf : ∀ p x, Yields r p → Yields r (f p x)) : Yields r (l.foldl f p) := by
  induction l generalizing p with
  | nil => exact h
  | cons x xs ih => exact ih (hf p x h)
end

/-- A command's outcome, where it is a next state, evolved from `r`. -/
def Keeps (r : State) (o : Out) : Prop := ∀ t, o = .next t → Evolves r t

section
variable {r s : State}

theorem Keeps.ok (h : Evolves r s) : Keeps r (ok s) := fun _ e => by cases e; exact h

theorem Keeps.next (h : Evolves r s) : Keeps r (.next s) := fun _ e => by cases e; exact h

theorem Keeps.fault {f : Fault} : Keeps r (.fault f) := fun _ e => nomatch e

theorem Keeps.ite {p : Prop} {_ : Decidable p} {o o' : Out} (h : Keeps r o) (h' : Keeps r o') : Keeps r (if p then o else o') := by
  split <;> assumption
end

end Sys2Proof.Machine
end

section
/-! PROOFS. What each operation of the module keeps, one lemma for each in the order in which they call each other. -/

namespace Sys2Proof.Machine

open Sys2Proof

variable {r s t : State}

/-! ### The functions of Machine/Ops.lean -/

theorem Evolves.setReg {a v : Nat} (h : Evolves r s) : Evolves r (s.setReg a v) :=
  .same rfl h

theorem Evolves.fset {a : Nat} {f : Nat × Nat} {v : Nat} (h : Evolves r s) : Evolves r (s.fset a f v) :=
  h.setReg

theorem Evolves.bump {a : Nat} {f : Nat × Nat} {n : Nat} (h : Evolves r s) : Evolves r (s.bump a f n) :=
  h.fset

theorem Evolves.raiseTo {a : Nat} {f : Nat × Nat} {v : Nat} (h : Evolves r s) : Evolves r (s.raiseTo a f v) :=
  h.when (·.fset)

theorem Evolves.tickFree (h : Evolves r s) : Evolves r (s.tickFree) :=
  .same rfl h

theorem Evolves.answer {v : Nat} (h : Evolves r s) : Evolves r (s.answer v) :=
  .same rfl h

theorem Evolves.pokeRaw {a : Nat} {b : Byte} (h : Evolves r s) : Evolves r (s.pokeRaw a b) :=
  ⟨h.pending, h.serial, h.fabric, h.tampered, fun m => memInv_pokeRaw s a b (h.memInv m), h.unitsOk⟩

theorem Evolves.pokeAll {a : Nat} {bs : List Byte} (h : Evolves r s) : Evolves r (s.pokeAll a bs) := by
  induction bs generalizing s a with
  | nil => exact h
  | cons b bs ih => exact ih h.pokeRaw

theorem Evolves.markDirty {a : Nat} (h : Evolves r s) : Evolves r (s.markDirty a) :=
  h.when (.same rfl)

theorem Evolves.writeLine {a : Nat} {bs : List Byte} (h : Evolves r s) : Evolves r (s.writeLine a bs) :=
  Evolves.use h.markDirty fun h => .ite (.pokeAll (.when (.same rfl h) (.same rfl)))
      (h.whenNot (fun h => .ite (.ite (.pokeAll (.same rfl h)) (.pokeAll (.pokeAll (.same rfl h)))) h.pokeAll))

theorem Evolves.writeFuel {a : Nat} {bs : List Byte} {n : Nat} (h : Evolves r s) : Evolves r (s.writeFuel a bs n) := by
  induction n generalizing s a bs with
  | zero => exact h
  | succ n ih =>
    unfold State.writeFuel
    refine .ite h (ih ?_)
    split
    · exact h.writeLine
    · exact h

theorem Evolves.writeBytes {a : Nat} {bs : List Byte} (h : Evolves r s) : Evolves r (s.writeBytes a bs) :=
  h.writeFuel

theorem Evolves.storeFree {a : Nat} {bs : List Byte} (h : Evolves r s) : Evolves r (s.storeFree a bs) :=
  ⟨h.pending, h.serial, h.fabric, h.tampered, fun m => memInv_writeBytes s a bs (h.memInv m), h.unitsOk⟩

theorem Evolves.raiseP {src ty p payload : Nat} {slot : Option Nat} (h : Evolves r s) : Evolves r (s.raiseP src ty p payload slot) :=
  .same rfl h

theorem Evolves.raiseAt {src ty p payload ts : Nat} (h : Evolves r s) : Evolves r (s.raiseAt src ty p payload ts) :=
  .same rfl h

theorem Evolves.raiseM {src ty payload : Nat} (h : Evolves r s) : Evolves r (s.raiseM src ty payload) :=
  .same rfl h

theorem Evolves.pinReport {src cls bits : Nat} (h : Evolves r s) : Evolves r (s.pinReport src cls bits) :=
  .same rfl h

theorem Evolves.updCmd {slot : Nat} {f : Tracked → Tracked} (h : Evolves r s) : Evolves r (s.updCmd slot f) :=
  .same rfl h

theorem Evolves.count {st ev n : Nat} {c : Tracked} (h : Evolves r s) : Evolves r (s.count st ev n c) :=
  h.when (fun h => h.foldl (fun _ _ h => h.when (·.fset)))

theorem Evolves.gcount {ev idx n : Nat} {p : Option Nat} (h : Evolves r s) : Evolves r (s.gcount ev idx n p) :=
  h.whenNot (fun h => h.foldl (fun _ _ h => h.when (·.fset)))

theorem Evolves.linkFlits {links : List Nat} {n : Nat} {p : Option Nat} (h : Evolves r s) : Evolves r (s.linkFlits links n p) :=
  h.whenNot (fun h => h.foldl (fun _ _ h => h.when (·.fset)))

theorem Evolves.tracePut {st : Nat} {q : TraceRec} (h : Evolves r s) : Evolves r (s.tracePut st q) :=
  .ite (.bump (.same rfl h)) (.when (.same rfl h) (.same rfl))

theorem Evolves.trace {st ty data : Nat} {c : Tracked} (h : Evolves r s) : Evolves r (s.trace st ty data c) :=
  h.when (·.tracePut)

theorem Evolves.dozeWake {bit : Nat} (h : Evolves r s) : Evolves r (s.dozeWake bit) := by
  unfold State.dozeWake
  dsimp only
  split
  · exact .setReg (.same rfl h)
  · exact h.setReg
  · exact .fset (.fset (.setReg (.same rfl h)))
  · exact h

theorem Evolves.emit {e : Emit} (h : Evolves r s) : Evolves r (s.emit e) :=
  .same rfl h

theorem Evolves.countMaskWait {c : Tracked} (h : Evolves r s) : Evolves r (s.countMaskWait c) :=
  h.whenNot (·.bump.updCmd)

theorem Evolves.countMaskWaits (h : Evolves r s) : Evolves r (s.countMaskWaits) :=
  h.foldl (fun _ _ h => h.countMaskWait)

/-! ### The functions of Machine/MemOps.lean -/

theorem Evolves.storeBytes {a : Nat} {bs : List Byte} (h : Evolves r s) : Evolves r (s.storeBytes a bs) :=
  .writeBytes (h.foldl (fun _ _ h => h.setReg.pinReport))

theorem Evolves.logUncorrected {c : Nat} {part : Option Nat} (h : Evolves r s) : Evolves r (s.logUncorrected c part) :=
  .pinReport (h.setReg.bump.whenNot (·.setReg))

theorem Evolves.logCorrected {c : Nat} (h : Evolves r s) : Evolves r (s.logCorrected c) :=
  h.setReg.bump.pinReport

theorem Evolves.memFatal {c bit : Nat} (h : Evolves r s) : Evolves r (s.memFatal c bit) :=
  h.setReg.pinReport

theorem Evolves.markBad {c : Nat} (h : Evolves r s) : Evolves r (s.markBad c) :=
  h.whenNot (.same rfl)

theorem Evolves.observe {c : Nat} {obs : MemObs} (h : Evolves r s) : Yields r (s.observe c obs) := by
  unfold State.observe
  split
  · exact .mk h
  · split
    · exact .mk h
    · exact .mk h.logCorrected
    · exact .mk h.markBad
    · exact Evolves.use h.tickFree fun h => .ite (.mk h.markBad) (.ite (.mk h.logCorrected) (.mk h))
  · exact .mk (h.when (·.logCorrected))
  · exact .ite (.mk h.memFatal) (.mk h)
  · exact .ite (.mk h.memFatal) (.mk h)
  · exact .mk h.memFatal

theorem Evolves.storeMisread {c : Nat} (h : Evolves r s) : Evolves r (s.storeMisread c) :=
  h.writeBytes

/-! ### The functions of Machine/PageOps.lean -/

theorem Evolves.setEntry {n f : Nat} {e : PageEntry} (h : Evolves r s) : Evolves r (s.setEntry n f e) :=
  .same rfl h.storeBytes.fset.fset

theorem Evolves.updPage {hd : Nat} {f : PageEntry → PageEntry} (h : Evolves r s) : Evolves r (s.updPage hd f) :=
  h.setEntry

theorem Evolves.pinPage {hd : Nat} (h : Evolves r s) : Evolves r (s.pinPage hd) :=
  h.when (·.updPage)

theorem Evolves.unpinPage {hd : Nat} (h : Evolves r s) : Evolves r (s.unpinPage hd) :=
  h.when (·.updPage)

theorem Evolves.scorePage {hd score : Nat} (h : Evolves r s) : Evolves r (s.scorePage hd score) :=
  h.when (·.updPage)

theorem Evolves.unpinAll {c : Tracked} (h : Evolves r s) : Evolves r (s.unpinAll c) :=
  h.whenNot (fun h => .updCmd (h.foldl (fun _ _ h => h.unpinPage)))

/-! ### The functions of Machine/LoomOps.lean -/

theorem Evolves.latchLife {slot : Nat} (h : Evolves r s) : Evolves r (s.latchLife slot) := by
  unfold State.latchLife
  split
  · exact h
  · exact h.updCmd

theorem Evolves.openWindows {slot : Nat} (h : Evolves r s) : Evolves r (s.openWindows slot) :=
  .same rfl h

theorem Evolves.release {slot inp n : Nat} (h : Evolves r s) : Evolves r (s.release slot inp n) :=
  .same rfl h

theorem Evolves.sweep (h : Evolves r s) : Evolves r (s.sweep) :=
  .same rfl (.same rfl h)

theorem Evolves.startRun {slot : Nat} (h : Evolves r s) : Evolves r (s.startRun slot) := by
  unfold State.startRun
  dsimp only
  split
  · exact h.updCmd.openWindows.trace
  · exact h.updCmd.openWindows

theorem Evolves.promote {st unit : Nat} (h : Evolves r s) : Evolves r (s.promote st unit) := by
  unfold State.promote
  split
  · exact h
  · split
    · exact h.startRun
    · exact h

theorem Evolves.setChan {c : VChan} (h : Evolves r s) : Evolves r (s.setChan c) :=
  .same rfl h

theorem Evolves.passTicks {k : Nat} (h : Evolves r s) : Evolves r (s.passTicks k) :=
  .same rfl h

theorem Evolves.countMem {rd : Bool} {a n : Nat} {p : Option Nat} (h : Evolves r s) : Evolves r (s.countMem rd a n p) := by
  unfold State.countMem
  refine h.foldl (fun _ _ h => ?_)
  split
  · exact .ite h.gcount h.gcount
  · exact h

theorem Evolves.memLinks {rd : Bool} {st a n : Nat} {p : Option Nat} (h : Evolves r s) : Evolves r (s.memLinks rd st a n p) := by
  unfold State.memLinks
  refine h.foldl (fun _ _ h => ?_)
  split
  · exact h.whenNot (fun h => .ite h.linkFlits.linkFlits h.linkFlits)
  · exact h

theorem Evolves.memIn {c : Tracked} {a n : Nat} (h : Evolves r s) : Evolves r (s.memIn c a n) :=
  h.count.countMem.count.memLinks

theorem Evolves.kernelIn {c : Tracked} {a n : Nat} (h : Evolves r s) : Evolves r (s.kernelIn c a n) :=
  h.count.countMem.count.memLinks

theorem Evolves.memOut {c : Tracked} {a n : Nat} (h : Evolves r s) : Evolves r (s.memOut c a n) :=
  h.count.countMem.count.memLinks

theorem Evolves.tagDrop {st p n : Nat} (h : Evolves r s) : Evolves r (s.tagDrop st p n) :=
  .ite h.bump (.pinReport (.gcount (.bump (h.when (·.setReg)))))

theorem Evolves.storeOwned {c : Tracked} {a : Nat} {bs : List Byte} (h : Evolves r s) : Evolves r (s.storeOwned c a bs) :=
  .ite (.same rfl h) (.ite h.storeBytes.memOut h.tagDrop)

theorem Evolves.reportFlags {st flags sat : Nat} (h : Evolves r s) : Evolves r (s.reportFlags st flags sat) :=
  h.when (·.setReg.bump)

theorem Evolves.reportEnd {c : Tracked} (h : Evolves r s) : Evolves r (s.reportEnd c) := by
  unfold State.reportEnd
  refine .ite ?_ h
  dsimp only
  split
  · exact h.reportFlags
  · exact h.reportFlags.whenNot (·.storeOwned)

theorem Evolves.markGroup {part group : Nat} (h : Evolves r s) : Evolves r (s.markGroup part group) :=
  h.whenNot (fun h => .raiseP (.same rfl h))

theorem Evolves.applyCancel {d : Nat × Nat} (h : Evolves r s) : Evolves r (s.applyCancel d) := by
  unfold State.applyCancel
  dsimp only
  split
  · exact .same rfl h
  · exact .ite h (.markGroup (.same rfl h))

theorem Evolves.applyCancels (h : Evolves r s) : Evolves r (s.applyCancels) :=
  h.foldl (fun _ _ h => h.applyCancel)

theorem Evolves.raiseCompletion {c : Tracked} (h : Evolves r s) : Evolves r (s.raiseCompletion c) :=
  h.whenNot (fun h => h.updCmd.raiseP.when (·.applyCancels))

theorem Evolves.checkDrain {slot : Nat} (h : Evolves r s) : Evolves r (s.checkDrain slot) := by
  unfold State.checkDrain
  split
  · exact h
  · refine .ite (.sweep ?_) h
    split
    · exact .promote (.when (.when (.updCmd (h.when (·.reportEnd))) (.same rfl)) (·.raiseCompletion))
    · exact .when (.when (.updCmd (h.when (·.reportEnd))) (.same rfl)) (·.raiseCompletion)

theorem Evolves.checkDrains (h : Evolves r s) : Evolves r (s.checkDrains) :=
  h.foldl (fun _ _ h => h.checkDrain)

theorem Evolves.discardInputs {c : Tracked} (h : Evolves r s) : Evolves r (s.discardInputs c) :=
  .updCmd (h.foldl (fun _ _ h => h.release))

theorem Evolves.withdrawTask {slot : Nat} (h : Evolves r s) : Evolves r (s.withdrawTask slot) := by
  unfold State.withdrawTask
  split
  · exact h
  · exact .fset (.same rfl h)

theorem Evolves.finish {slot status detail : Nat} (h : Evolves r s) : Evolves r (s.finish slot status detail) := by
  unfold State.finish
  split
  · exact h
  · extract_lets stop wasOn s1 s2 freed s3 s4 s5 s6 s7
    have h2 : Evolves r s2 := h.updCmd.whenNot (·.openWindows)
    have hf : Evolves r freed := h2.withdrawTask.unpinAll
    have h3 : Evolves r s3 := ⟨hf.pending, hf.serial, hf.fabric, hf.tampered, hf.memInv,
      fun k x hx => h2.unitsOk k x (List.filter_sublist.subset hx)⟩
    have h5 : Evolves r s5 := h3.discardInputs.updCmd
    have h6 : Evolves r s6 := by
      unfold s6
      split
      · exact h5.whenNot (·.reportEnd.raiseCompletion)
      · exact h5
    have h7 : Evolves r s7 := by
      unfold s7
      split
      · exact h6.whenNot (·.updCmd.promote)
      · exact h6
    exact .ite h (.ite (h.whenNot (·.updCmd.checkDrain)) h7.checkDrain)

theorem Evolves.upstreamEnd {slot : Nat} (h : Evolves r s) : Evolves r (s.upstreamEnd slot) := by
  unfold State.upstreamEnd
  split
  · exact h
  · exact h.when (·.finish)

theorem Evolves.abortResult {part seq result : Nat} (h : Evolves r s) : Evolves r (s.abortResult part seq result) :=
  .setReg (.same rfl h)

theorem Evolves.settle {slot : Nat} (h : Evolves r s) : Evolves r (s.settle slot) :=
  h.checkDrain

theorem Evolves.reach {slot status detail : Nat} (h : Evolves r s) : Evolves r (s.reach slot status detail) :=
  h.finish

theorem Evolves.formTile {slot out : Nat} {x : Tile} (h : Evolves r s) : Evolves r (s.formTile slot out x) := by
  unfold State.formTile
  split
  · exact h
  · split
    · exact h
    · exact h.whenNot (fun h => .ite h.finish h.updCmd)

theorem Evolves.takeTile {slot inp : Nat} (h : Evolves r s) : Evolves r (s.takeTile slot inp) :=
  h.updCmd

theorem Evolves.releaseTo {slot inp n : Nat} (h : Evolves r s) : Evolves r (s.releaseTo slot inp n) := by
  unfold State.releaseTo
  split
  · exact h
  · split
    · exact h
    · exact h.whenNot (·.updCmd.release)

theorem Evolves.mapTo {l st : Nat} (h : Evolves r s) : Evolves r (s.mapTo l st) :=
  Evolves.use (.ite (.same rfl h) (.same rfl h)) fun h => .ite h.setReg h.setReg

theorem Evolves.remapFrom {st : Nat} (h : Evolves r s) : Evolves r (s.remapFrom st) := by
  unfold State.remapFrom
  refine h.foldl (fun _ _ h => ?_)
  split
  · exact h.mapTo
  · exact h

theorem Evolves.remapBack {st : Nat} (h : Evolves r s) : Evolves r (s.remapBack st) := by
  unfold State.remapBack
  refine h.mapTo.foldl (fun _ _ h => ?_)
  split
  · exact h.mapTo
  · exact h

theorem Evolves.rewindVenc {slot : Nat} (h : Evolves r s) : Evolves r (s.rewindVenc slot) := by
  unfold State.rewindVenc
  split
  · exact h
  · split
    · exact h
    · refine .ite h.updCmd ?_
      split
      · exact h
      · exact h.setChan.updCmd

theorem Evolves.rewind {hold : List Nat} {slot : Nat} (h : Evolves r s) : Evolves r (s.rewind hold slot) := by
  unfold State.rewind
  refine .bump (.withdrawTask (.fewer rfl (.updCmd (.rewindVenc ?_)) (.refl _) List.filter_sublist))
  split
  · exact h.unpinAll
  · exact h

theorem Evolves.contain {l : List Nat} (h : Evolves r s) : Evolves r (s.contain l) := by
  unfold State.contain
  refine h.foldl (fun _ _ h => ?_)
  split
  · exact h.whenNot (·.finish)
  · exact h

theorem Evolves.traceReplay {slot : Nat} (h : Evolves r s) : Evolves r (s.traceReplay slot) := by
  unfold State.traceReplay
  split
  · exact h.trace
  · exact h

theorem Evolves.moveAway {st : Nat} (h : Evolves r s) : Evolves r (s.moveAway st) := by
  unfold State.moveAway
  refine .ite h.remapFrom (.ite h.remapFrom.contain (.foldl (.foldl (.remapFrom (h.foldl (fun _ _ h => h.traceReplay)))
      (fun _ _ h => h.rewind)) (fun _ _ h => ?_)))
  split
  · exact h.when (·.finish)
  · exact h

theorem Evolves.fenceEngine {st : Nat} {test : Bool} (h : Evolves r s) : Evolves r (s.fenceEngine st test) :=
  .same rfl h.setReg.fset.moveAway

theorem Evolves.readFault {slot a n : Nat} (h : Evolves r s) : Evolves r (s.readFault slot a n) := by
  unfold State.readFault
  split
  · exact h
  · exact Evolves.use h.logUncorrected fun h => .ite h.contain.fenceEngine h.finish

theorem Evolves.readDropped {c : Tracked} {rows : List Nat} {len : Nat} (h : Evolves r s) : Evolves r (s.readDropped c rows len) :=
  h.whenNot (fun h => .updCmd (h.foldl (fun _ _ h => h.tagDrop)))

/-! ### The functions of Machine/EngineOps.lean -/

theorem Evolves.gather {slot pos flags sat : Nat} (h : Evolves r s) : Evolves r (s.gather slot pos flags sat) :=
  h.updCmd

theorem Evolves.openRanges {slot : Nat} {own load : List (Nat × Nat)} {f : State → List (List Byte) → State} (h : Evolves r s)
    (hf : ∀ u x, Evolves r u → Evolves r (f u x)) : Evolves r (s.openRanges slot own load f) := by
  unfold State.openRanges
  split
  · exact h
  · refine .ite h.finish (.ite h ?_)
    split
    · exact h.readFault
    · exact hf _ _ (h.foldl (fun _ _ h => .ite h.kernelIn h.memIn))

theorem Evolves.engineOpened {slot : Nat} {vs : List (List Byte)} (h : Evolves r s) : Evolves r (s.engineOpened slot vs) :=
  h.updCmd

/-! ### The functions of Machine/Lists.lean -/

theorem Evolves.applyOp {f : State → Nat → OpRec → State × Nat × Bool} {part : Nat} {q : OpRec} {res : Nat}
    (h : Evolves r s) (hf : ∀ u x y, Evolves r u → Yields r (f u x y)) : Yields r (applyOp f part q res s) := by
  have hu : Yields r (f s part q) := hf _ _ _ h
  unfold Sys2Proof.Machine.applyOp
  generalize f s part q = u at hu ⊢
  obtain ⟨u, w, b⟩ := u
  have hs : Evolves r (u.storeBytes res (leBytes 8 w)) := .storeBytes hu.fst
  exact .mk hs

theorem Keeps.opRow {f : State → Nat → OpRec → State × Nat × Bool} {part : Nat} {q : OpRec} {res : Nat} (h : Evolves r s)
    (hf : ∀ u x y, Evolves r u → Yields r (f u x y)) : Keeps r (opRow f part q res s) :=
  .ok (Yields.fst (h.applyOp hf))

theorem Evolves.opFail {status : Nat} (h : Evolves r s) : Yields r (opFail s status) :=
  .mk h

theorem Evolves.opOk {handle : Nat} (h : Evolves r s) : Yields r (opOk s handle) :=
  .mk h

theorem Keeps.listStep {op det : Nat} {f : State → Nat → OpRec → State × Nat × Bool} {reads : State → OpRec → List (Nat × Nat)}
    {slot : Nat} (h : Evolves r s) (hf : ∀ u x y, Evolves r u → Yields r (f u x y)) : Keeps r (listStep op det f reads slot s) := by
  unfold Sys2Proof.Machine.listStep
  split
  · exact .ok h
  · refine .ite (.ite (.ok h.updCmd) (.ok h.finish)) ?_
    split
    · exact .ok h.takeTile.releaseTo
    · refine .ite (.ok h.upstreamEnd) (.ite (.ite (.ok h) (.ite (.ok h.readDropped) (.ite (.ok h.readFault) ?_))) (.ok h.formTile.reach))
      split
      · exact .ok h.readFault
      · exact .ok (.when (.updCmd (.storeOwned (Yields.fst (hf _ _ _ h.memIn)))) (·.reach))

/-! ### The functions of Machine/LedgerOps.lean -/

theorem Evolves.dropRef {hd : Nat} (h : Evolves r s) : Evolves r (s.dropRef hd) :=
  h.when (·.updPage)

theorem Evolves.setSeq {q : Nat} {rc : SeqRec} (h : Evolves r s) : Evolves r (s.setSeq q rc) :=
  h.storeBytes

theorem Evolves.setSlot {q : SeqRec} {slot hd : Nat} (h : Evolves r s) : Evolves r (s.setSlot q slot hd) :=
  h.storeBytes

theorem Evolves.onSeq {part q : Nat} {f : SeqRec → State × Nat × Bool} (h : Evolves r s) (hf : ∀ x, Yields r (f x)) : Yields r
    (onSeq s part q f) := by
  unfold Sys2Proof.Machine.onSeq
  split
  · exact h.opFail
  · exact .ite (hf _) h.opFail

theorem Evolves.storeLines {ls : List Nat} {bs : List Byte} (h : Evolves r s) : Evolves r (s.storeLines ls bs) := by
  induction ls generalizing s bs with
  | nil => exact h
  | cons l ls ih => exact ih h.storeBytes

theorem Evolves.bobbinUse (h : Evolves r s) : Evolves r (s.bobbinUse) :=
  h.fset.raiseTo

theorem Evolves.freeLines {f : BobEntry → Bool} (h : Evolves r s) : Evolves r (s.freeLines f) :=
  .bobbinUse (.same rfl h)

theorem Evolves.advanceSeq {q fuel : Nat} (h : Evolves r s) : Evolves r (s.advanceSeq q fuel) := by
  unfold State.advanceSeq
  split
  · exact h
  · exact h.setSeq

theorem Evolves.resumed {q : Nat} (h : Evolves r s) : Evolves r (s.resumed q) :=
  h.whenNot (.same rfl)

theorem Evolves.dropFlushes {f : Nat × Nat × Nat → Bool} (h : Evolves r s) : Evolves r (s.dropFlushes f) :=
  .same rfl h

theorem Evolves.takeFrameOf {n l p : Nat} {x : State × Nat} (h : Evolves r s) (e : s.takeFrameOf n l p = some x) : Evolves r x.1 := by
  unfold State.takeFrameOf at e
  split at e
  · cases e
  · cases e
    exact .setEntry (.same rfl h)

theorem Evolves.flushPage {q layer page : Nat} (h : Evolves r s) : Evolves r (s.flushPage q layer page) := by
  unfold State.flushPage
  split
  · exact h.dropFlushes
  · dsimp only
    split
    · exact h.whenNot (.same rfl)
    · next e =>
      exact Evolves.use (.dropFlushes (.freeLines (.setSlot ((h.takeFrameOf e).storeBytes.whenNot (·.dropRef))))) fun h =>
        .ite h.setSeq.resumed h.advanceSeq

theorem Evolves.lopSeqOpen {part : Nat} {q : OpRec} (h : Evolves r s) : Yields r (lopSeqOpen s part q) := by
  unfold Sys2Proof.Machine.lopSeqOpen
  split
  · exact h.opFail
  · exact .ite h.opFail (Evolves.opOk (.setSeq (.same rfl h.storeBytes)))

theorem Evolves.closeSeq {q : Nat} {rc : SeqRec} (h : Evolves r s) : Evolves r (s.closeSeq q rc) :=
  .storeBytes (.same rfl (.dropFlushes (.freeLines (h.foldl (fun _ _ h => h.dropRef)))))

theorem Evolves.lopSeqClose {part : Nat} {q : OpRec} (h : Evolves r s) : Yields r (lopSeqClose s part q) :=
  h.onSeq (fun _ => h.closeSeq.opOk)

theorem Evolves.lopShare {part : Nat} {q : OpRec} (h : Evolves r s) : Yields r (lopShare s part q) :=
  h.onSeq (fun _ => h.onSeq (fun _ => .ite h.opFail (.ite h.opFail (.ite h.opFail
      (.ite h.opFail (Evolves.opOk (.setSeq (h.foldl (fun _ _ h => .setSlot (h.dropRef.whenNot (·.updPage)))))))))))

theorem Evolves.onSlot {part : Nat} {q : OpRec} {top : SeqRec → Nat} {f : SeqRec → Nat → State × Nat × Bool} (h : Evolves r s)
    (hf : ∀ x y, Yields r (f x y)) : Yields r (onSlot s part q top f) := by
  unfold Sys2Proof.Machine.onSlot
  refine h.onSeq (fun _ => .ite h.opFail ?_)
  split
  · exact h.opFail
  · exact hf _ _

theorem Evolves.lopDrop {part : Nat} {q : OpRec} (h : Evolves r s) : Yields r (lopDrop s part q) :=
  h.onSlot (fun _ _ => h.dropRef.setSlot.opOk)

theorem Evolves.lopCow {part : Nat} {q : OpRec} (h : Evolves r s) : Yields r (lopCow s part q) := by
  unfold Sys2Proof.Machine.lopCow
  refine h.onSlot (fun _ _ => .ite h.opOk ?_)
  split
  · exact h.opFail
  · next e => exact (h.takeFrameOf e).storeBytes.setSlot.dropRef.opOk

theorem Evolves.onPage {part : Nat} {q : OpRec} {f : PageEntry → State × Nat × Bool} (h : Evolves r s) (hf : ∀ x, Yields r (f x)) :
    Yields r (onPage s part q f) := by
  unfold Sys2Proof.Machine.onPage
  split
  · exact h.opFail
  · exact hf _

theorem Evolves.lopPin {part : Nat} {q : OpRec} (h : Evolves r s) : Yields r (lopPin s part q) :=
  h.onPage (fun _ => .ite h.opFail h.updPage.opOk)

theorem Evolves.lopUnpin {part : Nat} {q : OpRec} (h : Evolves r s) : Yields r (lopUnpin s part q) :=
  h.onPage (fun _ => .ite h.opFail h.updPage.opOk)

theorem Evolves.lopResolve {part : Nat} {q : OpRec} (h : Evolves r s) : Yields r (lopResolve s part q) :=
  h.onSeq (fun _ => .ite h.opFail (Evolves.opOk (.advanceSeq (.same rfl (.setSeq (.same rfl h.freeLines))))))

theorem Evolves.listPage {n f : Nat} {e : PageEntry} (h : Evolves r s) : Evolves r (s.listPage n f e) :=
  h.storeBytes.setReg

theorem Evolves.tickClass {n : Nat} (h : Evolves r s) : Evolves r (s.tickClass n) :=
  h.whenNot (fun h => .when (.when (.fset (h.foldl (fun _ _ h => h.when (·.setEntry)))) (·.bump))
      (fun h => h.foldl (fun _ _ h => h.whenNot (fun h => .ite h.fset h.listPage))))

theorem Evolves.lopTick {_part : Nat} {_r : OpRec} (h : Evolves r s) : Yields r (lopTick s _part _r) :=
  Evolves.opOk (.whenNot (h.fset.foldl (fun _ _ h => h.tickClass)) (·.fset))

theorem Evolves.lopNoevict {part : Nat} {q : OpRec} (h : Evolves r s) : Yields r (lopNoevict s part q) :=
  h.onPage (fun _ => h.updPage.opOk)

theorem Evolves.lopQuery {part : Nat} {q : OpRec} (h : Evolves r s) : Yields r (lopQuery s part q) :=
  h.onPage (fun _ => .mk h)

theorem Evolves.lopAlloc {part : Nat} {q : OpRec} (h : Evolves r s) : Yields r (lopAlloc s part q) := by
  unfold Sys2Proof.Machine.lopAlloc
  refine .ite h.opFail ?_
  split
  · exact h.opFail
  · next e => exact (h.takeFrameOf e).opOk

theorem Evolves.lopDecref {part : Nat} {q : OpRec} (h : Evolves r s) : Yields r (lopDecref s part q) :=
  h.onPage (fun _ => .ite h.opFail h.updPage.opOk)

theorem Evolves.lop {part : Nat} {q : OpRec} (h : Evolves r s) : Yields r (lop s part q) := by
  unfold Sys2Proof.Machine.lop
  split
  · exact h.lopSeqOpen
  · exact h.lopSeqClose
  · exact h.lopShare
  · exact h.lopDrop
  · exact h.lopCow
  · exact h.lopPin
  · exact h.lopUnpin
  · exact h.lopResolve
  · exact h.lopTick
  · exact h.lopNoevict
  · exact h.lopQuery
  · exact h.lopAlloc
  · exact h.lopDecref
  · exact h.opFail

theorem Evolves.ledgerTeardown {p : Nat} (h : Evolves r s) : Evolves r (s.ledgerTeardown p) :=
  .foldl (.same rfl (.dropFlushes (.freeLines (h.foldl (fun _ _ h => h.storeBytes)))))
      (fun _ _ h => h.foldl (fun _ _ h => h.when (·.setEntry)))

/-! ### The functions of Machine/Attention.lean -/

theorem Evolves.go {slot : Nat} {tc : Tracked} {c : AttnCfg} (h : Evolves r s) : Evolves r (State.attnOpen.go s slot tc c) := by
  unfold State.attnOpen.go
  split
  · exact h.finish
  · refine h.openRanges (fun _ _ h => ?_)
    split
    · exact h.readFault
    · split
      · exact h.finish
      · exact h.engineOpened.updCmd

theorem Evolves.attnOpen {slot : Nat} {tc : Tracked} {c : AttnCfg} (h : Evolves r s) : Evolves r (s.attnOpen slot tc c) := by
  unfold State.attnOpen
  split
  · exact .ite h.takeTile.releaseTo (.ite h.go h.upstreamEnd)
  · exact h.go

theorem Evolves.ledgerWait {slot : Nat} {c : Tracked} {why : Nat} (h : Evolves r s) : Evolves r (s.ledgerWait slot c why) :=
  h.whenNot (·.bump.updCmd)

theorem Evolves.ledgerGo {slot : Nat} (h : Evolves r s) : Evolves r (s.ledgerGo slot) :=
  h.updCmd

theorem Evolves.withoutEntry {q layer pos : Nat} (h : Evolves r s) : Evolves r (s.withoutEntry q layer pos) :=
  .same rfl h

theorem Evolves.appendRow {slot : Nat} {tc : Tracked} {c : AttnCfg} {e : SeqEnt} {k : Nat} {bytes : List Byte} (h : Evolves r s) :
    Evolves r (s.appendRow slot tc c e k bytes) :=
  .ledgerGo (.updCmd (.when (.storeLines (.bobbinUse (.same rfl h.withoutEntry))) (.same rfl)))

theorem Evolves.attnAppend {slot : Nat} {tc : Tracked} {c : AttnCfg} {e : SeqEnt} {k n : Nat} (h : Evolves r s) : Evolves r
    (s.attnAppend slot tc c e k n) :=
  h.whenNot (fun h => .ite h.ledgerWait h.appendRow)

theorem Evolves.updSeq {slot : Nat} {f : SeqView → SeqView} (h : Evolves r s) : Evolves r (s.updSeq slot f) :=
  h.updCmd

theorem Evolves.attnBegin {slot : Nat} {tc : Tracked} {c : AttnCfg} {e : SeqEnt} (h : Evolves r s) : Evolves r (s.attnBegin slot tc c e)
    := by
  unfold State.attnBegin
  refine .ite h ?_
  split
  · exact h.readFault
  · exact .ite h.ledgerWait (.ledgerGo (.updCmd (h.foldl (fun _ _ h => h.pinPage))))

theorem Evolves.attnChunk {slot : Nat} {c : Tracked} {v : SeqView} (h : Evolves r s) : Evolves r (s.attnChunk slot c v) := by
  unfold State.attnChunk
  dsimp only
  split
  · exact h.readFault
  · exact .updSeq (h.foldl (fun _ _ h => h.memIn))

theorem Evolves.attnSeqDone {slot : Nat} {tc : Tracked} {c : AttnCfg} {e : SeqEnt} {base : Nat} {v : SeqView} (h : Evolves r s) :
    Evolves r (s.attnSeqDone slot tc c e base v) :=
  .updCmd (h.count.foldl (fun _ _ h => h.scorePage))

theorem Evolves.attnRead {slot : Nat} {tc : Tracked} {c : AttnCfg} {e : SeqEnt} {base : Nat} {v : SeqView} (h : Evolves r s) : Evolves r
    (s.attnRead slot tc c e base v) :=
  .ite h.attnChunk h.attnSeqDone

theorem Evolves.attnForm {slot : Nat} {tc : Tracked} {c : AttnCfg} {total k : Nat} (h : Evolves r s) : Evolves r
    (s.attnForm slot tc c total k) :=
  h.gather.formTile

theorem Evolves.attnStats {slot : Nat} {tc : Tracked} {c : AttnCfg} {rowsN k : Nat} (h : Evolves r s) : Evolves r
    (s.attnStats slot tc c rowsN k) :=
  h.updCmd.formTile

theorem Evolves.attnTake {slot : Nat} {c : Tracked} {inp fmt n total : Nat} (h : Evolves r s) : Evolves r
    (s.attnTake slot c inp fmt n total) := by
  unfold State.attnTake
  split
  · exact h
  · split
    · exact h.upstreamEnd
    · exact .ite h.finish (.ite h.takeTile.releaseTo h.finish)

theorem Evolves.attnStep {slot : Nat} {tc : Tracked} {c : AttnCfg} (h : Evolves r s) : Evolves r (s.attnStep slot tc c) := by
  unfold State.attnStep
  refine .ite h.attnForm (.ite h.attnStats ?_)
  split
  · exact h.attnRead
  · exact h.attnBegin
  · exact h.attnAppend
  · exact .ite h.attnTake (.ite h.attnTake (.ite h.attnTake (.ite h.reach (h.whenNot (·.upstreamEnd)))))

theorem Keeps.attn {slot : Nat} (h : Evolves r s) : Keeps r (execAttn slot s) := by
  unfold execAttn
  split
  · exact .ok h
  · exact .ok (.ite h.attnStep h.attnOpen)

theorem Evolves.attnCommitSeq {e : SeqEnt} (h : Evolves r s) : Evolves r (s.attnCommitSeq e) := by
  unfold State.attnCommitSeq
  split
  · exact h
  · exact h.setSeq

theorem Evolves.attnCommit {c : Tracked} (h : Evolves r s) : Evolves r (s.attnCommit c) :=
  h.when (fun h => h.foldl (fun _ _ h => h.attnCommitSeq))

theorem Evolves.bwdForm {slot : Nat} {tc : Tracked} {c : AttnCfg} {p : Pair} {d n : Nat} (h : Evolves r s) : Evolves r
    (s.bwdForm slot tc c p d n) := by
  unfold State.bwdForm
  refine .ite h.gather.formTile ?_
  split
  · exact h.reach
  · exact h.updCmd.gather.formTile

theorem Evolves.bwdStep {slot : Nat} {tc : Tracked} {c : AttnCfg} (h : Evolves r s) : Evolves r (s.bwdStep slot tc c) := by
  unfold State.bwdStep
  split
  · split
    · exact h
    · split
      · exact h
      · exact .ite h.finish (.ite h.finish h.takeTile.releaseTo)
  · refine .ite h.upstreamEnd ?_
    dsimp only
    split
    · split
      · exact .ite h.finish (h.when (·.bwdForm))
      · exact h.finish
    · exact h.finish

theorem Keeps.attnBwd {slot : Nat} (h : Evolves r s) : Keeps r (execAttnBwd slot s) := by
  unfold execAttnBwd
  split
  · exact .ok h
  · refine .ite (.ok h.bwdStep) ?_
    split
    · exact .ok h.finish
    · exact .ok (h.openRanges (fun _ _ h => h.engineOpened))

/-! ### The functions of Machine/Loom.lean -/

theorem Keeps.loomSqBase {who : Who} {q base : Nat} (h : Evolves r s) : Keeps r (execLoomSqBase who q base s) :=
  .ite (.ok (.same rfl h.fset)) (.ok h)

theorem Keeps.loomSqCtl {who : Who} {q val : Nat} (h : Evolves r s) : Keeps r (execLoomSqCtl who q val s) :=
  .ite (.ok (h.fset.whenNot (·.fset))) (.ok h)

theorem Evolves.joinStreams {c : Tracked} (h : Evolves r s) : Evolves r (s.joinStreams c) :=
  .when (.same rfl h) (·.updCmd.upstreamEnd)

theorem Evolves.fetched {q used : Nat} (h : Evolves r s) : Evolves r (s.fetched q used) :=
  .same rfl (.same rfl h.fset)

theorem Evolves.acceptDesc {q used : Nat} {d : Desc} (h : Evolves r s) : Evolves r (s.acceptDesc q used d) := by
  have h : Evolves r (s.fetched q used) := h.fetched
  unfold State.acceptDesc
  generalize s.fetched q used = u at h ⊢
  dsimp only
  split
  · exact .raiseCompletion (.same rfl (.when (.same rfl h) (·.logUncorrected)))
  · exact .joinStreams (.same rfl (.same rfl h))

theorem Keeps.descriptorAccept {obs : MemObs} (h : Evolves r s) : Keeps r (execDescriptorAccept obs s) := by
  unfold execDescriptorAccept
  split
  · exact .ok h
  · dsimp only
    split
    · exact .ok h.fset
    · exact .ite (.ok h) (Evolves.use h.observe.fst fun h => .ite (.ok h.fset) (.ite (.ok h.fset.logUncorrected)
        (.ite (.ok h) (.ok h.acceptDesc))))

theorem Keeps.dispatch {st unit : Nat} (h : Evolves r s) : Keeps r (execDispatch st unit s) := by
  unfold execDispatch
  refine .ite (.ok h) ?_
  split
  · exact .ok h
  · exact .ite (.ok h) (.ite (.ok h) (Evolves.use (.trace (.updCmd (.same rfl h))) fun h => .ite
      (.ok (.finish (.ite h.logUncorrected h.tagDrop))) (.ok (h.whenNot (·.startRun)))))

theorem Keeps.tileSend {slot out : Nat} (h : Evolves r s) : Keeps r (execTileSend slot out s) := by
  unfold execTileSend
  split
  · exact .ok h
  · split
    · exact .ok h
    · dsimp only
      split
      · exact .ok h
      · exact .ite (.ok (.settle (.when (.when (.whenNot (.count (.linkFlits (.updCmd (.same rfl h)))) (·.count)) (·.trace))
          (·.trace)))) (.ok h)

theorem Evolves.popFlight {slot inp : Nat} {credit : Bool} (h : Evolves r s) : Evolves r (s.popFlight slot inp credit) :=
  .same rfl h

theorem Evolves.indexGap {c : Tracked} (h : Evolves r s) : Evolves r (s.indexGap c) :=
  .ite h.setReg.pinReport (.ite h.pinReport h.pinReport.finish)

theorem Keeps.tileArrive {slot inp : Nat} (h : Evolves r s) : Keeps r (execTileArrive slot inp s) := by
  unfold execTileArrive
  split
  · split
    · exact .ite (.ok h) (.ite (.ok h.popFlight.tagDrop) (.ite (.ok h.popFlight)
        (.ite (.ok h.popFlight.indexGap) (.ite (.ok h.popFlight.updCmd.checkDrain.latchLife)
            (.ite (.ok h.popFlight.updCmd.finish) (.ite (.ok h.popFlight.updCmd.finish)
                (.ite (.ok h.popFlight.updCmd.finish) (.ok (.when (.when (h.popFlight.updCmd.count.when (·.count)) (·.trace))
                    (·.trace.latchLife))))))))))
    · exact .ok h
  · exact .ok h

theorem Keeps.creditReturn {slot inp : Nat} (h : Evolves r s) : Keeps r (execCreditReturn slot inp s) :=
  .ok (.same rfl h)

theorem Keeps.loomStall {slot : Nat} (h : Evolves r s) : Keeps r (execLoomStall slot s) := by
  unfold execLoomStall
  split
  · exact .ok h
  · exact .ite (.ok h.setReg.raiseP.updCmd) (.ok h)

theorem Keeps.loomAbort {who : Who} {val : Nat} (h : Evolves r s) : Keeps r (execLoomAbort who val s) :=
  .ite (.ok (.raiseP (.same rfl h))) (.ok h)

theorem Keeps.nop {slot : Nat} (h : Evolves r s) : Keeps r (execNop slot s) := by
  unfold execNop
  split
  · exact .ok h
  · exact .ok h.reach

theorem Keeps.tload {slot : Nat} (h : Evolves r s) : Keeps r (execTload slot s) := by
  unfold execTload
  split
  · exact .ok h
  · refine .ite (.ok h.finish) (.ite (.ok h) (.ite (.ok h.readDropped) ?_))
    split
    · exact .ok h.readFault
    · exact Evolves.use (.formTile (.updCmd (h.foldl (fun _ _ h => h.memIn)))) fun h => .ok (.ite h.reach h.settle)

theorem Keeps.tstore {slot : Nat} (h : Evolves r s) : Keeps r (execTstore slot s) := by
  unfold execTstore
  split
  · exact .ok h
  · split
    · exact .ok h.upstreamEnd
    · exact .ite (.ok h) (Evolves.use h.takeTile fun h => .ite (.ok (.when (.releaseTo
        (.updCmd (h.foldl (fun _ _ h => .ite (.same rfl h) (.same rfl h.storeBytes.memOut))))) (·.reach))) (.ok h.finish))

theorem Keeps.htask {slot : Nat} (h : Evolves r s) : Keeps r (execHtask slot s) := by
  unfold execHtask
  split
  · exact .ok h
  · refine .ite (.ite (.ok h.updCmd) (.ok h.finish)) (.ite ?_ (.ite (.ite (.ok h.finish)
      (.ite (.ok h) (.ite (.ok h.readDropped) (.ite (.ok h.readFault) (.ite (.ok h.finish)
          (.ite (.ok h.finish) (.ite (.ok h) (.ite (.ok h.readDropped) (.ite (.ok h.readFault)
              (Evolves.use h.memIn.updCmd.formTile fun h => .ok (.ite h.reach h.settle))))))))))) (.ok h)))
    split
    · exact .ok h.upstreamEnd
    · split
      · exact .ok h
      · exact .ite (.ok h.finish) (.ite (.ok h) (.ok h.takeTile.storeOwned.updCmd.releaseTo))

theorem Keeps.htaskHandover {slot : Nat} (h : Evolves r s) : Keeps r (execHtaskHandover slot s) := by
  unfold execHtaskHandover
  split
  · exact .ok h
  · exact .ite (.ok (.when (.updCmd (.same rfl h.storeOwned.fset.fset)) (fun h => h.foldl (fun _ _ h => h.emit)))) (.ok h)

theorem Keeps.hcTaskDone {who : Who} {cluster task status : Nat} (h : Evolves r s) : Keeps r (execHcTaskDone who cluster task status s)
    := by
  unfold execHcTaskDone
  split
  · exact .ok h
  · refine .ite (.ok ?_) (.ok h.bump.withdrawTask.finish)
    split
    · exact h.bump.withdrawTask.updCmd.when (·.reach)
    · exact h.bump.withdrawTask.updCmd

/-! ### The functions of Machine/WarpOps.lean -/

theorem Evolves.setLink {j : Nat} {l : Link} (h : Evolves r s) : Evolves r (s.setLink j l) :=
  .same rfl h

theorem Evolves.linkTo {j st cause : Nat} (h : Evolves r s) : Evolves r (s.linkTo j st cause) :=
  h.fset.fset.setLink.when (·.fset)

theorem Evolves.linkTry {j : Nat} (h : Evolves r s) : Evolves r (s.linkTry j) :=
  h.when (·.linkTo)

theorem Evolves.toIdent {j : Nat} (h : Evolves r s) : Evolves r (s.toIdent j) :=
  h.linkTo.setLink.tickFree.emit

theorem Evolves.warpOut {j type : Nat} {f : WarpFrame} (h : Evolves r s) : Evolves r (s.warpOut j type f) :=
  h.gcount.emit

theorem Evolves.putFrame {j type : Nat} {f : WarpFrame} (h : Evolves r s) : Evolves r (s.putFrame j type f) :=
  h.setReg.setLink.warpOut

theorem Evolves.rekeyAt {j n : Nat} (h : Evolves r s) : Evolves r (s.rekeyAt j n) :=
  h.when (·.setLink.putFrame)

theorem Evolves.sendOn {j type : Nat} {f : WarpFrame} (h : Evolves r s) : Evolves r (s.sendOn j type f) :=
  h.when (·.putFrame.rekeyAt)

theorem Evolves.sendTo {dst type part chan info : Nat} {tileEnd : Bool} {payload : List Byte} (h : Evolves r s) : Evolves r
    (s.sendTo dst type part chan info tileEnd payload) := by
  unfold State.sendTo
  split
  · exact h.sendOn
  · exact h

theorem Evolves.pairSend {type : Nat} {e : Emit} (h : Evolves r s) : Evolves r (s.pairSend type e) := by
  unfold State.pairSend
  split
  · exact h
  · exact h.when (·.sendOn.emit)

theorem Evolves.sendCtl {j type named : Nat} (h : Evolves r s) : Evolves r (s.sendCtl j type named) :=
  h.setLink.warpOut.rekeyAt

theorem Evolves.loseLink {j : Nat} (h : Evolves r s) : Evolves r (s.loseLink j) :=
  .pinReport (h.setLink.foldl (fun _ _ h => h.finish))

theorem Evolves.refuseFrame {j : Nat} {f : WarpFrame} {secret : Bool} (h : Evolves r s) : Evolves r (s.refuseFrame j f secret) :=
  .ite h.bump (.sendCtl (.setLink (h.whenNot (·.bump))))

theorem Evolves.takeFrame {j : Nat} (h : Evolves r s) : Evolves r (s.takeFrame j) :=
  .rekeyAt (.sendCtl (.setReg (h.when (·.setLink.bump.pinReport))))

theorem Evolves.onFrame {j type : Nat} {f : WarpFrame} {secret : Bool} {here : State → State} (h : Evolves r s)
    (hhere : ∀ u, Evolves r u → Evolves r (here u)) : Evolves r (onFrame s j type f secret here) := by
  unfold Sys2Proof.Machine.onFrame
  refine .ite h (.ite h.refuseFrame (.ite h (.ite (hhere _ h.takeFrame) ?_)))
  split
  · exact h.takeFrame.sendOn
  · exact h.takeFrame.bump

/-! ### The functions of Machine/HostOps.lean -/

theorem Evolves.mirror {ws : List JournalWrite} (h : Evolves r s) : Evolves r (s.mirror ws) :=
  h.when (fun h => .pairSend (.same rfl h))

theorem Evolves.recordDecision {outs : List Outcome2} (h : Evolves r s) : Evolves r (s.recordDecision outs) :=
  h.when (fun h => .pairSend (.same rfl h))

theorem Evolves.transmit {port : Nat} {e : Emit} (h : Evolves r s) : Evolves r (s.transmit port e) :=
  h.when (.same rfl)

theorem Evolves.reply {port sid : Nat} {q : Response} (h : Evolves r s) : Evolves r (s.reply port sid q) :=
  .ite (.same rfl h) h.transmit

theorem Evolves.releaseHeld (h : Evolves r s) : Evolves r (s.releaseHeld) := by
  unfold State.releaseHeld
  refine .foldl (.same rfl h) (fun _ _ h => ?_)
  split
  · exact h.transmit
  · exact h.transmit

theorem Evolves.respond {port sid seq : Nat} {q : Response} (h : Evolves r s) : Evolves r (s.respond port sid seq q) := by
  unfold State.respond
  split
  · exact h.reply
  · exact .reply (.mirror (.same rfl h))

theorem Evolves.freeAcked {sid a : Nat} (h : Evolves r s) : Evolves r (s.freeAcked sid a) :=
  .same rfl h

theorem Evolves.raiseAck {sid a : Nat} (h : Evolves r s) : Evolves r (s.raiseAck sid a) := by
  unfold State.raiseAck
  split
  · exact h
  · exact .freeAcked (.same rfl h)

theorem Evolves.ackTo {sid n : Nat} (h : Evolves r s) : Evolves r (s.ackTo sid n) := by
  unfold State.ackTo
  split
  · exact h
  · exact h.whenNot (·.raiseAck.mirror)

theorem Evolves.onSession {port : Nat} {hd : CtlHdr} {minMaj minMin tag : Nat} {act : Session → State → State} (h : Evolves r s)
    (hact : ∀ x u, Evolves r u → Evolves r (act x u)) : Evolves r (onSession s port hd minMaj minMin tag act) := by
  unfold Sys2Proof.Machine.onSession
  refine .ite h ?_
  split
  · exact h.reply
  · refine .ite h (.ite h.ackTo.reply (.ite ?_ (.ite (.respond (.ackTo (.mirror (.same rfl h))))
      (.ite (.respond (.ackTo (.mirror (.same rfl h)))) ?_))))
    · dsimp only
      split
      · exact h.ackTo.reply
      · exact h.ackTo
    · split
      · exact .ackTo (.mirror (.same rfl h))
      · exact hact _ _ (.ackTo (.mirror (.same rfl h)))

theorem Evolves.takeInbox {port : Nat} {hd : CtlHdr} (h : Evolves r s) : Evolves r (s.takeInbox port hd) := by
  unfold State.takeInbox
  split
  · exact .same rfl h
  · exact h

theorem Evolves.updReq {req : Nat} {f : Request → Request} (h : Evolves r s) : Evolves r (s.updReq req f) := by
  unfold State.updReq
  split
  · exact .same rfl h
  · exact h

theorem Evolves.acceptReq {req : Nat} (h : Evolves r s) : Evolves r (s.acceptReq req) := by
  unfold State.acceptReq
  split
  · exact h
  · exact h.updReq.respond

theorem Evolves.overflow {sid : Nat} (h : Evolves r s) : Evolves r (s.overflow sid) := by
  unfold State.overflow
  split
  · exact h
  · exact .recordDecision (.same rfl h)

theorem Evolves.retain {sid req status : Nat} {rec_ : List Byte} (h : Evolves r s) : Evolves r (s.retain sid req status rec_) := by
  unfold State.retain
  split
  · exact h
  · exact .ite (.freeAcked (.same rfl h)) (.when (.same rfl h) (·.overflow))

theorem Evolves.failReq {req status : Nat} (h : Evolves r s) : Evolves r (s.failReq req status) := by
  unfold State.failReq
  split
  · exact h
  · exact h.whenNot (·.updReq.retain)

theorem Evolves.askCert {q : AttReq} (h : Evolves r s) : Evolves r (s.askCert q) :=
  .ite h.fset.respond (.same rfl h)

theorem Evolves.issue {qpn : Nat} {read : Bool} {addr rkey len : Nat} {bytes : List Byte} {slot : Option Nat} (h : Evolves r s) :
    Evolves r (s.issue qpn read addr rkey len bytes slot) := by
  unfold State.issue
  split
  · exact h
  · exact .foldl (.same rfl h) (fun _ _ h => h.transmit)

theorem Evolves.resend {qpn start : Nat} (h : Evolves r s) : Evolves r (s.resend qpn start) := by
  unfold State.resend
  split
  · exact h
  · exact .bump (.foldl (.same rfl h) (fun _ _ h => h.transmit))

theorem Evolves.qpError {qpn : Nat} (h : Evolves r s) : Evolves r (s.qpError qpn) := by
  unfold State.qpError
  split
  · exact h
  · exact .foldl (.same rfl h) (fun _ _ h => h.finish)

theorem Evolves.settleWrites {qpn : Nat} (h : Evolves r s) : Evolves r (s.settleWrites qpn) :=
  h.foldl (fun _ _ h => h.reach)

/-! ### The functions of Machine/Serving.lean -/

theorem Evolves.setSamp {q : Nat} {x : SampSeq} (h : Evolves r s) : Evolves r (s.setSamp q x) :=
  .same rfl h

theorem Evolves.sopGroupCancel {part : Nat} {q : OpRec} (h : Evolves r s) : Yields r (sopGroupCancel s part q) :=
  .ite h.opFail (Evolves.opOk (.raiseP (h.whenNot (.same rfl))))

theorem Evolves.sopGroupClear {part : Nat} {q : OpRec} (h : Evolves r s) : Yields r (sopGroupClear s part q) :=
  Evolves.opOk (.same rfl h)

theorem Evolves.sopSeqReset {part : Nat} {q : OpRec} (h : Evolves r s) : Yields r (sopSeqReset s part q) := by
  unfold Sys2Proof.Machine.sopSeqReset
  split
  · exact .ite h.setSamp.opOk h.opFail
  · exact h.setSamp.opOk

theorem Evolves.onSamp {part q : Nat} {f : SampSeq → State × Nat × Bool} (h : Evolves r s) (hf : ∀ x, Yields r (f x)) : Yields r
    (onSamp s part q f) := by
  unfold Sys2Proof.Machine.onSamp
  split
  · exact h.opFail
  · exact .ite (hf _) h.opFail

theorem Evolves.sopSeqLoop {part : Nat} {q : OpRec} (h : Evolves r s) : Yields r (sopSeqLoop s part q) :=
  h.onSamp (fun _ => .ite h.opFail h.setSamp.opOk)

theorem Evolves.sopSeqQuery {part : Nat} {q : OpRec} (h : Evolves r s) : Yields r (sopSeqQuery s part q) :=
  h.onSamp (fun _ => .mk h)

theorem Evolves.sop {part : Nat} {q : OpRec} (h : Evolves r s) : Yields r (sop s part q) := by
  unfold Sys2Proof.Machine.sop
  split
  · exact h.sopGroupCancel
  · exact h.sopGroupClear
  · exact h.sopSeqReset
  · exact h.sopSeqLoop
  · exact h.sopSeqQuery
  · exact h.opFail

theorem Evolves.samplerTeardown {p : Nat} (h : Evolves r s) : Evolves r (s.samplerTeardown p) :=
  .same rfl h

theorem Keeps.sctl {slot : Nat} (h : Evolves r s) : Keeps r (execSctl slot s) :=
  .listStep h (fun _ _ _ h => h.sop)

theorem Keeps.groupCancel {part : Nat} {q : OpRec} {res : Nat} (h : Evolves r s) : Keeps r (execGroupCancel part q res s) :=
  .opRow h (fun _ _ _ h => h.sopGroupCancel)

theorem Keeps.groupClear {part : Nat} {q : OpRec} {res : Nat} (h : Evolves r s) : Keeps r (execGroupClear part q res s) :=
  .opRow h (fun _ _ _ h => h.sopGroupClear)

theorem Keeps.seqReset {part : Nat} {q : OpRec} {res : Nat} (h : Evolves r s) : Keeps r (execSeqReset part q res s) :=
  .opRow h (fun _ _ _ h => h.sopSeqReset)

theorem Keeps.seqLoop {part : Nat} {q : OpRec} {res : Nat} (h : Evolves r s) : Keeps r (execSeqLoop part q res s) :=
  .opRow h (fun _ _ _ h => h.sopSeqLoop)

theorem Keeps.seqQuery {part : Nat} {q : OpRec} {res : Nat} (h : Evolves r s) : Keeps r (execSeqQuery part q res s) :=
  .opRow h (fun _ _ _ h => h.sopSeqQuery)

/-! ### The functions of Machine/PauseOps.lean -/

theorem Evolves.freeImage {req : Nat} (h : Evolves r s) : Evolves r (s.freeImage req) :=
  .same rfl h

theorem Evolves.keepImage {req : Nat} {im : Image} (h : Evolves r s) : Evolves r (s.keepImage req im) :=
  .same rfl h

theorem Evolves.restoreImage {req q : Nat} (h : Evolves r s) : Evolves r (s.restoreImage req q) := by
  unfold State.restoreImage
  split
  · split
    · exact .resumed (.updReq (.setSamp (.same rfl h.storeBytes.setSeq)))
    · exact h.updReq
  · exact h

/-- By the recursion of the function itself: Lean does not derive its equations within its limits. -/
theorem Evolves.serveCold {n : Nat} (h : Evolves r s) : Evolves r (State.serveCold n s) := by
  delta State.serveCold
  induction n generalizing s with
  | zero => exact h
  | succ n ih =>
    dsimp only at ih ⊢
    delta State.serveCold._f
    dsimp only
    split
    · refine .ite ?_ h
      split
      · exact ih (.restoreImage (.same (by with_reducible rfl) h))
      · exact h
    · exact h

theorem Evolves.runCold (h : Evolves r s) : Evolves r (s.runCold) :=
  h.serveCold

theorem Evolves.joinCold {req kind : Nat} (h : Evolves r s) : Evolves r (s.joinCold req kind) :=
  h.when (.same rfl)

theorem Evolves.coldReady {req : Nat} {resume : Bool} (h : Evolves r s) : Evolves r (s.coldReady req resume) :=
  .ite (.same rfl h) (.same rfl h)

theorem Evolves.leaveCold {req kind : Nat} (h : Evolves r s) : Evolves r (s.leaveCold req kind) :=
  .runCold (.same rfl h)

theorem Evolves.completeImage {req : Nat} {im : Image} (h : Evolves r s) : Evolves r (s.completeImage req im) := by
  unfold State.completeImage
  refine .runCold (.updReq (.whenNot (.ite (.same rfl h) ?_) (·.setSamp)))
  split
  · exact .when (.same rfl h) (·.closeSeq)
  · exact .same rfl h

theorem Evolves.pause {req : Nat} {q : Request} {ttl : Nat} (h : Evolves r s) : Yields r (s.pause req q ttl) := by
  unfold State.pause
  refine .ite (.mk h.leaveCold) (.ite (.mk h.leaveCold) (.ite (.mk h.leaveCold) ?_))
  split
  · exact .mk h.logUncorrected.failReq.leaveCold
  · exact .mk (.coldReady (.keepImage (.same rfl h)))

theorem Evolves.resume {req : Nat} {q : Request} (h : Evolves r s) : Yields r (s.resume req q) := by
  unfold State.resume
  split
  · exact .mk h.leaveCold
  · exact .ite (.mk (.runCold (.coldReady (.same rfl h)))) (.mk (.leaveCold (.freeImage (.same rfl h))))

theorem Evolves.clientOp {req kind ttl : Nat} (h : Evolves r s) : Yields r (s.clientOp req kind ttl) := by
  unfold State.clientOp
  split
  · exact .mk h.leaveCold
  · split
    · exact .mk (.same rfl h.freeImage)
    · exact .mk h
    · exact .mk h
    · exact .mk (.applyCancels (.same rfl h.updReq))
    · exact h.pause
    · exact .mk h.leaveCold
    · exact h.resume
    · exact .mk h.leaveCold

theorem Evolves.expire {req : Nat} (h : Evolves r s) : Evolves r (s.expire req) := by
  unfold State.expire
  split
  · exact h
  · exact .ite (.same rfl h) (h.whenNot (fun h => .updReq (.same rfl h)))

theorem Evolves.freeDue (h : Evolves r s) : Evolves r (s.freeDue) :=
  .foldl (.same rfl h) (fun _ _ h => h.expire)

theorem Evolves.ageImages (h : Evolves r s) : Evolves r (s.ageImages) :=
  .same rfl h

/-! ### The functions of Machine/Time.lean -/

theorem Evolves.newTimeSet (h : Evolves r s) : Evolves r (s.newTimeSet) :=
  .setReg (.same rfl h)

theorem Keeps.timeSetBoundary (h : Evolves r s) : Keeps r (execTimeSetBoundary s) :=
  .ite (.ok h.passTicks.newTimeSet) (.ok h)

theorem Evolves.setTbState {st : Nat} (h : Evolves r s) : Evolves r (s.setTbState st) :=
  h.fset.fset

theorem Evolves.tbResult {o : ℤ} (h : Evolves r s) : Evolves r (s.tbResult o) := by
  unfold State.tbResult
  dsimp only
  split
  · exact .ite (.raiseM (.setTbState (.same rfl h))) (.same rfl h)
  · exact h.when (fun h => .setTbState (.same rfl h))
  · exact .setTbState (.fset (.same rfl h))
  · exact .setTbState (.same rfl h)

theorem Evolves.applyOffset {o : ℤ} (h : Evolves r s) : Evolves r (s.applyOffset o) :=
  .tbResult (.same rfl (.setReg (.setReg (.when (.ite (.raiseM (.same rfl h)) (.same rfl h)) (.same rfl)))))

theorem Keeps.offsetResult {o : ℤ} (h : Evolves r s) : Keeps r (execOffsetResult o s) :=
  Evolves.use (.same rfl h) fun h => .ite (.ok h.applyOffset) (.ok h)

theorem Keeps.tbAdj {who : Who} {val : Nat} (h : Evolves r s) : Keeps r (execTbAdj who val s) :=
  .ite (.ok h.applyOffset) (.ok h)

theorem Keeps.tbRate {who : Who} {val : Nat} (h : Evolves r s) : Keeps r (execTbRate who val s) :=
  .ite (.ok (.setReg (.same rfl h))) (.ok h)

theorem Keeps.tbHoldover (h : Evolves r s) : Keeps r (execTbHoldover s) :=
  .ite (.ok h.setTbState.raiseM) (.ok h)

/-! ### The functions of Machine/VideoOps.lean -/

theorem Evolves.addPacket {c : VChan} {arrival : Nat} {bs : List Byte} (h : Evolves r s) : Evolves r (s.addPacket c arrival bs) :=
  .ite h.setChan (.ite h.bump (.ite h.bump (h.whenNot (·.setChan))))

theorem Evolves.closePicture {c : VChan} {last : Nat} {jitter : Bool} {included : List Pkt} (h : Evolves r s) : Evolves r
    (s.closePicture c last jitter included) :=
  h.setChan.bump

/-! ### The functions of Machine/PairOps.lean -/

theorem Evolves.pairTo {st : Nat} (h : Evolves r s) : Evolves r (s.pairTo st) :=
  h.fset.fset

theorem Evolves.beginTeardown {p : Nat} (h : Evolves r s) : Evolves r (s.beginTeardown p) :=
  h.whenNot (fun h => .same rfl h.fset.fset.fset)

theorem Evolves.lineStill (h : Evolves r s) : Evolves r (s.lineStill) :=
  h.whenNot (.same rfl)

theorem Evolves.dropJoin (h : Evolves r s) : Evolves r (s.dropJoin) :=
  h.whenNot (.same rfl)

theorem Evolves.toWaiting (h : Evolves r s) : Evolves r (s.toWaiting) :=
  .same rfl (.fset (.pairTo (.lineStill (h.foldl (fun _ _ h => h.beginTeardown)))))

theorem Evolves.outOfStep {cause : Nat} (h : Evolves r s) : Evolves r (s.outOfStep cause) :=
  h.fset.raiseM

theorem Evolves.leaveStandby {cause : Nat} (h : Evolves r s) : Evolves r (s.leaveStandby cause) :=
  h.when (·.toWaiting.outOfStep)

theorem Evolves.acceptHeld {upTo : Option Nat} (h : Evolves r s) : Evolves r (s.acceptHeld upTo) :=
  h.foldl (fun _ _ h => .acceptReq (h.when (·.updReq)))

theorem Evolves.takeSession {num : Nat} {ss : Session} {qp : Option QPair} (h : Evolves r s) : Evolves r (s.takeSession num ss qp) :=
  .same rfl h

theorem Evolves.applyWrite {y0 : JournalWrite} (h : Evolves r s) : Evolves r (s.applyWrite y0) := by
  unfold State.applyWrite
  split
  · exact .same rfl h
  · exact .same rfl h
  · exact h.raiseAck
  · exact h.takeSession
  · split
    · exact .same rfl h
    · exact h
  · split
    · exact .same rfl h
    · exact h
  · split
    · exact .same rfl h
    · exact h
  · exact .same rfl h

theorem Evolves.closeNamed {vd chan : Nat} {seqs : List Nat} (h : Evolves r s) : Evolves r (s.closeNamed vd chan seqs) := by
  unfold State.closeNamed
  split
  · exact h
  · exact h.closePicture

theorem Evolves.abortNamed {part seq result : Nat} (h : Evolves r s) : Evolves r (s.abortNamed part seq result) := by
  unfold State.abortNamed
  dsimp only
  split
  · exact .when (h.when (·.abortResult)) (·.finish)
  · exact h.when (·.abortResult)

theorem Evolves.applyOutcome {y0 : Outcome2} (h : Evolves r s) : Evolves r (s.applyOutcome y0) := by
  unfold State.applyOutcome
  split
  · exact h
  · exact .same rfl h
  · exact .same rfl h
  · exact h.clientOp.fst
  · exact h.expire
  · exact h.ackTo
  · exact h.overflow
  · exact h.abortNamed
  · exact .same rfl h
  · split
    · exact h.setChan
    · exact h
  · exact .ite h.closeNamed (.pairSend (.same rfl h))

theorem Evolves.decideStep (h : Evolves r s) : Evolves r (s.decideStep) :=
  .recordDecision (.same rfl h)

theorem Evolves.pairNext (h : Evolves r s) (e : s.pairNext = some t) : Evolves r t := by
  unfold State.pairNext at e
  split at e
  · split at e <;> cases e
    exact .beginTeardown (.mirror (.same rfl h))
  · cases e
  · cases e
    exact .same rfl h
  · split at e <;> cases e
    exact .applyOutcome (.same rfl h)
  · split at e <;> cases e
    exact .decideStep (.same rfl h)
  · cases e

theorem Evolves.runPairFor {n : Nat} (h : Evolves r s) : Evolves r (State.runPairFor n s) := by
  induction n generalizing s with
  | zero => exact h
  | succ n ih =>
    unfold State.runPairFor
    split
    · next e => exact ih (h.pairNext e)
    · exact h

theorem Evolves.runPair (h : Evolves r s) : Evolves r (s.runPair) :=
  h.runPairFor

theorem Evolves.doClientOp {o : ClientOp} (h : Evolves r s) : Evolves r (s.doClientOp o) :=
  h.clientOp.fst.recordDecision.respond

theorem Evolves.runDue (h : Evolves r s) : Evolves r (s.runDue) :=
  Yields.fst (.foldl (.mk h.runCold) (fun _ _ h => .ite (.mk h.fst) (.mk (.doClientOp (.same rfl h.fst)))))

theorem Keeps.loomSqTail {who : Who} {q tail : Nat} (h : Evolves r s) : Keeps r (execLoomSqTail who q tail s) :=
  .ite (.ok (.dozeWake (h.fset.when (fun h => .runPair (.same rfl h))))) (.ok h)

theorem Evolves.toSolo {cause : Nat} (h : Evolves r s) : Evolves r (s.toSolo cause) :=
  .runPair (.releaseHeld (.acceptHeld (.fset (.same rfl h.pairTo.outOfStep))))

theorem Evolves.pairLinkLost {j : Nat} (h : Evolves r s) : Evolves r (s.pairLinkLost j) := by
  unfold State.pairLinkLost
  refine .ite ?_ h
  split
  · exact h.dropJoin.toWaiting
  · exact h.leaveStandby
  · exact h.toSolo
  · exact .fset (.same rfl h)
  · exact h

theorem Evolves.sendLease {rel : Bool} (h : Evolves r s) : Evolves r (s.sendLease rel) :=
  .emit (.same rfl h.pairSend)

theorem Evolves.takeLease {epoch st cause : Nat} (h : Evolves r s) : Evolves r (s.takeLease epoch st cause) :=
  .runPair (.foldl (.acceptHeld (.emit (.emit (.raiseM (.bump (.fset (.same rfl h.setReg.pairTo.fset))))))) (fun _ _ h => h.resend))

theorem Evolves.releaseLease (h : Evolves r s) : Evolves r (s.releaseLease) :=
  h.when (·.sendLease.lineStill.fset)

theorem Evolves.sendJoinCtl {phase : Nat} (h : Evolves r s) : Evolves r (s.sendJoinCtl phase) :=
  h.pairSend

theorem Evolves.gotLease {serial epoch : Nat} {release viaLink : Bool} {o : ℤ} (h : Evolves r s) : Evolves r
    (s.gotLease serial epoch release viaLink o) :=
  h.whenNot (fun h => h.whenNot (fun h => Evolves.use (.same rfl (.when (.when (h.when (·.setReg.raiseM))
      (fun h => .same rfl h.toWaiting)) (·.toWaiting))) fun h => .ite h.applyOffset (h.when (·.pairTo.fset.sendJoinCtl))))

theorem Evolves.gotPairLease {port : Nat} {hd : CtlHdr} {b : PairLeaseBody} (h : Evolves r s) : Evolves r (s.gotPairLease port hd b) :=
  .ite (.gotLease (.same rfl h)) h.bump

theorem Evolves.trySwap (h : Evolves r s) : Evolves r (s.trySwap) :=
  h.when (fun h => .same rfl h.setReg.pairSend.lineStill.pairTo.fset.fset.bump)

theorem Evolves.beginSwap (h : Evolves r s) : Evolves r (s.beginSwap) :=
  .ite (.trySwap (.fset (.same rfl h))) h.fset.fset

theorem Evolves.sendItem {i : JoinItem} (h : Evolves r s) : Evolves r (s.sendItem i) :=
  h.pairSend

theorem Evolves.copyDirty (h : Evolves r s) : Evolves r (s.copyDirty) :=
  .foldl (.same rfl h) (fun _ _ h => h.sendItem)

theorem Evolves.joinPhase {k : Nat} (h : Evolves r s) : Evolves r (s.joinPhase k) :=
  h.fset.sendJoinCtl

theorem Evolves.serveJoin {phase digest major : Nat} (h : Evolves r s) : Evolves r (s.serveJoin phase digest major) :=
  .whenNot (h.when (·.toSolo)) (fun h => .ite (.ite (.sendJoinCtl (.fset (.same rfl h)))
      (.joinPhase (.foldl (.foldl (.same rfl h) (fun _ _ h => h.sendItem)) (fun _ _ h => h.sendItem))))
          (h.whenNot (fun h => .ite (.ite (.ite (.joinPhase (.foldl (.same rfl h.copyDirty) (fun _ _ h => h.sendItem))) h.joinPhase)
              h.copyDirty.joinPhase) (.ite (.joinPhase (h.foldl (fun _ _ h => h.raiseP))) (h.when (fun h => .same rfl h.pairTo))))))

theorem Evolves.followJoin {phase : Nat} (h : Evolves r s) : Evolves r (s.followJoin phase) :=
  .ite h.toWaiting.fset (Evolves.use (h.fset.when (.same rfl)) fun h => .ite h.sendJoinCtl
      (h.when (fun h => .sendJoinCtl (.same rfl h.pairTo.raiseM))))

theorem Evolves.takeImage {req : Nat} {im : Image} (h : Evolves r s) : Evolves r (s.takeImage req im) :=
  h.whenNot (fun h => .ite (.same rfl h) (.keepImage (.same rfl h)))

theorem Evolves.takeItem {y0 : JoinItem} (h : Evolves r s) : Evolves r (s.takeItem y0) := by
  unfold State.takeItem
  split
  · exact h.writeBytes
  · exact h.when (·.setReg)
  · exact .same rfl h
  · exact .same rfl h
  · exact .same rfl h
  · exact h.takeImage
  · exact .same rfl h
  · exact .takeSession (.same rfl h)

/-! ### The functions of Machine/FaultOps.lean -/

theorem Evolves.faultSummary (h : Evolves r s) : Evolves r (s.faultSummary) :=
  .same rfl h.fset.fset

theorem Evolves.triggerDump {trig src : Nat} (h : Evolves r s) : Evolves r (s.triggerDump trig src) :=
  h.whenNot (fun h => .setReg (.same rfl (.fset (h.when (.same rfl)))))

theorem Evolves.safeOutputs {cause src : Nat} (h : Evolves r s) : Evolves r (s.safeOutputs cause src) :=
  .same rfl h.fset.fset.fset

theorem Evolves.enterSafe {cause src trig : Nat} (h : Evolves r s) : Evolves r (s.enterSafe cause src trig) :=
  .ite (h.whenNot (·.triggerDump)) (h.releaseLease.safeOutputs.raiseM.fset.faultSummary.when (·.triggerDump))

theorem Evolves.containStation {st : Nat} (h : Evolves r s) : Evolves r (s.containStation st) :=
  h.contain

theorem Evolves.containVideo {st : Nat} (h : Evolves r s) : Evolves r (s.containVideo st) :=
  h.contain

theorem Evolves.retireEngine {st reason : Nat} (h : Evolves r s) : Evolves r (s.retireEngine st reason) :=
  h.setReg.raiseM.faultSummary

theorem Evolves.fenceReport {src st : Nat} (h : Evolves r s) : Evolves r (s.fenceReport src st) :=
  .whenNot (.same rfl h) (fun h => Evolves.use h.raiseM fun h => .ite h.fenceEngine.retireEngine h.fenceEngine.faultSummary)

theorem Evolves.fenceStation {src st : Nat} (h : Evolves r s) : Evolves r (s.fenceStation src st) :=
  h.whenNot (fun h => .same rfl h.raiseM.containStation)

theorem Evolves.latchReport {src cls bits level : Nat} (h : Evolves r s) : Evolves r (s.latchReport src cls bits level) := by
  unfold State.latchReport
  refine .faultSummary (.raiseM (.when ?_ (·.setReg)))
  split
  · exact h.setReg.raiseTo.bump
  · exact h.setReg.raiseTo.bump
  · exact h.setReg.raiseTo.bump
  · exact h.setReg.raiseTo

theorem Evolves.failTest {src : Nat} (h : Evolves r s) : Evolves r (s.failTest src) :=
  .same rfl h

theorem Evolves.reportFault {src cls bits : Nat} (h : Evolves r s) : Evolves r (s.reportFault src cls bits) := by
  unfold State.reportFault
  split
  · exact h
  · refine .ite (h.latchReport.failTest.when (·.leaveStandby)) ?_
    split
    · exact h.latchReport.failTest.when (·.leaveStandby)
    · exact .ite (.containStation (h.latchReport.failTest.when (·.leaveStandby)))
        (.containVideo (h.latchReport.failTest.when (·.leaveStandby)))
    · exact .ite (.fenceReport (h.latchReport.failTest.when (·.leaveStandby))) (.fenceStation
        (h.latchReport.failTest.when (·.leaveStandby)))
    · exact .enterSafe (h.latchReport.failTest.when (·.leaveStandby))

/-! ### The functions of Machine/Faults.lean -/

theorem Evolves.stickyBits {src cls bits : Nat} (h : Evolves r s) : Evolves r (s.stickyBits src cls bits) := by
  unfold State.stickyBits
  dsimp only
  split
  · exact h.setReg.when (·.bump)
  · exact .ite h.setReg (.ite h.setReg (h.when (·.setReg)))

theorem Keeps.faultReport {source cls bits : Nat} (h : Evolves r s) : Keeps r (execFaultReport source cls bits s) :=
  .ite (.ok h) (Evolves.use (.whenNot (.same rfl h) (·.stickyBits)) fun h => .ite (.ok h.enterSafe) (.ok h.reportFault))

theorem Keeps.safeReq {who : Who} (h : Evolves r s) : Keeps r (execSafeReq who s) :=
  .ite (.ok h.fset.enterSafe) (.ok h)

theorem Keeps.collectorFault (h : Evolves r s) : Keeps r (execCollectorFault s) :=
  .ite (.ok h.enterSafe) (.ok h)

theorem Keeps.fcInject {who : Who} {val : Nat} (h : Evolves r s) : Keeps r (execFcInject who val s) :=
  .ite (.ok (.ite h.enterSafe h.reportFault)) (.ok h)

theorem Keeps.fcStatus {who : Who} {k val : Nat} (h : Evolves r s) : Keeps r (execFcStatus who k val s) :=
  .ite (.ok h) (.ok (.faultSummary (h.setReg.foldl (fun _ _ h => h.fset))))

theorem Evolves.readmit {st : Nat} (h : Evolves r s) : Evolves r (s.readmit st) :=
  h.setReg.setReg.fset.fset.remapBack.raiseM.faultSummary

theorem Evolves.beginTest {st : Nat} {requested : Bool} (h : Evolves r s) : Evolves r (s.beginTest st requested) :=
  .raiseM (.fset (.fset (.fset (.fset (.setReg (.same rfl h))))))

theorem Evolves.resetDataPath {st : Nat} (h : Evolves r s) : Evolves r (s.resetDataPath st) :=
  .ite (.same rfl h) (.ite (.same rfl h) (.ite (.same rfl h) (h.when (.same rfl))))

theorem Keeps.unitResetDone {st : Nat} (h : Evolves r s) : Keeps r (execUnitResetDone st s) := by
  unfold execUnitResetDone
  split
  · exact .ok h
  · exact .ite (.ok h) (Evolves.use (.same rfl h) fun h => .ite (.ok h.resetDataPath.raiseM)
      (.ite (.ok h.faultSummary) (.ite (.ok h.beginTest) (.ok h.readmit))))

theorem Evolves.askTest {st : Nat} {requested : Bool} (h : Evolves r s) : Evolves r (s.askTest st requested) :=
  .setReg (.same rfl h)

theorem Keeps.testSchedule (h : Evolves r s) : Keeps r (execTestSchedule s) :=
  .ite (.ok h) (.ite (.ok (.same rfl h.askTest)) (.ite (.ok (.same rfl h)) (.ite (.ok (.same rfl h.askTest))
      (.ite (.ok (.same rfl h.askTest)) (.ok (.same rfl h))))))

theorem Keeps.fcTestReq {who : Who} {unit : Nat} (h : Evolves r s) : Keeps r (execFcTestReq who unit s) :=
  .ite (.ok h) (.ite (.ok h.fset) (.ok h.askTest))

theorem Keeps.testStart (h : Evolves r s) : Keeps r (execTestStart s) := by
  unfold execTestStart
  split
  · exact .ok h
  · exact .ite (.ok h) (.ok h.moveAway.beginTest)

theorem Keeps.testDone {pass : Bool} (h : Evolves r s) : Keeps r (execTestDone pass s) := by
  unfold execTestDone
  split
  · exact .ok h
  · exact .ite (.ok h) (Evolves.use (.raiseM (.fset (.bump (.fset (.fset (.fset (.same rfl h))))))) fun h => .ite (.ok h.readmit)
      (.ok h.setReg.setReg.fset.fset.retireEngine))

/-! ### The functions of Machine/Power.lean -/

theorem Evolves.beginStep {up : Bool} (h : Evolves r s) : Evolves r (s.beginStep up) :=
  Evolves.use h.fset fun h => .ite (.same rfl h) (.same rfl h)

theorem Evolves.pmAim (h : Evolves r s) : Evolves r (s.pmAim) :=
  h.whenNot (fun h => h.fset.fset.fset.fset.whenNot (fun h => .ite (h.when (·.beginStep)) (h.when (fun h => h.when (·.beginStep)))))

theorem Evolves.opChange {k : Nat} (h : Evolves r s) : Evolves r (s.opChange k) :=
  h.countMaskWaits.fset.raiseM

theorem Evolves.pmLag (h : Evolves r s) : Evolves r (s.pmLag) :=
  Evolves.use (h.fset.raiseTo.fset.when (.same rfl)) fun h => .ite h.bump.raiseM (h.when (·.raiseM))

theorem Evolves.capMoved {old : Nat} (h : Evolves r s) : Evolves r (s.capMoved old) :=
  .pmAim (.pmLag (h.when (.same rfl)))

theorem Keeps.capSet {watts : Nat} (h : Evolves r s) : Keeps r (execCapSet watts s) :=
  .ok (.capMoved (.raiseM (.when (.fset (.fset (.same rfl h))) (·.fset))))

theorem Keeps.capLeaseExpired (h : Evolves r s) : Keeps r (execCapLeaseExpired s) := by
  unfold execCapLeaseExpired
  split
  · exact .ok h
  · exact .ite (.ok h) (.ok (.capMoved (.raiseM (.fset (.same rfl h)))))

theorem Keeps.warnAssert {coolant : Bool} (h : Evolves r s) : Keeps r (execWarnAssert coolant s) :=
  .ite (.ok h) (.ok (.capMoved (.raiseM (.fset (.same rfl h)))))

theorem Keeps.warnClear {coolant : Bool} (h : Evolves r s) : Keeps r (execWarnClear coolant s) :=
  .ite (.ok h) (.ok (.raiseM (.same rfl h)))

theorem Keeps.warnHoldExpiry {coolant : Bool} (h : Evolves r s) : Keeps r (execWarnHoldExpiry coolant s) := by
  unfold execWarnHoldExpiry
  dsimp only
  split
  · exact .ok h
  · exact .ite (.ok h) (.ok (.capMoved (.fset (.same rfl h))))

theorem Keeps.capLoop {pmDw : Nat} (h : Evolves r s) : Keeps r (execCapLoop pmDw s) :=
  .ite (.ok h) (.ok (.pmAim (.same rfl h.fset.raiseTo.pmLag)))

theorem Keeps.phaseWindow {busy : List Nat} (h : Evolves r s) : Keeps r (execPhaseWindow busy s) :=
  .ite (.ok h) (.ok (.pmAim (.foldl (.same rfl h) (fun _ _ h => .ite (h.fset.when (·.bump.raiseM)) h.fset))))

theorem Keeps.pmStationPhase {_who : Who} {k val : Nat} (h : Evolves r s) : Keeps r (execPmStationPhase _who k val s) :=
  .ite (.ok h) (.ok (.pmAim (h.setReg.foldl (fun _ _ h => h.fset.when (·.fset)))))

theorem Keeps.opStepDone (h : Evolves r s) : Keeps r (execOpStepDone s) := by
  unfold execOpStepDone
  split
  · exact .ok h
  · exact .ite (.ok h) (.ok (.pmAim (.opChange (.fset (.same rfl h)))))

theorem Keeps.droop {cycles : Nat} (h : Evolves r s) : Keeps r (execDroop cycles s) :=
  .ite (.ok h) (.ok (.pmAim (.when (.same rfl h.bump.bump.fset) (·.raiseM))))

theorem Keeps.droopClear (h : Evolves r s) : Keeps r (execDroopClear s) :=
  .ok (.pmAim (.fset (.same rfl h)))

theorem Keeps.thermalSample {junction coolantC : Nat} (h : Evolves r s) : Keeps r (execThermalSample junction coolantC s) :=
  .ite (.ok h) (Evolves.use (h.fset.fset.raiseTo.fset.when (·.raiseM)) fun h => .ite (.ok h) (.ok (.pmAim (.raiseM (.same rfl h)))))

theorem Keeps.thermalTrip (h : Evolves r s) : Keeps r (execThermalTrip s) :=
  .ite (.ok h) (.ok (.same (by with_reducible rfl) h.reportFault))

theorem Keeps.alert (h : Evolves r s) : Keeps r (execAlert s) :=
  .ite (.ok h) (.ite (.ok h.reportFault) (.ok (.pmAim (.whenNot (.raiseM (.fset (.fset (.bump (.same rfl h))))) (·.opChange)))))

theorem Keeps.alertClear (h : Evolves r s) : Keeps r (execAlertClear s) := by
  unfold execAlertClear
  split
  · exact .ok h
  · exact .ite (.ok h) (.ok (.pmAim (.raiseM (.fset (.same rfl h)))))

/-! ### The functions of Machine/StartOps.lean -/

theorem Evolves.loseLoom (h : Evolves r s) : Evolves r (s.loseLoom) :=
  .fewer rfl h (.refl _) (List.nil_sublist _)

theorem Evolves.loseSram (h : Evolves r s) : Evolves r (s.loseSram) :=
  .fewer rfl h List.filter_sublist (.refl _)

theorem Evolves.loseDie {warm : Bool} (h : Evolves r s) : Evolves r (s.loseDie warm) :=
  .same rfl h.loseLoom.loseSram

theorem Evolves.forgetMemory (h : Evolves r s) : Evolves r (s.forgetMemory) :=
  .fewer rfl h (List.nil_sublist _) (.refl _)

theorem Evolves.drawEpochs (h : Evolves r s) : Evolves r (s.drawEpochs) :=
  h.foldl (fun _ _ h => h.fset.tickFree)

theorem Evolves.readAreas {as : List Nat} (h : Evolves r s) : Evolves r (s.readAreas as) :=
  h.bump.fset.fset

theorem Evolves.loadSettings (h : Evolves r s) : Evolves r (s.loadSettings) := by
  unfold State.loadSettings
  dsimp only
  split
  · exact .same rfl h.setReg.setReg
  · exact .same rfl h.setReg.setReg

theorem Evolves.applySettings (h : Evolves r s) : Evolves r (s.applySettings) :=
  .when (h.fset.fset.fset.fset.fset.fset.fset.setReg.setReg.whenNot (·.fset.fset)) (·.fset)

theorem Evolves.stageErase (h : Evolves r s) : Evolves r (s.stageErase) :=
  h.fset

theorem Evolves.startFlag {f : Nat × Nat} (h : Evolves r s) : Evolves r (s.startFlag f) :=
  h.fset

theorem Evolves.chooseImage {cold act : Bool} (h : Evolves r s) : Evolves r (s.chooseImage cold act) :=
  .ite (.same rfl h) (.ite (.startFlag (.same rfl h)) (.ite (.startFlag (.same rfl h))
      (Evolves.use (h.when (·.stageErase.startFlag)) fun h => .ite (.ite (.startFlag (.same rfl h)) (.same rfl h))
          (h.when (fun h => .startFlag (.same rfl h))))))

theorem Evolves.finishCopy (h : Evolves r s) : Evolves r (s.finishCopy) :=
  h.when (fun h => .stageErase (.same rfl h))

theorem Evolves.showImages (h : Evolves r s) : Evolves r (s.showImages) :=
  h.setReg

theorem Evolves.gnStart {cold : Bool} {old : Nat} (h : Evolves r s) : Evolves r (s.gnStart cold old) :=
  .same rfl (.fset (.fset (.fset (h.when (·.setReg)))))

theorem Evolves.tbStart {cold : Bool} (h : Evolves r s) : Evolves r (s.tbStart cold) :=
  .ite (.same rfl h) (.fset (.same rfl h))

theorem Evolves.pmStart {cold : Bool} (h : Evolves r s) : Evolves r (s.pmStart cold) :=
  .fset (.same rfl h)

theorem Evolves.thimbleStart {por : Bool} (h : Evolves r s) : Evolves r (s.thimbleStart por) :=
  .ite (.same rfl h) (.fset (.fset (.same rfl h)))

theorem Evolves.cfgStart {cold act : Bool} {cause : Nat} (h : Evolves r s) : Evolves r (s.cfgStart cold act cause) :=
  .when (.when (.setReg (.setReg (.same rfl h))) (·.fset)) (·.setReg)

theorem Evolves.runStart {cold : Bool} {cause : Nat} (h : Evolves r s) : Evolves r (s.runStart cold cause) := by
  unfold State.runStart
  split
  extract_lets act straps gn q aged s1 s2 s3 low pins s4 s5 s6 s7 s8
  have h0 : Evolves r aged := h.ageImages
  have h1 : Evolves r s1 := .ite (.same (by with_reducible rfl) h0) h
  have h2 : Evolves r s2 := h1.loseDie.tbStart
  have h3 : Evolves r s3 := .ite h2.forgetMemory.setReg (.same (by with_reducible rfl) h2)
  have h4 : Evolves r s4 := .tickFree (.same (by with_reducible rfl) h3)
  have h6 : Evolves r s6 := h4.fset.pmStart.thimbleStart.cfgStart
  have h8 : Evolves r s8 := .applySettings (.loadSettings (.chooseImage (.gnStart h6.readAreas)))
  exact h8.when (.same (by with_reducible rfl))

theorem Evolves.beginStart {cold : Bool} {cause : Nat} (h : Evolves r s) : Evolves r (s.beginStart cold cause) :=
  h.whenNot (·.runStart)

theorem Evolves.beginStartOn {areas : List (Nat × Nat)} {cold : Bool} {cause : Nat} (h : Evolves r s) : Evolves r
    (s.beginStartOn areas cold cause) :=
  h.whenNot (fun h => .runStart (.same rfl h))

/-! ### The functions of Machine/Start.lean -/

theorem Keeps.warmReq {q : StartReq} (h : Evolves r s) : Keeps r (execWarmReq q s) :=
  .ok (h.when (·.beginStartOn))

theorem Keeps.coldReq {q : StartReq} (h : Evolves r s) : Keeps r (execColdReq q s) :=
  .ok (h.when (·.beginStartOn))

theorem Keeps.confirm {who : Who} (h : Evolves r s) : Keeps r (execConfirm who s) :=
  .ite (.ok (.fset (.same rfl h))) (.ok h)

theorem Keeps.reset {cold : Bool} (h : Evolves r s) : Keeps r (execReset cold s) :=
  .ok h.beginStart

theorem Keeps.activation (h : Evolves r s) : Keeps r (execActivation s) :=
  .ite (.ok h.beginStart) (.ok h)

theorem Keeps.trialTimeout (h : Evolves r s) : Keeps r (execTrialTimeout s) :=
  .ite (.ok h.beginStart) (.ok h)

theorem Evolves.keepRetired (h : Evolves r s) : Evolves r (s.keepRetired) :=
  h.foldl (fun _ _ h => h.setReg.fset.remapFrom)

theorem Evolves.lodesReady (h : Evolves r s) : Evolves r (s.lodesReady) := by
  unfold State.lodesReady
  exact .same (by with_reducible rfl) (.foldl (h.foldl (fun _ _ h => h.fset.fset)) (fun _ _ h => h.fset))

theorem Evolves.serveAgain (h : Evolves r s) : Evolves r (s.serveAgain) :=
  Evolves.use (.foldl (.same rfl h) (fun _ _ h => h.resend)) fun h => .ite (h.whenNot (·.toWaiting)) h.acceptHeld

theorem Keeps.startComplete (h : Evolves r s) : Keeps r (execStartComplete s) :=
  .ite (.ok h) (Evolves.use (.freeDue (.same rfl h)) fun h => .ite (.ok h) (Evolves.use
      (.same rfl (.setReg (.showImages (.finishCopy (h.when (·.tickFree)))))) fun h => .ite (.ok h)
          (.ok (.pmAim (.startFlag (.serveAgain (.faultSummary (.keepRetired (.lodesReady
              (.whenNot (h.when (·.drawEpochs)) (.same rfl)))))))))))

theorem Keeps.powerOnReset (h : Evolves r s) : Keeps r (execPowerOnReset s) :=
  .ok (.runStart (.tickFree (.same rfl h)))

theorem Evolves.cutCopy (h : Evolves r s) : Evolves r (s.cutCopy) :=
  h.when (fun h => Evolves.use h.tickFree fun h => .ite (.same rfl h) (h.whenNot (fun h => .ite (.same rfl h) h.finishCopy)))

theorem Keeps.vin54Loss (h : Evolves r s) : Keeps r (execVin54Loss s) :=
  .ok (.same rfl h.cutCopy)

/-! ### The functions of Machine/Debug.lean -/

theorem Evolves.zeroCounters {st : Nat} (h : Evolves r s) : Evolves r (s.zeroCounters st) :=
  h.foldl (fun _ _ h => h.setReg)

theorem Keeps.clear {who : Who} {st : Nat} (h : Evolves r s) : Keeps r (execClear who st s) :=
  .ite (.ok h.zeroCounters) (.ok h)

theorem Evolves.sampleBlock {st : Nat} (h : Evolves r s) : Evolves r (s.sampleBlock st) := by
  unfold State.sampleBlock
  split
  · exact h
  · exact h.whenNot (fun h => .ite h.bump h.writeBytes.fset)

theorem Keeps.sampleTick (h : Evolves r s) : Keeps r (execSampleTick s) :=
  .ite (.ok (.same rfl (h.foldl (fun _ _ h => h.sampleBlock)))) (.ok h)

theorem Keeps.dbgTrcMark {who : Who} {st val : Nat} (h : Evolves r s) : Keeps r (execDbgTrcMark who st val s) := by
  unfold execDbgTrcMark
  split
  · exact .ok h
  · exact .ite (.ok h.tracePut) (.ok h)

theorem Evolves.drainOne {st : Nat} (h : Evolves r s) : Evolves r (s.drainOne st) := by
  unfold State.drainOne
  dsimp only
  split
  · exact h
  · exact .same (by with_reducible rfl) h.writeBytes.fset

theorem Keeps.traceDrain {st n : Nat} (h : Evolves r s) : Keeps r (execTraceDrain st n s) :=
  .ite (.ok h) (Evolves.use (h.foldl (fun _ _ h => h.drainOne)) fun h => .ite (.ok (.same rfl h)) (.ok h))

theorem Evolves.wdRestart {w : Nat} (h : Evolves r s) : Evolves r (s.wdRestart w) :=
  .same rfl h

theorem Keeps.dbgWdKick {who : Who} {w : Nat} (h : Evolves r s) : Keeps r (execDbgWdKick who w s) := by
  unfold execDbgWdKick
  refine .ite (.ok h) ?_
  split
  · exact .ite (.ok h) (.ok h.wdRestart)
  · exact .ite (.ok h) (Evolves.use (h.whenNot (.same rfl)) fun h => .ite (.ok h.wdRestart) (.ok h))

theorem Keeps.wdWarn {w : Nat} (h : Evolves r s) : Keeps r (execWdWarn w s) :=
  .ite (.ok (.emit (.raiseM (.same rfl h.setReg)))) (.ok h)

theorem Keeps.watchdogExpiry {w : Nat} (h : Evolves r s) : Keeps r (execWatchdogExpiry w s) :=
  .ite (.ok h) (Evolves.use (.when (.reportFault (.same rfl (h.setReg.when (·.fset)))) (·.wdRestart)) fun h => .ite (.ok h.beginStart)
      (.ok h))

theorem Keeps.dumpReq {who : Who} (h : Evolves r s) : Keeps r (execDumpReq who s) :=
  .ite (.ok h.enterSafe) (.ok h)

theorem Keeps.dump (h : Evolves r s) : Keeps r (execDump s) :=
  .ite (.ok h.enterSafe) (.ok h)

theorem Keeps.stopTick (h : Evolves r s) : Keeps r (execStopTick s) := by
  unfold execStopTick
  split
  · exact .ok h
  · exact .ite (.ok h) (Evolves.use (.same rfl h) fun h => .ite (.ok h.fset) (.ok h.fset))

/-! ### The functions of Machine/Memory.lean -/

theorem Evolves.busAnswer {err : Bool} {bs : List Byte} (h : Evolves r s) : Evolves r (s.busAnswer err bs) :=
  .same rfl h

theorem Evolves.readError {q : MemReq} {part : Option Nat} (h : Evolves r s) : Evolves r (s.readError q part) := by
  unfold State.readError
  split
  · exact h.readFault.busAnswer
  · exact h.logUncorrected.busAnswer

theorem Evolves.abandon {q : MemReq} (h : Evolves r s) : Evolves r (s.abandon q) := by
  unfold State.abandon
  split
  · exact h.finish.busAnswer
  · exact h.busAnswer

theorem Evolves.serveRead {q : MemReq} {c : Nat} {part : Option Nat} {obs : MemObs} (h : Evolves r s) : Evolves r
    (s.serveRead q c part obs) :=
  Evolves.use h.observe.fst fun h => .ite h.abandon (.ite h.readError h.countMem.memLinks.busAnswer)

theorem Evolves.serveWrite {q : MemReq} {c : Nat} {part : Option Nat} {data : List Byte} {obs : MemObs} (h : Evolves r s) : Evolves r
    (s.serveWrite q c part data obs) := by
  unfold State.serveWrite
  dsimp only
  split
  · exact h.countMem.memLinks.storeBytes.busAnswer
  · split
    · exact h.observe.fst.abandon
    · exact h.observe.fst.storeMisread.countMem.memLinks.storeBytes.busAnswer
    · exact h.observe.fst.countMem.memLinks.storeBytes.busAnswer

theorem Evolves.readStore {q : MemReq} (h : Evolves r s) : Evolves r (s.readStore q) :=
  h.busAnswer.tickFree

theorem Evolves.memDrop {q : MemReq} {p : Nat} {write : Bool} (h : Evolves r s) : Evolves r (s.memDrop q p write) :=
  h.tagDrop.busAnswer

theorem Evolves.readAt {q : MemReq} {c : Nat} {obs : MemObs} (h : Evolves r s) : Evolves r (s.readAt q c obs) := by
  unfold State.readAt
  split
  · exact .ite h.serveRead h.memDrop
  · exact .ite h.bump.busAnswer h.serveRead

theorem Evolves.writeAt {q : MemReq} {c : Nat} {data : List Byte} {obs : MemObs} (h : Evolves r s) : Evolves r (s.writeAt q c data obs)
    := by
  unfold State.writeAt
  split
  · exact .ite h.serveWrite h.memDrop
  · exact h.serveWrite

theorem Keeps.memAccess {req : MemReq} {data : Option (List Byte)} {obs : MemObs} (h : Evolves r s) : Keeps r (memAccess req data obs s)
    := by
  unfold Sys2Proof.Machine.memAccess
  refine .ite (.ok h) (.ite (.ok (.ite h.readStore h.busAnswer)) (.ite ?_ (.ite (.ok h) (.ite (.ok (.same rfl h)) ?_))))
  · split
    · exact .ok h.memDrop
    · exact .fault
  · split
    · exact .ok h.readAt
    · exact .ok h.writeAt

theorem Keeps.memoryRead {req : MemReq} {obs : MemObs} (h : Evolves r s) : Keeps r (execMemoryRead req obs s) :=
  .memAccess h

theorem Keeps.memoryWrite {req : MemReq} {data : List Byte} {obs : MemObs} (h : Evolves r s) : Keeps r (execMemoryWrite req data obs s) :=
  .memAccess h

theorem Evolves.notePpr {u line : Nat} (h : Evolves r s) : Evolves r (s.notePpr u line) :=
  h.whenNot (fun h => .when (.same rfl h) (·.fset))

theorem Evolves.passEnd {u : Nat} (h : Evolves r s) : Evolves r (s.passEnd u) :=
  .same rfl h

theorem Evolves.scrubNext {u : Nat} (h : Evolves r s) : Evolves r (s.scrubNext u) :=
  h.setReg.fset.when (fun h => .same rfl h.passEnd)

theorem Keeps.lodeScrub {unit : Nat} {obs : MemObs} (h : Evolves r s) : Keeps r (execLodeScrub unit obs s) := by
  unfold execLodeScrub
  dsimp only
  refine .ite (.ok h) (.ite (.ok h) (.ok (.scrubNext ?_)))
  generalize scrubAddr unit _ = c
  have hs : Evolves r (s.observe c obs).1 := h.observe.fst
  generalize s.observe c obs = u at hs ⊢
  refine .ite hs (.ite hs.logUncorrected (.ite hs.storeMisread ?_))
  split
  · exact hs.notePpr
  · exact hs

theorem Keeps.lodeCal {lode : Nat} (h : Evolves r s) : Keeps r (execLodeCal lode s) :=
  .ite (.ok (.same rfl h.raiseM)) (.ok h)

theorem Evolves.zeroBlocks {ks : List Nat} (h : Evolves r s) : Evolves r (s.zeroBlocks ks) :=
  .fewer rfl h List.filter_sublist (.refl _)

theorem Evolves.regionChange (h : Evolves r t) : Evolves r (s.regionChange t) := by
  unfold State.regionChange
  exact Evolves.whenNot h.zeroBlocks fun h => .fset (.same (by with_reducible rfl) h)

theorem Keeps.memRegionWrite {who : Who} {n : Nat} {limit : Bool} {val : Nat} (h : Evolves r s) :
    Keeps r (execMemRegionWrite who n limit val s) := by
  unfold execMemRegionWrite
  exact .ite (.ok h) (.ite (.ok h.fset) (.ok (.regionChange h.setReg.setReg)))

theorem Evolves.resumeAccess {w : MemReq × Option (List Byte) × MemObs} (h : Evolves r s) : Evolves r (s.resumeAccess w) := by
  unfold State.resumeAccess
  split
  · next e => exact Keeps.memAccess h _ e
  · exact h

theorem Keeps.cmClearDone (h : Evolves r s) : Keeps r (execCmClearDone s) :=
  .ite (.ok h) (.ok (.foldl (.fset (.same rfl h)) (fun _ _ h => h.resumeAccess)))

theorem Keeps.memPartKey {who : Who} {p val : Nat} (h : Evolves r s) : Keeps r (execMemPartKey who p val s) :=
  .ite (.ok h) (.ite (.ok h.fset) (.ite (.ok h) (.ok (h.setReg.when (·.fset)))))

theorem Evolves.retireSlot {k : Nat} (h : Evolves r s) : Evolves r (s.retireSlot k) :=
  h.whenNot (·.fset.fset)

theorem Keeps.retire {who : Who} {k : Nat} (h : Evolves r s) : Keeps r (execRetire who k s) :=
  .ite (.ok h.retireSlot) (.ok h)

/-! ### The functions of Machine/Ledger.lean -/

theorem Keeps.kvop {slot : Nat} (h : Evolves r s) : Keeps r (execKvop slot s) :=
  .ite (.listStep h (fun _ _ _ h => h.lop)) (.ok h)

theorem Keeps.ledgerRow {op : Nat} {f : State → Nat → OpRec → State × Nat × Bool} {part : Nat} {q : OpRec} {res : Nat} (h : Evolves r s)
    (hf : ∀ u x y, Evolves r u → Yields r (f u x y)) : Keeps r (ledgerRow op f part q res s) := by
  unfold Sys2Proof.Machine.ledgerRow
  refine .ite ?_ (.ok h)
  split
  · exact .ok h.logUncorrected
  · exact .opRow h hf

theorem Keeps.seqOpen {part : Nat} {q : OpRec} {res : Nat} (h : Evolves r s) : Keeps r (execSeqOpen part q res s) :=
  .ledgerRow h (fun _ _ _ h => h.lopSeqOpen)

theorem Keeps.seqClose {part : Nat} {q : OpRec} {res : Nat} (h : Evolves r s) : Keeps r (execSeqClose part q res s) :=
  .ledgerRow h (fun _ _ _ h => h.lopSeqClose)

theorem Keeps.share {part : Nat} {q : OpRec} {res : Nat} (h : Evolves r s) : Keeps r (execShare part q res s) :=
  .ledgerRow h (fun _ _ _ h => h.lopShare)

theorem Keeps.drop {part : Nat} {q : OpRec} {res : Nat} (h : Evolves r s) : Keeps r (execDrop part q res s) :=
  .ledgerRow h (fun _ _ _ h => h.lopDrop)

theorem Keeps.cow {part : Nat} {q : OpRec} {res : Nat} (h : Evolves r s) : Keeps r (execCow part q res s) :=
  .ledgerRow h (fun _ _ _ h => h.lopCow)

theorem Keeps.pin {part : Nat} {q : OpRec} {res : Nat} (h : Evolves r s) : Keeps r (execPin part q res s) :=
  .ledgerRow h (fun _ _ _ h => h.lopPin)

theorem Keeps.unpin {part : Nat} {q : OpRec} {res : Nat} (h : Evolves r s) : Keeps r (execUnpin part q res s) :=
  .ledgerRow h (fun _ _ _ h => h.lopUnpin)

theorem Keeps.resolve {part : Nat} {q : OpRec} {res : Nat} (h : Evolves r s) : Keeps r (execResolve part q res s) :=
  .ledgerRow h (fun _ _ _ h => h.lopResolve)

theorem Keeps.tick {part : Nat} {q : OpRec} {res : Nat} (h : Evolves r s) : Keeps r (execTick part q res s) :=
  .ledgerRow h (fun _ _ _ h => h.lopTick)

theorem Keeps.noevict {part : Nat} {q : OpRec} {res : Nat} (h : Evolves r s) : Keeps r (execNoevict part q res s) :=
  .ledgerRow h (fun _ _ _ h => h.lopNoevict)

theorem Keeps.kvopQuery {part : Nat} {q : OpRec} {res : Nat} (h : Evolves r s) : Keeps r (execKvopQuery part q res s) :=
  .ledgerRow h (fun _ _ _ h => h.lopQuery)

theorem Keeps.alloc {part : Nat} {q : OpRec} {res : Nat} (h : Evolves r s) : Keeps r (execAlloc part q res s) :=
  .ledgerRow h (fun _ _ _ h => h.lopAlloc)

theorem Keeps.decref {part : Nat} {q : OpRec} {res : Nat} (h : Evolves r s) : Keeps r (execDecref part q res s) :=
  .ledgerRow h (fun _ _ _ h => h.lopDecref)

theorem Keeps.flush {seq layer : Nat} (h : Evolves r s) : Keeps r (execFlush seq layer s) := by
  unfold execFlush
  refine .ite ?_ (.ok h)
  split
  · exact .ok h
  · split
    · exact .ok h.logUncorrected
    · exact .ok h.flushPage.runDue.runPair

theorem Keeps.ledgerClassValid {who : Who} {n val : Nat} (h : Evolves r s) : Keeps r (execLedgerClassValid who n val s) :=
  .ite (.ok h) (.ite (.ok h.fset) (Evolves.use h.setReg fun h => .ite (.ok (.same rfl
      (.fset (.fset (h.foldl (fun _ _ h => h.storeBytes)))))) (.ok h)))

theorem Keeps.classInitDone {n : Nat} (h : Evolves r s) : Keeps r (execClassInitDone n s) :=
  .ok (.same rfl h)

/-! ### The functions of Machine/Line.lean -/

theorem Evolves.raiseLine {ty payload ts : Nat} (h : Evolves r s) : Evolves r (s.raiseLine ty payload ts) :=
  .ite h.bump h.raiseAt

theorem Evolves.markVerdict {tag : Nat} (h : Evolves r s) : Evolves r (s.markVerdict tag) :=
  .ite h.fset h.fset

theorem Keeps.strobe {tag : Nat} {tagValid : Bool} {edge : Nat} (h : Evolves r s) : Keeps r (execStrobe tag tagValid edge s) :=
  .ite (.ok h) (Evolves.use (.same rfl h) fun h => .ite (.ok h.bump) (Evolves.use (h.whenNot (·.bump)) fun h => .ite (.ok (.same rfl h))
      (Evolves.use (.setReg (.bump (.same rfl h))) fun h => .ite (.ok (h.markVerdict.when (·.pairSend)))
          (.ok (h.bump.when (·.raiseLine))))))

theorem Keeps.tagAnnouncement {tag : Nat} (h : Evolves r s) : Keeps r (execTagAnnouncement tag s) :=
  .ite (.ok h.raiseLine) (.ok h)

theorem Evolves.commitVerdict {tag val : Nat} (h : Evolves r s) : Evolves r (s.commitVerdict tag val) := by
  unfold State.commitVerdict
  refine .ite h.setReg ?_
  dsimp only
  split
  · exact .same rfl h.setReg
  · exact .markVerdict (.same rfl h.setReg)

theorem Keeps.verdictWrite {part tag val : Nat} (h : Evolves r s) : Keeps r (execVerdictWrite part tag val s) :=
  Evolves.use (.same rfl h) fun h => .ite (.ok h) (.ite (.ok h.commitVerdict) (.ok h.tagDrop))

theorem Keeps.pendingEntryDiscard (h : Evolves r s) : Keeps r (execPendingEntryDiscard s) :=
  .ok (.same rfl h)

theorem Keeps.trigEdge {input : Nat} {rising : Bool} {ts : Nat} (h : Evolves r s) : Keeps r (execTrigEdge input rising ts s) :=
  .ite (.ok (.same rfl h)) (.ok h)

theorem Keeps.trigAccept {input : Nat} (h : Evolves r s) : Keeps r (execTrigAccept input s) := by
  unfold execTrigAccept
  dsimp only
  split
  · exact .ok h
  · exact .ite (.ok h) (.ite (.ok (.bump (.same rfl h))) (Evolves.use (.same rfl h) fun h => Evolves.use (.ite (.same rfl h) h.bump)
      fun h => .ite (.ok (h.raiseLine.when (·.dozeWake))) (.ok h)))

theorem Keeps.lineTrigPop {who : Who} (h : Evolves r s) : Keeps r (execLineTrigPop who s) := by
  unfold execLineTrigPop
  refine .ite ?_ (.ok h.answer)
  split
  · exact .ok h.answer
  · exact .ok (.answer (.same rfl h))

/-! ### The functions of Machine/Net.lean -/

theorem Keeps.frameReceive {port : Nat} {f : EthFrame} (h : Evolves r s) : Keeps r (execFrameReceive port f s) :=
  .ite (.ok h) (Evolves.use (h.when (·.gcount)) fun h => .ite (.ok (h.when (·.bump)))
      (.ite (.ok h.bump) (.ite (.ok h.bump) (.ok (.when (.when (.same rfl h) (·.raiseTo)) (·.dozeWake))))))

theorem Evolves.police {port k : Nat} {f : EthFrame} (h : Evolves r s) : Yields r (s.police port k f) :=
  Evolves.use h.bump fun h' => .ite (.mk h') (.ite (.mk h) (.ite (.mk (.same rfl h)) (.mk (.same rfl h'))))

theorem Evolves.ringWrite {port k arrival : Nat} {bs : List Byte} (h : Evolves r s) : Evolves r (s.ringWrite port k arrival bs) := by
  unfold State.ringWrite
  dsimp only
  split
  · exact h.bump
  · exact .ite h.bump h.storeBytes.storeBytes.setChan.bump

theorem Evolves.toEndpoint {port : Nat} {f : CtlFrame} (h : Evolves r s) : Evolves r (s.toEndpoint port f) :=
  .ite (h.onSession (fun _ _ h => h.respond)) (.same rfl h)

theorem Evolves.reassemble {id total idx : Nat} {f : CtlFrame} (h : Evolves r s) : Evolves r (s.reassemble id total idx f) := by
  unfold State.reassemble
  split
  · exact h.whenNot (fun h => .ite h.toEndpoint (h.whenNot (.same rfl)))
  · exact .ite (.toEndpoint (.same rfl h)) (.same rfl h)

theorem Evolves.ptpStamp {port arrival : Nat} (h : Evolves r s) : Evolves r (s.ptpStamp port arrival) :=
  .tickFree (.same rfl h)

theorem Evolves.deliver {port arrival : Nat} {f : EthFrame} (h : Evolves r s) : Evolves r (s.deliver port arrival f) := by
  unfold State.deliver
  dsimp only
  split
  · exact .ite h.ptpStamp h.bump
  · exact h.bump
  · exact .ite h.toEndpoint h.bump
  · exact .ite h.reassemble h.bump
  · exact .ite h.bump h.bump
  · exact .ite (.same rfl h) h.bump
  · exact .ite (.same rfl h) h.bump
  · split
    · exact h.ringWrite
    · exact h.bump
  · exact h.bump

theorem Keeps.classify {port shuttle : Nat} (h : Evolves r s) : Keeps r (execClassify port shuttle s) := by
  unfold execClassify
  extract_lets key
  split
  · exact .ok h
  · refine .ite (.ok h) ?_
    extract_lets u f
    have h : Evolves r u := .same rfl h
    split
    next v pass e =>
    have hv : Evolves r v := by
      split at e
      · exact (e ▸ h.police : Yields r (v, pass)).fst
      · cases e
        exact h
    refine .ite (.ok hv) ?_
    split
    · split
      · exact .ok (.deliver (.same rfl hv))
      · exact .ok hv
    · exact .ok hv.deliver

theorem Keeps.reassemblyTimeout {id : Nat} (h : Evolves r s) : Keeps r (execReassemblyTimeout id s) := by
  unfold execReassemblyTimeout
  split
  · exact .ite (.ok (.same rfl h)) (.ok h)
  · exact .ok h

/-! ### The functions of Machine/Pair.lean -/

theorem Evolves.onPair {j type : Nat} {f : WarpFrame} {act : State → State} (h : Evolves r s)
    (hact : ∀ u, Evolves r u → Evolves r (act u)) : Evolves r (onPair s j type f act) :=
  h.onFrame (fun _ h => h.when (fun h => hact _ h))

theorem Keeps.lease {j : Nat} {f : WarpFrame} {q : LeaseRec} (h : Evolves r s) : Keeps r (execLease j f q s) :=
  .ok (h.onPair (fun _ h => h.gotLease))

theorem Keeps.pairLease {port : Nat} {hd : CtlHdr} {b : PairLeaseBody} (h : Evolves r s) : Keeps r (execPairLease port hd b s) :=
  Evolves.use h.takeInbox fun h => .ite (.ok h.gotPairLease) (.ok h)

theorem Keeps.journal {j : Nat} {f : WarpFrame} {num : Nat} {ws : List JournalWrite} (h : Evolves r s) : Keeps r
    (execJournal j f num ws s) :=
  .ok (h.onPair (fun _ h => h.when (fun h => .runPair (.pairSend (.same rfl (h.foldl (fun _ _ h => h.applyWrite)))))))

theorem Keeps.journalConfirm {j : Nat} {f : WarpFrame} {num : Nat} (h : Evolves r s) : Keeps r (execJournalConfirm j f num s) :=
  .ok (h.onPair (fun _ h => h.when (fun h => .releaseHeld (.acceptHeld (.same rfl h)))))

theorem Evolves.setLag {lagUs : Nat} (h : Evolves r s) : Evolves r (s.setLag lagUs) :=
  h.fset.raiseTo.when (·.leaveStandby)

theorem Keeps.decision {j : Nat} {f : WarpFrame} {num lagUs : Nat} {outs : List Outcome2} (h : Evolves r s) : Keeps r
    (execDecision j f num lagUs outs s) :=
  .ok (h.onPair (fun _ h => h.when (fun h => .setLag (.runPair (.pairSend (.same rfl h))))))

theorem Keeps.decisionConfirm {j : Nat} {f : WarpFrame} {num : Nat} (h : Evolves r s) : Keeps r (execDecisionConfirm j f num s) :=
  .ok (h.onPair (fun _ h => h.when (fun h => .trySwap (.releaseHeld (.same rfl h)))))

theorem Keeps.pktFetch {j : Nat} {f : WarpFrame} {vd chan : Nat} {seqs : List Nat} (h : Evolves r s) : Keeps r
    (execPktFetch j f vd chan seqs s) :=
  .ok (h.onPair (fun _ h => h.when (fun h => h.foldl (fun _ _ h => h.pairSend))))

theorem Keeps.pktData {j : Nat} {f : WarpFrame} {vd chan seq : Nat} {pkt : Option Pkt} (h : Evolves r s) : Keeps r
    (execPktData j f vd chan seq pkt s) := by
  unfold execPktData
  refine .ok (h.onPair (fun _ h => .ite h ?_))
  split
  · exact .foldl (.same rfl (.same rfl h.setChan)) (fun _ _ h => h.closeNamed)
  · exact h.leaveStandby

theorem Keeps.joinData {j : Nat} {f : WarpFrame} {item : JoinItem} (h : Evolves r s) : Keeps r (execJoinData j f item s) :=
  .ok (h.onPair (fun _ h => h.when (·.takeItem)))

theorem Keeps.joinCtl {j : Nat} {f : WarpFrame} {phase digest major : Nat} (h : Evolves r s) : Keeps r
    (execJoinCtl j f phase digest major s) :=
  .ok (h.onPair (fun _ h => .ite h.followJoin (h.when (·.serveJoin))))

theorem Keeps.swap {j : Nat} {f : WarpFrame} {epoch : Nat} (h : Evolves r s) : Keeps r (execSwap j f epoch s) :=
  .ok (h.onPair (fun _ h => h.when (fun h => .takeLease (.same rfl h))))

theorem Evolves.applyRead {e : LineReadEntry} (h : Evolves r s) : Evolves r (s.applyRead e) :=
  .ite (.ite h.fset h.fset) (.same rfl h)

theorem Keeps.lineRead {j : Nat} {f : WarpFrame} {es : List LineReadEntry} (h : Evolves r s) : Keeps r (execLineRead j f es s) :=
  .ok (h.onPair (fun _ h => h.whenNot (fun h => h.foldl (fun _ _ h => h.applyRead))))

theorem Keeps.leaseRenewal (h : Evolves r s) : Keeps r (execLeaseRenewal s) :=
  .ite (Evolves.use (.same rfl h) fun h => .ite (.ok (.when (.sendLease (.same rfl h)) (·.sendJoinCtl))) (.ok h.bump.raiseM)) (.ok h)

theorem Keeps.leaseExpiry (h : Evolves r s) : Keeps r (execLeaseExpiry s) :=
  .ite (.ok (.releaseHeld (.raiseM (.same rfl h.toWaiting)))) (.ok h)

theorem Keeps.leaseLapse (h : Evolves r s) : Keeps r (execLeaseLapse s) :=
  .ite (.ok h.dropJoin.toWaiting) (.ite (.ok h.takeLease) (.ok h))

theorem Keeps.releaseTakeover (h : Evolves r s) : Keeps r (execReleaseTakeover s) := by
  unfold execReleaseTakeover
  split
  · exact .ite (.ok h.takeLease) (.ok h)
  · exact .ok h

theorem Keeps.leaseWaitTimeout (h : Evolves r s) : Keeps r (execLeaseWaitTimeout s) :=
  .ite (.ite (.ok h.takeLease) (.ok (h.when (·.toWaiting)))) (.ok h)

theorem Keeps.pairHeartbeat {_who : Who} (h : Evolves r s) : Keeps r (execPairHeartbeat _who s) :=
  .ok (.same rfl h)

theorem Keeps.swapReq {who : Who} (h : Evolves r s) : Keeps r (execSwapReq who s) :=
  .ite (.ok h.beginSwap) (.ok h)

theorem Keeps.swapAt (h : Evolves r s) : Keeps r (execSwapAt s) :=
  .ite (.ok (.whenNot (h.whenNot (·.setReg)) (·.beginSwap))) (.ok h)

/-! ### The functions of Machine/Video.lean -/

theorem Evolves.vopOpen {vd part : Nat} {q : OpRec} (h : Evolves r s) : Yields r (vopOpen vd s part q) := by
  unfold Sys2Proof.Machine.vopOpen
  split
  · exact h.opFail
  · exact .ite h.opFail (.ite h.opFail (.ite h.opFail h.setChan.opOk))

theorem Evolves.dropFlows {c : VChan} (h : Evolves r s) : Evolves r (s.dropFlows c) :=
  h.whenNot (fun h => h.foldl (fun _ _ h => h.when (·.fset)))

theorem Evolves.closeChan {c : VChan} (h : Evolves r s) : Evolves r (s.closeChan c) :=
  .dropFlows (.same rfl h)

theorem Evolves.opOwned {vd part : Nat} {q : OpRec} {f : VChan → State × Nat × Bool} (h : Evolves r s) (hf : ∀ x, Yields r (f x)) :
    Yields r (opOwned vd s part q f) := by
  unfold Sys2Proof.Machine.opOwned
  split
  · exact h.opFail
  · split
    · exact h.opFail
    · exact .ite (hf _) h.opFail

theorem Evolves.vopClose {vd part : Nat} {q : OpRec} (h : Evolves r s) : Yields r (vopClose vd s part q) :=
  h.opOwned (fun _ => .ite h.opFail h.closeChan.opOk)

theorem Evolves.vopKeypic {vd part : Nat} {q : OpRec} (h : Evolves r s) : Yields r (vopKeypic vd s part q) :=
  h.opOwned (fun _ => .ite h.raiseP.opOk h.opFail)

theorem Evolves.vopQuery {vd part : Nat} {q : OpRec} (h : Evolves r s) : Yields r (vopQuery vd s part q) := by
  unfold Sys2Proof.Machine.vopQuery
  split
  · exact h.opFail
  · split
    · exact .mk h
    · exact .ite h.opFail (.mk h)

theorem Evolves.vop {vd part : Nat} {q : OpRec} (h : Evolves r s) : Yields r (vop vd s part q) := by
  unfold Sys2Proof.Machine.vop
  split
  · exact h.vopOpen
  · exact h.vopClose
  · exact h.vopKeypic
  · exact h.vopQuery
  · exact h.opFail

theorem Keeps.vchan {slot : Nat} (h : Evolves r s) : Keeps r (execVchan slot s) :=
  .listStep h (fun _ _ _ h => h.vop)

theorem Keeps.vchanOpen {vd part : Nat} {q : OpRec} {res : Nat} (h : Evolves r s) : Keeps r (execVchanOpen vd part q res s) :=
  .opRow h (fun _ _ _ h => h.vopOpen)

theorem Keeps.vchanClose {vd part : Nat} {q : OpRec} {res : Nat} (h : Evolves r s) : Keeps r (execVchanClose vd part q res s) :=
  .opRow h (fun _ _ _ h => h.vopClose)

theorem Keeps.keypic {vd part : Nat} {q : OpRec} {res : Nat} (h : Evolves r s) : Keeps r (execKeypic vd part q res s) :=
  .opRow h (fun _ _ _ h => h.vopKeypic)

theorem Keeps.vchanQuery {vd part : Nat} {q : OpRec} {res : Nat} (h : Evolves r s) : Keeps r (execVchanQuery vd part q res s) :=
  .opRow h (fun _ _ _ h => h.vopQuery)

theorem Keeps.packetTake {vd chan : Nat} (h : Evolves r s) : Keeps r (execPacketTake vd chan s) := by
  unfold execPacketTake
  split
  · exact .ok h
  · refine .ite (.ok h) (.ite ?_ (.ok h.storeBytes.setChan.addPacket))
    split
    · exact .ok h.readFault
    · exact .ok h.logUncorrected

theorem Keeps.pictureComplete {vd chan : Nat} (h : Evolves r s) : Keeps r (execPictureComplete vd chan s) := by
  unfold execPictureComplete
  split
  · exact .ok h
  · split
    · exact .ok h
    · exact .ite (.ok h) (Evolves.use h.closePicture fun h => .ite (.ok (.recordDecision (.same rfl h))) (.ok h))

theorem Evolves.fwReport {vd : Nat} (h : Evolves r s) : Evolves r (s.fwReport vd) :=
  h.setReg.pinReport

theorem Keeps.fwTimeout {vd chan : Nat} (h : Evolves r s) : Keeps r (execFwTimeout vd chan s) := by
  unfold execFwTimeout
  split
  · exact .ok h
  · refine .ite (.ite (.ok h.setChan.fwReport) (.ok h)) ?_
    split
    · exact .ok h
    · exact .ite (.ok h.setChan.tickFree.fwReport) (.ok h)

theorem Evolves.storeRefs {c : VChan} {bs : List Byte} (h : Evolves r s) : Evolves r (s.storeRefs c bs) :=
  h.when (·.storeFree)

theorem Evolves.decodeNext {c : VChan} (h : Evolves r s) : Evolves r (s.decodeNext c) := by
  unfold State.decodeNext
  split
  · exact h
  · exact .ite h.setChan (.ite h.setChan h.setChan.storeRefs)

theorem Keeps.vdec {slot : Nat} (h : Evolves r s) : Keeps r (execVdec slot s) := by
  unfold execVdec
  split
  · exact .ok h
  · dsimp only
    split
    · exact .ok h.finish
    · exact .ite (.ok h.finish) (.ite (.ok h.finish) (.ite (.ok h.decodeNext) (.ite (.ok h)
        (Evolves.use (h.updCmd.when (·.formTile)) fun h => .ite (.ok h.settle) (Evolves.use
            (.updCmd (.bump (.bump (.bump (.setChan (h.when (·.formTile))))))) fun h => .ok (.ite h.reach h.settle))))))

theorem Evolves.setVenc {tc : Tracked} {c : VChan} (h : Evolves r s) : Evolves r (s.setVenc tc c) :=
  .ite h.updCmd h.setChan

theorem Evolves.vencBegin {tc : Tracked} {c : VChan} (h : Evolves r s) : Evolves r (s.vencBegin tc c) := by
  unfold State.vencBegin
  dsimp only
  split
  · exact h.updCmd.setVenc
  · exact .ite h.updCmd.setVenc h.updCmd.setVenc.raiseP

theorem Evolves.vencSlice {tc : Tracked} {c : VChan} {idr : Bool} {slice r0 r1 : Nat} {miss picEnd final : Bool} (h : Evolves r s) :
    Yields r (s.vencSlice tc c idr slice r0 r1 miss picEnd final) :=
  .mk (h.foldl (fun _ _ h => h.formTile))

theorem Evolves.vencPicture {tc : Tracked} {c : VChan} {idr final : Bool} (h : Evolves r s) : Evolves r (s.vencPicture tc c idr final) :=
  .updCmd (.whenNot (.when (.setVenc (.when (h.when (·.formTile)) (·.bump))) (.same rfl)) (·.storeRefs))

theorem Evolves.vencTile {tc : Tracked} {c : VChan} {x : Tile} (h : Evolves r s) : Evolves r (s.vencTile tc c x) :=
  Evolves.use h.takeTile.releaseTo.updCmd fun h => .ite h.setVenc (Evolves.use h.vencSlice.fst fun h => .ite h.setVenc.settle
      (Evolves.use h.vencPicture fun h => .ite h.reach h.settle))

theorem Keeps.venc {slot : Nat} (h : Evolves r s) : Keeps r (execVenc slot s) := by
  unfold execVenc
  split
  · exact .ok h
  · split
    · exact .ok h.finish
    · split
      · exact .ok h.upstreamEnd
      · exact .ite (.ok h.vencBegin) (.ite (.ok h) (.ite (.ok h.finish) (.ok h.vencTile)))

theorem Evolves.videoEnded {c : Tracked} (h : Evolves r s) : Evolves r (s.videoEnded c) := by
  unfold State.videoEnded
  split
  · exact h
  · exact h.setChan

/-! ### The functions of Machine/Events.lean -/

theorem Evolves.putRecord {c : Tracked} {q : CplRec} (h : Evolves r s) : Evolves r (s.putRecord c q) :=
  .when (.setReg (.same rfl h.storeBytes)) (·.sendTo)

theorem Evolves.recordDone {slot : Nat} (h : Evolves r s) : Evolves r (s.recordDone slot) :=
  .sweep (.updCmd (.same rfl h))

theorem Keeps.completionRecordWrite {q : Nat} (h : Evolves r s) : Keeps r (execCompletionRecordWrite q s) := by
  unfold execCompletionRecordWrite
  split
  · exact .ok h
  · exact .ite (.ok h.putRecord.recordDone) (.ok h)

theorem Evolves.logEvent {e : Event} {seq : Nat} (h : Evolves r s) : Evolves r (s.logEvent e seq) :=
  h.when (fun h => .ite h.bump.fset h.writeBytes.setReg)

theorem Evolves.failDown {slot : Nat} (h : Evolves r s) : Evolves r (s.failDown slot) := by
  unfold State.failDown
  refine h.foldl (fun _ _ h => ?_)
  dsimp only
  split
  · exact h.updCmd.whenNot (·.upstreamEnd)
  · exact h.updCmd

theorem Evolves.endEffects {c : Tracked} {status : Nat} (h : Evolves r s) : Evolves r (s.endEffects c status) :=
  .whenNot (h.when (·.attnCommit)) (·.videoEnded)

theorem Evolves.grantCompletion {slot src ts seq : Nat} (h : Evolves r s) : Evolves r (s.grantCompletion slot src ts seq) := by
  unfold State.grantCompletion
  split
  · exact h
  · exact Evolves.use (.when (.when (.endEffects (h.updCmd.when (·.count.trace))) (·.abortResult)) (·.failDown)) fun h => .sweep
      (.checkDrains (.foldl (.latchLife (.ite h.recordDone (.same rfl h))) (fun _ _ h => h.latchLife)))

theorem Evolves.grantAbort {part seq : Nat} (h : Evolves r s) : Evolves r (s.grantAbort part seq) := by
  unfold State.grantAbort
  refine .ite h ?_
  split
  · exact h.abortResult.recordDecision
  · exact .ite h.abortResult.recordDecision (h.updCmd.recordDecision.whenNot (·.finish))

theorem Evolves.grantGroupCancel {part group : Nat} (h : Evolves r s) : Evolves r (s.grantGroupCancel part group) :=
  h.whenNot (fun h => .recordDecision (h.when (.same rfl)))

theorem Evolves.grantKeypic {vd chan : Nat} (h : Evolves r s) : Evolves r (s.grantKeypic vd chan) := by
  unfold State.grantKeypic
  split
  · exact h.whenNot (·.setChan)
  · exact h

theorem Evolves.grantFirstSlice {vd chan : Nat} (h : Evolves r s) : Evolves r (s.grantFirstSlice vd chan) := by
  unfold State.grantFirstSlice
  split
  · exact h.whenNot (fun h => .ite h.setChan.recordDecision h.setChan)
  · exact h

theorem Evolves.grantClientOp {req kind : Nat} (h : Evolves r s) : Evolves r (s.grantClientOp req kind) := by
  unfold State.grantClientOp
  split
  · exact h
  · exact Evolves.use (.joinCold (.same rfl h)) fun h => .ite (.same rfl h) h.doClientOp

theorem Evolves.grantTtl {req : Nat} (h : Evolves r s) : Evolves r (s.grantTtl req) :=
  h.whenNot (·.expire.recordDecision)

theorem Evolves.grantFault {payload seq : Nat} (h : Evolves r s) : Evolves r (s.grantFault payload seq) :=
  h.when (·.fset)

theorem Evolves.decideEvent {e : Event} {seq : Nat} (h : Evolves r s) : Evolves r (s.decideEvent e seq) := by
  unfold State.decideEvent
  split
  · split
    · exact h.grantCompletion
    · exact h
  · exact h.grantAbort
  · exact h.grantGroupCancel
  · exact h.grantKeypic
  · exact h.grantFirstSlice
  · exact h.grantClientOp
  · exact h.grantTtl
  · exact h.grantFault
  · exact h

theorem Keeps.eventGrant (h : Evolves r s) : Keeps r (execEventGrant s) := by
  unfold execEventGrant
  refine .ite (.ok h) ?_
  split
  · exact .ok h
  · exact .ok (.runPair (.runDue (.decideEvent (.logEvent (.gcount (.setReg (.same rfl h)))))))

/-! ### The functions of Machine/Sampler.lean -/

theorem Evolves.noteEntry {part : Nat} {e : SampEnt} {em : List TokRec} {drop ended : Bool} (h : Evolves r s) : Evolves r
    (s.noteEntry part e em drop ended) := by
  unfold State.noteEntry
  split
  · exact h
  · exact h.whenNot (fun h => .ite (.mirror (.same rfl h)) h.updReq)

theorem Evolves.markEntry {slot part : Nat} {e : SampEnt} (h : Evolves r s) : Evolves r (s.markEntry slot part e) := by
  unfold State.markEntry
  split
  · exact h.when (fun h => .markGroup (.same rfl h))
  · exact h

theorem Evolves.sampleEntry {part : Nat} {e : SampEnt} {draw : Nat → Drawn} {o : SampOut} (h : Evolves r s) : Yields r
    (s.sampleEntry part e draw o) :=
  .ite (.mk (h.when (·.setSamp))) (.mk (.noteEntry (.when (.bump (.bump (h.setSamp.when (·.bump)))) (·.bump))))

theorem Evolves.sampleAll {part : Nat} {opb : List Byte} {es : List SampEnt} {xs ms : List Byte} (h : Evolves r s) : Yields r
    (s.sampleAll part opb es xs ms) :=
  .mk (Yields.fst (.foldl (.mk h) (fun _ _ h => h.fst.sampleEntry)))

theorem Evolves.sampOpen {slot : Nat} {c : Tracked} (h : Evolves r s) : Evolves r (s.sampOpen slot c) := by
  unfold State.sampOpen
  refine .ite h.finish (.ite h (.ite h.readFault ?_))
  dsimp only
  split
  · exact h.finish
  · exact h.engineOpened

theorem Evolves.maskWait {slot : Nat} {es : List SampEnt} (h : Evolves r s) : Evolves r (s.maskWait slot es) := by
  unfold State.maskWait
  split
  · exact h
  · exact .ite (h.when (·.updCmd)) (h.whenNot (·.countMaskWait.updCmd))

theorem Evolves.sampTake {slot : Nat} {c : Tracked} {es : List SampEnt} {inp : Nat} {b : InBind} {x : Tile} (h : Evolves r s) : Evolves
    r (s.sampTake slot c es inp b x) :=
  .ite h.takeTile.releaseTo.maskWait h.finish

theorem Evolves.sampEmit {slot : Nat} {c : Tracked} (h : Evolves r s) : Evolves r (s.sampEmit slot c) :=
  h.whenNot (fun h => .ite h.gather.formTile (.ite h.updCmd.formTile h.reach))

theorem Evolves.sampCommit {slot : Nat} {c : Tracked} {es : List SampEnt} (h : Evolves r s) : Evolves r (s.sampCommit slot c es) :=
  .updCmd (.when (Yields.fst (Evolves.sampleAll (h.foldl (fun _ _ h => h.markEntry)))) (·.storeOwned))

theorem Keeps.sample {slot : Nat} (h : Evolves r s) : Keeps r (execSample slot s) := by
  unfold execSample
  split
  · exact .ok h
  · refine .ite (.ok h.sampOpen) ?_
    dsimp only
    split
    · exact .ok h.sampTake
    · exact .ite (.ok h.upstreamEnd) (.ite (.ok h) (.ite (.ok h.sampCommit) (.ok h.sampEmit)))

/-! ### The functions of Machine/Sleep.lean -/

theorem Evolves.sleepResult {result cause : Nat} (h : Evolves r s) : Evolves r (s.sleepResult result cause) :=
  h.fset.fset

theorem Evolves.sleepRequest {who : Who} {target : Nat} {entry : SleepState} (h : Evolves r s) : Evolves r
    (sleepRequest who target entry s) := by
  unfold Sys2Proof.Machine.sleepRequest
  refine .ite h ?_
  dsimp only
  split
  · exact h.fset.sleepResult.raiseM
  · exact .same rfl h.fset.fset

theorem Keeps.dozeRequest {who : Who} (h : Evolves r s) : Keeps r (execDozeRequest who s) :=
  .ok h.sleepRequest

theorem Evolves.deepRequest {who : Who} {target : Nat} (h : Evolves r s) : Evolves r (deepRequest who target s) :=
  h.sleepRequest.when (·.raiseM)

theorem Keeps.watchRequest {who : Who} (h : Evolves r s) : Keeps r (execWatchRequest who s) :=
  .ok h.deepRequest

theorem Keeps.dormantRequest {who : Who} (h : Evolves r s) : Keeps r (execDormantRequest who s) :=
  .ok h.deepRequest

theorem Evolves.selfRefresh {on : Bool} (h : Evolves r s) : Evolves r (s.selfRefresh on) :=
  h.foldl (fun _ _ h => h.fset)

theorem Keeps.waitForInterrupt (h : Evolves r s) : Keeps r (execWaitForInterrupt s) :=
  .ite (.ok h) (.ok (.fset (.fset (.fset (.same (by with_reducible rfl) (h.selfRefresh.whenNot (·.opChange)))))))

theorem Evolves.toRun (h : Evolves r s) : Evolves r (s.toRun) :=
  .fset (.same rfl h)

theorem Keeps.dozeExit (h : Evolves r s) : Keeps r (execDozeExit s) :=
  .ite (.ok h) (.ok h.selfRefresh.toRun.fset.pmAim)

theorem Keeps.tickW0 (h : Evolves r s) : Keeps r (execTickW0 s) := by
  unfold execTickW0
  split
  · exact .ite (.ok h) (.ok (.same (by with_reducible rfl)
      (.fset (.selfRefresh (.foldl (h.foldl (fun _ _ h => h.setReg)) (fun _ _ h => h.qpError))))))
  · exact .ok h

theorem Evolves.wakeSrc {bits : Nat} (h : Evolves r s) : Evolves r (s.wakeSrc bits) :=
  h.setReg

theorem Evolves.wakeFire {bits : Nat} (h : Evolves r s) : Evolves r (s.wakeFire bits) := by
  unfold State.wakeFire
  refine .ite h ?_
  split
  · exact h.foldl (fun _ _ h => h.dozeWake)
  · exact h.foldl (fun _ _ h => h.dozeWake)
  · exact h.foldl (fun _ _ h => h.dozeWake)
  · exact h.wakeSrc.fset.toRun.fset.raiseM
  · exact .same rfl h.wakeSrc
  · exact .same rfl h.wakeSrc
  · exact h.wakeSrc
  · exact h

theorem Keeps.entryWindowEnd (h : Evolves r s) : Keeps r (execEntryWindowEnd s) := by
  unfold execEntryWindowEnd
  split
  · exact .ite (.ok h) (.ok (.wakeFire (.same rfl (.fset (.fset (.same rfl h.loseDie.tbStart))))))
  · exact .ok h

theorem Keeps.wakePin {pins : Nat} (h : Evolves r s) : Keeps r (execWakePin pins s) := by
  unfold execWakePin
  dsimp only
  split
  · exact .ok (.fset (.same rfl h))
  · exact .ok (.fset (.same rfl h))
  · exact .ok (.wakeFire (.setReg (.fset (.same rfl h))))

theorem Keeps.mctpWake (h : Evolves r s) : Keeps r (execMctpWake s) :=
  .ok (h.when (·.wakeFire))

theorem Keeps.alarm (h : Evolves r s) : Keeps r (execAlarm s) :=
  .ok (h.when (·.wakeFire))

theorem Keeps.watchSample {trig coolantC : Nat} (h : Evolves r s) : Keeps r (execWatchSample trig coolantC s) :=
  .ite (.ok h) (.ok (.when (.same rfl h.fset.fset.bump) (·.wakeFire)))

theorem Evolves.writeBack {a v : Nat} (h : Evolves r s) : Evolves r (s.writeBack a v) := by
  unfold State.writeBack
  split
  · exact h
  · exact h.setReg

theorem Evolves.restore (h : Evolves r s) : Evolves r (s.restore) :=
  h.foldl (fun _ _ h => h.when (·.writeBack))

theorem Evolves.gnPass (h : Evolves r s) : Evolves r (s.gnPass) :=
  h.fset.fset.fset.fset.bump

theorem Evolves.raiseWake {left result : Nat} (h : Evolves r s) : Evolves r (s.raiseWake left result) :=
  .same rfl h

theorem Keeps.wake {keyCheckOk : Bool} (h : Evolves r s) : Keeps r (execWake keyCheckOk s) := by
  unfold execWake
  split
  · exact .ite (.ok h) (.ite (.ok h.fset.runStart) (.ok (.when (.pmAim (.faultSummary
      (.raiseWake (.fset (.toRun (.freeDue (.keepRetired (.restore (.selfRefresh
          (.lodesReady (.tbStart (.applySettings (.gnPass (.gnStart (.pmStart (.fset (.same rfl h))))))))))))))))) (·.beginStart))))
  · exact .ok h

theorem Keeps.selvageRelease {who : Who} {bits : Nat} (h : Evolves r s) : Keeps r (execSelvageRelease who bits s) :=
  .ite (.ok h) (.ok (.when (.when (h.fset.when (.same rfl)) (fun h => .faultSummary (.same rfl h)))
      (fun h => h.foldl (fun _ _ h => h.linkTry))))

/-! ### The functions of Machine/Security.lean -/

theorem Evolves.setMeasurement {p : Nat} {bs : List Byte} (h : Evolves r s) : Evolves r (s.setMeasurement p bs) :=
  h.foldl (fun _ _ h => h.setReg)

theorem Keeps.partitionCreate {who : Who} {p val : Nat} (h : Evolves r s) : Keeps r (execPartitionCreate who p val s) :=
  .ite (.ok h) (.ite (.ok (h.whenNot (·.fset))) (.ite (.ok h.fset.fset.fset.setMeasurement) (.ok h.fset)))

theorem Keeps.teardown {who : Who} {p : Nat} (h : Evolves r s) : Keeps r (execTeardown who p s) :=
  .ite (.ok h) (.ite (.ok (.runPair (.same rfl h))) (.ok h.beginTeardown))

theorem Evolves.fenceStraggler {st : Nat} (h : Evolves r s) : Evolves r (s.fenceStraggler st) :=
  .faultSummary (.same rfl h.setReg.fset.remapFrom)

theorem Evolves.purge {p : Nat} (h : Evolves r s) : Evolves r (s.purge p) :=
  .same rfl h

theorem Keeps.stragglerTimeout {p : Nat} (h : Evolves r s) : Keeps r (execStragglerTimeout p s) := by
  unfold execStragglerTimeout
  split
  · exact .ok h
  · exact .ite (.ok (.fset (.purge (h.foldl (fun _ _ h => h.fenceStraggler))))) (.ok h)

theorem Evolves.tearRecord {slot : Nat} (h : Evolves r s) : Evolves r (s.tearRecord slot) := by
  unfold State.tearRecord
  split
  · exact h
  · exact h.whenNot (fun h => .same rfl (.updCmd (.logEvent (.gcount (.setReg (.same rfl (h.when (·.reportEnd))))))))

theorem Evolves.tearWrite {p : Nat} (h : Evolves r s) : Evolves r (s.tearWrite p) := by
  unfold State.tearWrite
  refine h.foldl (fun _ _ h => ?_)
  split
  · split
    · exact h.when (·.putRecord)
    · exact h
  · exact h

theorem Evolves.promoteAll {st : Nat} (h : Evolves r s) : Evolves r (s.promoteAll st) :=
  h.promote.promote

theorem Evolves.tearLoom {p : Nat} (h : Evolves r s) : Evolves r (s.tearLoom p) := by
  unfold State.tearLoom
  refine .foldl (.foldl (.fewer rfl ?_ (.refl _) List.filter_sublist) (fun _ _ h => .same rfl h.fset.fset)) (fun _ _ h => h.promoteAll)
  split
  · exact .when (.foldl (.foldl (.tearWrite (h.foldl (fun _ _ h => h.tearRecord))) (fun _ _ h => h.withdrawTask))
      (fun _ _ h => h.unpinAll)) (·.abortResult)
  · exact .foldl (.foldl (.tearWrite (h.foldl (fun _ _ h => h.tearRecord))) (fun _ _ h => h.withdrawTask)) (fun _ _ h => h.unpinAll)

theorem Evolves.tearTrace {p : Nat} (h : Evolves r s) : Evolves r (s.tearTrace p) :=
  .setReg (.setReg (.same rfl h))

theorem Evolves.tearMemory {p : Nat} (h : Evolves r s) : Evolves r (s.tearMemory p) := by
  unfold State.tearMemory
  exact .when (.regionChange (h.foldl fun _ _ h => h.fset)) (·.fset.retireSlot)

theorem Evolves.tearWarp {p : Nat} (h : Evolves r s) : Evolves r (s.tearWarp p) :=
  .foldl (.fset (.same rfl h)) (fun _ _ h => h.sendOn)

theorem Evolves.tearCold {p : Nat} (h : Evolves r s) : Evolves r (s.tearCold p) :=
  .tickFree (.same rfl h)

theorem Evolves.tearVideo {p : Nat} (h : Evolves r s) : Evolves r (s.tearVideo p) :=
  .foldl (h.foldl (fun _ _ h => h.closeChan)) (fun _ _ h => h.when (·.fset))

theorem Evolves.tearSessions {p : Nat} (h : Evolves r s) : Evolves r (s.tearSessions p) := by
  unfold State.tearSessions
  refine .foldl (h.foldl (fun _ _ h => h.failReq)) (fun _ _ h => ?_)
  split
  · exact .mirror (.same rfl h)
  · exact h

theorem Evolves.tearLine {p : Nat} (h : Evolves r s) : Evolves r (s.tearLine p) :=
  h.when (fun h => .fset (.same rfl h))

theorem Keeps.drainDone {p : Nat} (h : Evolves r s) : Keeps r (execDrainDone p s) := by
  unfold execDrainDone
  split
  · exact .ok h
  · exact .ite (.ok h) (.ok (.fset (.same rfl
      h.setReg.tearLoom.tearTrace.tearMemory.tearWarp.tearCold.ledgerTeardown.samplerTeardown.tearVideo.tearSessions.tearLine)))

theorem Keeps.cleanDone {p : Nat} (h : Evolves r s) : Keeps r (execCleanDone p s) := by
  unfold execCleanDone
  split
  · exact .ok h
  · exact .ite (.ok h) (.ok (.same rfl h.fset.fset.fset.setMeasurement))

theorem Keeps.gnMeasExtend {who : Who} {val : Nat} (h : Evolves r s) : Keeps r (execGnMeasExtend who val s) :=
  .ite (.ok h) (.ok h.setMeasurement)

theorem Keeps.gnAttestReq {who : Who} {addr : Nat} (h : Evolves r s) : Keeps r (execGnAttestReq who addr s) :=
  .ite (.ok h) (.ite (.ok h.fset) (.ok (.same rfl h)))

theorem Keeps.certIssued (h : Evolves r s) : Keeps r (execCertIssued s) := by
  unfold execCertIssued
  split
  · exact .ok h
  · refine .ite (.ok h) ?_
    dsimp only
    split
    · exact .ok (.writeBytes (.bump (.same rfl h)))
    · exact .ok (.respond (.bump (.same rfl h)))

theorem Evolves.gnOut {st : Nat} (h : Evolves r s) : Evolves r (s.gnOut st) :=
  h.fset.fset.when (·.reportFault)

theorem Evolves.zeroised {src : Nat} (h : Evolves r s) : Evolves r (s.zeroised src) :=
  .gnOut (.same rfl h.setReg.bump)

theorem Keeps.selftest {who : Who} (h : Evolves r s) : Keeps r (execSelftest who s) :=
  .ite (.ok h.fset.gnOut) (.ok h)

theorem Keeps.selftestDone {failTest : Option Nat} (h : Evolves r s) : Keeps r (execSelftestDone failTest s) := by
  unfold execSelftestDone
  refine .ite (.ok h) ?_
  dsimp only
  split
  · exact .ok h.fset.gnPass
  · exact .ok h.fset.fset.fset.bump.gnOut

theorem Keeps.zeroise {who : Who} {val : Nat} (h : Evolves r s) : Keeps r (execZeroise who val s) :=
  .ite (.ok h.zeroised) (.ok h)

theorem Evolves.breach (h : Evolves r s) : Evolves r { s with tampered := true } :=
  ⟨h.pending, h.serial, h.fabric, fun _ => rfl, h.memInv, h.unitsOk⟩

theorem Keeps.tamper {source : Nat} (h : Evolves r s) : Keeps r (execTamper source s) := by
  unfold execTamper
  split
  · exact .ok (.zeroised (.fset h.breach))
  · exact .ok (h.when (·.zeroised))
  · exact .ok (h.when (·.zeroised))
  · exact .ok (h.when (·.zeroised))
  · exact .ok h

theorem Keeps.healthTestFail {test : Nat} (h : Evolves r s) : Keeps r (execHealthTestFail test s) :=
  .ite (.ok h.fset.gnOut) (.ok h)

/-! ### The functions of Machine/Warp.lean -/

theorem Keeps.linkEnable {who : Who} {j val : Nat} (h : Evolves r s) : Keeps r (execLinkEnable who j val s) :=
  .ite (Evolves.use h.setReg.fset.fset.fset fun h => .ite (.ok h.linkTry) (.ok (.linkTo (.setLink (h.when (·.loseLink.pairLinkLost))))))
      (.ok h)

theorem Keeps.retrain {who : Who} {j : Nat} (h : Evolves r s) : Keeps r (execRetrain who j s) :=
  .ite (.ok (h.fset.when (·.linkTo.linkTry))) (.ok h)

theorem Keeps.recal {who : Who} {j : Nat} (h : Evolves r s) : Keeps r (execRecal who j s) :=
  .ite (.ok h.fset) (.ok h)

theorem Keeps.lightOnBothLanes {j : Nat} {on : Bool} (h : Evolves r s) : Keeps r (execLightOnBothLanes j on s) :=
  .ite (Evolves.use h.setLink fun h => .ite (.ok h.linkTo.linkTry) (.ok h.linkTry)) (.ok h)

theorem Keeps.fecLock {j farSerial : Nat} (h : Evolves r s) : Keeps r (execFecLock j farSerial s) :=
  .ite (Evolves.use h.setReg.setLink fun h => .ite (.ok (.fset (.toIdent (h.when (·.setReg))))) (.ok h.linkTo.fset)) (.ok h)

theorem Keeps.fecLockTimeout {j : Nat} (h : Evolves r s) : Keeps r (execFecLockTimeout j s) :=
  .ite (.ok h.linkTo) (.ok h)

theorem Keeps.calibDone {j : Nat} {done : Bool} (h : Evolves r s) : Keeps r (execCalibDone j done s) :=
  .ite (.ite (.ok h.setLink.fset.toIdent) (.ok h.linkTo)) (.ok h)

theorem Evolves.identFail {j cause : Nat} (h : Evolves r s) : Evolves r (s.identFail j cause) :=
  h.linkTo.raiseM

theorem Keeps.ident {j : Nat} {m : IdentMsg} (h : Evolves r s) : Keeps r (execIdent j m s) :=
  .ite (.ok h) (Evolves.use h.emit.setReg.fset.fset fun h => .ite (.ok h.identFail)
      (.ite (.ok h.identFail) (.ite (.ok h.identFail) (.ite (.ok h.identFail) (Evolves.use (h.when (·.fset.raiseM)) fun h => .ite
          (.ok h.identFail) (.ok (.raiseM (h.setLink.setReg.setReg.setReg.linkTo.fset.when (.same rfl)))))))))

theorem Keeps.failedRetry {j : Nat} (h : Evolves r s) : Keeps r (execFailedRetry j s) :=
  .ite (.ok h.linkTo.linkTry) (.ok h)

theorem Evolves.linkOut {j : Nat} (h : Evolves r s) : Evolves r (s.linkOut j) :=
  h.loseLink.pairLinkLost.linkTo.raiseM

theorem Keeps.linkLoss {j : Nat} (h : Evolves r s) : Keeps r (execLinkLoss j s) :=
  .ite (.ok h.linkOut) (.ok h)

theorem Keeps.opticsSample {j rx0 rx1 : Nat} (h : Evolves r s) : Keeps r (execOpticsSample j rx0 rx1 s) :=
  .ite (Evolves.use h.setReg.fset fun h => .ite (.ok h.fset.raiseM) (.ite (.ok h.fset) (.ok h))) (.ok h)

theorem Evolves.land {f : WarpFrame} (h : Evolves r s) : Evolves r (s.land f) :=
  .same rfl h

theorem Keeps.data {j : Nat} {f : WarpFrame} (h : Evolves r s) : Keeps r (execData j f s) :=
  .ok (h.onFrame (fun _ h => h.land))

theorem Evolves.setCredits {dest part chan n : Nat} (h : Evolves r s) : Evolves r (s.setCredits dest part chan n) :=
  .same rfl h

theorem Keeps.credit {j : Nat} {f : WarpFrame} (h : Evolves r s) : Keeps r (execCredit j f s) :=
  .ok (h.onFrame (fun _ h => h.setCredits))

theorem Keeps.cmd {j : Nat} {f : WarpFrame} (h : Evolves r s) : Keeps r (execCmd j f s) :=
  .ite (.ok h) (.ok (h.onFrame (fun _ h => h.storeBytes.fset.dozeWake)))

theorem Keeps.cpl {j : Nat} {f : WarpFrame} (h : Evolves r s) : Keeps r (execCpl j f s) :=
  .ite (.ok h) (.ok (h.onFrame (fun _ h => h.storeBytes.fset)))

theorem Keeps.warpAck {j counter : Nat} (h : Evolves r s) : Keeps r (execWarpAck j counter s) :=
  .ite (.ok h.setLink) (.ok h)

theorem Keeps.warpNak {j counter : Nat} (h : Evolves r s) : Keeps r (execWarpNak j counter s) :=
  .ite (Evolves.use h.setLink fun h => .ite (.ok h.linkOut) (.ok (h.foldl (fun _ _ h => h.warpOut)))) (.ok h)

theorem Keeps.keyUpdate {j : Nat} {f : WarpFrame} (h : Evolves r s) : Keeps r (execKeyUpdate j f s) :=
  .ite (.ok h) (.ite (.ok h.refuseFrame) (.ok (.raiseM (.setReg (.setReg (.setReg (.setLink (h.takeFrame.whenNot (·.putFrame)))))))))

theorem Keeps.partEpoch {j : Nat} {f : WarpFrame} {part epoch : Nat} (h : Evolves r s) : Keeps r (execPartEpoch j f part epoch s) :=
  .ite (.ok h) (.ite (.ok h.refuseFrame) (Evolves.use h.takeFrame fun h => .ite (.ok (.fset (.same rfl h))) (.ok h)))

theorem Evolves.releaseHere {id : Nat} {fail : Bool} (h : Evolves r s) : Evolves r (s.releaseHere id fail) :=
  h.foldl (fun _ _ h => .ite h.finish h.reach)

theorem Evolves.sendRelease {id : Nat} {fail : Bool} {ms : List Nat} (h : Evolves r s) : Evolves r (s.sendRelease id fail ms) :=
  h.foldl (fun _ _ h => h.sendTo)

theorem Evolves.recordSkew {first : Nat} {a : Arrival} (h : Evolves r s) : Evolves r (s.recordSkew first a) :=
  h.setReg.raiseTo.when (·.bump)

theorem Evolves.tryRelease {id : Nat} (h : Evolves r s) : Evolves r (s.tryRelease id) := by
  unfold State.tryRelease
  split
  · exact h
  · exact h.when (fun h => .releaseHere (.sendRelease (.same rfl (h.foldl (fun _ _ h => h.recordSkew)))))

theorem Evolves.arriveAt {id mask : Nat} {a : Arrival} (h : Evolves r s) : Evolves r (s.arriveAt id mask a) :=
  .ite (.tryRelease (.same rfl h)) (.ite (.tryRelease (.same rfl h)) (.same rfl h))

theorem Evolves.admitArrivals (h : Evolves r s) : Evolves r (s.admitArrivals) :=
  .foldl (.same rfl h) (fun _ _ h => h.arriveAt)

theorem Keeps.arrive {j : Nat} {f : WarpFrame} {barrier ts : Nat} {coarse pace : Bool} (h : Evolves r s) : Keeps r
    (execArrive j f barrier ts coarse pace s) :=
  .ok (h.onFrame (fun _ h => h.arriveAt.admitArrivals))

theorem Keeps.release {j : Nat} {f : WarpFrame} {barrier : Nat} {fail : Bool} (h : Evolves r s) : Keeps r
    (execRelease j f barrier fail s) :=
  .ok (h.onFrame (fun _ h => h.releaseHere))

theorem Keeps.barrierTimeout {id : Nat} (h : Evolves r s) : Keeps r (execBarrierTimeout id s) := by
  unfold execBarrierTimeout
  split
  · exact .ok h
  · exact .ite (.ok (.admitArrivals (.releaseHere (.sendRelease (.same rfl h))))) (.ok h)

theorem Evolves.opened {slot : Nat} (h : Evolves r s) : Evolves r (s.opened slot) :=
  h.updCmd

theorem Keeps.wsend {slot : Nat} (h : Evolves r s) : Keeps r (execWsend slot s) := by
  unfold execWsend
  split
  · exact .ok h
  · refine .ite ?_ ?_
    · split
      · exact .ok h.finish
      · exact .ok h.opened
    · split
      · exact .ite (.ok (.when (.updCmd (.releaseTo (.takeTile (h.setCredits.foldl (fun _ _ h => h.sendTo))))) (·.reach))) (.ok h)
      · exact .ok h.upstreamEnd
      · exact .ok h

theorem Keeps.wrecv {slot : Nat} (h : Evolves r s) : Keeps r (execWrecv slot s) := by
  unfold execWrecv
  split
  · exact .ok h
  · refine .ite ?_ ?_
    · split
      · exact .ok h.finish
      · exact .ok (.opened (.same rfl h))
    · split
      · exact .ok h
      · refine .ite (.ok (.sendTo (.same rfl h))) ?_
        split
        · exact .ok h
        · exact .ite (Evolves.use (.formTile (.same rfl h)) fun h => .ok (.ite h.reach h.settle)) (.ok h)

theorem Keeps.barrier {slot : Nat} (h : Evolves r s) : Keeps r (execBarrier slot s) := by
  unfold execBarrier
  split
  · exact .ok h
  · refine .ite ?_ (.ite (.ok h) ?_)
    · dsimp only
      split
      · exact .ok h.finish
      · exact .ok h.opened
    · split
      · exact .ok h.takeTile.releaseTo.updCmd
      · exact .ite (.ok h.upstreamEnd) (.ite (Evolves.use h.updCmd fun h => .ite (.ok h.arriveAt.admitArrivals) (.ok h.sendTo)) (.ok h))

theorem Keeps.wsubmit {slot : Nat} (h : Evolves r s) : Keeps r (execWsubmit slot s) := by
  unfold execWsubmit
  split
  · exact .ok h
  · refine .ite ?_ ?_
    · split
      · exact .ok h.finish
      · exact .ok h.opened
    · split
      · exact .ite (.ok h.finish) (.ite (.ok (.when (.updCmd (.releaseTo (.takeTile (h.foldl (fun _ _ h => h.sendTo))))) (·.reach)))
          (.ok h))
      · exact .ok h.upstreamEnd
      · exact .ok h

/-! ### The functions of Machine/Registers.lean -/

theorem Keeps.rcRead {who : Who} {addr : Nat} (h : Evolves r s) : Keeps r (execRcRead who addr s) := by
  unfold execRcRead
  refine .ite (.ok h) (.ite (.lineTrigPop h) ?_)
  split
  · exact .ok h.answer
  · exact .ite (.ok h.answer) (.ok (.answer (h.whenNot (·.setReg))))

theorem Evolves.plainWrite {d : RegDef} {a v : Nat} (h : Evolves r s) : Evolves r (s.plainWrite d a v) :=
  h.when (·.setReg)

theorem Evolves.writePmCap {v : Nat} (h : Evolves r s) : Evolves r (s.writePmCap v) :=
  .capMoved (h.fset.when (·.fset))

theorem Evolves.writeFlow {d : RegDef} {a v : Nat} (h : Evolves r s) : Evolves r (s.writeFlow d a v) := by
  unfold State.writeFlow
  dsimp only
  split
  · exact h.plainWrite.when (·.fset)
  · exact h.plainWrite.fset

theorem Evolves.afterWrite {old : State} {a v : Nat} (h : Evolves r s) : Evolves r (s.afterWrite old a v) := by
  unfold State.afterWrite
  refine .ite (h.whenNot (.same rfl)) (.ite (h.when (·.fset)) ?_)
  split
  · exact h.when (·.wdRestart)
  · exact h

theorem Keeps.bitCommand {who : Who} {a v : Nat} (h : Evolves r s) : Keeps r (s.bitCommand who a v) :=
  .ite (.safeReq h) (.ite (.swapReq h) (.ite (.dumpReq h) (.ite (.clear h) (.ite
      (.ite (.coldReq h) (.ite (.warmReq h) (.ite (.confirm h) (.ok h)))) (.ok h)))))

/-- An access that answers, where it does, with an outcome that evolved from `r`. -/
def Offers (r : State) (o : Option Out) : Prop := ∀ x, o = some x → Keeps r x

theorem Offers.none : Offers r none := fun _ e => by cases e

theorem Offers.some {x : Out} (h : Keeps r x) : Offers r (some x) := fun _ e => Option.some.inj e ▸ h

theorem Offers.ite {p : Prop} {_ : Decidable p} {o o' : Option Out} (h : Offers r o) (h' : Offers r o') :
    Offers r (if p then o else o') := by
  split <;> assumption

theorem Offers.map {o : Option Nat} {f : Nat → Out} (h : ∀ n, Keeps r (f n)) : Offers r (o.map f) := by
  cases o
  · exact .none
  · exact .some (h _)

theorem Offers.orElse {o o' : Option Out} (h : Offers r o) (h' : Offers r o') : Offers r (o <|> o') := by
  cases o
  · exact h'
  · exact h

theorem Offers.ownWriteA {who : Who} {a v : Nat} (h : Evolves r s) : Offers r (ownWriteA who a v s) :=
  .ite (.ite (.some (.loomSqBase h)) (.ite (.some (.loomSqCtl h)) (.ite (.some (.loomSqTail h)) .none)))
    (.ite (.some (.loomAbort h)) (.ite (.some (.hcTaskDone h)) (.ite (.map fun _ => .ledgerClassValid h)
      (.ite (.orElse (.map fun _ => .memPartKey h) (.orElse (.map fun _ => .ite (.retire h) (.ok h))
        (.orElse (.map fun _ => .memRegionWrite h) (.map fun _ => .memRegionWrite h)))) .none))))

theorem Offers.ownWriteB {who : Who} {a v : Nat} (h : Evolves r s) : Offers r (ownWriteB who a v s) := by
  refine .ite (.some (.tbAdj h)) (.ite (.some (.tbRate h)) (.ite (.some (.pairHeartbeat h)) (.ite (.map fun _ => .pmStationPhase h)
    (.ite (.ite (.some (.ok h)) (.ite (.some (.ok h.fset)) ?_)) (.ite (.some (.selvageRelease h)) (.ite (.map fun _ => ?_) .none))))))
  · split
    · exact .some (.dozeRequest h.fset)
    · exact .some (.watchRequest h.fset)
    · exact .some (.dormantRequest h.fset)
    · exact .some (.ok h.fset)
  · have hl : ∀ {j}, Keeps r (execLinkEnable who j v s) := .linkEnable h
    dsimp only
    split
    · next u e =>
      have hu : ∀ {j}, Keeps r (if v.testBit 3 then execRecal who j u else ok u) := .ite (.recal (hl _ e)) (.ok (hl _ e))
      split
      · next e => exact .ite (.retrain (hu _ e)) (.ok (hu _ e))
      · exact hu
    · exact hl

theorem Offers.ownWriteC {who : Who} {a v : Nat} (h : Evolves r s) : Offers r (ownWriteC who a v s) :=
  .ite (.ite (.some (.ite (.zeroise h) (.ite (.selftest h) (.ok h)))) (.ite (.some (.gnMeasExtend h)) (.ite (.some (.gnAttestReq h))
      (.map fun _ => .ite (.teardown h) (.partitionCreate h)))))
    (.ite (.some (.fcTestReq h)) (.ite (.some (.fcInject h)) (.ite (.map fun _ => .fcStatus h) (.ite (.map fun _ => .dbgWdKick h)
      (.ite (.some (.dbgTrcMark h)) .none)))))

theorem Keeps.registerWrite {who : Who} {addr val : Nat} (h : Evolves r s) : Keeps r (execRegisterWrite who addr val s) := by
  unfold execRegisterWrite
  refine .ite (.ok h) ?_
  extract_lets v
  split
  · next e => exact (Offers.ownWriteA h).orElse ((Offers.ownWriteB h).orElse (Offers.ownWriteC h)) _ e
  · split
    · exact .ok h
    · exact .ite (.ok h) (.ite (.ok h.writePmCap) (.ite (.ok h.writeFlow) (.bitCommand h.plainWrite.afterWrite)))

theorem Keeps.portLinkUp {n : Nat} {up : Bool} (h : Evolves r s) : Keeps r (execPortLinkUp n up s) :=
  .ite (.ok h.setReg) (.ok h)

theorem Keeps.gateControlListLoad {n : Nat} (h : Evolves r s) : Keeps r (execGateControlListLoad n s) :=
  .ite (.ok h.fset) (.ok h)

theorem Keeps.clockGating {st : Nat} (h : Evolves r s) : Keeps r (execClockGating st s) :=
  .ite (.ok h) (.ok (.same rfl h))

theorem Keeps.imageComplete {req : Nat} (h : Evolves r s) : Keeps r (execImageComplete req s) := by
  unfold execImageComplete
  split
  · exact .ok h
  · exact .ite (.ok h) (.ok h.completeImage.runDue.runPair)

/-! ### The functions of Machine/Dump.lean -/

theorem Evolves.writeDump {n : Nat} (h : Evolves r s) : Evolves r (s.writeDump n) :=
  .ite (.tickFree (.same rfl h)) h.writeBytes.tickFree

theorem Keeps.dumpDone {bytes : Nat} (h : Evolves r s) : Keeps r (execDumpDone bytes s) :=
  .ite (.ok h) (Evolves.use h.writeDump.fset.fset.fset.fset.fset fun h => .ite (.ok h) (.ite (.ok h.beginStart) (.ok h.beginStart)))

/-! ### The functions of Machine/Engines.lean -/

theorem Evolves.gemmOpen {slot : Nat} {c : Tracked} (h : Evolves r s) : Evolves r (s.gemmOpen slot c) := by
  unfold State.gemmOpen
  split
  · exact h.finish
  · exact h
  · exact h.openRanges (fun _ _ h => h.engineOpened)

theorem Evolves.gemmResident {slot : Nat} {tc : Tracked} {c : GemmCfg} {inp : Nat} {b : InBind} (h : Evolves r s) : Evolves r
    (s.gemmResident slot tc c inp b) := by
  unfold State.gemmResident
  split
  · exact h.upstreamEnd
  · exact h.takeTile.whenNot (fun h => .ite h.finish h.releaseTo)

theorem Evolves.gemmAdapters {slot : Nat} {tc : Tracked} {c : GemmCfg} {mb : Nat} {ws : List Tile} (h : Evolves r s) : Evolves r
    (s.gemmAdapters slot tc c mb ws) := by
  unfold State.gemmAdapters
  dsimp only
  split
  · exact h
  · exact h.readDropped
  · split
    · exact .ite h.readFault h.finish
    · refine .ite h ?_
      split
      · exact h.readFault
      · exact .updCmd (h.foldl (fun _ _ h => h.memIn))

theorem Evolves.gemmForm {slot : Nat} {tc : Tracked} {c : GemmCfg} {xs ws acc : List Tile} {sl : Nat} (h : Evolves r s) : Evolves r
    (s.gemmForm slot tc c xs ws acc sl) :=
  .ite h.gemmAdapters (Evolves.use h.gather.formTile fun h => .ite h.reach h.settle)

theorem Evolves.gemmTake {slot : Nat} {tc : Tracked} {c : GemmCfg} {inp : Nat} {b : InBind} {x : Tile} (h : Evolves r s) : Evolves r
    (s.gemmTake slot tc c inp b x) :=
  .releaseTo (.takeTile (h.whenNot (·.count)))

theorem Evolves.gemmStep {slot : Nat} {tc : Tracked} {c : GemmCfg} (h : Evolves r s) : Evolves r (s.gemmStep slot tc c) := by
  unfold State.gemmStep
  dsimp only
  split
  · split
    · exact h.gemmResident
    · refine .ite h.gemmResident (.ite (h.when (·.gemmForm)) ?_)
      split
      · exact h.gemmTake
      · split
        · exact h.gemmTake
        · exact h
      · exact h.upstreamEnd
  · exact h

theorem Keeps.gemm {slot : Nat} (h : Evolves r s) : Keeps r (execGemm slot s) := by
  unfold execGemm
  split
  · exact .ok h
  · refine .ite (.ok h.gemmOpen) ?_
    split
    · exact .ok h
    · refine .ok ?_
      split
      · exact h.finish
      · exact h.gemmStep

theorem Evolves.reduceOpen {slot : Nat} {c : Tracked} (h : Evolves r s) : Evolves r (s.reduceOpen slot c) := by
  unfold State.reduceOpen
  split
  · exact h.finish
  · exact h
  · exact h.openRanges (fun _ _ h => h.engineOpened)

theorem Evolves.reduceStep {slot : Nat} {tc : Tracked} {c : GemmCfg} (h : Evolves r s) : Evolves r (s.reduceStep slot tc c) := by
  unfold State.reduceStep
  split
  · refine .ite (h.whenNot (fun h => Evolves.use h.gather.formTile fun h => .ite h.reach h.settle)) ?_
    dsimp only
    split
    · exact h.upstreamEnd
    · exact h.count.takeTile.releaseTo
  · exact h

theorem Keeps.accreduce {slot : Nat} (h : Evolves r s) : Keeps r (execAccreduce slot s) := by
  unfold execAccreduce
  split
  · exact .ok h
  · refine .ite (.ok h.reduceOpen) ?_
    split
    · exact .ok h
    · exact .ok (.ite h.finish h.reduceStep)

theorem Keeps.convert {slot : Nat} (h : Evolves r s) : Keeps r (execConvert slot s) := by
  unfold execConvert
  split
  · exact .ok h
  · refine .ite (.ite (.ok h.finish) (.ite (.ok h.finish) (.ok h.engineOpened))) ?_
    split
    · exact .ok h.upstreamEnd
    · split
      · exact .ok h.finish
      · exact .ite (.ok h) (Evolves.use h.count.takeTile.releaseTo.gather.formTile fun h => .ok (.ite h.reach h.settle))

/-! ### The functions of Machine/FacetOps.lean -/

theorem mem_tset {α : Type} {t : Tab α} {k : Nat} {v : α} {x : Nat × α} (h : x ∈ tset t k v) : x ∈ t ∨ x = (k, v) := by
  induction t with
  | nil => exact .inr (List.mem_singleton.mp h)
  | cons y ys ih =>
    simp only [tset] at h
    split at h
    · exact (List.mem_cons.mp h).symm
    · split at h
      · exact (List.mem_cons.mp h).elim .inr fun hx => .inl (List.mem_cons_of_mem _ hx)
      · rcases List.mem_cons.mp h with hx | hx
        · exact .inl (hx ▸ List.mem_cons_self)
        · exact (ih hx).imp (List.mem_cons_of_mem _) id

theorem Evolves.putUnit {st : Nat} {u : FacetUnit} (h : Evolves r s) (hu : UnitsOk r → LanesOk u) : Evolves r (s.putUnit st u) :=
  ⟨h.pending, h.serial, h.fabric, h.tampered, h.memInv, fun l _ hx => (mem_tset hx).elim (h.unitsOk l _) fun e => e ▸ hu l⟩

theorem Evolves.facetFlags {slot flags sat : Nat} (h : Evolves r s) : Evolves r (s.facetFlags slot flags sat) :=
  h.whenNot (·.updCmd)

/-- What an instruction leaves evolved from `r`: the state, and the lanes of the unit where units had theirs. -/
def FRes.Keeps (r : State) : FRes → Prop
  | .go s u _ _ _ => Evolves r s ∧ (UnitsOk r → LanesOk u)
  | .jump u _ => UnitsOk r → LanesOk u
  | _ => True

/-- A function that keeps this from every state and unit. -/
def FSem.Sound (sem : FSem) : Prop :=
  ∀ (r s : State) (c : Tracked) (u : FacetUnit) (f : FIns), Evolves r s → (UnitsOk r → LanesOk u) → (sem s c u f).Keeps r

theorem FRes.Keeps.ite {p : Prop} {_ : Decidable p} {q q' : FRes} (h : q.Keeps r) (h' : q'.Keeps r) : (if p then q else q').Keeps r := by
  split <;> assumption

/-- An error detail, a wait and an end keep all there is to keep. -/
theorem FRes.Keeps.err {d : Nat} : (FRes.err d).Keeps r := trivial

theorem FRes.Keeps.unit {u : FacetUnit} {fl : Nat} (h : Evolves r s) (hu : UnitsOk r → LanesOk u) : (FRes.unit s u fl).Keeps r := ⟨h, hu⟩

theorem scalar2_sound (g : W32 → W32 → W32) : FSem.Sound (scalar2 g) := fun _ _ _ _ _ h hu => .unit h fun k => lanesOk_sset _ _ (hu k)

/-- A function that writes a vector register. -/
theorem vset_sound (m : FacetUnit → FIns → List Bool) (xs : FacetUnit → FIns → List W32) (fl : FacetUnit → FIns → Nat) :
    FSem.Sound fun s _ u f => .unit s (u.vset f.d (m u f) (xs u f)) (fl u f) :=
  fun _ _ _ _ _ h hu => .unit h fun k => lanesOk_vset _ _ _ (hu k)

/-- A function that writes a predicate register. -/
theorem pset_sound (m xs : FacetUnit → FIns → List Bool) (fl : FacetUnit → FIns → Nat) :
    FSem.Sound fun s _ u f => .unit s (u.pset f.d.toNat (m u f) (xs u f)) (fl u f) :=
  fun _ _ _ _ _ h hu => .unit h fun k => lanesOk_pset _ _ _ (hu k)

theorem vec1_sound (g : Nat → Nat × Nat) : FSem.Sound (vec1 g) := vset_sound _ _ _
theorem vec2_sound (g : Nat → Nat → Nat × Nat) : FSem.Sound (vec2 g) := vset_sound _ _ _
theorem vec3_sound (g : Nat → Nat → Nat → Nat × Nat) : FSem.Sound (vec3 g) := vset_sound _ _ _
theorem int2_sound (g : W32 → W32 → W32) : FSem.Sound (int2 g) := vset_sound _ _ _
theorem cmp2_sound (g : Nat → Nat → Bool × Nat) : FSem.Sound (cmp2 g) := pset_sound _ _ _
theorem pred2_sound (g : Bool → Bool → Bool) : FSem.Sound (pred2 g) := pset_sound _ _ _
theorem reduce_sound (g : Nat → Nat → Nat × Nat) : FSem.Sound (reduce g) := vset_sound _ _ _
theorem reduceF_sound (g : Nat → Nat → Nat × Nat) : FSem.Sound (reduceF g) := vset_sound _ _ _

theorem semNop_sound : FSem.Sound semNop := fun _ _ _ _ _ h hu => .unit h hu
theorem semHalt_sound : FSem.Sound semHalt := fun _ _ _ _ _ _ _ => .ite trivial trivial
theorem semBr_sound : FSem.Sound semBr := fun _ _ _ _ _ _ hu => hu
theorem semBez_sound : FSem.Sound semBez := fun _ _ _ _ _ h hu => .ite hu (.unit h hu)
theorem semBnz_sound : FSem.Sound semBnz := fun _ _ _ _ _ h hu => .ite (.unit h hu) hu
theorem semLoop_sound : FSem.Sound semLoop := fun _ _ _ _ _ h hu => .ite .err (.ite ⟨h, hu⟩ hu)
theorem semMovi_sound : FSem.Sound semMovi := fun _ _ _ _ _ h hu => .unit h fun k => lanesOk_sset _ _ (hu k)
theorem semVext_sound : FSem.Sound semVext := fun _ _ _ _ _ h hu => .unit h fun k => lanesOk_sset _ _ (hu k)

theorem semVld_sound : FSem.Sound semVld := fun _ _ _ _ _ h hu => .ite .err (.unit h fun k => lanesOk_vset _ _ _ (hu k))
theorem semVst_sound : FSem.Sound semVst := fun _ _ _ _ _ h hu => .ite .err (.unit h hu)

theorem semVldt_sound : FSem.Sound semVldt := by
  intro r s c u f h hu
  unfold semVldt
  split
  · exact .ite .err (.ite .err (.unit h fun k => lanesOk_vset _ _ _ (hu k)))
  · exact .err

theorem semVstt_sound : FSem.Sound semVstt := by
  intro r s c u f h hu
  unfold semVstt
  split
  · exact .ite .err (.ite .err (.ite (.ite .err ⟨h, hu⟩) ⟨h, hu⟩))
  · exact .err

theorem semTwait_sound : FSem.Sound semTwait := by
  intro r s c u f h hu
  unfold semTwait
  dsimp only
  split
  · exact .err
  · refine .ite trivial (.ite .err (.ite .err ?_))
    split
    · trivial
    · exact ⟨h.takeTile, fun k => lanesOk_congr rfl rfl (lanesOk_sset _ _ (hu k))⟩

theorem semTrel_sound : FSem.Sound semTrel := by
  intro r s c u f h hu
  unfold semTrel
  split
  · exact ⟨h.releaseTo, hu⟩
  · exact .err

theorem semTopen_sound : FSem.Sound semTopen := fun _ _ _ _ _ h hu =>
  .ite trivial (.ite .err (.ite .err (.ite .err (.ite trivial (.unit h hu)))))

theorem semTemit_sound : FSem.Sound semTemit := by
  intro r s c u f h hu
  unfold semTemit
  split
  · exact .ite trivial (.ite .err ⟨h.updCmd.formTile, hu⟩)
  · exact .err

theorem facetFn_sound {cls func : Nat} {use : FUse} {sem : FSem} (e : facetFn cls func = some (use, sem)) : FSem.Sound sem := by
  unfold facetFn at e
  split at e <;> cases e
  · exact semNop_sound
  · exact semHalt_sound
  · exact semBr_sound
  · exact semBez_sound
  · exact semBnz_sound
  · exact semLoop_sound
  iterate 13 · exact scalar2_sound _
  · exact semMovi_sound
  iterate 3 · exact vec2_sound _
  · exact vec3_sound _
  iterate 2 · exact vec2_sound _
  iterate 2 · exact vec1_sound _
  · exact vec2_sound _
  · exact vec1_sound _
  · exact vset_sound _ _ _
  · exact vec1_sound _
  iterate 2 · exact vset_sound _ _ _
  iterate 11 · exact int2_sound _
  iterate 6 · exact cmp2_sound _
  iterate 3 · exact pred2_sound _
  iterate 2 · exact pset_sound _ _ _
  iterate 12 · exact vec1_sound _
  iterate 3 · exact reduceF_sound _
  · exact reduce_sound _
  · exact vset_sound _ _ _
  · exact semVext_sound
  iterate 3 · exact vset_sound _ _ _
  · exact semVld_sound
  · exact semVst_sound
  · exact semVldt_sound
  · exact semVstt_sound
  · exact semTwait_sound
  · exact semTrel_sound
  · exact semTopen_sound
  · exact semTemit_sound

theorem Evolves.facetIns {st : Nat} {c : Tracked} {u : FacetUnit} {use : FUse} {sem : FSem} {f : FIns} (hs : FSem.Sound sem)
    (h : Evolves r s) (hu : UnitsOk r → LanesOk u) : Evolves r (s.facetIns st c u use sem f) := by
  unfold State.facetIns
  refine .ite h.finish (.ite h.finish ?_)
  have hk : (sem s c u f).Keeps r := hs r s c u f h hu
  split
  · exact h
  · exact h.upstreamEnd
  · exact h.finish
  · exact h.finish
  · exact .ite h.finish h.count.reach
  · next e =>
    rw [e] at hk
    exact hk.1.facetFlags.count.whenNot (·.putUnit hk.2)
  · next e =>
    rw [e] at hk
    exact h.count.putUnit hk

theorem Evolves.facetLoad {c : Tracked} (h : Evolves r s) : Evolves r (s.facetLoad c) := by
  unfold State.facetLoad
  dsimp only
  split
  · exact h.when (·.finish)
  · exact h.whenNot (fun h => h.openRanges (fun _ _ h => h.engineOpened))

theorem Evolves.facetStart {c : Tracked} (h : Evolves r s) : Evolves r (s.facetStart c) :=
  .putUnit (.same rfl h) fun _ => lanesOk_fresh _ _ _ _ _

/-! ### The functions of Machine/Facet.lean -/

theorem Evolves.facetFetch {st : Nat} {c : Tracked} {u : FacetUnit} (h : Evolves r s) (hu : UnitsOk r → LanesOk u) :
    Evolves r (s.facetFetch st c u) := by
  unfold State.facetFetch
  split
  · exact h.finish
  · dsimp only
    split
    · exact h.finish
    · next e => exact .ite h.finish (.facetIns (facetFn_sound e) h hu)

theorem mem_of_tget {α : Type} {t : Tab α} {k : Nat} {v : α} (h : tget t k = some v) : (k, v) ∈ t := by
  induction t with
  | nil => cases h
  | cons x xs ih =>
    simp only [tget] at h
    split at h
    · next e => cases h; exact e ▸ List.mem_cons_self
    · exact List.mem_cons_of_mem _ (ih h)

theorem facetOn_lanesOk {st : Nat} {c : Tracked} {u : FacetUnit} (h : Evolves r s) (e : facetOn s st = some (c, u)) (k : UnitsOk r) :
    LanesOk u := by
  unfold facetOn at e
  split at e
  · cases e
  · next w hw =>
    split at e
    · cases e
    · obtain ⟨_, _, e⟩ := Option.map_eq_some_iff.mp e
      cases e
      exact h.unitsOk k _ (mem_of_tget hw)

theorem Evolves.facetRun {st n : Nat} (h : Evolves r s) : Evolves r (s.facetRun st n) := by
  induction n generalizing s with
  | zero => exact h
  | succ n ih =>
    rw [State.facetRun]
    split
    · exact h
    · next e => exact ih (h.facetFetch (facetOn_lanesOk h e))

theorem Keeps.facetRow {use : FUse} {sem : FSem} {st : Nat} {f : FIns} (hs : FSem.Sound sem) (h : Evolves r s) :
    Keeps r (facetRow use sem st f s) := by
  unfold Sys2Proof.Machine.facetRow
  split
  · exact .ok h
  · next e => exact .ok (.facetIns hs h (facetOn_lanesOk h e))

theorem Keeps.facet {slot fuel : Nat} (h : Evolves r s) : Keeps r (execFacet slot fuel s) := by
  unfold execFacet
  split
  · exact .ok h
  · exact .ok h.facetLoad
  · refine .ite (.ok h.facetLoad) (.ite (.ok h.facetStart) ?_)
    dsimp only
    split
    · exact .ok (h.facetRun.when (·.finish))
    · exact .ok h.facetRun

/-! ### The functions of Machine/Host.lean -/

theorem Evolves.makeQp {port part : Nat} (h : Evolves r s) : Yields r (s.makeQp port part) :=
  .mk (.tickFree (.same rfl h))

theorem Keeps.openSession {port : Nat} {hd : CtlHdr} {b : OpenBody} (h : Evolves r s) : Keeps r (execOpenSession port hd b s) := by
  unfold execOpenSession
  refine .ite (.ok h.takeInbox) ?_
  dsimp only
  split
  · exact .ok h.takeInbox.reply
  · refine .ite (.ok h.takeInbox.reply) (.ite (.ok h.takeInbox.reply) (.ite (.ok h.takeInbox.reply)
      (.ite ?_ (.ok (.respond (.mirror (.same rfl (Yields.fst (.ite (.mk h.takeInbox) h.takeInbox.makeQp)))))))))
    split
    · exact .ok h.takeInbox.reply
    · exact .ite (.ok h.takeInbox.reply) (.ok (.respond (.ackTo (.mirror (.same rfl
        (Yields.fst (.ite (.mk h.takeInbox) h.takeInbox.makeQp)))))))

theorem Keeps.closeSession {port : Nat} {hd : CtlHdr} (h : Evolves r s) : Keeps r (execCloseSession port hd s) := by
  unfold execCloseSession
  refine .ok (h.takeInbox.onSession (fun _ _ h => ?_))
  dsimp only
  split
  · exact h.respond
  · exact .mirror (.whenNot (.same rfl h.respond) (.same rfl))

theorem Keeps.ack {port : Nat} {hd : CtlHdr} (h : Evolves r s) : Keeps r (execAck port hd s) :=
  .ok (h.takeInbox.onSession (fun _ _ h => h))

theorem Keeps.submit {port : Nat} {hd : CtlHdr} {b : SubmitBody} (h : Evolves r s) : Keeps r (execSubmit port hd b s) := by
  unfold execSubmit
  refine .ok (h.takeInbox.onSession (fun _ _ h => .ite h.respond (.ite h.respond (.ite h.respond ?_))))
  split
  · exact .ite h.updReq h.respond
  · exact .ite h.respond (.whenNot (.same rfl h.mirror) (·.acceptReq))

theorem Evolves.clientOpFrame {port kind : Nat} {hd : CtlHdr} {req ttl : Nat} (h : Evolves r s) : Evolves r
    (clientOpFrame port kind hd req ttl s) := by
  unfold Sys2Proof.Machine.clientOpFrame
  refine h.takeInbox.onSession (fun _ _ h => .ite h.respond ?_)
  split
  · exact h.respond
  · exact .ite h.respond (.raiseP (.same rfl h))

theorem Keeps.cancel {port : Nat} {hd : CtlHdr} {req : Nat} (h : Evolves r s) : Keeps r (execCancel port hd req s) :=
  .ok h.clientOpFrame

theorem Keeps.pause {port : Nat} {hd : CtlHdr} {req ttl : Nat} (h : Evolves r s) : Keeps r (execPause port hd req ttl s) :=
  .ok h.clientOpFrame

theorem Keeps.resume {port : Nat} {hd : CtlHdr} {req : Nat} (h : Evolves r s) : Keeps r (execResume port hd req s) :=
  .ok h.clientOpFrame

theorem Keeps.ttlExpiry {req : Nat} (h : Evolves r s) : Keeps r (execTtlExpiry req s) := by
  unfold execTtlExpiry
  split
  · exact .ok h
  · exact .ite (.ok h.raiseP) (.ok h)

theorem Keeps.query {port : Nat} {hd : CtlHdr} {act : Session → State → State} (h : Evolves r s)
    (hact : ∀ x u, Evolves r u → Evolves r (act x u)) : Keeps r (query port hd s act) :=
  .ok (h.takeInbox.onSession hact)

theorem Keeps.inventory {port : Nat} {hd : CtlHdr} (h : Evolves r s) : Keeps r (execInventory port hd s) :=
  .query h (fun _ _ h => h.respond)

theorem Keeps.attestCert {port : Nat} {hd : CtlHdr} {nonce : List Byte} (h : Evolves r s) : Keeps r (execAttestCert port hd nonce s) :=
  .query h (fun _ _ h => .ite h.askCert h.respond)

theorem Keeps.sessionState {port : Nat} {hd : CtlHdr} (h : Evolves r s) : Keeps r (execSessionState port hd s) :=
  .query h (fun _ _ h => .ite h.respond h.respond)

theorem Keeps.dumpRead {port : Nat} {hd : CtlHdr} {offset : Nat} (h : Evolves r s) : Keeps r (execDumpRead port hd offset s) :=
  .query h (fun _ _ h => .ite h.respond (.ite h.respond (.ite h.respond h.respond)))

/-! ### The functions of Machine/Image.lean -/

theorem Evolves.takeShaped {slot inp : Nat} {b : InBind} {good : Tile → Bool} (h : Evolves r s) : Evolves r
    (s.takeShaped slot inp b good) := by
  unfold State.takeShaped
  split
  · exact h.upstreamEnd
  · exact .ite h.takeTile.releaseTo h.finish

theorem Evolves.rasterEnd {slot total tiles : Nat} (h : Evolves r s) : Evolves r (s.rasterEnd slot total tiles) := by
  unfold State.rasterEnd
  split
  · exact h
  · exact .ite h.reach h.settle

theorem Evolves.rasterStep {slot : Nat} {c : Tracked} {d : MapDim} {total need : Nat} {form : State → State} (h : Evolves r s)
    (hform : ∀ u, Evolves r u → Evolves r (form u)) : Evolves r (s.rasterStep slot c d total need form) := by
  unfold State.rasterStep
  split
  · exact h
  · exact .ite (h.when (fun h => .rasterEnd (hform _ h))) h.takeShaped.rasterEnd

theorem Evolves.convOpen {slot : Nat} {c : Tracked} (h : Evolves r s) : Evolves r (s.convOpen slot c) := by
  unfold State.convOpen
  split
  · exact h.finish
  · exact h
  · exact .ite h.finish (h.openRanges (fun _ _ h => h.engineOpened))

theorem Evolves.convForm {slot : Nat} {tc : Tracked} {c : ConvCfg} {xs ws : List Tile} {sl : Nat} (h : Evolves r s) : Evolves r
    (s.convForm slot tc c xs ws sl) :=
  .formTile (.gather (h.when (·.count)))

theorem Evolves.convStep {slot : Nat} {tc : Tracked} {c : ConvCfg} (h : Evolves r s) : Evolves r (s.convStep slot tc c) := by
  unfold State.convStep
  split
  · dsimp only
    split
    · exact h.takeShaped
    · exact .ite h.takeShaped (h.rasterStep (fun _ h => h.convForm))
  · exact h

theorem Keeps.conv {slot : Nat} (h : Evolves r s) : Keeps r (execConv slot s) := by
  unfold execConv
  split
  · exact .ok h
  · refine .ite (.ok h.convOpen) ?_
    split
    · exact .ok h
    · exact .ok h.convStep

theorem Keeps.pool {slot : Nat} (h : Evolves r s) : Keeps r (execPool slot s) := by
  unfold execPool
  split
  · exact .ok h
  · refine .ite ?_ (.ok (h.rasterStep (fun _ h => .formTile (.gather (h.when (·.count))))))
    split
    · exact .ok h.finish
    · exact .ok (h.openRanges (fun _ _ h => h.engineOpened))

theorem Keeps.argmax {slot : Nat} (h : Evolves r s) : Keeps r (execArgmax slot s) := by
  unfold execArgmax
  split
  · exact .ok h
  · exact .ite (.ite (.ok h.finish) (.ite (.ok h.finish) (.ok h.engineOpened))) (.ok
      (h.rasterStep (fun _ h => h.count.gather.formTile.when (·.formTile))))

theorem Evolves.fusedForm {slot : Nat} {c : Tracked} {ls : List Layer} {ts : List Tile} {b i total : Nat} (h : Evolves r s) : Evolves r
    (s.fusedForm slot c ls ts b i total) :=
  .formTile (.gather (h.when (·.count)))

theorem Evolves.fusedStep {slot : Nat} {c : Tracked} {ls : List Layer} (h : Evolves r s) : Evolves r (s.fusedStep slot c ls) := by
  unfold State.fusedStep
  split
  · exact h
  · exact .ite h.fusedForm.rasterEnd (h.when (·.takeShaped.rasterEnd))

theorem Keeps.fused {slot : Nat} (h : Evolves r s) : Keeps r (execFused slot s) := by
  unfold execFused
  split
  · exact .ok h
  · refine .ite ?_ (.ok h.fusedStep)
    split
    · exact .ok h.finish
    · exact .ok (h.openRanges (fun _ _ h => h.engineOpened))

/-! ### The functions of Machine/Rdma.lean -/

theorem Keeps.rread {slot : Nat} (h : Evolves r s) : Keeps r (execRread slot s) := by
  unfold execRread
  split
  · exact .ok h
  · dsimp only
    split
    · exact .ok h.finish
    · split
      · exact Evolves.use (.formTile (.updCmd (.same rfl h))) fun h => .ok (.ite h.reach h.settle)
      · exact .ite (.ok h.updCmd.issue) (.ok h)

theorem Keeps.rwrite {slot : Nat} (h : Evolves r s) : Keeps r (execRwrite slot s) := by
  unfold execRwrite
  split
  · exact .ok h
  · dsimp only
    split
    · exact .ok h.finish
    · split
      · exact .ok h.upstreamEnd
      · exact .ok h.takeTile.releaseTo.issue.updCmd

/-- The number of a packet is kept apart: what it computes with is too large to be unfolded. -/
theorem Keeps.rdmaResponse {qpn : Nat} {q : RdmaResp} (h : Evolves r s) : Keeps r (execRdmaResponse qpn q s) := by
  obtain ⟨psn, hpsn⟩ : ∃ f, f = psnOf := ⟨_, rfl⟩
  unfold execRdmaResponse
  rw [← hpsn]
  clear hpsn
  dsimp only
  split
  · exact .ok (.same rfl h)
  · refine .ite (.ok (.same rfl h)) ?_
    split
    · split
      · exact .ok (.same rfl h)
      · exact .ite (.ok (.settleWrites (.same rfl (.same rfl h)))) (.ok (.same rfl h))
    · split
      · exact .ok (.same rfl h)
      · exact .ok (.settleWrites (.same rfl (.same rfl h)))
    · split
      · exact .ok (.same rfl h)
      · exact .ok (.resend (.settleWrites (.same rfl (.same rfl h))))
    · exact .ok (.qpError (.same rfl h))

theorem Keeps.rdmaRetryTimeout {qpn : Nat} (h : Evolves r s) : Keeps r (execRdmaRetryTimeout qpn s) := by
  unfold execRdmaRetryTimeout
  split
  · exact .ok h
  · exact .ite (.ite (.ok h.qpError) (.ok (.resend (.same rfl h)))) (.ok h)

theorem Keeps.congestionNotification {qpn : Nat} (h : Evolves r s) : Keeps r (execCongestionNotification qpn s) := by
  unfold execCongestionNotification
  dsimp only
  split
  · exact .ite (.ok (.same rfl (.same rfl h))) (.ok (.same rfl h))
  · exact .ok (.same rfl h)

theorem Keeps.rateIncrease {qpn : Nat} (h : Evolves r s) : Keeps r (execRateIncrease qpn s) := by
  unfold execRateIncrease
  split
  · exact .ite (.ok (.same rfl h)) (.ok h)
  · exact .ok h

/-- By the branch that answered. -/
theorem Evolves.of_ite {p : Prop} {_ : Decidable p} {a b : Option State} (e : (if p then a else b) = some t)
    (ha : a = some t → Evolves r t) (hb : b = some t → Evolves r t) : Evolves r t := by
  split at e
  · exact ha e
  · exact hb e

theorem Evolves.resultRecord {l : List Byte} (h : Evolves r s) (e : s.resultRecord l = some t) : Evolves r t := by
  unfold State.resultRecord at e
  refine .of_ite e (fun e => Option.some.inj e ▸ h) fun e => ?_
  dsimp only at e
  split at e
  · cases e
  · refine .of_ite e (fun e => ?_) fun e => ?_
    · exact Option.some.inj e ▸ .when h fun h => .mirror (.same (by with_reducible rfl) h)
    split at e
    · cases e
    · refine .of_ite e nofun fun e => .of_ite e (fun e => Option.some.inj e ▸ h) fun e => ?_
      rw [← Option.some.inj e]
      exact .ite h.updReq.retain h.updReq.retain

theorem Evolves.resultRecords {ls : List (List Byte)} (h : Evolves r s) (e : s.resultRecords ls = some t) : Evolves r t := by
  induction ls generalizing s with
  | nil => cases e; exact h
  | cons l ls ih =>
    rw [State.resultRecords] at e
    split at e
    · next e' => exact ih (h.resultRecord e') e
    · cases e

theorem Keeps.result {slot : Nat} (h : Evolves r s) : Keeps r (execResult slot s) := by
  unfold execResult
  split
  · exact .ok h
  · split
    · exact .ok h.upstreamEnd
    · refine .ite (.ok h.finish) ?_
      split
      · exact .ok h.finish
      · next e => exact .ok ((h.resultRecords e).takeTile.releaseTo.when (·.reach))

theorem Keeps.resultRingWrite {session : Nat} (h : Evolves r s) : Keeps r (execResultRingWrite session s) := by
  unfold execResultRingWrite
  split
  · exact .ok h
  · dsimp only
    split
    · exact .ok h
    · exact .ite (.ok (.issue (.same rfl h))) (.ok h)

/-! ### The functions of Machine/Update.lean -/

theorem Evolves.fwResult {st : Nat} (h : Evolves r s) : Evolves r (s.fwResult st) :=
  h.fset

theorem Keeps.fwOp {port : Nat} {hd : CtlHdr} {act : State → State × Nat} (h : Evolves r s) (hact : ∀ u, Evolves r u → Yields r (act u))
    : Keeps r (fwOp port hd s act) :=
  .ok (h.takeInbox.onSession (fun _ _ h => .ite (.respond (.fwResult (Yields.fst (hact _ h)))) h.respond))

theorem Evolves.programBlock {b : FwBody} (h : Evolves r s) : Evolves r (s.programBlock b) := by
  unfold State.programBlock
  refine .ite (.same rfl h) (.fset ?_)
  split
  · exact .setReg (.fset (.same rfl h))
  · exact .fset (.same rfl h)

theorem Evolves.programFails {settings : Bool} (h : Evolves r s) : Yields r (s.programFails settings) := by
  unfold State.programFails
  exact .mk (by with_reducible exact h.bump.reportFault)

theorem Keeps.fwData {port : Nat} {hd : CtlHdr} {b : FwBody} (h : Evolves r s) : Keeps r (execFwData port hd b s) := by
  unfold execFwData
  refine .fwOp h (fun _ h => .ite (.mk h) (.ite (.mk h) ?_))
  split
  · exact .ite (.mk h) (.mk h)
  · exact .ite h.programFails (.mk h.programBlock)

theorem Evolves.verifySettings {fails : Bool} (h : Evolves r s) : Yields r (s.verifySettings fails) := by
  unfold State.verifySettings
  dsimp only
  split
  · exact .mk (.same rfl h)
  · exact .ite (Evolves.programFails (.same rfl h)) (.ite (.mk (.same rfl (.same rfl h))) (.mk (.same rfl (.same rfl h))))

theorem Keeps.fwVerify {port : Nat} {hd : CtlHdr} {b : FwBody} (h : Evolves r s) : Keeps r (execFwVerify port hd b s) :=
  .fwOp h (fun _ h => .ite (.mk h) (.ite (.ite h.verifySettings (.mk h)) (.ite (.mk h)
      (.ite (.mk h) (.ite (.mk h.fset) (.mk h.stageErase))))))

theorem Keeps.fwActivate {port : Nat} {hd : CtlHdr} {b : FwBody} (h : Evolves r s) : Keeps r (execFwActivate port hd b s) :=
  .fwOp h (fun _ h => .ite (.mk h) (.ite (.mk h) (.ite (.mk h) (.ite (.mk h) (.mk (.same rfl h.setReg.fset))))))

theorem Keeps.fwCancel {port : Nat} {hd : CtlHdr} {b : FwBody} (h : Evolves r s) : Keeps r (execFwCancel port hd b s) :=
  .fwOp h (fun _ h => .ite (.mk h) (.ite (.mk h) (.mk h.setReg.fset)))

theorem Keeps.fwDiscard {port : Nat} {hd : CtlHdr} {b : FwBody} (h : Evolves r s) : Keeps r (execFwDiscard port hd b s) :=
  .fwOp h (fun _ h => .ite (.mk h) (.ite (.mk (.same rfl h)) (.ite (.mk h.stageErase) (.mk h))))

theorem Keeps.fwStatus {port : Nat} {hd : CtlHdr} {_b : FwBody} (h : Evolves r s) : Keeps r (execFwStatus port hd _b s) :=
  .ok (h.takeInbox.onSession (fun _ _ h => .ite h.respond h.respond))

theorem Keeps.eraseDone {done : Bool} (h : Evolves r s) : Keeps r (execEraseDone done s) :=
  .ite (.ok h) (.ite (.ok (.setReg (.fset (.fset (.same rfl h))))) (.ok h.bump.fwResult.reportFault))

/-! ### The functions of Machine/Idle.lean -/

theorem Evolves.endStops (h : Evolves r s) : Evolves r (s.endStops) :=
  h.whenNot (fun h => h.foldl (fun _ _ h => .fset (.same rfl h)))

theorem Evolves.refTick (h : Evolves r s) : Evolves r (refTick s) :=
  .when (.endStops (.same (by with_reducible rfl) h.passTicks)) (·.newTimeSet)

theorem Evolves.thimbleTick (h : Evolves r s) : Evolves r (thimbleTick s) := by
  unfold Sys2Proof.Machine.thimbleTick
  exact .same (by with_reducible rfl) h

theorem Evolves.idle (h : Evolves r s) : Evolves r (idle s) :=
  .ite h.refTick (h.when (·.thimbleTick))

end Sys2Proof.Machine
end

section
/-! PROOFS. Every command and every step keeps the invariants (O59). -/

namespace Sys2Proof.Machine

open Sys2Proof

variable {r s t : State}

/-- Every command keeps what no command changes, and the invariants. -/
theorem exec_keeps (h : Evolves r s) : (c : Instr) → Keeps r (exec c s)
  | .loomSqTail .. => .loomSqTail h
  | .loomSqBase .. => .loomSqBase h
  | .loomSqCtl .. => .loomSqCtl h
  | .descriptorAccept .. => .descriptorAccept h
  | .dispatch .. => .dispatch h
  | .tileSend .. => .tileSend h
  | .tileArrive .. => .tileArrive h
  | .creditReturn .. => .creditReturn h
  | .loomStall .. => .loomStall h
  | .loomAbort .. => .loomAbort h
  | .eventGrant => .eventGrant h
  | .completionRecordWrite .. => .completionRecordWrite h
  | .nop .. => .nop h
  | .tload .. => .tload h
  | .tstore .. => .tstore h
  | .htask .. => .htask h
  | .htaskHandover .. => .htaskHandover h
  | .hcTaskDone .. => .hcTaskDone h
  | .gemm .. => .gemm h
  | .accreduce .. => .accreduce h
  | .convert .. => .convert h
  | .facet .. => .facet h
  | .facetNop .. => .facetRow semNop_sound h
  | .halt .. => .facetRow semHalt_sound h
  | .br .. => .facetRow semBr_sound h
  | .bez .. => .facetRow semBez_sound h
  | .bnz .. => .facetRow semBnz_sound h
  | .loop .. => .facetRow semLoop_sound h
  | .sadd .. => .facetRow (scalar2_sound _) h
  | .ssub .. => .facetRow (scalar2_sound _) h
  | .smul .. => .facetRow (scalar2_sound _) h
  | .sand .. => .facetRow (scalar2_sound _) h
  | .sor .. => .facetRow (scalar2_sound _) h
  | .sxor .. => .facetRow (scalar2_sound _) h
  | .sshl .. => .facetRow (scalar2_sound _) h
  | .sshr .. => .facetRow (scalar2_sound _) h
  | .ssra .. => .facetRow (scalar2_sound _) h
  | .sslt .. => .facetRow (scalar2_sound _) h
  | .ssltu .. => .facetRow (scalar2_sound _) h
  | .smin .. => .facetRow (scalar2_sound _) h
  | .smax .. => .facetRow (scalar2_sound _) h
  | .movi .. => .facetRow semMovi_sound h
  | .vadd .. => .facetRow (vec2_sound _) h
  | .vsub .. => .facetRow (vec2_sound _) h
  | .vmul .. => .facetRow (vec2_sound _) h
  | .vfma .. => .facetRow (vec3_sound _) h
  | .vmin .. => .facetRow (vec2_sound _) h
  | .vmax .. => .facetRow (vec2_sound _) h
  | .vabs .. => .facetRow (vec1_sound _) h
  | .vneg .. => .facetRow (vec1_sound _) h
  | .vdiv .. => .facetRow (vec2_sound _) h
  | .vsqrt .. => .facetRow (vec1_sound _) h
  | .vcvtfi .. => .facetRow (vset_sound _ _ _) h
  | .vcvtif .. => .facetRow (vec1_sound _) h
  | .vmov .. => .facetRow (vset_sound _ _ _) h
  | .vsel .. => .facetRow (vset_sound _ _ _) h
  | .viadd .. => .facetRow (int2_sound _) h
  | .visub .. => .facetRow (int2_sound _) h
  | .vimul .. => .facetRow (int2_sound _) h
  | .vand .. => .facetRow (int2_sound _) h
  | .vor .. => .facetRow (int2_sound _) h
  | .vxor .. => .facetRow (int2_sound _) h
  | .vshl .. => .facetRow (int2_sound _) h
  | .vshr .. => .facetRow (int2_sound _) h
  | .vsra .. => .facetRow (int2_sound _) h
  | .vimin .. => .facetRow (int2_sound _) h
  | .vimax .. => .facetRow (int2_sound _) h
  | .vceq .. => .facetRow (cmp2_sound _) h
  | .vclt .. => .facetRow (cmp2_sound _) h
  | .vcle .. => .facetRow (cmp2_sound _) h
  | .vcun .. => .facetRow (cmp2_sound _) h
  | .viceq .. => .facetRow (cmp2_sound _) h
  | .viclt .. => .facetRow (cmp2_sound _) h
  | .pand .. => .facetRow (pred2_sound _) h
  | .por .. => .facetRow (pred2_sound _) h
  | .pxor .. => .facetRow (pred2_sound _) h
  | .pnot .. => .facetRow (pset_sound _ _ _) h
  | .planes .. => .facetRow (pset_sound _ _ _) h
  | .exp .. => .facetRow (vec1_sound _) h
  | .exp2 .. => .facetRow (vec1_sound _) h
  | .log .. => .facetRow (vec1_sound _) h
  | .log2 .. => .facetRow (vec1_sound _) h
  | .recip .. => .facetRow (vec1_sound _) h
  | .rsqrt .. => .facetRow (vec1_sound _) h
  | .sigmoid .. => .facetRow (vec1_sound _) h
  | .tanh .. => .facetRow (vec1_sound _) h
  | .erf .. => .facetRow (vec1_sound _) h
  | .geluTanh .. => .facetRow (vec1_sound _) h
  | .geluErf .. => .facetRow (vec1_sound _) h
  | .silu .. => .facetRow (vec1_sound _) h
  | .vrsum .. => .facetRow (reduceF_sound _) h
  | .vrmax .. => .facetRow (reduceF_sound _) h
  | .vrmin .. => .facetRow (reduceF_sound _) h
  | .vriadd .. => .facetRow (reduce_sound _) h
  | .vbcast .. => .facetRow (vset_sound _ _ _) h
  | .vext .. => .facetRow semVext_sound h
  | .vslide .. => .facetRow (vset_sound _ _ _) h
  | .vidx .. => .facetRow (vset_sound _ _ _) h
  | .vperm .. => .facetRow (vset_sound _ _ _) h
  | .vld .. => .facetRow semVld_sound h
  | .vst .. => .facetRow semVst_sound h
  | .vldt .. => .facetRow semVldt_sound h
  | .vstt .. => .facetRow semVstt_sound h
  | .twait .. => .facetRow semTwait_sound h
  | .trel .. => .facetRow semTrel_sound h
  | .topen .. => .facetRow semTopen_sound h
  | .temit .. => .facetRow semTemit_sound h
  | .conv .. => .conv h
  | .pool .. => .pool h
  | .argmax .. => .argmax h
  | .fused .. => .fused h
  | .attn .. => .attn h
  | .attnBwd .. => .attnBwd h
  | .kvop .. => .kvop h
  | .seqOpen .. => .seqOpen h
  | .seqClose .. => .seqClose h
  | .share .. => .share h
  | .drop .. => .drop h
  | .cow .. => .cow h
  | .pin .. => .pin h
  | .unpin .. => .unpin h
  | .resolve .. => .resolve h
  | .tick .. => .tick h
  | .noevict .. => .noevict h
  | .kvopQuery .. => .kvopQuery h
  | .alloc .. => .alloc h
  | .decref .. => .decref h
  | .flush .. => .flush h
  | .ledgerClassValid .. => .ledgerClassValid h
  | .sample .. => .sample h
  | .sctl .. => .sctl h
  | .groupCancel .. => .groupCancel h
  | .groupClear .. => .groupClear h
  | .seqReset .. => .seqReset h
  | .seqLoop .. => .seqLoop h
  | .seqQuery .. => .seqQuery h
  | .memoryRead .. => .memoryRead h
  | .memoryWrite .. => .memoryWrite h
  | .lodeScrub .. => .lodeScrub h
  | .lodeCal .. => .lodeCal h
  | .memRegionWrite .. => .memRegionWrite h
  | .cmClearDone => .cmClearDone h
  | .memPartKey .. => .memPartKey h
  | .retire .. => .retire h
  | .vchan .. => .vchan h
  | .vchanOpen .. => .vchanOpen h
  | .vchanClose .. => .vchanClose h
  | .keypic .. => .keypic h
  | .vchanQuery .. => .vchanQuery h
  | .vdec .. => .vdec h
  | .venc .. => .venc h
  | .packetTake .. => .packetTake h
  | .pictureComplete .. => .pictureComplete h
  | .fwTimeout .. => .fwTimeout h
  | .frameReceive .. => .frameReceive h
  | .classify .. => .classify h
  | .reassemblyTimeout .. => .reassemblyTimeout h
  | .rread .. => .rread h
  | .rwrite .. => .rwrite h
  | .rdmaResponse .. => .rdmaResponse h
  | .rdmaRetryTimeout .. => .rdmaRetryTimeout h
  | .congestionNotification .. => .congestionNotification h
  | .rateIncrease .. => .rateIncrease h
  | .result .. => .result h
  | .resultRingWrite .. => .resultRingWrite h
  | .openSession .. => .openSession h
  | .closeSession .. => .closeSession h
  | .submit .. => .submit h
  | .ack .. => .ack h
  | .cancel .. => .cancel h
  | .pause .. => .pause h
  | .resume .. => .resume h
  | .ttlExpiry .. => .ttlExpiry h
  | .inventory .. => .inventory h
  | .attestCert .. => .attestCert h
  | .sessionState .. => .sessionState h
  | .dumpRead .. => .dumpRead h
  | .fwData .. => .fwData h
  | .fwVerify .. => .fwVerify h
  | .fwActivate .. => .fwActivate h
  | .fwCancel .. => .fwCancel h
  | .fwDiscard .. => .fwDiscard h
  | .fwStatus _ _ b => @Keeps.fwStatus r s _ _ b h
  | .eraseDone .. => .eraseDone h
  | .pairLease .. => .pairLease h
  | .strobe .. => .strobe h
  | .tagAnnouncement .. => .tagAnnouncement h
  | .verdictWrite .. => .verdictWrite h
  | .trigEdge .. => .trigEdge h
  | .trigAccept .. => .trigAccept h
  | .lineTrigPop .. => .lineTrigPop h
  | .timeSetBoundary => .timeSetBoundary h
  | .offsetResult .. => .offsetResult h
  | .tbAdj .. => .tbAdj h
  | .tbRate .. => .tbRate h
  | .tbHoldover => .tbHoldover h
  | .linkEnable .. => .linkEnable h
  | .retrain .. => .retrain h
  | .recal .. => .recal h
  | .fecLock .. => .fecLock h
  | .fecLockTimeout .. => .fecLockTimeout h
  | .calibDone .. => .calibDone h
  | .ident .. => .ident h
  | .failedRetry .. => .failedRetry h
  | .linkLoss .. => .linkLoss h
  | .opticsSample .. => .opticsSample h
  | .data .. => .data h
  | .credit .. => .credit h
  | .cmd .. => .cmd h
  | .cpl .. => .cpl h
  | .arrive .. => .arrive h
  | .release .. => .release h
  | .warpAck .. => .warpAck h
  | .warpNak .. => .warpNak h
  | .keyUpdate .. => .keyUpdate h
  | .partEpoch .. => .partEpoch h
  | .wsend .. => .wsend h
  | .wrecv .. => .wrecv h
  | .barrier .. => .barrier h
  | .barrierTimeout .. => .barrierTimeout h
  | .wsubmit .. => .wsubmit h
  | .lease .. => .lease h
  | .journal .. => .journal h
  | .journalConfirm .. => .journalConfirm h
  | .decision .. => .decision h
  | .decisionConfirm .. => .decisionConfirm h
  | .pktFetch .. => .pktFetch h
  | .pktData .. => .pktData h
  | .joinData .. => .joinData h
  | .joinCtl .. => .joinCtl h
  | .swap .. => .swap h
  | .lineRead .. => .lineRead h
  | .leaseRenewal => .leaseRenewal h
  | .leaseExpiry => .leaseExpiry h
  | .leaseLapse => .leaseLapse h
  | .releaseTakeover => .releaseTakeover h
  | .leaseWaitTimeout => .leaseWaitTimeout h
  | .pairHeartbeat who => @Keeps.pairHeartbeat r s who h
  | .swapReq .. => .swapReq h
  | .swapAt => .swapAt h
  | .capSet .. => .capSet h
  | .capLeaseExpired => .capLeaseExpired h
  | .capLoop .. => .capLoop h
  | .phaseWindow .. => .phaseWindow h
  | .pmStationPhase who .. => @Keeps.pmStationPhase r s who _ _ h
  | .opStepDone => .opStepDone h
  | .warnAssert .. => .warnAssert h
  | .warnClear .. => .warnClear h
  | .warnHoldExpiry .. => .warnHoldExpiry h
  | .droop .. => .droop h
  | .droopClear => .droopClear h
  | .thermalSample .. => .thermalSample h
  | .thermalTrip => .thermalTrip h
  | .alert => .alert h
  | .alertClear => .alertClear h
  | .dozeRequest .. => .dozeRequest h
  | .watchRequest .. => .watchRequest h
  | .dormantRequest .. => .dormantRequest h
  | .tickW0 => .tickW0 h
  | .entryWindowEnd => .entryWindowEnd h
  | .wakePin .. => .wakePin h
  | .mctpWake => .mctpWake h
  | .alarm => .alarm h
  | .watchSample .. => .watchSample h
  | .wake .. => .wake h
  | .dozeExit => .dozeExit h
  | .selvageRelease .. => .selvageRelease h
  | .partitionCreate .. => .partitionCreate h
  | .teardown .. => .teardown h
  | .drainDone .. => .drainDone h
  | .stragglerTimeout .. => .stragglerTimeout h
  | .cleanDone .. => .cleanDone h
  | .gnMeasExtend .. => .gnMeasExtend h
  | .gnAttestReq .. => .gnAttestReq h
  | .certIssued => .certIssued h
  | .selftest .. => .selftest h
  | .selftestDone .. => .selftestDone h
  | .zeroise .. => .zeroise h
  | .tamper .. => .tamper h
  | .healthTestFail .. => .healthTestFail h
  | .faultReport .. => .faultReport h
  | .safeReq .. => .safeReq h
  | .collectorFault => .collectorFault h
  | .unitResetDone .. => .unitResetDone h
  | .testSchedule => .testSchedule h
  | .fcTestReq .. => .fcTestReq h
  | .testStart => .testStart h
  | .testDone .. => .testDone h
  | .fcInject .. => .fcInject h
  | .fcStatus .. => .fcStatus h
  | .clear .. => .clear h
  | .sampleTick => .sampleTick h
  | .dbgTrcMark .. => .dbgTrcMark h
  | .dbgWdKick .. => .dbgWdKick h
  | .wdWarn .. => .wdWarn h
  | .watchdogExpiry .. => .watchdogExpiry h
  | .dumpReq .. => .dumpReq h
  | .dump => .dump h
  | .stopTick => .stopTick h
  | .dumpDone .. => .dumpDone h
  | .warmReq .. => .warmReq h
  | .coldReq .. => .coldReq h
  | .confirm .. => .confirm h
  | .reset .. => .reset h
  | .activation => .activation h
  | .trialTimeout => .trialTimeout h
  | .startComplete => .startComplete h
  | .powerOnReset => .powerOnReset h
  | .vin54Loss => .vin54Loss h
  | .registerWrite .. => .registerWrite h
  | .rcRead .. => .rcRead h
  | .lightOnBothLanes .. => .lightOnBothLanes h
  | .portLinkUp .. => .portLinkUp h
  | .gateControlListLoad .. => .gateControlListLoad h
  | .pendingEntryDiscard => .pendingEntryDiscard h
  | .clockGating .. => .clockGating h
  | .classInitDone .. => .classInitDone h
  | .imageComplete .. => .imageComplete h
  | .traceDrain .. => .traceDrain h
  | .waitForInterrupt => .waitForInterrupt h

/-- A step goes on from the state with the commands that wait behind the one it takes. -/
theorem step_evolves (e : step s = .next t) : ∃ l, Evolves { s with pending := l } t := by
  unfold step at e
  split at e
  · cases e
    exact ⟨s.pending, .idle .refl⟩
  · next c l _ => exact ⟨l, exec_keeps .refl c t e⟩

/-- Settles O59: every operation that a step is made of keeps the invariants, and so does the step. -/
theorem stepKeepsTheInvariants : Obligations.StepKeepsTheInvariants := by
  intro s t hm hu e
  obtain ⟨l, h⟩ := step_evolves e
  exact ⟨h.memInv hm, h.unitsOk hu⟩

end Sys2Proof.Machine
end

section
/-! PROOFS. One row of a running kernel (R204 to R210): what it leaves where its instruction retires or jumps, and which lanes, flags and
registers it writes. -/

namespace Sys2Proof.Machine

open Sys2Proof

/-- The unit after an instruction that retires and after which control goes on from an index. -/
def FacetUnit.went (u : FacetUnit) (after : Nat) : FacetUnit :=
  { u with pc := (loopNext after u.loops).1, loops := (loopNext after u.loops).2, retired := u.retired + 1 }

/-- The state as an instruction retires with its flags and saturated elements. -/
def State.retire (s : State) (st : Nat) (t : Tracked) (u : FacetUnit) (flags sat after : Nat) : State :=
  ((s.facetFlags t.slot flags sat).count st 13 1 t).putUnit st (u.went after)

/-- The state as an instruction jumps. -/
def State.jumped (s : State) (st : Nat) (t : Tracked) (u : FacetUnit) (target : Nat) : State :=
  (s.count st 13 1 t).putUnit st { u with pc := target, loops := loopLeave target u.loops, retired := u.retired + 1 }

section
variable {s s' : State} {st flags sat after target : Nat} {t : Tracked} {u v : FacetUnit} {use : FUse} {sem : FSem} {f : FIns}

/-! ### The state a row leaves -/

theorem facetOn_eq_some (h : facetOn s st = some (t, u)) : tget s.facets st = some u ∧ u.ended = false ∧
    runningCmd s u.slot 0x30 = some t := by
  unfold facetOn at h
  split at h
  · cases h
  · next w hw =>
    split at h
    · cases h
    · next hend =>
      obtain ⟨c, hc, e⟩ := Option.map_eq_some_iff.mp h
      cases e
      exact ⟨hw, by simpa using hend, hc⟩

/-- The command of a running kernel, in the slot it runs in. -/
theorem facetOn_cmd? (h : facetOn s st = some (t, u)) : s.cmd? t.slot = some t ∧ t.slot = u.slot ∧ t.phase = .running ∧
    t.status = none := by
  obtain ⟨-, -, hr⟩ := facetOn_eq_some h
  obtain ⟨hc, hp, -, hst, -⟩ := runningCmd_eq_some hr
  have hslot := slot_of_cmd? hc
  exact ⟨hslot ▸ hc, hslot, hp, hst⟩

theorem facetRow_of_on (h : facetOn s st = some (t, u)) : facetRow use sem st f s = ok (s.facetIns st t u use sem f) := by
  unfold facetRow
  rw [h]

theorem not_budget (h : u.limit = 0 ∨ u.retired < u.limit) : ¬ (u.limit ≠ 0 ∧ u.limit ≤ u.retired) := by omega

theorem facetIns_of_illegal (h : use.illegal f = true) : s.facetIns st t u use sem f = s.finish t.slot St.cmdError Fc.illegal := by
  unfold State.facetIns
  exact if_pos h

theorem facetIns_go {s₁ : State} (hlegal : use.illegal f = false) (hlim : u.limit = 0 ∨ u.retired < u.limit)
    (hsem : sem s t u f = .go s₁ v flags sat after) (hst : ((s₁.facetFlags t.slot flags sat).cmd? t.slot).bind Tracked.status = none) :
    s.facetIns st t u use sem f = s₁.retire st t v flags sat after := by
  have hcount : (((s₁.facetFlags t.slot flags sat).count st 13 1 t).cmd? t.slot).bind Tracked.status = none := by
    rw [cmd?_congr (dbgOnly_count ..).tracked, hst]
  unfold State.facetIns
  simp only [hlegal, Bool.false_eq_true, if_false, if_neg (not_budget hlim), hsem, hcount, Option.isSome_none]
  rfl

theorem facetIns_jump (hlegal : use.illegal f = false) (hlim : u.limit = 0 ∨ u.retired < u.limit)
    (hsem : sem s t u f = .jump v target) : s.facetIns st t u use sem f = s.jumped st t v target := by
  unfold State.facetIns
  simp only [hlegal, Bool.false_eq_true, if_false, if_neg (not_budget hlim), hsem]
  rfl

theorem facetIns_halt (hlegal : use.illegal f = false) (hlim : u.limit = 0 ∨ u.retired < u.limit)
    (hsem : sem s t u f = .halt) (hall : t.allLast = true) :
    s.facetIns st t u use sem f = (s.count st 13 1 t).reach t.slot St.done Det.none := by
  unfold State.facetIns
  simp only [hlegal, Bool.false_eq_true, if_false, if_neg (not_budget hlim), hsem, hall, not_true_eq_false]

/-- A command as it gathers flags and saturated elements. -/
def Tracked.flagged (t : Tracked) (flags sat : Nat) : Tracked :=
  { t with work := { t.work with flags := t.work.flags ||| flags, sat := t.work.sat + sat } }

theorem cmd?_facetFlags {c : Tracked} (hc : s.cmd? t.slot = some c) (flags sat : Nat) :
    (s.facetFlags t.slot flags sat).cmd? t.slot = some (c.flagged flags sat) := by
  unfold State.facetFlags
  split
  · next h =>
    obtain ⟨rfl, rfl⟩ := h
    rw [hc, Tracked.flagged, Nat.or_zero, Nat.add_zero]
  · exact cmd?_updCmd_self hc

theorem facetFlags_frame (s : State) (slot flags sat : Nat) :
    s.facetFlags slot flags sat = { s with tracked := (s.facetFlags slot flags sat).tracked } := by
  unfold State.facetFlags
  split <;> rfl

section
variable (s st t u flags sat after)

theorem kept_facetFlags (slot : Nat) : Kept (dbgRegs st) s (s.facetFlags slot flags sat) := by
  rw [facetFlags_frame]
  exact kept_of_regs rfl rfl rfl rfl _

theorem kept_putUnit : Kept (dbgRegs st) s (s.putUnit st u) := kept_of_regs rfl rfl rfl rfl _

theorem kept_retire : Kept (dbgRegs st) s (s.retire st t u flags sat after) :=
  ((kept_facetFlags ..).trans (dbgOnly_count ..).kept).trans (kept_putUnit ..)

theorem kept_jumped : Kept (dbgRegs st) s (s.jumped st t u target) := (dbgOnly_count ..).kept.trans (kept_putUnit ..)

theorem facets_count : (s.count st 13 1 t).facets = s.facets := by rw [(dbgOnly_count s st 13 1 t).1]

theorem facets_facetFlags (slot : Nat) : (s.facetFlags slot flags sat).facets = s.facets := by rw [facetFlags_frame]

theorem facets_retire : (s.retire st t u flags sat after).facets = tset s.facets st (u.went after) := by
  unfold State.retire State.putUnit
  rw [facets_count, facets_facetFlags]

theorem tget_retire : tget (s.retire st t u flags sat after).facets st = some (u.went after) := by
  rw [facets_retire, tget_tset_self]

theorem tget_jumped : tget (s.jumped st t u target).facets st =
    some { u with pc := target, loops := loopLeave target u.loops, retired := u.retired + 1 } := by
  unfold State.jumped State.putUnit
  rw [facets_count, tget_tset_self]

theorem events_retire : (s.retire st t u flags sat after).events = s.events :=
  (dbgOnly_count ..).events.trans (by rw [facetFlags_frame])

theorem free_retire : (s.retire st t u flags sat after).free = s.free := by
  show ((s.facetFlags t.slot flags sat).count st 13 1 t).free = s.free
  rw [(dbgOnly_count ..).1, facetFlags_frame]

theorem cmd?_retire (slot : Nat) : (s.retire st t u flags sat after).cmd? slot = (s.facetFlags t.slot flags sat).cmd? slot :=
  cmd?_congr (dbgOnly_count ..).tracked slot
end

/-! ### A row that changes the unit alone -/

/-- A row whose function, where it applies, changes the unit but not its control retires, with what is shown of the unit that it
leaves. -/
theorem retires_of_unit {c : Instr} {P : State → Tracked → FacetUnit → State → FacetUnit → Prop}
    (hc : ∀ s, exec c s = facetRow use sem st f s)
    (h : ∀ s t u, facetOn s st = some (t, u) → LanesOk u → ∃ v fl, sem s t u f = .unit s v fl ∧ v.pc = u.pc ∧
      v.loops = u.loops ∧ v.retired = u.retired ∧ P s t u (s.retire st t v fl 0 u.pc) (v.went u.pc)) : Retires c st use f P := by
  intro s t u hon hlegal hlim hlanes
  obtain ⟨v, fl, hsem, hpc, hloops, hret, hP⟩ := h s t u hon hlanes
  obtain ⟨hcmd, -, -, hst⟩ := facetOn_cmd? hon
  have hgo : sem s t u f = .go s v fl 0 u.pc := by rw [hsem, FRes.unit, hpc]
  refine ⟨s.retire st t v fl 0 u.pc, ?_, v.went u.pc, tget_retire .., ?_, ?_, ?_, hP, ?_, events_retire .., kept_retire ..⟩
  · rw [hc, facetRow_of_on hon, facetIns_go hlegal hlim hgo (by rw [cmd?_facetFlags hcmd]; exact hst)]; rfl
  · rw [FacetUnit.went, hloops]
  · rw [FacetUnit.went, hloops]
  · rw [FacetUnit.went, hret]
  · intro k hk
    rw [facets_retire, tget_tset_ne _ _ (Ne.symm hk)]

end

/-! ### Lanes of registers and sources -/

section
variable {α β γ δ : Type}

theorem getD_map_lt {l : List α} {g : α → β} {k : Nat} (h : k < l.length) (a : α) (b : β) : (l.map g).getD k b = g (l.getD k a) := by
  simp [List.getD_eq_getElem?_getD, h]

theorem getD_zip_lt {l : List α} {m : List β} {k : Nat} (hl : k < l.length) (hm : k < m.length) (a : α) (b : β) (c : α × β) :
    (l.zip m).getD k c = (l.getD k a, m.getD k b) := by
  simp [List.getD_eq_getElem?_getD, hl, hm]

theorem getD_map_laneIdx (g : Nat → β) {k : Nat} (hk : k < 256) (b : β) : (laneIdx.map g).getD k b = g k := by
  rw [getD_map_lt (by simpa using hk) 0]
  simp [List.getD_eq_getElem?_getD, hk]

theorem getD_replicate_lt (x : α) {n k : Nat} (hk : k < n) (d : α) : (List.replicate n x).getD k d = x := by
  simp only [List.getD_eq_getElem?_getD, List.getElem?_replicate, hk, if_true, Option.getD_some]
end

section
variable {u : FacetUnit} {f : FIns} {k : Nat}

theorem pget_length (h : LanesOk u) (n : Nat) : (u.pget n).length = 256 := by
  have hn : (BitVec.ofNat 5 (n % 8)).toNat % 8 = n % 8 := by
    rw [BitVec.toNat_ofNat]
    omega
  rw [← pget_congr u hn]
  exact (h _).2

theorem mask_length (h : LanesOk u) : (u.mask f).length = 256 := by rw [FacetUnit.mask, List.length_map, pget_length h]

theorem vsrcB_length (h : LanesOk u) : (u.vsrcB f).length = 256 := by
  unfold FacetUnit.vsrcB
  split
  · exact List.length_replicate
  · exact (h _).1

theorem getD_mask (h : LanesOk u) (hk : k < 256) : (u.mask f).getD k false = active u f k := by
  rw [FacetUnit.mask, getD_map_lt (by rwa [pget_length h]) true]
  rfl

theorem getD_vsrcB (hk : k < 256) : (u.vsrcB f).getD k 0 = laneB u f k := by
  unfold FacetUnit.vsrcB laneB
  split
  · exact getD_replicate_lt _ hk _
  · rfl

end

/-! ### What a write of a register leaves -/

section
variable {u : FacetUnit} {after : Nat}

theorem scalarSet_sset (u : FacetUnit) (d : BitVec 5) (x : W32) (after : Nat) : ScalarSet u ((u.sset d x).went after) d x :=
  ⟨fun i => sget_sset u d i x, by rw [sset_frame]; rfl⟩

theorem vecSet_vset (d : BitVec 5) {m : List Bool} {xs : List W32} {on : Nat → Bool} {val : Nat → W32}
    (hm : ∀ k, k < 256 → m.getD k false = on k) (hx : ∀ k, k < 256 → xs.getD k 0 = val k) :
    VecSet u ((u.vset d m xs).went after) d on val := by
  refine ⟨fun k hk => ?_, fun i hi => vget_vset_ne u hi m xs, rfl⟩
  rw [← hm k hk, ← hx k hk]
  exact getD_vget_vset u hk d m xs

theorem predSet_pset (d : Nat) {m xs : List Bool} {on val : Nat → Bool} (hm : ∀ k, k < 256 → m.getD k false = on k)
    (hx : ∀ k, k < 256 → xs.getD k false = val k) : PredSet u ((u.pset d m xs).went after) d on val := by
  refine ⟨fun hd k hk => ?_, fun i hi => pget_pset_ne u hi m xs, by rw [pset_frame]; rfl⟩
  rw [← hm k hk, ← hx k hk]
  exact getD_pget_pset u hd hk m xs

/-! ### Flags -/

/-- The flags of a list of lanes are those that an active lane has. -/
theorem testBit_flagFold (xs : List (Bool × Nat × Nat)) (a b : Nat) :
    (xs.foldl (fun a x => if x.1 then a ||| x.2.2 else a) a).testBit b = true ↔
      a.testBit b = true ∨ ∃ x ∈ xs, x.1 = true ∧ x.2.2.testBit b = true := by
  induction xs generalizing a with
  | nil => simp
  | cons x xs ih =>
    obtain ⟨on, y, fl⟩ := x
    rw [List.foldl_cons, ih]
    cases on <;> simp [Nat.testBit_or, or_assoc]

theorem testBit_laneFlags {m : List Bool} {rs : List (Nat × Nat)} (hm : m.length = 256) (hr : rs.length = 256) (b : Nat) :
    (laneFlags m rs).testBit b = true ↔ ∃ k, k < 256 ∧ m.getD k false = true ∧ (rs.getD k (0, 0)).2.testBit b = true := by
  rw [laneFlags, testBit_flagFold, Nat.zero_testBit]
  simp only [Bool.false_eq_true, false_or]
  constructor
  · rintro ⟨x, hx, hon, hfl⟩
    obtain ⟨k, hk, rfl⟩ := List.getElem_of_mem hx
    rw [List.length_zip, hm, hr, Nat.min_self] at hk
    refine ⟨k, hk, ?_, ?_⟩
    · simpa [List.getD_eq_getElem?_getD, hm, hk] using hon
    · simpa [List.getD_eq_getElem?_getD, hr, hk] using hfl
  · rintro ⟨k, hk, hon, hfl⟩
    have hz : k < (m.zip rs).length := by rw [List.length_zip, hm, hr, Nat.min_self]; exact hk
    refine ⟨(m.zip rs)[k], List.getElem_mem hz, ?_, ?_⟩
    · simpa [List.getD_eq_getElem?_getD, hm, hk] using hon
    · simpa [List.getD_eq_getElem?_getD, hr, hk] using hfl

theorem flagsOr_retire {s : State} {st : Nat} {t : Tracked} {v : FacetUnit} {m : List Bool} {rs : List (Nat × Nat)} {on : Nat → Bool}
    {fl : Nat → Nat} (hc : s.cmd? t.slot = some t) (hm : m.length = 256) (hr : rs.length = 256)
    (hon : ∀ k, k < 256 → m.getD k false = on k) (hfl : ∀ k, k < 256 → (rs.getD k (0, 0)).2 = fl k) :
    FlagsOr t (s.retire st t v (laneFlags m rs) 0 after) on fl := by
  refine ⟨t.flagged (laneFlags m rs) 0, by rw [cmd?_retire, cmd?_facetFlags hc], fun b => ?_⟩
  show (t.work.flags ||| laneFlags m rs).testBit b = true ↔ _
  rw [Nat.testBit_or, Bool.or_eq_true, testBit_laneFlags hm hr]
  refine or_congr_right (exists_congr fun k => and_congr_right fun hk => ?_)
  rw [hon k hk, hfl k hk]
end

end Sys2Proof.Machine
end

section
/-! PROOFS. The scalar and control functions of the vector unit (R204 to R209): O16. -/

namespace Sys2Proof.Machine

open Sys2Proof

/-! ### Scalar functions -/

theorem scalarRow_of {c : Nat → FIns → Instr} {g g' : W32 → W32 → W32}
    (hc : ∀ st f s, exec (c st f) s = facetRow useSab (scalar2 g) st f s)
    (hg : ∀ a b, g a b = g' a b) : ScalarRow c g' := by
  intro st f
  refine retires_of_unit (hc st f) fun s t u _ _ => ⟨_, _, rfl, sset_pc .., sset_loops .., sset_retired .., ?_⟩
  rw [← hg]
  exact scalarSet_sset ..

theorem shl_eq_ofNat (a : W32) (n : Nat) : a <<< n = BitVec.ofNat 32 (a.toNat * 2 ^ n) := by
  apply BitVec.eq_of_toNat_eq
  rw [BitVec.toNat_shiftLeft, BitVec.toNat_ofNat, Nat.shiftLeft_eq]

theorem shr_eq_ofNat (a : W32) (n : Nat) : a >>> n = BitVec.ofNat 32 (a.toNat / 2 ^ n) := by
  apply BitVec.eq_of_toNat_eq
  rw [BitVec.toNat_ushiftRight, BitVec.toNat_ofNat, Nat.shiftRight_eq_div_pow,
    Nat.mod_eq_of_lt (Nat.lt_of_le_of_lt (Nat.div_le_self _ _) a.isLt)]

theorem sra_eq_ofInt (a : W32) (n : Nat) : a.sshiftRight n = BitVec.ofInt 32 (a.toInt / 2 ^ n) := by
  rw [BitVec.sshiftRight, Int.shiftRight_eq_div_pow]
  norm_cast

theorem sub_eq_ofInt (a b : W32) : a - b = BitVec.ofInt 32 (a.toInt - b.toInt) := by
  apply BitVec.eq_of_toInt_eq
  rw [BitVec.toInt_sub, BitVec.toInt_ofInt]

theorem mul_eq_ofNat (a b : W32) : a * b = BitVec.ofNat 32 (a.toNat * b.toNat) := by
  rw [BitVec.ofNat_mul, BitVec.ofNat_toNat, BitVec.ofNat_toNat, BitVec.setWidth_eq, BitVec.setWidth_eq]

theorem add_eq_ofNat (a b : W32) : a + b = BitVec.ofNat 32 (a.toNat + b.toNat) := by
  rw [BitVec.ofNat_add, BitVec.ofNat_toNat, BitVec.ofNat_toNat, BitVec.setWidth_eq, BitVec.setWidth_eq]

theorem smin_eq_ofInt (a b : W32) : (if a.slt b then a else b) = BitVec.ofInt 32 (min a.toInt b.toInt) := by
  rw [BitVec.slt_eq_decide]
  by_cases h : a.toInt < b.toInt
  · rw [decide_eq_true h, if_pos rfl, min_eq_left h.le, BitVec.ofInt_toInt]
  · rw [decide_eq_false h, if_neg Bool.false_ne_true, min_eq_right (not_lt.mp h), BitVec.ofInt_toInt]

theorem smax_eq_ofInt (a b : W32) : (if a.slt b then b else a) = BitVec.ofInt 32 (max a.toInt b.toInt) := by
  rw [BitVec.slt_eq_decide]
  by_cases h : a.toInt < b.toInt
  · rw [decide_eq_true h, if_pos rfl, max_eq_right h.le, BitVec.ofInt_toInt]
  · rw [decide_eq_false h, if_neg Bool.false_ne_true, max_eq_left (not_lt.mp h), BitVec.ofInt_toInt]

theorem slt_eq_ite (a b : W32) : (if a.slt b then 1 else 0 : W32) = if a.toInt < b.toInt then 1 else 0 := by
  simp only [BitVec.slt_eq_decide, decide_eq_true_eq]

theorem ult_eq_ite (a b : W32) : (if a.ult b then 1 else 0 : W32) = if a.toNat < b.toNat then 1 else 0 := by
  simp only [BitVec.ult_eq_decide, decide_eq_true_eq]

theorem retires_movi (st : Nat) (f : FIns) : Retires (.movi st f) st useMovi f fun _ _ u _ u' => ScalarSet u u' f.d f.lo :=
  retires_of_unit (fun _ => rfl) fun _ _ _ _ _ => ⟨_, _, rfl, sset_pc .., sset_loops .., sset_retired .., scalarSet_sset ..⟩

/-! ### Control -/

section
variable {s : State} {st : Nat} {t : Tracked} {u v : FacetUnit} {use : FUse} {sem : FSem} {f : FIns} {c : Instr}

/-- A row that jumps, or that retires by the loops in force. -/
theorem runs_jump {target : Nat} (hc : exec c s = facetRow use sem st f s) (hon : facetOn s st = some (t, u))
    (hlegal : use.illegal f = false) (hlim : u.limit = 0 ∨ u.retired < u.limit) (hsem : sem s t u f = .jump v target) :
    Runs c s fun s' => tget s'.facets st =
      some { v with pc := target, loops := loopLeave target v.loops, retired := v.retired + 1 } ∧ Kept (dbgRegs st) s s' :=
  ⟨s.jumped st t v target, by rw [hc, facetRow_of_on hon, facetIns_jump hlegal hlim hsem]; rfl, tget_jumped .., kept_jumped ..⟩

theorem runs_go {s₁ : State} {flags sat after : Nat} (hc : exec c s = facetRow use sem st f s) (hon : facetOn s st = some (t, u))
    (hlegal : use.illegal f = false) (hlim : u.limit = 0 ∨ u.retired < u.limit) (hsem : sem s t u f = .go s₁ v flags sat after)
    {w : Tracked} (hw : s₁.cmd? t.slot = some w) (hst : w.status = none) (hk : Kept (dbgRegs st) s s₁) :
    Runs c s fun s' => tget s'.facets st = some (v.went after) ∧ s'.cmd? t.slot = some (w.flagged flags sat) ∧
      Kept (dbgRegs st) s s' := by
  have hf := cmd?_facetFlags hw flags sat
  refine ⟨s₁.retire st t v flags sat after, ?_, tget_retire .., by rw [cmd?_retire, hf], hk.trans (kept_retire ..)⟩
  rw [hc, facetRow_of_on hon, facetIns_go hlegal hlim hsem (by rw [hf]; exact hst)]
  rfl

/-- A row that changes the unit alone. -/
theorem runs_unit {flags : Nat} (hc : exec c s = facetRow use sem st f s) (hon : facetOn s st = some (t, u))
    (hlegal : use.illegal f = false) (hlim : u.limit = 0 ∨ u.retired < u.limit) (hsem : sem s t u f = .unit s v flags) :
    Runs c s fun s' => tget s'.facets st = some (v.went v.pc) ∧ s'.cmd? t.slot = some (t.flagged flags 0) ∧
      Kept (dbgRegs st) s s' := by
  obtain ⟨hcmd, -, -, hst⟩ := facetOn_cmd? hon
  exact runs_go hc hon hlegal hlim hsem hcmd hst ⟨.refl _ _, fun _ => rfl⟩

end

/-- A branch taken where `p` holds, and passed over elsewhere. -/
theorem runs_branch {c : Instr} {s : State} {st : Nat} {t : Tracked} {u : FacetUnit} {sem : FSem} {f : FIns} {p : Prop} {_ : Decidable p}
    (hc : exec c s = facetRow useBz sem st f s) (hon : facetOn s st = some (t, u)) (hlegal : useBz.illegal f = false)
    (hlim : u.limit = 0 ∨ u.retired < u.limit) (hsem : sem s t u f = if p then .jump u (branchTo f) else .unit s u 0) :
    Runs c s fun s' => tget s'.facets st = some (if p
      then { u with pc := fld f.lo.toNat 11 0, loops := loopLeave (fld f.lo.toNat 11 0) u.loops, retired := u.retired + 1 }
      else { u with pc := (loopNext u.pc u.loops).1, loops := (loopNext u.pc u.loops).2, retired := u.retired + 1 }) ∧
      Kept (dbgRegs st) s s' := by
  by_cases hp : p
  · rw [if_pos hp] at hsem
    simp only [if_pos hp]
    exact runs_jump hc hon hlegal hlim hsem
  · rw [if_neg hp] at hsem
    simp only [if_neg hp]
    obtain ⟨s', he, hu, -, hk⟩ := runs_unit hc hon hlegal hlim hsem
    exact ⟨s', he, hu, hk⟩

theorem semLoop_enters {s : State} {t : Tracked} {u : FacetUnit} {f : FIns} (hlast : u.pc < fld f.lo.toNat 11 0) (hnil : u.loops = [])
    (hi : f.i = true) (hcount : fld f.lo.toNat 31 12 ≠ 0) : semLoop s t u f =
    .jump { u with loops := [{ first := u.pc + 1, last := fld f.lo.toNat 11 0, left := fld f.lo.toNat 31 12 }] } (u.pc + 1) := by
  unfold semLoop
  simp [hnil, hi, hcount, hlast.ne', not_lt.mpr hlast.le]

/-- Settles O16: a row of a running kernel retires or jumps by its function, and a kernel that ends, or breaks R204, has its
command finished. -/
theorem facetScalarsAndControl : Obligations.FacetScalarsAndControl := by
  refine ⟨⟨scalarRow_of (fun _ _ _ => rfl) add_eq_ofNat, scalarRow_of (fun _ _ _ => rfl) sub_eq_ofInt,
    scalarRow_of (fun _ _ _ => rfl) mul_eq_ofNat, scalarRow_of (fun _ _ _ => rfl) fun _ _ => rfl,
    scalarRow_of (fun _ _ _ => rfl) fun _ _ => rfl, scalarRow_of (fun _ _ _ => rfl) fun _ _ => rfl,
    scalarRow_of (fun _ _ _ => rfl) fun a _ => shl_eq_ofNat a _, scalarRow_of (fun _ _ _ => rfl) fun a _ => shr_eq_ofNat a _,
    scalarRow_of (fun _ _ _ => rfl) fun a _ => sra_eq_ofInt a _, scalarRow_of (fun _ _ _ => rfl) slt_eq_ite,
    scalarRow_of (fun _ _ _ => rfl) ult_eq_ite, scalarRow_of (fun _ _ _ => rfl) smin_eq_ofInt,
    scalarRow_of (fun _ _ _ => rfl) smax_eq_ofInt, retires_movi⟩, ?_, ?_, ?_, ?_, ?_, ?_⟩
  · exact fun st f => retires_of_unit (fun _ => rfl) fun _ _ _ _ _ => ⟨_, _, rfl, rfl, rfl, rfl, rfl⟩
  · exact fun st f s t u hon hlegal hlim => runs_jump rfl hon hlegal hlim rfl
  · refine fun st f s t u hon hlegal hlim => ⟨runs_branch rfl hon hlegal hlim rfl, runs_branch rfl hon hlegal hlim ?_⟩
    exact (ite_not _ _ _).symm
  · intro st f s t u hon hlegal hlim hlast hnil hi hcount
    obtain ⟨s', he, hu, hk⟩ := runs_jump (c := .loop st f) rfl hon hlegal hlim (semLoop_enters hlast hnil hi hcount)
    refine ⟨s', he, ⟨_, hu, rfl, ?_⟩, hk⟩
    exact if_pos ⟨le_refl _, hlast⟩
  · intro st f s t u hon hlegal hlim hab hall hrerun hcompl
    obtain ⟨hcmd, -, hrun, -⟩ := facetOn_cmd? hon
    have hc : (s.count st 13 1 t).cmd? t.slot = some t := (cmd?_congr (dbgOnly_count ..).tracked _).trans hcmd
    refine ⟨_, ?_, reached_finish hc hrun ?_ ..⟩
    · show facetRow useNone semHalt st f s = _
      rw [facetRow_of_on hon, facetIns_halt hlegal hlim (by simp [semHalt, hab]) hall]; rfl
    · simp [hcompl]
  · intro st f s t u hon hill hrerun hcompl
    obtain ⟨hcmd, -, hrun, -⟩ := facetOn_cmd? hon
    refine ⟨_, ?_, reached_finish hcmd hrun ?_ ..⟩
    · show facetRow useNone semNop st f s = _
      rw [facetRow_of_on hon, facetIns_of_illegal hill]; rfl
    · simp [hcompl]

end Sys2Proof.Machine
end

section
/-! PROOFS. The vector float functions and the transcendentals (R205, R212 to R221): O17. -/

namespace Sys2Proof.Machine

open Sys2Proof

/-- A row that writes lanes with flags: each active lane gets what its entry of the list holds. -/
theorem retires_writeLanes {c : Instr} {st : Nat} {use : FUse} {sem : FSem} {f : FIns} {rs : FacetUnit → List (Nat × Nat)}
    {r : FacetUnit → Nat → Nat × Nat} (hc : ∀ s, exec c s = facetRow use sem st f s)
    (hsem : ∀ s t u, sem s t u f = writeLanes s u f (rs u)) (hlen : ∀ u, LanesOk u → (rs u).length = 256)
    (hr : ∀ u, LanesOk u → ∀ k, k < 256 → (rs u).getD k (0, 0) = r u k) :
    Retires c st use f fun _ t u s' u' => VecSet u u' f.d (active u f) (fun k => BitVec.ofNat 32 (r u k).1) ∧
      FlagsOr t s' (active u f) (fun k => (r u k).2) := by
  refine retires_of_unit hc fun s t u hon hl => ⟨_, _, hsem s t u, rfl, rfl, rfl, ?_, ?_⟩
  · refine vecSet_vset _ (fun k hk => getD_mask hl hk) fun k hk => ?_
    rw [getD_map_lt (by rwa [hlen u hl]) (0, 0), hr u hl k hk]
  · exact flagsOr_retire (facetOn_cmd? hon).1 (mask_length hl) (hlen u hl) (fun k hk => getD_mask hl hk) fun k hk => by rw [hr u hl k hk]

theorem floatRow1_of {c : Nat → FIns → Instr} {g : FIns → Nat → Nat × Nat}
    (hc : ∀ st f s, exec (c st f) s = facetRow useV1 (fun s t u f => vec1 (g f) s t u f) st f s) : FloatRow1 c g := by
  intro st f
  refine retires_writeLanes (rs := fun u => (u.vget f.a).map fun a => g f a.toNat) (r := fun u k => g f (laneA u f k).toNat) (hc st f)
    (fun _ _ _ => rfl) (fun u hl => by rw [List.length_map, (hl f.a).1]) fun u hl k hk => ?_
  rw [getD_map_lt (by rwa [(hl f.a).1]) 0]
  rfl

theorem floatRow2_of {c : Nat → FIns → Instr} {g : Nat → Nat → Nat × Nat}
    (hc : ∀ st f s, exec (c st f) s = facetRow useV2 (vec2 g) st f s) : FloatRow2 c g := by
  intro st f
  refine retires_writeLanes (rs := fun u => ((u.vget f.a).zip (u.vsrcB f)).map fun x => g x.1.toNat x.2.toNat)
    (r := fun u k => g (laneA u f k).toNat (laneB u f k).toNat) (hc st f) (fun _ _ _ => rfl) (fun u hl => ?_) fun u hl k hk => ?_
  · rw [List.length_map, List.length_zip, (hl f.a).1, vsrcB_length hl, Nat.min_self]
  · rw [getD_map_lt (by rw [List.length_zip, (hl f.a).1, vsrcB_length hl]; exact hk) (0, 0),
      getD_zip_lt (by rwa [(hl f.a).1]) (by rwa [vsrcB_length hl]) 0 0, getD_vsrcB hk]
    rfl

theorem retires_vec3 {c : Instr} {st : Nat} {f : FIns} {g : Nat → Nat → Nat → Nat × Nat}
    (hc : ∀ s, exec c s = facetRow useV3 (vec3 g) st f s) : Retires c st useV3 f fun _ t u s' u' =>
    VecSet u u' f.d (active u f) (fun k => BitVec.ofNat 32
      (g (laneA u f k).toNat (laneB u f k).toNat ((u.vget f.c).getD k 0).toNat).1) ∧
    FlagsOr t s' (active u f) (fun k => (g (laneA u f k).toNat (laneB u f k).toNat ((u.vget f.c).getD k 0).toNat).2) := by
  refine retires_writeLanes
    (rs := fun u => ((u.vget f.a).zip ((u.vsrcB f).zip (u.vget f.c))).map fun x => g x.1.toNat x.2.1.toNat x.2.2.toNat)
    (r := fun u k => g (laneA u f k).toNat (laneB u f k).toNat ((u.vget f.c).getD k 0).toNat) hc (fun _ _ _ => rfl)
    (fun u hl => ?_) fun u hl k hk => ?_
  · rw [List.length_map, List.length_zip, List.length_zip, (hl f.a).1, (hl f.c).1, vsrcB_length hl, Nat.min_self, Nat.min_self]
  · have hbc : k < ((u.vsrcB f).zip (u.vget f.c)).length := by rw [List.length_zip, vsrcB_length hl, (hl f.c).1]; exact hk
    rw [getD_map_lt (by rw [List.length_zip, (hl f.a).1]; omega) (0, 0, 0), getD_zip_lt (by rwa [(hl f.a).1]) hbc 0 (0, 0),
      getD_zip_lt (by rwa [vsrcB_length hl]) (by rwa [(hl f.c).1]) 0 0, getD_vsrcB hk]
    rfl

/-- A row that writes a vector register without flags. -/
theorem retires_vset {c : Instr} {st : Nat} {use : FUse} {sem : FSem} {f : FIns} {m : FacetUnit → List Bool} {xs : FacetUnit → List W32}
    {fl : FacetUnit → Nat} {on : FacetUnit → Nat → Bool} {val : FacetUnit → Nat → W32}
    (hc : ∀ s, exec c s = facetRow use sem st f s)
    (hsem : ∀ s t u, sem s t u f = .unit s (u.vset f.d (m u) (xs u)) (fl u))
    (hm : ∀ u, LanesOk u → ∀ k, k < 256 → (m u).getD k false = on u k)
    (hx : ∀ u, LanesOk u → ∀ k, k < 256 → (xs u).getD k 0 = val u k) :
    Retires c st use f fun _ _ u _ u' => VecSet u u' f.d (on u) (val u) :=
  retires_of_unit hc fun s t u _ hl => ⟨_, _, hsem s t u, rfl, rfl, rfl, vecSet_vset _ (hm u hl) (hx u hl)⟩

theorem getD_allLanes {k : Nat} (hk : k < 256) : (List.replicate 256 true).getD k false = true := getD_replicate_lt _ hk _

theorem retires_vmov (st : Nat) (f : FIns) : Retires (.vmov st f) st useVmov f fun _ _ u _ u' =>
    VecSet u u' f.d (active u f) (fun k => if f.i then f.lo else laneA u f k) := by
  refine retires_vset (fun _ => rfl) (fun _ _ _ => rfl) (fun u hl k hk => getD_mask hl hk) fun u hl k hk => ?_
  split
  · next hi => rw [getD_vsrcB hk, laneB, if_pos hi]
  · rfl

theorem retires_vsel (st : Nat) (f : FIns) : Retires (.vsel st f) st useV2 f fun _ _ u _ u' =>
    VecSet u u' f.d (fun _ => true) (fun k => if active u f k then laneA u f k else laneB u f k) := by
  refine retires_vset (fun _ => rfl) (fun _ _ _ => rfl) (fun u _ k hk => getD_allLanes hk) fun u hl k hk => ?_
  have hab : k < ((u.vget f.a).zip (u.vsrcB f)).length := by rw [List.length_zip, (hl f.a).1, vsrcB_length hl]; exact hk
  rw [getD_map_lt (by rw [List.length_zip, mask_length hl]; omega) (false, 0, 0), getD_zip_lt (by rwa [mask_length hl]) hab false (0, 0),
    getD_zip_lt (by rwa [(hl f.a).1]) (by rwa [vsrcB_length hl]) 0 0, getD_mask hl hk, getD_vsrcB hk]
  rfl

theorem f32_exact : f32Exp 0 = (0x3F800000, 0) ∧ f32Exp2 0 = (0x3F800000, 0) ∧ f32LogOp false 0x3F800000 = (0, 0) ∧
    f32LogOp true 0x3F800000 = (0, 0) ∧ f32Recip 0 = (0x7F800000, 0x80) ∧ f32Recip 0x40000000 = (0x3F000000, 0) := by
  decide +kernel

/-- Settles O17: each row writes its lanes with their flags, or without flags, and the exact results are computed. -/
theorem facetVectorFloat : Obligations.FacetVectorFloat :=
  ⟨⟨floatRow2_of fun _ _ _ => rfl, floatRow2_of fun _ _ _ => rfl, floatRow2_of fun _ _ _ => rfl, floatRow2_of fun _ _ _ => rfl,
    floatRow2_of fun _ _ _ => rfl, floatRow2_of fun _ _ _ => rfl, floatRow1_of fun _ _ _ => rfl, floatRow1_of fun _ _ _ => rfl,
    floatRow1_of fun _ _ _ => rfl, floatRow1_of fun _ _ _ => rfl, floatRow1_of fun _ _ _ => rfl, fun _ _ => retires_vec3 fun _ => rfl,
    retires_vmov, retires_vsel⟩,
   floatRow1_of fun _ _ _ => rfl, floatRow1_of fun _ _ _ => rfl, floatRow1_of fun _ _ _ => rfl, floatRow1_of fun _ _ _ => rfl,
    floatRow1_of fun _ _ _ => rfl, floatRow1_of fun _ _ _ => rfl, floatRow1_of fun _ _ _ => rfl, floatRow1_of fun _ _ _ => rfl,
    floatRow1_of fun _ _ _ => rfl, floatRow1_of fun _ _ _ => rfl, floatRow1_of fun _ _ _ => rfl, floatRow1_of fun _ _ _ => rfl,
    f32_exact⟩

end Sys2Proof.Machine
end

section
/-! PROOFS. The vector integer, compare and predicate functions (R205, R216): O18. -/

namespace Sys2Proof.Machine

open Sys2Proof

/-! ### Vector integers -/

theorem intRow_of {c : Nat → FIns → Instr} {g g' : W32 → W32 → W32}
    (hc : ∀ st f s, exec (c st f) s = facetRow useV2 (int2 g) st f s)
    (hg : ∀ a b, g a b = g' a b) : IntRow c g' := by
  intro st f
  refine retires_vset (hc st f) (fun _ _ _ => rfl) (fun u hl k hk => getD_mask hl hk) fun u hl k hk => ?_
  rw [getD_map_lt (by rw [List.length_zip, (hl f.a).1, vsrcB_length hl]; exact hk) (0, 0),
    getD_zip_lt (by rwa [(hl f.a).1]) (by rwa [vsrcB_length hl]) 0 0, getD_vsrcB hk, hg]
  rfl

/-! ### Compares -/

theorem compareRow_of {c : Nat → FIns → Instr} {g g' : Nat → Nat → Bool × Nat}
    (hc : ∀ st f s, exec (c st f) s = facetRow useV2 (cmp2 g) st f s) (hg : ∀ a b : W32, g a.toNat b.toNat = g' a.toNat b.toNat) :
    CompareRow c g' := by
  intro st f
  have hlen (u : FacetUnit) (hl : LanesOk u) : (((u.vget f.a).zip (u.vsrcB f)).map fun x => g x.1.toNat x.2.toNat).length = 256 := by
    rw [List.length_map, List.length_zip, (hl f.a).1, vsrcB_length hl, Nat.min_self]
  have hr (u : FacetUnit) (hl : LanesOk u) (k : Nat) (hk : k < 256) :
      (((u.vget f.a).zip (u.vsrcB f)).map fun x => g x.1.toNat x.2.toNat).getD k (false, 0) =
        g' (laneA u f k).toNat (laneB u f k).toNat := by
    rw [getD_map_lt (by rw [List.length_zip, (hl f.a).1, vsrcB_length hl]; exact hk) (0, 0),
      getD_zip_lt (by rwa [(hl f.a).1]) (by rwa [vsrcB_length hl]) 0 0, getD_vsrcB hk]
    exact hg _ _
  refine retires_of_unit (hc st f) fun s t u hon hl => ⟨_, _, rfl, pset_pc .., pset_loops .., pset_retired .., ?_, ?_⟩
  · refine predSet_pset _ (fun k hk => getD_mask hl hk) fun k hk => ?_
    rw [getD_map_lt (by rwa [hlen u hl]) (false, 0), hr u hl k hk]
  · refine flagsOr_retire (facetOn_cmd? hon).1 (mask_length hl) (by rw [List.length_map, hlen u hl]) (fun k hk => getD_mask hl hk)
      fun k hk => ?_
    rw [getD_map_lt (by rwa [hlen u hl]) (false, 0), hr u hl k hk]

/-- A compare is false where a source is a NaN, and the order of the codes' values elsewhere. -/
theorem f32Cmp_eq (quiet : Bool) (p : Int → Int → Bool) (a b : Nat) : f32Cmp quiet p a b =
    (!(f32Val a).isNan && !(f32Val b).isNan && p (f32Ord a) (f32Ord b), (f32Cmp quiet p a b).2) := by
  unfold f32Cmp
  split
  · next h => rcases h with h | h <;> simp [h]
  · next h =>
    obtain ⟨ha, hb⟩ := not_or.mp h
    simp [Bool.eq_false_iff.mpr ha, Bool.eq_false_iff.mpr hb]

/-- The signed number that a word's code denotes. -/
theorem sext_toNat (a : W32) : sext 32 a.toNat = a.toInt := by
  rw [BitVec.toInt_eq_msb_cond, BitVec.msb_eq_getLsbD_last]
  rfl

/-! ### Predicates -/

/-- A row that writes a predicate register without flags. -/
theorem retires_pset {c : Instr} {st : Nat} {use : FUse} {sem : FSem} {f : FIns} {xs : FacetUnit → List Bool}
    {val : FacetUnit → Nat → Bool} (hc : ∀ s, exec c s = facetRow use sem st f s)
    (hsem : ∀ s t u, sem s t u f = .unit s (u.pset f.d.toNat (u.mask f) (xs u)) 0)
    (hx : ∀ u, LanesOk u → ∀ k, k < 256 → (xs u).getD k false = val u k) :
    Retires c st use f fun _ _ u _ u' => PredSet u u' f.d.toNat (active u f) (val u) :=
  retires_of_unit hc fun s t u _ hl => ⟨_, _, hsem s t u, pset_pc .., pset_loops .., pset_retired ..,
    predSet_pset _ (fun _ hk => getD_mask hl hk) (hx u hl)⟩

theorem predRow_of {c : Nat → FIns → Instr} {g : Bool → Bool → Bool}
    (hc : ∀ st f s, exec (c st f) s = facetRow useV2 (pred2 g) st f s) :
    PredRow c g := by
  intro st f hi
  have hb (u : FacetUnit) : u.psrcB f = u.pget f.b.toNat := by rw [FacetUnit.psrcB, if_neg (by simp [hi])]
  refine retires_pset (hc st f) (fun _ _ _ => rfl) fun u hl k hk => ?_
  rw [hb, getD_map_lt (by rw [List.length_zip, pget_length hl, pget_length hl]; exact hk) (false, false),
    getD_zip_lt (by rwa [pget_length hl]) (by rwa [pget_length hl]) false false]

theorem retires_pnot (st : Nat) (f : FIns) : Retires (.pnot st f) st useV1 f fun _ _ u _ u' =>
    PredSet u u' f.d.toNat (active u f) (fun k => !(u.pget f.a.toNat).getD k true) :=
  retires_pset (fun _ => rfl) (fun _ _ _ => rfl) fun _ hl _ hk => getD_map_lt (by rwa [pget_length hl]) true _

theorem retires_planes (st : Nat) (f : FIns) : Retires (.planes st f) st useV1 f fun _ _ u _ u' =>
    PredSet u u' f.d.toNat (active u f) (fun k => decide (k < (u.sget f.a).toNat)) :=
  retires_pset (fun _ => rfl) (fun _ _ _ => rfl) fun _ _ _ hk => getD_map_laneIdx _ hk _

/-- Settles O18: each integer row writes its lanes, each compare and each predicate function the active lanes of its predicate. -/
theorem facetIntegersAndPredicates : Obligations.FacetIntegersAndPredicates := by
  refine ⟨⟨intRow_of (fun _ _ _ => rfl) add_eq_ofNat, intRow_of (fun _ _ _ => rfl) sub_eq_ofInt,
    intRow_of (fun _ _ _ => rfl) mul_eq_ofNat, intRow_of (fun _ _ _ => rfl) fun _ _ => rfl, intRow_of (fun _ _ _ => rfl) fun _ _ => rfl,
    intRow_of (fun _ _ _ => rfl) fun _ _ => rfl, intRow_of (fun _ _ _ => rfl) fun a _ => shl_eq_ofNat a _,
    intRow_of (fun _ _ _ => rfl) fun a _ => shr_eq_ofNat a _, intRow_of (fun _ _ _ => rfl) fun a _ => sra_eq_ofInt a _,
    intRow_of (fun _ _ _ => rfl) smin_eq_ofInt, intRow_of (fun _ _ _ => rfl) smax_eq_ofInt⟩,
    compareRow_of (fun _ _ _ => rfl) fun _ _ => f32Cmp_eq .., compareRow_of (fun _ _ _ => rfl) fun _ _ => f32Cmp_eq ..,
    compareRow_of (fun _ _ _ => rfl) fun _ _ => f32Cmp_eq .., compareRow_of (fun _ _ _ => rfl) fun _ _ => rfl,
    compareRow_of (fun _ _ _ => rfl) fun _ _ => rfl, compareRow_of (fun _ _ _ => rfl) fun a b => ?_,
    predRow_of fun _ _ _ => rfl, predRow_of fun _ _ _ => rfl, predRow_of fun _ _ _ => rfl, retires_pnot, retires_planes⟩
  rw [sext_toNat, sext_toNat, BitVec.ofNat_toNat, BitVec.ofNat_toNat, BitVec.setWidth_eq, BitVec.setWidth_eq]

end Sys2Proof.Machine
end

section
/-! PROOFS. The lane functions (R205, R214, R218): O19. -/

namespace Sys2Proof.Machine

open Sys2Proof

/-! ### Reductions -/

/-- The active lanes of source A, lane by lane. -/
theorem activeLanes_eq {u : FacetUnit} (hl : LanesOk u) (f : FIns) :
    (((u.mask f).zip (u.vget f.a)).map fun x => if x.1 then some x.2.toNat else none) =
      (List.range 256).map fun k => if active u f k then some (laneA u f k).toNat else none := by
  have hz : ((u.mask f).zip (u.vget f.a)).length = 256 := by rw [List.length_zip, mask_length hl, (hl f.a).1, Nat.min_self]
  refine List.ext_getElem (by rw [List.length_map, List.length_map, hz, List.length_range]) fun k hk _ => ?_
  have hk : k < 256 := hk.trans_eq ((List.length_map ..).trans hz)
  have hm : k < (u.mask f).length := by rwa [mask_length hl]
  have ha : k < (u.vget f.a).length := by rwa [(hl f.a).1]
  rw [List.getElem_map, List.getElem_map, List.getElem_range, List.getElem_zip, ← getD_mask hl hk, laneA, List.getD_eq_getElem _ _ hm,
    List.getD_eq_getElem _ _ ha]

theorem reduceRow_of {c : Nat → FIns → Instr} {sem : FSem} {g : Nat → Nat → Nat × Nat} {post : Nat → Nat}
    {fl : FacetUnit → FIns → Nat} (hc : ∀ st f s, exec (c st f) s = facetRow useV1 sem st f s)
    (hsem : ∀ s t u f, sem s t u f = .unit s (u.vset f.d (List.replicate 256 true) (List.replicate 256 (BitVec.ofNat 32
      (post ((tree g 8 (((u.mask f).zip (u.vget f.a)).map fun x => if x.1 then some x.2.toNat else none)).1.getD 0))))) (fl u f)) :
    ReduceRow c g post := by
  intro st f
  refine retires_vset (hc st f) (fun s t u => hsem s t u f) (fun _ _ k hk => getD_allLanes hk) fun u hl k hk => ?_
  rw [getD_replicate_lt _ hk, activeLanes_eq hl]

theorem reduceRow_float {c : Nat → FIns → Instr} {g : Nat → Nat → Nat × Nat}
    (hc : ∀ st f s, exec (c st f) s = facetRow useV1 (reduceF g) st f s) : ReduceRow c g canonNan :=
  reduceRow_of hc fun _ _ _ _ => rfl

/-! ### Lanes moved -/

theorem retires_vbcast (st : Nat) (f : FIns) : Retires (.vbcast st f) st useVbcast f fun _ _ u _ u' =>
    VecSet u u' f.d (fun _ => true) (fun _ => u.sget f.a) :=
  retires_vset (fun _ => rfl) (fun _ _ _ => rfl) (fun _ _ _ hk => getD_allLanes hk) fun _ _ _ hk => getD_replicate_lt _ hk _

theorem retires_vext (st : Nat) (f : FIns) : Retires (.vext st f) st useVext f fun s _ u s' u' =>
    ScalarSet u u' f.d (if (u.ssrcB f).toNat < 256 then laneA u f (u.ssrcB f).toNat else Config.vext (u.ssrcB f) (u.vget f.a)) ∧
      s'.free = s.free :=
  retires_of_unit (fun _ => rfl) fun _ _ _ _ _ => ⟨_, _, rfl, sset_pc .., sset_loops .., sset_retired .., scalarSet_sset ..,
    free_retire ..⟩

theorem retires_vslide (st : Nat) (f : FIns) : Retires (.vslide st f) st useV2 f fun _ _ u _ u' => VecSet u u' f.d (active u f)
    (fun k => if k + (u.ssrcB f).toNat < 256 then laneA u f (k + (u.ssrcB f).toNat) else 0) := by
  refine retires_vset (fun _ => rfl) (fun _ _ _ => rfl) (fun _ hl _ hk => getD_mask hl hk) fun u _ k hk => ?_
  rw [getD_map_laneIdx _ hk]
  split
  · next h => rw [if_neg (by omega)]
  · next h => rw [if_pos (by omega)]; rfl

theorem retires_vidx (st : Nat) (f : FIns) : Retires (.vidx st f) st useVidx f fun _ _ u _ u' =>
    VecSet u u' f.d (active u f) (fun k => BitVec.ofNat 32 k) :=
  retires_vset (fun _ => rfl) (fun _ _ _ => rfl) (fun _ hl _ hk => getD_mask hl hk) fun _ _ _ hk => getD_map_laneIdx _ hk _

theorem retires_vperm (st : Nat) (f : FIns) : Retires (.vperm st f) st useV2 f fun _ _ u _ u' =>
    VecSet u u' f.d (active u f) (fun k => laneA u f ((laneB u f k).toNat % 256)) := by
  refine retires_vset (fun _ => rfl) (fun _ _ _ => rfl) (fun _ hl _ hk => getD_mask hl hk) fun u hl k hk => ?_
  rw [getD_map_lt (by rwa [vsrcB_length hl]) 0, getD_vsrcB hk]
  rfl

/-- Settles O19: the reductions write the tree's result to every lane, and the other rows move lanes. -/
theorem facetLaneFunctions : Obligations.FacetLaneFunctions :=
  ⟨reduceRow_float fun _ _ _ => rfl, reduceRow_float fun _ _ _ => rfl, reduceRow_float fun _ _ _ => rfl,
    reduceRow_of (fun _ _ _ => rfl) fun _ _ _ _ => rfl, retires_vbcast, retires_vext, retires_vslide, retires_vidx, retires_vperm⟩

end Sys2Proof.Machine
end

section
/-! PROOFS. The memory and tile functions of the vector unit (R199 to R202, R222 to R233): O20. -/

namespace Sys2Proof.Machine

open Sys2Proof

/-! ### The scratch area under a store of lanes (R199 to R202) -/

/-- One 32-bit lane stored in the scratch area. -/
def storeLane (sc : Tab Byte) (b : Nat) (w : W32) : Tab Byte :=
  (List.range 4).foldl (fun sc k => tset sc (b + k) ((w >>> (8 * k)).setWidth 8)) sc

/-- The first `n` lanes of a register stored at an offset of the scratch area where a mask holds. -/
def storeLanes (sc : Tab Byte) (b : Nat) (m : List Bool) (xs : List W32) (n : Nat) : Tab Byte :=
  (List.range n).foldl (fun sc i => if m.getD i false then storeLane sc (b + 4 * i) (xs.getD i 0) else sc) sc

theorem tgetD_tset (t : Tab Byte) (k j : Nat) (v d : Byte) : tgetD (tset t k v) j d = if k = j then v else tgetD t j d := by
  split
  · next h => rw [h, tgetD_tset_self]
  · next h => rw [tgetD_tset_ne t v d h]

theorem tgetD_storeLane_at (sc : Tab Byte) (b : Nat) (w : W32) {i : Nat} (hi : i < 4) :
    tgetD (storeLane sc b w) (b + i) 0 = (w >>> (8 * i)).setWidth 8 := by
  have h : i = 0 ∨ i = 1 ∨ i = 2 ∨ i = 3 := by omega
  rcases h with rfl | rfl | rfl | rfl <;> simp [storeLane, List.range_succ, tgetD_tset]

theorem tgetD_storeLane_off (sc : Tab Byte) {b a : Nat} (w : W32) (h : a < b ∨ b + 4 ≤ a) :
    tgetD (storeLane sc b w) a 0 = tgetD sc a 0 := by
  have h0 : b ≠ a := by omega
  have h1 : b + 1 ≠ a := by omega
  have h2 : b + 2 ≠ a := by omega
  have h3 : b + 3 ≠ a := by omega
  simp [storeLane, List.range_succ, tgetD_tset, h0, h1, h2, h3]

theorem storeLanes_succ (sc : Tab Byte) (b : Nat) (m : List Bool) (xs : List W32) (n : Nat) : storeLanes sc b m xs (n + 1) =
    if m.getD n false then storeLane (storeLanes sc b m xs n) (b + 4 * n) (xs.getD n 0) else storeLanes sc b m xs n := by
  rw [storeLanes, List.range_succ, List.foldl_append]
  rfl

theorem tgetD_storeLanes_off (sc : Tab Byte) {b a : Nat} (m : List Bool) (xs : List W32) {n : Nat} (h : a < b ∨ b + 4 * n ≤ a) :
    tgetD (storeLanes sc b m xs n) a 0 = tgetD sc a 0 := by
  induction n with
  | zero => rfl
  | succ n ih =>
    rw [storeLanes_succ]
    split
    · rw [tgetD_storeLane_off _ _ (by omega), ih (by omega)]
    · exact ih (by omega)

theorem tgetD_storeLanes_at (sc : Tab Byte) (b : Nat) (m : List Bool) (xs : List W32) {n k i : Nat} (hk : k < n) (hi : i < 4) :
    tgetD (storeLanes sc b m xs n) (b + 4 * k + i) 0 =
      if m.getD k false then ((xs.getD k 0) >>> (8 * i)).setWidth 8 else tgetD sc (b + 4 * k + i) 0 := by
  induction n with
  | zero => omega
  | succ n ih =>
    rw [storeLanes_succ]
    by_cases hkn : k = n
    · subst hkn
      split
      · exact tgetD_storeLane_at _ _ _ hi
      · exact tgetD_storeLanes_off _ _ _ (by omega)
    · have hk : k < n := by omega
      split
      · rw [tgetD_storeLane_off _ _ (by omega), ih hk]
      · exact ih hk

/-- A store lies in the scratch area (Table 3-2). -/
theorem facetAddrOk_store {a : Nat} (h : facetAddrOk true a = true) : 0x10000 ≤ a := by
  simp only [facetAddrOk, Bool.not_true, Bool.false_and, Bool.false_or, Bool.and_eq_true, decide_eq_true_eq] at h
  exact h.2.1

/-- The unit with the active lanes of a register stored. -/
def FacetUnit.stored (u : FacetUnit) (f : FIns) : FacetUnit :=
  { u with scratch := storeLanes u.scratch ((u.sget f.a).toNat - 0x10000) (u.mask f) (u.vget f.d) 256 }

theorem byte_of_param (u : FacetUnit) {a : Nat} (h : a < 0x10000) : u.byte a = u.param.getD a 0 := if_pos h

theorem byte_of_scratch (u : FacetUnit) {a : Nat} (h : 0x10000 ≤ a) : u.byte a = tgetD u.scratch (a - 0x10000) 0 :=
  if_neg (by omega)

theorem byte_went (u : FacetUnit) (after a : Nat) : (u.went after).byte a = u.byte a := by
  by_cases h : a < 0x10000
  · rw [byte_of_param _ h, byte_of_param _ h, FacetUnit.went]
  · rw [byte_of_scratch _ (by omega), byte_of_scratch _ (by omega), FacetUnit.went]

theorem scratch_stored (u : FacetUnit) (f : FIns) : (u.stored f).scratch =
    storeLanes u.scratch ((u.sget f.a).toNat - 0x10000) (u.mask f) (u.vget f.d) 256 := by rw [FacetUnit.stored]

section
variable {u : FacetUnit} {f : FIns} (haddr : facetAddrOk true (u.sget f.a).toNat = true)
include haddr

theorem byte_stored_at (hl : LanesOk u) {k i : Nat} (hk : k < 256) (hi : i < 4) :
    (u.stored f).byte ((u.sget f.a).toNat + 4 * k + i) =
      if active u f k then (((u.vget f.d).getD k 0) >>> (8 * i)).setWidth 8 else u.byte ((u.sget f.a).toNat + 4 * k + i) := by
  have h := facetAddrOk_store haddr
  have hoff : (u.sget f.a).toNat + 4 * k + i - 0x10000 = (u.sget f.a).toNat - 0x10000 + 4 * k + i := by omega
  rw [byte_of_scratch _ (by omega), byte_of_scratch _ (by omega), hoff, scratch_stored, tgetD_storeLanes_at _ _ _ _ hk hi,
    getD_mask hl hk]

theorem byte_stored_off {a : Nat} (ha : a < (u.sget f.a).toNat ∨ (u.sget f.a).toNat + 1024 ≤ a) : (u.stored f).byte a = u.byte a := by
  have h := facetAddrOk_store haddr
  by_cases hp : a < 0x10000
  · rw [byte_of_param _ hp, byte_of_param _ hp]
    rfl
  · rw [byte_of_scratch _ (by omega), byte_of_scratch _ (by omega), scratch_stored, tgetD_storeLanes_off _ _ _ (by omega)]

theorem semVst_ok (s : State) (t : Tracked) : semVst s t u f = .unit s (u.stored f) 0 := by
  unfold semVst
  dsimp only
  rw [if_neg (not_not.mpr haddr)]
  rfl

end

theorem semVld_ok {u : FacetUnit} {f : FIns} (h : facetAddrOk false (u.sget f.a).toNat = true) (s : State) (t : Tracked) :
    semVld s t u f = .unit s (u.vset f.d (u.mask f) (laneIdx.map fun i =>
      BitVec.ofNat 32 (leNat ((List.range 4).map fun k => u.byte ((u.sget f.a).toNat + 4 * i + k))))) 0 := by
  unfold semVld
  dsimp only
  rw [if_neg (not_not.mpr h)]

/-! ### Tiles -/

theorem length_tileLanes (x : Tile) (col : Bool) (r e : Nat) : (tileLanes x col r e).length = 256 := by
  unfold tileLanes
  split <;> simp only [List.length_map, List.length_range]

theorem semVldt_ok {u : FacetUnit} {f : FIns} {i : Nat} {x : Tile} (hx : tget u.handles f.handleNo = some (.inTile i x))
    (hfmt : x.format ≠ 0x0F) (hrow : f.column = true ∨ (u.sget f.a).toNat < tileRows x) (s : State) (t : Tracked) :
    semVldt s t u f = writeLanes s u f (tileLanes x f.column (u.sget f.a).toNat (u.ssrcB f).toNat) := by
  have hin : ¬ (¬ f.column = true ∧ tileRows x ≤ (u.sget f.a).toNat) := fun h => hrow.elim h.1 (by omega)
  unfold semVldt
  rw [hx]
  dsimp only
  rw [if_neg hfmt, if_neg hin]

/-- The tile that TOPEN opens for a shape word (R226). -/
def openedTile (w : Nat) : Tile :=
  mkTile (fld w 20 16) (fld w 6 0 + 1) (fld w 15 8 + 1) false (List.replicate ((fld w 6 0 + 1) * (fld w 15 8 + 1)) 0)

theorem semTopen_ok {s : State} {t : Tracked} {u : FacetUnit} {f : FIns} {w : Nat}
    (hw : (if f.i then f.lo else u.sget f.a).toNat = w) (hab : t.abortReq = false) (hbind : f.bindNo < t.outs.length)
    (hfree : tget u.handles f.handleNo = none) (hroom : u.outHandles + staged s t < 4) (hfmt : fld w 20 16 < 0x10)
    (hwhole : wholeRow (fld w 20 16) (fld w 15 8 + 1) = true) (hzc : facetZc t f.bindNo = false) :
    semTopen s t u f = .unit s { u with handles := tset u.handles f.handleNo (.outTile f.bindNo (openedTile w)) } 0 := by
  have hhandle : ¬ (t.outs.length ≤ f.bindNo ∨ (tget u.handles f.handleNo).isSome = true ∨ 4 ≤ u.outHandles) := by
    rw [hfree]
    simp only [Option.isSome_none, Bool.false_eq_true, false_or]
    omega
  have hform : ¬ (0x10 ≤ fld w 20 16 ∨ ¬ wholeRow (fld w 20 16) (fld w 15 8 + 1) = true) := fun h => h.elim (by omega) (· hwhole)
  unfold semTopen
  dsimp only
  rw [hw, if_neg (by simp [hab]), if_neg hhandle, if_neg hform, if_neg (by simp [hzc]), if_neg (by omega)]
  rfl

/-- A tile written keeps all but its payload. -/
theorem putRow_foldl_eq (row : Tile → Nat → List Byte) (l : List Nat) (x : Tile) :
    l.foldl (fun y i => putRow y i (row y i)) x = { x with payload := (l.foldl (fun y i => putRow y i (row y i)) x).payload } := by
  induction l generalizing x with
  | nil => rfl
  | cons i l ih =>
    rw [List.foldl_cons, ih]
    rfl

/-- VSTT in a format other than MX puts back a tile that keeps all but its payload (R230, R231). -/
theorem semVstt_ok {u : FacetUnit} {f : FIns} {o : Nat} {x : Tile} (hx : tget u.handles f.handleNo = some (.outTile o x))
    (hfmt : x.format ≠ 0x0F) (hmx : isMx x.format = false) (hrow : f.column = true ∨ (u.sget f.a).toNat < tileRows x) (s : State)
    (t : Tracked) : ∃ y flags sat, y = { x with payload := y.payload } ∧
      semVstt s t u f = .go s { u with handles := tset u.handles f.handleNo (.outTile o y) } flags sat u.pc := by
  have hin : ¬ (¬ f.column = true ∧ tileRows x ≤ (u.sget f.a).toNat) := fun h => hrow.elim h.1 (by omega)
  unfold semVstt
  rw [hx]
  dsimp only
  rw [if_neg hfmt, if_neg hin, if_neg (by simp [hmx])]
  refine ⟨_, _, _, ?_, rfl⟩
  split
  · exact putRow_foldl_eq ..
  · rfl

/-- The unit with the next tile of an input bound to a handle, and its info word given (R222, R223). -/
def FacetUnit.bound (u : FacetUnit) (f : FIns) (x : Tile) : FacetUnit :=
  let v := u.sset f.d (BitVec.ofNat 32 (infoWord x))
  { v with
      handles := tset v.handles f.handleNo (.inTile f.bindNo x)
      lastBound := if x.last then f.bindNo :: v.lastBound else v.lastBound }

theorem semTwait_ok {s : State} {t : Tracked} {u : FacetUnit} {f : FIns} {b : InBind} {x : Tile} {r : List Tile}
    (hb : t.ins[f.bindNo]? = some b) (hab : t.abortReq = false) (hfree : tget u.handles f.handleNo = none)
    (hroom : u.inHandles f.bindNo < 4) (hlast : u.lastBound.contains f.bindNo = false) (hw : b.window = x :: r) :
    semTwait s t u f = .go (s.takeTile t.slot f.bindNo) (u.bound f x) 0 0 (u.bound f x).pc := by
  have hhandle : ¬ ((tget u.handles f.handleNo).isSome = true ∨ 4 ≤ u.inHandles f.bindNo) := by
    rw [hfree]
    simp only [Option.isSome_none, Bool.false_eq_true, false_or]
    omega
  unfold semTwait FacetUnit.bound
  dsimp only
  rw [hb]
  dsimp only
  rw [if_neg (by simp [hab]), if_neg hhandle, if_neg (Bool.eq_false_iff.mp hlast), hw]

theorem semTrel_ok {s : State} {t : Tracked} {u : FacetUnit} {f : FIns} {i : Nat} {x : Tile} {b : InBind}
    (hx : tget u.handles f.handleNo = some (.inTile i x)) (hb : t.ins[i]? = some b) : semTrel s t u f =
    .go (s.releaseTo t.slot i (b.released + 1)) { u with handles := tdel u.handles f.handleNo } 0 0 u.pc := by
  unfold semTrel
  rw [hx]
  dsimp only
  rw [hb]
  rfl

/-- The command with an output's LAST tile marked, if it is that. -/
def Tracked.marked (c : Tracked) (o : Nat) (last : Bool) : Tracked :=
  { c with work := { c.work with aux := if last then c.work.aux ||| 2 ^ o else c.work.aux } }

theorem semTemit_ok {s : State} {t : Tracked} {u : FacetUnit} {f : FIns} {o : Nat} {x : Tile} {last : Bool}
    (hx : tget u.handles f.handleNo = some (.outTile o x)) (hab : t.abortReq = false) (haux : t.work.aux.testBit o = false)
    (hlast : (if f.i then f.lo else u.sget f.a).toNat.testBit 21 = last) (hzc : facetZc t o = false) : semTemit s t u f =
    .go ((s.updCmd t.slot fun c => c.marked o last).formTile t.slot o { x with last := last })
      { u with handles := tdel u.handles f.handleNo } 0 0 u.pc := by
  unfold semTemit
  rw [hx]
  dsimp only
  rw [if_neg (by simp [hab]), if_neg (by simp [haux]), hlast, hzc]
  rfl

/-- Settles O20: each row, where its checks hold, changes the unit and the command by its function. -/
theorem facetMemoryAndTiles : Obligations.FacetMemoryAndTiles := by
  refine ⟨?_, ?_, ?_, ?_, ?_, ?_, ?_, ?_⟩
  · intro st f s t u hon hlegal hlim hl haddr
    obtain ⟨s', he, hu, -, hk⟩ := runs_unit (c := .vld st f) rfl hon hlegal hlim (semVld_ok haddr s t)
    refine ⟨s', he, ⟨_, hu, vecSet_vset _ (fun _ hk => getD_mask hl hk) fun k hk => ?_⟩, hk⟩
    rw [getD_map_laneIdx _ hk]
  · intro st f s t u hon hlegal hlim hl haddr
    obtain ⟨s', he, hu, -, hk⟩ := runs_unit (c := .vst st f) rfl hon hlegal hlim (semVst_ok haddr s t)
    exact ⟨s', he, ⟨_, hu, fun _ _ hk hi => (byte_went ..).trans (byte_stored_at haddr hl hk hi),
      fun _ ha => (byte_went ..).trans (byte_stored_off haddr ha), rfl, rfl, rfl⟩, hk⟩
  · intro st f s t u b x r hon hlegal hlim hb hab hfree hroom hlast hw
    obtain ⟨hcmd, -, -, hst⟩ := facetOn_cmd? hon
    obtain ⟨s', he, hu, hc, hk⟩ := runs_go (c := .twait st f) rfl hon hlegal hlim (semTwait_ok hb hab hfree hroom hlast hw)
      (cmd?_takeTile hcmd f.bindNo) hst (kept_of_regs rfl rfl rfl rfl _)
    refine ⟨s', he, ⟨_, hu, tget_tset_self .., fun hd => ?_, sset_v .., sset_p ..⟩,
      ⟨_, _, hc, ins_took hb hw s.tb.n, rfl, rfl⟩, hk⟩
    exact (sget_sset u f.d f.d _).trans (if_pos ⟨rfl, hd⟩)
  · intro st f s t u i x b hon hlegal hlim hx hb hrel
    obtain ⟨hcmd, -, -, hst⟩ := facetOn_cmd? hon
    obtain ⟨l, hcl, hl⟩ := cmd?_releaseTo_eq hcmd hb (b.released + 1)
    obtain ⟨s', he, hu, hc, hk⟩ := runs_go (c := .trel st f) rfl hon hlegal hlim (semTrel_ok hx hb) hcl hst
      (by rw [releaseTo_eq]; exact kept_of_regs rfl rfl rfl rfl _)
    exact ⟨s', he, ⟨_, hu, tget_tdel_self ..⟩, ⟨_, _, hc, hl, by dsimp only; omega⟩, hk⟩
  · intro st f s t u i x hon hlegal hlim hl hx hfmt hrow
    obtain ⟨s', he, hu, -, hk⟩ := runs_unit (c := .vldt st f) rfl hon hlegal hlim (semVldt_ok hx hfmt hrow s t)
    refine ⟨s', he, ⟨_, hu, vecSet_vset _ (fun _ hk => getD_mask hl hk) fun k hk => ?_⟩, hk⟩
    exact getD_map_lt (by rwa [length_tileLanes]) (0, 0) _
  · intro st f s t u w hon hlegal hlim hw hab hbind hfree hroom hfmt hwhole hzc
    obtain ⟨s', he, hu, -, hk⟩ := runs_unit (c := .topen st f) rfl hon hlegal hlim
      (semTopen_ok (congrArg _ hw.symm) hab hbind hfree hroom hfmt hwhole hzc)
    exact ⟨s', he, ⟨_, _, hu, tget_tset_self .., rfl, rfl, rfl, fun _ hy => (List.mem_replicate.mp hy).2⟩, hk⟩
  · intro st f s t u o x hon hlegal hlim hx hfmt hmx hrow
    obtain ⟨y, flags, sat, hy, hsem⟩ := semVstt_ok hx hfmt hmx hrow s t
    obtain ⟨hcmd, -, -, hst⟩ := facetOn_cmd? hon
    obtain ⟨s', he, hu, -, hk⟩ := runs_go (c := .vstt st f) rfl hon hlegal hlim hsem hcmd hst ⟨.refl _ _, fun _ => rfl⟩
    exact ⟨s', he, ⟨_, y, hu, tget_tset_self .., hy, rfl, rfl, rfl, rfl⟩, hk⟩
  · intro st f s t u o x b hon hlegal hlim hx hab haux hb hformed hzc
    obtain ⟨hcmd, -, -, hst⟩ := facetOn_cmd? hon
    have hsem := semTemit_ok (s := s) hx hab haux rfl hzc
    have hmark := cmd?_updCmd_self (f := fun c => c.marked o ((if f.i then f.lo else u.sget f.a).toNat.testBit 21)) hcmd
    rw [formTile_eq hmark hb hst hformed] at hsem
    obtain ⟨s', he, hu, hc, hk⟩ := runs_go (c := .temit st f) rfl hon hlegal hlim hsem (cmd?_updCmd_self hmark) hst
      (kept_of_regs rfl rfl rfl rfl _)
    exact ⟨s', he, ⟨_, hu, tget_tdel_self ..⟩, ⟨_, _, _, hc, outs_withTile hb _, rfl, rfl, rfl, rfl, rfl⟩, hk⟩

end Sys2Proof.Machine
end

section
/-! PROOFS. A command that ends has a status in every entry of its slot, whatever its pages and its records are: it runs no more. -/

namespace Sys2Proof.Machine

open Sys2Proof

/-- Every entry of a slot has a status. -/
def Finished (slot : Nat) (s : State) : Prop := ∀ u ∈ s.tracked, u.slot = slot → u.status ≠ none

variable {slot : Nat} {s t : State}

theorem Finished.of_tracked (h : t.tracked = s.tracked) (hs : Finished slot s) : Finished slot t := by
  unfold Finished
  rwa [h]

theorem Finished.updCmd (hs : Finished slot s) (k : Nat) (f : Tracked → Tracked)
    (hf : ∀ u, (f u).slot = u.slot ∧ (f u).status = u.status := by exact fun u => ⟨rfl, rfl⟩) : Finished slot (s.updCmd k f) := by
  intro v hv hslot
  obtain ⟨u, hu, rfl⟩ := List.mem_map.mp hv
  obtain ⟨hfslot, hfst⟩ := hf u
  revert hslot
  split
  · intro hslot
    rw [hfst]
    exact hs u hu (hfslot.symm.trans hslot)
  · exact hs u hu

theorem finished_stopped (s : State) (slot status detail : Nat) :
    Finished slot (s.updCmd slot fun u => u.stopped status detail) := by
  intro v hv hslot
  obtain ⟨u, -, rfl⟩ := List.mem_map.mp hv
  revert hslot
  split
  · exact fun _ => Option.some_ne_none _
  · next h => exact fun hslot => absurd (beq_iff_eq.mpr hslot) h

theorem Finished.sweep (hs : Finished slot s) : Finished slot s.sweep :=
  fun u hu => hs u (List.mem_filter.mp hu).1

theorem Finished.unpinAll (hs : Finished slot s) (k : Tracked) : Finished slot (s.unpinAll k) := by
  unfold State.unpinAll
  split
  · exact hs
  · have hunpinned : LedgerOnly s (k.pinned.foldl State.unpinPage s) := .foldl ledgerOnly_unpinPage _ s
    exact (hs.of_tracked (by rw [hunpinned])).updCmd _ _

theorem Finished.discardInputs (hs : Finished slot s) (k : Tracked) : Finished slot (s.discardInputs k) := by
  unfold State.discardInputs
  exact .updCmd (hs.of_tracked (tracked_releases k _ s)) _ _

theorem finished_leftUnit (s : State) (slot status detail : Nat) (c : Tracked) : Finished slot (s.leftUnit slot status detail c) := by
  have hstopped := finished_stopped s slot status detail
  unfold State.leftUnit
  dsimp only
  generalize s.updCmd slot (fun u => u.stopped status detail) = s₁ at hstopped ⊢
  have hunpinned : Finished slot ((s₁.withdrawTask slot).unpinAll c) := (hstopped.of_tracked (tracked_withdrawTask s₁ slot)).unpinAll c
  generalize (s₁.withdrawTask slot).unpinAll c = s₂ at hunpinned ⊢
  refine .updCmd (Finished.discardInputs ?_ c) _ _
  exact hunpinned.of_tracked rfl

theorem Finished.startRun (hs : Finished slot s) (k : Nat) : Finished slot (s.startRun k) := by
  unfold State.startRun
  have hopen : Finished slot ((s.updCmd k fun t => { t with phase := .running, started := true, moved := s.tb.n, stallSent := false
      }).openWindows k) := (hs.updCmd k _).of_tracked rfl
  dsimp only
  split
  · exact hopen.of_tracked (dbgOnly_trace ..).tracked
  · exact hopen

theorem Finished.promote (hs : Finished slot s) (st unit : Nat) : Finished slot (s.promote st unit) := by
  unfold State.promote
  split
  · exact hs
  · split
    · exact hs.startRun _
    · exact hs

theorem Finished.raiseCompletion (hs : Finished slot s) (k : Tracked) : Finished slot (s.raiseCompletion k) := by
  unfold State.raiseCompletion
  dsimp only
  split
  · exact hs
  · have hraised : Finished slot (s.updCmd k.slot fun u => { u with compl := .raised }) := hs.updCmd _ _
    split
    · refine hraised.of_tracked ?_
      rw [cancelsOnly_applyCancels]
      rfl
    · exact hraised.of_tracked rfl

theorem Finished.checkDrain (hs : Finished slot s) (k : Nat) : Finished slot (s.checkDrain k) := by
  unfold State.checkDrain
  split
  · exact hs
  · next u _ =>
    split
    · have hreport : Finished slot (if u.compl == .none then s.reportEnd u else s) := by
        split
        · exact hs.of_tracked (tracked_reportEnd s u)
        · exact hs
      dsimp only
      generalize (if u.compl == .none then s.reportEnd u else s) = s₁ at hreport ⊢
      have hbusy : Finished slot (if u.station < 48 then
          { s₁.updCmd k fun v => { v with phase := .ended } with
            busyAt := tset (s₁.updCmd k fun v => { v with phase := .ended }).busyAt u.station
              (s₁.updCmd k fun v => { v with phase := .ended }).tb.n }
          else s₁.updCmd k fun v => { v with phase := .ended }) := by
        split
        · exact (hreport.updCmd k _).of_tracked rfl
        · exact hreport.updCmd k _
      generalize (if u.station < 48 then _ else _ : State) = s₂ at hbusy ⊢
      have hraised : Finished slot (if u.compl == .none then s₂.raiseCompletion u else s₂) := by
        split
        · exact hbusy.raiseCompletion u
        · exact hbusy
      generalize (if u.compl == .none then s₂.raiseCompletion u else s₂) = s₃ at hraised ⊢
      refine Finished.sweep ?_
      split
      · exact hraised.promote _ _
      · exact hraised
    · exact hs

theorem finished_finish {c : Tracked} (hc : s.cmd? slot = some c) (hrun : c.phase = .running) (status detail : Nat) :
    Finished slot (s.finish slot status detail) := by
  rw [finish_of_running hc hrun]
  exact Finished.checkDrain (finished_leftUnit _ _ _ _ _) slot

end Sys2Proof.Machine
end

section
/-! PROOFS. FACET loads its kernel, starts its unit and runs the rows that its words name (R192, R196, R197, R203): O21. -/

namespace Sys2Proof.Machine

open Sys2Proof

variable {slot : Nat} {s : State} {t : Tracked}

/-! ### Loading -/

theorem dbgOnly_kernelIn (s : State) (t : Tracked) (a n : Nat) : DbgOnly (dbgRegs t.station) s (s.kernelIn t a n) :=
  (dbgOnly_count ..).trans <| ((dbgOnly_countMem ..).mono (gcnt_sub_dbgRegs _)).trans <|
    (dbgOnly_count ..).trans ((dbgOnly_memLinks ..).mono (gcnt_sub_dbgRegs _))

/-- What a FACET loads: its kernel and its parameter block. -/
def facetRanges (opb : List Byte) : List (Nat × Nat) :=
  [(opw opb 4 47 0, 8 * (opw opb 4 59 48 + 1)), (opw opb 5 47 0, 256 * opw opb 5 56 48)]

theorem openRanges_of_kernel (hc : s.cmd? slot = some t) (hop : t.op = 0x30) {load : List (Nat × Nat)}
    (hclear : ∀ r ∈ load, clearingAt s r.1 r.2 = false) (hgood : ∀ r ∈ load, badRange s r.1 r.2 = false)
    (f : State → List (List Byte) → State) :
    ∃ u, DbgOnly (dbgRegs t.station) s u ∧ s.openRanges slot [] load f = f u (load.map fun r => softBytes s r.1 r.2) := by
  have hclear' : load.any (fun r => clearingAt s r.1 r.2) = false := List.any_eq_false.mpr fun r hr => by simp [hclear r hr]
  have hgood' : load.find? (fun r => badRange s r.1 r.2) = none := List.find?_eq_none.mpr fun r hr => by simp [hgood r hr]
  refine ⟨load.foldl (fun s r => s.kernelIn t r.1 r.2) s, .foldl (fun u r _ => dbgOnly_kernelIn u t r.1 r.2) s, ?_⟩
  unfold State.openRanges
  rw [hc]
  dsimp only
  rw [List.any_nil, hclear', hgood']
  simp only [if_pos hop]
  rfl

/-- A FACET that is checked and whose ranges are readable loads them. -/
theorem facetLoad_eq (hc : s.cmd? slot = some t) (hop : t.op = 0x30) (hcheck : facetCheck s t = none)
    (hclear : ∀ r ∈ facetRanges t.opb, clearingAt s r.1 r.2 = false) (hgood : ∀ r ∈ facetRanges t.opb, badRange s r.1 r.2 = false) :
    ∃ u, DbgOnly (dbgRegs t.station) s u ∧
      s.facetLoad t = u.engineOpened slot ((facetRanges t.opb).map fun r => softBytes s r.1 r.2) := by
  have hslot := slot_of_cmd? hc
  obtain ⟨u, hdbg, hopen⟩ := openRanges_of_kernel hc hop hclear hgood fun s vs => s.engineOpened slot vs
  have hbad : (facetRanges t.opb).any (fun r => badRange s r.1 r.2) = false := List.any_eq_false.mpr fun r hr => by simp [hgood r hr]
  refine ⟨u, hdbg, ?_⟩
  unfold State.facetLoad
  rw [hcheck]
  dsimp only
  rw [hslot, ← hopen]
  exact if_neg fun h => Bool.false_ne_true (hbad.symm.trans h.2)

theorem exec_facet_unopened {n : Nat} (h : runningCmd s slot 0x30 = some t ∧ t.work.opened = false ∨
    runningCmd s slot 0x30 = none ∧ stagedFacet s slot = some t) :
    exec (.facet slot n) s = .next (s.facetLoad t) ∧ s.cmd? slot = some t ∧ t.op = 0x30 := by
  change execFacet slot n s = _ ∧ _
  unfold execFacet
  rcases h with ⟨hrun, hopen⟩ | ⟨hnone, hstaged⟩
  · obtain ⟨hc, -, hop, -⟩ := runningCmd_eq_some hrun
    rw [hrun]
    exact ⟨if_pos (by simp [hopen]), hc, hop⟩
  · rw [hnone, hstaged]
    obtain ⟨hc, hstg⟩ := Option.filter_eq_some_iff.mp hstaged
    simp only [Bool.and_eq_true, beq_iff_eq] at hstg
    exact ⟨rfl, hc, hstg.1.1.2⟩

/-! ### Starting -/

theorem exec_facet_start {n : Nat} (hrun : runningCmd s slot 0x30 = some t) (hopen : t.work.opened = true)
    (hunit : (tget s.facets t.station).map FacetUnit.slot ≠ some slot) : exec (.facet slot n) s = .next (s.facetStart t) := by
  change execFacet slot n s = _
  unfold execFacet
  rw [hrun]
  dsimp only
  rw [if_neg (by simp [hopen]), if_pos (by simpa using hunit)]
  rfl

/-! ### The command of a kernel under one of its instructions -/

/-- Nothing asks the command of a slot, as long as it goes on, to stop. -/
def Calm (slot : Nat) (s : State) : Prop := ∀ c, s.cmd? slot = some c → c.status = none → c.abortReq = false

theorem Finished.calm (h : Finished slot s) : Calm slot s := by
  intro c hc hst
  exact absurd hst (h c (List.mem_of_find?_eq_some hc) (slot_of_cmd? hc))

theorem Calm.of_tracked {s' : State} (h : Calm slot s) (he : s'.tracked = s.tracked) : Calm slot s' :=
  fun c hc => h c ((cmd?_congr he slot).symm.trans hc)

theorem calm_of_cmd? (hc : s.cmd? slot = some t) (hab : t.abortReq = false) : Calm slot s := by
  intro c hc' _
  rw [hc] at hc'
  cases hc'
  exact hab

theorem Calm.updCmd (h : Calm slot s) (k : Nat) (f : Tracked → Tracked)
    (hf : ∀ u, (f u).slot = u.slot ∧ (f u).status = u.status ∧ (f u).abortReq = u.abortReq := by exact fun u => ⟨rfl, rfl, rfl⟩) :
    Calm slot (s.updCmd k f) := by
  intro c hc hst
  rw [cmd?_updCmd s k slot f fun u => (hf u).1] at hc
  obtain ⟨u, hu, rfl⟩ := Option.map_eq_some_iff.mp hc
  obtain ⟨-, hfst, hfab⟩ := hf u
  revert hst
  split
  · rw [hfst, hfab]
    exact h u hu
  · exact h u hu

theorem Calm.facetFlags (h : Calm slot s) (flags sat : Nat) : Calm slot (s.facetFlags slot flags sat) := by
  unfold State.facetFlags
  split
  · exact h
  · exact h.updCmd _ _

/-- What is shown of the state that an instruction's function leaves. -/
def FRes.Calm (slot : Nat) : FRes → Prop
  | .go s _ _ _ _ => Machine.Calm slot s
  | _ => True

theorem FRes.Calm.ite {p : Prop} {_ : Decidable p} {q q' : FRes} (h : q.Calm slot) (h' : q'.Calm slot) :
    (if p then q else q').Calm slot := by
  split <;> assumption

/-- A function that leaves the command of a running kernel as calm as it finds it. -/
def FSem.Calm (sem : FSem) : Prop := ∀ (s : State) (c : Tracked) (u : FacetUnit) (f : FIns), s.cmd? c.slot = some c →
  c.phase = .running → c.abortReq = false → (sem s c u f).Calm c.slot

theorem unit_calm {v : FacetUnit → FIns → FacetUnit} {fl : FacetUnit → FIns → Nat} :
    FSem.Calm fun s _ u f => .unit s (v u f) (fl u f) := fun _ _ _ _ hc _ hab => calm_of_cmd? hc hab

theorem semHalt_calm : FSem.Calm semHalt := fun _ _ _ _ _ _ _ => .ite trivial trivial

theorem semBez_calm : FSem.Calm semBez := fun _ _ _ _ hc _ hab => .ite trivial (calm_of_cmd? hc hab)

theorem semBnz_calm : FSem.Calm semBnz := fun _ _ _ _ hc _ hab => .ite (calm_of_cmd? hc hab) trivial

theorem semLoop_calm : FSem.Calm semLoop := fun _ _ _ _ hc _ hab => .ite trivial (.ite (calm_of_cmd? hc hab) trivial)

theorem semVld_calm : FSem.Calm semVld := fun _ _ _ _ hc _ hab => .ite trivial (calm_of_cmd? hc hab)

theorem semVst_calm : FSem.Calm semVst := fun _ _ _ _ hc _ hab => .ite trivial (calm_of_cmd? hc hab)

theorem semVldt_calm : FSem.Calm semVldt := by
  intro s c u f hc _ hab
  unfold semVldt
  split
  · exact .ite trivial (.ite trivial (calm_of_cmd? hc hab))
  · trivial

theorem semVstt_calm : FSem.Calm semVstt := by
  intro s c u f hc _ hab
  have hcalm : Calm c.slot s := calm_of_cmd? hc hab
  unfold semVstt
  split
  · exact .ite trivial (.ite trivial (.ite (.ite trivial hcalm) hcalm))
  · trivial

theorem semTwait_calm : FSem.Calm semTwait := by
  intro s c u f hc _ hab
  unfold semTwait
  dsimp only
  split
  · trivial
  · refine .ite trivial (.ite trivial (.ite trivial ?_))
    split
    · trivial
    · exact Calm.updCmd (calm_of_cmd? hc hab) _ _

theorem Calm.releaseTo (h : Calm slot s) (k inp n : Nat) : Calm slot (s.releaseTo k inp n) := by
  unfold State.releaseTo
  split
  · exact h
  · split
    · exact h
    · dsimp only
      split
      · exact h
      · exact (h.updCmd k _).of_tracked rfl

theorem semTrel_calm : FSem.Calm semTrel := by
  intro s c u f hc _ hab
  unfold semTrel
  split
  · exact Calm.releaseTo (calm_of_cmd? hc hab) _ _ _
  · trivial

theorem semTopen_calm : FSem.Calm semTopen := fun _ _ _ _ hc _ hab =>
  .ite trivial (.ite trivial (.ite trivial (.ite trivial (.ite trivial (calm_of_cmd? hc hab)))))

/-- A tile formed, or the command ended that has no index left for it (R58). -/
theorem calm_formTile (hc : s.cmd? slot = some t) (hrun : t.phase = .running) (hab : t.abortReq = false) (out : Nat) (x : Tile) :
    Calm slot (s.formTile slot out x) := by
  have hcalm : Calm slot s := calm_of_cmd? hc hab
  unfold State.formTile
  rw [hc]
  dsimp only
  split
  · exact hcalm
  · split
    · exact hcalm
    · split
      · exact (finished_finish hc hrun _ _).calm
      · exact hcalm.updCmd _ _

theorem semTemit_calm : FSem.Calm semTemit := by
  intro s c u f hc hrun hab
  unfold semTemit
  split
  · exact .ite trivial (.ite trivial (calm_formTile (cmd?_updCmd_self hc) hrun hab _ _))
  · trivial

theorem facetFn_calm {cls func : Nat} {use : FUse} {sem : FSem} (e : facetFn cls func = some (use, sem)) : FSem.Calm sem := by
  unfold facetFn at e
  split at e <;> cases e
  · exact unit_calm
  · exact semHalt_calm
  · exact fun _ _ _ _ _ _ _ => trivial
  · exact semBez_calm
  · exact semBnz_calm
  · exact semLoop_calm
  iterate 71 · exact unit_calm
  · exact semVld_calm
  · exact semVst_calm
  · exact semVldt_calm
  · exact semVstt_calm
  · exact semTwait_calm
  · exact semTrel_calm
  · exact semTopen_calm
  · exact semTemit_calm

theorem upstreamEnd_calm (hc : s.cmd? slot = some t) (hrun : t.phase = .running) (hab : t.abortReq = false) :
    Calm slot (s.upstreamEnd slot) := by
  unfold State.upstreamEnd
  rw [hc]
  dsimp only
  split
  · exact (finished_finish hc hrun _ _).calm
  · exact calm_of_cmd? hc hab

theorem calm_facetIns {st : Nat} {u : FacetUnit} {use : FUse} {sem : FSem} {f : FIns} (hsem : FSem.Calm sem)
    (hc : s.cmd? t.slot = some t) (hrun : t.phase = .running) (hab : t.abortReq = false) :
    Calm t.slot (s.facetIns st t u use sem f) := by
  have hend (status detail : Nat) : Calm t.slot (s.finish t.slot status detail) := (finished_finish hc hrun _ _).calm
  have hcount : (s.count st 13 1 t).cmd? t.slot = some t := (cmd?_congr (dbgOnly_count ..).tracked _).trans hc
  have hq := hsem s t u f hc hrun hab
  unfold State.facetIns
  dsimp only
  split
  · exact hend _ _
  · split
    · exact hend _ _
    · split
      · exact calm_of_cmd? hc hab
      · exact upstreamEnd_calm hc hrun hab
      · exact hend _ _
      · exact hend _ _
      · split
        · exact hend _ _
        · exact (finished_finish hcount hrun _ _).calm
      · next s₁ v flags sat after hgo =>
        rw [hgo] at hq
        have hcounted := (Calm.facetFlags hq flags sat).of_tracked (dbgOnly_count (s₁.facetFlags t.slot flags sat) st 13 1 t).tracked
        split
        · exact hcounted
        · exact hcounted.of_tracked rfl
      · exact Calm.of_tracked (calm_of_cmd? hcount hab) rfl

/-! ### Instructions -/

/-- The row that a CLASS and a FUNC name (Table 3-4). -/
def NamesRow (cls func : Nat) (c : Nat → FIns → Instr) : Prop :=
  ∃ use sem, facetFn cls func = some (use, sem) ∧ ∀ st f s, exec (c st f) s = facetRow use sem st f s

/-- One instruction of a running kernel is the row that its word names. -/
theorem exec_facet_one {cls func : Nat} {c : Nat → FIns → Instr} (hrow : NamesRow cls func c) {u : FacetUnit} {w : W64}
    (hrun : runningCmd s slot 0x30 = some t) (hopen : t.work.opened = true) (hab : t.abortReq = false)
    (hon : facetOn s t.station = some (t, u)) (hw : u.kernel[u.pc]? = some w) (hcls : fld w.toNat 63 60 = cls)
    (hfunc : fld w.toNat 59 54 = func) (hzero : fld w.toNat 33 32 = 0) :
    exec (.facet slot 1) s = exec (c t.station (FIns.ofWord w)) s := by
  obtain ⟨use, sem, hfn, hexec⟩ := hrow
  obtain ⟨hc, hphase, -⟩ := runningCmd_eq_some hrun
  obtain ⟨hcmd, hslot, -⟩ := facetOn_cmd? hon
  obtain ⟨hunit, -⟩ := facetOn_eq_some hon
  obtain rfl : t.slot = slot := slot_of_cmd? hc
  have hcalm := calm_facetIns (st := t.station) (u := u) (use := use) (f := FIns.ofWord w) (facetFn_calm hfn) hc hphase hab
  have hfetch : s.facetRun t.station 1 = s.facetIns t.station t u use sem (FIns.ofWord w) := by
    unfold State.facetRun State.facetFetch
    rw [hon]
    dsimp only
    rw [hw]
    dsimp only
    rw [hcls, hfunc, hfn]
    exact if_neg (not_not.mpr hzero)
  rw [hexec, facetRow_of_on hon]
  change execFacet t.slot 1 s = _
  unfold execFacet
  rw [hrun]
  dsimp only
  rw [if_neg (by simp [hopen]), if_neg (by simp [hunit, hslot]), hfetch]
  split
  · next v hv =>
    obtain ⟨hcv, -, -, hst, -⟩ := runningCmd_eq_some hv
    rw [hcalm v hcv hst]
    rfl
  · rfl

/-- Settles O21: a FACET that is checked loads its ranges, the unit starts with them, and each word is run by the row it names. -/
theorem facetRunsItsKernel : Obligations.FacetRunsItsKernel := by
  refine ⟨?_, ?_, ?_⟩
  · intro slot n s t h hcheck hk hp hkc hpc
    obtain ⟨hexec, hc, hop⟩ := exec_facet_unopened (n := n) h
    obtain ⟨u, hdbg, hload⟩ := facetLoad_eq hc hop hcheck (by simp [facetRanges, hkc, hpc]) (by simp [facetRanges, hk, hp])
    rw [hload] at hexec
    exact ⟨_, hexec, ⟨_, cmd?_engineOpened ((cmd?_congr hdbg.tracked slot).trans hc) _, rfl, rfl, rfl⟩, hdbg.events,
      hdbg.kept.trans (kept_engineOpened ..)⟩
  · intro slot n s t hrun hopen hunit
    obtain ⟨hc, -⟩ := runningCmd_eq_some hrun
    refine ⟨_, exec_facet_start hrun hopen hunit, ⟨_, tget_tset_self .., slot_of_cmd? hc, rfl, rfl, rfl, rfl, ?_, ?_, rfl, ?_, ?_,
      rfl, rfl, rfl⟩, kept_of_regs rfl rfl rfl rfl _, rfl⟩
    · simp [FacetUnit.fresh]
    · intro i w hw
      obtain ⟨j, hj, rfl⟩ := Option.map_eq_some_iff.mp ((List.getElem?_map ..).symm.trans hw)
      obtain ⟨-, rfl⟩ := List.getElem?_eq_some_iff.mp hj
      rw [List.getElem_range]
    · exact fun _ => rfl
    · intro i
      exact ite_self _
  · rintro e (he | he | he) s slot t u w hrun hopen hab hon hw hcls hfunc hzero
    all_goals
      refine exec_facet_one ?_ hrun hopen hab hon hw hcls hfunc hzero
      fin_cases he <;> exact ⟨_, _, rfl, fun _ _ _ => rfl⟩

end Sys2Proof.Machine
end

section
/-! PROOFS. The output tiles of the image opcodes (R246 to R248, R259, R276, R286): O22. -/

namespace Sys2Proof.Machine

open Sys2Proof

/-! ### The tile -/

@[simp] theorem zcTile_last (asked : Bool) (x : Tile) : (zcTile asked x).last = x.last := by rw [zcTile_eq]

@[simp] theorem zcTile_format (asked : Bool) (x : Tile) : (zcTile asked x).format = x.format := by rw [zcTile_eq]

@[simp] theorem zcTile_rowsM1 (asked : Bool) (x : Tile) : (zcTile asked x).rowsM1 = x.rowsM1 := by rw [zcTile_eq]

@[simp] theorem zcTile_false (x : Tile) : zcTile false x = x := if_neg (by simp)

/-- A tile of rows that is not the last of its stream, plain unless compression is asked for, as an output emits it. -/
theorem stampTile_zcTile_facts (t : Tracked) (o : OutBind) (asked : Bool) (fmt rows rowBytes : Nat) (payload : List Byte) :
    (stampTile t o (zcTile asked (mkTile fmt rows rowBytes false payload))).last = false ∧
    (stampTile t o (zcTile asked (mkTile fmt rows rowBytes false payload))).format = fmt ∧
    (stampTile t o (zcTile asked (mkTile fmt rows rowBytes false payload))).rowsM1 = rows - 1 ∧
    (asked = false → (stampTile t o (zcTile asked (mkTile fmt rows rowBytes false payload))).payload = payload) := by
  refine ⟨zcTile_last .., zcTile_format .., zcTile_rowsM1 .., ?_⟩
  rintro rfl
  exact congrArg Tile.payload (zcTile_false _)

/-! ### Forming -/

/-- A tile formed on output 0, with the work at the next position, what its rows reported counted, and the end of the map tested. -/
def State.formRaster (s : State) (slot pos flags sat : Nat) (x : Tile) (total tiles : Nat) : State :=
  ((s.gather slot pos flags sat).formTile slot 0 x).rasterEnd slot total tiles

section
variable {slot op : Nat} {s v : State} {t : Tracked} {o : OutBind}
variable (hrun : runningCmd s slot op = some t) (ho : t.outs[0]? = some o) (hformed : o.formed < 2 ^ 32 - 1)
include hrun ho hformed

/-- Where the map goes on, a running command that counts its work has formed one tile, and stays on its unit. -/
theorem formRaster_forms {total tiles : Nat} (hmore : t.work.pos + 1 < total) (hdbg : DbgOnly (dbgRegs t.station) s v)
    (flags sat : Nat) {x : Tile} {P : Tile → Prop} (hP : P (stampTile t o x)) :
    FormsTile slot t o (v.formRaster slot (t.work.pos + 1) flags sat x total tiles) P ∧
      (v.formRaster slot (t.work.pos + 1) flags sat x total tiles).events = s.events ∧
      Kept (dbgRegs t.station) s (v.formRaster slot (t.work.pos + 1) flags sat x total tiles) := by
  obtain ⟨hc, hphase, -, hst, -⟩ := runningCmd_eq_some hrun
  have hgathered : (v.gather slot (t.work.pos + 1) flags sat).cmd? slot = some (t.gathered (t.work.pos + 1) flags sat) :=
    cmd?_updCmd_self ((cmd?_congr hdbg.tracked slot).trans hc)
  have hform := formTile_eq hgathered ho hst hformed x
  have hend : ((v.gather slot (t.work.pos + 1) flags sat).formTile slot 0 x).cmd? slot =
      some ((t.gathered (t.work.pos + 1) flags sat).withTile 0 (stampTile t o x)) := by
    rw [hform]
    exact cmd?_updCmd_self hgathered
  have hstays : v.formRaster slot (t.work.pos + 1) flags sat x total tiles =
      (v.gather slot (t.work.pos + 1) flags sat).formTile slot 0 x := by
    unfold State.formRaster State.rasterEnd
    rw [hend]
    dsimp only
    rw [if_neg fun h => absurd h.1 (Nat.not_le.mpr hmore)]
    refine checkDrain_eq_self hend ?_
    change t.phase ≠ .draining
    simp [hphase]
  rw [hstays]
  refine ⟨⟨_, _, stampTile t o x, hend, rfl, outs_withTile ho _, rfl, rfl, rfl, rfl, rfl, hP⟩, ?_, hdbg.kept.trans ?_⟩
  · rw [hform]
    exact hdbg.events
  · rw [hform]
    exact kept_of_regs rfl rfl rfl rfl _

end

/-- With the input tiles taken that the next output tile rests on, and room for it, a step over a map forms it. -/
theorem rasterStep_forms {s : State} {slot : Nat} {t : Tracked} {b : InBind} {total need : Nat} (hb : t.ins[0]? = some b)
    (hmore : t.work.pos + 1 < total) (hneed : need ≤ b.taken.length) (hroom : roomFor s t = true) (d : MapDim)
    (form : State → State) : s.rasterStep slot t d total need form = (form s).rasterEnd slot total d.tiles := by
  unfold State.rasterStep
  rw [hb]
  dsimp only
  rw [if_pos ⟨(Nat.lt_succ_self _).trans hmore, hneed⟩, if_pos hroom]

/-- Work counted for the first slice of a segment alone, or for the first tile of a block. -/
theorem dbgOnly_countIf (p : Prop) [Decidable p] (s : State) (t : Tracked) (ev n : Nat) :
    DbgOnly (dbgRegs t.station) s (if p then s.count t.station ev n t else s) :=
  .ite (dbgOnly_count s t.station ev n t) (.refl _ s)

/-- The tile of a segment and slice of `n` pixels, as an output emits it, where the map goes on. -/
theorem stampTile_mapTile_facts {d : MapDim} {i : Nat} (hmore : i + 1 < d.tiles) (t : Tracked) (o : OutBind) (zc : Bool) (n : Nat)
    (f : Nat → OutRow) :
    (stampTile t o (mapTile d zc i ((List.range n).map f))).last = false ∧
    (stampTile t o (mapTile d zc i ((List.range n).map f))).format = d.fmt ∧
    (stampTile t o (mapTile d zc i ((List.range n).map f))).rowsM1 = n - 1 ∧
    (zc = false → (stampTile t o (mapTile d zc i ((List.range n).map f))).payload = (List.range n).flatMap fun p => (f p).bytes) := by
  have htile : mapTile d zc i ((List.range n).map f) =
      zcTile zc (mkTile d.fmt n (d.sliceBytes (i % d.slices)) false ((List.range n).flatMap fun p => (f p).bytes)) := by
    unfold mapTile joinRows
    rw [beq_false_of_ne hmore.ne, List.flatMap_map, List.length_map, List.length_range]
    rfl
  rw [htile]
  exact stampTile_zcTile_facts ..

/-! ### CONV -/

/-- The output pixels of a segment and slice of a CONV, at position `i`. -/
def convRows (t : Tracked) (c : ConvCfg) (xs ws : List Tile) (sl i : Nat) : List OutRow :=
  (List.range (c.out.segLen (i % c.out.rowTiles / c.out.slices))).map fun p =>
    c.pixel (fun n => operandRow c.pr.b c.kg ws sl (n / 128) (n % 128)) (t.loaded[0]?.getD []) (t.loaded[1]?.getD [])
      (c.geo.inp.at xs) (i / c.out.rowTiles) (128 * (i % c.out.rowTiles / c.out.slices) + p) (i % c.out.slices * c.out.sc)
      (c.out.sliceLen (i % c.out.slices))

/-- A CONV with its weights complete and the rows of its window taken forms its next output tile. -/
theorem exec_conv_forms {slot sl : Nat} {s : State} {t : Tracked} {c : ConvCfg} {xb wb : InBind}
    (hrun : runningCmd s slot 0x40 = some t) (hopen : t.work.opened = true) (hcfg : ConvCfg.of t.opb = some c)
    (hxb : t.ins[0]? = some xb) (hwb : t.ins[1]? = some wb) (hsl : slicesOf c.kg (sliceSizes c.kg wb.taken) = some sl)
    (hweights : ceilDiv c.geo.cout 128 * sl ≤ wb.taken.length) (hmore : t.work.pos + 1 < c.out.tiles)
    (hneed : c.geo.needTiles (t.work.pos / c.out.rowTiles) ≤ xb.taken.length) (hroom : roomFor s t = true) :
    exec (.conv slot) s = .next ((if t.work.pos % c.out.slices = 0 then
        s.count t.station 3 (c.cycles (c.out.segLen (t.work.pos % c.out.rowTiles / c.out.slices))) t else s).formRaster slot
      (t.work.pos + 1) (joinRows (convRows t c xb.taken wb.taken sl t.work.pos)).flags
      (joinRows (convRows t c xb.taken wb.taken sl t.work.pos)).sat
      (mapTile c.out c.e.zc t.work.pos (convRows t c xb.taken wb.taken sl t.work.pos)) c.out.tiles c.geo.inp.tiles) := by
  have hstep : s.convStep slot t c = (s.convForm slot t c xb.taken wb.taken sl).rasterEnd slot c.out.tiles c.geo.inp.tiles := by
    unfold State.convStep
    rw [hxb, hwb]
    dsimp only
    rw [hsl]
    dsimp only
    rw [if_neg (Nat.not_lt.mpr hweights), rasterStep_forms hxb hmore hneed hroom]
  change execConv slot s = _
  unfold execConv
  rw [hrun]
  dsimp only
  rw [if_neg (by simp [hopen]), hcfg]
  dsimp only
  rw [hstep]
  rfl

/-! ### POOL -/

/-- The output pixels of a segment and slice of a POOL, at position `i`. -/
def poolRows (p : PoolCfg) (xs : List Tile) (i : Nat) : List OutRow :=
  (List.range (p.out.segLen (i % p.out.rowTiles / p.out.slices))).map fun x =>
    p.pixel (p.geo.inp.at xs) (i / p.out.rowTiles) (128 * (i % p.out.rowTiles / p.out.slices) + x) (i % p.out.slices * p.out.sc)
      (p.out.sliceLen (i % p.out.slices))

/-- A POOL with the rows of its window taken forms its next output tile. -/
theorem exec_pool_forms {slot : Nat} {s : State} {t : Tracked} {p : PoolCfg} {xb : InBind} (hrun : runningCmd s slot 0x41 = some t)
    (hopen : t.work.opened = true) (hcfg : PoolCfg.of t.opb = p) (hxb : t.ins[0]? = some xb) (hmore : t.work.pos + 1 < p.out.tiles)
    (hneed : p.geo.needTiles (t.work.pos / p.out.rowTiles) ≤ xb.taken.length) (hroom : roomFor s t = true) :
    exec (.pool slot) s = .next ((if t.work.pos % p.out.slices = 0 then
        s.count t.station 3 (p.cycles (p.out.segLen (t.work.pos % p.out.rowTiles / p.out.slices))) t else s).formRaster slot
      (t.work.pos + 1) (joinRows (poolRows p xb.taken t.work.pos)).flags (joinRows (poolRows p xb.taken t.work.pos)).sat
      (mapTile p.out p.zc t.work.pos (poolRows p xb.taken t.work.pos)) p.out.tiles p.geo.inp.tiles) := by
  subst hcfg
  change execPool slot s = _
  unfold execPool
  rw [hrun]
  dsimp only
  rw [if_neg (by simp [hopen])]
  dsimp only [MapDim.place]
  rw [hxb, rasterStep_forms hxb hmore hneed hroom]
  rfl

/-! ### ARGMAX -/

/-- The winners of a segment's pixels: channel and code of each. -/
def argmaxWinners (d : MapDim) (xs : List Tile) (i : Nat) : List (Nat × Nat) :=
  (List.range (d.segLen (i % d.segs))).map fun p =>
    argmaxOf d.fmt (unpackCodes (elemBits d.fmt) d.c (d.pixel xs (i / d.segs) (128 * (i % d.segs) + p)))

/-- An ARGMAX with a segment's slices taken, and OUT1 not bound, forms the tile of its winners' channels. -/
theorem exec_argmax_forms {slot : Nat} {s : State} {t : Tracked} {d : MapDim} {xb : InBind} {o : OutBind}
    (hrun : runningCmd s slot 0x42 = some t) (hopen : t.work.opened = true) (hdim : argmaxDim t.opb = d) (hxb : t.ins[0]? = some xb)
    (hmore : t.work.pos + 1 < d.h * d.segs) (hneed : (t.work.pos + 1) * d.slices ≤ xb.taken.length) (hroom : roomFor s t = true)
    (houts : t.outs = [o]) :
    exec (.argmax slot) s = .next ((s.count t.station 3 (ceilDiv (d.segLen (t.work.pos % d.segs) * d.c) 256) t).formRaster slot
      (t.work.pos + 1) 0 0 (mkTile 0x01 (argmaxWinners d xb.taken t.work.pos).length 2 false
        ((argmaxWinners d xb.taken t.work.pos).flatMap fun w => leBytes 2 w.1)) (d.h * d.segs) d.tiles) := by
  subst hdim
  change execArgmax slot s = _
  unfold execArgmax
  rw [hrun]
  dsimp only
  rw [if_neg (by simp [hopen]), hxb, rasterStep_forms hxb hmore hneed hroom,
    beq_false_of_ne hmore.ne, if_neg (by simp [houts])]
  rfl

/-! ### FUSED -/

/-- Block `b`, run from the input tiles taken: its output region, and what its layers reported. -/
def fusedRun (t : Tracked) (ls : List Layer) (xs : List Tile) (b : Nat) : Region × OutRow :=
  runBlock t.opb ls t.loaded b (xs.drop (tilesBefore (blockTilesIn t.opb ls) b))

/-- The pixels of the row of block `b` that its tile `i` is of. -/
def fusedPixels (t : Tracked) (ls : List Layer) (xs : List Tile) (b i : Nat) : List (List Byte) :=
  ((fusedRun t ls xs b).1.px[i / (fusedOut ls).slices]?).getD []

/-- The bytes of slice `k` of a pixel. -/
def sliceOf (d : MapDim) (k : Nat) (px : List Byte) : List Byte :=
  (px.drop ((List.range k).map d.sliceBytes).sum).take (d.sliceBytes k)

/-- A FUSED with the input regions taken through its block's forms that block's next output tile. -/
theorem exec_fused_forms {slot b i : Nat} {s : State} {t : Tracked} {ls : List Layer} {xb : InBind}
    (hrun : runningCmd s slot 0x43 = some t) (hopen : t.work.opened = true) (hls : fusedLayers t.opb = ls) (hxb : t.ins[0]? = some xb)
    (hplace : findBlock (blockTilesOut t.opb ls) (blockCount t.opb (fusedOut ls)) 0 t.work.pos = (b, i))
    (hmore : t.work.pos + 1 < tilesBefore (blockTilesOut t.opb ls) (blockCount t.opb (fusedOut ls)))
    (hneed : tilesBefore (blockTilesIn t.opb ls) (b + 1) ≤ xb.taken.length) (hroom : roomFor s t = true) :
    exec (.fused slot) s = .next ((if i = 0 then s.count t.station 3 (blockCycles t.opb ls b) t else s).formRaster slot
      (t.work.pos + 1) (if i = 0 then (fusedRun t ls xb.taken b).2.flags else 0) (if i = 0 then (fusedRun t ls xb.taken b).2.sat else 0)
      (zcTile (((ls.getLast?).map Layer.zc).getD false) (mkTile (fusedOut ls).fmt (fusedPixels t ls xb.taken b i).length
        ((fusedOut ls).sliceBytes (i % (fusedOut ls).slices)) false
        ((fusedPixels t ls xb.taken b i).flatMap (sliceOf (fusedOut ls) (i % (fusedOut ls).slices)))))
      (tilesBefore (blockTilesOut t.opb ls) (blockCount t.opb (fusedOut ls)))
      (tilesBefore (blockTilesIn t.opb ls) (blockCount t.opb (fusedOut ls)))) := by
  subst hls
  change execFused slot s = _
  unfold execFused
  rw [hrun]
  dsimp only
  rw [if_neg (by simp [hopen])]
  unfold State.fusedStep
  rw [hxb]
  dsimp only
  rw [hplace]
  dsimp only
  rw [if_pos ⟨(Nat.lt_succ_self _).trans hmore, hneed, hroom⟩]
  unfold State.fusedForm
  dsimp only
  rw [beq_false_of_ne hmore.ne, List.length_map]
  rfl

/-! ### The statement -/

/-- Settles O22: each opcode forms the tile of its place, counts its work and stays on its unit. -/
theorem imageFormsTiles : Obligations.ImageFormsTiles := by
  unfold Obligations.ImageFormsTiles
  refine ⟨?_, ?_, ?_, ?_⟩
  · intro slot sl s t c xb wb o hrun hopen hcfg hxb hwb hsl hweights hmore hneed hroom ho hformed
    exact ⟨_, exec_conv_forms hrun hopen hcfg hxb hwb hsl hweights hmore hneed hroom,
      formRaster_forms hrun ho hformed hmore (dbgOnly_countIf ..) _ _ (stampTile_mapTile_facts hmore ..)⟩
  · intro slot s t xb o hrun hopen hxb hmore hneed hroom ho hformed
    exact ⟨_, exec_pool_forms hrun hopen rfl hxb hmore hneed hroom,
      formRaster_forms hrun ho hformed hmore (dbgOnly_countIf ..) _ _ (stampTile_mapTile_facts hmore ..)⟩
  · intro slot s t xb o hrun hopen hxb hmore hneed hroom houts hformed
    refine ⟨_, exec_argmax_forms hrun hopen rfl hxb hmore hneed hroom houts,
      formRaster_forms hrun (by rw [houts]; rfl) hformed hmore (dbgOnly_count ..) _ _ ⟨rfl, rfl, rfl, ?_, List.flatMap_map ..⟩⟩
    simp [stampTile, mkTile, argmaxWinners]
  · intro slot b i s t xb o hrun hopen hxb hplace hmore hneed hroom ho hformed
    exact ⟨_, exec_fused_forms hrun hopen rfl hxb hplace hmore hneed hroom,
      formRaster_forms hrun ho hformed hmore (dbgOnly_countIf ..) _ _ (stampTile_zcTile_facts ..)⟩

end Sys2Proof.Machine
end

section
/-! PROOFS. The winner of an ARGMAX (R277): O23. -/

namespace Sys2Proof.Machine

open Sys2Proof

/-- A channel and its code win among codes: the first NaN, or, where there is none, the first of the largest (R277). -/
structure Wins (fmt : Nat) (cs : List Nat) (b : Nat × Nat) : Prop where
  code : cs[b.1]? = some b.2
  firstNan : (elemVal fmt b.2).isNan = true → ∀ j c, j < b.1 → cs[j]? = some c → (elemVal fmt c).isNan = false
  largest : (elemVal fmt b.2).isNan = false →
    ∀ c ∈ cs, (elemVal fmt c).isNan = false ∧ codeKey fmt c false ≤ codeKey fmt b.2 false
  lowest : (elemVal fmt b.2).isNan = false →
    ∀ j c, j < b.1 → cs[j]? = some c → codeKey fmt c false < codeKey fmt b.2 false

/-- A code replaces the winner so far: a NaN or a larger one, unless the winner is a NaN. -/
def beats (fmt c b : Nat) : Bool :=
  !(elemVal fmt b).isNan && ((elemVal fmt c).isNan || decide (codeKey fmt b false < codeKey fmt c false))

theorem argBest_cons (fmt c : Nat) (r : List Nat) (i : Nat) (b : Nat × Nat) :
    argBest fmt (c :: r) i b = argBest fmt r (i + 1) (if beats fmt c b.2 then (i, c) else b) := rfl

theorem beats_iff {fmt c b : Nat} : beats fmt c b = true ↔
    (elemVal fmt b).isNan = false ∧ ((elemVal fmt c).isNan = true ∨ codeKey fmt b false < codeKey fmt c false) := by
  simp [beats]

theorem not_beats_iff {fmt c b : Nat} : beats fmt c b = false ↔
    ((elemVal fmt b).isNan = false → (elemVal fmt c).isNan = false ∧ codeKey fmt c false ≤ codeKey fmt b false) := by
  simp [beats]

variable {fmt c : Nat} {cs : List Nat} {b : Nat × Nat}

theorem wins_singleton (fmt c : Nat) : Wins fmt [c] (0, c) where
  code := rfl
  firstNan _ j _ hj := absurd hj (Nat.not_lt_zero j)
  largest hnum d hd := by
    obtain rfl := List.mem_singleton.mp hd
    exact ⟨hnum, le_rfl⟩
  lowest _ j _ hj := absurd hj (Nat.not_lt_zero j)

theorem Wins.index_lt (h : Wins fmt cs b) : b.1 < cs.length := (List.getElem?_eq_some_iff.mp h.code).1

/-- One more code that does not beat the winner leaves it. -/
theorem Wins.append_beaten (h : Wins fmt cs b) (hc : beats fmt c b.2 = false) : Wins fmt (cs ++ [c]) b where
  code := by rw [List.getElem?_append_left h.index_lt, h.code]
  firstNan hnan j d hj hd := h.firstNan hnan j d hj (by rwa [List.getElem?_append_left (hj.trans h.index_lt)] at hd)
  largest hnum d hd := by
    rcases List.mem_append.mp hd with hd | hd
    · exact h.largest hnum d hd
    · obtain rfl := List.mem_singleton.mp hd
      exact not_beats_iff.mp hc hnum
  lowest hnum j d hj hd := h.lowest hnum j d hj (by rwa [List.getElem?_append_left (hj.trans h.index_lt)] at hd)

/-- One more code that beats the winner is the next winner: no code before it is a NaN, and all are smaller. -/
theorem Wins.append_beating (h : Wins fmt cs b) (hc : beats fmt c b.2 = true) : Wins fmt (cs ++ [c]) (cs.length, c) := by
  obtain ⟨hnum, hbeats⟩ := beats_iff.mp hc
  have hbefore : ∀ j d, j < cs.length → (cs ++ [c])[j]? = some d →
      (elemVal fmt d).isNan = false ∧ codeKey fmt d false ≤ codeKey fmt b.2 false := fun j d hj hd =>
    h.largest hnum d (List.mem_of_getElem? (by rwa [List.getElem?_append_left hj] at hd))
  have hless : (elemVal fmt c).isNan = false → codeKey fmt b.2 false < codeKey fmt c false := fun hcnum =>
    hbeats.resolve_left (by simp [hcnum])
  refine ⟨List.getElem?_concat_length, fun _ j d hj hd => (hbefore j d hj hd).1, fun hcnum d hd => ?_,
    fun hcnum j d hj hd => (hbefore j d hj hd).2.trans_lt (hless hcnum)⟩
  rcases List.mem_append.mp hd with hd | hd
  · obtain ⟨hdnum, hle⟩ := h.largest hnum d hd
    exact ⟨hdnum, hle.trans (hless hcnum).le⟩
  · obtain rfl := List.mem_singleton.mp hd
    exact ⟨hcnum, le_rfl⟩

/-- The scan goes on from the winner of the codes before. -/
theorem wins_argBest (r : List Nat) (h : Wins fmt cs b) : Wins fmt (cs ++ r) (argBest fmt r cs.length b) := by
  induction r generalizing cs b with
  | nil => rwa [List.append_nil]
  | cons c r ih =>
    have hstep : Wins fmt (cs ++ [c]) (if beats fmt c b.2 then (cs.length, c) else b) := by
      split
      · next hc => exact h.append_beating hc
      · next hc => exact h.append_beaten (Bool.eq_false_iff.mpr hc)
    have hrest := ih hstep
    rwa [List.append_assoc, List.length_append] at hrest

theorem wins_argmaxOf (fmt : Nat) {cs : List Nat} (hne : cs ≠ []) : Wins fmt cs (argmaxOf fmt cs) := by
  cases cs with
  | nil => exact absurd rfl hne
  | cons c r => exact wins_argBest r (wins_singleton fmt c)

/-- Settles O23: the scan keeps the winner of the codes it has seen, and −0 and +0 have one key in each floating format. -/
theorem argmaxWinner : Obligations.ArgmaxWinner := by
  refine ⟨fun fmt cs hne => ?_, ?_⟩
  · have hwins := wins_argmaxOf fmt hne
    exact ⟨hwins.code, hwins.firstNan, fun hnum => ⟨hwins.largest hnum, hwins.lowest hnum⟩⟩
  · decide

end Sys2Proof.Machine
end

section
/-! PROOFS. Numbers as bytes and as fields: what a word that was put together of fields, or written as bytes, is read as. -/

namespace Sys2Proof

open Sys2Proof.Machine

theorem leBytes_succ (k n : Nat) : leBytes (k + 1) n = BitVec.ofNat 8 n :: leBytes k (n / 256) := by
  unfold leBytes
  rw [List.range_succ_eq_map, List.map_cons, List.map_map, pow_zero, Nat.div_one]
  congr 1
  refine List.map_congr_left fun i _ => ?_
  rw [Function.comp_apply, pow_succ', Nat.div_div_eq_div_mul]

/-- Bytes of a number read back are the number, cut to their width. -/
theorem leNat_leBytes (k n : Nat) : leNat (leBytes k n) = n % 256 ^ k := by
  induction k generalizing n with
  | zero => rw [pow_zero, Nat.mod_one]; rfl
  | succ k ih => rw [leBytes_succ, leNat, ih, pow_succ', Nat.mod_mul, BitVec.toNat_ofNat]

theorem leNat_lt (bs : List Byte) : leNat bs < 256 ^ bs.length := by
  induction bs with
  | nil => exact Nat.one_pos
  | cons b r ih =>
    have hb := b.isLt
    rw [leNat, List.length_cons, pow_succ']
    omega

theorem fld_eq (n hi lo : Nat) : fld n hi lo = n / 2 ^ lo % 2 ^ (hi + 1 - lo) := by
  unfold fld
  rw [Nat.shiftRight_eq_div_pow]

theorem fld_lt (n hi lo : Nat) : fld n hi lo < 2 ^ (hi + 1 - lo) := by
  rw [fld_eq]
  exact Nat.mod_lt _ (by positivity)

end Sys2Proof
end

section
/-! PROOFS. Stores to ranges that share no byte, with registers set between them: what is read afterwards, and what is left as it was. -/

namespace Sys2Proof

open Sys2Proof.Machine

variable {l l' : List (Nat × Nat)} {s t u : State}

/-! ### Ranges that share no byte -/

/-- Two ranges share no byte of memory. -/
def Sep (x y : Nat × Nat) : Prop := ∀ i, i < x.2 → ∀ j, j < y.2 → canon (x.1 + i) ≠ canon (y.1 + j)

theorem Sep.symm {x y : Nat × Nat} (h : Sep x y) : Sep y x := fun i hi j hj e => h j hj i hi e.symm

/-- A part of a range is apart from what the range is apart from. -/
theorem Sep.sub {a n b m : Nat} {y : Nat × Nat} (h : Sep (a, n) y) (hlo : a ≤ b) (hhi : b + m ≤ a + n) : Sep (b, m) y := by
  intro i hi j hj
  have hsep := h (b - a + i) (show b - a + i < n by omega) j hj
  rwa [show (a, n).1 + (b - a + i) = b + i by simp only; omega] at hsep

/-- A range apart from all that may have changed reads as before. -/
theorem readBytes_of_sep {a n : Nat} (h : MemKeptOut l s t) (hsep : ∀ x ∈ l, Sep (a, n) x) : readBytes t a n = readBytes s a n := by
  unfold readBytes
  refine List.map_congr_left fun i hi => ?_
  cases hc : canon (a + i) with
  | none => rfl
  | some c => exact h c fun x hx j hj e => hsep x hx i (List.mem_range.mp hi) j hj (hc.trans e.symm)

theorem word64_of_sep {a : Nat} (h : MemKeptOut l s t) (hsep : ∀ x ∈ l, Sep (a, 8) x) : word64 t a = word64 s a :=
  congrArg leNat (readBytes_of_sep h hsep)

theorem MemKeptOut.trans (h : MemKeptOut l s t) (h' : MemKeptOut l t u) : MemKeptOut l s u := fun c hc => (h' c hc).trans (h c hc)

theorem MemKeptOut.mono (h : MemKeptOut l s t) (hl : ∀ x ∈ l, x ∈ l') : MemKeptOut l' s t := fun c hc => h c fun x hx => hc x (hl x hx)

theorem MemKept.memKeptOut (h : MemKept s t) : MemKeptOut l s t := fun c _ => h c

theorem MemKeptOut.memKept (h : MemKeptOut [] s t) : MemKept s t := fun c => h c (by simp)

/-- A part of a range without error is one. -/
theorem Writable.sub {a n b m : Nat} (h : Writable s a n) (hlo : a ≤ b) (hhi : b + m ≤ a + n) : Writable s b m := by
  obtain ⟨hmem, hcanon, hbad⟩ := h
  refine ⟨hmem, fun i hi => ?_, badRange_eq_false.mpr fun i c hi hc => ?_⟩
  · rw [show b + i = a + (b - a + i) by omega]
    exact hcanon _ (by omega)
  · refine badRange_eq_false.mp hbad (b - a + i) c (by omega) ?_
    rwa [show a + (b - a + i) = b + i by omega]

end Sys2Proof

namespace Sys2Proof.Machine

open Sys2Proof

variable {l l' : List (Nat × Nat)} {rs rs' : List Nat} {s t u : State}

/-! ### Writes -/

/-- From `s` to `t` registers of a list are set and bytes of ranges of a list written: no other register and no other byte changes, and
no codeword is found in error. -/
structure Writes (l : List (Nat × Nat)) (rs : List Nat) (s t : State) : Prop where
  mem : MemInv s → MemInv t
  bad : ∀ k, s.badLines.contains k = false → t.badLines.contains k = false
  kept : MemInv s → MemKeptOut l s t
  regs : RegsKept rs s t

theorem Writes.refl (l : List (Nat × Nat)) (rs : List Nat) (s : State) : Writes l rs s s := ⟨id, fun _ => id, fun _ _ _ => rfl, .refl rs s⟩

theorem Writes.trans (h : Writes l rs s t) (h' : Writes l rs t u) : Writes l rs s u :=
  ⟨h'.mem ∘ h.mem, fun k => h'.bad k ∘ h.bad k, fun hm => (h.kept hm).trans (h'.kept (h.mem hm)), h.regs.trans h'.regs⟩

theorem Writes.mono (h : Writes l rs s t) (hl : ∀ x ∈ l, x ∈ l' := by simp) (hr : ∀ a ∈ rs, a ∈ rs' := by simp) : Writes l' rs' s t :=
  ⟨h.mem, h.bad, fun hm => (h.kept hm).mono hl, h.regs.mono hr⟩

theorem Writes.foldl {α : Type} {f : State → α → State} {xs : List α} (hf : ∀ u, ∀ x ∈ xs, Writes l rs u (f u x)) (s : State) :
    Writes l rs s (xs.foldl f s) := by
  induction xs generalizing s with
  | nil => exact .refl l rs s
  | cons x r ih => exact (hf s x (by simp)).trans (ih (fun u y hy => hf u y (by simp [hy])) _)

/-- Where memory and what it is read with are as before, the registers tell all. -/
theorem Writes.of_regsKept (h : RegsKept rs s t) (hm : t.mem = s.mem) (hk : t.keyTag = s.keyTag) (hb : t.badLines = s.badLines)
    (hr : rootKey t = rootKey s) (hap : ∀ a ∈ rs, a < 0x030003008100 ∨ 0x03000300A000 ≤ a) : Writes l rs s t :=
  ⟨memInv_of_mem hm, fun k hk => by rwa [hb], fun _ => (memKept_of_regsKept h hm hk hr hap).memKeptOut, h⟩

/-- A change outside memory and registers. -/
theorem Writes.same (hregs : t.regs = s.regs := by rfl) (hm : t.mem = s.mem := by rfl) (hk : t.keyTag = s.keyTag := by rfl)
    (hb : t.badLines = s.badLines := by rfl) (hser : t.serial = s.serial := by rfl) (hst : t.store = s.store := by rfl) : Writes l rs s t :=
  (Writes.of_regsKept (rs := []) (.of_regs hregs) hm hk hb (by unfold rootKey; rw [hser, hst]) (by simp)).mono (fun _ => id) (by simp)

theorem writes_setReg (s : State) {a : Nat} (v : Nat) (hhome : homeAddr a = a) (hap : a < 0x030003008100 ∨ 0x03000300A000 ≤ a) :
    Writes [] [a] s (s.setReg a v) :=
  .of_regsKept (.setReg v (.refl _ s) (by simp [hhome])) rfl rfl rfl rfl (by simpa using hap)

theorem writes_storeBytes (s : State) {a : Nat} {bs : List Byte} (hb : badRange s a bs.length = false) :
    Writes [(a, bs.length)] [] s (s.storeBytes a bs) where
  mem := memInv_storeBytes s a bs
  bad _ := badLines_storeBytes
  kept hm c hc := memKeptBut_storeBytes hm a bs c (hc (a, bs.length) (by simp))
  regs := .of_regs (memOnly_storeBytes s a bs hb).regs

theorem DbgOnly.writes {st : Nat} (h : DbgOnly (dbgRegs st) s t) : Writes l (dbgRegs st) s t :=
  .of_regsKept h.2 h.mem h.keyTag h.badLines h.rootKey fun _ => dbgRegs_apart

theorem Writes.badRange (h : Writes l rs s t) {a n : Nat} (hb : badRange s a n = false) : badRange t a n = false :=
  badRange_of_badLines h.bad hb

theorem Writes.writable (h : Writes l rs s t) {a n : Nat} (hw : Writable s a n) : Writable t a n := ⟨h.mem hw.1, hw.2.1, h.badRange hw.2.2⟩

/-- What is stored in a range without error is read there, after later writes elsewhere too. -/
theorem readBytes_storeBytes {a : Nat} {bs : List Byte} (hw : Writable s a bs.length) (h : MemKeptOut l (s.storeBytes a bs) t)
    (hsep : ∀ x ∈ l, Sep (a, bs.length) x := by simp) : readBytes t a bs.length = bs :=
  (readBytes_of_sep h hsep).trans (stored_storeBytes s a bs hw).1

theorem word64_storeBytes {a : Nat} (v : Nat) (hw : Writable s a 8) (h : MemKeptOut l (s.storeBytes a (leBytes 8 v)) t)
    (hsep : ∀ x ∈ l, Sep (a, 8) x := by simp) : word64 t a = v % 2 ^ 64 := by
  have hread := readBytes_storeBytes (bs := leBytes 8 v) (by rwa [length_leBytes]) h (by rwa [length_leBytes])
  rw [length_leBytes] at hread
  rw [word64, hread, leNat_leBytes]
  rfl

end Sys2Proof.Machine
end

section
/-! PROOFS. The registers that shape the page ledger, and its entries, handles and records: what they are read as after a write of one, and
after writes elsewhere (R292 to R303). -/

namespace Sys2Proof.Machine

open Sys2Proof

variable {l : List (Nat × Nat)} {rs : List Nat} {s t u : State}

/-! ### The registers of the ledger -/

/-- The registers that shape the ledger, and those in which it counts. -/
def ledgerCfgRegs : List Nat :=
  [A.ledgerCtl, A.ledgerSeqBase, A.ledgerBobbinCfg, A.ledgerScoreCtl, A.ledgerEvictBase, A.ledgerEvictHead] ++
    (List.range 16).flatMap fun n => [A.ledgerClass n, A.ledgerPool n, A.ledgerEntryBase n, A.ledgerLoop n]

def ledgerCountRegs : List Nat :=
  [A.ledgerStatus, A.ledgerBobbinUse, A.ledgerEvictTail, A.ledgerWaits] ++
    (List.range 16).flatMap fun n => [A.ledgerLoopState n, A.ledgerCount n]

theorem ledger_home {a : Nat} (h : 0x030004400000 ≤ a) : homeAddr a = a := by
  unfold homeAddr
  rw [if_neg (by omega), if_neg (by omega)]

/-- The registers of the ledger lie in the first 2 KiB of its window. -/
theorem ledgerCfgRegs_window {a : Nat} (h : a ∈ ledgerCfgRegs) : 0x030004400000 ≤ a ∧ a < 0x030004400800 := by
  simp only [ledgerCfgRegs, List.mem_append, List.mem_cons, List.not_mem_nil, or_false, List.mem_flatMap, List.mem_range] at h
  rcases h with h | ⟨n, hn, h⟩ <;> simp only [A.ledgerClass, A.ledgerPool, A.ledgerEntryBase, A.ledgerLoop, A.ledgerCtl, A.ledgerSeqBase,
    A.ledgerBobbinCfg, A.ledgerScoreCtl, A.ledgerEvictBase, A.ledgerEvictHead] at h <;> omega

theorem ledgerCountRegs_window {a : Nat} (h : a ∈ ledgerCountRegs) : 0x030004400000 ≤ a ∧ a < 0x030004400800 := by
  simp only [ledgerCountRegs, List.mem_append, List.mem_cons, List.not_mem_nil, or_false, List.mem_flatMap, List.mem_range] at h
  rcases h with h | ⟨n, hn, h⟩ <;> simp only [A.ledgerLoopState, A.ledgerCount, A.ledgerStatus, A.ledgerBobbinUse, A.ledgerEvictTail,
    A.ledgerWaits] at h <;> omega

/-- No register that shapes the ledger is one in which it counts. -/
theorem ledgerCfg_not_count {a : Nat} (h : a ∈ ledgerCfgRegs) : a ∉ ledgerCountRegs := by
  intro h'
  simp only [ledgerCfgRegs, ledgerCountRegs, List.mem_append, List.mem_cons, List.not_mem_nil, or_false, List.mem_flatMap, List.mem_range]
    at h h'
  rcases h with h | ⟨n, hn, h⟩ <;> rcases h' with h' | ⟨m, hm, h'⟩ <;>
    simp only [A.ledgerClass, A.ledgerPool, A.ledgerEntryBase, A.ledgerLoop, A.ledgerCtl, A.ledgerSeqBase, A.ledgerBobbinCfg,
      A.ledgerScoreCtl, A.ledgerEvictBase, A.ledgerEvictHead, A.ledgerLoopState, A.ledgerCount, A.ledgerStatus, A.ledgerBobbinUse,
      A.ledgerEvictTail, A.ledgerWaits] at h h' <;> omega

theorem ledgerCount_mem {n : Nat} (hn : n < 16) : A.ledgerCount n ∈ ledgerCountRegs := by
  unfold ledgerCountRegs
  exact List.mem_append_right _ (List.mem_flatMap.mpr ⟨n, List.mem_range.mpr hn, by simp⟩)

/-- Every register that shapes the ledger keeps its value. -/
def CfgKept (s t : State) : Prop := ∀ a ∈ ledgerCfgRegs, t.reg a = s.reg a

theorem CfgKept.trans (h : CfgKept s t) (h' : CfgKept t u) : CfgKept s u := fun a ha => (h' a ha).trans (h a ha)

theorem cfgKept_of_regsKept (h : RegsKept rs s t) (hrs : ∀ a ∈ rs, a ∉ ledgerCfgRegs) : CfgKept s t := by
  intro a ha
  refine h a fun hmem => hrs _ hmem ?_
  rwa [ledger_home (ledgerCfgRegs_window ha).1]

theorem Writes.cfgKept (h : Writes l rs s t) (hrs : ∀ a ∈ rs, a ∈ ledgerCountRegs := by simp) : CfgKept s t :=
  cfgKept_of_regsKept h.regs fun _ ha hc => ledgerCfg_not_count hc (hrs _ ha)

/-- The debug registers of a station lie past the ledger's in a window. -/
theorem dbgRegs_not_cfg {st a : Nat} (h : a ∈ dbgRegs st) : a ∉ ledgerCfgRegs := by
  intro hc
  have hwin := ledgerCfgRegs_window hc
  simp only [dbgRegs, List.mem_append, List.mem_map, List.mem_range, List.mem_singleton, A.dbgGcnt, A.dbgCnt, A.dbgTrcStatus] at h
  omega

theorem DbgOnly.cfgKept {st : Nat} (h : DbgOnly (dbgRegs st) s t) : CfgKept s t := cfgKept_of_regsKept h.2 fun _ => dbgRegs_not_cfg

section
variable (h : CfgKept s t)
include h

theorem CfgKept.classReg {n : Nat} (hn : n < 16) : t.reg (A.ledgerClass n) = s.reg (A.ledgerClass n) :=
  h _ (List.mem_append_right _ (List.mem_flatMap.mpr ⟨n, List.mem_range.mpr hn, by simp⟩))

theorem CfgKept.poolReg {n : Nat} (hn : n < 16) : t.reg (A.ledgerPool n) = s.reg (A.ledgerPool n) :=
  h _ (List.mem_append_right _ (List.mem_flatMap.mpr ⟨n, List.mem_range.mpr hn, by simp⟩))

theorem CfgKept.entryBaseReg {n : Nat} (hn : n < 16) : t.reg (A.ledgerEntryBase n) = s.reg (A.ledgerEntryBase n) :=
  h _ (List.mem_append_right _ (List.mem_flatMap.mpr ⟨n, List.mem_range.mpr hn, by simp⟩))

theorem CfgKept.loopReg {n : Nat} (hn : n < 16) : t.reg (A.ledgerLoop n) = s.reg (A.ledgerLoop n) :=
  h _ (List.mem_append_right _ (List.mem_flatMap.mpr ⟨n, List.mem_range.mpr hn, by simp⟩))

theorem CfgKept.seqAddr (q : Nat) : seqAddr t q = seqAddr s q := by
  unfold Machine.seqAddr
  rw [fget_congr (h A.ledgerSeqBase (by simp [ledgerCfgRegs]))]

theorem CfgKept.clsValid (n : Nat) : clsValid t n = clsValid s n := by
  unfold Machine.clsValid
  by_cases hn : n < 16
  · rw [flag_congr (h.classReg hn)]
  · simp [hn]

theorem CfgKept.pgPos {n : Nat} (hn : n < 16) : pgPos t n = pgPos s n := by
  unfold Machine.pgPos
  rw [fget_congr (h.classReg hn)]

theorem CfgKept.clsHkv {n : Nat} (hn : n < 16) : clsHkv t n = clsHkv s n := by
  unfold Machine.clsHkv
  rw [fget_congr (h.classReg hn)]

theorem CfgKept.clsDim {n : Nat} (hn : n < 16) : clsDim t n = clsDim s n := by
  unfold Machine.clsDim
  rw [fget_congr (h.classReg hn)]

theorem CfgKept.clsFmt {n : Nat} (hn : n < 16) : clsFmt t n = clsFmt s n := by
  unfold Machine.clsFmt
  rw [fget_congr (h.classReg hn)]

theorem CfgKept.entryBytes {n : Nat} (hn : n < 16) : entryBytes t n = entryBytes s n := by
  unfold Machine.entryBytes
  rw [h.clsHkv hn, h.clsDim hn, h.clsFmt hn]

theorem CfgKept.perLode {n : Nat} (hn : n < 16) : perLode t n = perLode s n := by
  unfold Machine.perLode
  rw [fget_congr (h.poolReg hn)]

theorem CfgKept.frameAddr {n : Nat} (hn : n < 16) (f : Nat) : frameAddr t n f = frameAddr s n f := by
  unfold Machine.frameAddr pageBytes
  rw [h.perLode hn, fget_congr (h.poolReg hn), fget_congr (h.classReg hn)]

theorem CfgKept.entryAddr {n : Nat} (hn : n < 16) (f : Nat) : entryAddr t n f = entryAddr s n f := by
  unfold Machine.entryAddr
  rw [fget_congr (h.entryBaseReg hn)]

end

/-! ### Entries of the page ledger -/

theorem hClass_lt (h : Nat) : hClass h < 16 := fld_lt h 31 28

/-- An entry's fields lie in their widths (Table 5-1). -/
structure PageEntry.Fits (e : PageEntry) : Prop where
  ref : e.ref < 2 ^ 20
  pins : e.pins < 2 ^ 12
  owner : e.owner < 2 ^ 3
  live : e.live < 2 ^ 2
  gen : e.gen < 2 ^ 8
  score : e.score < 2 ^ 16

theorem fits_ofWord (w : Nat) : (PageEntry.ofWord w).Fits :=
  ⟨fld_lt w 19 0, fld_lt w 31 20, fld_lt w 34 32, fld_lt w 36 35, fld_lt w 45 38, fld_lt w 61 46⟩

theorem fits_pageEntry (s : State) (n f : Nat) : (pageEntry s n f).Fits := fits_ofWord _

theorem PageEntry.Fits.word_lt {e : PageEntry} (h : e.Fits) : e.word < 2 ^ 64 := by
  obtain ⟨href, hpins, howner, hlive, hgen, hscore⟩ := h
  unfold PageEntry.word
  split <;> omega

/-- An entry written as a word is the entry read. -/
theorem PageEntry.Fits.ofWord_word {e : PageEntry} (h : e.Fits) : PageEntry.ofWord e.word = e := by
  obtain ⟨ref, pins, owner, live, noEvict, gen, score⟩ := e
  obtain ⟨href, hpins, howner, hlive, hgen, hscore⟩ := h
  dsimp only at href hpins howner hlive hgen hscore
  unfold PageEntry.ofWord PageEntry.word
  simp only [fld_eq, Nat.testBit_eq_decide_div_mod_eq, PageEntry.mk.injEq]
  cases noEvict <;> simp only [Bool.false_eq_true, if_true, if_false, decide_eq_false_iff_not, decide_eq_true_eq] <;>
    refine ⟨?_, ?_, ?_, ?_, ?_, ?_, ?_⟩ <;> omega

theorem pageEntry_of_word (h : CfgKept s t) {n f : Nat} (hn : n < 16) (hw : word64 t (entryAddr s n f) = word64 s (entryAddr s n f)) :
    pageEntry t n f = pageEntry s n f := by
  unfold pageEntry
  rw [h.entryAddr hn, hw]

/-- An entry that no write reaches. -/
theorem pageEntry_of_sep (h : CfgKept s t) (hkept : MemKeptOut l s t) {n f : Nat} (hn : n < 16)
    (hsep : ∀ x ∈ l, Sep (entryAddr s n f, 8) x) : pageEntry t n f = pageEntry s n f :=
  pageEntry_of_word h hn (word64_of_sep hkept hsep)

theorem handleMatches_of_entry (h : CfgKept s t) {k : Nat} (he : pageEntry t (hClass k) (hFrame k) = pageEntry s (hClass k) (hFrame k)) :
    handleMatches t k = handleMatches s k := by
  unfold handleMatches
  rw [h.clsValid, h.perLode (hClass_lt k), he]

theorem pageRefused_of_entry (h : CfgKept s t) (part : Nat) {k : Nat}
    (he : pageEntry t (hClass k) (hFrame k) = pageEntry s (hClass k) (hFrame k)) : pageRefused t part k = pageRefused s part k := by
  unfold pageRefused
  rw [handleMatches_of_entry h he, he]

/-- Setting an entry stores its word, and counts. -/
theorem writes_setEntry (s : State) {n f : Nat} (e : PageEntry) (hn : n < 16) (hb : badRange s (entryAddr s n f) 8 = false) :
    Writes [(entryAddr s n f, 8)] [A.ledgerCount n] s (s.setEntry n f e) := by
  have hlow : 0x030004400000 ≤ A.ledgerCount n := by simp only [A.ledgerCount]; omega
  have hstore := writes_storeBytes s (a := entryAddr s n f) (bs := leBytes 8 e.word) (by rwa [length_leBytes])
  rw [length_leBytes] at hstore
  have hcount (v : State) (g : Nat × Nat) (x : Nat) : Writes [] [A.ledgerCount n] v (v.fset (A.ledgerCount n) g x) :=
    writes_setReg v _ (ledger_home hlow) (.inr (by omega))
  unfold State.setEntry
  exact hstore.mono.trans ((hcount _ _ _).mono.trans ((hcount _ _ _).mono.trans .same))

theorem pageEntry_setEntry {n f : Nat} {e : PageEntry} (hn : n < 16) (hw : Writable s (entryAddr s n f) 8) (he : e.Fits) :
    pageEntry (s.setEntry n f e) n f = e := by
  have hcfg : CfgKept s (s.setEntry n f e) := (writes_setEntry s e hn hw.2.2).cfgKept (by simpa using ledgerCount_mem hn)
  have hlow : 0x030004400000 ≤ A.ledgerCount n := by simp only [A.ledgerCount]; omega
  have hcount (v : State) (g : Nat × Nat) (x : Nat) : Writes [] [A.ledgerCount n] v (v.fset (A.ledgerCount n) g x) :=
    writes_setReg v _ (ledger_home hlow) (.inr (by omega))
  have hlater : Writes [] [A.ledgerCount n] (s.storeBytes (entryAddr s n f) (leBytes 8 e.word)) (s.setEntry n f e) := by
    unfold State.setEntry
    exact (hcount _ _ _).trans ((hcount _ _ _).trans .same)
  have hword : word64 (s.setEntry n f e) (entryAddr s n f) = e.word % 2 ^ 64 :=
    word64_storeBytes e.word hw (hlater.kept (memInv_storeBytes s _ _ hw.1))
  unfold pageEntry
  rw [hcfg.entryAddr hn, hword, Nat.mod_eq_of_lt he.word_lt, he.ofWord_word]

/-- A page named by its handle, with its entry replaced. -/
theorem writes_updPage (s : State) {k : Nat} (g : PageEntry → PageEntry) (hb : badRange s (entryAddr s (hClass k) (hFrame k)) 8 = false) :
    Writes [(entryAddr s (hClass k) (hFrame k), 8)] [A.ledgerCount (hClass k)] s (s.updPage k g) :=
  writes_setEntry s _ (hClass_lt k) hb

theorem pageEntry_updPage {k : Nat} {g : PageEntry → PageEntry} (hw : Writable s (entryAddr s (hClass k) (hFrame k)) 8)
    (hg : (g (pageEntry s (hClass k) (hFrame k))).Fits) :
    pageEntry (s.updPage k g) (hClass k) (hFrame k) = g (pageEntry s (hClass k) (hFrame k)) :=
  pageEntry_setEntry (hClass_lt k) hw hg

/-! ### Sequence records and list slots -/

/-- A record's fields lie in their widths (Table 5-3). -/
structure SeqRec.Fits (r : SeqRec) : Prop where
  cls : r.cls < 2 ^ 4
  home : r.home < 2 ^ 4
  owner : r.owner < 2 ^ 3
  layers : 0 < r.layers ∧ r.layers ≤ 2 ^ 8
  committed : r.committed < 2 ^ 6
  tent : r.tent < 2 ^ 5
  length : r.length < 2 ^ 32
  cap : r.cap < 2 ^ 32
  list : r.list < 2 ^ 48

theorem SeqRec.fits_ofWords (w0 w1 w2 : Nat) : (SeqRec.ofWords w0 w1 w2).Fits where
  cls := fld_lt w0 4 1
  home := fld_lt w0 8 5
  owner := fld_lt w0 11 9
  layers := ⟨Nat.succ_pos _, fld_lt w0 19 12⟩
  committed := fld_lt w0 25 20
  tent := fld_lt w0 30 26
  length := fld_lt w1 31 0
  cap := fld_lt w1 63 32
  list := fld_lt w2 47 0

theorem seqRec_eq_some {q : Nat} {r : SeqRec} (h : seqRec s q = some r) : (word64 s (seqAddr s q)).testBit 0 = true ∧
    r = SeqRec.ofWords (word64 s (seqAddr s q)) (word64 s (seqAddr s q + 8)) (word64 s (seqAddr s q + 16)) := by
  unfold seqRec at h
  dsimp only at h
  split at h
  · next hv => exact ⟨hv, (Option.some.inj h).symm⟩
  · simp at h

theorem fits_of_seqRec {q : Nat} {r : SeqRec} (h : seqRec s q = some r) : r.Fits := by
  rw [(seqRec_eq_some h).2]
  exact SeqRec.fits_ofWords _ _ _

/-- A record is a function of three words. -/
theorem seqRec_of_words (h : CfgKept s t) {q : Nat}
    (hw : ∀ i, i < 3 → word64 t (seqAddr s q + 8 * i) = word64 s (seqAddr s q + 8 * i)) : seqRec t q = seqRec s q := by
  have h0 : word64 t (seqAddr s q) = word64 s (seqAddr s q) := hw 0 (by decide)
  have h1 : word64 t (seqAddr s q + 8) = word64 s (seqAddr s q + 8) := hw 1 (by decide)
  have h2 : word64 t (seqAddr s q + 16) = word64 s (seqAddr s q + 16) := hw 2 (by decide)
  unfold seqRec
  simp only [h.seqAddr, h0, h1, h2]

theorem seqRec_of_sep (h : CfgKept s t) (hkept : MemKeptOut l s t) {q : Nat} (hsep : ∀ x ∈ l, Sep (seqAddr s q, 32) x) :
    seqRec t q = seqRec s q :=
  seqRec_of_words h fun i hi => word64_of_sep hkept fun x hx => (hsep x hx).sub (by omega) (by omega)

theorem slotHandle_of_sep (hkept : MemKeptOut l s t) {r : SeqRec} {i : Nat} (hsep : ∀ x ∈ l, Sep (slotAddr r i, 8) x) :
    slotHandle t r i = slotHandle s r i := word64_of_sep hkept hsep

/-- The first word of a record: VALID, and what shares the word with it. -/
def SeqRec.word0 (r : SeqRec) : Nat :=
  1 + r.cls * 2 + r.home * 2 ^ 5 + r.owner * 2 ^ 9 + (r.layers - 1) * 2 ^ 12 + r.committed * 2 ^ 20 + r.tent * 2 ^ 26

/-- A record's fields put into words are the fields read. -/
theorem SeqRec.Fits.ofWords_words {r : SeqRec} (h : r.Fits) :
    SeqRec.ofWords (r.word0 % 2 ^ 64) ((r.length + r.cap * 2 ^ 32) % 2 ^ 64) (r.list % 2 ^ 64) = r ∧ (r.word0 % 2 ^ 64).testBit 0 = true := by
  obtain ⟨cls, home, owner, layers, committed, tent, length, cap, list⟩ := r
  obtain ⟨hcls, hhome, howner, hlayers, hcommitted, htent, hlength, hcap, hlist⟩ := h
  dsimp only at hcls hhome howner hlayers hcommitted htent hlength hcap hlist
  unfold SeqRec.ofWords SeqRec.word0
  simp only [fld_eq, Nat.testBit_eq_decide_div_mod_eq, SeqRec.mk.injEq, decide_eq_true_eq]
  refine ⟨⟨?_, ?_, ?_, ?_, ?_, ?_, ?_, ?_, ?_⟩, ?_⟩ <;> omega

/-- The 32 bytes of a record. -/
def SeqRec.bytes (r : SeqRec) : List Byte :=
  leBytes 8 r.word0 ++ leBytes 8 (r.length + r.cap * 2 ^ 32) ++ leBytes 8 r.list ++ leBytes 8 0

@[simp] theorem SeqRec.length_bytes (r : SeqRec) : r.bytes.length = 32 := by simp [SeqRec.bytes]

theorem setSeq_eq (s : State) (q : Nat) (r : SeqRec) : s.setSeq q r = s.storeBytes (seqAddr s q) r.bytes := rfl

theorem writes_setSeq (s : State) {q : Nat} (r : SeqRec) (hb : badRange s (seqAddr s q) 32 = false) :
    Writes [(seqAddr s q, 32)] [] s (s.setSeq q r) := by
  rw [setSeq_eq]
  have h := writes_storeBytes s (a := seqAddr s q) (bs := r.bytes) (by rwa [r.length_bytes])
  rwa [r.length_bytes] at h

/-- A word inside a range of bytes read. -/
theorem word64_of_readBytes {a n k : Nat} {bs : List Byte} (h : readBytes s a n = bs) (hk : k + 8 ≤ n) :
    word64 s (a + k) = leNat ((bs.drop k).take 8) := by
  subst h
  unfold word64 readBytes
  rw [← List.map_drop, ← List.map_take]
  congr 1
  apply List.ext_getElem
  · simp; omega
  · intro i h1 h2
    simp [Nat.add_assoc]

/-- A record set is the record read, after later writes elsewhere too. -/
theorem seqRec_setSeq {q : Nat} {r : SeqRec} (hw : Writable s (seqAddr s q) 32) (hr : r.Fits) (h : Writes l rs (s.setSeq q r) t)
    (hsep : ∀ x ∈ l, Sep (seqAddr s q, 32) x := by simp) (hrs : ∀ a ∈ rs, a ∈ ledgerCountRegs := by simp) : seqRec t q = some r := by
  have hread : readBytes t (seqAddr s q) 32 = r.bytes := by
    have hstored := readBytes_storeBytes (bs := r.bytes) (by rwa [r.length_bytes]) (h.kept (memInv_storeBytes s _ _ hw.1))
      (by rwa [r.length_bytes])
    rwa [r.length_bytes] at hstored
  have haddr : seqAddr t q = seqAddr s q := ((h.cfgKept hrs).seqAddr q).trans ((writes_setSeq s r hw.2.2).cfgKept.seqAddr q)
  have hword (i v : Nat) (hi : i < 4) (hv : (r.bytes.drop (8 * i)).take 8 = leBytes 8 v) :
      word64 t (seqAddr s q + 8 * i) = v % 2 ^ 64 := by
    rw [word64_of_readBytes hread (by omega), hv, leNat_leBytes]
    rfl
  have h0 : word64 t (seqAddr s q) = r.word0 % 2 ^ 64 := hword 0 _ (by decide) rfl
  have h1 : word64 t (seqAddr s q + 8) = (r.length + r.cap * 2 ^ 32) % 2 ^ 64 := hword 1 _ (by decide) rfl
  have h2 : word64 t (seqAddr s q + 16) = r.list % 2 ^ 64 := hword 2 _ (by decide) rfl
  obtain ⟨hfields, hvalid⟩ := hr.ofWords_words
  unfold seqRec
  simp only [haddr, h0, h1, h2, hvalid, hfields, if_true]

end Sys2Proof.Machine
end

section
/-! PROOFS. The rows of the page ledger: one that reads a codeword in error, one that is refused, one that is done (R326 to R331, R444,
R445); and what the ledger's operations do where they are refused. -/

namespace Sys2Proof

open Sys2Proof.Machine

variable {l : List (Nat × Nat)} {s t u : State}

theorem ListFrame.refl (s : State) : ListFrame s s := ⟨rfl, rfl, rfl, rfl⟩

theorem ListFrame.trans (h : ListFrame s t) (h' : ListFrame t u) : ListFrame s u :=
  ⟨h'.1.trans h.1, h'.2.1.trans h.2.1, h'.2.2.1.trans h.2.2.1, h'.2.2.2.trans h.2.2.2⟩

theorem Apart.writable {x : Nat × Nat} (h : Apart s l) (i : Nat) (hi : l[i]? = some x := by rfl) : Writable s x.1 x.2 :=
  h.1 x (List.mem_of_getElem? hi)

theorem Apart.sep {x y : Nat × Nat} (h : Apart s l) (i j : Nat) (hi : l[i]? = some x := by rfl) (hj : l[j]? = some y := by rfl)
    (hij : i ≠ j := by decide) : Sep x y := by
  obtain ⟨hi', rfl⟩ := List.getElem?_eq_some_iff.mp hi
  obtain ⟨hj', rfl⟩ := List.getElem?_eq_some_iff.mp hj
  rcases Nat.lt_or_gt_of_ne hij with hlt | hlt
  · exact List.pairwise_iff_getElem.mp h.2 i j hi' hj' hlt
  · exact Sep.symm (List.pairwise_iff_getElem.mp h.2 j i hj' hi' hlt)

end Sys2Proof

namespace Sys2Proof.Machine

open Sys2Proof

variable {l : List (Nat × Nat)} {rs : List Nat} {s t u : State} {op : Nat} {f : State → Nat → OpRec → State × Nat × Bool}
  {c : Nat → OpRec → Nat → Instr} {part res : Nat} {r : OpRec}

/-! ### What rows share -/

/-- The commands of a function are the ledger's row of an operation by another. -/
def RowOf (op : Nat) (f : State → Nat → OpRec → State × Nat × Bool) (c : Nat → OpRec → Nat → Instr) : Prop :=
  ∀ part r res s, exec (c part r res) s = ledgerRow op f part r res s

theorem rowOf_seqOpen : RowOf 0x01 lopSeqOpen .seqOpen := fun _ _ _ _ => rfl
theorem rowOf_seqClose : RowOf 0x02 lopSeqClose .seqClose := fun _ _ _ _ => rfl
theorem rowOf_share : RowOf 0x03 lopShare .share := fun _ _ _ _ => rfl
theorem rowOf_drop : RowOf 0x04 lopDrop .drop := fun _ _ _ _ => rfl
theorem rowOf_cow : RowOf 0x05 lopCow .cow := fun _ _ _ _ => rfl
theorem rowOf_pin : RowOf 0x06 lopPin .pin := fun _ _ _ _ => rfl
theorem rowOf_unpin : RowOf 0x07 lopUnpin .unpin := fun _ _ _ _ => rfl
theorem rowOf_resolve : RowOf 0x08 lopResolve .resolve := fun _ _ _ _ => rfl
theorem rowOf_tick : RowOf 0x09 lopTick .tick := fun _ _ _ _ => rfl
theorem rowOf_noevict : RowOf 0x0A lopNoevict .noevict := fun _ _ _ _ => rfl
theorem rowOf_kvopQuery : RowOf 0x0B lopQuery .kvopQuery := fun _ _ _ _ => rfl
theorem rowOf_alloc : RowOf 0x0C lopAlloc .alloc := fun _ _ _ _ => rfl
theorem rowOf_decref : RowOf 0x0D lopDecref .decref := fun _ _ _ _ => rfl

/-- A row whose reads are sound applies its operation and writes the result. -/
theorem exec_row (hrow : RowOf op f c) (hon : ledgerOn s = true) (hsound : SoundReads s op r) :
    exec (c part r res) s = .next ((f s part r).1.storeBytes res (leBytes 8 (f s part r).2.1)) := by
  have hnone : (lopReads s { r with op := op }).find? (fun x => badRange s x.1 x.2) = none :=
    List.find?_eq_none.mpr fun x hx => by simp [hsound x hx]
  rw [hrow]
  unfold ledgerRow
  rw [if_pos hon, hnone]
  rfl

theorem reports_logUncorrected (s : State) (a : Nat) (p : Option Nat) :
    (s.logUncorrected a p).reports = s.reports ++ [(memSource a, 2, 2)] := by
  unfold State.logUncorrected
  dsimp only
  split <;> rfl

/-- A row that reads a codeword in error records it, and does nothing else. -/
theorem errorRow_of (hrow : RowOf op f c) : ErrorRow op c := by
  intro part r res s hon hbad
  obtain ⟨x, hx, hxbad⟩ : ∃ x ∈ lopReads s { r with op := op }, badRange s x.1 x.2 = true := by
    simpa [SoundReads] using hbad
  obtain ⟨y, hy⟩ : ∃ y, (lopReads s { r with op := op }).find? (fun x => badRange s x.1 x.2) = some y :=
    Option.isSome_iff_exists.mp (List.find?_isSome.mpr ⟨x, hx, hxbad⟩)
  have hexec : exec (c part r res) s = .next (s.logUncorrected ((firstBad s y.1 y.2).getD 0) (some part)) := by
    rw [hrow]
    unfold ledgerRow
    rw [if_pos hon, hy]
    rfl
  have herr := errOnly_logUncorrected s ((firstBad s y.1 y.2).getD 0) (some part)
  refine ⟨_, hexec, herr.kept.2, ?_, ?_, ?_, by rw [reports_logUncorrected]; simp⟩ <;> rw [herr.1]
  exact ⟨rfl, rfl, rfl, rfl⟩

theorem LedgerOnly.listFrame (h : LedgerOnly s t) : ListFrame s t := by
  rw [h]
  exact ⟨rfl, rfl, rfl, rfl⟩

/-- A row that is done: what its operation wrote, and then its result, apart from which everything is as the operation left it. -/
theorem runs_row (hrow : RowOf op f c) (hon : ledgerOn s = true) (hsound : SoundReads s op r) {w : Nat} {bad : Bool}
    (hf : f s part r = (u, w, bad)) (hu : Writes l rs s u) (hframe : ListFrame s u) (hres : Writable s res 8) {P : State → Prop}
    (hP : ∀ t, MemOnly u t → Writes [(res, 8)] [] u t → readBytes t res 8 = leBytes 8 w → MemKeptOut (l ++ [(res, 8)]) s t →
      RegsKept rs s t → ListFrame s t → P t) : Runs (c part r res) s P := by
  have hresu : Writable u res 8 := hu.writable hres
  have hstore := writes_storeBytes u (a := res) (bs := leBytes 8 w) (by rw [length_leBytes]; exact hresu.2.2)
  have hread := (stored_storeBytes u res (leBytes 8 w) (by rwa [length_leBytes])).1
  have honly := memOnly_storeBytes u res (leBytes 8 w) (by rw [length_leBytes]; exact hresu.2.2)
  rw [length_leBytes] at hstore hread
  have hexec := exec_row (res := res) (part := part) hrow hon hsound
  rw [hf] at hexec
  refine ⟨_, hexec, hP _ honly hstore hread ?_ (hu.regs.trans (hstore.regs.mono (by simp))) (hframe.trans honly.ledgerOnly.listFrame)⟩
  exact ((hu.kept hres.1).mono (by simp +contextual)).trans ((hstore.kept hresu.1).mono (by simp))

/-- A row that answers, and changes nothing else. -/
theorem runs_row_answer (hrow : RowOf op f c) (hon : ledgerOn s = true) (hsound : SoundReads s op r) {w : Nat} {bad : Bool}
    (hf : f s part r = (s, w, bad)) (hres : Writable s res 8) :
    Runs (c part r res) s fun t => Stored res (leBytes 8 w) s t ∧ RegsKept [] s t ∧ ListFrame s t := by
  refine runs_row hrow hon hsound hf (Writes.refl [] [] s) (.refl s) hres fun t _ _ hread hkept hregs hframe => ⟨⟨?_, ?_⟩, hregs, hframe⟩
  · rwa [length_leBytes]
  · rw [length_leBytes]
    exact fun a ha => hkept a (by simpa using ha)

theorem resultWord_status {st : Nat} (h : st < 256) : resultWord st 0 = st := by
  unfold resultWord
  omega

/-- A row whose operation is refused answers its status alone (R328). -/
theorem refusedRow_of (hrow : RowOf op f c) (hon : ledgerOn s = true) (hsound : SoundReads s op r) {st : Nat} (hst : st < 256)
    (hf : f s part r = opFail s st) : RefusedRow (c part r res) s res st := by
  intro hres
  unfold opFail at hf
  rw [resultWord_status hst] at hf
  exact runs_row_answer hrow hon hsound hf hres

theorem resultWord_zero (k : Nat) : resultWord 0 k = k % 2 ^ 40 * 256 := by
  unfold resultWord
  omega

theorem opOk_eq (s : State) (k : Nat) : opOk s k = (s, k % 2 ^ 40 * 256, false) := by
  unfold opOk
  rw [resultWord_zero]

theorem opOk_zero (s : State) : opOk s 0 = (s, 0, false) := opOk_eq s 0

/-! ### Operations on a page by its handle -/

theorem pageRefused_lt {k st : Nat} (h : pageRefused s part k = some st) : st < 256 := by
  unfold pageRefused at h
  dsimp only at h
  split_ifs at h <;> cases h <;> decide

/-- A page that no check refuses is LIVE under its handle, of a valid class. -/
theorem live_of_pageRefused {k : Nat} (h : pageRefused s part k = none) : handleMatches s k = true ∧
    (pageEntry s (hClass k) (hFrame k)).live = pgLive := by
  unfold pageRefused at h
  dsimp only at h
  split_ifs at h with hm hl
  · exact ⟨hm, not_not.mp hl⟩

theorem onPage_refused {st : Nat} (h : pageRefused s part r.word1 = some st) (g : PageEntry → State × Nat × Bool) :
    onPage s part r g = opFail s st := by
  unfold onPage
  rw [h]

theorem onPage_done (h : pageRefused s part r.word1 = none) (g : PageEntry → State × Nat × Bool) :
    onPage s part r g = g (pageEntry s (hClass r.word1) (hFrame r.word1)) := by
  unfold onPage
  rw [h]

/-- The operations that read one page's entry. -/
def PageReads (op : Nat) : Prop := ∀ (s : State) (r : OpRec), lopReads s { r with op := op } =
  if clsValid s (hClass r.word1) then [(entryAddr s (hClass r.word1) (hFrame r.word1), 8)] else []

theorem PageReads.sound {op' : Nat} (h : PageReads op) (h' : PageReads op') (hsound : SoundReads s op r) : SoundReads s op' r := by
  intro x hx
  rw [h', ← h] at hx
  exact hsound x hx

/-- A row that changes the entry of the page it names. -/
theorem pageRow_of {pre : PageEntry → Prop} {g : OpRec → PageEntry → PageEntry} (hrow : RowOf op f c) (hreads : PageReads op)
    (hf : ∀ (s : State) (part : Nat) (r : OpRec), pageRefused s part r.word1 = none →
      pre (pageEntry s (hClass r.word1) (hFrame r.word1)) → ∃ g', f s part r = opOk (s.updPage r.word1 g') 0 ∧
        g' (pageEntry s (hClass r.word1) (hFrame r.word1)) = g r (pageEntry s (hClass r.word1) (hFrame r.word1)))
    (hfits : ∀ r e, e.Fits → pre e → (g r e).Fits) : PageRow c pre g := by
  intro part r res s hon hrefused hpre hap
  have hentry : Writable s (entryAddr s (hClass r.word1) (hFrame r.word1)) 8 := hap.writable 0
  have hsound : SoundReads s op r := by
    intro x hx
    rw [hreads] at hx
    split at hx
    · rw [List.mem_singleton.mp hx]
      exact hentry.2.2
    · simp at hx
  obtain ⟨g', hg', hval⟩ := hf s part r hrefused hpre
  rw [opOk_eq] at hg'
  have hupd := writes_updPage s g' hentry.2.2
  refine runs_row hrow hon hsound hg' hupd (ledgerOnly_setEntry s _ _ _).listFrame (hap.writable 1)
    fun t _ hlast hread hkept hregs hframe => ⟨?_, hread, hkept, hregs, hframe⟩
  have hset : pageEntry (s.updPage r.word1 g') (hClass r.word1) (hFrame r.word1) =
      g r (pageEntry s (hClass r.word1) (hFrame r.word1)) := by
    rw [pageEntry_updPage hentry (by rw [hval]; exact hfits r _ (fits_pageEntry _ _ _) hpre), hval]
  have haddr := (hupd.cfgKept (by simpa using ledgerCount_mem (hClass_lt r.word1))).entryAddr (hClass_lt r.word1) (hFrame r.word1)
  rw [← hset]
  refine pageEntry_of_sep hlast.cfgKept (hlast.kept (hupd.mem hentry.1)) (hClass_lt _) ?_
  rw [haddr]
  simpa using hap.sep (x := (_, 8)) (y := (res, 8)) 0 1

theorem pageRow_pin : PageRow .pin (fun e => e.pins < 4095) (fun _ e => { e with pins := e.pins + 1 }) := by
  refine pageRow_of rowOf_pin (fun _ _ => rfl) (fun s part r href hpre =>
    ⟨fun e => { e with pins := e.pins + 1 }, ?_, rfl⟩) fun r e he hpre => { he with pins := ?_ }
  · unfold lopPin
    rw [onPage_done href, if_neg (by omega)]
  · dsimp only
    omega

theorem pageRow_unpin : PageRow .unpin (fun e => e.pins ≠ 0) (fun _ e => { e with pins := e.pins - 1 }) := by
  refine pageRow_of rowOf_unpin (fun _ _ => rfl) (fun s part r href hpre => ⟨PageEntry.unpin, ?_, ?_⟩) fun r e he hpre =>
    { he with pins := (Nat.sub_le _ _).trans_lt he.pins }
  · unfold lopUnpin
    rw [onPage_done href, if_neg hpre]
  · unfold PageEntry.unpin
    rw [(live_of_pageRefused href).2]
    rfl

theorem pageRow_decref : PageRow .decref (fun e => e.ref ≠ 0)
    (fun _ e => if e.ref = 1 then { e with ref := 0, live := if e.pins = 0 then 0 else 2 } else { e with ref := e.ref - 1 }) := by
  refine pageRow_of rowOf_decref (fun _ _ => rfl) (fun s part r href hpre => ⟨PageEntry.drop, ?_, ?_⟩) fun r e he hpre => ?_
  · unfold lopDecref
    rw [onPage_done href, if_neg hpre]
  · have hone : ((pageEntry s (hClass r.word1) (hFrame r.word1)).ref ≤ 1) = ((pageEntry s (hClass r.word1) (hFrame r.word1)).ref = 1) :=
      propext (by omega)
    unfold PageEntry.drop
    simp only [hone]
  · split
    · exact { he with ref := by simp, live := by dsimp only; split <;> decide }
    · exact { he with ref := (Nat.sub_le _ _).trans_lt he.ref }

theorem pageRow_noevict : PageRow .noevict (fun _ => True) (fun r e => { e with noEvict := r.arg.testBit 0 }) := by
  refine pageRow_of rowOf_noevict (fun _ _ => rfl) (fun s part r href hpre =>
    ⟨fun e => { e with noEvict := r.arg.testBit 0 }, ?_, rfl⟩) fun r e he _ => { he with }
  unfold lopNoevict
  rw [onPage_done href]

theorem runs_kvopQuery (hon : ledgerOn s = true) (href : pageRefused s part r.word1 = none) (hsound : SoundReads s 0x0B r)
    (hres : Writable s res 8) : Runs (.kvopQuery part r res) s fun t =>
      Stored res (leBytes 8 (pageEntry s (hClass r.word1) (hFrame r.word1)).word) s t ∧ RegsKept [] s t ∧ ListFrame s t :=
  runs_row_answer rowOf_kvopQuery hon hsound (onPage_done href _) hres

/-- Every operation on a page by its handle is refused as the page is. -/
theorem refusedRow_page {st : Nat} (hon : ledgerOn s = true) (href : pageRefused s part r.word1 = some st) (hsound : SoundReads s 0x06 r) :
    RefusedRow (.pin part r res) s res st ∧ RefusedRow (.unpin part r res) s res st ∧ RefusedRow (.decref part r res) s res st ∧
      RefusedRow (.noevict part r res) s res st ∧ RefusedRow (.kvopQuery part r res) s res st := by
  have hlt := pageRefused_lt href
  have hreads {op : Nat} (h : PageReads op) : SoundReads s op r := PageReads.sound (op := 0x06) (fun _ _ => rfl) h hsound
  exact ⟨refusedRow_of rowOf_pin hon hsound hlt (onPage_refused href _),
    refusedRow_of rowOf_unpin hon (hreads fun _ _ => rfl) hlt (onPage_refused href _),
    refusedRow_of rowOf_decref hon (hreads fun _ _ => rfl) hlt (onPage_refused href _),
    refusedRow_of rowOf_noevict hon (hreads fun _ _ => rfl) hlt (onPage_refused href _),
    refusedRow_of rowOf_kvopQuery hon (hreads fun _ _ => rfl) hlt (onPage_refused href _)⟩

end Sys2Proof.Machine
end

section
/-! PROOFS. The ledger's operations on sequences: SEQ_OPEN, SEQ_CLOSE, SHARE, DROP, COW and RESOLVE, and what refuses them (R328 to R348). -/

namespace Sys2Proof.Machine

open Sys2Proof

variable {l : List (Nat × Nat)} {rs : List Nat} {s t u : State} {part res : Nat} {r : OpRec} {q : SeqRec}

/-! ### Sequences and slots that an operation names -/

theorem onSeq_none {i : Nat} (h : seqRec s i = none) (g : SeqRec → State × Nat × Bool) : onSeq s part i g = opFail s Lg.badSeq := by
  unfold onSeq
  rw [h]

theorem onSeq_owned {i : Nat} (h : seqRec s i = some q) (hown : q.owner = part) (g : SeqRec → State × Nat × Bool) :
    onSeq s part i g = g q := by
  unfold onSeq
  rw [h]
  exact if_pos hown

theorem onSlot_beyond {top : SeqRec → Nat} (h : seqRec s r.seq = some q) (hown : q.owner = part) (htop : top q ≤ r.arg)
    (g : SeqRec → Nat → State × Nat × Bool) : onSlot s part r top g = opFail s Lg.badIndex :=
  (onSeq_owned h hown _).trans (if_pos htop)

theorem onSlot_refused {top : SeqRec → Nat} {st : Nat} (h : seqRec s r.seq = some q) (hown : q.owner = part) (htop : r.arg < top q)
    (href : pageRefused s part (slotHandle s q r.arg) = some st) (g : SeqRec → Nat → State × Nat × Bool) :
    onSlot s part r top g = opFail s st := by
  refine (onSeq_owned h hown _).trans ?_
  rw [if_neg (by omega), href]

theorem onSlot_done {top : SeqRec → Nat} (h : seqRec s r.seq = some q) (hown : q.owner = part) (htop : r.arg < top q)
    (href : pageRefused s part (slotHandle s q r.arg) = none) (g : SeqRec → Nat → State × Nat × Bool) :
    onSlot s part r top g = g q (slotHandle s q r.arg) := by
  refine (onSeq_owned h hown _).trans ?_
  rw [if_neg (by omega), href]

theorem slotHandle_lt (s : State) (q : SeqRec) (i : Nat) : slotHandle s q i < 2 ^ 64 := by
  have h := leNat_lt (readBytes s (slotAddr q i) 8)
  rwa [show (readBytes s (slotAddr q i) 8).length = 8 by simp [readBytes]] at h

/-! ### References dropped, slots written, lines freed -/

/-- A null handle holds no reference. -/
theorem dropRef_zero (s : State) : s.dropRef 0 = s := rfl

theorem dropRef_of_not_refused {k : Nat} (h : pageRefused s part k = none) : s.dropRef k = s.updPage k PageEntry.drop :=
  if_pos (live_of_pageRefused h)

theorem drop_of_shared {e : PageEntry} (h : 2 ≤ e.ref) : e.drop = { e with ref := e.ref - 1 } := if_neg (by omega)

theorem writes_setSlot (s : State) {i : Nat} (h : Nat) (hb : badRange s (slotAddr q i) 8 = false) :
    Writes [(slotAddr q i, 8)] [] s (s.setSlot q i h) := by
  have hw := writes_storeBytes s (a := slotAddr q i) (bs := leBytes 8 h) (by rwa [length_leBytes])
  rwa [length_leBytes] at hw

theorem slotHandle_setSlot {i h : Nat} (hh : h < 2 ^ 64) (hw : Writable s (slotAddr q i) 8) (hlater : Writes l rs (s.setSlot q i h) t)
    (hsep : ∀ x ∈ l, Sep (slotAddr q i, 8) x := by simp) : slotHandle t q i = h :=
  (word64_storeBytes h hw (hlater.kept (memInv_storeBytes s _ _ hw.1)) hsep).trans (Nat.mod_eq_of_lt hh)

/-- Freeing lines changes the Bobbin, and the register that counts its lines. -/
theorem freeLines_eq (s : State) (f : BobEntry → Bool) :
    s.freeLines f = { s with bobbin := s.bobbin.filter fun b => !f b, regs := (s.freeLines f).regs } := by
  unfold State.freeLines State.bobbinUse State.raiseTo
  dsimp only
  split <;> rfl

theorem writes_bobbinUse (s : State) : Writes [] [A.ledgerBobbinUse] s s.bobbinUse := by
  have hset (v : State) (g : Nat × Nat) (x : Nat) : Writes [] [A.ledgerBobbinUse] v (v.fset A.ledgerBobbinUse g x) :=
    writes_setReg v _ (ledger_home (by decide)) (.inr (by decide))
  unfold State.bobbinUse State.raiseTo
  dsimp only
  split
  · exact (hset _ _ _).trans (hset _ _ _)
  · exact hset _ _ _

theorem writes_freeLines (s : State) (f : BobEntry → Bool) : Writes [] [A.ledgerBobbinUse] s (s.freeLines f) :=
  Writes.trans .same (writes_bobbinUse _)

theorem bobbinUse_mem_count : A.ledgerBobbinUse ∈ ledgerCountRegs := by simp [ledgerCountRegs]

/-! ### SEQ_OPEN -/

theorem leNat_replicate_zero (n : Nat) : leNat (List.replicate n 0) = 0 := by
  induction n with
  | zero => rfl
  | succ n ih => rw [List.replicate_succ, leNat, ih]; rfl

/-- The record that SEQ_OPEN makes of an image. -/
def SeqRec.opened (im : SeqRec) (part : Nat) : SeqRec := { im with owner := part, committed := 0, tent := 0, length := 0 }

theorem SeqRec.Fits.opened {im : SeqRec} (h : im.Fits) (hpart : part < 8) : (im.opened part).Fits :=
  { h with owner := hpart, committed := by simp [SeqRec.opened], tent := by simp [SeqRec.opened], length := by simp [SeqRec.opened] }

/-- The list of an image emptied, and its sequence in use. -/
def seqPrepared (s : State) (im : SeqRec) (i : Nat) : State :=
  let u := s.storeBytes im.list (List.replicate (8 * im.cap * im.layers) 0)
  { u with seqUsed := if u.seqUsed.contains i then u.seqUsed else u.seqUsed ++ [i] }

theorem writes_seqPrepared {im : SeqRec} (i : Nat) (h : badRange s im.list (8 * im.cap * im.layers) = false) :
    Writes [(im.list, 8 * im.cap * im.layers)] [] s (seqPrepared s im i) := by
  have hw := writes_storeBytes s (a := im.list) (bs := List.replicate (8 * im.cap * im.layers) 0) (by rwa [List.length_replicate])
  rw [List.length_replicate] at hw
  exact hw.trans .same

theorem ledgerOnly_seqPrepared (s : State) (im : SeqRec) (i : Nat) : LedgerOnly s (seqPrepared s im i) :=
  LedgerOnly.trans (t := s.storeBytes im.list (List.replicate (8 * im.cap * im.layers) 0)) (ledgerOnly_storeBytes s _ _) rfl

theorem mem_seqUsed_seqPrepared (s : State) (im : SeqRec) (i : Nat) : i ∈ (seqPrepared s im i).seqUsed := by
  unfold seqPrepared
  dsimp only
  split
  · next h => exact List.contains_iff_mem.mp h
  · simp

theorem slotHandle_seqPrepared {im : SeqRec} {i k : Nat} (hw : Writable s im.list (8 * im.cap * im.layers))
    (h : Writes l rs (seqPrepared s im i) t) (hsep : ∀ x ∈ l, Sep (im.list, 8 * im.cap * im.layers) x) (hk : k < im.cap * im.layers) :
    slotHandle t im k = 0 := by
  have hread : readBytes t im.list (8 * im.cap * im.layers) = List.replicate (8 * im.cap * im.layers) 0 := by
    have hstored := readBytes_storeBytes (l := l) (t := t) (bs := List.replicate (8 * im.cap * im.layers) 0)
      (by rwa [List.length_replicate]) ((Writes.trans .same h).kept (memInv_storeBytes s _ _ hw.1)) (by rwa [List.length_replicate])
    rwa [List.length_replicate] at hstored
  rw [mul_assoc] at hread
  have hword := word64_of_readBytes hread (k := 8 * k) (by omega)
  rwa [List.drop_replicate, List.take_replicate, leNat_replicate_zero] at hword

theorem lopSeqOpen_done {im : SeqRec} (hnone : seqRec s r.seq = none)
    (him : im = SeqRec.ofWords (word64 s r.word1) (word64 s (r.word1 + 8)) (word64 s (r.word1 + 16))) (hal : r.word1 % 8 = 0)
    (hown : ownsRange s part r.word1 32 = true) (hcls : clsValid s im.cls = true) (hlist : im.list % 8 = 0)
    (hlown : ownsRange s part im.list (8 * im.cap * im.layers) = true) :
    lopSeqOpen s part r = ((seqPrepared s im r.seq).setSeq r.seq (im.opened part), 0, false) := by
  subst him
  unfold lopSeqOpen
  rw [hnone]
  dsimp only
  rw [if_neg (by simp [hal, hown, hcls, hlist, hlown]), opOk_zero]
  rfl

theorem lopSeqOpen_foreign (h : seqRec s r.seq = some q) (hown : q.owner ≠ part) : lopSeqOpen s part r = opFail s Lg.notOwner := by
  unfold lopSeqOpen
  rw [h]
  dsimp only
  rw [if_neg hown]

theorem runs_seqOpen {im : SeqRec} (hon : ledgerOn s = true) (hpart : part < 8) (hnone : seqRec s r.seq = none)
    (hsound : SoundReads s 0x01 r)
    (him : im = SeqRec.ofWords (word64 s r.word1) (word64 s (r.word1 + 8)) (word64 s (r.word1 + 16))) (hal : r.word1 % 8 = 0)
    (hown : ownsRange s part r.word1 32 = true) (hcls : clsValid s im.cls = true) (hlist : im.list % 8 = 0)
    (hlown : ownsRange s part im.list (8 * im.cap * im.layers) = true)
    (hap : Apart s [(im.list, 8 * im.cap * im.layers), (seqAddr s r.seq, 32), (res, 8)]) :
    Runs (.seqOpen part r res) s fun t =>
      seqRec t r.seq = some { im with owner := part, committed := 0, tent := 0, length := 0 } ∧ r.seq ∈ t.seqUsed ∧
      (∀ i, i < im.cap * im.layers → slotHandle t im i = 0) ∧ readBytes t res 8 = leBytes 8 0 ∧
      MemKeptOut [(im.list, 8 * im.cap * im.layers), (seqAddr s r.seq, 32), (res, 8)] s t ∧ RegsKept [] s t ∧ ListFrame s t := by
  have hfits : im.Fits := by rw [him]; exact SeqRec.fits_ofWords _ _ _
  have hl := hap.writable 0
  have hprep := writes_seqPrepared r.seq hl.2.2
  have haddr : seqAddr (seqPrepared s im r.seq) r.seq = seqAddr s r.seq := hprep.cfgKept.seqAddr r.seq
  have hrec : Writable (seqPrepared s im r.seq) (seqAddr (seqPrepared s im r.seq) r.seq) 32 := by
    rw [haddr]
    exact hprep.writable (hap.writable 1)
  have hset := writes_setSeq _ (im.opened part) hrec.2.2
  have hu : LedgerOnly s ((seqPrepared s im r.seq).setSeq r.seq (im.opened part)) :=
    (ledgerOnly_seqPrepared s im r.seq).trans (ledgerOnly_storeBytes _ _ _)
  rw [haddr] at hset
  refine runs_row rowOf_seqOpen hon hsound (lopSeqOpen_done hnone him hal hown hcls hlist hlown)
    (hprep.mono.trans hset.mono : Writes [(im.list, 8 * im.cap * im.layers), (seqAddr s r.seq, 32)] [] s _) hu.listFrame (hap.writable 2)
    fun t honly hlast hread hkept hregs hframe => ⟨?_, ?_, ?_, hread, hkept, hregs, hframe⟩
  · refine seqRec_setSeq hrec (hfits.opened hpart) hlast ?_
    rw [haddr]
    simpa using hap.sep 1 2
  · rw [show t.seqUsed = ((seqPrepared s im r.seq).setSeq r.seq (im.opened part)).seqUsed by rw [honly]]
    rw [show ((seqPrepared s im r.seq).setSeq r.seq (im.opened part)).seqUsed = (seqPrepared s im r.seq).seqUsed by
      rw [setSeq_eq, memOnly_storeBytes _ _ (im.opened part).bytes (by rw [SeqRec.length_bytes]; exact hrec.2.2)]]
    exact mem_seqUsed_seqPrepared s im r.seq
  · intro i hi
    refine slotHandle_seqPrepared hl (hset.mono.trans hlast.mono : Writes [(seqAddr s r.seq, 32), (res, 8)] [] _ t) ?_ hi
    simpa using ⟨hap.sep 0 1, hap.sep 0 2⟩

end Sys2Proof.Machine
end

section
/-! PROOFS. SEQ_CLOSE, SHARE, DROP, COW and RESOLVE done, and the page ledger's operations as a whole (R335 to R340, R348). -/

namespace Sys2Proof.Machine

open Sys2Proof

variable {l : List (Nat × Nat)} {rs : List Nat} {s t u : State} {part res : Nat} {r : OpRec} {q o : SeqRec}

/-! ### SEQ_CLOSE -/

/-- A sequence's flushes and use given up. -/
def seqUnused (s : State) (i : Nat) : State :=
  { s.dropFlushes fun f => f.1 == i with seqUsed := s.seqUsed.filter (· != i), resuming := s.resuming.filter fun x => x.2 != i }

theorem writes_seqUnused (s : State) (i : Nat) : Writes l rs s (seqUnused s i) := .same

/-- A sequence's lines, flushes and use given up. -/
def seqForgotten (s : State) (i : Nat) : State := seqUnused (s.freeLines fun b => b.seq == i) i

theorem writes_seqForgotten (s : State) (i : Nat) : Writes [] [A.ledgerBobbinUse] s (seqForgotten s i) :=
  (writes_freeLines s _).trans (writes_seqUnused _ i)

theorem ledgerOnly_seqForgotten (s : State) (i : Nat) : LedgerOnly s (seqForgotten s i) :=
  (ledgerOnly_freeLines s _).trans (ledgerOnly_forgetSeq _ _ _ _)

theorem seqForgotten_eq (s : State) (i : Nat) : ∃ rs, seqForgotten s i = { s with
    bobbin := s.bobbin.filter fun b => b.seq != i, flushes := s.flushes.filter fun f => f.1 != i
    poolWaits := s.poolWaits.filter fun f => f.1 != i, restoring := s.restoring.filter fun x => x.1 != i
    seqUsed := s.seqUsed.filter (· != i), resuming := s.resuming.filter fun x => x.2 != i, regs := rs } := by
  refine ⟨(s.freeLines fun b => b.seq == i).regs, ?_⟩
  unfold seqForgotten
  rw [freeLines_eq]
  rfl

/-- A sequence without pages closed: its record's first word loses VALID. -/
theorem closeSeq_of_empty {i : Nat} (hempty : ∀ k, k < q.cap * q.layers → slotHandle s q k = 0) :
    s.closeSeq i q = (seqForgotten s i).storeBytes (seqAddr (seqForgotten s i) i)
      (leBytes 8 (word64 (seqForgotten s i) (seqAddr (seqForgotten s i) i) / 2 * 2)) := by
  have hfold (n : Nat) (hn : n ≤ q.cap * q.layers) :
      (List.range n).foldl (fun u k => u.dropRef (slotHandle u q k)) s = s := by
    induction n with
    | zero => rfl
    | succ n ih => rw [List.range_succ, List.foldl_append, ih (by omega), List.foldl_cons, hempty n (by omega), dropRef_zero]; rfl
  unfold State.closeSeq
  rw [hfold _ le_rfl]
  rfl

theorem seqRec_of_even {i w : Nat} (h : word64 s (seqAddr s i) = w / 2 * 2 % 2 ^ 64) : seqRec s i = none := by
  unfold seqRec
  rw [if_neg]
  rw [h, Nat.testBit_zero, decide_eq_true_eq]
  omega

theorem runs_seqClose (hon : ledgerOn s = true) (hseq : seqRec s r.seq = some q) (hown : q.owner = part)
    (hempty : ∀ i, i < q.cap * q.layers → slotHandle s q i = 0) (hsound : SoundReads s 0x02 r)
    (hap : Apart s [(seqAddr s r.seq, 8), (res, 8)]) : Runs (.seqClose part r res) s fun t =>
      seqRec t r.seq = none ∧ t.bobbin = s.bobbin.filter (fun b => b.seq != r.seq) ∧ r.seq ∉ t.seqUsed ∧
      t.flushes = s.flushes.filter (fun f => f.1 != r.seq) ∧ t.poolWaits = s.poolWaits.filter (fun f => f.1 != r.seq) ∧
      readBytes t res 8 = leBytes 8 0 ∧ MemKeptOut [(seqAddr s r.seq, 8), (res, 8)] s t ∧ RegsKept [A.ledgerBobbinUse] s t ∧
      ListFrame s t := by
  have hforgot := writes_seqForgotten s r.seq
  have haddr : seqAddr (seqForgotten s r.seq) r.seq = seqAddr s r.seq :=
    (hforgot.cfgKept (by simpa using bobbinUse_mem_count)).seqAddr r.seq
  have hrec : Writable (seqForgotten s r.seq) (seqAddr s r.seq) 8 := hforgot.writable (hap.writable 0)
  have hf : lopSeqClose s part r = (s.closeSeq r.seq q, 0, false) := onSeq_owned hseq hown _
  have hu := (ledgerOnly_closeSeq s r.seq q).listFrame
  rw [closeSeq_of_empty hempty, haddr] at hf hu
  have hstore := writes_storeBytes (seqForgotten s r.seq) (a := seqAddr s r.seq)
    (bs := leBytes 8 (word64 (seqForgotten s r.seq) (seqAddr s r.seq) / 2 * 2)) (by rw [length_leBytes]; exact hrec.2.2)
  have honly := memOnly_storeBytes (seqForgotten s r.seq) (seqAddr s r.seq)
    (leBytes 8 (word64 (seqForgotten s r.seq) (seqAddr s r.seq) / 2 * 2)) (by rw [length_leBytes]; exact hrec.2.2)
  rw [length_leBytes] at hstore
  obtain ⟨regs, heq⟩ := seqForgotten_eq s r.seq
  refine runs_row rowOf_seqClose hon hsound hf (hforgot.mono.trans hstore.mono : Writes [(seqAddr s r.seq, 8)] _ s _) hu (hap.writable 1)
    fun t hmem hlast hread hkept hregs hframe => ⟨?_, ?_, ?_, ?_, ?_, hread, hkept, hregs, hframe⟩
  · have haddr' : seqAddr t r.seq = seqAddr s r.seq :=
      (hlast.cfgKept.seqAddr _).trans ((hstore.cfgKept.seqAddr _).trans haddr)
    refine seqRec_of_even (w := word64 (seqForgotten s r.seq) (seqAddr s r.seq)) ?_
    rw [haddr']
    refine word64_storeBytes _ hrec (hlast.kept (memInv_storeBytes _ _ _ hrec.1)) ?_
    simpa using hap.sep 0 1
  all_goals rw [MemOnly.trans honly hmem, heq]
  simp

/-! ### DROP and COW -/

theorem runs_drop {h : Nat} (hon : ledgerOn s = true) (hseq : seqRec s r.seq = some q) (hown : q.owner = part)
    (harg : r.arg < q.length / pgPos s q.cls * q.layers) (hslot : slotHandle s q r.arg = h) (href : pageRefused s part h = none)
    (hsound : SoundReads s 0x04 r) (hshared : 2 ≤ (pageEntry s (hClass h) (hFrame h)).ref)
    (hap : Apart s [(entryAddr s (hClass h) (hFrame h), 8), (slotAddr q r.arg, 8), (res, 8)]) : Runs (.drop part r res) s fun t =>
      slotHandle t q r.arg = 0 ∧
      pageEntry t (hClass h) (hFrame h) = { pageEntry s (hClass h) (hFrame h) with ref := (pageEntry s (hClass h) (hFrame h)).ref - 1 } ∧
      readBytes t res 8 = leBytes 8 0 ∧
      MemKeptOut [(entryAddr s (hClass h) (hFrame h), 8), (slotAddr q r.arg, 8), (res, 8)] s t ∧
      RegsKept [A.ledgerCount (hClass h)] s t ∧ ListFrame s t := by
  subst hslot
  generalize hk : slotHandle s q r.arg = k at *
  have hf : lopDrop s part r = ((s.updPage k PageEntry.drop).setSlot q r.arg 0, 0, false) := by
    refine (onSlot_done (top := fun q => q.length / pgPos s q.cls * q.layers) hseq hown harg (hk ▸ href) _).trans ?_
    rw [hk, dropRef_of_not_refused href, opOk_zero]
  have hentry := hap.writable 0
  have hupd := writes_updPage s PageEntry.drop hentry.2.2
  have hslot : Writable (s.updPage k PageEntry.drop) (slotAddr q r.arg) 8 := hupd.writable (hap.writable 1)
  have hset := writes_setSlot _ (q := q) 0 hslot.2.2
  have hcount : ∀ a ∈ [A.ledgerCount (hClass k)], a ∈ ledgerCountRegs := by simpa using ledgerCount_mem (hClass_lt k)
  refine runs_row rowOf_drop hon hsound hf
    (hupd.mono.trans hset.mono : Writes [(entryAddr s (hClass k) (hFrame k), 8), (slotAddr q r.arg, 8)] [A.ledgerCount (hClass k)] s _)
    ((ledgerOnly_setEntry s _ _ _).trans (ledgerOnly_storeBytes _ _ _)).listFrame (hap.writable 2)
    fun t _ hlast hread hkept hregs hframe => ⟨?_, ?_, hread, hkept, hregs, hframe⟩
  · refine slotHandle_setSlot (by simp) hslot hlast ?_
    simpa using hap.sep 1 2
  · have hafter : Writes [(slotAddr q r.arg, 8), (res, 8)] [] (s.updPage k PageEntry.drop) t := hset.mono.trans hlast.mono
    rw [← drop_of_shared hshared, ← pageEntry_updPage (g := PageEntry.drop) hentry ?_]
    · refine pageEntry_of_sep hafter.cfgKept (hafter.kept (hupd.mem hentry.1)) (hClass_lt k) ?_
      rw [(hupd.cfgKept hcount).entryAddr (hClass_lt k)]
      simpa using ⟨hap.sep 0 1, hap.sep 0 2⟩
    · have he := fits_pageEntry s (hClass k) (hFrame k)
      rw [drop_of_shared hshared]
      exact { he with ref := (Nat.sub_le _ _).trans_lt he.ref }

theorem runs_cow {h : Nat} (hon : ledgerOn s = true) (hseq : seqRec s r.seq = some q) (hown : q.owner = part)
    (harg : r.arg < q.cap * q.layers) (hslot : slotHandle s q r.arg = h) (href : pageRefused s part h = none)
    (hsound : SoundReads s 0x05 r) (hone : (pageEntry s (hClass h) (hFrame h)).ref = 1)
    (hpins : (pageEntry s (hClass h) (hFrame h)).pins = 0) (hres : Writable s res 8) : Runs (.cow part r res) s fun t =>
      Stored res (leBytes 8 (h % 2 ^ 40 * 256)) s t ∧ RegsKept [] s t ∧ ListFrame s t := by
  subst hslot
  refine runs_row_answer (bad := false) rowOf_cow hon hsound ((onSlot_done (top := fun q => q.cap * q.layers) hseq hown harg href _).trans ?_) hres
  rw [if_pos ⟨hone, hpins⟩, opOk_eq]

/-! ### SHARE -/

theorem runs_share {h : Nat} (hon : ledgerOn s = true) (hseq : seqRec s r.seq = some q) (hown : q.owner = part)
    (hsrc : seqRec s (fld r.arg 13 0) = some o) (hsown : o.owner = part) (hone : fld r.arg 31 14 = 1) (hql : q.layers = 1)
    (hol : o.layers = 1) (hcls : q.cls = o.cls) (hlen : q.length = 0) (hcom : q.committed = 0) (htent : q.tent = 0)
    (hfull : pgPos s o.cls ≤ o.length) (hcap : 1 ≤ q.cap) (hslot : slotHandle s o 0 = h) (hnz : h ≠ 0)
    (href : pageRefused s part h = none) (hsound : SoundReads s 0x03 r) (hempty : slotHandle s q 0 = 0)
    (hrefs : (pageEntry s (hClass h) (hFrame h)).ref < 1048575) (hpos : pgPos s q.cls < 2 ^ 32)
    (hap : Apart s [(entryAddr s (hClass h) (hFrame h), 8), (slotAddr q 0, 8), (seqAddr s r.seq, 32), (res, 8), (slotAddr o 0, 8)]) :
    Runs (.share part r res) s fun t =>
      pageEntry t (hClass h) (hFrame h) = { pageEntry s (hClass h) (hFrame h) with ref := (pageEntry s (hClass h) (hFrame h)).ref + 1 } ∧
      slotHandle t q 0 = h ∧ slotHandle t o 0 = h ∧ seqRec t r.seq = some { q with length := pgPos s q.cls } ∧
      readBytes t res 8 = leBytes 8 0 ∧
      MemKeptOut [(entryAddr s (hClass h) (hFrame h), 8), (slotAddr q 0, 8), (seqAddr s r.seq, 32), (res, 8)] s t ∧
      RegsKept [A.ledgerCount (hClass h)] s t ∧ ListFrame s t := by
  have hfits := fits_of_seqRec hseq
  have hclass : q.cls < 16 := hfits.cls
  have hentry := hap.writable 0
  have hupd := writes_updPage s (fun e => { e with ref := e.ref + 1 }) hentry.2.2
  have hcount : ∀ a ∈ [A.ledgerCount (hClass h)], a ∈ ledgerCountRegs := by simpa using ledgerCount_mem (hClass_lt h)
  generalize hv : s.updPage h (fun e => { e with ref := e.ref + 1 }) = v at hupd
  have hslotv : Writable v (slotAddr q 0) 8 := hupd.writable (hap.writable 1)
  have hset := writes_setSlot v (q := q) h hslotv.2.2
  have hcfg : CfgKept s (v.setSlot q 0 h) := (hupd.cfgKept hcount).trans hset.cfgKept
  have haddr : seqAddr (v.setSlot q 0 h) r.seq = seqAddr s r.seq := hcfg.seqAddr r.seq
  have hrec : Writable (v.setSlot q 0 h) (seqAddr (v.setSlot q 0 h) r.seq) 32 := by
    rw [haddr]
    exact hset.writable (hupd.writable (hap.writable 2))
  have hseqset := writes_setSeq (v.setSlot q 0 h) { q with length := pgPos s q.cls } hrec.2.2
  have hf : lopShare s part r = ((v.setSlot q 0 h).setSeq r.seq { q with length := pgPos s q.cls }, 0, false) := by
    refine (onSeq_owned hseq hown _).trans ((onSeq_owned hsrc hsown _).trans ?_)
    simp only [hone, hql, List.range_one, List.map_cons, List.map_nil, List.any_cons, List.any_nil, hslot, hempty, dropRef_zero,
      List.foldl_cons, List.foldl_nil, if_neg hnz, hv, one_mul, hcfg.pgPos hclass, opOk_zero]
    rw [if_neg (by omega), if_neg (by omega), if_neg (by simp [href]), if_neg (by simp; omega)]
  rw [haddr] at hseqset
  have hu : LedgerOnly s ((v.setSlot q 0 h).setSeq r.seq { q with length := pgPos s q.cls }) :=
    (hv ▸ ledgerOnly_setEntry s _ _ _ : LedgerOnly s v).trans ((ledgerOnly_storeBytes _ _ _).trans (ledgerOnly_storeBytes _ _ _))
  refine runs_row rowOf_share hon hsound hf (hupd.mono.trans (hset.mono.trans hseqset.mono) :
      Writes [(entryAddr s (hClass h) (hFrame h), 8), (slotAddr q 0, 8), (seqAddr s r.seq, 32)] [A.ledgerCount (hClass h)] s _)
    hu.listFrame (hap.writable 3) fun t _ hlast hread hkept hregs hframe => ⟨?_, ?_, ?_, ?_, hread, hkept, hregs, hframe⟩
  · have hafter : Writes [(slotAddr q 0, 8), (seqAddr s r.seq, 32), (res, 8)] [] v t := hset.mono.trans (hseqset.mono.trans hlast.mono)
    have he := fits_pageEntry s (hClass h) (hFrame h)
    have hentryv := pageEntry_updPage (g := fun e => { e with ref := e.ref + 1 }) hentry { he with ref := by dsimp only; omega }
    rw [hv] at hentryv
    rw [← hentryv]
    refine pageEntry_of_sep hafter.cfgKept (hafter.kept (hupd.mem hentry.1)) (hClass_lt h) ?_
    rw [(hupd.cfgKept hcount).entryAddr (hClass_lt h)]
    simpa using ⟨hap.sep 0 1, hap.sep 0 2, hap.sep 0 3⟩
  · refine slotHandle_setSlot (hslot ▸ slotHandle_lt s o 0) hslotv
      (hseqset.mono.trans hlast.mono : Writes [(seqAddr s r.seq, 32), (res, 8)] [] _ t) ?_
    simpa using ⟨hap.sep 1 2, hap.sep 1 3⟩
  · refine (slotHandle_of_sep hkept ?_).trans hslot
    simpa using ⟨hap.sep 4 0, hap.sep 4 1, hap.sep 4 2, hap.sep 4 3⟩
  · refine seqRec_setSeq hrec { hfits with length := hpos } hlast ?_
    rw [haddr]
    simpa using hap.sep 2 3

/-! ### RESOLVE -/

/-- The Bobbin after RESOLVE: tentative positions from one on given up, those below it committed. -/
def resolvedBobbin (s : State) (i top : Nat) : List BobEntry :=
  (s.bobbin.filter fun b => !(b.seq == i && decide (top ≤ b.pos))).map
    fun b => if b.seq = i ∧ b.pos < top then { b with tent := false } else b

/-- The lines of positions from one on freed, and the Bobbin's entries below it committed. -/
def bobbinResolved (s : State) (i top : Nat) : State :=
  let u := s.freeLines fun b => b.seq == i && decide (top ≤ b.pos)
  { u with bobbin := u.bobbin.map fun (b : BobEntry) => if b.seq == i && decide (b.pos < top) then { b with tent := false } else b }

theorem writes_bobbinSet (s : State) (b : List BobEntry) : Writes l rs s { s with bobbin := b } := .same

theorem writes_bobbinResolved (s : State) (i top : Nat) : Writes [] [A.ledgerBobbinUse] s (bobbinResolved s i top) :=
  (writes_freeLines s _).trans (writes_bobbinSet _ _)

theorem bobbinResolved_eq (s : State) (i top : Nat) :
    bobbinResolved s i top = { s with bobbin := resolvedBobbin s i top, regs := (bobbinResolved s i top).regs } := by
  unfold bobbinResolved
  dsimp only
  rw [freeLines_eq]
  simp only [resolvedBobbin, Bool.and_eq_true, beq_iff_eq, decide_eq_true_eq]

theorem advanceSeq_idle {i fuel : Nat} (h : seqRec s i = some q) (hk : q.committed < pgPos s q.cls) : s.advanceSeq i fuel = s.setSeq i q := by
  unfold State.advanceSeq
  rw [h]
  cases fuel with
  | zero => rfl
  | succ n =>
    dsimp only
    unfold advancedRec
    rw [if_neg (by omega)]

/-- The record of a sequence with the first tentative positions committed and the rest given up. -/
def SeqRec.resolved (q : SeqRec) (a : Nat) : SeqRec := { q with committed := q.committed + a, tent := 0 }

theorem lopResolve_done {v w : State} (hseq : seqRec s r.seq = some q) (hown : q.owner = part) (harg : r.arg ≤ q.tent)
    (hv : v = bobbinResolved s r.seq (q.length + q.committed + r.arg)) (hw : w = v.setSeq r.seq (q.resolved r.arg))
    (hread : seqRec w r.seq = some (q.resolved r.arg)) (hpage : q.committed + r.arg < pgPos w q.cls) :
    lopResolve s part r = (w.setSeq r.seq (q.resolved r.arg), 0, false) := by
  have hdone := onSeq_owned (part := part) (s := s) hseq hown
  have hadv : w.advanceSeq r.seq 64 = w.setSeq r.seq (q.resolved r.arg) := advanceSeq_idle hread hpage
  have hnodue : (q.committed + r.arg) / pgPos w q.cls = 0 := Nat.div_eq_of_lt hpage
  subst hv hw
  rw [← hadv, ← opOk_zero]
  refine (hdone _).trans ((if_neg (by omega)).trans ?_)
  simp only [SeqRec.resolved, bobbinResolved] at hnodue
  simp only [hnodue, List.range_zero, List.map_nil, List.flatMap_nil, List.append_nil]
  rfl

theorem runs_resolve (hon : ledgerOn s = true) (hseq : seqRec s r.seq = some q) (hown : q.owner = part) (harg : r.arg ≤ q.tent)
    (hpage : q.committed + r.arg < pgPos s q.cls) (hfit : q.committed + r.arg < 64) (hsound : SoundReads s 0x08 r)
    (hap : Apart s [(seqAddr s r.seq, 32), (res, 8)]) : Runs (.resolve part r res) s fun t =>
      seqRec t r.seq = some { q with committed := q.committed + r.arg, tent := 0 } ∧
      t.bobbin = resolvedBobbin s r.seq (q.length + q.committed + r.arg) ∧
      t.flushes = s.flushes ∧ readBytes t res 8 = leBytes 8 0 ∧ MemKeptOut [(seqAddr s r.seq, 32), (res, 8)] s t ∧
      RegsKept [A.ledgerBobbinUse] s t ∧ ListFrame s t := by
  have hfits := fits_of_seqRec hseq
  have hfits' : (q.resolved r.arg).Fits := { hfits with committed := hfit, tent := by simp [SeqRec.resolved] }
  have hfree := writes_bobbinResolved s r.seq (q.length + q.committed + r.arg)
  have hufree : LedgerOnly s (bobbinResolved s r.seq (q.length + q.committed + r.arg)) := (ledgerOnly_freeLines s _).trans rfl
  have heq := bobbinResolved_eq s r.seq (q.length + q.committed + r.arg)
  generalize hv : bobbinResolved s r.seq (q.length + q.committed + r.arg) = v at hfree hufree heq
  have hcfg : CfgKept s v := hfree.cfgKept (by simpa using bobbinUse_mem_count)
  have haddr : seqAddr v r.seq = seqAddr s r.seq := hcfg.seqAddr r.seq
  have hrec : Writable v (seqAddr v r.seq) 32 := by
    rw [haddr]
    exact hfree.writable (hap.writable 0)
  have hset := writes_setSeq v (q.resolved r.arg) hrec.2.2
  have honly := memOnly_storeBytes v (seqAddr v r.seq) (q.resolved r.arg).bytes (by rw [SeqRec.length_bytes]; exact hrec.2.2)
  have hread := seqRec_setSeq hrec hfits' (Writes.refl [] [] _)
  rw [← setSeq_eq] at honly
  generalize hw : v.setSeq r.seq (q.resolved r.arg) = w at hset hread honly
  have haddrw : seqAddr w r.seq = seqAddr v r.seq := hset.cfgKept.seqAddr r.seq
  have hrecw : Writable w (seqAddr w r.seq) 32 := by
    rw [haddrw]
    exact hset.writable hrec
  have hset' := writes_setSeq w (q.resolved r.arg) hrecw.2.2
  have honly' := memOnly_storeBytes w (seqAddr w r.seq) (q.resolved r.arg).bytes (by rw [SeqRec.length_bytes]; exact hrecw.2.2)
  rw [← setSeq_eq] at honly'
  have hf := lopResolve_done hseq hown harg hv.symm hw.symm hread
    (by rwa [hset.cfgKept.pgPos hfits.cls, hcfg.pgPos hfits.cls])
  rw [haddrw] at hset'
  rw [haddr] at hset hset'
  refine runs_row rowOf_resolve hon hsound hf (hfree.mono.trans (hset.mono.trans hset'.mono) : Writes [(seqAddr s r.seq, 32)] _ s _)
    (hufree.trans (honly.ledgerOnly.trans honly'.ledgerOnly)).listFrame (hap.writable 1)
    fun t hmem hlast hread' hkept hregs hframe => ⟨?_, ?_, ?_, hread', hkept, hregs, hframe⟩
  · refine seqRec_setSeq hrecw hfits' hlast ?_
    rw [haddrw, haddr]
    simpa using hap.sep 0 1
  · rw [honly.trans (honly'.trans hmem), heq]
  · rw [honly.trans (honly'.trans hmem), heq]

/-! ### Refusals -/

/-- Every operation that names a sequence of no record is refused with BAD_SEQ. -/
theorem refusedRow_badSeq (hon : ledgerOn s = true) (hnone : seqRec s r.seq = none) (hsound : ∀ op ∈ [2, 3, 4, 5, 8], SoundReads s op r) :
    RefusedRow (.seqClose part r res) s res 6 ∧ RefusedRow (.share part r res) s res 6 ∧ RefusedRow (.drop part r res) s res 6 ∧
      RefusedRow (.cow part r res) s res 6 ∧ RefusedRow (.resolve part r res) s res 6 :=
  ⟨refusedRow_of rowOf_seqClose hon (hsound 2 (by simp)) (by decide) (onSeq_none hnone _),
    refusedRow_of rowOf_share hon (hsound 3 (by simp)) (by decide) (onSeq_none hnone _),
    refusedRow_of rowOf_drop hon (hsound 4 (by simp)) (by decide) (onSeq_none hnone _),
    refusedRow_of rowOf_cow hon (hsound 5 (by simp)) (by decide) (onSeq_none hnone _),
    refusedRow_of rowOf_resolve hon (hsound 8 (by simp)) (by decide) (onSeq_none hnone _)⟩

/-- DROP and COW are refused as the page in the slot is, and DROP beyond the list with BAD_INDEX. -/
theorem refusedRow_slot {st : Nat} (hon : ledgerOn s = true) (hseq : seqRec s r.seq = some q) (hown : q.owner = part)
    (href : pageRefused s part (slotHandle s q r.arg) = some st) (hdrop : SoundReads s 0x04 r) (hcow : SoundReads s 0x05 r) :
    (r.arg < q.length / pgPos s q.cls * q.layers → RefusedRow (.drop part r res) s res st) ∧
      (q.length / pgPos s q.cls * q.layers ≤ r.arg → RefusedRow (.drop part r res) s res 7) ∧
      (r.arg < q.cap * q.layers → RefusedRow (.cow part r res) s res st) :=
  ⟨fun htop => refusedRow_of rowOf_drop hon hdrop (pageRefused_lt href)
      (onSlot_refused (top := fun q => q.length / pgPos s q.cls * q.layers) hseq hown htop href _),
    fun htop => refusedRow_of rowOf_drop hon hdrop (by decide)
      (onSlot_beyond (top := fun q => q.length / pgPos s q.cls * q.layers) hseq hown htop _),
    fun htop => refusedRow_of rowOf_cow hon hcow (pageRefused_lt href)
      (onSlot_refused (top := fun q => q.cap * q.layers) hseq hown htop href _)⟩

theorem refusedRow_seqOpen (hon : ledgerOn s = true) (hseq : seqRec s r.seq = some q) (hown : q.owner ≠ part) (hsound : SoundReads s 0x01 r) :
    RefusedRow (.seqOpen part r res) s res 2 :=
  refusedRow_of rowOf_seqOpen hon hsound (by decide) (lopSeqOpen_foreign hseq hown)

/-- Settles O25. Each row of the ledger reads, applies its operation and stores its result; what the operation wrote is read back through
the ranges it keeps apart. -/
theorem ledgerOperations : Obligations.LedgerOperations := by
  unfold Obligations.LedgerOperations
  refine ⟨⟨pageRow_pin, pageRow_unpin, pageRow_decref, pageRow_noevict, fun part r res s hon => runs_kvopQuery hon,
      fun part r res st s hon => refusedRow_page hon, errorRow_of rowOf_pin, errorRow_of rowOf_unpin, errorRow_of rowOf_decref,
      errorRow_of rowOf_noevict, errorRow_of rowOf_kvopQuery⟩,
    fun part r res s im hon => runs_seqOpen hon, fun part r res s q hon => runs_seqClose hon,
    fun part r res h s q o hon => runs_share hon, fun part r res h s q hon => runs_drop hon, fun part r res h s q hon => runs_cow hon,
    fun part r res s q hon => runs_resolve hon, fun part r res s hon => refusedRow_badSeq hon,
    fun part st r res s q hon => refusedRow_slot hon, fun part r res s q hon => refusedRow_seqOpen hon,
    errorRow_of rowOf_seqOpen, errorRow_of rowOf_seqClose, errorRow_of rowOf_share, errorRow_of rowOf_drop, errorRow_of rowOf_cow,
    errorRow_of rowOf_resolve⟩

end Sys2Proof.Machine
end

section
/-! PROOFS. The pools of the page ledger: ALLOC, TICK, the flush, and a class made valid (R300, R344 to R351, R359). -/

namespace Sys2Proof.Machine

open Sys2Proof

variable {l : List (Nat × Nat)} {rs : List Nat} {s t u : State} {part res n : Nat} {r : OpRec} {q : SeqRec}

/-! ### Registers in which the ledger counts -/

theorem writes_fset (s : State) {a : Nat} (ha : a ∈ ledgerCountRegs) (f : Nat × Nat) (v : Nat) : Writes l [a] s (s.fset a f v) :=
  (writes_setReg s _ (ledger_home (ledgerCountRegs_window ha).1) (.inr (by have := ledgerCountRegs_window ha; omega))).mono

theorem status_mem_count : A.ledgerStatus ∈ ledgerCountRegs := by simp [ledgerCountRegs]

theorem loopState_mem_count (hn : n < 16) : A.ledgerLoopState n ∈ ledgerCountRegs := by
  unfold ledgerCountRegs
  exact List.mem_append_right _ (List.mem_flatMap.mpr ⟨n, List.mem_range.mpr hn, by simp⟩)

theorem lt_of_clsValid (h : clsValid s n = true) : n < 16 := by
  unfold clsValid at h
  simp only [Bool.and_eq_true, decide_eq_true_eq] at h
  exact h.1

/-! ### ALLOC -/

/-- The generation after one, 255 going back to 1. -/
def nextGen (g : Nat) : Nat := if g = 255 then 1 else g + 1

theorem nextGen_lt {g : Nat} (h : g < 2 ^ 8) : nextGen g < 2 ^ 8 := by
  unfold nextGen
  split <;> omega

/-- The entry of a frame just taken for a partition. -/
def takenEntry (part gen : Nat) : PageEntry :=
  { ref := 1, pins := 0, owner := part, live := pgLive, noEvict := false, gen := gen, score := 0 }

theorem fits_takenEntry {gen : Nat} (hpart : part < 8) (hgen : gen < 2 ^ 8) : (takenEntry part gen).Fits :=
  ⟨by simp [takenEntry], by simp [takenEntry], hpart, by simp [takenEntry, pgLive], hgen, by simp [takenEntry]⟩

theorem takeFrameOf_of_empty {lode : Nat} (h : freeFrames s n lode = []) : s.takeFrameOf n lode part = none := by
  unfold State.takeFrameOf
  rw [h]

/-- A frame is taken from those that are free, with its next generation. -/
theorem takeFrameOf_of_free {lode : Nat} (h : freeFrames s n lode ≠ []) : ∃ f ∈ freeFrames s n lode,
    s.takeFrameOf n lode part = some ({ s with free := s.free + 1 }.setEntry n f (takenEntry part (nextGen (pageEntry s n f).gen)),
      mkHandle n f (nextGen (pageEntry s n f).gen)) := by
  cases hfs : freeFrames s n lode with
  | nil => exact absurd hfs h
  | cons x xs =>
    have hlt : Config.pickFrame s.free (x :: xs).length % (x :: xs).length < (x :: xs).length := Nat.mod_lt _ (by simp)
    refine ⟨(x :: xs).getD (Config.pickFrame s.free (x :: xs).length % (x :: xs).length) x, ?_, ?_⟩
    · rw [List.getD_eq_getElem _ _ hlt]
      exact List.getElem_mem hlt
    · unfold State.takeFrameOf
      rw [hfs]
      rfl

theorem writes_nextFree (s : State) : Writes l rs s { s with free := s.free + 1 } := .same

theorem runs_alloc (hon : ledgerOn s = true) (hpart : part < 8) (hcls : clsValid s r.cls = true) (hfree : freeFrames s r.cls r.lode ≠ [])
    (hsound : SoundReads s 0x0C r) (hap : ∀ f ∈ freeFrames s r.cls r.lode, Apart s [(entryAddr s r.cls f, 8), (res, 8)]) :
    Runs (.alloc part r res) s fun t => ∃ f ∈ freeFrames s r.cls r.lode, ∃ g,
      g = (if (pageEntry s r.cls f).gen = 255 then 1 else (pageEntry s r.cls f).gen + 1) ∧
      pageEntry t r.cls f = { ref := 1, pins := 0, owner := part, live := 1, noEvict := false, gen := g, score := 0 } ∧
      readBytes t res 8 = leBytes 8 (mkHandle r.cls f g % 2 ^ 40 * 256) ∧
      MemKeptOut [(entryAddr s r.cls f, 8), (res, 8)] s t ∧ RegsKept [A.ledgerCount r.cls] s t ∧ ListFrame s t := by
  have hlt := lt_of_clsValid hcls
  obtain ⟨f, hf, htake⟩ := takeFrameOf_of_free (part := part) hfree
  have hop : lopAlloc s part r = ({ s with free := s.free + 1 }.setEntry r.cls f (takenEntry part (nextGen (pageEntry s r.cls f).gen)),
      mkHandle r.cls f (nextGen (pageEntry s r.cls f).gen) % 2 ^ 40 * 256, false) := by
    unfold lopAlloc
    rw [if_neg (by simp [hcls]), htake, ← opOk_eq]
  have hnext := writes_nextFree (l := []) (rs := []) s
  have hentry : Writable { s with free := s.free + 1 } (entryAddr { s with free := s.free + 1 } r.cls f) 8 :=
    hnext.writable ((hap f hf).writable 0)
  have hfits : (takenEntry part (nextGen (pageEntry s r.cls f).gen)).Fits :=
    fits_takenEntry hpart (nextGen_lt (fits_pageEntry s r.cls f).gen)
  have hset := writes_setEntry _ (takenEntry part (nextGen (pageEntry s r.cls f).gen)) hlt hentry.2.2
  have hu : Writes [(entryAddr s r.cls f, 8)] [A.ledgerCount r.cls] s _ := hnext.mono.trans hset
  have hframe : ListFrame { s with free := s.free + 1 } _ :=
    (ledgerOnly_setEntry { s with free := s.free + 1 } r.cls f (takenEntry part (nextGen (pageEntry s r.cls f).gen))).listFrame
  refine runs_row rowOf_alloc hon hsound hop hu hframe ((hap f hf).writable 1)
    fun t _ hlast hread hkept hregs hframe => ⟨f, hf, _, rfl, ?_, hread, hkept, hregs, hframe⟩
  have hsetentry := pageEntry_setEntry hlt hentry hfits
  refine (pageEntry_of_sep hlast.cfgKept (hlast.kept (hset.mem hentry.1)) hlt ?_).trans hsetentry
  rw [(hu.cfgKept (by simpa using ledgerCount_mem hlt)).entryAddr hlt]
  simpa using (hap f hf).sep 0 1

theorem refusedRow_alloc (hon : ledgerOn s = true) (hcls : clsValid s r.cls = true) (hfree : freeFrames s r.cls r.lode = [])
    (hsound : SoundReads s 0x0C r) : RefusedRow (.alloc part r res) s res 3 := by
  refine refusedRow_of rowOf_alloc hon hsound (by decide) ?_
  unfold lopAlloc
  rw [if_neg (by simp [hcls]), takeFrameOf_of_empty hfree]

/-! ### TICK -/

/-- The threshold loop keeps within its bounds. -/
theorem nextTh_bounds (lo hi step th p high low : Nat) (pin : Bool) :
    lo ≤ (nextTh lo hi step th p high low pin).1 ∧ (nextTh lo hi step th p high low pin).1 ≤ max lo hi := by
  unfold nextTh
  dsimp only
  split_ifs <;> dsimp only <;> omega

/-- The threshold that a class's loop comes to, and whether it met a bound. -/
def tickTh (s : State) (n : Nat) : Nat × Bool :=
  nextTh (s.fget (A.ledgerLoop n) A.ledgerLoop_thMin) (s.fget (A.ledgerLoop n) A.ledgerLoop_thMax)
    (s.fget (A.ledgerLoop n) A.ledgerLoop_step) (s.fget (A.ledgerLoopState n) A.ledgerLoopState_th)
    (256 * s.fget (A.ledgerCount n) A.ledgerCount_live / (16 * perLode s n)) (s.fget (A.ledgerLoop n) A.ledgerLoop_high)
    (s.fget (A.ledgerLoop n) A.ledgerLoop_low) (s.flag (A.ledgerLoop n) A.ledgerLoop_pin)

theorem tickTh_lt (s : State) (n : Nat) : (tickTh s n).1 < 2 ^ 16 := by
  have hmin : s.fget (A.ledgerLoop n) A.ledgerLoop_thMin < 2 ^ 16 := fld_lt _ _ _
  have hmax : s.fget (A.ledgerLoop n) A.ledgerLoop_thMax < 2 ^ 16 := fld_lt _ _ _
  exact (nextTh_bounds _ _ _ _ _ _ _ _).2.trans_lt (max_lt hmin hmax)

/-- The loop's result in its register. -/
def loopSet (s : State) (n : Nat) : State :=
  let u := s.fset (A.ledgerLoopState n) A.ledgerLoopState_th (tickTh s n).1
  if (tickTh s n).2 then u.bump (A.ledgerLoopState n) A.ledgerLoopState_clash 1 else u

theorem writes_loopSet (s : State) (hn : n < 16) : Writes [] [A.ledgerLoopState n] s (loopSet s n) := by
  have hmem := loopState_mem_count hn
  unfold loopSet
  dsimp only
  split
  · exact (writes_fset s hmem _ _).trans (writes_fset _ hmem _ _)
  · exact writes_fset s hmem _ _

theorem ledgerOnly_loopSet (s : State) (n : Nat) : LedgerOnly s (loopSet s n) := by
  unfold loopSet
  dsimp only
  split <;> rfl

theorem th_loopSet (s : State) (n : Nat) : (loopSet s n).fget (A.ledgerLoopState n) A.ledgerLoopState_th = (tickTh s n).1 := by
  have hself : (s.fset (A.ledgerLoopState n) A.ledgerLoopState_th (tickTh s n).1).fget (A.ledgerLoopState n) A.ledgerLoopState_th =
      (tickTh s n).1 := (fget_fset_self s _ _ (by decide) (by decide)).trans (Nat.mod_eq_of_lt (tickTh_lt s n))
  unfold loopSet
  dsimp only
  split
  · exact (fget_fset_other _ _ _ (by decide) (by decide) (by decide) (by decide)).trans hself
  · exact hself

/-- Without decay and without eviction, a tick of a class is its loop. -/
theorem tickClass_still (hcls : clsValid s n = true) (hdecay : s.fget A.ledgerScoreCtl A.ledgerScoreCtl_decayShift = 0)
    (hevict : s.flag (A.ledgerLoop n) A.ledgerLoop_evictEn = false) : s.tickClass n = loopSet s n := by
  have hn := lt_of_clsValid hcls
  have hflag : (loopSet s n).flag (A.ledgerLoop n) A.ledgerLoop_evictEn = false :=
    (flag_congr (((writes_loopSet s hn).cfgKept (by simpa using loopState_mem_count hn)).loopReg hn) _).trans hevict
  unfold State.tickClass
  rw [if_neg (by simp [hcls])]
  simp only [hdecay, ne_eq, not_true_eq_false, and_false, if_false, List.foldl_fixed]
  exact if_neg fun h => absurd (h.1.symm.trans hflag) (by decide)

/-- Where one class alone is valid, the tick of all classes is its own. -/
theorem foldl_tickClass (hstill : s.tickClass n = loopSet s n) (hn : n < 16)
    (hothers : ∀ m, m < 16 → m ≠ n → clsValid s m = false) {k : Nat} (hk : k ≤ 16) :
    (List.range k).foldl State.tickClass s = if n < k then loopSet s n else s := by
  have hcfg := (writes_loopSet s hn).cfgKept (by simpa using loopState_mem_count hn)
  have hskip {v : State} (m : Nat) (hv : clsValid v m = false) : v.tickClass m = v := if_pos (by simp [hv])
  induction k with
  | zero => rfl
  | succ k ih =>
    rw [List.range_succ, List.foldl_append, ih (by omega), List.foldl_cons, List.foldl_nil]
    rcases Nat.lt_trichotomy n k with hlt | rfl | hgt
    · rw [if_pos hlt, if_pos (by omega), hskip k (by rw [hcfg.clsValid]; exact hothers k (by omega) (by omega))]
    · rw [if_neg (by omega), if_pos (by omega), hstill]
    · rw [if_neg (by omega), if_neg (by omega), hskip k (hothers k (by omega) (by omega))]

theorem runs_tick (hon : ledgerOn s = true) (hcls : clsValid s n = true) (hothers : ∀ m, m < 16 → m ≠ n → clsValid s m = false)
    (hdecay : s.fget A.ledgerScoreCtl A.ledgerScoreCtl_decayShift = 0)
    (hevict : s.flag (A.ledgerLoop n) A.ledgerLoop_evictEn = false) (hsound : SoundReads s 0x09 r) (hres : Writable s res 8) :
    Runs (.tick part r res) s fun t =>
      t.fget (A.ledgerLoopState n) A.ledgerLoopState_th = (tickTh s n).1 ∧ Stored res (leBytes 8 0) s t ∧
      RegsKept [A.ledgerStatus, A.ledgerLoopState n] s t ∧ ListFrame s t := by
  have hn := lt_of_clsValid hcls
  have hstat := writes_fset (l := []) s status_mem_count A.ledgerStatus_evictFull 0
  have hcfg := hstat.cfgKept (by simpa using status_mem_count)
  generalize hv : s.fset A.ledgerStatus A.ledgerStatus_evictFull 0 = v at hstat hcfg
  have hfar {a : Nat} (ha : A.ledgerStatus < a) (w : State) (f g : Nat × Nat) (x : Nat) :
      (w.fset A.ledgerStatus f x).fget a g = w.fget a g :=
    fget_fset_ne w f g x (by rw [ledger_home (by decide), ledger_home (by simp only [A.ledgerStatus] at ha; omega)]; omega)
  have hth : tickTh v n = tickTh s n := by
    have hloop := hcfg.loopReg hn
    unfold tickTh
    rw [fget_congr hloop, fget_congr hloop, fget_congr hloop, fget_congr hloop, fget_congr hloop, flag_congr hloop, hcfg.perLode hn, ← hv,
      hfar (by simp only [A.ledgerStatus, A.ledgerLoopState]; omega), hfar (by simp only [A.ledgerStatus, A.ledgerCount]; omega)]
  have hstill : v.tickClass n = loopSet v n := by
    refine tickClass_still (by rwa [hcfg.clsValid]) ?_ ((flag_congr (hcfg.loopReg hn) _).trans hevict)
    exact (fget_congr (hcfg A.ledgerScoreCtl (by simp [ledgerCfgRegs])) _).trans hdecay
  have hfold : (List.range 16).foldl State.tickClass v = loopSet v n :=
    (foldl_tickClass hstill hn (fun m hm hne => by rw [hcfg.clsValid]; exact hothers m hm hne) le_rfl).trans (if_pos hn)
  have hloop := writes_loopSet v hn
  have hset := writes_fset (l := []) (loopSet v n) status_mem_count A.ledgerStatus_evictFull 1
  obtain ⟨w, hw, hwrites, honly, hval⟩ : ∃ w, lopTick s part r = (w, 0, false) ∧ Writes [] [A.ledgerStatus, A.ledgerLoopState n] s w ∧
      LedgerOnly s w ∧ w.fget (A.ledgerLoopState n) A.ledgerLoopState_th = (tickTh s n).1 := by
    have hfull : LedgerOnly s (loopSet v n) := (hv ▸ ledgerOnly_fset s _ _ _ : LedgerOnly s v).trans (ledgerOnly_loopSet v n)
    unfold lopTick
    dsimp only
    rw [hv, hfold, opOk_zero]
    split
    · exact ⟨_, rfl, hstat.mono.trans hloop.mono, hfull, (th_loopSet v n).trans (by rw [hth])⟩
    · refine ⟨_, rfl, hstat.mono.trans (hloop.mono.trans hset.mono), hfull.trans (ledgerOnly_fset _ _ _ _), ?_⟩
      rw [hfar (by simp only [A.ledgerStatus, A.ledgerLoopState]; omega), th_loopSet, hth]
  refine runs_row rowOf_tick hon hsound hw hwrites honly.listFrame hres
    fun t _ hlast hread hkept hregs hframe => ⟨?_, ⟨?_, ?_⟩, hregs, hframe⟩
  · rw [← hval]
    exact fget_congr (hlast.regs _ (by simp)) _
  · rwa [length_leBytes]
  · rw [length_leBytes]
    exact fun a ha => hkept a (by simpa using ha)

end Sys2Proof.Machine
end

section
/-! PROOFS. The flush of a page, a class made valid, and the pools of the page ledger as a whole (R344, R346, R359). -/

namespace Sys2Proof.Machine

open Sys2Proof

variable {l : List (Nat × Nat)} {rs : List Nat} {s t u : State} {part res n : Nat} {r : OpRec} {q : SeqRec} {seq layer page : Nat}

/-! ### What keeps the Bobbin and the flushes -/

/-- From `s` to `t` the ledger alone changed, and neither its Bobbin nor its flushes. -/
structure ListsKept (s t : State) : Prop where
  only : LedgerOnly s t
  flushes : t.flushes = s.flushes
  poolWaits : t.poolWaits = s.poolWaits
  bobbin : t.bobbin = s.bobbin

theorem ListsKept.refl (s : State) : ListsKept s s := ⟨.refl s, rfl, rfl, rfl⟩

theorem ListsKept.trans (h : ListsKept s t) (h' : ListsKept t u) : ListsKept s u :=
  ⟨h.only.trans h'.only, h'.flushes.trans h.flushes, h'.poolWaits.trans h.poolWaits, h'.bobbin.trans h.bobbin⟩

theorem listsKept_storeBytes (s : State) (a : Nat) (bs : List Byte) : ListsKept s (s.storeBytes a bs) := by
  obtain ⟨u, hu, -, heq⟩ := storeBytes_eq_writeBytes s a bs
  refine ⟨ledgerOnly_storeBytes s a bs, ?_, ?_, ?_⟩ <;> rw [heq, memOnly_writeBytes u a bs, hu.1]

theorem listsKept_setEntry (s : State) (n f : Nat) (e : PageEntry) : ListsKept s (s.setEntry n f e) := by
  obtain ⟨-, hflushes, hwaits, hbobbin⟩ := listsKept_storeBytes s (entryAddr s n f) (leBytes 8 e.word)
  exact ⟨ledgerOnly_setEntry s n f e, hflushes, hwaits, hbobbin⟩

theorem listsKept_dropRef (s : State) (h : Nat) : ListsKept s (s.dropRef h) := by
  unfold State.dropRef
  split
  · exact listsKept_setEntry s _ _ _
  · exact .refl s

theorem listsKept_advanceSeq (s : State) (i fuel : Nat) : ListsKept s (s.advanceSeq i fuel) := by
  unfold State.advanceSeq
  split
  · exact .refl s
  · exact listsKept_storeBytes s _ _

/-- A request resumed changes the requests, and those being resumed. -/
theorem resumed_eq (s : State) (i : Nat) : ∃ rq rs, s.resumed i = { s with requests := rq, resuming := rs } := by
  unfold State.resumed
  split
  · exact ⟨s.requests, s.resuming, rfl⟩
  · exact ⟨_, _, rfl⟩

/-! ### The flush -/

theorem exec_flush (hon : ledgerOn s = true)
    (hfind : (s.flushes.find? fun f => f.1 == seq && f.2.1 == layer) = some (seq, layer, page))
    (hsound : ∀ x ∈ flushReads s seq layer page, badRange s x.1 x.2 = false) :
    exec (.flush seq layer) s = .next (s.flushPage seq layer page).runDue.runPair := by
  have hnone : (flushReads s seq layer page).find? (fun x => badRange s x.1 x.2) = none :=
    List.find?_eq_none.mpr fun x hx => by simp [hsound x hx]
  change execFlush seq layer s = _
  unfold execFlush
  rw [if_pos hon, hfind]
  dsimp only
  rw [hnone]
  rfl

/-- With no free frame the flush waits for the pool. -/
theorem flushPage_waits (hseq : seqRec s seq = some q) (hfree : freeFrames s q.cls q.home = []) :
    ∃ w, s.flushPage seq layer page = { s with poolWaits := w } ∧ (seq, layer, page) ∈ w := by
  unfold State.flushPage
  rw [hseq]
  dsimp only
  rw [takeFrameOf_of_empty hfree]
  dsimp only
  split
  · next h => exact ⟨s.poolWaits, rfl, List.contains_iff_mem.mp h⟩
  · exact ⟨_, rfl, by simp⟩

theorem poolEmpty_shown (s : State) (v : Nat) (h : s.poolWaits ≠ []) : (ledgerStatusReg s v).testBit 1 = true := by
  have hwaits : (!s.poolWaits.isEmpty) = true := by simp [h]
  unfold ledgerStatusReg
  dsimp only
  rw [testBit_setFld _ (by decide), if_neg (by decide), testBit_setFld _ (by decide), if_pos (by decide), hwaits]
  decide

/-- With a free frame the flush is done: its lines are free, and it waits no longer. -/
theorem flushPage_done (hseq : seqRec s seq = some q) (hfree : freeFrames s q.cls q.home ≠ []) :
    ∃ u rq rs, s.flushPage seq layer page = { u with requests := rq, resuming := rs } ∧ LedgerOnly { s with free := s.free + 1 } u ∧
      u.flushes = s.flushes.filter (fun f => f != (seq, layer, page)) ∧
      u.poolWaits = s.poolWaits.filter (fun f => f != (seq, layer, page)) ∧
      u.bobbin = s.bobbin.filter fun b => !(b.seq == seq && b.layer == layer && b.pos / pgPos s q.cls == page) := by
  obtain ⟨f, -, htake⟩ := takeFrameOf_of_free (part := q.owner) hfree
  have hentry := listsKept_setEntry { s with free := s.free + 1 } q.cls f (takenEntry q.owner (nextGen (pageEntry s q.cls f).gen))
  generalize hv : State.setEntry { s with free := s.free + 1 } q.cls f (takenEntry q.owner (nextGen (pageEntry s q.cls f).gen)) = v
    at htake hentry
  unfold State.flushPage
  rw [hseq]
  dsimp only
  rw [htake]
  dsimp only
  have hdropped (w : State) (k : Nat) : ListsKept w (if k = 0 then w else w.dropRef k) := by
    split
    · exact .refl w
    · exact listsKept_dropRef w k
  have hslot (a k i h : Nat) (bs : List Byte) : ListsKept { s with free := s.free + 1 }
      ((if k = 0 then v.storeBytes a bs else (v.storeBytes a bs).dropRef k).setSlot q i h) :=
    hentry.trans ((listsKept_storeBytes v a bs).trans ((hdropped _ k).trans (listsKept_storeBytes _ _ _)))
  generalize hw : State.setSlot _ q (page * q.layers + layer) _ = w
  have hkept : ListsKept { s with free := s.free + 1 } w := hw ▸ hslot _ _ _ _ _
  have hlines := ledgerOnly_freeLines w fun b => b.seq == seq && b.layer == layer && b.pos / pgPos s q.cls == page
  have heq := freeLines_eq w fun b => b.seq == seq && b.layer == layer && b.pos / pgPos s q.cls == page
  generalize hx : (w.freeLines fun b => b.seq == seq && b.layer == layer && b.pos / pgPos s q.cls == page) = x at hlines heq
  have hdone : LedgerOnly { s with free := s.free + 1 } (x.dropFlushes fun f => f == (seq, layer, page)) :=
    hkept.only.trans (hlines.trans rfl)
  have hflushes : (x.dropFlushes fun f => f == (seq, layer, page)).flushes = s.flushes.filter (fun f => f != (seq, layer, page)) := by
    rw [heq]; exact congrArg _ hkept.flushes
  have hwaits : (x.dropFlushes fun f => f == (seq, layer, page)).poolWaits = s.poolWaits.filter (fun f => f != (seq, layer, page)) := by
    rw [heq]; exact congrArg _ hkept.poolWaits
  have hbobbin : (x.dropFlushes fun f => f == (seq, layer, page)).bobbin =
      s.bobbin.filter fun b => !(b.seq == seq && b.layer == layer && b.pos / pgPos s q.cls == page) := by
    rw [heq]; exact congrArg _ hkept.bobbin
  generalize x.dropFlushes (fun f => f == (seq, layer, page)) = y at hdone hflushes hwaits hbobbin
  split
  · have hset := listsKept_storeBytes y (seqAddr y seq) (restoredRec y seq q q.cap).bytes
    obtain ⟨rq, rs, hres⟩ := resumed_eq (y.setSeq seq (restoredRec y seq q q.cap)) seq
    exact ⟨_, rq, rs, hres, hdone.trans hset.only, hset.flushes.trans hflushes, hset.poolWaits.trans hwaits, hset.bobbin.trans hbobbin⟩
  · have hadv := listsKept_advanceSeq y seq 64
    exact ⟨_, _, _, rfl, hdone.trans hadv.only, hadv.flushes.trans hflushes, hadv.poolWaits.trans hwaits, hadv.bobbin.trans hbobbin⟩

/-- Where nothing waits for the ledger's work, it starts nothing else. -/
theorem runDue_runPair_of_nil (hdue : s.duePauses = []) (hcold : s.coldQ = []) (hwork : s.pair.work = []) (hheld : s.pair.held = []) :
    s.runDue.runPair = s := by
  rw [runDue_of_nil hcold hdue, runPair_of_nil hwork hheld]

theorem runs_flush_waits (hon : ledgerOn s = true) (hseq : seqRec s seq = some q)
    (hfind : (s.flushes.find? fun f => f.1 == seq && f.2.1 == layer) = some (seq, layer, page))
    (hsound : ∀ x ∈ flushReads s seq layer page, badRange s x.1 x.2 = false) (hdue : s.duePauses = []) (hcold : s.coldQ = [])
    (hwork : s.pair.work = []) (hheld : s.pair.held = []) (hfree : freeFrames s q.cls q.home = []) :
    Runs (.flush seq layer) s fun t => (seq, layer, page) ∈ t.poolWaits ∧ t = { s with poolWaits := t.poolWaits } ∧
      (ledgerStatusReg t (t.reg A.ledgerStatus)).testBit 1 = true := by
  obtain ⟨w, hw, hmem⟩ := flushPage_waits (layer := layer) (page := page) hseq hfree
  refine ⟨_, exec_flush hon hfind hsound, ?_⟩
  rw [hw, runDue_runPair_of_nil (s := { s with poolWaits := w }) hdue hcold hwork hheld]
  exact ⟨hmem, rfl, poolEmpty_shown _ _ (List.ne_nil_of_mem hmem)⟩

theorem runs_flush_done (hon : ledgerOn s = true) (hseq : seqRec s seq = some q)
    (hfind : (s.flushes.find? fun f => f.1 == seq && f.2.1 == layer) = some (seq, layer, page))
    (hsound : ∀ x ∈ flushReads s seq layer page, badRange s x.1 x.2 = false) (hdue : s.duePauses = []) (hcold : s.coldQ = [])
    (hwork : s.pair.work = []) (hheld : s.pair.held = []) (hfree : freeFrames s q.cls q.home ≠ []) :
    Runs (.flush seq layer) s fun t =>
      t.flushes = s.flushes.filter (fun f => f != (seq, layer, page)) ∧
      t.poolWaits = s.poolWaits.filter (fun f => f != (seq, layer, page)) ∧
      t.bobbin = s.bobbin.filter (fun b => !(b.seq == seq && b.layer == layer && b.pos / pgPos s q.cls == page)) ∧
      t.free = s.free + 1 ∧ ListFrame s t := by
  obtain ⟨u, rq, rs, hu, honly, hflushes, hwaits, hbobbin⟩ := flushPage_done (layer := layer) (page := page) hseq hfree
  refine ⟨_, exec_flush hon hfind hsound, ?_⟩
  rw [hu, runDue_runPair_of_nil (s := { u with requests := rq, resuming := rs }) (by rw [honly]; exact hdue) (by rw [honly]; exact hcold)
    (by rw [honly]; exact hwork) (by rw [honly]; exact hheld)]
  exact ⟨hflushes, hwaits, hbobbin, by rw [honly], honly.listFrame⟩

/-! ### A class made valid -/

/-- A write inside a range is a write of the range. -/
theorem Writes.widen {a b k m : Nat} (h : Writes [(b, m)] rs s t) (hlo : a ≤ b) (hhi : b + m ≤ a + k) : Writes [(a, k)] rs s t := by
  refine ⟨h.mem, h.bad, fun hm c hc => h.kept hm c fun x hx i hi => ?_, h.regs⟩
  obtain rfl := List.mem_singleton.mp hx
  have hcanon := hc (a, k) (by simp) (b - a + i) (show b - a + i < k by simp only at hi; omega)
  rwa [show (a, k).1 + (b - a + i) = (b, m).1 + i by simp only; omega] at hcanon

/-- Two words of a range that is memory throughout share no byte. -/
theorem sep_words {a k i j : Nat} (hcanon : ∀ x, x < 8 * k → (canon (a + x)).isSome = true) (hi : i < k) (hj : j < k) (hij : i ≠ j) :
    Sep (a + 8 * i, 8) (a + 8 * j, 8) := by
  intro x hx y hy e
  simp only [Nat.add_assoc] at hx hy e
  have := canon_inj hcanon (i := 8 * i + x) (j := 8 * j + y) (by omega) (by omega) e
  omega

theorem entryAddr_add (s : State) (n f : Nat) : entryAddr s n f = entryAddr s n 0 + 8 * f := rfl

/-- One word stored in every entry of a class. -/
def entriesStored (s : State) (n v k : Nat) : State :=
  (List.range k).foldl (fun s f => s.storeBytes (entryAddr s n f) (leBytes 8 v)) s

theorem entriesStored_succ (s : State) (n v k : Nat) : entriesStored s n v (k + 1) =
    (entriesStored s n v k).storeBytes (entryAddr (entriesStored s n v k) n k) (leBytes 8 v) := by
  unfold entriesStored
  rw [List.range_succ, List.foldl_append]
  rfl

theorem ledgerOnly_entriesStored (s : State) (n v k : Nat) : LedgerOnly s (entriesStored s n v k) :=
  .foldl (fun _ _ => ledgerOnly_storeBytes _ _ _) _ s

theorem entriesStored_spec {v m : Nat} (hn : n < 16) (hw : Writable s (entryAddr s n 0) (8 * m)) {k : Nat} (hk : k ≤ m) :
    Writes [(entryAddr s n 0, 8 * m)] [] s (entriesStored s n v k) ∧
      ∀ f, f < k → word64 (entriesStored s n v k) (entryAddr s n f) = v % 2 ^ 64 := by
  induction k with
  | zero => exact ⟨.refl _ _ s, by simp⟩
  | succ k ih =>
    obtain ⟨hwrites, hwords⟩ := ih (by omega)
    have haddr : entryAddr (entriesStored s n v k) n k = entryAddr s n 0 + 8 * k := hwrites.cfgKept.entryAddr hn k
    have hentry : Writable (entriesStored s n v k) (entryAddr s n 0 + 8 * k) 8 := (hwrites.writable hw).sub (by omega) (by omega)
    have hstore := writes_storeBytes (entriesStored s n v k) (a := entryAddr s n 0 + 8 * k) (bs := leBytes 8 v)
      (by rw [length_leBytes]; exact hentry.2.2)
    rw [length_leBytes] at hstore
    rw [entriesStored_succ, haddr]
    refine ⟨hwrites.trans (hstore.widen (by omega) (by omega)), fun f hf => ?_⟩
    rcases Nat.lt_succ_iff_lt_or_eq.mp hf with hlt | rfl
    · refine (word64_of_sep (hstore.kept hentry.1) fun x hx => ?_).trans (hwords f hlt)
      rw [List.mem_singleton.mp hx, entryAddr_add]
      exact sep_words hw.2.1 (by omega) (by omega) (by omega)
    · exact word64_storeBytes v hentry (fun _ _ => rfl : MemKeptOut [] _ _)

/-- An entry that is FREE with generation 1. -/
def freshEntry : PageEntry := { ref := 0, pins := 0, owner := 0, live := 0, noEvict := false, gen := 1, score := 0 }

theorem ofWord_fresh : PageEntry.ofWord (2 ^ 38 % 2 ^ 64) = freshEntry := by decide

/-- The word that a class register takes when firmware makes the class valid. -/
def classWord (val : Nat) : Nat :=
  let w := fld val 21 1 * 2
  w + val % 2 + entryBytesOf (fld w 14 9 + 1) (64 * 2 ^ fld w 16 15) (fld w 21 17) % 2 ^ 17 * 2 ^ 22

theorem classWord_valid {val : Nat} (h : val.testBit 0 = true) : fld (classWord val % 2 ^ 64) 0 0 = 1 := by
  rw [Nat.testBit_zero, decide_eq_true_eq] at h
  unfold classWord
  rw [fld_eq]
  dsimp only
  omega

/-- The counts of a class just initialised, and the class in its initialisation. -/
def classBegun (s : State) (n frames : Nat) : State :=
  let u := (s.fset (A.ledgerCount n) A.ledgerCount_live 0).fset (A.ledgerCount n) A.ledgerCount_free frames
  { u with classInit := u.classInit.filter (· != n) ++ [n], retired := tset u.retired n 0 }

theorem exec_classValid {val : Nat} (hn : n < 16) (hval : val.testBit 0 = true) (hold : (s.reg (A.ledgerClass n)).testBit 0 = false)
    (hbusy : classBusy s n = false) (hok : classOk (fld val 21 1 * 2) = true) :
    exec (.ledgerClassValid .firmware n val) s = .next (classBegun (entriesStored (s.setReg (A.ledgerClass n) (classWord val)) n (2 ^ 38)
      (16 * perLode (s.setReg (A.ledgerClass n) (classWord val)) n)) n
      (16 * perLode (s.setReg (A.ledgerClass n) (classWord val)) n)) := by
  change execLedgerClassValid .firmware n val s = _
  unfold execLedgerClassValid
  rw [if_neg (by simp [Who.isFw, hn])]
  simp only [hold, hbusy, hval, hok, Bool.not_false, Bool.and_self, if_true, not_true_eq_false, and_false, if_false, Bool.false_eq_true,
    not_false_eq_true, and_self]
  rfl

theorem exec_classErr {val : Nat} (hn : n < 16) (hval : val.testBit 0 = true) (hold : (s.reg (A.ledgerClass n)).testBit 0 = false)
    (hbusy : classBusy s n = false) (hok : classOk (fld val 21 1 * 2) = false) :
    exec (.ledgerClassValid .firmware n val) s = .next (s.fset A.ledgerStatus A.ledgerStatus_classErr 1) := by
  change execLedgerClassValid .firmware n val s = _
  unfold execLedgerClassValid
  rw [if_neg (by simp [Who.isFw, hn])]
  simp only [hold, hbusy, hval, hok, Bool.not_false, Bool.and_self, if_true, Bool.false_eq_true, not_false_eq_true, and_self]
  rfl

theorem not_idle_shown (s : State) (v : Nat) (h : s.classInit ≠ []) : (ledgerStatusReg s v).testBit 0 = false := by
  have hquiet : ledgerQuiet s = false := by simp [ledgerQuiet, h]
  unfold ledgerStatusReg
  dsimp only
  rw [testBit_setFld _ (by decide), if_neg (by decide), testBit_setFld _ (by decide), if_neg (by decide), testBit_setFld _ (by decide),
    if_pos (by decide), hquiet]
  decide

theorem not_ledgerOn_of_classInit (h : s.classInit ≠ []) : ledgerOn s = false := by simp [ledgerOn, h]

theorem listFrame_classBegun (s : State) (n frames : Nat) : ListFrame s (classBegun s n frames) := ⟨rfl, rfl, rfl, rfl⟩

theorem writes_classBegun (s : State) (hn : n < 16) (frames : Nat) : Writes [] [A.ledgerCount n] s (classBegun s n frames) :=
  (writes_fset s (ledgerCount_mem hn) _ _).trans ((writes_fset _ (ledgerCount_mem hn) _ _).trans .same)

theorem runs_classValid {val : Nat} (hn : n < 16) (hval : val.testBit 0 = true) (hold : (s.reg (A.ledgerClass n)).testBit 0 = false)
    (hbusy : classBusy s n = false) (hok : classOk (fld val 21 1 * 2) = true)
    (hw : Writable s (entryAddr s n 0) (8 * (16 * perLode s n))) :
    Runs (.ledgerClassValid .firmware n val) s fun t =>
      clsValid t n = true ∧ n ∈ t.classInit ∧ ledgerOn t = false ∧ (ledgerStatusReg t (t.reg A.ledgerStatus)).testBit 0 = false ∧
      (∀ f, f < 16 * perLode s n → pageEntry t n f = freshEntry) ∧ t.fget (A.ledgerCount n) A.ledgerCount_live = 0 ∧
      RegsKept [A.ledgerClass n, A.ledgerCount n] s t ∧ ListFrame s t := by
  have hlow : 0x030004400000 ≤ A.ledgerClass n := by simp only [A.ledgerClass]; omega
  have hclass := writes_setReg s (classWord val) (ledger_home hlow) (.inr (by omega))
  have hne {a : Nat} (ha : 0x030004400000 ≤ a) (hne : A.ledgerClass n ≠ a) :
      (s.setReg (A.ledgerClass n) (classWord val)).reg a = s.reg a := reg_setReg_ne s _ (by rwa [ledger_home hlow, ledger_home ha])
  have hper : perLode (s.setReg (A.ledgerClass n) (classWord val)) n = perLode s n :=
    fget_congr (hne (by simp only [A.ledgerPool]; omega) (by simp only [A.ledgerClass, A.ledgerPool]; omega)) _
  have haddr (f : Nat) : entryAddr (s.setReg (A.ledgerClass n) (classWord val)) n f = entryAddr s n f := by
    unfold entryAddr
    rw [fget_congr (hne (by simp only [A.ledgerEntryBase]; omega) (by simp only [A.ledgerClass, A.ledgerEntryBase]; omega))]
  have hvalid : (s.setReg (A.ledgerClass n) (classWord val)).fget (A.ledgerClass n) A.ledgerClass_valid = 1 := by
    unfold State.fget
    rw [reg_setReg_self]
    exact classWord_valid hval
  have hexec := exec_classValid hn hval hold hbusy hok
  rw [hper] at hexec
  have honly₀ : LedgerOnly s (s.setReg (A.ledgerClass n) (classWord val)) := ledgerOnly_setReg s _ _
  generalize s.setReg (A.ledgerClass n) (classWord val) = v at *
  obtain ⟨hstored, hwords⟩ := entriesStored_spec (s := v) (v := 2 ^ 38) hn (by rw [haddr]; exact hclass.writable hw) le_rfl
  have honly := ledgerOnly_entriesStored v n (2 ^ 38) (16 * perLode s n)
  have hbegun := writes_classBegun (entriesStored v n (2 ^ 38) (16 * perLode s n)) hn (16 * perLode s n)
  have hcount : ∀ a ∈ [A.ledgerCount n], a ∈ ledgerCountRegs := by simpa using ledgerCount_mem hn
  have hcfg : CfgKept v (classBegun (entriesStored v n (2 ^ 38) (16 * perLode s n)) n (16 * perLode s n)) :=
    hstored.cfgKept.trans (hbegun.cfgKept hcount)
  have hinit : (classBegun (entriesStored v n (2 ^ 38) (16 * perLode s n)) n (16 * perLode s n)).classInit ≠ [] := by simp [classBegun]
  refine ⟨_, hexec, ?_, by simp [classBegun], not_ledgerOn_of_classInit hinit, not_idle_shown _ _ hinit, fun f hf => ?_, ?_, ?_, ?_⟩
  · rw [hcfg.clsValid]
    simp [clsValid, State.flag, hn, hvalid]
  · unfold pageEntry
    rw [hcfg.entryAddr hn, word64_of_sep (hbegun.kept (hstored.mem (hclass.mem hw.1))) (by simp), hwords f hf, ofWord_fresh]
  · exact (fget_fset_other _ _ _ (by decide) (by decide) (by decide) (by decide)).trans (fget_fset_self _ _ _ (by decide) (by decide))
  · exact (hclass.regs.mono (by simp)).trans ((hstored.regs.mono (by simp)).trans (hbegun.regs.mono (by simp)))
  · exact (honly₀.trans honly).listFrame.trans (listFrame_classBegun _ _ _)

theorem runs_classErr {val : Nat} (hn : n < 16) (hval : val.testBit 0 = true) (hold : (s.reg (A.ledgerClass n)).testBit 0 = false)
    (hbusy : classBusy s n = false) (hok : classOk (fld val 21 1 * 2) = false) :
    Runs (.ledgerClassValid .firmware n val) s fun t =>
      t.fget A.ledgerStatus A.ledgerStatus_classErr = 1 ∧ Kept [A.ledgerStatus] s t ∧ t = { s with regs := t.regs } := by
  have hregs := (writes_fset (l := []) s status_mem_count A.ledgerStatus_classErr 1).regs
  exact ⟨_, exec_classErr hn hval hold hbusy hok, fget_fset_self s _ _ (by decide) (by decide),
    kept_of_regsKept hregs rfl rfl rfl fun a ha => .inr (by rw [List.mem_singleton.mp ha]; decide), rfl⟩

theorem runs_classInitDone (n : Nat) (s : State) : Runs (.classInitDone n) s fun t =>
    t = { s with classInit := s.classInit.filter (· != n) } ∧
      ((∀ m ∈ s.classInit, m = n) → s.flag A.ledgerCtl A.ledgerCtl_enable = true → s.frozen = false → ledgerOn t = true) := by
  refine ⟨_, rfl, rfl, fun hall hen hfrozen => ?_⟩
  have hempty : s.classInit.filter (· != n) = [] := List.filter_eq_nil_iff.mpr fun m hm => by simp [hall m hm]
  unfold ledgerOn
  rw [show State.flag { s with classInit := s.classInit.filter (· != n) } A.ledgerCtl A.ledgerCtl_enable = true from hen]
  simp [hempty, hfrozen]

/-- Settles O26. Frames are taken through `takeFrameOf`, a tick of the one valid class is its loop, a flush is done by its page, and a class
made valid has one word stored in every entry. -/
theorem ledgerPools : Obligations.LedgerPools := by
  unfold Obligations.LedgerPools
  exact ⟨fun part r res s hon => runs_alloc hon, fun part r res s hon => refusedRow_alloc hon,
    fun part n r res s hon _ hcls => runs_tick hon hcls, errorRow_of rowOf_tick, errorRow_of rowOf_alloc, nextTh_bounds,
    fun seq layer page s q hon hseq hfind hsound hdue hcold hwork hheld =>
      ⟨runs_flush_waits hon hseq hfind hsound hdue hcold hwork hheld, runs_flush_done hon hseq hfind hsound hdue hcold hwork hheld⟩,
    fun n val s hn => runs_classValid hn, fun n val s hn => runs_classErr hn, runs_classInitDone, fun p n val s => rfl⟩

end Sys2Proof.Machine
end

section
/-! PROOFS. What no operation of a list changes: the commands, the ranges being cleared, and who owns memory (R326, R413, R425, R527). -/

namespace Sys2Proof.Machine

open Sys2Proof

variable {s t u : State} {part : Nat} {r : OpRec}

/-! ### What an operation of a list keeps -/

/-- From `s` to `t` the tracked commands, the ranges being cleared, and the region registers are as they were. -/
structure OpKept (s t : State) : Prop where
  tracked : t.tracked = s.tracked
  clearing : t.clearing = s.clearing
  regions : ∀ a, 0x030003008100 ≤ a → a < 0x03000300A000 → t.reg a = s.reg a

theorem OpKept.refl (s : State) : OpKept s s := ⟨rfl, rfl, fun _ _ _ => rfl⟩

theorem OpKept.trans (h : OpKept s t) (h' : OpKept t u) : OpKept s u :=
  ⟨h'.tracked.trans h.tracked, h'.clearing.trans h.clearing, fun a hlo hhi => (h'.regions a hlo hhi).trans (h.regions a hlo hhi)⟩

theorem OpKept.ite {p : Prop} {_ : Decidable p} (h : OpKept s t) (h' : OpKept s u) : OpKept s (if p then t else u) := by
  split <;> assumption

theorem OpKept.foldl {α : Type} {f : State → α → State} (hf : ∀ u x, OpKept u (f u x)) (l : List α) (s : State) :
    OpKept s (l.foldl f s) := by
  induction l generalizing s with
  | nil => exact .refl s
  | cons x r ih => exact (hf s x).trans (ih _)

/-- A change of other fields alone. -/
theorem OpKept.same (ht : t.tracked = s.tracked := by rfl) (hc : t.clearing = s.clearing := by rfl) (hr : t.regs = s.regs := by rfl) :
    OpKept s t := ⟨ht, hc, fun a _ _ => reg_congr hr a⟩

theorem OpKept.of_regsKept {rs : List Nat} (h : RegsKept rs s t) (ht : t.tracked = s.tracked) (hc : t.clearing = s.clearing)
    (hap : ∀ a ∈ rs, a < 0x030003008100 ∨ 0x03000300A000 ≤ a) : OpKept s t := by
  refine ⟨ht, hc, fun a hlo hhi => h a fun hmem => ?_⟩
  rw [homeAddr_low (by omega)] at hmem
  have := hap a hmem
  omega

theorem opKept_setReg (s : State) {a : Nat} (v : Nat) (h : 0x03000300A000 ≤ homeAddr a) : OpKept s (s.setReg a v) :=
  .of_regsKept (rs := [homeAddr a]) ((RegsKept.refl _ s).setReg v (by simp)) rfl rfl (by simpa using .inr h)

theorem opKept_fset (s : State) {a : Nat} (f : Nat × Nat) (v : Nat) (h : 0x030004400000 ≤ a) : OpKept s (s.fset a f v) :=
  opKept_setReg s _ (by rw [ledger_home h]; omega)

theorem opKept_storeBytes (s : State) (a : Nat) (bs : List Byte) : OpKept s (s.storeBytes a bs) := by
  obtain ⟨u, hu, -, heq⟩ := storeBytes_eq_writeBytes s a bs
  have hkept : OpKept s u :=
    .of_regsKept hu.2 hu.tracked (by rw [hu.1]) fun _ ha => (memErrRegs_apart ha).2
  have honly := memOnly_writeBytes u a bs
  rw [heq]
  exact hkept.trans (.same (by rw [honly]) (by rw [honly]) honly.regs)

theorem ownsRange_of_opKept (h : OpKept s t) (p a n : Nat) : ownsRange t p a n = ownsRange s p a n := by
  have howner (c : Nat) : ownerAt t c = ownerAt s c := by
    have hreg (k : Nat) (hk : k < 64) : t.reg (A.memRegionBase k) = s.reg (A.memRegionBase k) ∧
        t.reg (A.memRegionLimit k) = s.reg (A.memRegionLimit k) :=
      ⟨h.regions _ (by simp only [A.memRegionBase]; omega) (by simp only [A.memRegionBase]; omega),
        h.regions _ (by simp only [A.memRegionLimit]; omega) (by simp only [A.memRegionLimit]; omega)⟩
    have hhas (k : Nat) (hk : k ∈ List.range 64) : regionHas t c k = regionHas s c k := by
      obtain ⟨hbase, hlimit⟩ := hreg k (List.mem_range.mp hk)
      unfold regionHas
      rw [hbase, fget_congr hlimit]
    have hfind : (List.range 64).find? (regionHas t c) = (List.range 64).find? (regionHas s c) :=
      List.find?_congr hhas
    unfold ownerAt
    rw [hfind]
    cases hf : (List.range 64).find? (regionHas s c) with
    | none => rfl
    | some k => exact congrArg some (fget_congr (hreg k (List.mem_range.mp (List.mem_of_find?_eq_some hf))).1 _)
  unfold ownsRange
  simp only [howner]

theorem clearingAt_of_opKept (h : OpKept s t) (a n : Nat) : clearingAt t a n = clearingAt s a n := by
  unfold clearingAt
  rw [h.clearing]

/-! ### The ledger's operations -/

theorem opKept_retired (s : State) (x : Tab Nat) : OpKept s { s with retired := x } := .same

theorem opKept_setEntry (s : State) (n f : Nat) (e : PageEntry) : OpKept s (s.setEntry n f e) := by
  have hcount (v : State) (g : Nat × Nat) (x : Nat) : OpKept v (v.fset (A.ledgerCount n) g x) :=
    opKept_fset v g x (by simp only [A.ledgerCount]; omega)
  unfold State.setEntry
  exact (opKept_storeBytes s _ _).trans ((hcount _ _ _).trans ((hcount _ _ _).trans (opKept_retired _ _)))

theorem opKept_dropRef (s : State) (h : Nat) : OpKept s (s.dropRef h) := by
  unfold State.dropRef
  split
  · exact opKept_setEntry s _ _ _
  · exact .refl s

theorem opKept_bobbinUse (s : State) : OpKept s s.bobbinUse := by
  have hset (v : State) (g : Nat × Nat) (x : Nat) : OpKept v (v.fset A.ledgerBobbinUse g x) := opKept_fset v g x (by decide)
  unfold State.bobbinUse State.raiseTo
  dsimp only
  split
  · exact (hset _ _ _).trans (hset _ _ _)
  · exact hset _ _ _

theorem opKept_freeLines (s : State) (f : BobEntry → Bool) : OpKept s (s.freeLines f) := OpKept.trans .same (opKept_bobbinUse _)

theorem opKept_seqUnused (s : State) (i : Nat) : OpKept s (seqUnused s i) := .same

theorem opKept_closeSeq (s : State) (i : Nat) (q : SeqRec) : OpKept s (s.closeSeq i q) :=
  (OpKept.foldl (fun u k => opKept_dropRef u (slotHandle u q k)) _ s).trans <|
    (opKept_freeLines _ fun b => b.seq == i).trans <| (opKept_seqUnused _ i).trans (opKept_storeBytes _ _ _)

theorem opKept_advanceSeq (s : State) (i fuel : Nat) : OpKept s (s.advanceSeq i fuel) := by
  unfold State.advanceSeq
  split
  · exact .refl s
  · exact opKept_storeBytes s _ _

theorem opKept_takeFrameOf {n lode h : Nat} (htake : s.takeFrameOf n lode part = some (t, h)) : OpKept s t := by
  unfold State.takeFrameOf at htake
  split at htake
  · simp at htake
  · obtain ⟨rfl, -⟩ := Prod.mk.inj (Option.some.inj htake)
    exact OpKept.trans .same (opKept_setEntry _ _ _ _)

theorem opKept_listPage (s : State) (n f : Nat) (e : PageEntry) : OpKept s (s.listPage n f e) := by
  unfold State.listPage
  exact (opKept_storeBytes s _ _).trans (opKept_setReg _ _ (by decide))

theorem opKept_tickClass (s : State) (n : Nat) : OpKept s (s.tickClass n) := by
  have hloop (v : State) (g : Nat × Nat) (x : Nat) : OpKept v (v.fset (A.ledgerLoopState n) g x) :=
    opKept_fset v g x (by simp only [A.ledgerLoopState]; omega)
  have hdecayed (sh : Nat) (v : State) (f : Nat) : OpKept v (if (pageEntry v n f).live = pgLive ∧ sh ≠ 0 then
      v.setEntry n f { pageEntry v n f with score := (pageEntry v n f).score - (pageEntry v n f).score / 2 ^ sh } else v) :=
    .ite (opKept_setEntry v _ _ _) (.refl v)
  have hlisted (v : State) (f : Nat) : OpKept v (if v.flag A.ledgerStatus A.ledgerStatus_evictFull then v
      else if ringFull v then v.fset A.ledgerStatus A.ledgerStatus_evictFull 1 else v.listPage n f (pageEntry v n f)) :=
    .ite (.refl v) (.ite (opKept_fset v _ _ (by decide)) (opKept_listPage v _ _ _))
  have hclash (v : State) (b : Bool) (x : Nat) : OpKept v (if b then (v.fset (A.ledgerLoopState n) A.ledgerLoopState_th x).bump
      (A.ledgerLoopState n) A.ledgerLoopState_clash 1 else v.fset (A.ledgerLoopState n) A.ledgerLoopState_th x) :=
    .ite ((hloop _ _ _).trans (hloop _ _ _)) (hloop _ _ _)
  have hfold := OpKept.foldl (hdecayed (s.fget A.ledgerScoreCtl A.ledgerScoreCtl_decayShift)) (List.range (16 * perLode s n)) s
  unfold State.tickClass
  refine .ite (.refl s) ?_
  dsimp only
  generalize List.foldl _ s (List.range (16 * perLode s n)) = v at hfold ⊢
  refine hfold.trans ?_
  generalize nextTh _ _ _ _ _ _ _ _ = x
  exact .ite ((hclash v x.2 x.1).trans (.foldl hlisted _ _)) (hclash v x.2 x.1)

end Sys2Proof.Machine
end

section
/-! PROOFS. Every operation of a KVOP, SCTL or VCHAN list keeps the commands, the ranges being cleared, and who owns memory (R326, R413,
R527). -/

namespace Sys2Proof.Machine

open Sys2Proof

variable {s t u : State} {part : Nat} {r : OpRec}

/-- One of two answers, each of which keeps it. -/
theorem OpKept.iteFst {p : Prop} {_ : Decidable p} {a b : State × Nat × Bool} (h : OpKept s a.1) (h' : OpKept s b.1) :
    OpKept s (if p then a else b).1 := by
  split <;> assumption

theorem opOk_fst (s : State) (k : Nat) : (opOk s k).1 = s := rfl

/-! ### KVOP -/

theorem opKept_setSeq (s : State) (i : Nat) (q : SeqRec) : OpKept s (s.setSeq i q) := opKept_storeBytes s _ _

theorem opKept_setSlot (s : State) (q : SeqRec) (i h : Nat) : OpKept s (s.setSlot q i h) := opKept_storeBytes s _ _

theorem opKept_seqUsed (s : State) (x : List Nat) : OpKept s { s with seqUsed := x } := .same

theorem opKept_flushes (s : State) (x : List (Nat × Nat × Nat)) : OpKept s { s with flushes := x } := .same

theorem opKept_onSeq {i : Nat} {g : SeqRec → State × Nat × Bool} (hg : ∀ q, OpKept s (g q).1) : OpKept s (onSeq s part i g).1 := by
  unfold onSeq
  split
  · exact .refl s
  · split
    · exact hg _
    · exact .refl s

theorem opKept_onSlot {top : SeqRec → Nat} {g : SeqRec → Nat → State × Nat × Bool} (hg : ∀ q h, OpKept s (g q h).1) :
    OpKept s (onSlot s part r top g).1 := by
  refine opKept_onSeq fun q => ?_
  split
  · exact .refl s
  · split
    · exact .refl s
    · exact hg _ _

theorem opKept_onPage {g : PageEntry → State × Nat × Bool} (hg : ∀ e, OpKept s (g e).1) : OpKept s (onPage s part r g).1 := by
  unfold onPage
  split
  · exact .refl s
  · exact hg _

theorem opKept_lopSeqOpen : OpKept s (lopSeqOpen s part r).1 := by
  unfold lopSeqOpen
  split
  · exact .refl s
  · refine .iteFst (.refl s) ?_
    rw [opOk_fst]
    exact (opKept_storeBytes s _ _).trans ((opKept_seqUsed _ _).trans (opKept_setSeq _ _ _))

theorem opKept_lopShare : OpKept s (lopShare s part r).1 := by
  have hshared (q o : SeqRec) (v : State) (k : Nat) : OpKept v (((if slotHandle v o k = 0 then v.dropRef (slotHandle v q k) else
      (v.dropRef (slotHandle v q k)).updPage (slotHandle v o k) fun e => { e with ref := e.ref + 1 })).setSlot q k (slotHandle v o k)) :=
    (OpKept.ite (opKept_dropRef v _) ((opKept_dropRef v _).trans (opKept_setEntry _ _ _ _))).trans (opKept_setSlot _ _ _ _)
  refine opKept_onSeq fun q => opKept_onSeq fun o => .iteFst (.refl s) (.iteFst (.refl s) (.iteFst (.refl s) (.iteFst (.refl s) ?_)))
  rw [opOk_fst]
  exact (OpKept.foldl (hshared q o) _ s).trans (opKept_setSeq _ _ _)

theorem opKept_lopCow : OpKept s (lopCow s part r).1 := by
  refine opKept_onSlot fun q h => .iteFst (.refl s) ?_
  split
  · exact .refl s
  · next v n htake =>
    rw [opOk_fst]
    exact (opKept_takeFrameOf htake).trans ((opKept_storeBytes v _ _).trans ((opKept_setSlot _ _ _ _).trans (opKept_dropRef _ _)))

theorem opKept_lopPin : OpKept s (lopPin s part r).1 := opKept_onPage fun _ => .iteFst (.refl s) (opKept_setEntry s _ _ _)

theorem opKept_lopUnpin : OpKept s (lopUnpin s part r).1 := opKept_onPage fun _ => .iteFst (.refl s) (opKept_setEntry s _ _ _)

theorem opKept_lopDecref : OpKept s (lopDecref s part r).1 := opKept_onPage fun _ => .iteFst (.refl s) (opKept_setEntry s _ _ _)

theorem opKept_bobbinSet (s : State) (x : List BobEntry) : OpKept s { s with bobbin := x } := .same

theorem opKept_lopResolve : OpKept s (lopResolve s part r).1 := by
  refine opKept_onSeq fun q => .iteFst (.refl s) ?_
  rw [opOk_fst]
  exact (opKept_freeLines s _).trans ((opKept_bobbinSet _ _).trans ((opKept_setSeq _ _ _).trans
    ((opKept_flushes _ _).trans (opKept_advanceSeq _ _ _))))

theorem opKept_lopTick : OpKept s (lopTick s part r).1 := by
  have hfull (v : State) (x : Nat) : OpKept v (v.fset A.ledgerStatus A.ledgerStatus_evictFull x) := opKept_fset v _ _ (by decide)
  have hticks := (hfull s 0).trans (OpKept.foldl opKept_tickClass (List.range 16) _)
  exact .ite hticks (hticks.trans (hfull _ 1))

theorem opKept_lopAlloc : OpKept s (lopAlloc s part r).1 := by
  refine .iteFst (.refl s) ?_
  split
  · exact .refl s
  · next htake => exact opKept_takeFrameOf htake

theorem opKept_lop : OpKept s (lop s part r).1 := by
  unfold lop
  split
  · exact opKept_lopSeqOpen
  · exact opKept_onSeq fun q => opKept_closeSeq s r.seq q
  · exact opKept_lopShare
  · exact opKept_onSlot fun q h => (opKept_dropRef s h).trans (opKept_setSlot _ q r.arg 0)
  · exact opKept_lopCow
  · exact opKept_lopPin
  · exact opKept_lopUnpin
  · exact opKept_lopResolve
  · exact opKept_lopTick
  · exact opKept_onPage fun _ => opKept_setEntry s _ _ _
  · exact opKept_onPage fun _ => .refl s
  · exact opKept_lopAlloc
  · exact opKept_lopDecref
  · exact .refl s

/-! ### SCTL -/

theorem opKept_onSamp {i : Nat} {g : SampSeq → State × Nat × Bool} (hg : ∀ x, OpKept s (g x).1) : OpKept s (onSamp s part i g).1 := by
  unfold onSamp
  split
  · exact .refl s
  · split
    · exact hg _
    · exact .refl s

theorem opKept_setSamp (s : State) (i : Nat) (x : SampSeq) : OpKept s (s.setSamp i x) := .same

theorem opKept_raiseP (s : State) (src ty p payload : Nat) (slot : Option Nat) : OpKept s (s.raiseP src ty p payload slot) := .same

theorem opKept_cancels (s : State) (x : List (Nat × Nat)) : OpKept s { s with cancels := x } := .same

theorem opKept_sopGroupCancel : OpKept s (sopGroupCancel s part r).1 := by
  refine .iteFst (.refl s) ?_
  rw [opOk_fst]
  exact (OpKept.ite (.refl s) (opKept_cancels s _)).trans (opKept_raiseP _ _ _ _ _ _)

theorem opKept_sopSeqReset : OpKept s (sopSeqReset s part r).1 := by
  unfold sopSeqReset
  split
  · split
    · exact opKept_setSamp s _ _
    · exact .refl s
  · exact opKept_setSamp s _ _

theorem opKept_sopSeqLoop : OpKept s (sopSeqLoop s part r).1 := opKept_onSamp fun _ => .iteFst (.refl s) (opKept_setSamp s _ _)

theorem opKept_sop : OpKept s (sop s part r).1 := by
  unfold sop
  split
  · exact opKept_sopGroupCancel
  · exact .same
  · exact opKept_sopSeqReset
  · exact opKept_sopSeqLoop
  · exact opKept_onSamp fun _ => .refl s
  · exact .refl s

/-! ### VCHAN -/

theorem opKept_opOwned {vd : Nat} {g : VChan → State × Nat × Bool} (hg : ∀ c, OpKept s (g c).1) : OpKept s (opOwned vd s part r g).1 := by
  unfold opOwned
  split
  · exact .refl s
  · split
    · exact .refl s
    · split
      · exact hg _
      · exact .refl s

theorem opKept_setChan (s : State) (c : VChan) : OpKept s (s.setChan c) := .same

theorem opKept_vopOpen {vd : Nat} : OpKept s (vopOpen vd s part r).1 := by
  unfold vopOpen
  split
  · exact .refl s
  · exact .iteFst (.refl s) (.iteFst (.refl s) (.iteFst (.refl s) (opKept_setChan s _)))

theorem opKept_dropFlows (s : State) (c : VChan) : OpKept s (s.dropFlows c) := by
  have hflow (l : List Nat) (hl : ∀ k ∈ l, k < 128) (v : State) : OpKept v (l.foldl (fun s k =>
      let a := A.nxFlow (k / 64) (k % 64)
      if s.flag a A.nxFlow_en ∧ s.fget a A.nxFlow_vd = c.vd ∧ s.fget a A.nxFlow_chan = c.chan then s.fset a A.nxFlow_en 0 else s) v) := by
    induction l generalizing v with
    | nil => exact .refl v
    | cons k ks ih =>
      have hk := hl k (by simp)
      refine OpKept.trans (.ite (opKept_setReg v _ ?_) (.refl v)) (ih (fun j hj => hl j (by simp [hj])) _)
      rw [homeAddr_low (by simp only [A.nxFlow]; omega)]
      simp only [A.nxFlow]
      omega
  unfold State.dropFlows
  exact .ite (.refl s) (hflow _ (fun k hk => List.mem_range.mp hk) s)

theorem opKept_vchans (s : State) (x : Tab VChan) : OpKept s { s with vchans := x } := .same

theorem opKept_vopClose {vd : Nat} : OpKept s (vopClose vd s part r).1 :=
  opKept_opOwned fun c => .iteFst (.refl s) ((opKept_vchans s _).trans (opKept_dropFlows _ c))

theorem opKept_vopKeypic {vd : Nat} : OpKept s (vopKeypic vd s part r).1 :=
  opKept_opOwned fun _ => .iteFst (opKept_raiseP s _ _ _ _ _) (.refl s)

theorem opKept_vopQuery {vd : Nat} : OpKept s (vopQuery vd s part r).1 := by
  unfold vopQuery
  split
  · exact .refl s
  · split
    · exact .refl s
    · exact .iteFst (.refl s) (.refl s)

theorem opKept_vop {vd : Nat} : OpKept s (vop vd s part r).1 := by
  unfold vop
  split
  · exact opKept_vopOpen
  · exact opKept_vopClose
  · exact opKept_vopKeypic
  · exact opKept_vopQuery
  · exact .refl s

end Sys2Proof.Machine
end

section
/-! PROOFS. A command that ends keeps its position; KVOP, SCTL and VCHAN take their order stream, apply their records in order and complete
(R326 to R328, R413, R527). -/

namespace Sys2Proof.Machine

open Sys2Proof

/-- From `s` to `t` the command of a slot keeps its position, and its record is not written. -/
def PosKept (slot : Nat) (s t : State) : Prop :=
  ∀ u, s.cmd? slot = some u → ∃ v, t.cmd? slot = some v ∧ v.work.pos = u.work.pos ∧ (u.compl ≠ .kept → v.compl ≠ .kept)

variable {slot : Nat} {s t u : State}

theorem PosKept.trans (h : PosKept slot s t) (h' : PosKept slot t u) : PosKept slot s u := by
  intro c hc
  obtain ⟨v, hv, hpos, hcompl⟩ := h c hc
  obtain ⟨w, hw, hpos', hcompl'⟩ := h' v hv
  exact ⟨w, hw, hpos'.trans hpos, hcompl' ∘ hcompl⟩

theorem PosKept.of_tracked (h : t.tracked = s.tracked) : PosKept slot s t := fun u hu => ⟨u, (cmd?_congr h slot).trans hu, rfl, id⟩

theorem PosKept.refl (slot : Nat) (s : State) : PosKept slot s s := .of_tracked rfl

theorem PosKept.when {p : Prop} {_ : Decidable p} (h : PosKept slot s t) : PosKept slot s (if p then t else s) := by
  split
  · exact h
  · exact .refl slot s

theorem PosKept.updCmd (s : State) (k : Nat) (f : Tracked → Tracked)
    (hf : ∀ u, (f u).slot = u.slot ∧ (f u).work.pos = u.work.pos ∧ (u.compl ≠ .kept → (f u).compl ≠ .kept) := by
      exact fun u => ⟨rfl, rfl, id⟩) : PosKept slot s (s.updCmd k f) := by
  intro u hu
  refine ⟨if slot = k then f u else u, ?_, ?_⟩
  · rw [cmd?_updCmd s k slot f fun u => (hf u).1, hu]
    rfl
  · split
    · exact (hf u).2
    · exact ⟨rfl, id⟩

theorem posKept_unpinAll (s : State) (k : Tracked) : PosKept slot s (s.unpinAll k) := by
  have hunpinned : LedgerOnly s (k.pinned.foldl State.unpinPage s) := .foldl ledgerOnly_unpinPage _ s
  unfold State.unpinAll
  split
  · exact .refl slot s
  · exact (PosKept.of_tracked (by rw [hunpinned])).trans (.updCmd _ _ _)

theorem posKept_discardInputs (s : State) (k : Tracked) : PosKept slot s (s.discardInputs k) :=
  (PosKept.of_tracked (tracked_releases k _ s)).trans (.updCmd _ _ _)

theorem posKept_leftUnit (s : State) (status detail : Nat) (c : Tracked) : PosKept slot s (s.leftUnit slot status detail c) := by
  have hstop : PosKept slot s (s.updCmd slot fun u => u.stopped status detail) := .updCmd s slot _
  unfold State.leftUnit
  dsimp only
  generalize s.updCmd slot (fun u => u.stopped status detail) = s₁ at hstop
  refine hstop.trans ((PosKept.of_tracked (tracked_withdrawTask s₁ slot)).trans ((posKept_unpinAll (s₁.withdrawTask slot) c).trans ?_))
  generalize (s₁.withdrawTask slot).unpinAll c = s₂
  refine PosKept.trans (t := { s₂ with
    facets := s₁.facets.filter fun x => x.2.slot != slot
    landings := s₁.landings.filter fun l => l.slot != slot }) (.of_tracked rfl) ?_
  exact (posKept_discardInputs _ c).trans (.updCmd _ _ _)

theorem posKept_startRun (s : State) (k : Nat) : PosKept slot s (s.startRun k) := by
  have hopen : PosKept slot s ((s.updCmd k fun t => { t with phase := .running, started := true, moved := s.tb.n, stallSent := false
      }).openWindows k) := .trans (.updCmd s k _) (.of_tracked rfl)
  unfold State.startRun
  dsimp only
  split
  · exact hopen.trans (.of_tracked (dbgOnly_trace ..).tracked)
  · exact hopen

theorem posKept_promote (s : State) (st unit : Nat) : PosKept slot s (s.promote st unit) := by
  unfold State.promote
  split
  · exact .refl slot s
  · split
    · exact posKept_startRun s _
    · exact .refl slot s

theorem posKept_raiseCompletion (s : State) (k : Tracked) : PosKept slot s (s.raiseCompletion k) := by
  have hraised : PosKept slot s (s.updCmd k.slot fun u => { u with compl := .raised }) :=
    .updCmd s k.slot _ fun u => ⟨rfl, rfl, fun _ => by simp⟩
  unfold State.raiseCompletion
  dsimp only
  split
  · exact .refl slot s
  · split
    · refine hraised.trans (.of_tracked ?_)
      rw [cancelsOnly_applyCancels]
      rfl
    · exact hraised.trans (.of_tracked rfl)

theorem posKept_checkDrain {c : Tracked} (hc : s.cmd? slot = some c) (hcompl : c.compl ≠ .kept) :
    ∃ v, (s.checkDrain slot).cmd? slot = some v ∧ v.work.pos = c.work.pos := by
  unfold State.checkDrain
  rw [hc]
  dsimp only
  split
  · have hreport : PosKept slot s (if c.compl == .none then s.reportEnd c else s) := .when (.of_tracked (tracked_reportEnd s c))
    generalize (if c.compl == .none then s.reportEnd c else s) = s₁ at hreport ⊢
    have hended : PosKept slot s (s₁.updCmd slot fun v => { v with phase := .ended }) := hreport.trans (.updCmd s₁ slot _)
    generalize s₁.updCmd slot (fun v => { v with phase := .ended }) = s₂ at hended ⊢
    have hbusy : PosKept slot s (if c.station < 48 then { s₂ with busyAt := tset s₂.busyAt c.station s₂.tb.n } else s₂) :=
      hended.trans (.when (.of_tracked rfl))
    generalize (if c.station < 48 then { s₂ with busyAt := tset s₂.busyAt c.station s₂.tb.n } else s₂) = s₃ at hbusy ⊢
    have hraised : PosKept slot s (if c.compl == .none then s₃.raiseCompletion c else s₃) :=
      hbusy.trans (.when (posKept_raiseCompletion s₃ c))
    generalize (if c.compl == .none then s₃.raiseCompletion c else s₃) = s₄ at hraised ⊢
    have hpromoted : PosKept slot s (match c.place with | some (st, k) => s₄.promote st k | none => s₄) := by
      split
      · exact hraised.trans (posKept_promote s₄ _ _)
      · exact hraised
    obtain ⟨v, hv, hpos, hkept⟩ := hpromoted c hc
    exact ⟨v, cmd?_sweep hv (hkept hcompl), hpos⟩
  · exact ⟨c, hc, rfl⟩

/-- A running command that ends keeps its position. -/
theorem pos_finish {c : Tracked} (hc : s.cmd? slot = some c) (hrun : c.phase = .running) (hcompl : c.compl ≠ .kept) (status detail : Nat) :
    ∃ v, (s.finish slot status detail).cmd? slot = some v ∧ v.work.pos = c.work.pos := by
  obtain ⟨u, hu, hpos, hkept⟩ := posKept_leftUnit s status detail c c hc
  obtain ⟨v, hv, hpos'⟩ := posKept_checkDrain hu (hkept hcompl)
  rw [finish_of_running hc hrun]
  exact ⟨v, hv, hpos'.trans hpos⟩

/-! ### One step of a list -/

/-- The next record of a list, and the addresses of it and of its result. -/
abbrev recAddr (t : Tracked) : Nat := opw t.opb 4 47 0 + 16 * t.work.pos
abbrev resAddr (t : Tracked) : Nat := opw t.opb 5 47 0 + 8 * t.work.pos
abbrev nextRec (s : State) (t : Tracked) : OpRec := opRecOf (softBytes s (recAddr t) 16)

/-- A command runs, open, with its order stream taken, and has a record to apply. -/
structure ListReady (s : State) (slot op : Nat) (t : Tracked) : Prop where
  running : runningCmd s slot op = some t
  opened : t.work.opened = true
  noTile : ((t.ins[0]?).bind fun b => b.window.head?) = none
  taken : t.ins.all (fun b => b.lastIn) = true
  more : t.work.pos < opw t.opb 6 15 0 + 1

/-- A command's count after an operation. -/
def Tracked.counted (t : Tracked) (bad : Bool) : Tracked :=
  { t with work := { t.work with pos := t.work.pos + 1, fails := if bad then t.work.fails + 1 else t.work.fails } }

/-- The state after the next record of a list. -/
def recApplied (f : State → Nat → OpRec → State × Nat × Bool) (s : State) (slot : Nat) (t : Tracked) : State :=
  let p := f (s.memIn t (recAddr t) 16) t.part (nextRec s t)
  (p.1.storeOwned t (resAddr t) (leBytes 8 p.2.1)).updCmd slot fun u => u.counted p.2.2

section
variable {op det : Nat} {f : State → Nat → OpRec → State × Nat × Bool} {reads : State → OpRec → List (Nat × Nat)} {c : Tracked}

theorem listStep_opens (hrun : runningCmd s slot op = some c) (hopen : c.work.opened = false) : listStep op det f reads slot s =
    if opw c.opb 4 47 0 % 16 = 0 ∧ opw c.opb 5 47 0 % 8 = 0 ∧ ownsRange s c.part (opw c.opb 4 47 0) (16 * (opw c.opb 6 15 0 + 1)) ∧
        ownsRange s c.part (opw c.opb 5 47 0) (8 * (opw c.opb 6 15 0 + 1)) then
      .next (s.updCmd slot fun u => { u with work := { u.work with opened := true } })
    else .next (s.finish slot St.cmdError det) := by
  unfold listStep
  rw [hrun]
  dsimp only
  rw [if_pos hopen]
  rfl

theorem listStep_orders (hrun : runningCmd s slot op = some c) (hopen : c.work.opened = true) {b : InBind} {x : Tile} {r : List Tile}
    (hb : c.ins[0]? = some b) (hw : b.window = x :: r) : listStep op det f reads slot s = .next (s.takeReleased slot 0 (2 ^ 32)) := by
  unfold listStep
  rw [hrun]
  dsimp only
  rw [if_neg (by simp [hopen]), show ((c.ins[0]?).bind fun b => b.window.head?) = some x by simp [hb, hw]]
  rfl

/-- With its order stream taken and a record left, a list waits, ends, or applies it. -/
theorem listStep_ready (h : ListReady s slot op c) : listStep op det f reads slot s =
    if clearingAt s (recAddr c) 16 ∨ clearingAt s (resAddr c) 8 then .next s
    else if ¬ ownsRange s c.part (recAddr c) 16 then .next (s.readDropped c [recAddr c] 16)
    else if badRange s (recAddr c) 16 then .next (s.readFault slot (recAddr c) 16)
    else match (reads s (nextRec s c)).find? fun r => badRange s r.1 r.2 with
    | some r => .next (s.readFault slot r.1 r.2)
    | none => .next (if c.work.pos + 1 = opw c.opb 6 15 0 + 1 ∧ c.outs.isEmpty then
        (recApplied f s slot c).reach slot St.done Det.none else recApplied f s slot c) := by
  obtain ⟨hrun, hopen, hno, htaken, hmore⟩ := h
  unfold listStep
  rw [hrun]
  dsimp only
  rw [if_neg (by simp [hopen]), hno]
  dsimp only
  rw [if_neg (by simp [htaken]), if_pos hmore]
  rfl

theorem listStep_applies (h : ListReady s slot op c) (hrec : clearingAt s (recAddr c) 16 = false)
    (hres : clearingAt s (resAddr c) 8 = false) (hown : ownsRange s c.part (recAddr c) 16 = true)
    (hgood : badRange s (recAddr c) 16 = false) (hreads : ∀ x ∈ reads s (nextRec s c), badRange s x.1 x.2 = false) :
    listStep op det f reads slot s = .next (if c.work.pos + 1 = opw c.opb 6 15 0 + 1 ∧ c.outs.isEmpty then
      (recApplied f s slot c).reach slot St.done Det.none else recApplied f s slot c) := by
  have hnone : (reads s (nextRec s c)).find? (fun r => badRange s r.1 r.2) = none :=
    List.find?_eq_none.mpr fun x hx => by simp [hreads x hx]
  rw [listStep_ready h, if_neg (by simp [hrec, hres]), if_neg (by simp [hown]), if_neg (by simp [hgood]), hnone]

/-- The command of a list after its next record. -/
theorem cmd?_recApplied (hkept : ∀ u part r, OpKept u (f u part r).1) (hc : s.cmd? slot = some c) :
    ∃ bad, (recApplied f s slot c).cmd? slot = some (c.counted bad) := by
  unfold recApplied
  dsimp only
  refine ⟨_, cmd?_updCmd_self (c := c) ?_⟩
  refine (cmd?_congr ((tracked_storeOwned _ c _ _).trans (hkept _ _ _).tracked) slot).trans ?_
  exact (cmd?_congr (dbgOnly_memIn s c (recAddr c) 16).tracked slot).trans hc

/-- The result of a record in a range of the command's own. -/
theorem recApplied_of_owned (hkept : ∀ u part r, OpKept u (f u part r).1) (hres : clearingAt s (resAddr c) 8 = false)
    (hown : ownsRange s c.part (resAddr c) 8 = true) : ∃ n, n ≤ 1 ∧ recApplied f s slot c =
      (((f (s.memIn c (recAddr c) 16) c.part (nextRec s c)).1.storeBytes (resAddr c)
        (leBytes 8 (f (s.memIn c (recAddr c) 16) c.part (nextRec s c)).2.1)).memOut c (resAddr c) 8).updCmd slot fun u =>
          { u with work := { u.work with pos := u.work.pos + 1, fails := u.work.fails + n } } := by
  have hdbg := dbgOnly_memIn s c (recAddr c) 16
  have hall : OpKept s (f (s.memIn c (recAddr c) 16) c.part (nextRec s c)).1 :=
    (OpKept.of_regsKept hdbg.2 hdbg.tracked (by rw [hdbg.1]) fun _ => dbgRegs_apart).trans (hkept _ _ _)
  unfold recApplied State.storeOwned
  dsimp only
  rw [length_leBytes, if_neg (by simp [clearingAt_of_opKept hall, hres]), if_pos (by rwa [ownsRange_of_opKept hall])]
  cases (f (s.memIn c (recAddr c) 16) c.part (nextRec s c)).2.2 with
  | false => exact ⟨0, by omega, rfl⟩
  | true => exact ⟨1, le_rfl, rfl⟩

end

end Sys2Proof.Machine
end

section
/-! PROOFS. KVOP, SCTL and VCHAN as list commands (R326 to R328, R413, R527): O33. -/

namespace Sys2Proof.Machine

open Sys2Proof

variable {slot op det : Nat} {s t u : State} {c : Tracked}

/-- A command that steps a list: which states it steps in, and with which operation for its station. -/
structure StepsList (cmd : Nat → Instr) (op det : Nat) (on : State → Prop) (f : Tracked → State → Nat → OpRec → State × Nat × Bool)
    (reads : State → OpRec → List (Nat × Nat)) (rows : List (Nat × (Tracked → OpRec → Nat → Instr))) : Prop where
  steps : ∀ slot s c, on s → runningCmd s slot op = some c → exec (cmd slot) s = listStep op det (f c) reads slot s
  rests : ∀ slot s, ¬ on s → Idle (cmd slot) s
  kept : ∀ c u part r, OpKept u (f c u part r).1
  memIn : ∀ s c a n, on s → on (s.memIn c a n)
  readsMemIn : ∀ s c a n r, reads (s.memIn c a n) r = reads s r
  row : ∀ e ∈ rows, ∀ u c r res, on u → r.op = e.1 → (∀ x ∈ reads u r, badRange u x.1 x.2 = false) →
    exec (e.2 c r res) u = .next ((f c u c.part r).1.storeBytes res (leBytes 8 (f c u c.part r).2.1))

section
variable {cmd : Nat → Instr} {on : State → Prop} {f : Tracked → State → Nat → OpRec → State × Nat × Bool}
  {reads : State → OpRec → List (Nat × Nat)} {rows : List (Nat × (Tracked → OpRec → Nat → Instr))}

/-- Ending is reached from the state after a record, too. -/
theorem StepsList.compl_counted {c : Tracked} (h : c.compl = .none) (bad : Bool) : (c.counted bad).compl ≠ .kept := by
  simp [Tracked.counted, h]

theorem StepsList.listCommand (h : StepsList cmd op det on f reads rows) : ListCommand cmd op det on reads rows where
  opens slot s c hon hrun hopen hal hal' hown hown' := by
    obtain ⟨hc, -⟩ := runningCmd_eq_some hrun
    refine ⟨_, (h.steps slot s c hon hrun).trans ((listStep_opens hrun hopen).trans (if_pos ⟨hal, hal', hown, hown'⟩)), ?_, ?_, rfl⟩
    · exact ⟨_, cmd?_updCmd_self hc, rfl⟩
    · exact kept_of_regs rfl rfl rfl rfl _
  misaligned slot s c hon hrun hopen hal _ hcompl := by
    obtain ⟨hc, hphase, -⟩ := runningCmd_eq_some hrun
    refine ⟨_, (h.steps slot s c hon hrun).trans ((listStep_opens hrun hopen).trans (if_neg fun hok => ?_)), ?_⟩
    · exact hal.elim (fun hne => hne hok.1) fun hne => hne hok.2.1
    · exact reached_finish hc hphase (by simp [hcompl]) _ _
  waits slot a res s c hrun hopen hno htaken hmore ha hres hclear := by
    by_cases hon : on s
    · subst ha hres
      exact (h.steps slot s c hon hrun).trans ((listStep_ready ⟨hrun, hopen, hno, htaken, hmore⟩).trans (if_pos hclear))
    · exact h.rests slot s hon
  ends slot a s c hon hrun hopen hstation hno htaken hmore ha hrec hres hown hbad _ hcompl := by
    obtain ⟨hc, hphase, -⟩ := runningCmd_eq_some hrun
    subst ha
    have herr := errOnly_logUncorrected s ((firstBad s (recAddr c) 16).getD 0) (some c.part)
    refine ⟨s.readFault slot (recAddr c) 16, ?_, ?_⟩
    · rw [h.steps slot s c hon hrun, listStep_ready ⟨hrun, hopen, hno, htaken, hmore⟩, if_neg (by simp [hrec, hres]),
        if_neg (by simp [hown]), if_pos hbad]
    · unfold State.readFault
      rw [hc]
      dsimp only
      rw [if_neg (by omega)]
      exact reached_finish ((cmd?_congr herr.tracked slot).trans hc) hphase (by simp [hcompl]) _ _
  advances slot a res s c hon hrun hopen _ hcompl hno htaken hmore ha hres hclear hclear' hown hgood hreads := by
    obtain ⟨hc, hphase, -⟩ := runningCmd_eq_some hrun
    subst ha hres
    obtain ⟨bad, hbad⟩ := cmd?_recApplied (h.kept c) hc
    refine ⟨_, (h.steps slot s c hon hrun).trans
      (listStep_applies ⟨hrun, hopen, hno, htaken, hmore⟩ hclear hclear' hown hgood hreads), ?_⟩
    split
    · exact pos_finish hbad hphase (StepsList.compl_counted hcompl bad) _ _
    · exact ⟨_, hbad, rfl⟩
  completes slot a res s c hon hrun hopen _ hcompl hno htaken hpos houts ha hres hclear hclear' hown hgood hreads := by
    obtain ⟨hc, hphase, -⟩ := runningCmd_eq_some hrun
    subst ha hres
    obtain ⟨bad, hbad⟩ := cmd?_recApplied (h.kept c) hc
    refine ⟨_, (h.steps slot s c hon hrun).trans
      ((listStep_applies ⟨hrun, hopen, hno, htaken, by omega⟩ hclear hclear' hown hgood hreads).trans
        (by rw [if_pos ⟨by rw [hpos], by rw [houts]; rfl⟩])), ?_⟩
    exact reached_finish hbad hphase (StepsList.compl_counted hcompl bad) _ _
  orders slot s c b x r hon hrun hopen hb hw := by
    obtain ⟨hc, -⟩ := runningCmd_eq_some hrun
    obtain ⟨u, hu, hins, hwork, -⟩ := cmd?_takeReleased hc hb hw (2 ^ 32)
    obtain ⟨hevents, hkept⟩ := takeReleased_frame s slot 0 (2 ^ 32)
    exact ⟨_, (h.steps slot s c hon hrun).trans (listStep_orders hrun hopen hb hw), ⟨u, _, hu, hins, rfl, hwork⟩, hevents, hkept⟩
  applies e he slot a res s c hon hrun hopen hno htaken hmore ha hres hclear hclear' hown hown' hgood hreads hop := by
    subst ha hres
    obtain ⟨n, hn, happlied⟩ := recApplied_of_owned (h.kept c) hclear' hown'
    have hdbg := dbgOnly_memIn s c (recAddr c) 16
    refine ⟨_, n, h.row e he _ c _ (resAddr c) (h.memIn s c _ _ hon) hop fun x hx => ?_, hn, ?_⟩
    · rw [h.readsMemIn] at hx
      exact badRange_of_badLines (fun k hk => by rwa [hdbg.badLines]) (hreads x hx)
    · rw [← happlied]
      refine (h.steps slot s c hon hrun).trans
        ((listStep_applies ⟨hrun, hopen, hno, htaken, by omega⟩ hclear hclear' hown hgood hreads).trans ?_)
      rw [if_neg (by omega)]

end

/-! ### KVOP -/

/-- What an operation of the ledger reads is told by the registers that shape it, and by memory. -/
theorem lopReads_congr (h : CfgKept s t) (hw : ∀ a, word64 t a = word64 s a) (r : OpRec) : lopReads t r = lopReads s r := by
  have hseq (q : Nat) : seqRec t q = seqRec s q := seqRec_of_words h fun i _ => hw _
  have hslot (o : SeqRec) (k : Nat) : slotHandle t o k = slotHandle s o k := hw _
  have hframe (o : SeqRec) (k : Nat) (ho : o.cls < 16) : (frameAddr t o.cls k, pgPos t o.cls * entryBytes t o.cls) =
      (frameAddr s o.cls k, pgPos s o.cls * entryBytes s o.cls) := by
    rw [h.frameAddr ho, h.pgPos ho, h.entryBytes ho]
  have hentry (k : Nat) : entryAddr t (hClass k) (hFrame k) = entryAddr s (hClass k) (hFrame k) := h.entryAddr (hClass_lt k) _
  have hpool (n f : Nat) (hn : clsValid s n = true) : entryAddr t n f = entryAddr s n f := h.entryAddr (lt_of_clsValid hn) f
  have hper (n : Nat) (hn : clsValid s n = true) : perLode t n = perLode s n := h.perLode (lt_of_clsValid hn)
  have hvalid : clsValid t = clsValid s := funext h.clsValid
  unfold lopReads
  dsimp only
  rw [hvalid]
  simp only [h.seqAddr, hseq, hslot, hentry]
  split
  case h_1 | h_2 | h_3 | h_6 | h_7 | h_8 | h_9 | h_10 | h_11 | h_14 => rfl
  case h_4 | h_5 =>
    cases ho : seqRec s r.seq with
    | none => rfl
    | some o => simp only [hframe o _ (fits_of_seqRec ho).cls]
  case h_12 =>
    refine List.map_congr_left fun n hn => ?_
    have hn' : clsValid s n = true := (List.mem_filter.mp hn).2
    rw [hpool n 0 hn', hper n hn']
  case h_13 =>
    split
    · next hn => rw [hper _ hn, hpool _ _ hn]
    · rfl

/-- A row of the ledger is what KVOP does for the same record. -/
theorem kvopRow {f : State → Nat → OpRec → State × Nat × Bool} {cmd : Nat → OpRec → Nat → Instr} (hrow : RowOf op f cmd)
    (hlop : ∀ s part r, r.op = op → lop s part r = f s part r := by intro s part r h; unfold lop; rw [h]; rfl) :
    ∀ (u : State) (c : Tracked) (r : OpRec) (res : Nat), ledgerOn u = true → r.op = op →
      (∀ x ∈ lopReads u r, badRange u x.1 x.2 = false) →
      exec (cmd c.part r res) u = .next ((lop u c.part r).1.storeBytes res (leBytes 8 (lop u c.part r).2.1)) := by
  intro u c r res hon hop hsound
  rw [hlop u c.part r hop]
  refine exec_row hrow hon fun x hx => hsound x ?_
  rwa [← hop] at hx

theorem ledgerOn_memIn (s : State) (c : Tracked) (a n : Nat) (h : ledgerOn s = true) : ledgerOn (s.memIn c a n) = true := by
  have hdbg := dbgOnly_memIn s c a n
  have hctl : (s.memIn c a n).flag A.ledgerCtl A.ledgerCtl_enable = s.flag A.ledgerCtl A.ledgerCtl_enable :=
    flag_congr (hdbg.cfgKept _ (by simp [ledgerCfgRegs])) _
  unfold ledgerOn at h ⊢
  rw [hctl, hdbg.1]
  exact h

theorem exec_kvop (h : ledgerOn s = true) : exec (.kvop slot) s = listStep 0x52 0x167 lop lopReads slot s := by
  change execKvop slot s = _
  exact if_pos h

theorem exec_kvop_off (h : ¬ ledgerOn s = true) : Idle (.kvop slot) s := by
  change execKvop slot s = _
  exact if_neg h

theorem stepsList_kvop : StepsList .kvop 0x52 0x167 (fun s => ledgerOn s = true) (fun _ => lop) lopReads
    [(0x01, fun t r a => .seqOpen t.part r a), (0x02, fun t r a => .seqClose t.part r a), (0x03, fun t r a => .share t.part r a),
      (0x04, fun t r a => .drop t.part r a), (0x05, fun t r a => .cow t.part r a), (0x06, fun t r a => .pin t.part r a),
      (0x07, fun t r a => .unpin t.part r a), (0x08, fun t r a => .resolve t.part r a), (0x09, fun t r a => .tick t.part r a),
      (0x0A, fun t r a => .noevict t.part r a), (0x0B, fun t r a => .kvopQuery t.part r a),
      (0x0C, fun t r a => .alloc t.part r a), (0x0D, fun t r a => .decref t.part r a)] where
  steps _ _ _ hon _ := exec_kvop hon
  rests _ _ hoff := exec_kvop_off hoff
  kept _ _ _ _ := opKept_lop
  memIn := ledgerOn_memIn
  readsMemIn s c a n r := by
    have hdbg := dbgOnly_memIn s c a n
    exact lopReads_congr hdbg.cfgKept (fun b => congrArg leNat (readBytes_congr hdbg.kept.2 b 8)) r
  row := by
    simp only [List.forall_mem_cons, List.not_mem_nil, false_imp_iff, implies_true, and_true]
    exact ⟨kvopRow rowOf_seqOpen, kvopRow rowOf_seqClose, kvopRow rowOf_share, kvopRow rowOf_drop, kvopRow rowOf_cow,
      kvopRow rowOf_pin, kvopRow rowOf_unpin, kvopRow rowOf_resolve, kvopRow rowOf_tick, kvopRow rowOf_noevict,
      kvopRow rowOf_kvopQuery, kvopRow rowOf_alloc, kvopRow rowOf_decref⟩

/-! ### SCTL and VCHAN -/

/-- The row of an operation that stands alone is what its list command does for the same record. -/
theorem exec_opRow {f g : State → Nat → OpRec → State × Nat × Bool} {e : Instr} {part res : Nat} {r : OpRec}
    (hexec : exec e s = opRow g part r res s) (hop : f s part r = g s part r) :
    exec e s = .next ((f s part r).1.storeBytes res (leBytes 8 (f s part r).2.1)) := by
  rw [hexec, hop]
  rfl

theorem stepsList_sctl : StepsList .sctl 0x61 0x184 (fun _ => True) (fun _ => sop) (fun _ _ => [])
    [(0x01, fun t r a => .groupCancel t.part r a), (0x02, fun t r a => .groupClear t.part r a),
      (0x03, fun t r a => .seqReset t.part r a), (0x04, fun t r a => .seqLoop t.part r a),
      (0x05, fun t r a => .seqQuery t.part r a)] where
  steps _ _ _ _ _ := rfl
  rests _ _ hoff := absurd trivial hoff
  kept _ _ _ _ := opKept_sop
  memIn _ _ _ _ _ := trivial
  readsMemIn _ _ _ _ _ := rfl
  row := by
    simp only [List.forall_mem_cons, List.not_mem_nil, false_imp_iff, implies_true, and_true]
    refine ⟨?_, ?_, ?_, ?_, ?_⟩ <;> exact fun u c r res _ hop _ => exec_opRow rfl (by unfold sop; rw [hop]; rfl)

theorem stepsList_vchan : StepsList .vchan 0x68 0x1A0 (fun _ => True) (fun t => vop (t.station - 54)) vopReads
    [(1, fun t r a => .vchanOpen (t.station - 54) t.part r a), (2, fun t r a => .vchanClose (t.station - 54) t.part r a),
      (3, fun t r a => .keypic (t.station - 54) t.part r a), (4, fun t r a => .vchanQuery (t.station - 54) t.part r a)] where
  steps slot s c _ hrun := by
    obtain ⟨hc, -⟩ := runningCmd_eq_some hrun
    change execVchan slot s = _
    unfold execVchan
    rw [hc]
    rfl
  rests _ _ hoff := absurd trivial hoff
  kept _ _ _ _ := opKept_vop
  memIn _ _ _ _ _ := trivial
  readsMemIn _ _ _ _ _ := rfl
  row := by
    simp only [List.forall_mem_cons, List.not_mem_nil, false_imp_iff, implies_true, and_true]
    refine ⟨?_, ?_, ?_, ?_⟩ <;> exact fun u c r res _ hop _ => exec_opRow rfl (by unfold vop; rw [hop]; rfl)

/-! ### The last tile of KVOP -/

/-- The tile that carries the count of a list's failed operations. -/
def failsTile (c : Tracked) : Tile := mkTile 0x01 1 8 true (leBytes 4 c.work.fails ++ leBytes 4 0)

theorem listStep_ends {f : State → Nat → OpRec → State × Nat × Bool} {reads : State → OpRec → List (Nat × Nat)}
    (hrun : runningCmd s slot op = some c) (hopen : c.work.opened = true) (hins : c.ins = []) (hpos : c.work.pos = opw c.opb 6 15 0 + 1) :
    listStep op det f reads slot s = .next ((s.formTile slot 0 (failsTile c)).reach slot St.done Det.none) := by
  unfold listStep
  rw [hrun]
  dsimp only
  rw [if_neg (by simp [hopen]), hins]
  dsimp only [List.getElem?_nil, Option.bind_none]
  rw [if_neg (by simp), if_neg (by omega)]
  rfl

theorem runs_kvop_last {o : OutBind} (hon : ledgerOn s = true) (hrun : runningCmd s slot 0x52 = some c) (hopen : c.work.opened = true)
    (hins : c.ins = []) (hpos : c.work.pos = opw c.opb 6 15 0 + 1) (houts : c.outs = [o]) (hformed : o.formed < 2 ^ 32 - 1) :
    Runs (.kvop slot) s fun t' => Reached slot 0 0 t' ∧ ∃ (u : Tracked) (p : OutBind) (x : Tile), t'.cmd? slot = some u ∧
      u.outs[0]? = some p ∧ p.queue = o.queue ++ [x] ∧ x.last = true ∧ x.payload = leBytes 4 c.work.fails ++ leBytes 4 0 := by
  obtain ⟨hc, hphase, -, hstatus, -⟩ := runningCmd_eq_some hrun
  have ho : c.outs[0]? = some o := by rw [houts]; rfl
  have hform := formTile_eq hc ho hstatus hformed (failsTile c)
  have hc' := cmd?_updCmd_self (f := fun u => u.withTile 0 (stampTile c o (failsTile c))) hc
  have houts' : (c.withTile 0 (stampTile c o (failsTile c))).outs.all (fun p => p.queue.isEmpty) = false := by
    simp [Tracked.withTile, houts]
  obtain ⟨u, hu, hst, heq⟩ := cmd?_finish_of_queue hc' hphase (status := St.done) (detail := Det.none) rfl houts'
  refine ⟨_, (exec_kvop hon).trans (listStep_ends hrun hopen hins hpos), ?_⟩
  rw [hform]
  exact ⟨⟨u, hu, hst⟩, u, _, _, hu, by rw [heq]; exact outs_withTile ho _, rfl, rfl, rfl⟩

/-- Settles O33. One lemma for each branch of a list's step; an operation keeps the commands and who owns memory, so its result goes where
the row of the operation alone stores it. -/
theorem listCommandsApplyTheirRecords : Obligations.ListCommandsApplyTheirRecords := by
  unfold Obligations.ListCommandsApplyTheirRecords
  exact ⟨stepsList_kvop.listCommand,
    fun slot s t o hon hrun hopen _ _ hins hpos houts => runs_kvop_last hon hrun hopen hins hpos houts,
    stepsList_sctl.listCommand, stepsList_vchan.listCommand⟩

end Sys2Proof.Machine
end

section
/-! PROOFS. ATTN opens, and forms its output tiles; ATTN_BWD forms the tiles of dQ (R304 to R312, R321, R324). -/

namespace Sys2Proof.Machine

open Sys2Proof

variable {slot : Nat} {s t u : State} {k : Tracked} {c : AttnCfg} {es : List SeqEnt} {o : OutBind}

/-! ### Opening -/

theorem exec_attn_unopened (hrun : runningCmd s slot 0x50 = some k) (hopen : k.work.opened = false) :
    exec (.attn slot) s = .next (s.attnOpen slot k (AttnCfg.of k.opb)) := by
  change execAttn slot s = _
  unfold execAttn
  rw [hrun]
  dsimp only
  rw [if_neg (by simp [hopen])]
  rfl

theorem exec_attn_opened (hrun : runningCmd s slot 0x50 = some k) (hopen : k.work.opened = true) :
    exec (.attn slot) s = .next (s.attnStep slot k (AttnCfg.of k.opb)) := by
  change execAttn slot s = _
  unfold execAttn
  rw [hrun]
  dsimp only
  rw [if_pos hopen]
  rfl

theorem attnFirst_lt (s : State) (es : List SeqEnt) : (attnFirst s es).1 < 16 := by
  unfold attnFirst
  split
  · next r hr =>
    obtain ⟨e, -, he⟩ := Option.bind_eq_some_iff.mp hr
    exact (fits_of_seqRec he).cls
  · decide

section
variable {st : Nat} (h : DbgOnly (dbgRegs st) s u)
include h

/-- What is counted changes no record of a sequence. -/
theorem seqRec_of_dbgOnly (q : Nat) : seqRec u q = seqRec s q :=
  seqRec_of_words h.cfgKept fun _ _ => congrArg leNat (readBytes_congr h.kept.2 _ _)

theorem attnFirst_of_dbgOnly (es : List SeqEnt) : attnFirst u es = attnFirst s es := by
  unfold attnFirst
  simp only [seqRec_of_dbgOnly h]

theorem seqRefused_of_dbgOnly (k : Tracked) (c : AttnCfg) (cls layers : Nat) (e : SeqEnt) :
    seqRefused u k c cls layers e = seqRefused s k c cls layers e := by
  unfold seqRefused
  rw [seqRec_of_dbgOnly h]
  cases hr : seqRec s e.seq with
  | none => rfl
  | some r =>
    have hlt : r.cls < 16 := (fits_of_seqRec hr).cls
    dsimp only
    rw [h.cfgKept.clsHkv hlt, h.cfgKept.pgPos hlt]

theorem attnListCheck_of_dbgOnly (k : Tracked) (c : AttnCfg) (bs : List Byte) : attnListCheck u k c bs = attnListCheck s k c bs := by
  have hlt := attnFirst_lt s (seqEnts c.nseq bs)
  unfold attnListCheck
  dsimp only
  rw [attnFirst_of_dbgOnly h, h.cfgKept.clsFmt hlt, funext (seqRefused_of_dbgOnly h k c (attnFirst s (seqEnts c.nseq bs)).1
    (attnFirst s (seqEnts c.nseq bs)).2)]

end

theorem runs_attn_open {bs : List Byte} (hrun : runningCmd s slot 0x50 = some k) (hopen : k.work.opened = false) (hin : k.ins[3]? = none)
    (hcfg : c = AttnCfg.of k.opb) (hbs : bs = softBytes s c.addr (16 * c.nseq)) (hcheck : attnCheck s k c = none)
    (hgood : badRange s c.addr (16 * c.nseq) = false) (hclear : clearingAt s c.addr (16 * c.nseq) = false)
    (hrecs : ∀ e ∈ seqEnts c.nseq bs, badRange s (seqAddr s e.seq) 32 = false) (hlist : attnListCheck s k c bs = none) :
    Runs (.attn slot) s fun t' =>
      (∃ u : Tracked, t'.cmd? slot = some u ∧ u.work.opened = true ∧ u.loaded = [bs] ∧
        u.work.attn = some (AttnRun.mk (attnFirst s (seqEnts c.nseq bs)).1 (attnFirst s (seqEnts c.nseq bs)).2 none [])) ∧
      t'.events = s.events ∧ Kept (dbgRegs k.station) s t' := by
  obtain ⟨hc, -, hop, -⟩ := runningCmd_eq_some hrun
  subst hcfg
  have hexec := exec_attn_unopened hrun hopen
  have hgo : s.attnOpen slot k (AttnCfg.of k.opb) = State.attnOpen.go s slot k (AttnCfg.of k.opb) := by
    unfold State.attnOpen
    rw [hin]
  unfold State.attnOpen.go at hgo
  rw [hcheck] at hgo
  dsimp only at hgo
  obtain ⟨u, hdbg, hload⟩ := openRanges_of_sound hc (by rw [hop]; decide) (own := []) (by simp)
    (load := [((AttnCfg.of k.opb).addr, 16 * (AttnCfg.of k.opb).nseq)]) (by simpa using hclear) (by simpa using hgood) _
  have hsound : (seqEnts (AttnCfg.of k.opb).nseq bs).find? (fun e => badRange u (seqAddr u e.seq) 32) = none := by
    refine List.find?_eq_none.mpr fun e he => ?_
    rw [hdbg.cfgKept.seqAddr, badRange_of_badLines (fun l hl => by rwa [hdbg.badLines]) (hrecs e he)]
    simp
  rw [hgo, hload] at hexec
  simp only [List.map_cons, List.map_nil, ← hbs, List.getElem?_cons_zero, Option.getD_some, hsound,
    attnListCheck_of_dbgOnly hdbg, hlist, attnFirst_of_dbgOnly hdbg] at hexec
  refine ⟨_, hexec, ?_, hdbg.events, hdbg.kept.trans (kept_of_regs rfl rfl rfl rfl _)⟩
  exact ⟨_, cmd?_updCmd_self (cmd?_engineOpened ((cmd?_congr hdbg.tracked slot).trans hc) [bs]), rfl, rfl, rfl⟩

/-! ### Tiles of rows -/

/-- A tile of rows whose position and reports the command has gathered. -/
theorem cmd?_gather_formTile (hc : s.cmd? slot = some k) (ho : k.outs[0]? = some o) (hst : k.status = none)
    (hformed : o.formed < 2 ^ 32 - 1) (pos flags sat : Nat) (x : Tile) :
    ∃ u p, ((s.gather slot pos flags sat).formTile slot 0 x).cmd? slot = some u ∧ u.work.pos = pos ∧ u.outs[0]? = some p ∧
      p.formed = o.formed + 1 ∧ p.queue = o.queue ++ [stampTile k o x] := by
  have hg : (s.gather slot pos flags sat).cmd? slot = some (k.gathered pos flags sat) := cmd?_updCmd_self hc
  rw [formTile_eq hg ho hst hformed]
  exact ⟨_, _, cmd?_updCmd_self hg, rfl, outs_withTile (c := k.gathered pos flags sat) ho _, rfl, rfl⟩

theorem gather_formTile_eq (hc : s.cmd? slot = some k) (ho : k.outs[0]? = some o) (hst : k.status = none)
    (hformed : o.formed < 2 ^ 32 - 1) (pos flags sat : Nat) (x : Tile) :
    (s.gather slot pos flags sat).formTile slot 0 x =
      { s with tracked := ((s.gather slot pos flags sat).formTile slot 0 x).tracked } := by
  have hg : (s.gather slot pos flags sat).cmd? slot = some (k.gathered pos flags sat) := cmd?_updCmd_self hc
  rw [formTile_eq hg ho hst hformed]
  rfl

theorem attnStep_forms {n : Nat} (hes : es = attnEnts k c)
    (hn : n = min (rowsPerTile (clsDim s (attnCls k) * unitBytes c.out)) (totalRows es * c.hq - k.work.pos)) (hpos : 0 < n)
    (hrows : k.work.pos + n ≤ (attnRows k).length) (hroom : roomFor s k = true) :
    s.attnStep slot k c = s.attnForm slot k c (totalRows es * c.hq) n := by
  subst hes
  unfold State.attnStep
  dsimp only
  rw [← hn]
  exact if_pos ⟨decide_eq_true ⟨hpos, hrows⟩, hroom⟩

theorem runs_attn_form {n : Nat} (hon : AttnOn s slot k c es)
    (hn : n = min (rowsPerTile (clsDim s (attnCls k) * unitBytes c.out)) (totalRows es * c.hq - k.work.pos)) (hpos : 0 < n)
    (hrows : k.work.pos + n ≤ (attnRows k).length) (hroom : roomFor s k = true) (ho : k.outs[0]? = some o)
    (hformed : o.formed < 2 ^ 32 - 1) : Runs (.attn slot) s fun t' =>
      (∃ (u : Tracked) (p : OutBind) (x : Tile), t'.cmd? slot = some u ∧ u.work.pos = k.work.pos + n ∧ u.outs[0]? = some p ∧
        p.formed = o.formed + 1 ∧ p.queue = o.queue ++ [x] ∧ x.stream = o.stream ∧ x.index = o.formed ∧ x.format = c.out ∧
        (x.last = true ↔ k.work.pos + n = totalRows es * c.hq) ∧
        x.payload = (((attnRows k).drop k.work.pos).take n).flatMap AttnRow.bytes) ∧ t' = { s with tracked := t'.tracked } := by
  obtain ⟨hrun, hopen, -, hcfg, hes⟩ := hon
  obtain ⟨hc, -, -, hst, -⟩ := runningCmd_eq_some hrun
  have hexec := exec_attn_opened hrun hopen
  rw [← hcfg, attnStep_forms hes hn hpos hrows hroom] at hexec
  obtain ⟨u, p, hu, hupos, hp, hpf, hpq⟩ := cmd?_gather_formTile hc ho hst hformed (k.work.pos + n)
    ((((attnRows k).drop k.work.pos).take n).foldl (fun a r => a ||| r.flags) 0)
    ((((attnRows k).drop k.work.pos).take n).map AttnRow.sat).sum
    (streamTile c.out (clsDim s (attnCls k) * unitBytes c.out) ((((attnRows k).drop k.work.pos).take n).map AttnRow.bytes)
      (decide (k.work.pos + n = totalRows es * c.hq)) ((((attnRows k).drop k.work.pos).take n).any AttnRow.tent))
  refine ⟨_, hexec, ⟨u, p, _, hu, hupos, hp, hpf, hpq, rfl, rfl, rfl, decide_eq_true_iff, ?_⟩,
    gather_formTile_eq hc ho hst hformed _ _ _ _⟩
  exact (List.flatMap_def ..).symm

/-! ### ATTN_BWD -/

theorem exec_attnBwd_opened (hrun : runningCmd s slot 0x51 = some k) (hopen : k.work.opened = true) :
    exec (.attnBwd slot) s = .next (s.bwdStep slot k (AttnCfg.of k.opb)) := by
  change execAttnBwd slot s = _
  unfold execAttnBwd
  rw [hrun]
  dsimp only
  rw [if_pos hopen]
  rfl

/-- With its streams whole, a backward pass forms the next tile. -/
theorem bwdStep_forms {d n : Nat} {p : Pair} (hwin : ∀ b ∈ k.ins, b.window = [] ∧ b.lastIn = true) (hdim : bwdDim k c = some d)
    (hpair : attnPair c.qFmt c.pFmt = some p) (hpos : bwdPos k c d = some n)
    (hlen : ∀ i j, (i, j) ∈ [(2, 1), (3, 0)] → ((k.ins[i]?).map fun b => (streamBytes b.taken).length).getD 0 =
      ((k.ins[j]?).map fun b => (streamBytes b.taken).length).getD 0) (hroom : roomFor s k = true) :
    s.bwdStep slot k c = s.bwdForm slot k c p d n := by
  have hnone : (List.range 4).find? (fun i => k.ins[i]?.any fun b => b.window ≠ []) = none := by
    refine List.find?_eq_none.mpr fun i _ => ?_
    cases hb : k.ins[i]? with
    | none => simp
    | some b => simp [(hwin b (List.mem_of_getElem? hb)).1]
  unfold State.bwdStep
  rw [hnone]
  dsimp only
  rw [if_neg (by simpa using fun b hb => (hwin b hb).2), hdim, hpair]
  dsimp only
  rw [hpos]
  dsimp only
  rw [if_neg (not_or.mpr ⟨not_not.mpr (hlen 2 1 (by simp)), not_not.mpr (hlen 3 0 (by simp))⟩), if_pos hroom]

/-- The rows of dQ from the next position on. -/
def dqRows (k : Tracked) (c : AttnCfg) (p : Pair) (d n m : Nat) : List OutRow :=
  (List.range m).map fun i => bwdQRow k c p d n ((k.work.pos + i) / c.hq) ((k.work.pos + i) % c.hq)

theorem bwdForm_dq {d n : Nat} {p : Pair} (hper : 0 < rowsPerTile (d * 2))
    (hmore : k.work.pos + rowsPerTile (d * 2) < bwdRows k.opb * c.hq) : s.bwdForm slot k c p d n =
      (s.gather slot (k.work.pos + rowsPerTile (d * 2)) (joinRows (dqRows k c p d n (rowsPerTile (d * 2)))).flags
        (joinRows (dqRows k c p d n (rowsPerTile (d * 2)))).sat).formTile slot 0
        (streamTile c.out (d * 2) ((dqRows k c p d n (rowsPerTile (d * 2))).map OutRow.bytes) false false) := by
  have hmin : min (rowsPerTile (d * 2)) (bwdRows k.opb * c.hq - k.work.pos) = rowsPerTile (d * 2) := by omega
  have hlast : decide (k.work.pos + rowsPerTile (d * 2) = bwdRows k.opb * c.hq) = false := by simpa using hmore.ne
  unfold State.bwdForm
  dsimp only
  rw [hmin, if_pos hper, hlast]
  rfl

/-- A tile holds a row of a head dimension. -/
theorem rowsPerTile_pos {d : Nat} (h : bwdDim k c = some d) : 0 < rowsPerTile (d * 2) := by
  have hmem := List.mem_of_find?_eq_some h
  simp only [List.mem_cons, List.not_mem_nil, or_false] at hmem
  obtain rfl | rfl | rfl := hmem <;> decide

theorem runs_attnBwd_dq {d n : Nat} {p : Pair} (hrun : runningCmd s slot 0x51 = some k) (hopen : k.work.opened = true)
    (hcfg : c = AttnCfg.of k.opb) (hwin : ∀ b ∈ k.ins, b.window = [] ∧ b.lastIn = true) (hdim : bwdDim k c = some d)
    (hpair : attnPair c.qFmt c.pFmt = some p) (hpos : bwdPos k c d = some n)
    (hlen : ∀ i j, (i, j) ∈ [(2, 1), (3, 0)] → ((k.ins[i]?).map fun b => (streamBytes b.taken).length).getD 0 =
      ((k.ins[j]?).map fun b => (streamBytes b.taken).length).getD 0) (hroom : roomFor s k = true) (ho : k.outs[0]? = some o)
    (hformed : o.formed < 2 ^ 32 - 1) (hmore : k.work.pos + rowsPerTile (d * 2) < bwdRows k.opb * c.hq) :
    Runs (.attnBwd slot) s fun t' =>
      (∃ (u : Tracked) (q : OutBind) (x : Tile), t'.cmd? slot = some u ∧ u.work.pos = k.work.pos + rowsPerTile (d * 2) ∧
        u.outs[0]? = some q ∧ q.queue = o.queue ++ [x] ∧ x.index = o.formed ∧ x.last = false ∧ x.format = c.out ∧
        x.payload = (List.range (rowsPerTile (d * 2))).flatMap fun i =>
          (bwdQRow k c p d n ((k.work.pos + i) / c.hq) ((k.work.pos + i) % c.hq)).bytes) ∧
      t'.events = s.events ∧ Kept [] s t' := by
  obtain ⟨hc, -, -, hst, -⟩ := runningCmd_eq_some hrun
  have hexec := exec_attnBwd_opened hrun hopen
  rw [← hcfg, bwdStep_forms hwin hdim hpair hpos hlen hroom, bwdForm_dq (rowsPerTile_pos hdim) hmore] at hexec
  obtain ⟨u, q, hu, hupos, hq, -, hqueue⟩ := cmd?_gather_formTile hc ho hst hformed (k.work.pos + rowsPerTile (d * 2))
    (joinRows (dqRows k c p d n (rowsPerTile (d * 2)))).flags (joinRows (dqRows k c p d n (rowsPerTile (d * 2)))).sat
    (streamTile c.out (d * 2) ((dqRows k c p d n (rowsPerTile (d * 2))).map OutRow.bytes) false false)
  have heq := gather_formTile_eq hc ho hst hformed (k.work.pos + rowsPerTile (d * 2))
    (joinRows (dqRows k c p d n (rowsPerTile (d * 2)))).flags (joinRows (dqRows k c p d n (rowsPerTile (d * 2)))).sat
    (streamTile c.out (d * 2) ((dqRows k c p d n (rowsPerTile (d * 2))).map OutRow.bytes) false false)
  refine ⟨_, hexec, ⟨u, q, _, hu, hupos, hq, hqueue, rfl, rfl, rfl, ?_⟩, by rw [heq], by rw [heq]; exact kept_of_regs rfl rfl rfl rfl _⟩
  change ((dqRows k c p d n (rowsPerTile (d * 2))).map OutRow.bytes).flatten = _
  rw [dqRows, List.map_map, List.flatMap_def]
  rfl

end Sys2Proof.Machine
end

section
/-! PROOFS. ATTN reads its sequences: pages pinned together, chunks taken, rows computed and pages unpinned with their scores (R303, R310,
R317, R333, R334, R349). -/

namespace Sys2Proof.Machine

open Sys2Proof

variable {slot : Nat} {s t u : State} {k : Tracked} {c : AttnCfg} {es : List SeqEnt}

/-! ### Pages updated together -/

/-- The entries of the pages that handles name. -/
def pageEntries (s : State) (hs : List Nat) : List (Nat × Nat) := hs.map fun h => (entryAddr s (hClass h) (hFrame h), 8)

theorem pageEntries_congr (h : CfgKept s t) (hs : List Nat) : pageEntries t hs = pageEntries s hs :=
  List.map_congr_left fun k _ => by rw [h.entryAddr (hClass_lt k)]

/-- From `s` to `t` the entry of every page of a list was changed by a function, and nothing but these entries and their counts. -/
structure PagesUpdated (g : Nat → PageEntry → PageEntry) (hs : List Nat) (s t : State) : Prop where
  only : LedgerOnly s t
  kept : MemKeptOut (pageEntries s hs) s t
  regs : RegsKept (hs.map fun h => A.ledgerCount (hClass h)) s t
  entries : ∀ h ∈ hs, pageEntry t (hClass h) (hFrame h) = g h (pageEntry s (hClass h) (hFrame h))

theorem PagesUpdated.cfgKept {g : Nat → PageEntry → PageEntry} {hs : List Nat} (h : PagesUpdated g hs s t) : CfgKept s t :=
  cfgKept_of_regsKept h.regs fun a ha hc => by
    obtain ⟨k, -, rfl⟩ := List.mem_map.mp ha
    exact ledgerCfg_not_count hc (ledgerCount_mem (hClass_lt k))

/-- Pages apart from each other updated one after the other. -/
theorem pagesUpdated_foldl {op : State → Nat → State} {g : Nat → PageEntry → PageEntry} {ok : PageEntry → Prop}
    (hop : ∀ u h, handleMatches u h = true → ok (pageEntry u (hClass h) (hFrame h)) → op u h = u.updPage h (g h))
    (hfits : ∀ h e, e.Fits → ok e → (g h e).Fits) {hs : List Nat}
    (hok : ∀ h ∈ hs, handleMatches s h = true ∧ ok (pageEntry s (hClass h) (hFrame h))) (hap : Apart s (pageEntries s hs)) :
    PagesUpdated g hs s (hs.foldl op s) := by
  induction hs generalizing s with
  | nil => exact ⟨.refl s, fun _ _ => rfl, .refl _ s, by simp⟩
  | cons h hs ih =>
    obtain ⟨hmatch, hokh⟩ := hok h (by simp)
    obtain ⟨hall, hpair⟩ := hap
    obtain ⟨hsep, hrest⟩ := List.pairwise_cons.mp hpair
    have hentry : Writable s (entryAddr s (hClass h) (hFrame h)) 8 := hall _ List.mem_cons_self
    have hupd := writes_updPage s (g h) hentry.2.2
    have hcfg : CfgKept s (s.updPage h (g h)) := hupd.cfgKept (by simpa using ledgerCount_mem (hClass_lt h))
    have hother (x : Nat) (hx : x ∈ hs) : pageEntry (s.updPage h (g h)) (hClass x) (hFrame x) = pageEntry s (hClass x) (hFrame x) := by
      refine pageEntry_of_sep hcfg (hupd.kept hentry.1) (hClass_lt x) fun y hy => ?_
      rw [List.mem_singleton.mp hy]
      exact Sep.symm (hsep (_, 8) (List.mem_map.mpr ⟨x, hx, rfl⟩))
    have hrests := ih (s := s.updPage h (g h)) (fun x hx => by
        rw [handleMatches_of_entry hcfg (hother x hx), hother x hx]
        exact hok x (by simp [hx])) (by
        rw [pageEntries_congr hcfg]
        exact ⟨fun x hx => hupd.writable (hall x (List.mem_cons_of_mem _ hx)), hrest⟩)
    rw [List.foldl_cons, hop s h hmatch hokh]
    have hset := pageEntry_updPage hentry (hfits h _ (fits_pageEntry _ _ _) hokh)
    refine ⟨(ledgerOnly_setEntry s _ _ _).trans hrests.only, ?_, ?_, fun x hx => ?_⟩
    · refine MemKeptOut.trans ((hupd.kept hentry.1).mono fun x hx => List.mem_singleton.mp hx ▸ List.mem_cons_self) (hrests.kept.mono fun x hx => ?_)
      rw [pageEntries_congr hcfg] at hx
      exact List.mem_cons_of_mem _ hx
    · exact (hupd.regs.mono (by simp)).trans (hrests.regs.mono fun a ha => List.mem_cons_of_mem _ ha)
    · by_cases hmem : x ∈ hs
      · rw [hrests.entries x hmem, hother x hmem]
      · obtain rfl : x = h := (List.mem_cons.mp hx).resolve_right hmem
        rw [← hset]
        refine pageEntry_of_sep hrests.cfgKept hrests.kept (hClass_lt x) fun y hy => ?_
        rw [pageEntries_congr hcfg] at hy
        rw [hcfg.entryAddr (hClass_lt x)]
        exact hsep y hy

/-! ### Which step an ATTN takes -/

theorem no_rows_of_dry (h : AttnDry k c) (n : Nat) (b : Bool) :
    ¬ (decide (0 < n ∧ k.work.pos + n ≤ (attnRows k).length) = true ∧ b = true) := by
  rintro ⟨hd, -⟩
  have := of_decide_eq_true hd
  have := h.1
  omega

theorem no_stats_of_dry (h : AttnDry k c) (hcfg : c = AttnCfg.of k.opb) {n : Nat} (hn : c.stats = false → n = 0) (b : Bool) :
    ¬ (decide (0 < n ∧ ceilDiv (k.work.aux2 + n) (ceilDiv c.hq 32) * c.hq ≤ (attnRows k).length) = true ∧ b = true) := by
  rintro ⟨hd, -⟩
  obtain ⟨hpos, hle⟩ := of_decide_eq_true hd
  rcases h.2 with hstats | hrows
  · exact absurd (hn hstats) (by omega)
  · have hhq : 0 < c.hq := by rw [hcfg]; exact Nat.succ_pos _
    have hper : 0 < ceilDiv c.hq 32 := Nat.div_pos (by omega) (by decide)
    have hrow : 0 < ceilDiv (k.work.aux2 + n) (ceilDiv c.hq 32) := Nat.div_pos (by omega) hper
    rw [hrows, List.length_nil] at hle
    exact absurd hle (by have := Nat.mul_pos hrow hhq; omega)

/-- The rows taken from an input that is bound. -/
theorem takenRows_of_bind {i n : Nat} {q : InBind} (h : k.ins[i]? = some q) :
    ((k.ins[i]?).map fun b => rowsTaken n b.taken).getD 0 = rowsTaken n q.taken := by rw [h]; rfl

section
variable (hdry : AttnDry k c) (hcfg : c = AttnCfg.of k.opb) (hes : es = attnEnts k c)
include hdry hcfg hes

theorem attnStep_reads {v : SeqView} {o : SeqEnt × Nat × Nat} (hseq : k.work.attn.bind AttnRun.seq = some v)
    (howner : rowOwner es 0 ((attnRows k).length / c.hq) = some o) :
    s.attnStep slot k c = s.attnRead slot k c o.1 ((attnRows k).length / c.hq) v := by
  subst hes
  unfold State.attnStep
  dsimp only
  rw [if_neg (no_rows_of_dry hdry _ _), if_neg (no_stats_of_dry hdry hcfg (by intro h; simp [h]) _), hseq, howner]

theorem attnStep_begins {q : InBind} {e : SeqEnt} {base : Nat} (hseq : k.work.attn.bind AttnRun.seq = none) (hq : k.ins[0]? = some q)
    (hnext : attnNext es ((attnRows k).length / c.hq) (rowsTaken (clsDim s (attnCls k) * unitBytes c.qFmt) q.taken / c.hq)
      (if c.append ∧ ¬ k.rerun then k.work.aux else totalRows es) = some (e, base)) :
    s.attnStep slot k c = s.attnBegin slot k c e := by
  subst hes
  unfold State.attnStep
  dsimp only
  rw [if_neg (no_rows_of_dry hdry _ _), if_neg (no_stats_of_dry hdry hcfg (by intro h; simp [h]) _), hseq]
  rw [← takenRows_of_bind hq] at hnext
  rw [hnext]

theorem attnStep_appends {q kb vb : InBind} {e : SeqEnt} {i j kn : Nat} (hseq : k.work.attn.bind AttnRun.seq = none)
    (happ : c.append = true) (hrerun : k.rerun = false) (hq : k.ins[0]? = some q) (hkb : k.ins[1]? = some kb) (hvb : k.ins[2]? = some vb)
    (hnext : attnNext es ((attnRows k).length / c.hq) (rowsTaken (clsDim s (attnCls k) * unitBytes c.qFmt) q.taken / c.hq)
      k.work.aux = none)
    (hkn : kn = c.hkv * clsDim s (attnCls k) * unitBytes (clsFmt s (attnCls k))) (hk : k.work.aux < rowsTaken kn kb.taken)
    (hv : k.work.aux < rowsTaken kn vb.taken) (hmore : k.work.aux < totalRows es)
    (howner : rowOwner es 0 k.work.aux = some (e, i, j)) : s.attnStep slot k c = s.attnAppend slot k c e j kn := by
  subst hes hkn
  unfold State.attnStep
  dsimp only
  rw [if_neg (no_rows_of_dry hdry _ _), if_neg (no_stats_of_dry hdry hcfg (by intro h; simp [h]) _), hseq]
  rw [← takenRows_of_bind hq] at hnext
  rw [← takenRows_of_bind hkb] at hk
  rw [← takenRows_of_bind hvb] at hv
  have hfed : c.append = true ∧ ¬ k.rerun = true := ⟨happ, by simp [hrerun]⟩
  simp only [if_pos hfed]
  rw [hnext, if_pos ⟨hmore, hk, hv⟩, howner]

end

end Sys2Proof.Machine
end

section
/-! PROOFS. ATTN begins a sequence: it reads the list and pins the pages in one operation, or waits for a pin (R303, R317, R333,
R334). -/

namespace Sys2Proof.Machine

open Sys2Proof

variable {slot : Nat} {s t u : State} {k : Tracked} {c : AttnCfg} {es : List SeqEnt} {e : SeqEnt} {r : SeqRec}
  {todo : List (Nat × Nat)} {hs : List Nat}

/-- The sequence that an ATTN reads entered in its work. -/
def Tracked.withSeq (u : Tracked) (v : Option SeqView) : Tracked :=
  { u with work := { u.work with attn := u.work.attn.map fun a => { a with seq := v } } }

theorem Tracked.seq_withSeq (h : k.work.attn.isSome = true) (v : Option SeqView) : (k.withSeq v).work.attn.bind AttnRun.seq = v := by
  obtain ⟨a, ha⟩ := Option.isSome_iff_exists.mp h
  simp [Tracked.withSeq, ha]

theorem attnRows_withSeq (k : Tracked) (v : Option SeqView) : attnRows (k.withSeq v) = attnRows k := by
  unfold attnRows Tracked.withSeq
  cases k.work.attn <;> rfl

/-! ### A wait on the ledger -/

theorem ledgerWaits_mem_count : A.ledgerWaits ∈ ledgerCountRegs := by simp [ledgerCountRegs]

theorem cmd?_ledgerWait (hc : s.cmd? slot = some k) (why : Nat) :
    ∃ u, (s.ledgerWait slot k why).cmd? slot = some u ∧ u.work.attn = k.work.attn := by
  unfold State.ledgerWait
  split
  · exact ⟨k, hc, rfl⟩
  · exact ⟨_, cmd?_updCmd_self hc, rfl⟩

/-- A wait for a pin counts itself once and changes nothing else. -/
theorem ledgerWait_pin (s : State) (slot : Nat) (k : Tracked) :
    (k.work.fails ≠ 2 → (s.ledgerWait slot k 2).fget A.ledgerWaits A.ledgerWaits_pinWait =
      satTo 32 (s.fget A.ledgerWaits A.ledgerWaits_pinWait + 1)) ∧
    (s.ledgerWait slot k 2).events = s.events ∧ Kept [A.ledgerWaits] s (s.ledgerWait slot k 2) := by
  unfold State.ledgerWait
  split
  · next h => exact ⟨fun hne => absurd h hne, rfl, kept_of_regs rfl rfl rfl rfl _⟩
  · next h =>
    refine ⟨fun _ => ?_, rfl, ?_⟩
    · exact (fget_fset_self s _ _ (by decide) (by decide)).trans (Nat.mod_eq_of_lt (satTo_lt 32 _))
    · exact kept_of_regsKept (RegsKept.bump _ _ (.refl _ s) (by decide)) rfl rfl rfl (by decide)

/-! ### The beginning -/

/-- An ATTN that has read the list of a sequence and pinned its pages. -/
def State.seqTaken (s : State) (slot : Nat) (v : SeqView) : State := (s.updCmd slot fun u => u.withSeq (some v)).ledgerGo slot

theorem cmd?_seqTaken (hc : s.cmd? slot = some k) (v : SeqView) : (s.seqTaken slot v).cmd? slot =
    some { k.withSeq (some v) with work := { (k.withSeq (some v)).work with fails := 0 } } := cmd?_updCmd_self (cmd?_updCmd_self hc)

/-- Nothing that a sequence's beginning reads is in error. -/
theorem beginReads_sound (hreads : ∀ x ∈ attnReads s c e, badRange s x.1 x.2 = false)
    (hentries : ∀ h ∈ hs, clsValid s (hClass h) = true → badRange s (entryAddr s (hClass h) (hFrame h)) 8 = false) :
    (attnReads s c e ++ (hs.filter fun h => clsValid s (hClass h)).map fun h =>
    (entryAddr s (hClass h) (hFrame h), 8)).find? (fun x : Nat × Nat => badRange s x.1 x.2) = none := by
  refine List.find?_eq_none.mpr fun x hx => ?_
  rcases List.mem_append.mp hx with hx | hx
  · simp [hreads x hx]
  · obtain ⟨h, hh, rfl⟩ := List.mem_map.mp hx
    obtain ⟨hmem, hvalid⟩ := List.mem_filter.mp hh
    simp [hentries h hmem hvalid]

section
variable (hon : ledgerOn s = true) (hseq : seqRec s e.seq = some r) (htodo : todo = heldPlaces s e.seq r c.layer (attnLimit c r e))
  (hhs : hs = (todo.map Prod.snd).eraseDups.filter (· != 0)) (hreads : ∀ x ∈ attnReads s c e, badRange s x.1 x.2 = false)
  (hentries : ∀ h ∈ hs, clsValid s (hClass h) = true → badRange s (entryAddr s (hClass h) (hFrame h)) 8 = false)
include hon hseq htodo hhs hreads hentries

theorem attnBegin_waits (hfull : ∃ h ∈ hs, handleMatches s h = true ∧ (pageEntry s (hClass h) (hFrame h)).live = 1 ∧
    4095 ≤ (pageEntry s (hClass h) (hFrame h)).pins) : s.attnBegin slot k c e = s.ledgerWait slot k 2 := by
  have hsound := beginReads_sound hreads hentries
  subst hhs htodo
  obtain ⟨h, hh, hmatch, hlive, hpins⟩ := hfull
  unfold State.attnBegin
  simp only [hseq, hsound]
  rw [if_neg (by simp [hon]), if_pos]
  refine List.any_eq_true.mpr ⟨h, List.mem_filter.mpr ⟨hh, ?_⟩, decide_eq_true hpins⟩
  rw [hmatch, hlive]
  rfl

theorem attnBegin_pins (hlive : ∀ h ∈ hs, handleMatches s h = true ∧ (pageEntry s (hClass h) (hFrame h)).live = 1 ∧
    (pageEntry s (hClass h) (hFrame h)).pins < 4095) : ∃ v : SeqView, v.todo = todo ∧ v.pinned = hs ∧ v.held = [] ∧
      s.attnBegin slot k c e = (hs.foldl State.pinPage s).seqTaken slot v := by
  have hsound := beginReads_sound hreads hentries
  have hall : hs.filter (fun h => handleMatches s h && (pageEntry s (hClass h) (hFrame h)).live == pgLive) = hs :=
    List.filter_eq_self.mpr fun h hh => by
      obtain ⟨hmatch, hl, -⟩ := hlive h hh
      rw [hmatch, hl]; rfl
  have hplaces : todo.filter (fun x => x.2 == 0 || hs.contains x.2) = todo := List.filter_eq_self.mpr fun x hx => by
    have hmem : x.2 ∈ todo.map Prod.snd := List.mem_map_of_mem hx
    simp only [hhs, Bool.or_eq_true, beq_iff_eq, List.contains_iff_mem, List.mem_filter, List.mem_eraseDups, bne_iff_ne]
    by_cases hz : x.2 = 0
    · exact .inl hz
    · exact .inr ⟨hmem, hz⟩
  have hfree : ¬ hs.any (fun h => decide (4095 ≤ (pageEntry s (hClass h) (hFrame h)).pins)) = true := by
    rw [List.any_eq_true]
    rintro ⟨h, hh, hp⟩
    have := (hlive h hh).2.2
    have := of_decide_eq_true hp
    omega
  rw [hhs, htodo] at hall hplaces hfree hsound
  subst hhs htodo
  unfold State.attnBegin
  simp only [hseq, hsound, hall, hplaces]
  rw [if_neg (by simp [hon]), if_neg hfree]
  exact ⟨_, rfl, rfl, rfl, rfl⟩

end

theorem pinPage_eq {h : Nat} (hmatch : handleMatches u h = true)
    (hok : (pageEntry u (hClass h) (hFrame h)).live = 1 ∧ (pageEntry u (hClass h) (hFrame h)).pins < 4095) :
    u.pinPage h = u.updPage h fun e => { e with pins := e.pins + 1 } := if_pos ⟨hmatch, hok.1⟩

theorem fits_pinned {p : PageEntry} (hp : p.Fits) (hpins : p.live = 1 ∧ p.pins < 4095) : PageEntry.Fits { p with pins := p.pins + 1 } :=
  { hp with pins := by have := hpins.2; show p.pins + 1 < 2 ^ 12; omega }

/-- The step of a running, open ATTN that begins a sequence. -/
theorem exec_attn_begins {q : InBind} {base : Nat} (hon : AttnOn s slot k c es) (hdry : AttnDry k c)
    (hseq : k.work.attn.bind AttnRun.seq = none) (hq : k.ins[0]? = some q)
    (hnext : attnNext es ((attnRows k).length / c.hq) (rowsTaken (clsDim s (attnCls k) * unitBytes c.qFmt) q.taken / c.hq)
      (if c.append ∧ ¬ k.rerun then k.work.aux else totalRows es) = some (e, base)) :
    exec (.attn slot) s = .next (s.attnBegin slot k c e) := by
  obtain ⟨hrun, hopen, -, hcfg, hes⟩ := hon
  rw [exec_attn_opened hrun hopen, ← hcfg, attnStep_begins hdry hcfg hes hseq hq hnext]

theorem runs_attn_begin (hexec : exec (.attn slot) s = .next (s.attnBegin slot k c e)) (hc : s.cmd? slot = some k)
    (hattn : k.work.attn.isSome = true) (hseq : seqRec s e.seq = some r)
    (htodo : todo = heldPlaces s e.seq r c.layer (attnLimit c r e)) (hhs : hs = (todo.map Prod.snd).eraseDups.filter (· != 0))
    (hon : ledgerOn s = true) (hreads : ∀ x ∈ attnReads s c e, badRange s x.1 x.2 = false)
    (hlive : ∀ h ∈ hs, handleMatches s h = true ∧ (pageEntry s (hClass h) (hFrame h)).live = 1 ∧
      (pageEntry s (hClass h) (hFrame h)).pins < 4095) (hap : Apart s (pageEntries s hs)) : Runs (.attn slot) s fun t' =>
      (∃ (u : Tracked) (v : SeqView), t'.cmd? slot = some u ∧ u.work.attn.bind AttnRun.seq = some v ∧
        v.todo = todo ∧ v.pinned = hs ∧ v.held = [] ∧ attnRows u = attnRows k) ∧
      (∀ h ∈ hs, pageEntry t' (hClass h) (hFrame h) =
        { pageEntry s (hClass h) (hFrame h) with pins := (pageEntry s (hClass h) (hFrame h)).pins + 1 }) ∧
      MemKeptOut (pageEntries s hs) s t' ∧ t'.events = s.events ∧ RegsKept (hs.map fun h => A.ledgerCount (hClass h)) s t' := by
  obtain ⟨v, hvtodo, hvpinned, hvheld, hbegin⟩ := attnBegin_pins (slot := slot) (k := k) hon hseq htodo hhs hreads
    (fun h hh _ => (hap.1 _ (List.mem_map.mpr ⟨h, hh, rfl⟩)).2.2) hlive
  have hpages := pagesUpdated_foldl (op := State.pinPage) (g := fun _ e => { e with pins := e.pins + 1 })
    (fun _ _ hm hok => pinPage_eq hm hok) (fun _ _ hp hok => fits_pinned hp hok) hlive hap
  obtain ⟨htracked, hevents, -, -⟩ := hpages.only.listFrame
  have hcmd := cmd?_seqTaken ((cmd?_congr htracked slot).trans hc) v
  exact ⟨_, hexec.trans (congrArg _ hbegin), ⟨_, v, hcmd, Tracked.seq_withSeq hattn _, hvtodo, hvpinned, hvheld,
    attnRows_withSeq k _⟩, hpages.entries, hpages.kept, hevents, hpages.regs⟩

theorem runs_attn_pinWait (hexec : exec (.attn slot) s = .next (s.attnBegin slot k c e)) (hc : s.cmd? slot = some k)
    (hnone : k.work.attn.bind AttnRun.seq = none) (hseq : seqRec s e.seq = some r)
    (htodo : todo = heldPlaces s e.seq r c.layer (attnLimit c r e)) (hhs : hs = (todo.map Prod.snd).eraseDups.filter (· != 0))
    (hon : ledgerOn s = true) (hreads : ∀ x ∈ attnReads s c e, badRange s x.1 x.2 = false)
    (hentries : ∀ h ∈ hs, clsValid s (hClass h) = true → badRange s (entryAddr s (hClass h) (hFrame h)) 8 = false)
    (hfull : ∃ h ∈ hs, handleMatches s h = true ∧ (pageEntry s (hClass h) (hFrame h)).live = 1 ∧
      4095 ≤ (pageEntry s (hClass h) (hFrame h)).pins) : Runs (.attn slot) s fun t' =>
      (∃ u : Tracked, t'.cmd? slot = some u ∧ u.work.attn.bind AttnRun.seq = none) ∧
      (k.work.fails ≠ 2 → t'.fget A.ledgerWaits A.ledgerWaits_pinWait = satTo 32 (s.fget A.ledgerWaits A.ledgerWaits_pinWait + 1)) ∧
      t'.events = s.events ∧ Kept [A.ledgerWaits] s t' := by
  obtain ⟨u, hu, hattn⟩ := cmd?_ledgerWait hc 2
  refine ⟨_, hexec.trans (congrArg _ (attnBegin_waits hon hseq htodo hhs hreads hentries hfull)), ⟨u, hu, ?_⟩, ledgerWait_pin s slot k⟩
  rw [hattn, hnone]

theorem idle_attn_ledgerOff (hexec : exec (.attn slot) s = .next (s.attnBegin slot k c e)) (hoff : ledgerOn s = false) :
    Idle (.attn slot) s := by
  refine hexec.trans (congrArg _ ?_)
  unfold State.attnBegin
  exact if_pos (by simp [hoff])

end Sys2Proof.Machine
end

section
/-! PROOFS. ATTN takes the held positions in chunks of 128, and computes the rows of a sequence as it unpins its pages with their
scores (R310, R317, R333, R349). -/

namespace Sys2Proof.Machine

open Sys2Proof

variable {slot : Nat} {s t u : State} {k : Tracked} {c : AttnCfg} {es : List SeqEnt} {e : SeqEnt} {v : SeqView} {hs : List Nat}

/-- The step of a running, open ATTN that reads a sequence. -/
theorem exec_attn_reads {o : SeqEnt × Nat × Nat} (hon : AttnOn s slot k c es) (hdry : AttnDry k c)
    (hseq : k.work.attn.bind AttnRun.seq = some v) (howner : rowOwner es 0 ((attnRows k).length / c.hq) = some o) :
    exec (.attn slot) s = .next (s.attnRead slot k c o.1 ((attnRows k).length / c.hq) v) := by
  obtain ⟨hrun, hopen, -, hcfg, hes⟩ := hon
  rw [exec_attn_opened hrun hopen, ← hcfg, attnStep_reads hdry hcfg hes hseq howner]

/-! ### Chunks -/

/-- The pages of a chunk. -/
def chunkPages (v : SeqView) : List Nat := ((v.todo.take 128).map Prod.snd).eraseDups.filter (· != 0)

theorem mem_chunkPages {h : Nat} : h ∈ chunkPages v ↔ h ≠ 0 ∧ ∃ x ∈ v.todo.take 128, x.2 = h := by
  simp only [chunkPages, List.mem_filter, List.mem_eraseDups, List.mem_map, bne_iff_ne]
  exact and_comm

/-- A chunk whose pages are not in error is read; the reading is counted. -/
theorem attnChunk_sound (hgood : ∀ x ∈ v.todo.take 128, x.2 ≠ 0 →
      badRange s (pageRange s (attnCls k) x.2).1 (pageRange s (attnCls k) x.2).2 = false) :
    ∃ t f, DbgOnly (dbgRegs k.station) s t ∧ s.attnChunk slot k v = t.updSeq slot f ∧ ∀ w, (f w).todo = v.todo.drop 128 ∧
      (f w).pinned = w.pinned ∧ (f w).held = w.held ++ (v.todo.take 128).map fun x => (x.1, v.entry s (attnCls k) x) := by
  have hsound : ((chunkPages v).map (pageRange s (attnCls k))).find? (fun r : Nat × Nat => badRange s r.1 r.2) = none :=
    List.find?_eq_none.mpr fun r hr => by
      obtain ⟨h, hh, rfl⟩ := List.mem_map.mp hr
      obtain ⟨hne, x, hx, rfl⟩ := mem_chunkPages.mp hh
      simp [hgood x hx hne]
  unfold chunkPages at hsound
  unfold State.attnChunk
  simp only [hsound]
  exact ⟨_, _, .foldl (fun w h _ => dbgOnly_memIn w k _ _) s, rfl, fun _ => ⟨rfl, rfl, rfl⟩⟩

theorem seq_updSeq (hc : t.cmd? slot = some k) (hseq : k.work.attn.bind AttnRun.seq = some v) (f : SeqView → SeqView) :
    ∃ u, (t.updSeq slot f).cmd? slot = some u ∧ u.work.attn.bind AttnRun.seq = some (f v) := by
  obtain ⟨a, ha, hv⟩ := Option.bind_eq_some_iff.mp hseq
  exact ⟨_, cmd?_updCmd_self hc, by simp [ha, hv]⟩

theorem runs_attn_chunk {o : SeqEnt × Nat × Nat} (hon : AttnOn s slot k c es) (hdry : AttnDry k c)
    (hseq : k.work.attn.bind AttnRun.seq = some v) (howner : rowOwner es 0 ((attnRows k).length / c.hq) = some o) (htodo : v.todo ≠ [])
    (hgood : ∀ x ∈ v.todo.take 128, x.2 ≠ 0 →
      badRange s (pageRange s (attnCls k) x.2).1 (pageRange s (attnCls k) x.2).2 = false) : Runs (.attn slot) s fun t' =>
      (∃ (u : Tracked) (w : SeqView), t'.cmd? slot = some u ∧ u.work.attn.bind AttnRun.seq = some w ∧ w.todo = v.todo.drop 128 ∧
        w.pinned = v.pinned ∧ w.held = v.held ++ (v.todo.take 128).map fun x => (x.1, v.entry s (attnCls k) x)) ∧
      t'.events = s.events ∧ Kept (dbgRegs k.station) s t' := by
  obtain ⟨hc, -⟩ := runningCmd_eq_some hon.1
  have hexec := exec_attn_reads hon hdry hseq howner
  obtain ⟨t, f, hdbg, hchunk, hview⟩ := attnChunk_sound (slot := slot) hgood
  rw [State.attnRead, if_pos htodo, hchunk] at hexec
  obtain ⟨u, hu, hf⟩ := seq_updSeq ((cmd?_congr hdbg.tracked slot).trans hc) hseq f
  exact ⟨_, hexec, ⟨u, f v, hu, hf, hview v⟩, hdbg.events, hdbg.kept.trans (kept_of_regs rfl rfl rfl rfl _)⟩

/-! ### The rows of a sequence -/

/-- A page unpinned with the score that it takes. -/
def PageEntry.scored (score : Nat) (p : PageEntry) : PageEntry := PageEntry.unpin { p with score := satTo 16 (p.score + score) }

theorem scorePage_eq {h : Nat} (hmatch : handleMatches u h = true) (hpins : (pageEntry u (hClass h) (hFrame h)).pins ≠ 0)
    (score : Nat) : u.scorePage h score = u.updPage h (PageEntry.scored score) := if_pos ⟨hmatch, hpins⟩

theorem fits_scored {p : PageEntry} (hp : p.Fits) (score : Nat) : (p.scored score).Fits where
  ref := hp.ref
  pins := Nat.lt_of_le_of_lt (Nat.sub_le _ 1) hp.pins
  owner := hp.owner
  live := by
    unfold PageEntry.scored PageEntry.unpin
    dsimp only
    split
    · decide
    · exact hp.live
  gen := hp.gen
  score := satTo_lt 16 _

/-- The rows that a sequence gives. -/
def seqRows (s : State) (k : Tracked) (c : AttnCfg) (e : SeqEnt) (base : Nat) (v : SeqView) : List AttnRow :=
  (List.range e.rows).flatMap fun i => (List.range c.hq).map fun h => attnRow s k c e v base i h

/-- A sequence whose rows are computed leaves the work of its command. -/
def Tracked.seqEnded (u : Tracked) (rows : List AttnRow) : Tracked :=
  { u with work := { u.work with attn := u.work.attn.map fun a => { a with seq := none, rows := a.rows ++ rows } } }

theorem Tracked.seq_seqEnded (u : Tracked) (rows : List AttnRow) : (u.seqEnded rows).work.attn.bind AttnRun.seq = none := by
  unfold Tracked.seqEnded
  cases u.work.attn <;> rfl

theorem attnRows_seqEnded (h : k.work.attn.isSome = true) (rows : List AttnRow) :
    attnRows (k.seqEnded rows) = attnRows k ++ rows := by
  obtain ⟨a, ha⟩ := Option.isSome_iff_exists.mp h
  simp [attnRows, Tracked.seqEnded, ha]

theorem attnSeqDone_eq {base : Nat} {score : Nat → Nat} (hscore : ∀ h, score h =
      if c.score then ((v.seen.find? fun p => p.2 == h).map fun p => pageScore s k c e v base p.1).getD 0 else 0) :
    s.attnSeqDone slot k c e base v = (v.pinned.foldl (fun u h => u.scorePage h (score h))
      (s.count k.station 3 (attnCycles s k c e v.held.length) k)).updCmd slot fun u => u.seqEnded (seqRows s k c e base v) := by
  unfold State.attnSeqDone
  dsimp only
  rw [List.foldl_map]
  refine congrArg (fun w : State => w.updCmd slot fun u => u.seqEnded (seqRows s k c e base v))
    (congrArg (fun f => List.foldl f _ _) (funext fun u => funext fun h => congrArg (u.scorePage h) ?_))
  rw [hscore]
  cases c.score <;> cases v.seen.find? fun p => p.2 == h <;> rfl

theorem runs_attn_done {i j : Nat} {score : Nat → Nat} (hon : AttnOn s slot k c es) (hdry : AttnDry k c)
    (hseq : k.work.attn.bind AttnRun.seq = some v) (howner : rowOwner es 0 ((attnRows k).length / c.hq) = some (e, i, j))
    (htodo : v.todo = []) (hpinned : ∀ h ∈ v.pinned, handleMatches s h = true ∧ (pageEntry s (hClass h) (hFrame h)).pins ≠ 0)
    (hap : Apart s (pageEntries s v.pinned)) (hscore : ∀ h, score h =
      if c.score then ((v.seen.find? fun p => p.2 == h).map fun p =>
        pageScore s k c e v ((attnRows k).length / c.hq) p.1).getD 0 else 0) : Runs (.attn slot) s fun t' =>
      (∃ u : Tracked, t'.cmd? slot = some u ∧ u.work.attn.bind AttnRun.seq = none ∧
        attnRows u = attnRows k ++ seqRows s k c e ((attnRows k).length / c.hq) v) ∧
      (∀ h ∈ v.pinned, pageEntry t' (hClass h) (hFrame h) = (pageEntry s (hClass h) (hFrame h)).scored (score h)) ∧
      MemKeptOut (pageEntries s v.pinned) s t' ∧ t'.events = s.events ∧
      RegsKept (dbgRegs k.station ++ v.pinned.map fun h => A.ledgerCount (hClass h)) s t' := by
  obtain ⟨hrun, -, hattn, -⟩ := id hon
  obtain ⟨hc, -⟩ := runningCmd_eq_some hrun
  have hexec := exec_attn_reads hon hdry hseq howner
  rw [State.attnRead, if_neg (by simp [htodo]), attnSeqDone_eq hscore] at hexec
  have hdbg := dbgOnly_count s k.station 3 (attnCycles s k c e v.held.length) k
  generalize s.count k.station 3 (attnCycles s k c e v.held.length) k = d at hexec hdbg
  have hcfg := hdbg.cfgKept
  have hentry (h : Nat) : pageEntry d (hClass h) (hFrame h) = pageEntry s (hClass h) (hFrame h) :=
    pageEntry_of_sep hcfg hdbg.kept.2.memKeptOut (hClass_lt h) (l := []) (by simp)
  have hpages := pagesUpdated_foldl (op := fun u h => u.scorePage h (score h)) (g := fun h => PageEntry.scored (score h))
    (ok := fun p => p.pins ≠ 0) (fun u h hm hok => scorePage_eq hm hok (score h)) (fun h p hp _ => fits_scored hp (score h))
    (s := d) (hs := v.pinned) (fun h hh => by rw [handleMatches_of_entry hcfg (hentry h), hentry]; exact hpinned h hh)
    (by rw [pageEntries_congr hcfg]; exact ⟨fun x hx => hdbg.writes.writable (l := []) (hap.1 x hx), hap.2⟩)
  obtain ⟨htracked, hevents, -, -⟩ := hpages.only.listFrame
  have hkept := hpages.kept
  rw [pageEntries_congr hcfg] at hkept
  have hcmd := (cmd?_congr (htracked.trans hdbg.tracked) slot).trans hc
  refine ⟨_, hexec, ⟨_, cmd?_updCmd_self hcmd, Tracked.seq_seqEnded _ _, attnRows_seqEnded hattn _⟩, fun h hh => ?_,
    hdbg.kept.2.memKeptOut.trans hkept, hevents.trans hdbg.events, ?_⟩
  · exact (hpages.entries h hh).trans (by rw [hentry])
  · exact (hdbg.2.mono fun a => List.mem_append_left _).trans (hpages.regs.mono fun a => List.mem_append_right _)

end Sys2Proof.Machine
end

section
/-! PROOFS. ATTN appends a row of new keys and values: whole lines of Commons stored, in error or not, and the entry that stands in them
(R341 to R344, R440, R454). -/

namespace Sys2Proof.Machine

open Sys2Proof

variable {slot : Nat} {s t u : State} {k : Tracked} {c : AttnCfg} {es : List SeqEnt} {e : SeqEnt}

/-! ### Whole words of Commons stored -/

/-- An address is one of Commons. -/
abbrev InCommons (a : Nat) : Prop := commonsBase ≤ a ∧ a < commonsBase + commonsSize

theorem canon_of_commons {a : Nat} (h : InCommons a) : canon a = some a := by
  obtain ⟨hlo, hhi⟩ := h
  unfold commonsBase commonsSize at *
  rw [canon_eq, if_neg (by omega), if_neg (by omega), if_pos (by omega)]

theorem codeBytes_of_commons {a : Nat} (h : InCommons a) : codeBytes a = 8 :=
  if_neg (Nat.not_lt.mpr (Nat.le_trans (by decide) h.1))

/-- A whole word of Commons written, in error or not, reads as written. -/
theorem byteAt_writeWord (hm : MemInv s) {a : Nat} (ha : InCommons a) (halign : a % 8 = 0) {bs : List Byte} (hbs : bs.length = 8)
    {x : Nat} (hx : a ≤ x ∧ x < a + 8) : byteAt (s.writeLine a bs) x = bs.getD (x - a) 0 := by
  rw [writeLine_of_whole (hbs.trans (codeBytes_of_commons ha).symm)]
  refine (byteAt_writeLine { s with badLines := s.badLines.filter (· != codeword a) } a bs hm (by omega) (by simp) x).trans ?_
  rw [if_pos (by omega)]

theorem writeFuel_word {a f : Nat} (ha : InCommons a) (halign : a % 8 = 0) {bs : List Byte} (hbs : bs ≠ []) :
    s.writeFuel a bs (f + 1) = (s.writeLine a (bs.take 8)).writeFuel (a + 8) (bs.drop 8) f := by
  have hempty : bs.isEmpty = false := by simpa using hbs
  rw [State.writeFuel, hempty, canon_of_commons ha]
  simp only [codeBytes_of_commons ha, halign]
  rfl

theorem byteAt_writeFuel_words (m : Nat) : ∀ (s : State) (a f : Nat) (bs : List Byte), MemInv s → a % 8 = 0 → bs.length = 8 * m →
    m < f → commonsBase ≤ a → a + 8 * m ≤ commonsBase + commonsSize →
    ∀ x, a ≤ x → x < a + 8 * m → byteAt (s.writeFuel a bs f) x = bs.getD (x - a) 0 := by
  induction m with
  | zero => intro s a f bs _ _ _ _ _ _ x _ _; omega
  | succ m ih =>
    intro s a f bs hm halign hbs hf hlo hhi x hxlo hxhi
    obtain ⟨f, rfl⟩ : ∃ g, f = g + 1 := ⟨f - 1, by omega⟩
    have hin : InCommons a := ⟨hlo, by omega⟩
    have htake : (bs.take 8).length = 8 := by rw [List.length_take]; omega
    have hdrop : (bs.drop 8).length = 8 * m := by rw [List.length_drop]; omega
    have hm' := memInv_writeLine s a (bs.take 8) hm
    rw [writeFuel_word hin halign (List.ne_nil_of_length_pos (by omega))]
    by_cases hx : x < a + 8
    · rw [memKeptBut_writeFuel f _ (a + 8) (bs.drop 8) hm' x fun i hi => ?_, byteAt_writeWord hm hin halign htake ⟨hxlo, hx⟩,
        List.getD_eq_getElem?_getD, List.getElem?_take_of_lt (by omega), List.getD_eq_getElem?_getD]
      rw [canon_of_commons ⟨by omega, by omega⟩]
      exact fun h => absurd (Option.some.inj h) (by omega)
    · rw [ih _ (a + 8) f (bs.drop 8) hm' (by omega) hdrop (by omega) (by omega) (by omega) x (by omega) (by omega),
        List.getD_eq_getElem?_getD, List.getElem?_drop, List.getD_eq_getElem?_getD, show 8 + (x - (a + 8)) = x - a by omega]

/-- No word of a range of whole words of Commons is written in part. -/
theorem storeBytes_whole {a : Nat} {bs : List Byte} (halign : a % 8 = 0) (hlen : bs.length % 8 = 0) (hlo : commonsBase ≤ a)
    (hhi : a + bs.length ≤ commonsBase + commonsSize) : s.storeBytes a bs = s.writeBytes a bs := by
  have hwhole : ∀ v ∈ codewords a bs.length, a ≤ v.1 ∧ v.1 + codeBytes v.2 ≤ a + bs.length := by
    intro v hv
    unfold codewords at hv
    split at hv
    · simp at hv
    · obtain ⟨i, hi, hword⟩ := List.mem_filterMap.mp (List.mem_dedup.mp hv)
      have hi := List.mem_range.mp hi
      have hin : InCommons ((a / 8 + i) * 8) := ⟨by omega, by omega⟩
      have hcode : codeword ((a / 8 + i) * 8) = (a / 8 + i) * 8 := by rw [codeword, codeBytes_of_commons hin]; omega
      dsimp only at hword
      rw [canon_of_commons hin, Option.map_some, codeBytes_of_commons hin, hcode] at hword
      obtain rfl := Option.some.inj hword
      rw [codeBytes_of_commons hin]
      dsimp only
      omega
  unfold State.storeBytes
  dsimp only
  rw [List.filter_eq_nil_iff.mpr]
  · rfl
  · intro v hv
    obtain ⟨h1, h2⟩ := hwhole v hv
    simp only [Bool.and_eq_true, Bool.or_eq_true, decide_eq_true_eq, not_and, not_or]
    exact fun _ => ⟨by omega, by omega⟩

/-! ### Lines -/

/-- A line of Commons. -/
abbrev IsLine (l : Nat) : Prop := l < commonsSize / 64

theorem lineAddr_mod (l : Nat) : lineAddr l % 8 = 0 := by unfold lineAddr commonsBase; omega

theorem lineAddr_le {l : Nat} (h : IsLine l) : commonsBase ≤ lineAddr l ∧ lineAddr l + 64 ≤ commonsBase + commonsSize := by
  unfold IsLine at h
  unfold lineAddr commonsBase commonsSize at *
  omega

theorem canon_line_byte {l i : Nat} (h : IsLine l) (hi : i < 64) : canon (lineAddr l + i) = some (lineAddr l + i) :=
  canon_of_commons ⟨by have := lineAddr_le h; omega, by have := lineAddr_le h; omega⟩

theorem sep_lines {l m : Nat} (hl : IsLine l) (hm : IsLine m) (hne : l ≠ m) : Sep (lineAddr l, 64) (lineAddr m, 64) := by
  intro i hi j hj
  dsimp only at hi hj ⊢
  rw [canon_line_byte hl hi, canon_line_byte hm hj]
  intro h
  have := Option.some.inj h
  unfold lineAddr at this
  omega

theorem storeLine_eq {l : Nat} (hl : IsLine l) {bs : List Byte} (hbs : bs.length = 64) :
    s.storeBytes (lineAddr l) bs = s.writeBytes (lineAddr l) bs :=
  storeBytes_whole (lineAddr_mod l) (by omega) (lineAddr_le hl).1 (by have := (lineAddr_le hl).2; omega)

theorem readBytes_storeLine (hm : MemInv s) {l : Nat} (hl : IsLine l) {bs : List Byte} (hbs : bs.length = 64) :
    readBytes (s.storeBytes (lineAddr l) bs) (lineAddr l) 64 = bs := by
  rw [storeLine_eq hl hbs, ← hbs]
  refine readBytes_eq (fun i hi => by rw [canon_line_byte hl (by omega)]; rfl) fun i x hi hx => ?_
  rw [canon_line_byte hl (by omega)] at hx
  obtain rfl := Option.some.inj hx
  have hbounds := lineAddr_le hl
  rw [State.writeBytes, byteAt_writeFuel_words 8 s (lineAddr l) _ bs hm (lineAddr_mod l) hbs (by omega) hbounds.1 hbounds.2 _ (by omega)
    (by omega), Nat.add_sub_cancel_left]

/-- From `s` to `t` bytes were stored in lines, one after the other, and nothing else changed. -/
structure LinesStored (ls : List Nat) (bs : List Byte) (s t : State) : Prop where
  only : MemOnly s t
  kept : MemKeptOut (ls.map fun l => (lineAddr l, 64)) s t
  read : (ls.flatMap fun l => readBytes t (lineAddr l) 64) = bs

theorem linesStored (ls : List Nat) : ∀ (s : State) (bs : List Byte), MemInv s → ls.Nodup → (∀ l ∈ ls, IsLine l) →
    bs.length = 64 * ls.length → LinesStored ls bs s (s.storeLines ls bs) := by
  induction ls with
  | nil => exact fun s bs _ _ _ hbs => ⟨.refl s, fun _ _ => rfl, (List.length_eq_zero_iff.mp hbs).symm⟩
  | cons l ls ih =>
    intro s bs hm hnodup hlines hbs
    rw [List.length_cons] at hbs
    obtain ⟨hnotin, hnodup⟩ := List.nodup_cons.mp hnodup
    have hl : IsLine l := hlines l List.mem_cons_self
    have htake : (bs.take 64).length = 64 := by rw [List.length_take]; omega
    have hone := memKeptBut_storeBytes hm (lineAddr l) (bs.take 64)
    rw [htake] at hone
    obtain ⟨honly, hkept, hread⟩ := ih (s.storeBytes (lineAddr l) (bs.take 64)) (bs.drop 64) (memInv_storeBytes s _ _ hm) hnodup
      (fun m h => hlines m (List.mem_cons_of_mem _ h)) (by rw [List.length_drop]; omega)
    refine ⟨MemOnly.trans ?_ honly, MemKeptOut.trans (fun x hx => hone x (hx _ List.mem_cons_self))
      (hkept.mono fun _ => List.mem_cons_of_mem _), ?_⟩
    · rw [storeLine_eq hl htake]
      exact memOnly_writeBytes s _ _
    · rw [List.flatMap_cons, State.storeLines, hread, readBytes_of_sep hkept, readBytes_storeLine hm hl htake, List.take_append_drop]
      intro y hy
      obtain ⟨m, hmem, rfl⟩ := List.mem_map.mp hy
      exact sep_lines hl (hlines m (List.mem_cons_of_mem _ hmem)) fun h => hnotin (h ▸ hmem)

/-! ### The lines picked -/

theorem pickLines_spec (n : Nat) : ∀ (seed : Nat) (l : List Nat), l.Nodup → n ≤ l.length →
    (pickLines seed n l).length = n ∧ (pickLines seed n l).Nodup ∧ ∀ x ∈ pickLines seed n l, x ∈ l := by
  induction n with
  | zero => intro seed l _ _; simp [pickLines]
  | succ n ih =>
    intro seed l hnodup hlen
    cases l with
    | nil => simp at hlen
    | cons y ys =>
      rw [pickLines]
      have hmem : (y :: ys).getD (Config.pickFrame seed (ys.length + 1) % (ys.length + 1)) y ∈ y :: ys := by
        have hlt : Config.pickFrame seed (ys.length + 1) % (ys.length + 1) < (y :: ys).length := Nat.mod_lt _ (Nat.succ_pos _)
        rw [List.getD_eq_getElem?_getD, List.getElem?_eq_getElem hlt]
        exact List.getElem_mem hlt
      generalize (y :: ys).getD (Config.pickFrame seed (ys.length + 1) % (ys.length + 1)) y = x at hmem
      obtain ⟨hlength, hnd, hsub⟩ := ih (seed + 1) ((y :: ys).erase x) (hnodup.erase x) (by
        rw [List.length_erase_of_mem hmem]; simpa using hlen)
      refine ⟨by rw [List.length_cons, hlength], List.nodup_cons.mpr ⟨fun h => ?_, hnd⟩, fun z hz => ?_⟩
      · exact hnodup.not_mem_erase (hsub x h)
      · rcases List.mem_cons.mp hz with rfl | hz
        · exact hmem
        · exact List.mem_of_mem_erase (hsub z hz)

theorem nodup_freeLineList (s : State) : (freeLineList s).Nodup :=
  (List.nodup_range.map fun _ _ h => Nat.add_left_cancel h).filter _

theorem isLine_of_free {l : Nat} (h : l ∈ freeLineList s) : IsLine l := by
  have := (List.mem_filter.mp h).2
  rw [Bool.and_eq_true] at this
  exact of_decide_eq_true this.1

/-! ### The row appended -/

theorem bobbinUse_eq (s : State) : s.bobbinUse = { s with regs := s.bobbinUse.regs } := by
  unfold State.bobbinUse State.raiseTo
  dsimp only
  split <;> rfl

/-- The entry of the row appended. -/
def rowEntry (s : State) (c : AttnCfg) (e : SeqEnt) (j n : Nat) : BobEntry :=
  BobEntry.mk e.seq c.layer (e.pos0 + j) (decide (e.tent ≤ j)) (pickLines s.free n (freeLineList (s.withoutEntry e.seq c.layer (e.pos0 + j))))

/-- The Bobbin with the entry of the row appended, its lines not yet stored. -/
def State.rowEntered (s : State) (c : AttnCfg) (e : SeqEnt) (j n : Nat) : State :=
  State.bobbinUse { s.withoutEntry e.seq c.layer (e.pos0 + j) with
    free := s.free + n
    bobbin := (s.withoutEntry e.seq c.layer (e.pos0 + j)).bobbin ++ [rowEntry s c e j n] }

theorem rowEntered_eq (s : State) (c : AttnCfg) (e : SeqEnt) (j n : Nat) : s.rowEntered c e j n = { s with
    free := s.free + n
    bobbin := (s.withoutEntry e.seq c.layer (e.pos0 + j)).bobbin ++ [rowEntry s c e j n]
    regs := (s.rowEntered c e j n).regs } := bobbinUse_eq _

theorem writes_rowEntered (s : State) (c : AttnCfg) (e : SeqEnt) (j n : Nat) : Writes [] [A.ledgerBobbinUse] s (s.rowEntered c e j n) :=
  Writes.trans .same (writes_bobbinUse _)

theorem appendRow_eq (s : State) (slot : Nat) (k : Tracked) (c : AttnCfg) (e : SeqEnt) (j : Nat) (bytes : List Byte) :
    ∃ fl, s.appendRow slot k c e j bytes =
      State.ledgerGo (State.updCmd { (s.rowEntered c e j (ceilDiv bytes.length 64)).storeLines
          (rowEntry s c e j (ceilDiv bytes.length 64)).lines bytes with flushes := fl } slot
        fun u => { u with work := { u.work with aux := k.work.aux + 1 } }) slot := by
  unfold State.appendRow
  dsimp only
  split
  · exact ⟨_, rfl⟩
  · exact ⟨_, rfl⟩

theorem attnAppend_row {j kn : Nat} {kb vb : InBind} {bytes : List Byte} (hkb : k.ins[1]? = some kb) (hvb : k.ins[2]? = some vb)
    (hbytes : bytes = entryOf s (attnCls k) (streamRow kb.taken kn k.work.aux) (streamRow vb.taken kn k.work.aux))
    (hon : ledgerOn s = true) (hflush : ∀ f ∈ s.flushes, f.1 ≠ e.seq)
    (hlines : ceilDiv bytes.length 64 ≤ (freeLineList (s.withoutEntry e.seq c.layer (e.pos0 + j))).length) :
    s.attnAppend slot k c e j kn = s.appendRow slot k c e j bytes := by
  subst hbytes
  have hopen : ¬ (¬ ledgerOn s = true ∨ s.flushes.any (fun f => f.1 == e.seq) = true) := by
    rintro (h | h)
    · exact h hon
    · obtain ⟨f, hf, hseq⟩ := List.any_eq_true.mp h
      exact hflush f hf (eq_of_beq hseq)
  unfold State.attnAppend
  rw [hkb, hvb]
  simp only [Option.map_some, Option.getD_some]
  rw [if_neg hopen, if_neg (Nat.not_lt.mpr hlines)]

theorem ceilDiv_of_mod {n : Nat} (h : n % 64 = 0) : ceilDiv n 64 = n / 64 := by unfold ceilDiv; omega

theorem runs_attn_append {i j kn : Nat} {q kb vb : InBind} {bytes : List Byte} (hon : AttnOn s slot k c es) (hdry : AttnDry k c)
    (hseq : k.work.attn.bind AttnRun.seq = none) (happ : c.append = true) (hrerun : k.rerun = false) (hq : k.ins[0]? = some q)
    (hkb : k.ins[1]? = some kb) (hvb : k.ins[2]? = some vb)
    (hnext : attnNext es ((attnRows k).length / c.hq) (rowsTaken (clsDim s (attnCls k) * unitBytes c.qFmt) q.taken / c.hq)
      k.work.aux = none)
    (hkn : kn = c.hkv * clsDim s (attnCls k) * unitBytes (clsFmt s (attnCls k))) (hk : k.work.aux < rowsTaken kn kb.taken)
    (hv : k.work.aux < rowsTaken kn vb.taken) (hmore : k.work.aux < totalRows es)
    (howner : rowOwner es 0 k.work.aux = some (e, i, j))
    (hbytes : bytes = entryOf s (attnCls k) (streamRow kb.taken kn k.work.aux) (streamRow vb.taken kn k.work.aux))
    (hlen : bytes.length % 64 = 0) (hledger : ledgerOn s = true) (hflush : ∀ f ∈ s.flushes, f.1 ≠ e.seq) (hm : MemInv s)
    (hlines : bytes.length / 64 ≤ (freeLineList (s.withoutEntry e.seq c.layer (e.pos0 + j))).length) :
    Runs (.attn slot) s fun t' =>
      (∃ u : Tracked, t'.cmd? slot = some u ∧ u.work.aux = k.work.aux + 1) ∧
      (∃ b : BobEntry, b = BobEntry.mk e.seq c.layer (e.pos0 + j) (decide (e.tent ≤ j)) b.lines ∧ b ∈ t'.bobbin ∧
        b.lines.length = bytes.length / 64 ∧ bobBytes t' b = bytes ∧
        (∀ l ∈ b.lines, l ∈ freeLineList (s.withoutEntry e.seq c.layer (e.pos0 + j))) ∧
        MemKeptOut (b.lines.map fun l => (lineAddr l, 64)) s t') ∧
      (∀ b ∈ s.bobbin, (b.seq, b.layer, b.pos) ≠ (e.seq, c.layer, e.pos0 + j) → b ∈ t'.bobbin) ∧
      t'.events = s.events ∧ RegsKept [A.ledgerBobbinUse] s t' := by
  obtain ⟨hrun, hopen, -, hcfg, hes⟩ := hon
  obtain ⟨hc, -⟩ := runningCmd_eq_some hrun
  have hexec := exec_attn_opened hrun hopen
  have hn := ceilDiv_of_mod hlen
  obtain ⟨fl, hrow⟩ := appendRow_eq s slot k c e j bytes
  rw [← hcfg, attnStep_appends hdry hcfg hes hseq happ hrerun hq hkb hvb hnext hkn hk hv hmore howner,
    attnAppend_row hkb hvb hbytes hledger hflush (by rw [hn]; exact hlines), hrow, hn] at hexec
  obtain ⟨hcount, hnodup, hfree⟩ := pickLines_spec (bytes.length / 64) s.free _ (nodup_freeLineList _) hlines
  have hw := writes_rowEntered s c e j (bytes.length / 64)
  obtain ⟨honly, hkept, hread⟩ := linesStored (rowEntry s c e j (bytes.length / 64)).lines (s.rowEntered c e j (bytes.length / 64)) bytes
    (hw.mem hm) hnodup (fun l hl => isLine_of_free (hfree l hl)) (by
      have : (rowEntry s c e j (bytes.length / 64)).lines.length = bytes.length / 64 := hcount
      omega)
  generalize (s.rowEntered c e j (bytes.length / 64)).storeLines (rowEntry s c e j (bytes.length / 64)).lines bytes = d at hexec hkept hread honly
  have hbobbin : d.bobbin = (s.withoutEntry e.seq c.layer (e.pos0 + j)).bobbin ++ [rowEntry s c e j (bytes.length / 64)] := by
    rw [honly, rowEntered_eq]
  have hevents : d.events = s.events := by rw [honly, rowEntered_eq]
  have htracked : d.tracked = s.tracked := by rw [honly, rowEntered_eq]
  have hcmd : ({ d with flushes := fl } : State).cmd? slot = some k := (cmd?_congr htracked slot).trans hc
  refine ⟨_, hexec, ⟨_, cmd?_updCmd_self (cmd?_updCmd_self hcmd), rfl⟩, ⟨rowEntry s c e j (bytes.length / 64), rfl, ?_, hcount, hread,
    hfree, ((hw.kept hm).mono (by simp)).trans hkept⟩, fun b hb hne => ?_, hevents, ?_⟩
  · show _ ∈ d.bobbin
    rw [hbobbin]
    exact List.mem_append_right _ (List.mem_singleton.mpr rfl)
  · show _ ∈ d.bobbin
    rw [hbobbin]
    refine List.mem_append_left _ (List.mem_filter.mpr ⟨hb, ?_⟩)
    rw [Bool.not_eq_true', Bool.eq_false_iff]
    intro hsame
    simp only [Bool.and_eq_true, beq_iff_eq] at hsame
    obtain ⟨⟨hs, hl⟩, hp⟩ := hsame
    exact hne (by rw [hs, hl, hp])
  · exact hw.regs.trans (.of_regs honly.regs)

end Sys2Proof.Machine
end

section
/-! PROOFS. ATTN and ATTN_BWD, step by step (O24). -/

namespace Sys2Proof.Machine

open Sys2Proof

/-- Settles O24: it holds, clause by clause, each of the step that the state selects. -/
theorem attentionSteps : Obligations.AttentionSteps := by
  unfold Obligations.AttentionSteps
  refine ⟨?_, ?_, ?_, ?_, ?_, ?_, ?_⟩
  · intro slot s k c bs hrun hopen hin hcfg hbs hcheck hgood hclear hrecs hlist
    exact runs_attn_open hrun hopen hin hcfg hbs hcheck hgood hclear hrecs hlist
  · intro slot i j kn s k c es e q kb vb bytes hon hdry hseq happ hrerun hq hkb hvb hnext hkn hk hv hmore howner hbytes hlen hledger
      hflush hm hlines
    exact runs_attn_append hon hdry hseq happ hrerun hq hkb hvb hnext hkn hk hv hmore howner hbytes hlen hledger hflush hm hlines
  · intro slot base s k c es e q r todo hs hon hdry hnone hq hnext hseq htodo hhs
    obtain ⟨hrun, -, hattn, -⟩ := id hon
    obtain ⟨hc, -⟩ := runningCmd_eq_some hrun
    have hexec := exec_attn_begins hon hdry hnone hq hnext
    exact ⟨fun hledger hreads hlive hap => runs_attn_begin hexec hc hattn hseq htodo hhs hledger hreads hlive hap,
      fun hledger hreads hentries hfull => runs_attn_pinWait hexec hc hnone hseq htodo hhs hledger hreads hentries hfull,
      fun hoff => idle_attn_ledgerOff hexec hoff⟩
  · intro slot s k c es v o hon hdry hseq howner htodo hgood
    exact runs_attn_chunk hon hdry hseq howner htodo hgood
  · intro slot s k c es v e i j score hon hdry hseq howner htodo hpinned hap hscore
    exact runs_attn_done hon hdry hseq howner htodo hpinned hap hscore
  · intro slot n s k c es o hon hn hpos hrows hroom ho hformed
    exact runs_attn_form hon hn hpos hrows hroom ho hformed
  · intro slot d n s k c p o hrun hopen hcfg hdry hdim hpair hpos hsame hroom ho hformed hmore
    exact runs_attnBwd_dq hrun hopen hcfg hdry hdim hpair hpos hsame hroom ho hformed hmore

end Sys2Proof.Machine
end

section
/-! PROOFS. The operations of SCTL, each as the row that applies it alone (R328, R399, R402, R413 to R415, Table 6-7): O27. -/

namespace Sys2Proof.Machine

open Sys2Proof

variable {f : State → Nat → OpRec → State × Nat × Bool} {c : Nat → OpRec → Nat → Instr}
  {s t u : State} {part res : Nat} {r : OpRec}

/-! ### Rows that stand alone -/

/-- The commands of a function are the row of an operation that stands alone. -/
def OpRowOf (f : State → Nat → OpRec → State × Nat × Bool) (c : Nat → OpRec → Nat → Instr) : Prop :=
  ∀ part r res s, exec (c part r res) s = opRow f part r res s

theorem opRowOf_groupCancel : OpRowOf sopGroupCancel .groupCancel := fun _ _ _ _ => rfl
theorem opRowOf_groupClear : OpRowOf sopGroupClear .groupClear := fun _ _ _ _ => rfl
theorem opRowOf_seqReset : OpRowOf sopSeqReset .seqReset := fun _ _ _ _ => rfl
theorem opRowOf_seqLoop : OpRowOf sopSeqLoop .seqLoop := fun _ _ _ _ => rfl
theorem opRowOf_seqQuery : OpRowOf sopSeqQuery .seqQuery := fun _ _ _ _ => rfl

theorem MemOnly.samp (h : MemOnly s t) : t.samp = s.samp := by rw [h]
theorem MemOnly.cancels (h : MemOnly s t) : t.cancels = s.cancels := by rw [h]
theorem MemOnly.cancelled (h : MemOnly s t) : t.cancelled = s.cancelled := by rw [h]

/-- A row applies its operation, which stores nothing itself, and writes the result. -/
theorem runs_opRow (hrow : OpRowOf f c) {w : Nat} {bad : Bool} (hf : f s part r = (u, w, bad)) (hu : Writes [] [] s u)
    (hres : Writable s res 8) {P : State → Prop}
    (hP : ∀ t, MemOnly u t → Stored res (leBytes 8 w) s t → RegsKept [] s t → P t) : Runs (c part r res) s P := by
  have hresu : Writable u res (leBytes 8 w).length := by rw [length_leBytes]; exact hu.writable hres
  have hstored := stored_storeBytes u res (leBytes 8 w) hresu
  have honly := memOnly_storeBytes u res (leBytes 8 w) hresu.2.2
  have hexec : exec (c part r res) s = .next (u.storeBytes res (leBytes 8 w)) := by
    rw [hrow]
    unfold opRow applyOp
    rw [hf]
    rfl
  refine ⟨_, hexec, hP _ honly ⟨hstored.1, fun a ha => ?_⟩ (hu.regs.trans (.of_regs honly.regs))⟩
  exact (hstored.2 a ha).trans ((hu.kept hres.1).memKept a)

/-- A row whose operation is refused answers its status alone (R328). -/
theorem refusedRow_of_opFail (hrow : OpRowOf f c) {st : Nat} (hst : st < 256) (hf : f s part r = opFail s st) :
    RefusedRow (c part r res) s res st := by
  intro hres
  unfold opFail at hf
  rw [resultWord_status hst] at hf
  exact runs_opRow hrow hf (.refl _ _ s) hres fun t honly hstored hregs => ⟨hstored, hregs, honly.ledgerOnly.listFrame⟩

/-! ### Groups -/

theorem sopGroupCancel_zero (h : r.arg % 65536 = 0) : sopGroupCancel s part r = opFail s opBadArg := if_pos h

theorem sopGroupCancel_eq (h : r.arg % 65536 ≠ 0) : sopGroupCancel s part r =
    ((if groupMarked s part (r.arg % 65536) then s else { s with cancels := s.cancels ++ [(part, r.arg % 65536)] }).raiseP 60 0x10 part
      (r.arg % 65536) none, 0, false) := (if_neg h).trans (opOk_zero _)

theorem groupMarked_iff {p g : Nat} : groupMarked s p g = true ↔ (p, g) ∈ s.cancels := List.contains_iff_mem

theorem sopGroupClear_eq : sopGroupClear s part r =
    ({ s with cancels := s.cancels.filter (· != (part, r.arg % 65536)), cancelled := s.cancelled.filter (· != (part, r.arg % 65536)) },
      0, false) := opOk_zero _

theorem not_mem_filter_ne {k : Nat × Nat} {l : List (Nat × Nat)} : k ∉ l.filter (· != k) := by simp

theorem mem_filter_ne {k k' : Nat × Nat} {l : List (Nat × Nat)} (h : k' ≠ k) : k' ∈ l.filter (· != k) ↔ k' ∈ l := by simp [h]

theorem runs_groupCancel (hres : Writable s res 8) (hg : r.arg % 65536 ≠ 0) : Runs (.groupCancel part r res) s fun t =>
    (part, r.arg % 65536) ∈ t.cancels ∧ (∀ k ∈ s.cancels, k ∈ t.cancels) ∧
    (∀ k ∈ t.cancels, k = (part, r.arg % 65536) ∨ k ∈ s.cancels) ∧ RaisedP 60 0x10 part (r.arg % 65536) s t ∧
    Stored res (leBytes 8 0) s t ∧ RegsKept [] s t ∧ t.samp = s.samp ∧ t.tracked = s.tracked := by
  have hf := sopGroupCancel_eq (s := s) (part := part) hg
  by_cases hm : groupMarked s part (r.arg % 65536) = true
  · rw [if_pos hm] at hf
    refine runs_opRow opRowOf_groupCancel hf .same hres fun t honly hstored hregs => ?_
    have hcancels : t.cancels = s.cancels := honly.cancels
    refine ⟨?_, fun k hk => ?_, fun k hk => ?_, honly.events, hstored, hregs, honly.samp, honly.tracked⟩
    · rw [hcancels]
      exact groupMarked_iff.mp hm
    · rwa [hcancels]
    · exact .inr (hcancels ▸ hk)
  · rw [if_neg hm] at hf
    refine runs_opRow opRowOf_groupCancel hf .same hres fun t honly hstored hregs => ?_
    have hcancels : t.cancels = s.cancels ++ [(part, r.arg % 65536)] := honly.cancels
    refine ⟨?_, fun k hk => ?_, fun k hk => ?_, honly.events, hstored, hregs, honly.samp, honly.tracked⟩
    · simp [hcancels]
    · rw [hcancels]
      exact List.mem_append_left _ hk
    · rw [hcancels, List.mem_append, List.mem_singleton] at hk
      exact hk.symm

theorem runs_groupClear (hres : Writable s res 8) : Runs (.groupClear part r res) s fun t =>
    (part, r.arg % 65536) ∉ t.cancels ∧ (part, r.arg % 65536) ∉ t.cancelled ∧
    (∀ k, k ≠ (part, r.arg % 65536) → (k ∈ t.cancels ↔ k ∈ s.cancels) ∧ (k ∈ t.cancelled ↔ k ∈ s.cancelled)) ∧
    Stored res (leBytes 8 0) s t ∧ RegsKept [] s t ∧ ListFrame s t ∧ t.samp = s.samp := by
  refine runs_opRow opRowOf_groupClear sopGroupClear_eq .same hres fun t honly hstored hregs => ?_
  rw [honly.cancels, honly.cancelled]
  exact ⟨not_mem_filter_ne, not_mem_filter_ne, fun k hk => ⟨mem_filter_ne hk, mem_filter_ne hk⟩, hstored, hregs,
    honly.ledgerOnly.listFrame, honly.samp⟩

/-! ### Sequences -/

theorem sampSeq_congr (h : t.samp = s.samp) (q : Nat) : sampSeq t q = sampSeq s q := by unfold sampSeq; rw [h]

@[simp] theorem sampSeq_setSamp_self (s : State) (q : Nat) (x : SampSeq) : sampSeq (s.setSamp q x) q = x := tgetD_tset_self ..

theorem sampSeq_setSamp_ne (s : State) {q q' : Nat} (x : SampSeq) (h : q ≠ q') : sampSeq (s.setSamp q x) q' = sampSeq s q' :=
  tgetD_tset_ne _ _ _ h

/-- A row that sets one sequence of the sampler and answers status 0. -/
theorem runs_setSamp {x : SampSeq} (hrow : OpRowOf f c) (hf : f s part r = opOk (s.setSamp r.seq x) 0) (hres : Writable s res 8) :
    Runs (c part r res) s fun t => sampSeq t r.seq = x ∧ (∀ q, q ≠ r.seq → sampSeq t q = sampSeq s q) ∧
      Stored res (leBytes 8 0) s t ∧ RegsKept [] s t ∧ ListFrame s t := by
  rw [opOk_zero] at hf
  refine runs_opRow hrow hf .same hres fun t honly hstored hregs => ⟨?_, fun q hq => ?_, hstored, hregs, honly.ledgerOnly.listFrame⟩
  · rw [sampSeq_congr honly.samp, sampSeq_setSamp_self]
  · rw [sampSeq_congr honly.samp, sampSeq_setSamp_ne s x hq.symm]

theorem sopSeqReset_of_free (h : (sampSeq s r.seq).owner = none ∨ (sampSeq s r.seq).owner = some part) :
    sopSeqReset s part r = opOk (s.setSamp r.seq { SampSeq.empty with owner := some part }) 0 := by
  unfold sopSeqReset
  rcases h with h | h <;> rw [h]
  exact if_pos rfl

theorem sopSeqReset_of_other {p : Nat} (h : (sampSeq s r.seq).owner = some p) (hp : p ≠ part) :
    sopSeqReset s part r = opFail s opNotOwner := by
  unfold sopSeqReset
  rw [h]
  exact if_neg hp

section
variable (s) {g : SampSeq → State × Nat × Bool} {q : Nat}

theorem onSamp_of_none (h : (sampSeq s q).owner = none) : onSamp s part q g = opFail s opBadSeq := by
  unfold onSamp
  rw [h]

theorem onSamp_of_own (h : (sampSeq s q).owner = some part) : onSamp s part q g = g (sampSeq s q) := by
  unfold onSamp
  rw [h]
  exact if_pos rfl

theorem onSamp_of_other {p : Nat} (h : (sampSeq s q).owner = some p) (hp : p ≠ part) : onSamp s part q g = opFail s opNotOwner := by
  unfold onSamp
  rw [h]
  exact if_neg hp

end

theorem sopSeqLoop_eq {lo hi pv : Nat} (hown : (sampSeq s r.seq).owner = some part) (hlo : lo = fld r.word1 4 0)
    (hhi : hi = fld r.word1 12 8) (hpv : pv = fld r.word1 24 20) (hlo16 : lo ≤ 16) (hhi16 : hi ≤ 16) (hpv16 : pv ≤ 16) :
    sopSeqLoop s part r = opOk (s.setSamp r.seq { sampSeq s r.seq with
      dmin := lo, dmax := max lo hi, pin := r.word1.testBit 16, pinVal := pv, zero := 0
      length := if r.word1.testBit 16 then pv else max lo hi }) 0 := by
  subst hlo hhi hpv
  refine (onSamp_of_own s hown).trans (if_neg ?_)
  omega

theorem sopSeqQuery_eq (hown : (sampSeq s r.seq).owner = some part) : sopSeqQuery s part r =
    (s, (sampSeq s r.seq).length * 2 ^ 8 + (sampSeq s r.seq).buf.length * 2 ^ 16 + (sampSeq s r.seq).zero * 2 ^ 21 +
      (sampSeq s r.seq).clash * 2 ^ 32, false) := onSamp_of_own s hown

/-- Settles O27: each row is what its operation answers, and then its result stored. -/
theorem samplerOperations : Obligations.SamplerOperations := by
  unfold Obligations.SamplerOperations
  refine ⟨fun part r res s hres hg => runs_groupCancel hres hg,
    fun part r res s hg => refusedRow_of_opFail opRowOf_groupCancel (by decide) (sopGroupCancel_zero hg),
    fun part r res s hres => runs_groupClear hres,
    fun part r res s hres hfree => runs_setSamp opRowOf_seqReset (sopSeqReset_of_free hfree) hres,
    fun part lo hi pv r res s hres hown hlo hhi hpv hlo16 hhi16 hpv16 =>
      runs_setSamp opRowOf_seqLoop (sopSeqLoop_eq hown hlo hhi hpv hlo16 hhi16 hpv16) hres,
    fun part r res s hres hown => ?_, fun part p r res s hown hp => ⟨?_, ?_, ?_⟩, fun part r res s hnone => ⟨?_, ?_⟩⟩
  · exact runs_opRow opRowOf_seqQuery (sopSeqQuery_eq hown) (.refl _ _ s) hres fun t honly hstored hregs =>
      ⟨hstored, hregs, honly.ledgerOnly.listFrame, honly.samp⟩
  · exact refusedRow_of_opFail opRowOf_seqReset (by decide) (sopSeqReset_of_other hown hp)
  · exact refusedRow_of_opFail opRowOf_seqLoop (by decide) (onSamp_of_other s hown hp)
  · exact refusedRow_of_opFail opRowOf_seqQuery (by decide) (onSamp_of_other s hown hp)
  · exact refusedRow_of_opFail opRowOf_seqLoop (by decide) (onSamp_of_none s hnone)
  · exact refusedRow_of_opFail opRowOf_seqQuery (by decide) (onSamp_of_none s hnone)

end Sys2Proof.Machine
end

section
/-! PROOFS. Drafts verified in order, and the draft-length loop (R388, R392): O29. -/

namespace Sys2Proof.Machine

open Sys2Proof

/-! ### Verification -/

section
variable {draw : Nat → Drawn} {buf : List Nat}

/-- Row `i` of an entry of `d` drafts is a match: a draft is left, and its token is the one drawn (R388). -/
def draftHit (draw : Nat → Drawn) (buf : List Nat) (d i : Nat) : Bool :=
  decide (i < d) && (draw i).token.isSome && (buf[i]? == (draw i).token)

theorem verify_succ (d n i : Nat) : verify draw buf d (n + 1) i =
    TokRec.mk (draw i) (draftHit draw buf d i) :: if draftHit draw buf d i then verify draw buf d n (i + 1) else [] := rfl

theorem draftHit_iff {d i : Nat} :
    draftHit draw buf d i = true ↔ i < d ∧ (draw i).token.isSome = true ∧ (draw i).token = buf[i]? := by
  rw [draftHit, Bool.and_eq_true, Bool.and_eq_true, decide_eq_true_iff, beq_iff_eq, and_assoc, eq_comm (a := buf[i]?)]

theorem draftHit_last (d : Nat) : draftHit draw buf d d = false := by simp [draftHit]

/-- With `k` drafts left from row `i` on, the rows verified are the leading matches and the first row that is none. -/
theorem verify_eq_matches (draw : Nat → Drawn) (buf : List Nat) (k : Nat) : ∀ i, ∃ m ≤ k,
    verify draw buf (i + k) (k + 1) i =
      (List.range' i m).map (fun j => TokRec.mk (draw j) true) ++ [TokRec.mk (draw (i + m)) false] ∧
    (∀ j, i ≤ j → j < i + m → draftHit draw buf (i + k) j = true) ∧ draftHit draw buf (i + k) (i + m) = false := by
  induction k with
  | zero => exact fun i => ⟨0, le_rfl, by rw [verify_succ]; simp [draftHit_last], fun j _ _ => by omega, draftHit_last i⟩
  | succ k ih =>
    intro i
    rw [verify_succ]
    cases hit : draftHit draw buf (i + (k + 1)) i with
    | false => exact ⟨0, by omega, by simp, fun j _ _ => by omega, hit⟩
    | true =>
      obtain ⟨m, hm, heq, hall, hend⟩ := ih (i + 1)
      rw [show i + 1 + k = i + (k + 1) by omega] at heq hall hend
      rw [show i + 1 + m = i + (m + 1) by omega] at heq hall hend
      refine ⟨m + 1, by omega, ?_, fun j hj hlt => ?_, hend⟩
      · rw [if_pos rfl, heq]
        rfl
      · rcases eq_or_lt_of_le hj with rfl | hlt'
        · exact hit
        · exact hall j hlt' hlt

end

/-! ### The loop -/

section
variable {x : SampSeq} {d a : Nat}

/-- The bounds of a length: the ceiling, and then the floor. -/
theorem fit_eq (h : x.dmin ≤ x.dmax) (n : Nat) : min (max n x.dmin) x.dmax = max x.dmin (min x.dmax n) := by omega

theorem loop_pin (hpin : x.pin = true) : x.loop d a = ({ x with length := x.pinVal }, false) := if_pos hpin

theorem loop_noDraft (hpin : x.pin = false) : x.loop 0 a = if x.zero + 1 = 64
    then ({ x with length := min (max 1 x.dmin) x.dmax, zero := 0 }, false)
    else ({ x with length := min (max 0 x.dmin) x.dmax, zero := x.zero + 1 }, false) := by
  unfold SampSeq.loop
  dsimp only
  rw [if_neg (by simp [hpin]), if_pos rfl]

theorem loop_all (hpin : x.pin = false) (hd : d ≠ 0) : x.loop d d = if x.dmax < d + 1
    then ({ x with length := min (max x.dmax x.dmin) x.dmax, clash := satTo 32 (x.clash + 1) }, true)
    else ({ x with length := min (max (d + 1) x.dmin) x.dmax }, false) := by
  unfold SampSeq.loop
  dsimp only
  rw [if_neg (by simp [hpin]), if_neg hd, if_pos rfl]

theorem loop_none (hpin : x.pin = false) (hd : d ≠ 0) :
    x.loop d 0 = ({ x with length := min (max x.dmin x.dmin) x.dmax }, false) := by
  unfold SampSeq.loop
  dsimp only
  rw [if_neg (by simp [hpin]), if_neg hd, if_neg (Ne.symm hd), if_pos rfl]

theorem loop_some (hpin : x.pin = false) (hd : d ≠ 0) (had : a ≠ d) (ha : a ≠ 0) : x.loop d a = if 2 * a < d
    then (if a + 1 < x.dmin then ({ x with length := min (max x.dmin x.dmin) x.dmax, clash := satTo 32 (x.clash + 1) }, true)
      else ({ x with length := min (max (a + 1) x.dmin) x.dmax }, false))
    else ({ x with length := min (max d x.dmin) x.dmax }, false) := by
  unfold SampSeq.loop
  dsimp only
  rw [if_neg (by simp [hpin]), if_neg hd, if_neg had, if_neg ha]

/-- The loop in one statement for each field it sets (R392). -/
theorem loop_spec (h : x.dmin ≤ x.dmax) :
    ((x.loop d a).1.length = if x.pin then x.pinVal else max x.dmin (min x.dmax
      (if d = 0 then (if x.zero + 1 = 64 then 1 else 0) else if a = d then d + 1 else if a = 0 then x.dmin
        else if 2 * a < d then a + 1 else d))) ∧
    (x.loop d a).1.zero = (if x.pin = false ∧ d = 0 then (if x.zero + 1 = 64 then 0 else x.zero + 1) else x.zero) ∧
    (x.loop d a).1.clash = (if (x.loop d a).2 then satTo 32 (x.clash + 1) else x.clash) ∧
    ((x.loop d a).2 = true ↔ x.pin = false ∧ d ≠ 0 ∧
      (a = d ∧ x.dmax < d + 1 ∨ a ≠ d ∧ a ≠ 0 ∧ 2 * a < d ∧ a + 1 < x.dmin)) := by
  cases hpin : x.pin with
  | true => simp [loop_pin hpin]
  | false =>
    rcases eq_or_ne d 0 with rfl | hd
    · rw [loop_noDraft hpin]
      split <;> simp [fit_eq h, h]
    rcases eq_or_ne a d with rfl | had
    · rw [loop_all hpin hd]
      split
      · next hc => simp [hd, hc, h, min_eq_left hc.le]
      · next hc => simp [hd, hc, fit_eq h]
    rcases eq_or_ne a 0 with rfl | ha
    · rw [loop_none hpin hd]
      simp [hd, Ne.symm hd, h]
    rw [loop_some hpin hd had ha]
    split
    · next hfew =>
      split
      · next hc => simp [hd, had, ha, hfew, hc, h, min_eq_right (hc.le.trans h), max_eq_left hc.le]
      · next hc => simp [hd, had, ha, hfew, hc, fit_eq h]
    · next hmany => simp [hd, had, ha, hmany, fit_eq h]

end

/-- Settles O29: the rows verified are the leading matches and one more, and the loop is taken case by case. -/
theorem draftVerification : Obligations.DraftVerification := by
  unfold Obligations.DraftVerification
  refine ⟨fun draw buf d => ?_, fun x d a => loop_spec⟩
  obtain ⟨m, hm, heq, hall, hend⟩ := verify_eq_matches draw buf d 0
  simp only [Nat.zero_add, zero_le, forall_const, Nat.add_comm d 1] at heq hall hend
  have hrows : (List.range' 0 m).map (fun j => TokRec.mk (draw j) true) ++ [TokRec.mk (draw m) false] =
      (List.range (m + 1)).map fun j => TokRec.mk (draw j) (decide (j < m)) := by
    rw [List.range_succ, List.map_append, ← List.range_eq_range']
    refine congrArg₂ _ (List.map_congr_left fun j hj => ?_) (by simp)
    simp [List.mem_range.mp hj]
  refine ⟨m, hm, ?_, ?_, fun i hi => ?_, fun i hi => ?_, fun hlt => ?_⟩
  · simp [heq]
  · rw [heq, List.filter_append]
    simp [List.filter_map, Function.comp_def]
  · rw [heq, hrows, List.getElem?_map, List.getElem?_range (by omega)]
    rfl
  · obtain ⟨-, hsome, htok⟩ := draftHit_iff.mp (hall i hi)
    exact ⟨hsome, htok⟩
  · by_contra hcon
    obtain ⟨hsome, htok⟩ := not_or.mp hcon
    rw [Bool.eq_false_iff] at hend
    exact hend (draftHit_iff.mpr ⟨hlt, Option.isSome_iff_ne_none.mpr hsome, not_not.mp htok⟩)

end Sys2Proof.Machine
end

section
/-! PROOFS. Frames of a session that is in force, and their answers (R563 to R570, R582). -/

namespace Sys2Proof.Machine

open Sys2Proof

variable {s t u : State} {port : Nat} {h : CtlHdr} {ss : Session} {maj min : Nat}

/-! ### The header of a frame -/

theorem takeInbox_eq (s : State) (port : Nat) (h : CtlHdr) : s.takeInbox port h = { s with inbox := (s.takeInbox port h).inbox } := by
  unfold State.takeInbox
  split <;> rfl

theorem mem_seqPut (seen : List Nat) (seq : Nat) : seq ∈ seqPut seen seq := by
  unfold seqPut
  split <;> simp

/-- A module that answers control frames may emit, and answers in the safe state on the management port alone. -/
theorem emits_of_listening {type : Nat} (hl : listening s port type = true) : mayEmit s = true ∧ (port = 2 ∨ safe s = false) := by
  simp only [listening, Bool.and_eq_true, Bool.or_eq_true, Bool.not_eq_true', beq_iff_eq] at hl
  obtain ⟨⟨-, hmay⟩, hsafe⟩ := hl
  exact ⟨hmay, hsafe.symm.imp And.left id⟩

/-- Nothing is freed by an acknowledgement that says nothing new. -/
theorem ackTo_of_old {sid n : Nat} (hss : tget s.sessions sid = some ss) (hn : n ≤ ss.acked) : s.ackTo sid n = s := by
  unfold State.ackTo
  rw [hss]
  exact if_pos ((min_le_left _ _).trans hn)

theorem mirror_of_alone (hm : mirrors s = false) (ws : List JournalWrite) : s.mirror ws = s := if_neg (by simp [hm])

/-- The session with a new frame among those it has seen. -/
def Session.saw (ss : Session) (h : CtlHdr) : Session := { ss with seen := seqPut ss.seen h.frameSeq }

/-- The state in which a new frame of a session is handled: taken from the inbox, and seen. -/
def State.sawFrame (s : State) (port : Nat) (h : CtlHdr) (ss : Session) : State :=
  { s with inbox := (s.takeInbox port h).inbox, sessions := tset s.sessions h.session (ss.saw h) }

/-- A frame in force is handled, and nothing else of the module changed before. -/
theorem onSession_fresh (hf : FreshFrame s port h ss maj min) (tag : Nat) (act : Session → State → State) :
    onSession (s.takeInbox port h) port h maj min tag act = act (ss.saw h) (s.sawFrame port h ss) := by
  obtain ⟨hlisten, hss, hport, hopen, hfresh, hmagic, hlen, hstatus, hmaj, hmin, hver, hack, halone, -⟩ := hf
  have hsaw : tget (s.sawFrame port h ss).sessions h.session = some (ss.saw h) := tget_tset_self ..
  rw [takeInbox_eq]
  unfold onSession
  rw [if_neg (by rw [show listening { s with inbox := (s.takeInbox port h).inbox } port h.type = true from hlisten]; simp)]
  dsimp only
  rw [hss]
  dsimp only
  rw [if_neg (by simp [hport]), if_neg (by simp [hopen]), if_neg (by simp [hfresh])]
  change (if _ then _ else if _ then _ else
    match tget (((s.sawFrame port h ss).mirror [.seen h.session h.frameSeq]).ackTo h.session h.ack).sessions h.session with
    | none => ((s.sawFrame port h ss).mirror [.seen h.session h.frameSeq]).ackTo h.session h.ack
    | some x => act x (((s.sawFrame port h ss).mirror [.seen h.session h.frameSeq]).ackTo h.session h.ack)) = _
  rw [if_neg (by simp [hmagic, hstatus, hmaj, hmin]; omega), if_neg (by omega), mirror_of_alone (s := s.sawFrame port h ss) halone,
    ackTo_of_old hsaw hack, hsaw]

/-! ### Answers -/

/-- What leaves on a port, where the module may send there. -/
theorem transmit_eq (hmay : mayEmit s = true) (hsafe : port = 2 ∨ safe s = false) (e : Emit) : s.transmit port e =
    { s with out := s.out ++ leaves s port e, cbNext := (s.transmit port e).cbNext } := by
  unfold State.transmit
  rw [if_pos ⟨hmay, hsafe.imp id fun h => by simp [h]⟩]

/-- A session that has answered a frame. -/
def Session.answered (ss : Session) (seq : Nat) (r : Response) : Session :=
  { ss with txSeq := ss.txSeq + 1, answers := tset ss.answers seq { r with seq := ss.txSeq + 1 } }

/-- The state in which a session has numbered and kept an answer. -/
def State.keepAnswer (s : State) (sid seq : Nat) (r : Response) (ss : Session) : State :=
  { s with sessions := tset s.sessions sid (ss.answered seq r) }

section
variable {sid seq : Nat} (hss : tget s.sessions sid = some ss) (halone : mirrors s = false)
  (hconf : confirmed s s.pair.journalSent s.pair.decisionSent = true)
include hss halone hconf

/-- An answer that nothing holds is numbered, kept and sent, and nothing else happens. -/
theorem respond_eq (r : Response) : s.respond port sid seq r =
    (s.keepAnswer sid seq r ss).transmit port (Emit.reply port
      (respHdr (s.keepAnswer sid seq r ss) sid { r with seq := ss.txSeq + 1 }) { r with seq := ss.txSeq + 1 }) := by
  unfold State.respond
  rw [hss]
  change ((s.keepAnswer sid seq r ss).mirror [.answer sid seq _]).reply port sid _ = _
  rw [mirror_of_alone (s := s.keepAnswer sid seq r ss) halone]
  exact if_neg fun hcon => hcon.2 hconf

variable (hmay : mayEmit s = true) (hsafe : port = 2 ∨ safe s = false)
include hmay hsafe

theorem respond_frame (r : Response) : s.respond port sid seq r =
    { s with sessions := tset s.sessions sid (ss.answered seq r), out := (s.respond port sid seq r).out
             cbNext := (s.respond port sid seq r).cbNext } := by
  rw [respond_eq hss halone hconf, transmit_eq (s := s.keepAnswer sid seq r ss) hmay hsafe]
  rfl

theorem out_respond (r : Response) : (s.respond port sid seq r).out = s.out ++ leaves s port
    (Emit.reply port (respHdr (s.respond port sid seq r) sid { r with seq := ss.txSeq + 1 }) { r with seq := ss.txSeq + 1 }) := by
  rw [respond_eq hss halone hconf, transmit_eq (s := s.keepAnswer sid seq r ss) hmay hsafe]
  rfl

end

/-- What decides whether and where the module sends is in `u` as in `s`, and so is what has left it. -/
def SendsAs (s u : State) : Prop := u = { u with regs := s.regs, out := s.out, cbNext := s.cbNext, pair := s.pair }

/-- The answer to a frame that a session has just seen, from a state in which nothing has left yet: it leaves, and nothing else happens. -/
theorem answered_respond (hf : FreshFrame s port h ss maj min) (hu : SendsAs s u) (hsaw : tget u.sessions h.session = some (ss.saw h))
    (r : Response) :
    Answered port h r s (u.respond port h.session h.frameSeq r) ∧
      (∀ k, k ≠ h.session → tget (u.respond port h.session h.frameSeq r).sessions k = tget u.sessions k) ∧
      Kept [] u (u.respond port h.session h.frameSeq r) ∧ u.respond port h.session h.frameSeq r = { u with
        sessions := (u.respond port h.session h.frameSeq r).sessions, out := (u.respond port h.session h.frameSeq r).out
        cbNext := (u.respond port h.session h.frameSeq r).cbNext } := by
  obtain ⟨hlisten, -, -, -, -, -, -, -, -, -, -, -, halone, hconf⟩ := hf
  obtain ⟨hmay, hsafe⟩ := emits_of_listening hlisten
  have hmay' : mayEmit u = true := by rw [hu]; exact hmay
  have hsafe' : port = 2 ∨ safe u = false := by rw [hu]; exact hsafe
  have halone' : mirrors u = false := by rw [hu]; exact halone
  have hconf' : confirmed u u.pair.journalSent u.pair.decisionSent = true := by rw [hu]; exact hconf
  have hleaves : ∀ e, leaves u port e = leaves s port e := by rw [hu]; exact fun _ => rfl
  have hframe := respond_frame hsaw halone' hconf' hmay' hsafe' (seq := h.frameSeq) r
  have hsessions : (u.respond port h.session h.frameSeq r).sessions = tset u.sessions h.session ((ss.saw h).answered h.frameSeq r) := by
    rw [hframe]
  have hout : u.out = s.out := by rw [hu]
  refine ⟨⟨(ss.saw h).answered h.frameSeq r, _, by rw [hsessions, tget_tset_self], rfl, tget_tset_self .., mem_seqPut .., ?_⟩,
    fun k hk => by rw [hsessions, tget_tset_ne _ _ hk.symm], ?_, ?_⟩
  · rw [← hout, ← hleaves]
    exact out_respond hsaw halone' hconf' hmay' hsafe' r
  · rw [hframe]
    exact kept_of_regs rfl rfl rfl rfl _
  · rw [hsessions]
    exact hframe

theorem sawFrame_session (s : State) (port : Nat) (h : CtlHdr) (ss : Session) :
    tget (s.sawFrame port h ss).sessions h.session = some (ss.saw h) := tget_tset_self ..

theorem otherSessions_sawFrame (s : State) (port : Nat) (h : CtlHdr) (ss : Session) : OtherSessions h.session s (s.sawFrame port h ss) :=
  fun _ hk => tget_tset_ne _ _ hk.symm

/-- A command that answers a frame in force at once: the answer leaves, and nothing changes but the session. -/
theorem runs_answered {c : Instr} {r : Response} (hf : FreshFrame s port h ss maj min)
    (hexec : exec c s = .next ((s.sawFrame port h ss).respond port h.session h.frameSeq r)) :
    Runs c s fun t => Answered port h r s t ∧ OtherSessions h.session s t ∧ Kept [] s t ∧
      t = { s with inbox := t.inbox, sessions := t.sessions, out := t.out, cbNext := t.cbNext } := by
  obtain ⟨hans, hother, hkept, hframe⟩ := answered_respond (u := s.sawFrame port h ss) hf rfl (sawFrame_session ..) r
  refine ⟨_, hexec, hans, fun k hk => (hother k hk).trans (otherSessions_sawFrame s port h ss k hk),
    (kept_of_regs rfl rfl rfl rfl _).trans hkept, ?_⟩
  rw [hframe]
  rfl

end Sys2Proof.Machine
end

section
/-! PROOFS. SUBMIT once for each client tag, the operations of clients as events, and an image's time to live (R361, R404, R565, R574
to R577, R588): O41. -/

namespace Sys2Proof.Machine

open Sys2Proof

variable {s t u : State} {port : Nat} {h : CtlHdr} {ss : Session} {b : SubmitBody}

/-! ### SUBMIT -/

/-- The request of the journal that a SUBMIT of a session names by its tag. -/
abbrev taggedReq (s : State) (sid tag : Nat) : Option (Nat × Request) :=
  s.requests.find? fun (x : Nat × Request) => x.2.session == sid && x.2.tag == tag && x.2.state != .expired

/-- The request that a SUBMIT makes at a module whose standby is not in step. -/
def submitted (s : State) (port : Nat) (h : CtlHdr) (ss : Session) (b : SubmitBody) : Request :=
  { session := h.session, part := ss.part, tag := b.w0, body := b, degraded := true, state := .held, highest := none, endSeq := none
    journal := s.pair.journalSent, port := port, seq := h.frameSeq, cancelled := false, entry := [], tokens := [] }

/-- The journal with a request more, in the state given. -/
def State.journaled (s : State) (r : Request) : State :=
  { s with nextReq := s.nextReq + 1, requests := tset s.requests s.nextReq r }

/-- A SUBMIT in force, by what the journal holds. -/
theorem exec_submit (hf : FreshFrame s port h ss 1 0) (hmgmt : ss.mgmt = false) (hver : submitVersionOk ss b = true)
    (hform : submitFormOk b = true) : exec (.submit port h b) s = .next ((taggedReq s h.session b.w0).elim
      (if journalFull (s.sawFrame port h ss) then (s.sawFrame port h ss).respond port h.session h.frameSeq (mkResp 6 1 [b.w0])
        else ((s.sawFrame port h ss).journaled (submitted s port h ss b)).acceptReq (s.sawFrame port h ss).nextReq)
      fun x => if x.2.state = .held
        then (s.sawFrame port h ss).updReq x.1 fun r => { r with port := port, seq := h.frameSeq }
        else (s.sawFrame port h ss).respond port h.session h.frameSeq (acceptResp x.1 x.2)) := by
  have halone : mirrors (s.sawFrame port h ss) = false := by
    obtain ⟨-, -, -, -, -, -, -, -, -, -, -, -, halone, -⟩ := hf
    exact halone
  have hstep : (paired (s.sawFrame port h ss) && pairSt (s.sawFrame port h ss) == 4) = false := by
    revert halone
    unfold mirrors
    cases paired (s.sawFrame port h ss) <;> cases pairSt (s.sawFrame port h ss) == 4 <;> simp
  refine congrArg ok ((onSession_fresh hf b.w0 _).trans ?_)
  dsimp only
  rw [if_neg (by simp [Session.saw, hmgmt]), if_neg (not_not.mpr (show submitVersionOk (ss.saw h) b = true from hver)),
    if_neg (by simp [hform])]
  change (match taggedReq s h.session b.w0 with | some (req, r) => _ | none => _) = _
  cases taggedReq s h.session b.w0 with
  | some x => rfl
  | none =>
    dsimp only [Option.elim]
    rw [hstep, mirror_of_alone halone]
    rfl

/-- The journal with a request more that is accepted. -/
def State.admitted (s : State) (r : Request) : State :=
  { s with nextReq := s.nextReq + 1, requests := tset (tset s.requests s.nextReq r) s.nextReq { r with state := .prefill } }

theorem acceptReq_journaled (s : State) (r : Request) : (s.journaled r).acceptReq s.nextReq =
    (s.admitted r).respond r.port r.session r.seq (acceptResp s.nextReq r) := by
  have hr : tget (s.journaled r).requests s.nextReq = some r := tget_tset_self ..
  unfold State.acceptReq State.updReq
  rw [hr]
  rfl

/-- An entry set makes a table longer by one entry at most, and never shorter. -/
theorem length_tset {α : Type} (l : Tab α) (k : Nat) (v : α) :
    l.length ≤ (tset l k v).length ∧ (tset l k v).length ≤ l.length + 1 := by
  induction l with
  | nil => simp [tset]
  | cons x r ih =>
    obtain ⟨i, a⟩ := x
    unfold tset
    split
    · simp
    · split
      · simp
      · simp only [List.length_cons]
        omega

theorem journalUsed_sawFrame (s : State) (port : Nat) (h : CtlHdr) (ss : Session) :
    journalUsed s ≤ journalUsed (s.sawFrame port h ss) ∧ journalUsed (s.sawFrame port h ss) ≤ journalUsed s + 1 := by
  have hlen := length_tset s.sessions h.session (ss.saw h)
  unfold journalUsed State.sawFrame
  dsimp only
  omega

theorem journalFull_sawFrame (hfull : journalFull s = true) : journalFull (s.sawFrame port h ss) = true := by
  have hused := (journalUsed_sawFrame s port h ss).1
  unfold journalFull at hfull ⊢
  rw [decide_eq_true_iff] at hfull ⊢
  exact hfull.trans hused

theorem journalFull_sawFrame_of_room (hroom : journalUsed s + 1 < setting s 11 65536) :
    journalFull (s.sawFrame port h ss) = false := by
  have hused := (journalUsed_sawFrame s port h ss).2
  unfold journalFull
  rw [decide_eq_false_iff_not]
  exact fun hcon => absurd (show setting s 11 65536 ≤ _ from hcon) (by omega)

section
variable (hf : FreshFrame s port h ss 1 0) (hmgmt : ss.mgmt = false) (hver : submitVersionOk ss b = true)
  (hform : submitFormOk b = true)
include hf hmgmt hver hform

/-- A tag that the journal does not hold makes the next request, answered with ACCEPT. -/
theorem runs_submit_new (hnone : taggedReq s h.session b.w0 = none) (hroom : journalUsed s + 1 < setting s 11 65536) :
    Runs (.submit port h b) s fun t =>
      t.nextReq = s.nextReq + 1 ∧ (∀ k, k ≠ s.nextReq → tget t.requests k = tget s.requests k) ∧
      (∃ r : Request, tget t.requests s.nextReq = some r ∧ r.session = h.session ∧ r.part = ss.part ∧ r.tag = b.w0 ∧ r.body = b ∧
        r.state = .prefill ∧ r.cancelled = false) ∧
      Answered port h (mkResp 5 0 [b.w0, s.nextReq, 1]) s t ∧ OtherSessions h.session s t ∧ t.events = s.events ∧ Kept [] s t := by
  have hexec : exec (.submit port h b) s = .next (((s.sawFrame port h ss).admitted (submitted s port h ss b)).respond port h.session
      h.frameSeq (mkResp 5 0 [b.w0, s.nextReq, 1])) := by
    rw [exec_submit hf hmgmt hver hform, hnone, Option.elim_none, if_neg (by simp [journalFull_sawFrame_of_room hroom]),
      acceptReq_journaled]
    rfl
  obtain ⟨hans, hother, hkept, hframe⟩ := answered_respond (u := (s.sawFrame port h ss).admitted (submitted s port h ss b)) hf rfl
    (sawFrame_session s port h ss) (mkResp 5 0 [b.w0, s.nextReq, 1])
  generalize State.respond _ _ _ _ _ = t at hexec hans hother hkept hframe
  refine ⟨t, hexec, ?_⟩
  refine ⟨by rw [hframe]; rfl, fun k hk => ?_, ⟨{ submitted s port h ss b with state := .prefill }, ?_, rfl, rfl, rfl, rfl, rfl, rfl⟩,
    hans, fun k hk => (hother k hk).trans (otherSessions_sawFrame s port h ss k hk), by rw [hframe]; rfl,
    Kept.trans (kept_of_regs rfl rfl rfl rfl _) hkept⟩
  · rw [hframe]
    exact (tget_tset_ne _ _ hk.symm).trans (tget_tset_ne _ _ hk.symm)
  · rw [hframe]
    exact tget_tset_self ..

/-- A tag that the journal holds gets its ACCEPT again. -/
theorem runs_submit_again {req : Nat} {r : Request} (hsome : taggedReq s h.session b.w0 = some (req, r)) (hheld : r.state ≠ .held) :
    Runs (.submit port h b) s fun t => t.requests = s.requests ∧ t.nextReq = s.nextReq ∧
      Answered port h (mkResp 5 0 [r.tag, req, if r.degraded then 1 else 0]) s t ∧ Kept [] s t := by
  have hexec := exec_submit hf hmgmt hver hform
  rw [hsome, Option.elim_some, if_neg hheld] at hexec
  obtain ⟨t, ht, hans, -, hkept, hframe⟩ := runs_answered hf hexec
  exact ⟨t, ht, by rw [hframe], by rw [hframe], hans, hkept⟩

/-- A journal without room refuses a new tag with BUSY (R577). -/
theorem runs_submit_full (hnone : taggedReq s h.session b.w0 = none) (hfull : journalFull s = true) :
    Runs (.submit port h b) s fun t => t.requests = s.requests ∧ t.nextReq = s.nextReq ∧
      Answered port h (mkResp 6 1 [b.w0]) s t ∧ Kept [] s t := by
  have hexec := exec_submit hf hmgmt hver hform
  rw [hnone, Option.elim_none, if_pos (journalFull_sawFrame hfull)] at hexec
  obtain ⟨t, ht, hans, -, hkept, hframe⟩ := runs_answered hf hexec
  exact ⟨t, ht, by rw [hframe], by rw [hframe], hans, hkept⟩

end

/-! ### CANCEL, PAUSE and RESUME -/

/-- What an operation of a client raises: an event, with the operation it carries (R361, R588). -/
def OpRaised (s t : State) (port kind ttl req part : Nat) (h : CtlHdr) : Prop :=
  t.clientOps = s.clientOps ++ [ClientOp.mk req kind ttl port h.session h.frameSeq] ∧
    RaisedP 52 0x30 part (req + kind * 2 ^ 64) s t ∧ t.requests = s.requests ∧ t.out = s.out ∧ Kept [] s t

theorem opRaised_clientOpFrame {req : Nat} {r : Request} (hf : FreshFrame s port h ss 2 0) (hmgmt : ss.mgmt = false)
    (hr : tget s.requests req = some r) (hown : r.session = h.session) (kind ttl : Nat) :
    OpRaised s (clientOpFrame port kind h req ttl s) port kind ttl req r.part h := by
  have heq : clientOpFrame port kind h req ttl s = { s.sawFrame port h ss with
      clientOps := s.clientOps ++ [ClientOp.mk req kind ttl port h.session h.frameSeq] }.raiseP 52 0x30 r.part
        (req + kind * 2 ^ 64) none := by
    refine (onSession_fresh hf 0 _).trans ?_
    dsimp only
    rw [if_neg (by simp [Session.saw, hmgmt]), show tget (s.sawFrame port h ss).requests req = some r from hr]
    exact if_neg (not_not.mpr hown)
  rw [heq]
  exact ⟨rfl, rfl, rfl, rfl, kept_of_regs rfl rfl rfl rfl _⟩

/-- An operation on a request that is not known is refused. -/
theorem clientOpFrame_unknown {req : Nat} (hf : FreshFrame s port h ss 2 0) (hmgmt : ss.mgmt = false)
    (hnone : tget s.requests req = none)
    (kind ttl : Nat) : clientOpFrame port kind h req ttl s =
      (s.sawFrame port h ss).respond port h.session h.frameSeq (mkResp 0x0D 5 []) := by
  refine (onSession_fresh hf 0 _).trans ?_
  dsimp only
  rw [if_neg (by simp [Session.saw, hmgmt]), show tget (s.sawFrame port h ss).requests req = none from hnone]

/-! ### An image's time to live -/

theorem exec_ttlExpiry {req : Nat} {im : Image} (hnext : nextDue s req = some im) (hcomplete : im.complete = true)
    (hdue : im.ttl * 10 ^ 9 ≤ im.age s) (hmay : mayEmit s = true) (hon : dieOn s = true) (hfrozen : s.frozen = false)
    (hevent : s.events.any (fun e => e.type == 0x31 && e.payload == req) = false) :
    exec (.ttlExpiry req) s = .next (s.raiseP 52 0x31 im.part req none) := by
  have hisDue : im.due s = true := by
    rw [Image.due, hcomplete, Bool.true_and, decide_eq_true_iff]
    exact hdue
  change execTtlExpiry req s = _
  unfold execTtlExpiry
  rw [hnext]
  exact if_pos ⟨hisDue, hmay, hon, hfrozen, by simp [hevent]⟩

/-- Settles O41: a frame in force is handled in the state that has seen it, and each of the four by what it finds there. -/
theorem requestsAndOperations : Obligations.RequestsAndOperations := by
  unfold Obligations.RequestsAndOperations
  refine ⟨fun port h b s ss hf hmgmt hver hform => ⟨fun hnone hroom _ => ?_, fun req r hsome hheld => ?_, fun hnone hfull => ?_⟩,
    fun port req ttl h s ss r hf hmgmt hr hown => ⟨?_, ?_, ?_⟩, fun port req h s ss hf hmgmt hnone => ?_,
    fun req s im hnext hcomplete hdue hmay hon hfrozen hevent => ?_⟩
  · exact runs_submit_new hf hmgmt hver hform hnone hroom
  · exact runs_submit_again hf hmgmt hver hform hsome hheld
  · exact runs_submit_full hf hmgmt hver hform hnone hfull
  · exact ⟨_, rfl, opRaised_clientOpFrame hf hmgmt hr hown 1 0⟩
  · exact ⟨_, rfl, opRaised_clientOpFrame hf hmgmt hr hown 2 ttl⟩
  · exact ⟨_, rfl, opRaised_clientOpFrame hf hmgmt hr hown 3 0⟩
  · have hexec : exec (.cancel port h req) s = .next ((s.sawFrame port h ss).respond port h.session h.frameSeq (mkResp 0x0D 5 [])) :=
      congrArg ok (clientOpFrame_unknown hf hmgmt hnone 1 0)
    obtain ⟨t, ht, hans, -, hkept, hframe⟩ := runs_answered hf hexec
    exact ⟨t, ht, hans, by rw [hframe], by rw [hframe], hkept⟩
  · exact ⟨_, exec_ttlExpiry hnext hcomplete hdue hmay hon hfrozen hevent, rfl, kept_of_regs rfl rfl rfl rfl _, rfl⟩

end Sys2Proof.Machine
end

section
/-! PROOFS. What a record sent to the partner of a pair leaves unchanged (R574, R649 to R654, R692). -/

namespace Sys2Proof.Machine

open Sys2Proof

variable {s t u : State} {j : Nat}

/-- The registers in which a link counts what it sends, with the debug unit's counters of its bytes. -/
def linkRegs : List Nat := (List.range 8).map lkTx ++ gcntRegs

/-- From `s` to `t` something may have been sent to the partner: nothing else changed. -/
def PairOnly (s t : State) : Prop :=
  t = { s with regs := t.regs, links := t.links, out := t.out, pair := t.pair, traces := t.traces, trcDropped := t.trcDropped
               traceHold := t.traceHold } ∧ RegsKept linkRegs s t

theorem PairOnly.refl (s : State) : PairOnly s s := ⟨rfl, .refl _ s⟩

theorem PairOnly.trans (h : PairOnly s t) (h' : PairOnly t u) : PairOnly s u := ⟨by rw [h'.1, h.1], h.2.trans h'.2⟩

theorem PairOnly.ite {p : Prop} [Decidable p] (ht : PairOnly s t) (hu : PairOnly s u) : PairOnly s (if p then t else u) := by
  split <;> assumption

theorem lkTx_home (hj : j < 8) : homeAddr (lkTx j) = lkTx j := by
  have hdiv : j / 4 < 2 := by omega
  have hmod : j % 4 < 4 := by omega
  unfold lkTx homeAddr
  dsimp only [A.wpTxCtr]
  split_ifs <;> omega

theorem lkTx_mem_linkRegs (hj : j < 8) : homeAddr (lkTx j) ∈ linkRegs := by
  rw [lkTx_home hj]
  exact List.mem_append_left _ (List.mem_map.mpr ⟨j, List.mem_range.mpr hj, rfl⟩)

theorem pairOnly_setLink (s : State) (j : Nat) (l : Link) : PairOnly s (s.setLink j l) := ⟨rfl, .of_regs rfl⟩

theorem pairOnly_emit (s : State) (e : Emit) : PairOnly s (s.emit e) := ⟨rfl, .of_regs rfl⟩

theorem pairOnly_countTx (s : State) (hj : j < 8) (v : Nat) : PairOnly s (s.setReg (lkTx j) v) :=
  ⟨rfl, .setReg v (.refl _ s) (lkTx_mem_linkRegs hj)⟩

theorem pairOnly_warpOut (s : State) (j type : Nat) (f : WarpFrame) : PairOnly s (s.warpOut j type f) := by
  have hcount := dbgOnly_gcount s 8 j (warpBytes f) (if 1 ≤ type ∧ type ≤ 4 then some f.part else none)
  refine PairOnly.trans ⟨?_, hcount.2.mono fun a ha => List.mem_append_right _ ha⟩ (pairOnly_emit _ _)
  rw [hcount.1]

theorem pairOnly_putFrame (s : State) (hj : j < 8) (type : Nat) (f : WarpFrame) : PairOnly s (s.putFrame j type f) :=
  (pairOnly_countTx s hj _).trans ((pairOnly_setLink _ j _).trans (pairOnly_warpOut _ j type _))

theorem pairOnly_sendOn (s : State) (hj : j < 8) (type : Nat) (f : WarpFrame) : PairOnly s (s.sendOn j type f) :=
  .ite ((pairOnly_putFrame s hj type f).trans (.ite ((pairOnly_setLink _ j _).trans (pairOnly_putFrame _ hj _ _)) (.refl _))) (.refl s)

theorem pairLink_lt (h : pairLink s = some j) : j < 8 := List.mem_range.mp (List.mem_of_find?_eq_some h)

theorem pairOnly_pairSend (s : State) (type : Nat) (e : Emit) : PairOnly s (s.pairSend type e) := by
  unfold State.pairSend
  split
  · exact .refl s
  · next j hj => exact .ite ((pairOnly_sendOn s (pairLink_lt hj) type _).trans (pairOnly_emit _ e)) (.refl s)

theorem pairOnly_mirror (s : State) (ws : List JournalWrite) : PairOnly s (s.mirror ws) := by
  have hnumber : ∀ p, PairOnly s { s with pair := p } := fun p => ⟨rfl, .of_regs rfl⟩
  exact .ite ((hnumber _).trans (pairOnly_pairSend _ _ _)) (.refl s)

end Sys2Proof.Machine
end

section
/-! PROOFS. The entries of a SAMPLE, sampled one after the other: what each gives and what it leaves unchanged (R361, R381 to R393,
R399, R401). -/

namespace Sys2Proof.Machine

open Sys2Proof

variable {s t u : State} {es es' : List SampEnt} {e : SampEnt} {part : Nat} {draw : Nat → Drawn} {o : SampOut}

/-! ### The frame of entries -/

/-- The registers in which the SP counts, with those of a record sent to the partner. -/
abbrev sampRegs : List Nat := [A.spLoopClash, A.spDraftStats, A.spDropCount] ++ (List.range 8).map lkTx ++ gcntRegs

/-- From `s` to `t` entries of a list were sampled: of the sampler's sequences and of the requests only theirs changed, and nothing else
but what the SP counts and what the partner is sent. -/
structure EntriesDone (es : List SampEnt) (s t : State) : Prop where
  only : t = { s with regs := t.regs, samp := t.samp, requests := t.requests, links := t.links, out := t.out, pair := t.pair
                      traces := t.traces, trcDropped := t.trcDropped, traceHold := t.traceHold }
  regs : RegsKept sampRegs s t
  samp : ∀ q, (∀ e ∈ es, e.seq ≠ q) → sampSeq t q = sampSeq s q
  requests : ∀ k, (∀ e ∈ es, e.reqSeq ≠ k) → tget t.requests k = tget s.requests k

namespace EntriesDone

theorem refl (es : List SampEnt) (s : State) : EntriesDone es s s := ⟨rfl, .refl _ s, fun _ _ => rfl, fun _ _ => rfl⟩

theorem trans (h : EntriesDone es s t) (h' : EntriesDone es t u) : EntriesDone es s u :=
  ⟨by rw [h'.only, h.only], h.regs.trans h'.regs, fun q hq => (h'.samp q hq).trans (h.samp q hq),
    fun k hk => (h'.requests k hk).trans (h.requests k hk)⟩

theorem mono (h : EntriesDone es s t) (hes : ∀ e ∈ es, e ∈ es') : EntriesDone es' s t :=
  ⟨h.only, h.regs, fun q hq => h.samp q fun e he => hq e (hes e he), fun k hk => h.requests k fun e he => hk e (hes e he)⟩

theorem ite {p : Prop} [Decidable p] (ht : EntriesDone es s t) (hu : EntriesDone es s u) : EntriesDone es s (if p then t else u) := by
  split <;> assumption

theorem cancels (h : EntriesDone es s t) : t.cancels = s.cancels := by rw [h.only]
theorem events (h : EntriesDone es s t) : t.events = s.events := by rw [h.only]
theorem tracked (h : EntriesDone es s t) : t.tracked = s.tracked := by rw [h.only]

theorem of_pairOnly (h : PairOnly s t) : EntriesDone es s t := by
  refine ⟨by rw [h.1], h.2.mono fun a ha => ?_, fun q _ => by rw [h.1]; rfl, fun k _ => by rw [h.1]⟩
  rw [linkRegs, List.mem_append] at ha
  simp only [List.mem_append]
  exact ha.imp .inr id

theorem sampRegs_apart {a : Nat} (h : a ∈ sampRegs) : a < 0x030003008100 ∨ 0x03000300A000 ≤ a := by
  simp only [gcntRegs, List.mem_append, List.mem_map, List.mem_range, List.mem_cons, List.not_mem_nil, or_false] at h
  obtain ((rfl | rfl | rfl) | ⟨j, hj, rfl⟩) | ⟨i, hi, rfl⟩ := h <;>
    simp only [A.spLoopClash, A.spDraftStats, A.spDropCount, lkTx, A.wpTxCtr, A.dbgGcnt] <;> omega

theorem kept (h : EntriesDone es s t) : Kept sampRegs s t :=
  kept_of_regsKept h.regs (by rw [h.only]) (by rw [h.only]) (by rw [h.only]; rfl) fun _ => sampRegs_apart

end EntriesDone

/-! ### One entry -/

theorem entriesDone_setSamp (s : State) (e : SampEnt) (x : SampSeq) : EntriesDone [e] s (s.setSamp e.seq x) :=
  ⟨rfl, .of_regs rfl, fun _ hq => sampSeq_setSamp_ne s x (hq e (by simp)), fun _ _ => rfl⟩

/-- A counter of the SP raised. -/
theorem entriesDone_bump (s : State) {a : Nat} (ha : a ∈ [A.spLoopClash, A.spDraftStats, A.spDropCount]) (f : Nat × Nat) (n : Nat) :
    EntriesDone es s (s.bump a f n) := by
  have hhome : homeAddr a = a := by
    simp only [List.mem_cons, List.not_mem_nil, or_false] at ha
    obtain rfl | rfl | rfl := ha <;> decide
  refine ⟨rfl, .bump f n (.refl _ s) ?_, fun _ _ => rfl, fun _ _ => rfl⟩
  rw [hhome]
  exact List.mem_append_left _ (List.mem_append_left _ ha)

theorem updReq_eq {req : Nat} {r : Request} (hr : tget s.requests req = some r) (f : Request → Request) :
    s.updReq req f = { s with requests := tset s.requests req (f r) } := by
  unfold State.updReq
  rw [hr]

theorem entriesDone_noteEntry (s : State) (part : Nat) (e : SampEnt) (em : List TokRec) (drop ended : Bool) :
    EntriesDone [e] s (s.noteEntry part e em drop ended) := by
  have hset : ∀ l : Tab Request, (∀ k, e.reqSeq ≠ k → tget l k = tget s.requests k) → EntriesDone [e] s { s with requests := l } :=
    fun l hl => ⟨rfl, .of_regs rfl, fun _ _ => rfl, fun k hk => hl k (hk e (by simp))⟩
  unfold State.noteEntry
  cases hr : tget s.requests e.reqSeq with
  | none => exact .refl _ s
  | some r =>
    dsimp only
    rw [updReq_eq hr]
    exact .ite (.refl _ s) (.ite ((hset _ fun k hk => tget_tdel_ne _ hk).trans (.of_pairOnly (pairOnly_mirror _ _)))
      (hset _ fun k hk => tget_tset_ne _ _ hk))

/-- The runtime notes in a request that runs what an entry sampled for it (R361, Table 6-1). -/
theorem noteEntry_notes {r : Request} (hr : tget s.requests e.reqSeq = some r) (hpart : r.part = part)
    (hstate : r.state = .prefill ∨ r.state = .decode) (em : List TokRec) (ended : Bool) :
    ∃ r' : Request, tget (s.noteEntry part e em false ended).requests e.reqSeq = some r' ∧ r'.entry = e.raw ∧
      (r'.state = .decode ∨ r'.state = .ended) := by
  unfold State.noteEntry
  rw [hr]
  dsimp only
  rw [if_neg (not_not.mpr hpart), if_neg (by simp), updReq_eq hr]
  refine ⟨_, tget_tset_self .., rfl, ?_⟩
  dsimp only
  rw [if_pos hstate]
  cases ended <;> simp

/-- A draft entry appends its token to the buffer, where there is room. -/
theorem sampleEntry_of_draft (hd : e.draft = true) : s.sampleEntry part e draw o =
    (if (sampSeq s e.seq).buf.length < 16
      then s.setSamp e.seq { sampSeq s e.seq with buf := (sampSeq s e.seq).buf ++ [(draw 0).token.getD 0xFFFFFFFF] } else s,
      { o with toks := o.toks ++ [leBytes 4 ((draw 0).token.getD 0xFFFFFFFF)] }) := if_pos hd

/-- A record is dropped where the entry's group is marked (R399). -/
def dropsRecords (s : State) (part : Nat) (e : SampEnt) : Bool := e.group != 0 && groupMarked s part e.group

/-- A main entry sets its sequence and counts, and then its request is noted; it gives a token, and records that go into the batch
unless they are dropped. -/
theorem sampleEntry_of_main (hd : e.draft = false) : ∃ (u : State) (em : List TokRec) (ended : Bool) (n a last k : Nat)
    (res : List Byte), EntriesDone [e] s u ∧ u.requests = s.requests ∧ s.sampleEntry part e draw o =
      (u.noteEntry part e em (dropsRecords s part e) ended,
        { recs := if dropsRecords s part e then o.recs else o.recs ++ em.mapIdx fun i t => tokenRec e n a i t
          toks := o.toks ++ [leBytes 4 last], resolve := o.resolve ++ res, dropped := k }) := by
  unfold State.sampleEntry
  dsimp only
  rw [if_neg (by simp [hd])]
  have hset := entriesDone_setSamp s e ({ sampSeq s e.seq with buf := [] }.loop e.ndraft
    ((verify draw (sampSeq s e.seq).buf e.ndraft (1 + e.ndraft) 0).filter TokRec.draft).length).1
  have hcount : ∀ (u : State) (p a n : Nat) (c : Prop) [Decidable c], EntriesDone [e] u (if c then
      ((u.bump A.spDraftStats A.spDraftStats_proposed p).bump A.spDraftStats A.spDraftStats_accepted a).bump A.spDropCount
        A.spDropCount_records n
      else (u.bump A.spDraftStats A.spDraftStats_proposed p).bump A.spDraftStats A.spDraftStats_accepted a) := fun u p a n c _ =>
    ((entriesDone_bump u (by simp) _ _).trans (entriesDone_bump _ (by simp) _ _)).trans (.ite (entriesDone_bump _ (by simp) _ _) (.refl _ _))
  split
  · refine ⟨_, _, _, _, _, _, _, _, hset.trans ((entriesDone_bump _ (by simp) _ _).trans (hcount ..)), ?_, rfl⟩
    split <;> rfl
  · refine ⟨_, _, _, _, _, _, _, _, hset.trans (hcount ..), ?_, rfl⟩
    split <;> rfl

/-- What `n` entries add to the results: `n` tokens, and records of 32 bytes. -/
structure Gives (n : Nat) (o o' : SampOut) : Prop where
  toks : o'.toks.length = o.toks.length + n
  recs : (∀ x ∈ o.recs, x.length = 32) → ∀ x ∈ o'.recs, x.length = 32

@[simp] theorem length_tokenRec (e : SampEnt) (n a i : Nat) (x : TokRec) : (tokenRec e n a i x).length = 32 := by
  simp [tokenRec, rec32]

theorem sampleEntry_done (s : State) (part : Nat) (e : SampEnt) (draw : Nat → Drawn) (o : SampOut) :
    EntriesDone [e] s (s.sampleEntry part e draw o).1 ∧ Gives 1 o (s.sampleEntry part e draw o).2 := by
  cases hd : e.draft with
  | true =>
    rw [sampleEntry_of_draft hd]
    exact ⟨.ite (entriesDone_setSamp s e _) (.refl _ s), by simp, id⟩
  | false =>
    obtain ⟨u, em, ended, n, a, last, k, res, hu, -, heq⟩ := sampleEntry_of_main (s := s) (part := part) (draw := draw) (o := o) hd
    rw [heq]
    refine ⟨hu.trans (entriesDone_noteEntry u part e em _ ended), by simp, fun hrecs x hx => ?_⟩
    dsimp only at hx
    split at hx
    · exact hrecs x hx
    · rcases List.mem_append.mp hx with hx | hx
      · exact hrecs x hx
      · obtain ⟨i, -, rfl⟩ := List.mem_mapIdx.mp hx
        exact length_tokenRec ..

/-! ### Every entry -/

/-- Entries sampled in their order, each with the first of its rows. -/
def sampleList (part : Nat) (draw : SampEnt × Nat × Nat → Nat → Drawn) (l : List (SampEnt × Nat × Nat)) (a : State × SampOut) :
    State × SampOut := l.foldl (fun a x => a.1.sampleEntry part x.1 (draw x) a.2) a

theorem sampleList_done (part : Nat) (draw : SampEnt × Nat × Nat → Nat → Drawn) (l : List (SampEnt × Nat × Nat)) :
    ∀ a, EntriesDone (l.map Prod.fst) a.1 (sampleList part draw l a).1 ∧ Gives l.length a.2 (sampleList part draw l a).2 := by
  induction l with
  | nil => exact fun a => ⟨.refl _ _, rfl, id⟩
  | cons x r ih =>
    intro a
    obtain ⟨hone, hgives⟩ := sampleEntry_done a.1 part x.1 (draw x) a.2
    obtain ⟨hrest, hgives'⟩ := ih (a.1.sampleEntry part x.1 (draw x) a.2)
    refine ⟨(hone.mono (by simp)).trans (hrest.mono (by simp +contextual)), ?_, fun h => hgives'.recs (hgives.recs h)⟩
    have htoks := hgives'.toks
    rw [hgives.toks] at htoks
    rw [List.length_cons]
    exact htoks.trans (by omega)

@[simp] theorem length_firstRows (f : SampEnt → Nat) (es : List SampEnt) : ∀ n, (firstRows f n es).length = es.length := by
  induction es with
  | nil => exact fun _ => rfl
  | cons e r ih => exact fun n => congrArg Nat.succ (ih _)

/-- No result yet. -/
def SampOut.none : SampOut := { recs := [], toks := [], resolve := [], dropped := 0 }

theorem sampleAll_eq (s : State) (part : Nat) (opb : List Byte) (es : List SampEnt) (xs ms : List Byte) :
    ∃ (draw : SampEnt × Nat × Nat → Nat → Drawn) (l : List (SampEnt × Nat × Nat)), l.map Prod.fst = es ∧
      s.sampleAll part opb es xs ms = sampleList part draw l (s, .none) := by
  unfold State.sampleAll sampleList SampOut.none
  exact ⟨_, es.zip ((firstRows SampEnt.rows 0 es).zip (firstRows (fun e => if e.mask then e.rows else 0) 0 es)),
    List.map_fst_zip (by simp), rfl⟩

/-- All entries sampled: a token for each, and records of 32 bytes. -/
theorem sampleAll_done (s : State) (part : Nat) (opb : List Byte) (es : List SampEnt) (xs ms : List Byte) :
    EntriesDone es s (s.sampleAll part opb es xs ms).1 ∧ (s.sampleAll part opb es xs ms).2.toks.length = es.length ∧
      ∀ x ∈ (s.sampleAll part opb es xs ms).2.recs, x.length = 32 := by
  obtain ⟨draw, l, rfl, heq⟩ := sampleAll_eq s part opb es xs ms
  obtain ⟨hdone, htoks, hrecs⟩ := sampleList_done part draw l (s, .none)
  rw [heq, List.length_map]
  exact ⟨hdone, htoks.trans (Nat.zero_add _), hrecs (by simp [SampOut.none])⟩

/-- The runtime notes what the one entry of a SAMPLE sampled for a request that runs, unless its records are dropped. -/
theorem sampleAll_notes {r : Request} {opb xs ms : List Byte} (hd : e.draft = false)
    (hkeep : e.group = 0 ∨ groupMarked s part e.group = false) (hr : tget s.requests e.reqSeq = some r) (hpart : r.part = part)
    (hstate : r.state = .prefill ∨ r.state = .decode) :
    ∃ r' : Request, tget (s.sampleAll part opb [e] xs ms).1.requests e.reqSeq = some r' ∧ r'.entry = e.raw ∧
      (r'.state = .decode ∨ r'.state = .ended) := by
  have hdrop : dropsRecords s part e = false := by
    unfold dropsRecords
    rcases hkeep with h | h <;> simp [h]
  obtain ⟨draw, l, hl, heq⟩ := sampleAll_eq s part opb [e] xs ms
  obtain ⟨x, rfl, rfl⟩ := List.map_eq_singleton_iff.mp hl
  obtain ⟨u, em, ended, n, a, last, k, res, -, hreqs, hmain⟩ :=
    sampleEntry_of_main (s := s) (part := part) (draw := draw x) (o := .none) hd
  rw [heq]
  change ∃ r', tget (s.sampleEntry part x.1 (draw x) .none).1.requests x.1.reqSeq = some r' ∧ _
  rw [hmain, hdrop]
  exact noteEntry_notes (by rw [hreqs]; exact hr) hpart hstate em ended

/-! ### Entries of requests that were cancelled -/

theorem markEntry_of_noDue (h : ∀ d ∈ s.cancelDue, d.1 ≠ e.reqSeq) (slot part : Nat) : s.markEntry slot part e = s := by
  have hnone : (s.cancelDue.find? fun d => d.1 == e.reqSeq) = none := List.find?_eq_none.mpr fun d hd => by simp [h d hd]
  unfold State.markEntry
  rw [hnone]
  cases tget s.requests e.reqSeq <;> rfl

theorem markEntries_of_noDue (slot part : Nat) (h : ∀ e ∈ es, ∀ d ∈ s.cancelDue, d.1 ≠ e.reqSeq) :
    es.foldl (fun s e => s.markEntry slot part e) s = s := by
  induction es with
  | nil => rfl
  | cons e r ih =>
    rw [List.foldl_cons, markEntry_of_noDue (h e (by simp)), ih fun e he => h e (by simp [he])]

/-- A group marked stays marked, and one that is not 0 is then marked. -/
theorem cancels_markGroup (s : State) (part group : Nat) :
    (∀ k ∈ s.cancels, k ∈ (s.markGroup part group).cancels) ∧ (group ≠ 0 → (part, group) ∈ (s.markGroup part group).cancels) := by
  unfold State.markGroup
  split
  · next h => exact ⟨fun k hk => hk, fun hg => List.contains_iff_mem.mp (h.resolve_left hg)⟩
  · exact ⟨fun k hk => List.mem_append_left _ hk, fun _ => List.mem_append_right _ (List.mem_singleton.mpr rfl)⟩

theorem cancels_markEntry (s : State) (slot part : Nat) (e : SampEnt) {k : Nat × Nat} (hk : k ∈ s.cancels) :
    k ∈ (s.markEntry slot part e).cancels := by
  unfold State.markEntry
  split
  · split
    · exact (cancels_markGroup _ _ _).1 k hk
    · exact hk
  · exact hk

theorem cancels_markEntries (slot part : Nat) {k : Nat × Nat} (es : List SampEnt) : ∀ s : State, k ∈ s.cancels →
    k ∈ (es.foldl (fun s e => s.markEntry slot part e) s).cancels := by
  induction es with
  | nil => exact fun s hk => hk
  | cons e r ih => exact fun s hk => ih _ (cancels_markEntry s slot part e hk)

/-- An entry of a request whose CANCEL was accepted before the command marks its group (R361, R366). -/
theorem markEntry_marks {r : Request} {slot m : Nat} (hd : e.draft = false) (hr : tget s.requests e.reqSeq = some r)
    (hpart : r.part = part) (hdue : (s.cancelDue.find? fun d => d.1 == e.reqSeq) = some (e.reqSeq, m)) (hm : m ≤ slot)
    (hg : e.group ≠ 0) : (part, e.group) ∈ (s.markEntry slot part e).cancels := by
  unfold State.markEntry
  rw [hr, hdue]
  dsimp only
  rw [if_pos ⟨hpart, hm, by simp [hd]⟩]
  exact (cancels_markGroup _ _ _).2 hg

end Sys2Proof.Machine
end

section
/-! PROOFS. SAMPLE opens, takes a tile of logits, samples its entries, and emits the step batch (R367 to R373, R379, R381 to R386): O28. -/

namespace Sys2Proof.Machine

open Sys2Proof

variable {slot : Nat} {s : State} {k : Tracked} {es : List SampEnt}

/-! ### Opening -/

theorem exec_sample_unopened (hrun : runningCmd s slot 0x60 = some k) (hopen : k.work.opened = false) :
    exec (.sample slot) s = .next (s.sampOpen slot k) := by
  change execSample slot s = _
  unfold execSample
  rw [hrun]
  exact if_pos (by simp [hopen])

/-- An entry list that can be read and passes its checks is loaded. -/
theorem sampOpen_eq {bs : List Byte} (hbs : bs = softBytes s (smEntAddr k.opb) (64 * smCount k.opb)) (hal : smEntAddr k.opb % 64 = 0)
    (hown : ownsRange s k.part (smEntAddr k.opb) (64 * smCount k.opb) = true)
    (hgood : badRange s (smEntAddr k.opb) (64 * smCount k.opb) = false)
    (hclear : clearingAt s (smEntAddr k.opb) (64 * smCount k.opb) = false) (hcheck : sampCheck s k (sampEnts (smCount k.opb) bs) = none) :
    s.sampOpen slot k = s.engineOpened slot [bs] := by
  subst hbs
  unfold State.sampOpen
  dsimp only
  rw [if_neg (by simp [hal, hown]), if_neg (by simp [hclear]), if_neg (by simp [hgood]), hcheck]

theorem runs_sample_open {bs : List Byte} (hrun : runningCmd s slot 0x60 = some k) (hopen : k.work.opened = false)
    (hbs : bs = softBytes s (smEntAddr k.opb) (64 * smCount k.opb)) (hal : smEntAddr k.opb % 64 = 0)
    (hown : ownsRange s k.part (smEntAddr k.opb) (64 * smCount k.opb) = true)
    (hgood : badRange s (smEntAddr k.opb) (64 * smCount k.opb) = false)
    (hclear : clearingAt s (smEntAddr k.opb) (64 * smCount k.opb) = false) (hcheck : sampCheck s k (sampEnts (smCount k.opb) bs) = none) :
    Runs (.sample slot) s fun t' => (∃ u : Tracked, t'.cmd? slot = some u ∧ u.work.opened = true ∧ u.loaded = [bs]) ∧
      Kept [] s t' ∧ t' = { s with tracked := t'.tracked } := by
  obtain ⟨hc, -⟩ := runningCmd_eq_some hrun
  have hexec := exec_sample_unopened hrun hopen
  rw [sampOpen_eq hbs hal hown hgood hclear hcheck] at hexec
  exact ⟨_, hexec, ⟨_, cmd?_engineOpened hc [bs], rfl, rfl⟩, kept_of_regs rfl rfl rfl rfl _, rfl⟩

/-! ### Taking a tile -/

theorem exec_sample_takes {b : InBind} {x : Tile} {r : List Tile} (hrun : runningCmd s slot 0x60 = some k)
    (hopen : k.work.opened = true) (hes : es = sampEnts (smCount k.opb) (k.loaded[0]?.getD [])) (hfails : k.work.fails = 0)
    (hb : k.ins[0]? = some b) (hw : b.window = x :: r) : exec (.sample slot) s = .next (s.sampTake slot k es 0 b x) := by
  obtain ⟨n, hn⟩ : ∃ n, k.ins.length = n + 1 := Nat.exists_eq_succ_of_ne_zero (by
    have hlt := (List.getElem?_eq_some_iff.mp hb).1
    omega)
  subst hes
  change execSample slot s = _
  unfold execSample
  rw [hrun]
  dsimp only
  rw [if_neg (by simp [hopen]), if_pos hfails, hn, List.range_succ_eq_map, List.findSome?_cons, hb, Option.bind_some, hw]
  rfl

/-- Logits of the right shape are taken, and their credit returned. -/
theorem sampTake_logits {b : InBind} {x : Tile} (hok : sampTileOk (smFmt k.opb)
    (logitTiles (smFmt k.opb) (smVocab k.opb) * (es.map SampEnt.rows).sum) (rowsIn b.taken) x = true) :
    s.sampTake slot k es 0 b x = (s.takeReleased slot 0 (b.taken.length + 1)).maskWait slot es := if_pos hok

/-- Where no wait for a mask runs, one may begin, and nothing else happens. -/
theorem maskWait_of_idle {c : Tracked} (hc : s.cmd? slot = some c) (hfails : c.work.fails = 0) (es : List SampEnt) :
    s.maskWait slot es = s ∨
      s.maskWait slot es = s.updCmd slot fun u => { u with work := { u.work with fails := s.tb.n + 1 } } := by
  unfold State.maskWait
  rw [hc]
  dsimp only
  rw [if_pos hfails, if_pos hfails]
  split
  · exact .inr rfl
  · exact .inl rfl

theorem samp_takeReleased (s : State) (slot inp n : Nat) : (s.takeReleased slot inp n).samp = s.samp := by
  unfold State.takeReleased
  rw [releaseTo_eq]
  rfl

theorem runs_sample_takes {b : InBind} {x : Tile} {r : List Tile} (hrun : runningCmd s slot 0x60 = some k)
    (hopen : k.work.opened = true) (hes : es = sampEnts (smCount k.opb) (k.loaded[0]?.getD [])) (hfails : k.work.fails = 0)
    (hb : k.ins[0]? = some b) (hw : b.window = x :: r) (hok : sampTileOk (smFmt k.opb)
      (logitTiles (smFmt k.opb) (smVocab k.opb) * (es.map SampEnt.rows).sum) (rowsIn b.taken) x = true) :
    Runs (.sample slot) s fun t' =>
      (∃ (u : Tracked) (b' : InBind), t'.cmd? slot = some u ∧ u.ins[0]? = some b' ∧ b'.window = r ∧ b'.taken = b.taken ++ [x]) ∧
      t'.samp = s.samp ∧ t'.events = s.events ∧ Kept [] s t' := by
  obtain ⟨hc, -⟩ := runningCmd_eq_some hrun
  have hexec := exec_sample_takes hrun hopen hes hfails hb hw
  rw [sampTake_logits hok] at hexec
  obtain ⟨u, hu, hins, hwork, -⟩ := cmd?_takeReleased hc hb hw (b.taken.length + 1)
  obtain ⟨hevents, hkept⟩ := takeReleased_frame s slot 0 (b.taken.length + 1)
  have hsamp := samp_takeReleased s slot 0 (b.taken.length + 1)
  rcases maskWait_of_idle hu (by rw [hwork, hfails]) es with heq | heq <;> rw [heq] at hexec
  · exact ⟨_, hexec, ⟨u, _, hu, hins, rfl, rfl⟩, hsamp, hevents, hkept⟩
  · exact ⟨_, hexec, ⟨_, _, cmd?_updCmd_self hu, hins, rfl, rfl⟩, hsamp, hevents, hkept.trans (kept_of_regs rfl rfl rfl rfl _)⟩

/-! ### Every tile taken -/

/-- A SAMPLE that has taken all its tiles samples its entries, or emits what they gave. -/
theorem exec_sample_dry (hrun : runningCmd s slot 0x60 = some k) (hopen : k.work.opened = true)
    (hes : es = sampEnts (smCount k.opb) (k.loaded[0]?.getD [])) (hins : ∀ b ∈ k.ins, b.window = [] ∧ b.lastIn = true)
    (hfails : k.work.fails = 0) :
    exec (.sample slot) s = .next (if k.work.aux = 0 then s.sampCommit slot k es else s.sampEmit slot k) := by
  have hdry : ((List.range k.ins.length).findSome? fun i =>
      (k.ins[i]?).bind fun b => b.window.head?.map fun x => (i, b, x)) = none := by
    refine List.findSome?_eq_none_iff.mpr fun i _ => ?_
    cases hb : k.ins[i]? with
    | none => rfl
    | some b => rw [Option.bind_some, (hins b (List.mem_of_getElem? hb)).1]; rfl
  have hlast : k.ins.all (fun b => b.lastIn) = true := List.all_eq_true.mpr fun b hb => (hins b hb).2
  subst hes
  change execSample slot s = _
  unfold execSample
  rw [hrun]
  dsimp only
  rw [if_neg (by simp [hopen]), if_pos hfails, hdry]
  dsimp only
  rw [if_neg (by simp [hlast]), if_neg (by simp [hfails])]
  split <;> rfl

/-! ### Sampling -/

/-- The rows that an input brought. -/
def takenRows (k : Tracked) (i : Nat) : List Byte := ((k.ins[i]?).map fun b => b.taken.flatMap expand).getD []

/-- The header record of a step batch: its step, the count of its records, its partition and its kind (Table 6-4). -/
def batchHeader (k : Tracked) (o : SampOut) : List Byte := rec32 (opw k.opb 5 47 0) (o.recs.length + k.part * 2 ^ 32) 0 1

/-- The command with the results of its entries to be emitted. -/
def Tracked.sampled (c k : Tracked) (o : SampOut) : Tracked :=
  { c with loaded := [c.loaded[0]?.getD [], (batchHeader k o :: o.recs).flatten, o.toks.flatten]
           work := { c.work with aux := 1, bytes := o.resolve.length } }

/-- The state in which the entries are sampled: cancelled ones marked. -/
def State.markEntries (s : State) (slot part : Nat) (es : List SampEnt) : State := es.foldl (fun s e => s.markEntry slot part e) s

theorem sampCommit_eq (hres : smResolve k.opb = 0) : s.sampCommit slot k es =
    ((s.markEntries slot k.part es).sampleAll k.part k.opb es (takenRows k 0) (takenRows k 1)).1.updCmd slot fun u =>
      u.sampled k ((s.markEntries slot k.part es).sampleAll k.part k.opb es (takenRows k 0) (takenRows k 1)).2 := by
  unfold State.sampCommit
  dsimp only
  rw [if_neg (by simp [hres])]
  rfl

section
variable (hrun : runningCmd s slot 0x60 = some k) (hopen : k.work.opened = true)
  (hes : es = sampEnts (smCount k.opb) (k.loaded[0]?.getD [])) (hins : ∀ b ∈ k.ins, b.window = [] ∧ b.lastIn = true)
  (hfails : k.work.fails = 0)
include hrun hopen hes hins hfails

theorem exec_sample_commits (haux : k.work.aux = 0) (hres : smResolve k.opb = 0) : exec (.sample slot) s = .next
    (((s.markEntries slot k.part es).sampleAll k.part k.opb es (takenRows k 0) (takenRows k 1)).1.updCmd slot fun u =>
      u.sampled k ((s.markEntries slot k.part es).sampleAll k.part k.opb es (takenRows k 0) (takenRows k 1)).2) := by
  rw [exec_sample_dry hrun hopen hes hins hfails, if_pos haux, sampCommit_eq hres]

/-- Where no CANCEL waits for an entry, every entry is sampled and the batch is there to be emitted. -/
theorem runs_sample_commits {o : State × SampOut} (haux : k.work.aux = 0) (hres : smResolve k.opb = 0)
    (hdue : ∀ e ∈ es, ∀ d ∈ s.cancelDue, d.1 ≠ e.reqSeq)
    (ho : o = s.sampleAll k.part k.opb es (takenRows k 0) (takenRows k 1)) : Runs (.sample slot) s fun t' =>
      (∃ u : Tracked, t'.cmd? slot = some u ∧ u.work.aux = 1 ∧ u.loaded[0]? = some (k.loaded[0]?.getD []) ∧
        u.loaded[1]? = some (leBytes 8 (opw k.opb 5 47 0) ++ leBytes 8 (o.2.recs.length + k.part * 2 ^ 32) ++ leBytes 8 0 ++
          leBytes 8 1 ++ o.2.recs.flatten) ∧ u.loaded[2]? = some o.2.toks.flatten) ∧
      o.2.toks.length = es.length ∧ (∀ x ∈ o.2.recs, x.length = 32) ∧
      (∀ q, (∀ e ∈ es, e.seq ≠ q) → sampSeq t' q = sampSeq s q) ∧
      (∀ k, (∀ e ∈ es, e.reqSeq ≠ k) → tget t'.requests k = tget s.requests k) ∧
      (∀ (e : SampEnt) (r : Request), es = [e] → e.draft = false → e.group = 0 ∨ groupMarked s k.part e.group = false →
        tget s.requests e.reqSeq = some r → r.part = k.part → r.state = .prefill ∨ r.state = .decode →
        ∃ r' : Request, tget t'.requests e.reqSeq = some r' ∧ r'.entry = e.raw ∧ (r'.state = .decode ∨ r'.state = .ended)) ∧
      t'.cancels = s.cancels ∧ t'.events = s.events ∧ Kept sampRegs s t' := by
  obtain ⟨hc, -⟩ := runningCmd_eq_some hrun
  have hexec := exec_sample_commits hrun hopen hes hins hfails haux hres
  have hmark : s.markEntries slot k.part es = s := markEntries_of_noDue slot k.part hdue
  rw [hmark, ← ho] at hexec
  obtain ⟨hdone, htoks, hrecs⟩ := sampleAll_done s k.part k.opb es (takenRows k 0) (takenRows k 1)
  have hnotes := fun e r (he : es = [e]) hd hkeep hr hpart hstate =>
    sampleAll_notes (s := s) (part := k.part) (e := e) (r := r) (opb := k.opb) (xs := takenRows k 0) (ms := takenRows k 1)
      hd hkeep hr hpart hstate
  rw [← ho] at hdone htoks hrecs
  refine ⟨_, hexec, ⟨k.sampled k o.2, cmd?_updCmd_self ((cmd?_congr hdone.tracked slot).trans hc), rfl, rfl, rfl, rfl⟩, htoks, hrecs,
    hdone.samp, hdone.requests, fun e r he hd hkeep hr hpart hstate => ?_, hdone.cancels, hdone.events,
    hdone.kept.trans (kept_of_regs rfl rfl rfl rfl _)⟩
  subst he
  rw [ho]
  exact hnotes e r rfl hd hkeep hr hpart hstate

/-- A request cancelled before the command was accepted has its group marked. -/
theorem runs_sample_marks {e : SampEnt} {l : List SampEnt} {m : Nat} {r : Request} (haux : k.work.aux = 0) (hres : smResolve k.opb = 0)
    (hl : es = e :: l) (hd : e.draft = false) (hr : tget s.requests e.reqSeq = some r) (hpart : r.part = k.part)
    (hdue : (s.cancelDue.find? fun d => d.1 == e.reqSeq) = some (e.reqSeq, m)) (hm : m ≤ slot) (hg : e.group ≠ 0) :
    Runs (.sample slot) s fun t' => (k.part, e.group) ∈ t'.cancels := by
  refine ⟨_, exec_sample_commits hrun hopen hes hins hfails haux hres, ?_⟩
  have hdone := (sampleAll_done (s.markEntries slot k.part es) k.part k.opb es (takenRows k 0) (takenRows k 1)).1
  change _ ∈ (State.sampleAll _ _ _ _ _ _).1.cancels
  rw [hdone.cancels, hl]
  exact cancels_markEntries slot k.part l _ (markEntry_marks hd hr hpart hdue hm hg)

/-! ### Emitting -/

/-- The next tile of the batch: 128 records of 32 bytes, or what is left (R381). -/
theorem runs_sample_emits {o : OutBind} (haux : k.work.aux ≠ 0) (hroom : roomFor s k = true) (ho : k.outs[0]? = some o)
    (hformed : o.formed < 2 ^ 32 - 1) (hpos : k.work.pos < ceilDiv (k.loaded[1]?.getD []).length 4096) :
    Runs (.sample slot) s fun t' =>
      FormsTile slot k o t' (fun x => x.format = 1 ∧
        x.payload = ((k.loaded[1]?.getD []).drop (4096 * k.work.pos)).take 4096 ∧
        (x.last = true ↔ (k.loaded[1]?.getD []).length ≤ 4096 * (k.work.pos + 1))) ∧
      t'.events = s.events ∧ Kept [] s t' := by
  obtain ⟨hc, -, -, hst, -⟩ := runningCmd_eq_some hrun
  have hemit : s.sampEmit slot k = (s.gather slot (k.work.pos + 1) 0 0).formTile slot 0
      (batchTile 0x01 32 k.work.pos (k.loaded[1]?.getD [])) := by
    unfold State.sampEmit
    dsimp only
    rw [if_neg (not_not.mpr hroom), if_pos hpos]
  have hexec := exec_sample_dry hrun hopen hes hins hfails
  rw [if_neg haux, hemit] at hexec
  obtain ⟨u, p, hu, hupos, hp, hpf, hpq⟩ := cmd?_gather_formTile hc ho hst hformed (k.work.pos + 1) 0 0
    (batchTile 0x01 32 k.work.pos (k.loaded[1]?.getD []))
  have honly := gather_formTile_eq hc ho hst hformed (k.work.pos + 1) 0 0 (batchTile 0x01 32 k.work.pos (k.loaded[1]?.getD []))
  refine ⟨_, hexec, ⟨u, p, _, hu, hupos, hp, hpf, hpq, rfl, rfl, rfl, rfl, rfl, decide_eq_true_iff⟩, ?_, ?_⟩ <;> rw [honly]
  exact kept_of_regs rfl rfl rfl rfl _

end

/-- Settles O28: each step by the branch that the state selects; entries leave all but their own sequences and requests as they were. -/
theorem sampleEmitsABatch : Obligations.SampleEmitsABatch := by
  unfold Obligations.SampleEmitsABatch
  refine ⟨?_, ?_, ?_, ?_, ?_⟩
  · intro slot s k hrun hopen hal hown hgood hclear hcheck
    exact runs_sample_open hrun hopen rfl hal hown hgood hclear hcheck
  · intro slot s k b x r es hrun hopen hes hfails hb hw _ hok
    exact runs_sample_takes hrun hopen hes hfails hb hw hok
  · intro slot s k es o hrun hopen hes hins hfails haux hres hdue ho
    exact runs_sample_commits hrun hopen hes hins hfails haux hres hdue ho
  · intro slot m s k e l r hrun hopen hl hins hfails haux hres hd hr hpart hdue hm hg
    exact runs_sample_marks hrun hopen rfl hins hfails haux hres hl.symm hd hr hpart hdue hm hg
  · intro slot s k o hrun hopen hins hfails haux hroom ho hformed hpos
    exact runs_sample_emits hrun hopen rfl hins hfails haux hroom ho hformed hpos

end Sys2Proof.Machine
end
